-- ==== Sys2Proof/Word.lean ====
section
/-! DEFINITION. The word types of the WK4096 (R18, R23, R24, R555) and the sparse table that holds every family of
like things (octads, tiles, lanes, cells, rings, sensors). -/

namespace Sys2Proof

abbrev Byte := BitVec 8
/-- A BAR0 register word (R555) or a 32-bit field. -/
abbrev Word := BitVec 32
/-- One 8-byte payload of a Truss block (R177, R185). -/
abbrev Block := BitVec 64
/-- The device tick count (R18). -/
abbrev Tick := BitVec 64

/-- A family of like things by number: what is listed differs from the default, an unlisted number holds the default.
Keys rise strictly. -/
structure Tab (α : Type) where
  dflt : α
  ents : List (Nat × α)
deriving DecidableEq, Repr

namespace Tab

def empty (d : α) : Tab α := ⟨d, []⟩

/-- What the list gives for a key. -/
def look (d : α) : List (Nat × α) → Nat → α
  | [], _ => d
  | (k, v) :: r, i => if k = i then v else look d r i

/-- The list with a key's value put at its place in the rising order. -/
def put (i : Nat) (v : α) : List (Nat × α) → List (Nat × α)
  | [] => [(i, v)]
  | (k, w) :: r => if i = k then (i, v) :: r else if i < k then (i, v) :: (k, w) :: r else (k, w) :: put i v r

def get (t : Tab α) (i : Nat) : α := look t.dflt t.ents i

def set (t : Tab α) (i : Nat) (v : α) : Tab α := { t with ents := put i v t.ents }

def upd (t : Tab α) (i : Nat) (f : α → α) : Tab α := t.set i (f (t.get i))

/-- Every listed entry through one function; an unlisted key keeps the default. -/
def mapAll (t : Tab α) (f : Nat → α → α) : Tab α := { t with ents := t.ents.map fun e => (e.1, f e.1 e.2) }

end Tab

/-- A Bool as a bit of a word. -/
def bit (b : Bool) : Nat := if b then 1 else 0

/-- Bits [hi:lo] of a number. -/
def field (w lo len : Nat) : Nat := w / 2 ^ lo % 2 ^ len

/-- A natural number read as a signed number of the given width. -/
def sext (width v : Nat) : Int :=
  let u := v % 2 ^ width
  if u < 2 ^ (width - 1) then (u : Int) else (u : Int) - (2 ^ width : Nat)

/-- A signed number as the unsigned code of the given width (two's complement, R23). -/
def unsign (width : Nat) (v : Int) : Nat := (v % ((2 ^ width : Nat) : Int)).toNat

/-- v limited to the range lo to hi. -/
def clampI (lo hi v : Int) : Int := if v < lo then lo else if hi < v then hi else v

/-- A counter of the given width that stops at its maximum (R51). -/
def satAdd (width a b : Nat) : Nat := min (a + b) (2 ^ width - 1)

end Sys2Proof
end

