-- ==== Sys2Proof/Syntax.lean ====
section
/-! DEFINITION. The commands of the WK4096: one constructor of `Instr` for each row of spec/opcode_table.json, with the
operands that come with it from outside the block.  Octads, tiles, lanes (index 2t + b), engines and rings are numbered as
R13, R16, R173, R213 and R345 number them. -/

namespace Sys2Proof

/-- The fields of a descriptor that every opcode has (Table 11-4): IRQ, TAG and, when ACT is set, ACTFRAME. -/
structure Hdr where
  irq : Bool
  tag : BitVec 16
  act : Option Word
deriving DecidableEq, Repr

/-- The buffer body of a descriptor (Table 11-4). -/
structure Buf where
  addr : BitVec 64
  len : BitVec 16
  buflen : BitVec 16
deriving DecidableEq, Repr

/-- The parameters of INJ_START (Table 11-6). -/
structure InjParams where
  gen : BitVec 2
  kind : BitVec 2
  port : BitVec 2
  order : BitVec 2
  block : BitVec 10
  amp : Word
  samples : BitVec 24
  phi : Word
  dphi : Word
  hold : BitVec 8
deriving DecidableEq, Repr

/-- How a MODE_CHANGE names its activation (R297): by ACTFRAME (the header's act) or by a device time. -/
structure ModeParams where
  units : BitVec 9
  ns : BitVec 16
  targets : BitVec 40
  time : Option (BitVec 48 × Word)
deriving DecidableEq, Repr

/-- A frame as it arrives on a lane: FRAME_START payload, data payloads, FRAME_END payload (R180). -/
structure RawFrame where
  start : Block
  data : List Block
  fend : Block
deriving DecidableEq, Repr

/-- The two Kingpost channels (R408). -/
inductive KpCh | a | b
deriving DecidableEq, Repr

/-- A PLL of R463 or R482. -/
inductive Pll | time | core | quad (q : Fin 32)
deriving DecidableEq, Repr

/-- The memory in which a double-bit error is found (R404). -/
inductive Mem | tile (t : Fin 64) | octad (n : Fin 8) | device
deriving DecidableEq, Repr

/-- Bytes of one memory of each kind (Table 1-2): 48 KiB, 2 MiB, 4 MiB. -/
def Mem.size : Mem → Nat
  | .tile _ => 48 * 2 ^ 10
  | .octad _ => 2 * 2 ^ 20
  | .device => 4 * 2 ^ 20

/-- The on-chip SRAM in all (R33): 64 tile memories, 8 octad memories, the device memory; 23 MiB. -/
def sramBytes : Nat := 64 * (48 * 2 ^ 10) + 8 * (2 * 2 ^ 20) + 4 * 2 ^ 20

/-- 66 bits as a lane's receiver takes them, first bit in bit 0, and how many blocks the device's side has read from the elastic
buffer meanwhile: 1 but for the slip of the two clocks (R148, R150). -/
structure RxWord where
  bits : BitVec 66
  reads : BitVec 2
deriving DecidableEq, Repr

/-- Reads of an engine's memory, in one sample, that needed a single-bit correction: the block that made them and their number
(R34, R244). -/
structure BlockReads where
  block : BitVec 10
  reads : BitVec 8
deriving DecidableEq, Repr

/-- Corrected reads of the memory of one of an octad's tiles since the octad's last latch (R34). -/
structure TileReads where
  tile : Fin 8
  reads : BitVec 16
deriving DecidableEq, Repr

/-- A T_FB latch of octad n, with the corrected reads of its tiles' memories since the one before (R34, R35). -/
structure OctLatch where
  n : Fin 8
  ecc : List TileReads
deriving DecidableEq, Repr

/-- What a device memory read was for (R367). -/
inductive ReadKind | sweep | fetch (ring : Fin 10) (count : BitVec 8) | buffer (ring : Fin 10)
deriving DecidableEq, Repr

/-- How a read without data ends (R367): not within CPLTO, with Unsupported Request, with Completer Abort. -/
inductive ReadEnd | timeout | unsupported | abort
deriving DecidableEq, Repr

/-- A read of host memory that has failed, and how it ended (R367). -/
structure FailedRead where
  kind : ReadKind
  cause : ReadEnd
deriving DecidableEq, Repr

/-- What a host write addresses (R342): the set-up registers, BAR2 (the MSI-X table and pending-bit array), the enable (bit 1)
and function mask (bit 0) of the MSI-X capability, the power state in configuration space (0 D0, 3 D3hot). -/
inductive HostSpace | bar0 | bar2 | cfgMsix | cfgPower
deriving DecidableEq, Repr

/-- Where a host write goes. -/
structure HostAddr where
  space : HostSpace
  ofs : BitVec 24
deriving DecidableEq, Repr

/-- An edge at a TSTAMP pin: the new level, and for how many ticks the pin stays there (R333). -/
structure PinEdge where
  rising : Bool
  held : Byte
deriving DecidableEq, Repr

/-- What stands before the payload of an Ethernet frame (R311): its EtherType, and how many IEEE 802.1Q tags precede it. -/
structure EthHdr where
  etherType : BitVec 16
  tags : BitVec 2
deriving DecidableEq, Repr

/-- The fields of a PTP message that the device uses (R312 to R315), the destination MAC among them; times are in units of 2^-16 ns, and `sub` is
how far into the present tick, 2.5 ns long, the octet after the start-of-frame delimiter begins (R314). -/
structure PtpMsg where
  eth : EthHdr
  dst : BitVec 48
  domain : Byte
  clock : BitVec 64
  seq : BitVec 16
  correction : Int
  stamp : Int
  sub : Fin 163840
  twoStep : Bool
  logInterval : Int
deriving DecidableEq, Repr

/-- The data set of an Announce message and its destination MAC (R312, R313). -/
structure AnnounceMsg where
  eth : EthHdr
  dst : BitVec 48
  domain : Byte
  gm : BitVec 64
  priority1 : Byte
  clockClass : Byte
  accuracy : Byte
  variance : BitVec 16
  priority2 : Byte
  steps : BitVec 16
  sender : BitVec 64
  utc : BitVec 16
  logInterval : Int
deriving DecidableEq, Repr

/-- One ASDU of a sampled-value stream (R334 to R337). -/
structure AsduMsg where
  eth : EthHdr
  mac : BitVec 48
  appid : BitVec 16
  svid : List Byte
  confRev : Word
  smpCnt : Word
  smpSynch : Byte
  simulated : Bool
  values : List (Word × Word)
deriving DecidableEq, Repr

/-- What an access through JTAG does: a read or a write of memory, a boundary-scan test that drives the pins, IDCODE, BYPASS
(R458). -/
inductive JtagAccess | read | write (w : Word) | scan (pins : List Bool) | idcode | bypass
deriving DecidableEq, Repr

/-- One constructor for each row of the table. -/
inductive Instr where
  -- descriptors of Table 11-6
  | nop (ring : Fin 10) (h : Hdr)
  | deblock (n : Fin 8) (h : Hdr) (target : Byte)
  | block (n : Fin 8) (h : Hdr)
  | rundown (n : Fin 8) (h : Hdr)
  | mboxWrite (e : Fin 9) (h : Hdr) (writes : List (Byte × Word))
  | coefWrite (e : Fin 9) (h : Hdr) (b : Buf) (first : BitVec 16)
  | coefSwap (e : Fin 9) (h : Hdr)
  | injStart (e : Fin 9) (h : Hdr) (p : InjParams)
  | injStop (e : Fin 9) (h : Hdr) (mask : BitVec 4)
  | cellQuery (n : Fin 8) (h : Hdr) (cell selector : BitVec 16)
  | cellRetire (n : Fin 8) (h : Hdr) (cell : BitVec 16)
  | ldgSnapshot (n : Fin 8) (h : Hdr)
  | imgStage (h : Hdr) (b : Buf) (ofs : Word)
  | lawLoad (h : Hdr) (eng : Byte) (imglen : Word)
  | modeLoad (h : Hdr) (eng : Byte) (imglen : Word)
  | modeChange (h : Hdr) (p : ModeParams)
  | tripClear (h : Hdr) (mask : BitVec 16)
  | timeStep (h : Hdr)
  | enumerate (h : Hdr) (tile lane : Byte)
  | c0Write (h : Hdr) (cell : BitVec 16) (c0 : Word)
  | c0Clear (h : Hdr) (cell : BitVec 16)
  | c0Adopt (h : Hdr) (octad : Byte)
  | faultClear (h : Hdr) (code source : BitVec 16)
  | faultRelease (h : Hdr)
  | thmDemand (h : Hdr) (mask : BitVec 80)
  | belRead (h : Hdr) (b : Buf) (area : Byte) (first count : BitVec 16)
  | belFreeze (h : Hdr)
  | belfryThaw (h : Hdr)
  | bistRun (h : Hdr) (blk : BitVec 16)
  | bistRequalify (h : Hdr) (blk : BitVec 16)
  | psetNonce (h : Hdr) (b : Buf)
  | psetCommit (h : Hdr) (imglen : Word)
  | keyChange (h : Hdr) (imglen : Word)
  | attest (h : Hdr) (b : Buf) (challenge : BitVec 64)
  | fwInstall (h : Hdr) (slot : Byte) (imglen : Word)
  -- host interface
  | descriptorActivation
  | doorbellSweep (page : List Word)
  | descriptorFetch (ring : Fin 10) (raw : List (BitVec 256))
  | bufferRead (ring : Fin 10) (data : List Byte)
  | readTimeout (r : FailedRead)
  | hostLost
  | perstN
  | pcieLinkDown
  | d3hot
  | hostInterfaceEnable (ctrl : Word)
  | ringEnable (r : Fin 37) (cfg : Word)
  | ringDisable (r : Fin 37)
  -- registers
  | registerWrite (at_ : HostAddr) (value : Word) (be : BitVec 4)
  | tsTime0Read
  | originArm
  | frameOrigin
  | eyeScanStart (l : Fin 128)
  | tombClr
  | laneEnable (l : Fin 128)
  | laneDisable (l : Fin 128)
  -- the cell frame
  | timelineTakesEffect
  | feedbackDeadline (x : OctLatch)
  | engineDeadline (n : Fin 8) (reads : List BlockReads) (other : BitVec 16)
  | selectionComplete (n : Fin 8)
  | selWdog (n : Fin 8)
  | commandDispatch (n : Fin 8)
  | baseFrameBoundary
  | modeDecision
  | stationSampleStart
  | stationDeadline (reads : List BlockReads) (other : BitVec 16)
  | dpwmPeriodStart (o : Fin 24)
  | dpwmEdge (o : Fin 24)
  | ledgerWindowEnd (n : Fin 8)
  | ledgerArithmeticComplete (n : Fin 8)
  | csaveSave
  -- Truss
  | feedbackFrame (l : Fin 128) (f : RawFrame)
  | captureFrame (l : Fin 128) (f : RawFrame)
  | enumFrame (l : Fin 128) (f : RawFrame)
  | enumTimeout (l : Fin 128)
  | abort (l : Fin 128) (b : Block)
  | capability (l : Fin 128) (b : Block)
  | linkCmdAck (l : Fin 128) (b : Block)
  | reportRsp (l : Fin 128) (b : Block)
  | qualPointDone (l : Fin 128) (disagreements : Word)
  | eyeScanPoint (l : Fin 128) (count : Word) (lockLost : Bool)
  | blockLock (l : Fin 128) (ws : List RxWord)
  | laneLockLoss (l : Fin 128) (ws : List RxWord)
  | laneElastic (l : Fin 128) (ws : List RxWord)
  | tHunt (l : Fin 128)
  | tCapx (l : Fin 128)
  | tAck (l : Fin 128)
  | tStep (l : Fin 128)
  | tRt (l : Fin 128)
  | laneWake (l : Fin 128)
  | mark (l : Fin 128)
  | echo (l : Fin 128) (b : Block) (t4 : BitVec 48)
  | creditRefresh (l : Fin 128)
  -- trips, triggers, time
  | tripIn (m : Fin 16) (level : Bool)
  | timestampCapture (i : Fin 8) (edge : PinEdge)
  | triggerFiring (n : Fin 8)
  | convstEnd (n : Fin 8)
  | samplePortClockStart (n : Fin 8)
  | samplePortFrame (n : Fin 8) (words : List (BitVec 24))
  | sync (port : Fin 2) (m : PtpMsg)
  | followUp (port : Fin 2) (m : PtpMsg)
  | delayResp (port : Fin 2) (m : PtpMsg)
  | pdelayReq (port : Fin 2) (m : PtpMsg)
  | pdelayResp (port : Fin 2) (m : PtpMsg)
  | announce (port : Fin 2) (m : AnnounceMsg)
  | delayReqSend (port : Fin 2)
  | announceTimeout
  | syncTimeout
  | asdu (port : Fin 2) (a : AsduMsg)
  | svLost (st : Fin 32)
  -- faults
  | faultReport
  | consWindowClose
  | faultNHoldEnd
  | fltStall (level : Fin 4)
  | fltSelf
  | fallbackRecordCopy
  | doubleBitError (m : Mem) (addr : Word)
  -- Kingpost
  | kpInputSample (ch : KpCh) (sin : BitVec 16) (sfb blk sout : Byte)
  | kpEvaluationCycle (ch : KpCh)
  | kpHandshake (ch : KpCh) (count : BitVec 16)
  | kpXchTimeout (ch : KpCh)
  | kpInFaulty (ch : KpCh) (pair : Fin 16)
  | kpSrdMeasurement (ch : KpCh) (words : Option (List (BitVec 24)))
  | kpFbTimeout (ch : KpCh) (out : Fin 8)
  | darkPulseStart (ch : KpCh) (out : Fin 8)
  | kpTestFail (ch : KpCh) (out : Fin 8)
  | kpParamApply
  | kpParamReject
  | vkpOutOfRange
  | kingpostViewAction
  -- clocks
  | hop (point : Fin 8)
  | searchHop (point : Fin 8)
  | lockDeclared (p : Pll)
  | settlingWaitEnd (p : Pll)
  | bandSearchComplete (p : Pll) (band : Option (BitVec 5))
  | relockTimeout (p : Pll)
  | clkCoreUnlock
  | clkRefLoss (b : Bool)
  | refQualified (b : Bool)
  | clkPhaseJump
  | quadPllUnlock (q : Fin 32)
  -- energy and temperature
  | energyEpoch (counts : List (BitVec 32)) (core sram ser : BitVec 64)
  | eplCalibration
  | scheduledDemand (sensor : Fin 76)
  | sensorGateStart (sensor : Fin 76)
  | sensorResult (sensor : Fin 76) (count : Word)
  | stalenessTimeout (sensor : Fin 76)
  | graceTimeEnd
  -- Belfry
  | recordWrite (fails : Fin 4)
  | noteWrite (seq : Word) (fails : Fin 4)
  | sectorErase (sector : Fin 512) (fails : Fin 4)
  | countEntry
  | belThaw
  -- power, start-up, BIST, protection set, debug
  | railsInRange
  | pwrgoodAsserted (testEn : Bool)
  | pwrgoodDeasserted
  | bistSegmentEnd (counter : Word) (ok : Bool) (ball : BitVec 16)
  | bistSegmentTimeout (counter : Word)
  | octRdTimeout (n : Fin 8)
  | deblockBLanesWarm (n : Fin 8)
  | psetApplied (verified : Bool)
  | nonceExpiry
  | jtagChallenge
  | jtagToken (token : List Byte)
  | jtagMemoryAccess (addr : Word) (write : JtagAccess)
  | debugGrantExpiry
  | debugHalt
  | debugRelease
  | vkpInRange
  | mainRailsLost
  | perstNRelease
  | pcieLinkUp (speed width : BitVec 3)
  | octadEpoch (n : Fin 8)
  | malformedBlock (l : Fin 128) (isData : Bool) (b : Block)
deriving DecidableEq, Repr

/-- A descriptor body: what each opcode of Table 11-6 names.  Ring-bound octads and engines come from the ring. -/
inductive Body where
  | nop | deblock (target : Byte) | block | rundown
  | mboxWrite (writes : List (Byte × Word))
  | coefWrite (b : Buf) (first : BitVec 16) | coefSwap
  | injStart (p : InjParams) | injStop (mask : BitVec 4)
  | cellQuery (cell selector : BitVec 16) | cellRetire (cell : BitVec 16) | ldgSnapshot
  | imgStage (b : Buf) (ofs : Word) | lawLoad (eng : Byte) (imglen : Word) | modeLoad (eng : Byte) (imglen : Word)
  | modeChange (p : ModeParams) | tripClear (mask : BitVec 16) | timeStep | enumerate (tile lane : Byte)
  | c0Write (cell : BitVec 16) (c0 : Word) | c0Clear (cell : BitVec 16) | c0Adopt (octad : Byte)
  | faultClear (code source : BitVec 16) | faultRelease | thmDemand (mask : BitVec 80)
  | belRead (b : Buf) (area : Byte) (first count : BitVec 16) | belFreeze | belfryThaw
  | bistRun (blk : BitVec 16) | bistRequalify (blk : BitVec 16)
  | psetNonce (b : Buf) | psetCommit (imglen : Word) | keyChange (imglen : Word)
  | attest (b : Buf) (challenge : BitVec 64) | fwInstall (slot : Byte) (imglen : Word)
deriving DecidableEq, Repr

end Sys2Proof
end

