-- ==== Sys2Proof/WellFormed.lean ====
section
/-! DEFINITION. Which commands are well formed: lengths that the spec fixes. -/

namespace Sys2Proof

/-- A command whose lists have the lengths that the spec gives them: the doorbell page has 64 words (R349), a fetch covers
1 to 128 descriptors (R353), a buffer holds 1 to 65,535 bytes (R356), an MBOX_WRITE has 1 to 4 writes, a conversion frame
has 1 to 4 words (R331), a debug token has 6,178 bytes (R459), an energy epoch has 16 counts (R487), an ASDU has 1 to 16
values (R334); a word address lies within its memory (R33). -/
def Instr.wf : Instr → Bool
  | .mboxWrite _ _ ws => decide (1 ≤ ws.length) && decide (ws.length ≤ 4)
  | .doorbellSweep p => p.length == 64
  | .descriptorFetch _ raw => decide (1 ≤ raw.length) && decide (raw.length ≤ 128)
  | .bufferRead _ d => decide (1 ≤ d.length) && decide (d.length ≤ 65535)
  | .readTimeout ⟨.fetch _ c, _⟩ => decide (1 ≤ c.toNat) && decide (c.toNat ≤ 128)
  | .samplePortFrame _ ws => decide (1 ≤ ws.length) && decide (ws.length ≤ 4)
  | .asdu _ a => decide (1 ≤ a.values.length) && decide (a.values.length ≤ 16)
  | .energyEpoch c _ _ _ => c.length == 16
  | .doubleBitError m a => decide (a.toNat < m.size) && a.toNat % 4 == 0
  | .jtagToken t => t.length == 6178
  | _ => true

end Sys2Proof
end

