-- ==== Sys2Proof/Machine/Bits.lean ====
section
/-! DEFINITION. Bytes, little-endian fields (R177, R356) and the CRC-32C of R182. -/

namespace Sys2Proof.Machine

/-- The n bytes of a number, lowest first (R177, R356: multi-byte fields are little-endian). -/
def leBytes : Nat → Nat → List Byte
  | 0, _ => []
  | n + 1, v => BitVec.ofNat 8 v :: leBytes n (v / 256)

/-- The number that bytes spell, lowest byte first. -/
def leNat : List Byte → Nat
  | [] => 0
  | b :: r => b.toNat + 256 * leNat r

/-- The number in bytes o to o + n − 1 of a list. -/
def leAt (bs : List Byte) (o n : Nat) : Nat := leNat ((bs.drop o).take n)

/-- The 8 payload bytes of a block, byte 0 in bits [7:0] (R177). -/
def blockBytes (b : Block) : List Byte := leBytes 8 b.toNat

/-- A block from its bytes, zeros after the last (Table 6-1). -/
def blockOf (bs : List Byte) : Block := BitVec.ofNat 64 (leNat (bs ++ List.replicate 8 0 |>.take 8))

/-- Byte i of a block. -/
def blockByte (b : Block) (i : Nat) : Nat := field b.toNat (8 * i) 8

def crcBit (c : Nat) : Nat := if c % 2 = 1 then (c / 2) ^^^ 0x82F63B78 else c / 2

/-- One byte into the CRC register, least significant bit first (R182, reflected 0x1EDC_6F41). -/
def crcByte (c : Nat) (b : Byte) : Nat :=
  crcBit (crcBit (crcBit (crcBit (crcBit (crcBit (crcBit (crcBit (c ^^^ b.toNat))))))))

/-- CRC-32C of R182: initial value 0xFFFF_FFFF, final XOR 0xFFFF_FFFF. -/
def crc32c (bs : List Byte) : Word := BitVec.ofNat 32 (bs.foldl crcByte 0xFFFFFFFF ^^^ 0xFFFFFFFF)

/-- An image with the four bytes at an offset taken as zero, as its own CRC field is (R218, R288, R441). -/
def zeroField (bs : List Byte) (o : Nat) : List Byte := bs.take o ++ [0, 0, 0, 0] ++ bs.drop (o + 4)

/-- B(j) of R116: the 4 bits of j in reversed order. -/
def dither (j : Nat) : Nat :=
  8 * (j % 2) + 4 * (j / 2 % 2) + 2 * (j / 4 % 2) + j / 8 % 2

/-- The tick at which an edge of whole tick T and phase p is realised under dither index j (R116). -/
def realisedTick (t p j : Nat) : Nat := if dither (j % 16) < p then t + 1 else t

/-- The signed 32-bit difference a − b of two frame numbers (R44). -/
def frameDiff (a b : Word) : Int := sext 32 (a - b).toNat

/-- A 31-bit counter with its saturation flag as a register word. Log entry 62. -/
def satWord (n : Nat) : Word := BitVec.ofNat 32 (if n < 2 ^ 31 - 1 then n else 2 ^ 32 - 1)

end Sys2Proof.Machine
end

