-- ==== Sys2Proof/Config.lean ====
section
/-! DEFINITION. What the spec leaves to the device or to other standards: free values and uninterpreted functions.  None
has a body, so no statement can rest on a value of one.  DESIGN CHOICE (log entries 4 and 5). -/

namespace Sys2Proof.Config

/-- The crypto engine's random generator (R444, R459): the n-th 128-bit draw. -/
opaque random128 : Nat → BitVec 128
/-- Falcon-1024 verification of a signature over a 64-byte message under a public key (R446). Log entry 5. -/
opaque falconVerify : List Byte → BitVec 512 → List Byte → Bool
/-- The 1,280-byte signature that the identity key makes over a 64-byte message (R457), as a number. Log entry 5. -/
opaque identitySign : BitVec 512 → BitVec 10240
/-- The identity certificate of 3,100 bytes (Table 14-10), as a number. -/
opaque identityCert : BitVec 24800
/-- The SHAKE256 digest of the boot ROM (Table 14-9). -/
opaque bootRomDigest : BitVec 256
/-- The Askica firmware public key of the boot ROM (R437, R455). -/
opaque askicaKey : List Byte
/-- The codes of the JTAG instructions that the spec does not number, in the order of the forms of JTAG_MEMORY_ACCESS (R459). -/
opaque jtagCode : Nat → BitVec 8
/-- What a JTAG read of the on-chip memory shows where no JTAG write has put a word: the spec gives no address map (R458). -/
opaque memoryWord : Nat → Word
/-- Whether the main collector's registers, rewritten from the shadow, pass the parity check of R397, by the model's counter: the spec
does not say what became of the failing register. Log entry 110. -/
opaque parityHolds : Nat → Bool
/-- The low 12 bits of the octad-level fault code under which an underrun of a set-point queue is posted (Table 1-5): no table
gives it. -/
opaque underrunCode : BitVec 12
/-- Value of an operation whose result the spec does not state, by the model's counter. -/
opaque freeWord : Nat → BitVec 64

end Sys2Proof.Config
end

