-- ==== Sys2Proof/Machine/BFloat.lean ====
section
/-! DEFINITION. Block-floating and Q15 arithmetic (R222, R227 to R234).  Exact values are fractions num / den × 2^exp or
square roots of one; every result is rounded once from its exact value, as R228, R229 and R256 state. -/

namespace Sys2Proof.Machine

/-- A block-floating value m × 2^(e − 23) (R227). -/
structure BF where
  m : Int
  e : Int
deriving DecidableEq, Repr

def BF.zero : BF := ⟨0, -128⟩
/-- 1.0, the true flag of R259. -/
def BF.one : BF := ⟨4194304, 1⟩

/-- A block-floating word (R222): mantissa in [31:8], exponent in [7:0]. -/
def BF.ofWord (w : Word) : BF := ⟨sext 24 (w.toNat / 256), sext 8 w.toNat⟩
def BF.toWord (x : BF) : Word := BitVec.ofNat 32 (unsign 24 x.m * 256 + unsign 8 x.e)

/-- The exact value num / den × 2^exp. -/
structure Ex where
  num : Int
  den : Nat
  exp : Int
deriving DecidableEq, Repr

/-- num and den of an exact value with its power of two worked in. -/
def Ex.frac (x : Ex) : Int × Nat :=
  if 0 ≤ x.exp then (x.num * 2 ^ x.exp.toNat, x.den) else (x.num, x.den * 2 ^ (-x.exp).toNat)

/-- rnd of R229 of a fraction: nearest integer, ties away from zero. -/
def rndFrac (n : Int) (d : Nat) : Int :=
  if 0 ≤ n then (2 * n + d) / (2 * d) else -((2 * (-n) + d) / (2 * d))

def Ex.rnd (x : Ex) : Int := let f := x.frac; rndFrac f.1 f.2
/-- floor of an exact value. -/
def Ex.floor (x : Ex) : Int := let f := x.frac; f.1 / (f.2 : Int)
def Ex.scale (x : Ex) (k : Int) : Ex := { x with exp := x.exp + k }
def Ex.ofInt (v : Int) : Ex := ⟨v, 1, 0⟩
def Ex.neg (x : Ex) : Ex := { x with num := -x.num }
def Ex.mul (x y : Ex) : Ex := ⟨x.num * y.num, x.den * y.den, x.exp + y.exp⟩
def Ex.add (x y : Ex) : Ex :=
  let a := x.frac; let b := y.frac
  ⟨a.1 * b.2 + b.1 * a.2, a.2 * b.2, 0⟩
def Ex.sub (x y : Ex) : Ex := x.add y.neg
def Ex.lt (x y : Ex) : Bool :=
  let a := x.frac; let b := y.frac
  decide (a.1 * b.2 < b.1 * a.2)
def Ex.le (x y : Ex) : Bool := !(y.lt x)
def Ex.eq (x y : Ex) : Bool := x.le y && y.le x
def Ex.min (x y : Ex) : Ex := if y.lt x then y else x
def Ex.max (x y : Ex) : Ex := if x.lt y then y else x
def Ex.clamp (x lo hi : Ex) : Ex := (x.max lo).min hi
def Ex.isNeg (x : Ex) : Bool := decide (x.num < 0)
/-- The exact value of a block-floating value. -/
def BF.ex (x : BF) : Ex := ⟨x.m, 1, x.e - 23⟩

/-- A term of an accumulator: a product or a single value, as P with scale E_t (R228); P stands for P × 2^(E_t − 46). -/
structure Term where
  p : Int
  e : Int
deriving DecidableEq, Repr

def Term.single (x : BF) : Term := ⟨x.m * 2 ^ 23, x.e⟩
def Term.prod (x y : BF) : Term := ⟨x.m * y.m, x.e + y.e⟩
def Term.neg (t : Term) : Term := { t with p := -t.p }

/-- The accumulator of R228: A stands for A × 2^(E − 46), and each term enters as floor(P / 2^(E − E_t)). -/
def accumulate (ts : List Term) : Ex :=
  let e := ts.foldl (fun a t => if a < t.e then t.e else a) (ts.headD ⟨0, -1000⟩).e
  ⟨ts.foldl (fun a t => a + t.p / (2 ^ (e - t.e).toNat : Int)) 0, 1, e - 46⟩

/-- A result before rounding: an exact value, or the exact square root of one. -/
inductive Res | val (x : Ex) | root (x : Ex)
deriving DecidableEq, Repr

/-- Bits of a square root from 2^(k−1) down, above r. -/
def isqrtFrom (n : Nat) : Nat → Nat → Nat
  | 0, r => r
  | k + 1, r => isqrtFrom n k (if (r + 2 ^ k) * (r + 2 ^ k) ≤ n then r + 2 ^ k else r)

/-- The floor of the exact square root. -/
def isqrt (n : Nat) : Nat := isqrtFrom n (Nat.log2 n / 2 + 1) 0

/-- rnd of a result times 2^k.  For a root, floor(√z + 1/2) = (isqrt(floor(4z)) + 1) div 2. -/
def Res.rndScaled : Res → Int → Int
  | .val x, k => (x.scale k).rnd
  | .root x, k => ((isqrt ((x.scale (2 * k + 2)).floor).toNat + 1) / 2 : Nat)

def fits24 (v : Int) : Bool := decide (-8388608 ≤ v) && decide (v ≤ 8388607)

/-- Smallest exponent from −128 upward for which the rounded mantissa fits (R229); 128 when none up to 127 does. -/
def fitExp (r : Res) : Nat → Int → Int
  | 0, e => e
  | k + 1, e => if fits24 (r.rndScaled (23 - e)) then e else fitExp r k (e + 1)

def Res.isZero : Res → Bool
  | .val x => x.num == 0
  | .root x => x.num == 0

/-- A quick lower bound of the exponent, so that `fitExp` starts near: from the sizes of num and den. -/
def Res.startExp : Res → Int
  | .val x => (Nat.log2 x.num.natAbs : Int) - (Nat.log2 x.den : Int) + x.exp - 2
  | .root x => ((Nat.log2 x.num.natAbs : Int) - (Nat.log2 x.den : Int) + x.exp - 4) / 2 - 1

/-- The own exponent e_i of one output (R229). -/
def Res.ownExp (r : Res) : Int :=
  if r.isZero then -128
  else
    let s := if r.startExp < -128 then -128 else if 128 < r.startExp then 128 else r.startExp
    fitExp r 8 s

/-- The outputs of a block as one group with a shared exponent, and whether R230 saturated. -/
def groupRound (rs : List Res) : List BF × Bool :=
  let eg := rs.foldl (fun a r => if a < r.ownExp then r.ownExp else a) (-128)
  if 127 < eg then
    (rs.map fun r => match r with
      | .val x => if 0 < x.num then ⟨8388607, 127⟩ else if x.num < 0 then ⟨-8388608, 127⟩ else ⟨0, 127⟩
      | .root x => if 0 < x.num then ⟨8388607, 127⟩ else ⟨0, 127⟩, true)
  else (rs.map fun r => ⟨r.rndScaled (23 - eg), eg⟩, false)

/-- One value rounded as a single-output group (R229). -/
def round1 (x : Ex) : BF × Bool :=
  match groupRound [.val x] with
  | ([b], f) => (b, f)
  | (_, f) => (.zero, f)

/-- The block-floating value of a Q15 value (R234): that of A = q × 2^31 at E = 0. -/
def BF.ofQ15 (q : Int) : BF := (round1 ⟨q, 1, -15⟩).1

end Sys2Proof.Machine
end

