-- ==== Sys2Proof/Machine/Keccak.lean ====
section
/-! DEFINITION. SHAKE256 (FIPS 202), the extendable-output function of R226, R439, R446, R454, R457 and R459: Keccak-f[1600] on
25 lanes of 64 bits, rate 136 bytes. -/

namespace Sys2Proof.Machine

/-- The sponge's state: five planes (y) of five lanes (x). -/
abbrev KState := List (List (BitVec 64))

def kZero : KState := List.replicate 5 (List.replicate 5 0)

/-- Lanes in the order x + 5 y, cut into planes again. -/
def kPlanes (lanes : List (BitVec 64)) : KState := (List.range 5).map fun y => (lanes.drop (5 * y)).take 5

def kXor (a b : List (BitVec 64)) : List (BitVec 64) := List.zipWith (· ^^^ ·) a b

/-- θ: the parity of the column to the left and that of the column to the right, the latter turned by one, on every plane. -/
def kTheta (a : KState) : KState :=
  let c := a.foldl kXor (List.replicate 5 0)
  a.map (kXor (kXor (c.rotateRight 1) ((c.rotateLeft 1).map fun w => w.rotateLeft 1)))

/-- ρ and π as one walk from lane (1, 0): the t-th lane, turned by t (t + 1) / 2, goes to (y, 2 x + 3 y), where the walk goes on. -/
def kWalk : Nat → Nat → Nat → Nat → List (BitVec 64) → List (BitVec 64) → List (BitVec 64)
  | 0, _, _, _, _, out => out
  | n + 1, t, x, y, a, out =>
    let v := (2 * x + 3 * y) % 5
    kWalk n (t + 1) y v a (out.set (y + 5 * v) ((a.getD (x + 5 * y) 0).rotateLeft (t * (t + 1) / 2 % 64)))

/-- χ on one plane. -/
def kChi (p : List (BitVec 64)) : List (BitVec 64) :=
  kXor p (List.zipWith (fun v w => ~~~v &&& w) (p.rotateLeft 1) (p.rotateLeft 2))

/-- The shift register of ι, x⁸ + x⁶ + x⁵ + x⁴ + 1. -/
def kShift (r : BitVec 8) : BitVec 8 := (r <<< 1) ^^^ (if r.msb then 0x71 else 0)

/-- Seven bits of the shift register at the places 2^j − 1 of a round constant, and the register after them. -/
def kConst : Nat → Nat → BitVec 8 → BitVec 64 → BitVec 64 × BitVec 8
  | 0, _, r, c => (c, r)
  | n + 1, j, r, c => kConst n (j + 1) (kShift r) (c ||| BitVec.ofNat 64 (r.toNat % 2) <<< (2 ^ j - 1))

/-- Rounds with the shift register running on from one to the next. -/
def kRounds : Nat → BitVec 8 → KState → KState
  | 0, _, a => a
  | n + 1, r, a =>
    let (c, r) := kConst 7 0 r 0
    let lanes := (kTheta a).flatten
    kRounds n r (((kPlanes (kWalk 24 1 1 0 lanes lanes)).map kChi).modify 0 fun p => p.modify 0 (· ^^^ c))

def keccakF (a : KState) : KState := kRounds 24 1 a

/-- The rate in bytes. -/
def shakeRate : Nat := 136

/-- 136 bytes into the first 17 lanes. -/
def kAbsorb (a : KState) (blk : List Byte) : KState :=
  let ws := (List.range 25).map fun i => BitVec.ofNat 64 (leNat ((blk.drop (8 * i)).take 8))
  keccakF (kPlanes (kXor a.flatten ws))

/-- Whole blocks of the padded message, at most n of them. -/
def kAbsorbAll : Nat → KState → List Byte → KState
  | 0, a, _ => a
  | n + 1, a, bs => if bs.isEmpty then a else kAbsorbAll n (kAbsorb a (bs.take shakeRate)) (bs.drop shakeRate)

/-- The message with SHAKE's suffix 1111, the padding 10*1 and zeros to a whole number of blocks. -/
def shakePad (bs : List Byte) : List Byte :=
  let q := shakeRate - bs.length % shakeRate
  if q = 1 then bs ++ [0x9F] else bs ++ [0x1F] ++ List.replicate (q - 2) 0 ++ [0x80]

/-- The first bytes of the output; at most one block is asked for. -/
def shakeBytes (n : Nat) (bs : List Byte) : List Byte :=
  let p := shakePad bs
  ((kAbsorbAll (p.length / shakeRate) kZero p).flatten.flatMap fun w => leBytes 8 w.toNat).take n

/-- SHAKE256 with a 32-byte output, its first byte in the lowest bits. -/
def shake256 (bs : List Byte) : BitVec 256 := BitVec.ofNat 256 (leNat (shakeBytes 32 bs))
/-- SHAKE256 with a 64-byte output. -/
def shake512 (bs : List Byte) : BitVec 512 := BitVec.ofNat 512 (leNat (shakeBytes 64 bs))

end Sys2Proof.Machine
end

