-- ==== Sys2Proof/Machine/State.lean ====
section
/-! DEFINITION. The state of the WK4096: plain data, everything the spec gives the block, the queue of waiting commands,
and the state right after reset (R533 to R538, R559). -/

namespace Sys2Proof.Machine

/-- The block stops on no command of the table, so no step ends in a fault (NOTES.md, Stops). -/
inductive Fault where
  /-- Raised by nothing in this model; kept because the interface has a fault type (safe). -/
  | none
deriving DecidableEq, Repr

inductive Refusal where
  /-- A command whose meaning the model does not have yet (safe); no arm answers it. -/
  | notModelled (mnemonic : String)
deriving DecidableEq, Repr

/-- Device states of Table 18-1, OFF included. -/
inductive DevState | off | reset | boot | selftest | idle | run | lockout
deriving DecidableEq, Repr

/-- Octad states of Table 18-4. -/
inductive OctState | unconfigured | blocked | charging | running | rundown | fenced
deriving DecidableEq, Repr

/-- Current sign states of R67. -/
inductive Sign | zero | charge | discharge
deriving DecidableEq, Repr

/-- Fault classes of Table 12-3. -/
inductive FClass | info | retry | retire | fence | lockout
deriving DecidableEq, Repr

/-- Completion status codes of Table 11-7. -/
inductive Status | ok | late | refused | lenZero | lenOver | badOpcode | authFail | state | timeout | busy | missed
deriving DecidableEq, Repr

/-- Actions of Table 6-5 that the device gives a slot. -/
inductive Action
  | hold | insert (t : Nat) | bypass (t : Nat) | pulse (t width phase : Nat) | permBypass (t : Nat)
  | deblock (t : Nat) | query (selector : BitVec 16)
deriving DecidableEq, Repr

/-- A descriptor of a command ring with its ring index (R346, R363). -/
structure Desc where
  ring : Nat
  index : BitVec 16
  hdr : Hdr
  body : Body
deriving DecidableEq, Repr

/-- PTP messages that the device sends (R312). -/
inductive PtpKind | delayReq | pdelayReq | pdelayResp | pdelayRespFollowUp
deriving DecidableEq, Repr

/-- What leaves the block: the lanes, host memory, interrupts, the network, the NVM commands of other chapters. -/
inductive Output where
  /-- A control block given to a lane's transmitter (Table 6-1), an ABORT BLOCK of R133 or R418 among them. -/
  | laneBlock (lane : Nat) (b : Block)
  /-- A frame given to a lane's transmitter (R180): FRAME_START, entries, FRAME_END. -/
  | laneFrame (lane : Nat) (f : RawFrame)
  /-- The 66 bits of a block as a lane's transmitter sends them, first bit in bit 0 (R143 to R145). -/
  | wire (lane : Nat) (bits : BitVec 66)
  /-- Bytes written to host memory: ring entries, the device half of the doorbell page, Out buffers. -/
  | hostWrite (addr : BitVec 64) (data : List Byte)
  /-- A read of host memory: of the doorbell page, of descriptors, of a buffer. -/
  | hostRead (kind : ReadKind) (addr : BitVec 64) (len : Nat)
  /-- The message of an MSI-X vector (R355), with the address and data of its table entry. -/
  | msix (vector : Nat) (addr : BitVec 64) (data : Word)
  /-- A PTP message sent: its kind, sequence number and the timestamps and corrections it carries (2^-16 ns). -/
  | ptp (port : Nat) (dst : BitVec 48) (kind : PtpKind) (seq : BitVec 16) (stamps : List Int)
  /-- A JTAG data register captured for shifting out. -/
  | tdo (value : List Byte)
deriving DecidableEq, Repr

/-- A counter with no register of its own: it stops at its maximum and sets its flag (R51). -/
structure Counter where
  n : Nat
  sat : Bool
deriving DecidableEq, Repr

/-- The written timeline of Table 1-4 that is in force in an octad. -/
structure Timeline where
  tfb : Nat
  ted : Nat
  td : Nat
  thr : Nat
  tle : Nat
  phase : Nat
deriving DecidableEq, Repr

/-- A threshold of the ledger's health check (R105): exceeded by the last update; crossed. -/
structure Cross where
  once : Bool
  crossed : Bool
deriving DecidableEq, Repr

/-- The feedback image of a cell: the last accepted entry (R42, R190). -/
structure FbImage where
  v : Nat
  fault : Byte
  status : BitVec 9
  edge : Word
  seq : BitVec 4
  /-- accepted for the frame now being collected, with SAMPLED set -/
  fresh : Bool
  temp : Byte
  driver : Byte
deriving DecidableEq, Repr

/-- What a cell's slot holds (chapters 2, 3, 6, 12). -/
structure Cell where
  populated : Bool
  kind : Byte
  minPulse : Byte
  deadTime : Byte
  serial : Word
  fb : FbImage
  /-- latched at T_FB -/
  v : Nat
  stale : Bool
  fault : Byte
  cand : Bool
  /-- TC as latched at T_FB (Table 2-1) -/
  tcL : Nat
  vOld : Nat
  staleOld : Bool
  candOld : Bool
  retired : Bool
  /-- C0 has been cleared since the retirement (R98, R388) -/
  c0Cleared : Bool
  permSent : Bool
  /-- what a selection not yet dispatched has added to TC (R79, R592) -/
  tcAdd : Nat
  /-- member of the committed inserted set -/
  ins : Bool
  tc : Nat
  /-- exceedance in the last frame whose selection committed, and in this frame (R70) -/
  exHigh : Bool
  exLow : Bool
  hiNow : Bool
  loNow : Bool
  /-- exceedance of the frame whose selection is under way -/
  hiSel : Bool
  loSel : Bool
  obh : Bool
  obl : Bool
  cmd : Action
  /-- realised edges still needed for τ, oldest first, and the level before them -/
  edges : List (Nat × Bool)
  level : Bool
  lastEdge : Word
  lastSeq : BitVec 4
  /-- commanded entries whose edges are not all realised yet: edge time, sequence, last realised tick -/
  cmdq : List (Word × BitVec 4 × Nat)
  /-- the retired mark as latched at T_FB (Table 2-1) -/
  retL : Bool
  sqv : Int
  svv : Nat
  nq : Nat
  mismatch : Nat
  lowEx : Nat
  /-- results of the last window end, whose arithmetic is still running (R96) -/
  endNq : Nat
  endTc : Nat
  endHat : Word
  endValid : Bool
  /-- results of the last window whose arithmetic is complete, and its sequence number -/
  winNq : Nat
  winTc : Nat
  hat : Word
  winValid : Bool
  winSeq : Word
  smooth : Option Word
  validWins : Nat
  c0 : Word
  notice : Cross
  retireTh : Cross
  /-- budget of Table 12-6: ticks of the counted occurrences, consecutive non-zero latches -/
  occ : List Nat
  persist : Nat
  sawFault : Bool
deriving DecidableEq, Repr

/-- A Deblock on its way (R541 to R543): waiting for B lanes, then carried by the frame of execution. -/
inductive Deblocking
  | none
  | waitB (target : OctState) (since : Nat)
  | armed (target : OctState) (frame : Word)
deriving DecidableEq, Repr

/-- An entry of a set-point queue: the frame it is for, its value. -/
structure SetPoint where
  frame : Word
  value : Word
deriving DecidableEq, Repr

/-- What the selection of a frame has decided from the inputs latched for it (R57, R76); it takes effect at its commit. -/
structure SelPlan where
  /-- E(k) of its frame -/
  epoch : Nat
  /-- the upper clamp of R65 acts; x is negative -/
  sat : Bool
  neg : Bool
  /-- cells inserted and bypassed, cells that leave under R60, cells that receive PERMANENT_BYPASS -/
  ins : List Nat
  byp : List Nat
  leaving : List Nat
  perms : List Nat
  swaps : Nat
  trim : Option Nat
  /-- f and N(k); TRIM_ALIGN is CENTRE -/
  f : Nat
  nins : Nat
  centre : Bool
deriving DecidableEq, Repr

structure Octad where
  state : OctState
  dberr : Byte
  rdEntry : Nat
  deb : Deblocking
  /-- frames until selection runs after a Deblock (R542) -/
  selIn : Nat
  /-- no T_FB latch has been made yet in a frame whose selection runs (R67, R68) -/
  fresh : Bool
  frame : Word
  epoch : Nat
  /-- sample ticks of the last epochs, newest first (R210) -/
  epochs : List Nat
  /-- frames (number, epoch) whose T_FB latch, T_ED deadline and T_D dispatch are still to come, oldest first (R35) -/
  toLatch : List (Word × Nat)
  toCommit : List (Word × Nat)
  toSend : List (Word × Nat)
  /-- tick of the last T_FB latch (Table 7-7) -/
  latchAt : Option Nat
  tl : Timeline
  selCtrl : Word
  selIsign : Word
  selSrc : Word
  selVnom : Word
  iCode : Int
  iPrev : Int
  /-- I of the last two latches as the ledger takes them: zero in debug halt (R90, R91) -/
  iLed : Int
  iLedPrev : Int
  sign : Sign
  discharge : Bool
  vbar : Nat
  dv : Nat
  ncand : Nat
  /-- the value x latched at T_ED and the selection's phase in this frame -/
  x : BF
  selRunning : Bool
  /-- the frame whose selection has completed and waits for its dispatch -/
  selDone : Option Word
  selAt : Nat
  /-- the frame of the selection, and what it has decided -/
  selFrame : Word
  plan : SelPlan
  /-- the watchdog has reset the selection of this frame (R43) -/
  selReset : Bool
  /-- fewer than 400 cycles of the selection had run at its T_D: it completes late, at cycle 400 (R75, R88) -/
  selSlow : Bool
  /-- TC holds already what the selection under way adds (cycles 264 to 279, Table 2-4) -/
  tcDone : Bool
  /-- what the selection of this frame adds to the counters of R85 once it is dispatched (R592) -/
  addLB : Nat
  addTR : Nat
  addSW : Nat
  addEX : Nat
  levelF : Nat
  nins : Nat
  lateRun : Nat
  late : Bool
  liveLB : Nat
  liveTR : Nat
  liveSW : Nat
  liveEX : Nat
  cycNeg : Bool
  /-- BLOCK, trip or held selection within the interval (R91) -/
  disturbed : Bool
  disturbedPrev : Bool
  window : Nat
  counted : Bool
  countedPrev : Bool
  winW : Nat
  winImin : Nat
  winNqmin : Nat
  /-- tick of the window end whose arithmetic is pending -/
  arithPending : Bool
  arithFrames : Nat
  snapReq : Bool
  sumE : BF
  spreadE : BF
  carry : Int
  /-- the committed count and trim fraction as they stood at the last T_FB latch (Table 7-7) -/
  statN : Nat
  statF : Nat
  underrun : Counter
  halted : Bool
deriving DecidableEq, Repr

/-- Per tile: usability aside (BST_USE), the edge and hub records that are not registers. -/
structure Tile where
  serialKnown : Bool
  enumerated : Bool
  /-- a FEEDBACK frame of the hub was accepted for the frame being collected; consecutive frames without one (R43) -/
  fbSeen : Bool
  missed : Nat
deriving DecidableEq, Repr

/-- Lane states of Table 5-4, by code. -/
inductive LaneState | off | hunt | capx | step | qual | active | warm | dormant | wake | retired
deriving DecidableEq, Repr

/-- The procedure a lane is in. -/
inductive Proc | none | bringup | fallback | retrain | takeover | speed | stepdown
deriving DecidableEq, Repr

/-- A block that waits in a lane's transmitter: data or control, and the speed it is sent at. -/
structure TxItem where
  data : Bool
  b : Block
  speed : Nat
deriving DecidableEq, Repr

/-- A frame that a receiver is assembling (R183); damaged by a re-centred elastic buffer (R150). -/
structure OpenFrame where
  start : Block
  data : List Block
  damaged : Bool
deriving DecidableEq, Repr

structure Lane where
  state : LaneState
  speed : Nat
  q : Nat
  lock : Bool
  serving : Bool
  proc : Proc
  target : Nat
  from_ : Nat
  sends : Nat
  seq : Byte
  acked : Bool
  /-- a STEP is acknowledged and its 16 FILLER blocks still go out at the old speed (R154) -/
  turning : Bool
  dormantReq : Bool
  gate : Nat
  capLast : Option Block
  capCount : Nat
  capAck : Bool
  hubMax : Nat
  starts : List Nat
  aux : Nat
  auxAt : Option Nat
  huntAt : Nat
  capxAt : Nat
  sentAt : Nat
  stepAt : Nat
  rtAt : Option Nat
  wakeAt : Option Nat
  tseq : BitVec 4
  /-- a MARK waits for its ECHO; its time of departure once it has left -/
  marked : Bool
  t1 : Option (BitVec 48)
  markAt : Nat
  unanswered : Nat
  good : Nat
  bad : Nat
  big : Nat
  exchanges : Nat
  delay : Int
  delayValid : Bool
  terr : Int
  tlock : Bool
  grant : BitVec 16
  taken : BitVec 16
  eye : Option Nat
  /-- blocks in the elastic buffer (R150) -/
  fill : Nat
  /-- epochs in a row for which each speed has sufficed (R492) -/
  lowRuns : List Nat
  /-- LNK_CFG.MAXSPD as taken at the last bring-up or retrain (R175) -/
  maxSpd : Nat
  /-- transmitter: COMMAND frames and ABORTs that wait, everything else that waits, the queue whose frame is under way (0 none),
  time since the last block in 1/25 tick, blocks since the last FILLER and since the last CAPABILITY, scrambler (R144, R149) -/
  txHi : List TxItem
  txLo : List TxItem
  txOpen : Nat
  txAcc : Nat
  txRun : Nat
  capRun : Nat
  scr : BitVec 58
  /-- receiver: the last 66 bits, valid headers in a row at each alignment, the alignment taken, invalid headers among the last
  96 blocks (true), descrambler, bits still to discard, the frame being assembled (R144, R146, R147, R183) -/
  rxPrev : BitVec 66
  hunts : List Nat
  align : Nat
  hdrs : List Bool
  dsc : BitVec 58
  skip : Nat
  openF : Option OpenFrame
  /-- capture records of the lane that found no room (R348) -/
  capLost : Counter
deriving DecidableEq, Repr

/-- A block entry of a law graph (Table 7-3). -/
structure GBlock where
  typ : Nat
  pipe : Nat
  start : Nat
  ins : List (BitVec 16)
  cbase : Nat
  sbase : Nat
deriving DecidableEq, Repr

/-- A channel map entry (Table 7-5). -/
structure GChan where
  kind : Nat
  src : Nat
  index : BitVec 16
  maxage : Nat
  x : Word
  y : Word
deriving DecidableEq, Repr

/-- A law graph (R218). -/
structure Graph where
  blocks : List GBlock
  chans : List GChan
  coefs : List Word
  wp : Nat
  ws : Nat
  fin : Nat
  crc : Word
  /-- per block, the integer in its c0 at the load (R258, R273) -/
  ds : List Nat
deriving DecidableEq, Repr

/-- A channel entry and a preload entry of a mode (Tables 9-4, 9-5). -/
structure ModeChan where
  chan : Nat
  src : BitVec 16
  lo : Word
  hi : Word
  slope : Word
deriving DecidableEq, Repr

structure ModePre where
  blk : Nat
  chan : Nat
  g : Word
  b : Word
deriving DecidableEq, Repr

structure Mode where
  ns : Nat
  chans : List ModeChan
  pres : List ModePre
deriving DecidableEq, Repr

/-- A mailbox (R235): value as a channel word, measurement tick, whether one was ever received. -/
structure Mbox where
  value : Word
  tick : Nat
  got : Bool
  stale : Bool
  staleTwice : Bool
  /-- the value this sample uses -/
  held : Word
deriving DecidableEq, Repr

/-- A test injection generator (R247, R248). -/
structure Inj where
  active : Bool
  pend : Bool
  stopping : Bool
  p : InjParams
  /-- the activation frame; none is the next sample start (R247) -/
  frame : Option Word
  n : Nat
  phi : Nat
  dphi : Nat
  lfsr : Nat
deriving DecidableEq, Repr

/-- The splice of a unit (R292 to R296). -/
structure Splice where
  active : Bool
  /-- the index n of the last committed sample (R296) -/
  n : Nat
  ns : Nat
  chans : List Nat
  delta : Tab BF
  resid : Tab BF
deriving DecidableEq, Repr

/-- A mode that an engine enters in its sample of a frame, with the splice interval NS (R301, R544). -/
structure ModeEntry where
  mode : Nat
  frame : Word
  ns : Nat
deriving DecidableEq, Repr

/-- A sample that has started: its frame, start tick and number, the channel values latched for it, its generators, its bank. -/
structure Sample where
  frame : Word
  tick : Nat
  no : Nat
  held : List (Nat × Word)
  inj : Tab Inj
  injRan : Bool
  bankSel : Bool
deriving DecidableEq, Repr

structure Engine where
  graph : Option Graph
  /-- an accepted load takes effect at the next sample start (R224) -/
  loading : Option Graph
  bankA : List Word
  bankB : List Word
  bankSel : Bool
  /-- a pending swap with its activation frame; none in it is the next sample start (R246) -/
  swap : Option (Option Word)
  state : Tab Word
  out : Tab Word
  blockOut : Tab (List Word)
  committed : Bool
  running : Bool
  sampleFrame : Word
  /-- the frame in which the present sample started: for the station with T_SS beyond T_F a later one (R301) -/
  entryFrame : Word
  sampleTick : Nat
  sampleNo : Nat
  /-- samples under way that started before the latest one, oldest first: T_ED − T_FB may exceed T_F (R215) -/
  older : List Sample
  commitTick : Nat
  ovrRun : Nat
  loaderr : Byte
  mloaderr : Byte
  mbox : Tab Mbox
  inj : Tab Inj
  injRan : Bool
  /-- DEC_EFF of the last capture record (Table 7-10) -/
  capDec : Option Nat
  modes : List Mode
  modeLoading : Option (List Mode)
  mode : Nat
  armed : Option Nat
  /-- modes to be entered, in the order in which they were decided -/
  pending : List ModeEntry
  splice : Splice
  privTab : List (BitVec 16)
deriving DecidableEq, Repr

/-- A profile generator (R281 to R284). -/
structure Profile where
  p : Int
  v : Int
  a : Int
  jlast : Word
  started : Bool
  reset : Bool
  preset : Word
  /-- positions of the frames computed last, newest first -/
  past : List (Word × Int)
deriving DecidableEq, Repr

structure Dpwm where
  cfg : Word
  per : Word
  ofs : Word
  minp : Word
  /-- writes not adopted yet, oldest first: tick, register (0 CFG, 1 PER, 2 OFS, 3 MINP), word (R130) -/
  writes : List (Nat × Nat × Word)
  idx : Nat
  startAt : Nat
  rise : Option Nat
  fall : Option Nat
  /-- the dither adds a tick to the inactive edge (R116) -/
  late : Bool
  active : Bool
  carry : Int
  /-- clamps counted (R121, R123) -/
  clamps : Counter
  safe : Bool
  heldLevel : Option Bool
deriving DecidableEq, Repr

structure Trip where
  latch : Bool
  level : Bool
  since : Nat
deriving DecidableEq, Repr

/-- A scheduled firing (R327): in EPOCH mode its tick with OCT, DIV and OFS, in TIME mode its instance in device time, in units of
2^-56 ns. -/
inductive Due | epoch (t oct div ofs : Nat) | time (d : Nat)
deriving DecidableEq, Repr

/-- A trigger unit with its CONVST output. -/
structure Trig where
  next : Option Due
  high : Bool
  lowAt : Nat
  fired : Nat
deriving DecidableEq, Repr

structure SPort where
  frame : Option Nat
  clocking : Bool
  occ : List Nat
  retired : Bool
deriving DecidableEq, Repr

structure SvStream where
  last : Option Word
  lastAt : Nat
  active : Bool
  lost : Bool
  occ : List Nat
  retired : Bool
deriving DecidableEq, Repr

inductive Servo | free | locked | holdover | slew | split
deriving DecidableEq, Repr

/-- A sender's latest Announce and its tick (R312). -/
structure Master where
  msg : AnnounceMsg
  at_ : Nat
deriving DecidableEq, Repr

structure TimeSt where
  /-- device time in units of 2^-56 ns: 16 visible and 40 hidden fraction bits (R20, R308) -/
  dt : Nat
  rate : Int
  latchDt : Nat
  latchTick : Tick
  servo : Servo
  freq : Int
  delay : Int
  delayFirst : Bool
  delayAt : Option Nat
  theta : Int
  prev : Option Int
  /-- the next two samples are to be classified (R316) -/
  lastT2 : Option Int
  lastSample : Option Nat
  syncInterval : Int
  /-- a two-step Sync that waits for its Follow_Up: port, message, receive timestamp, tick (R315) -/
  sync : Option (Nat × PtpMsg × Int × Nat)
  e2eT3 : Option (BitVec 16 × Int)
  /-- t2 − t1 − C of the latest complete Sync -/
  lastSync : Option Int
  pd : Tab (Option (BitVec 16 × Int))
  /-- logMinDelayReqInterval of the master -/
  minReq : Int
  /-- the senders of Announce messages by port (R312) -/
  masters : Tab (List Master)
  gm : BitVec 64
  /-- the sender whose Sync the servo takes -/
  masterId : BitVec 64
  gmValid : Bool
  port : Nat
  utc : BitVec 16
  utcValid : Bool
  holdSince : Nat
  sentAt : Tab (Option Nat)
  reqSeq : BitVec 16
  /-- a pending origin and its written time; the time of the origin in force (R325, R326) -/
  orgPend : Bool
  orgTime : Nat
  orgBase : Nat
  tsPins : BitVec 8
  /-- the servo has been LOCKED since PWRGOOD (R513) -/
  everLocked : Bool
deriving DecidableEq, Repr

/-- A read of descriptors under way (R353, R367): how many, when it was issued last, the issue tick of its sweep, how often it
has been issued again. -/
structure Fetch where
  count : Nat
  issued : Nat
  sweep : Nat
  tries : Nat
deriving DecidableEq, Repr

/-- A read of the doorbell page under way (R351, R367): the tick of its first issue, that of its last, the base frame then, how
often it has been issued again. -/
structure Sweep where
  first : Nat
  issued : Nat
  k : Word
  tries : Nat
deriving DecidableEq, Repr

/-- An entry of the MSI-X table (R342, R355): message address and data, the vector's mask. -/
structure MsixEntry where
  addr : BitVec 64
  data : Word
  mask : Bool
deriving DecidableEq, Repr

/-- Rings of Table 11-2: indices, halt, and what the device holds of it. -/
structure Ring where
  host : BitVec 16
  dev : BitVec 16
  count17 : BitVec 17
  halt : Bool
  gained : Bool
  irqDue : Bool
  /-- descriptor reads under way, oldest first -/
  fetches : List Fetch
  reserved : Nat
  untimed : List Desc
  pend : List Desc
  /-- buffer reads under way or waiting, oldest first, each with whether its descriptor is late -/
  buf : List (Desc × Bool)
  bufTries : Nat
  /-- when the read of the oldest buffer was issued last -/
  bufAt : Nat
deriving DecidableEq, Repr

/-- A descriptor in execution: what it waits for. -/
inductive WaitKind
  | dispatch (n : Nat) | query (n : Nat) (cell : Nat) | modeChange | enumerate (lane : Nat) | bist | pset | fw | freeze
deriving DecidableEq, Repr

structure Waiting where
  d : Desc
  kind : WaitKind
  late : Bool
deriving DecidableEq, Repr

structure Hif where
  inReset : Bool
  linkUp : Bool
  speed : Nat
  width : Nat
  d3 : Bool
  gen : Word
  genSeen : Bool
  lostTimer : Option Nat
  lost : Bool
  sweeping : Bool
  /-- when the next sweep read is issued -/
  sweepAt : Nat
  /-- sweep reads under way, oldest first -/
  sweeps : List Sweep
  /-- FRAME of word 59: the base frame at the issue of the last sweep that has arrived -/
  sweepK : Word
  waiting : List Waiting
  msixEn : Bool
  funcMask : Bool
  msixTab : Tab MsixEntry
  /-- the pending-bit array of the MSI-X vectors -/
  pba : BitVec 64
  doorbell : List Word
deriving DecidableEq, Repr

/-- A MODE_CHANGE in the device (R297 to R302). -/
structure ModeReq where
  p : ModeParams
  act : Option Word
  /-- k_a and k_e, the execution boundary k_x having been met when `armed` -/
  ka : Word
  ke : Word
  /-- L is 1 or 2 (R302) -/
  late : Bool
  armed : Bool
  decided : Bool
  excl : BitVec 9
  notArm : BitVec 9
  /-- the reason code of each unit that was not armed or was disarmed -/
  reasons : List (Nat × Nat)
  /-- committing units that have not committed their sample 0 -/
  todo : BitVec 9
  /-- device time has been stepped: evaluated again at the next boundary (R304) -/
  redo : Bool
deriving DecidableEq, Repr

/-- A report waiting in a level's queue (R375, R394). -/
structure Report where
  id : Nat
  code : BitVec 16
  src : BitVec 16
  cls : FClass
  notice : Bool
  faultN : Bool
  evt : Bool
  data : List Byte
  tick : Tick
  /-- device time at detection -/
  dt : Nat
  cons : Bool
  persisted : Bool
  /-- report that opened the causing window; 0 for none -/
  cause : Nat
  level : Nat
deriving DecidableEq, Repr

/-- A consequential window (R390). -/
inductive WinKind
  | fence (n : Nat) | lane (l : Nat) | wdog (n : Nat) | quad (q : Nat) | timePll | bist (blk : Nat) | pcie | lockout
deriving DecidableEq, Repr

structure Window where
  kind : WinKind
  /-- the report that opened it, and the detector it came from: code, source (R391, R392) -/
  opener : Nat
  code : Nat
  src : Nat
  /-- closing tick, once the reaction has completed -/
  closeAt : Option Nat
  /-- covered detectors hit so far: code, source -/
  hits : List (BitVec 16 × BitVec 16 × List Byte)
deriving DecidableEq, Repr

/-- An entry of the active table (R401). -/
structure Active where
  code : BitVec 16
  src : BitVec 16
  seq : Word
  cls : FClass
  clsByte : Byte
  faultN : Bool
  rep : Nat
  /-- octads fenced by it -/
  fenced : BitVec 8
  id : Nat
  /-- the tick on which the entry was made -/
  madeAt : Tick
deriving DecidableEq, Repr

/-- A Belfry record (Table 17-2) before its CRC. -/
structure Record where
  seq : Word
  opsec : Word
  pcc : Word
  dt : Nat
  code : BitVec 16
  src : BitVec 16
  cls : Byte
  rflags : Byte
  rep : Nat
  first : Tick
  last : Tick
  data : List Byte
deriving DecidableEq, Repr

structure Collector where
  queues : Tab (List Report)
  dropped : Tab Nat
  nextId : Nat
  seq : Word
  /-- the tick on which the collector last took reports (R374) -/
  takenAt : Option Tick
  table : List Active
  tblFull : Bool
  faultN : Bool
  holdUntil : Nat
  released : Bool
  windows : List Window
  /-- sequence numbers given to reports that opened a window or made an entry -/
  seqOf : Tab Word
  fallback : Bool
  lockout : Bool
deriving DecidableEq, Repr

/-- Causes of SBK for an octad (R417). -/
structure SbkCauses where
  pair : Bool
  srd : Bool
  mainReq : Bool
  xch : Bool
  power : Bool
  stuck : Bool
deriving DecidableEq, Repr

/-- Causes of a trip of an output (R424). -/
structure TripCauses where
  pair : Bool
  sbk : Bool
  backup : Bool
  test : Bool
  power : Bool
deriving DecidableEq, Repr

/-- A filtered pin: its state and for how many samples it has read otherwise (R414). -/
structure Filt where
  level : Bool
  run : Nat
deriving DecidableEq, Repr

/-- A change of a filtered state that the other channel has not followed (R415): of the own half, its new level, when. -/
structure PinChange where
  own : Bool
  level : Bool
  changedAt : Nat
deriving DecidableEq, Repr

/-- One safety input pair as one channel sees it, with both filtered states at the last evaluation; a press of a RESET pair that has ended in time
waits in `given` until both states are low. -/
structure KpPair where
  own : Filt
  other : Bool
  faulty : Bool
  demand : Bool
  lowSeen : Bool
  bothLowAt : Option Nat
  wasOwn : Bool
  wasOther : Bool
  changes : List PinChange
  pressAt : Option Nat
  given : Bool
deriving DecidableEq, Repr

structure KpOut where
  causes : TripCauses
  tripAt : Option Nat
  fb : Filt
  fbOpen : Bool
  fbTo : Bool
  testFail : Bool
  high : Bool
  dark : Option Nat
  /-- the pin has read low in this pulse -/
  darkLow : Bool
  /-- when the last dark pulse ended, in µs of the channel's own time -/
  darkEnd : Nat
  darkNext : Nat
  stuck : Nat
  cmdAt : Nat
deriving DecidableEq, Repr

structure KpLoop where
  causes : SbkCauses
  sbk : Bool
  enabled : Bool
  offAt : Option Nat
  stuck : Nat
  cmdAt : Nat
deriving DecidableEq, Repr

structure Srd where
  running : Bool
  ended : Bool
  octs : BitVec 8
  e0 : Option Nat
  t0 : Nat
  above : Bool
  seff : Nat
  tEnd : Nat
deriving DecidableEq, Repr

structure KpChan where
  running : Bool
  params : Option (List Byte)
  newParams : Option (List Byte)
  /-- a handshake in which both channels held the new block with a matching CRC has come (R413) -/
  newSeen : Bool
  pcrc : Word
  pairs : Tab KpPair
  outs : Tab KpOut
  loops : Tab KpLoop
  srd : Srd
  /-- the magnitude of the last code of the channel's port (R421) -/
  m : Nat
  lastHs : Nat
  count : BitVec 16
  badClock : Nat
  goodSince : Option Nat
  xchFault : Bool
  mainReq : Bool
  /-- 10 µs samples since VKP came into range: the channel's own time -/
  time : Nat
  /-- OWN of ports 6 and 7 with the parameters in force (R421) -/
  own : Bool
deriving DecidableEq, Repr

structure Kingpost where
  vkp : Bool
  a : KpChan
  b : KpChan
  deliveredAt : Nat
  paramOk : Bool
  /-- the fall-back collector's record, the number of its first copy, and whether a copy is due (R396) -/
  fallRec : Option Record
  fallFirst : Word
  fallDirty : Bool
deriving DecidableEq, Repr

inductive KeyState | empty | active | revoked
deriving DecidableEq, Repr

structure KeySlot where
  state : KeyState
  digest : BitVec 256
deriving DecidableEq, Repr

inductive ProfileKind | none | s | g
deriving DecidableEq, Repr

/-- A commit whose writes are under way (R448). -/
structure Commit where
  keyChange : Bool
  /-- the signed request that its store holds (R448) -/
  request : List Byte
  /-- LOCKOUT has been entered since it began; its copy header is known to have been written (Table 14-8) -/
  locked : Bool
  stored : Bool
  image : List Byte
  seq : Word
  keys : Option (Tab KeySlot × KeySlot)
  profile : ProfileKind
deriving DecidableEq, Repr

structure FwSlot where
  valid : Bool
  version : Word
  svn : Nat
  digest : BitVec 256
  /-- digest of the owner key whose signature the image carries (R454, R455) -/
  owner : Option (BitVec 256)
deriving DecidableEq, Repr

structure Pset where
  profile : ProfileKind
  image : Option (List Byte)
  seq : Word
  digest : BitVec 256
  keys : Tab KeySlot
  owner : KeySlot
  nonce : Option (BitVec 128 × Word × Nat)
  err : Byte
  commit : Option Commit
  uid : BitVec 64
  lot : BitVec 48
  wafer : Byte
  dieX : Byte
  dieY : Byte
  svnFloor : Nat
  fw : Tab FwSlot
  fwPreferred : Nat
  fwRunning : Option Nat
  fwFallback : Bool
  challenge : Option (BitVec 128)
  grant : Option (BitVec 4 × Nat)
  tokenResult : Byte
  /-- the tick on which the set in force took effect (R449) -/
  appliedAt : Option Nat
  /-- the Askica key digest in OTP (Table 14-1) -/
  askicaDigest : BitVec 256
  /-- the JTAG instruction register (R459) -/
  ir : Byte
deriving DecidableEq, Repr

inductive PllState | search | locked | hop | relock | holdover | failed | settling
deriving DecidableEq, Repr

structure PllSt where
  state : PllState
  fails : Nat
  stored : Bool
  since : Nat
deriving DecidableEq, Repr

structure Clk where
  time : PllSt
  core : PllSt
  quads : Tab PllSt
  /-- whether the time PLL has locked since PWRGOOD: the tick count runs (R112) -/
  started : Bool
  /-- idle steps of 2.5 ns since PWRGOOD before it did (log entry 12) -/
  pre : Nat
  point : Nat
  hopTo : Option Nat
  searching : Option Nat
  /-- a hop or a search hop has started and not reached step 6 (Table 15-1) -/
  inHop : Bool
  bootPoints : List Nat
  bypassCore : Option Nat
  bypassTime : Option Nat
  active : Option Bool
  qualA : Bool
  qualB : Bool
  lostA : Bool
  lostB : Bool
  refSince : Tab Nat
  held : Option (Option Bool)
  /-- ρ of R480, and the tick on which its measurement over 2^20 ticks began -/
  rho : BitVec 28
  rhoAt : Nat
  /-- on the bypass oscillator, the fraction of the accumulated tick count in 1/2^24 (R480); the ticks of the last clock of the
  timebase -/
  frac : Nat
  stepped : Nat
  /-- tick of the last change of the core's clock; the clocks before it, newest first: first tick, ticks per cycle as a
  fraction (R244) -/
  since : Nat
  was : List (Nat × Nat × Nat)
deriving DecidableEq, Repr

structure Sensor where
  n1 : Int
  n2 : Int
  c1 : Int
  c2 : Int
  code : Int
  valid : Bool
  stale : Bool
  failed : Bool
  invalid : Nat
  last : Nat
  prevTick : Nat
  prevCode : Int
  prevValid : Bool
  demand : Bool
  elective : Bool
  gate : Option Nat
  lastGate : Option Nat
  once : BitVec 3
  crossed : BitVec 3
  /-- last scheduled demand; the gate overlaps a bypass interval of the timebase (Table 16-3) -/
  schedAt : Nat
  spoiled : Bool
deriving DecidableEq, Repr

structure Epl where
  carry : Int
  /-- events of each activity of Table 16-1 in the epoch just ended, then bytes of capture records of kinds 1 to 5 -/
  counts : List Nat
  /-- the same so far in this epoch; of activities 4 and 9 the ticks (R487) -/
  live : Tab Nat
  predE : Tab Nat
  actE : Tab Nat
  epochs : Nat
  above : Bool
  shed : Bool
  dorm : Bool
  overRaised : Bool
  decUp : Nat
  wantPoint : Option Nat
  /-- epochs in a row for which a hop point has qualified (R492) -/
  okRuns : Tab Nat
  fitRun : Nat
  /-- end of the grace time and the sensor that asked for it (R503) -/
  grace : Option (Nat × Nat)
  enforce : Bool
  src : BitVec 7
  /-- elective items of R493 shed in the epoch in force, first ones first -/
  shedTo : Nat
  /-- the last epoch boundary; epochs for which deferrable work has waited (R486, R494) -/
  epochAt : Nat
  defRun : Nat
  /-- deferrable work waits in the epoch in force (R493 step 1) -/
  defer : Bool
deriving DecidableEq, Repr

/-- One 64-byte slot of a Belfry area (R514): a valid record, or a torn slot. -/
inductive Slot | record (r : Record) | torn
deriving DecidableEq, Repr

/-- What a repeat note says of its record (R517). -/
structure Note where
  seq : Word
  rep : Nat
  rflags : Byte
  last : Tick
deriving DecidableEq, Repr

/-- The partitions that are written as a whole: those of two copies, and the two firmware slots (Table 17-1, R512). -/
inductive Part | fwmark | pset | usemap | c0 | csave | spmap | fw0 | fw1
deriving DecidableEq, Repr

/-- One copy of a partition: the bytes of its header and of its content; a copy whose header does not fit its content is torn
(R512). -/
structure Copy where
  header : List Byte
  content : List Byte
deriving DecidableEq, Repr

/-- A write of a partition under way: the copy that it erases and writes, its generation, what a firmware slot, the marker or a
protection-set store will hold, the sectors not yet erased. -/
structure PartWrite where
  part : Part
  second : Bool
  gen : Nat
  content : List Byte
  todo : List Nat
deriving DecidableEq, Repr

structure Tombstone where
  words : List Word
  reported : Bool
deriving DecidableEq, Repr

structure Belfry where
  staging : List Record
  newest : Option Record
  newestWritten : Bool
  sill : List Slot
  ring : List Slot
  /-- ring sector in use (0 to 17) and slot in it -/
  ringSector : Nat
  ringSlot : Nat
  ringReady : Bool
  /-- the bytes of each slot of the NOTES area, none where it is erased (R517) -/
  notes : Tab (List Byte)
  noteDue : List Note
  noteAt : Tab Nat
  /-- slots of the NOTES area used so far, counted over its laps; the sector being erased ahead for reuse (R517) -/
  noteSlot : Nat
  noteErase : Option Nat
  frozen : Option Nat
  /-- a freeze waits for the end of an erase (R521); the staging queue of a thaw goes out (R522); the tick of a self-thaw whose
  BEL_THAW is still to come (Table 17-4) -/
  freezing : Bool
  flush : Bool
  thawAt : Option Nat
  readOnly : Bool
  lost : Counter
  lostSince : Nat
  /-- spares used of BSPARE and GSPARE -/
  bspares : Nat
  gspares : Nat
  spmap : List (Nat × Nat)
  lastSeq : Word
  opsec : Nat
  pcc : Nat
  opsecSat : Bool
  pccSat : Bool
  /-- the bytes of each slot of COUNT, none where it is erased; the sector in use; the one that must be erased before the next
  entry (R519) -/
  counts : Tab (List Byte)
  countIn : Nat
  countErase : Option Nat
  /-- tick of the last COUNT entry (R519) -/
  countAt : Nat
  torn : Nat
  tombs : Tab (Option Tombstone)
  vhold : Bool
  reErase : List Nat
  erasing : Option Nat
  /-- both copies of each partition under 2 × its number and that plus 1; the writes of partitions under way; COUNT and SPMAP
  sectors retired (R510, R512, R524) -/
  copies : Tab Copy
  writes : List PartWrite
  dead : List Nat
  /-- what an orderly shut-down still has to do: 4 the COUNT entry, 3 staging, 2 notes, 1 CSAVE (R528) -/
  shut : Nat
  secTick : Nat
  /-- tick of the last save of the smoothed capacitances (R99) -/
  csaveAt : Nat
deriving DecidableEq, Repr

/-- A BIST run (R546 to R550): blocks left to run, runs left of this block, second run of an INCOMPLETE segment. -/
structure Bist where
  blocks : List Nat
  runs : Nat
  passes : Nat
  retried : Bool
  requalify : Bool
  boot : Bool
  ball : BitVec 16
  result : Nat
  lastBlock : Nat
  lastRetried : Bool
  busy : Bool
  /-- when the segment under way started -/
  startAt : Nat
deriving DecidableEq, Repr

structure Sys where
  dev : DevState
  step : Nat
  hold : Bool
  rails : Bool
  pwrgood : Bool
  useTile : BitVec 64
  useOct : BitVec 8
  useXing : BitVec 4
  usePin : BitVec 11
  useQuad : BitVec 32
  bist : Bist
  halt : Bool
  /-- main-device SBK request held to Kingpost (R26) -/
  sbkReq : Bool
  /-- corrected single-bit errors (R34) of tile t's memory under t, octad n's under 64 + n, the device's under 72 -/
  corrected : Tab Counter
  sram : List (Nat × Word)
  /-- the levels that a boundary-scan test drives on the pins (R458) -/
  scan : Option (List Bool)
deriving DecidableEq, Repr

/-- The base frame (R44, R45). -/
structure FrameSt where
  k : Word
  epoch : Nat
  origin : Nat
  tf : Nat
  stationCount : Nat
  /-- the station sample that is due: its base frame and start tick; the deadline of the one under way (R216) -/
  stationDue : Option (Word × Nat)
  stationDl : Nat
  /-- CE_STIME in force (R217) -/
  stime : Word
  dpwHalt : Bool
  /-- the base epoch whose timed descriptors have been judged (R361) -/
  activatedAt : Option Nat
deriving DecidableEq, Repr

structure State where
  pending : List Instr
  tick : Tick
  free : Nat
  regs : List (Nat × Word)
  /-- the tick on which hardware last set a flag, and the flags (offset, bit) that it set then (Table 19-14) -/
  hotAt : Tick
  hot : List (Nat × Nat)
  /-- the words that host writes have replaced since the last clock, newest first (Table 19-14) -/
  wrote : List (Nat × Word)
  staging : List Host.Cell
  out : List Output
  /-- how much of `out` the lanes' transmitters have taken -/
  txSeen : Nat
  sys : Sys
  fr : FrameSt
  octs : Tab Octad
  tiles : Tab Tile
  lanes : Tab Lane
  cells : Tab Cell
  engs : Tab Engine
  profs : Tab Profile
  /-- the set-point queues of Table 1-7 by station output channel; each octad takes the entry for its own frame -/
  setQ : Tab (List SetPoint)
  dpws : Tab Dpwm
  trips : Tab Trip
  trigs : Tab Trig
  sports : Tab SPort
  svs : Tab SvStream
  time : TimeSt
  hif : Hif
  rings : Tab Ring
  modeReq : Option ModeReq
  flt : Collector
  kp : Kingpost
  ps : Pset
  clk : Clk
  epl : Epl
  sensors : Tab Sensor
  bel : Belfry
deriving DecidableEq, Repr

/-! ## Reset

Register words stand at their table's reset word while unlisted in `regs` (R559).  Where the spec states no reset value
the value below is the model's own choice (DESIGN CHOICE, log entries 1 and 2). -/

def Counter.init : Counter := ⟨0, false⟩
def FbImage.init : FbImage := ⟨0, 0, 0, 0, 0, false, 0, 0⟩
def Cross.init : Cross := ⟨false, false⟩

/-- A slot no hub has enumerated (R205); C0 and Ĉ read unset (R98, R99). Log entries 1 and 106. -/
def Cell.init : Cell where
  populated := false
  kind := 0
  minPulse := 0
  deadTime := 0
  serial := 0
  fb := .init
  v := 0
  stale := false
  fault := 0
  cand := false
  tcL := 0
  vOld := 0
  staleOld := false
  candOld := false
  retired := false
  c0Cleared := false
  permSent := false
  tcAdd := 0
  ins := false
  tc := 0
  exHigh := false
  exLow := false
  hiNow := false
  loNow := false
  hiSel := false
  loSel := false
  obh := false
  obl := false
  cmd := .hold
  edges := []
  level := false
  lastEdge := 0
  lastSeq := 0
  cmdq := []
  retL := false
  sqv := 0
  svv := 0
  nq := 0
  mismatch := 0
  lowEx := 0
  endNq := 0
  endTc := 0
  endHat := 0
  endValid := false
  winNq := 0
  winTc := 0
  hat := 0
  winValid := false
  winSeq := 0
  smooth := none
  validWins := 0
  c0 := 0xFFFFFFFF
  notice := .init
  retireTh := .init
  occ := []
  persist := 0
  sawFault := false

/-- Defaults of Table 1-4: T_FB 24, T_ED 56, T_D 64, T_HR 76, T_LE 0, φ 0. -/
def Timeline.init : Timeline := ⟨24, 56, 64, 76, 0, 0⟩

def SelPlan.init : SelPlan := ⟨0, false, false, [], [], [], [], 0, none, 0, 0, false⟩

def Octad.init : Octad where
  state := .unconfigured
  dberr := 0
  rdEntry := 0
  deb := .none
  selIn := 0
  fresh := false
  frame := 0
  epoch := 0
  epochs := []
  toLatch := []
  toCommit := []
  toSend := []
  latchAt := none
  tl := .init
  selCtrl := 0x0000F089
  selIsign := 0x00A40148
  selSrc := 0x00020100
  selVnom := 0
  iCode := 0
  iPrev := 0
  iLed := 0
  iLedPrev := 0
  sign := .zero
  discharge := false
  vbar := 0
  dv := 0
  ncand := 0
  x := .zero
  selRunning := false
  selDone := none
  selAt := 0
  selFrame := 0
  plan := .init
  selReset := false
  selSlow := false
  tcDone := false
  addLB := 0
  addTR := 0
  addSW := 0
  addEX := 0
  levelF := 0
  nins := 0
  lateRun := 0
  late := false
  liveLB := 0
  liveTR := 0
  liveSW := 0
  liveEX := 0
  cycNeg := false
  disturbed := false
  disturbedPrev := false
  window := 0
  counted := false
  countedPrev := false
  winW := 100000
  winImin := 1638
  winNqmin := 1000
  arithPending := false
  arithFrames := 0
  snapReq := false
  sumE := .zero
  spreadE := .zero
  carry := 0
  statN := 0
  statF := 0
  underrun := .init
  halted := false

def Tile.init : Tile := ⟨false, false, false, 0⟩

def Lane.init : Lane where
  state := .off
  speed := 0
  q := 0
  lock := false
  serving := false
  proc := .none
  target := 0
  from_ := 0
  sends := 0
  seq := 0
  acked := false
  turning := false
  dormantReq := false
  gate := 0
  capLast := none
  capCount := 0
  capAck := false
  hubMax := 0
  starts := []
  aux := 0
  auxAt := none
  huntAt := 0
  capxAt := 0
  sentAt := 0
  stepAt := 0
  rtAt := none
  wakeAt := none
  tseq := 15
  marked := false
  t1 := none
  markAt := 0
  unanswered := 0
  good := 0
  bad := 0
  big := 0
  exchanges := 0
  delay := 0
  delayValid := false
  terr := 0
  tlock := false
  grant := 0
  taken := 0
  eye := none
  fill := 0
  lowRuns := []
  maxSpd := 3
  txHi := []
  txLo := []
  txOpen := 0
  txAcc := 0
  txRun := 0
  capRun := 0
  scr := 1
  rxPrev := 0
  hunts := []
  align := 0
  hdrs := []
  dsc := 0
  skip := 0
  openF := none
  capLost := .init

def Mbox.init : Mbox := ⟨0, 0, false, false, false, 0⟩
def injParamsInit : InjParams := ⟨0, 0, 0, 0, 0, 0, 0, 0, 0, 0⟩
def Inj.init : Inj := ⟨false, false, false, injParamsInit, none, 0, 0, 0, 0⟩
def Splice.init : Splice := ⟨false, 0, 0, [], .empty .zero, .empty .zero⟩

def Engine.init : Engine where
  graph := none
  loading := none
  bankA := []
  bankB := []
  bankSel := false
  swap := none
  state := .empty 0
  out := .empty 0
  blockOut := .empty []
  committed := false
  running := false
  sampleFrame := 0
  entryFrame := 0
  sampleTick := 0
  sampleNo := 0
  older := []
  commitTick := 0
  ovrRun := 0
  loaderr := 0
  mloaderr := 0
  mbox := .empty .init
  inj := .empty .init
  injRan := false
  capDec := none
  modes := []
  modeLoading := none
  mode := 0
  armed := none
  pending := []
  splice := .init
  privTab := []

def Profile.init : Profile := ⟨0, 0, 0, 0, false, false, 0, []⟩

/-- Settings at the reset words of R140; output at SAFE (DPW_STAT resets to 0x2). -/
def Dpwm.init : Dpwm where
  cfg := 0x00080F04
  per := 0x00009C40
  ofs := 0
  minp := 0x00000320
  writes := []
  idx := 0
  startAt := 0
  rise := none
  fall := none
  late := false
  active := false
  carry := 0
  clamps := .init
  safe := true
  heldLevel := none

def Trip.init : Trip := ⟨false, false, 0⟩
def Trig.init : Trig := ⟨none, false, 0, 0⟩
def SPort.init : SPort := ⟨none, false, [], false⟩
def SvStream.init : SvStream := ⟨none, 0, false, false, [], false⟩

/-- Device time starts at zero, free-running (R317). -/
def TimeSt.init : TimeSt where
  dt := 0
  rate := 0
  latchDt := 0
  latchTick := 0
  servo := .free
  freq := 0
  delay := 0
  delayFirst := true
  delayAt := none
  theta := 0
  prev := none
  lastT2 := none
  lastSample := none
  syncInterval := 0
  sync := none
  e2eT3 := none
  lastSync := none
  pd := .empty none
  minReq := 0
  masters := .empty []
  gm := 0
  masterId := 0
  gmValid := false
  port := 0
  utc := 0
  utcValid := false
  holdSince := 0
  sentAt := .empty none
  reqSeq := 0
  orgPend := false
  orgTime := 0
  orgBase := 0
  tsPins := 0
  everLocked := false

def Ring.init : Ring where
  host := 0
  dev := 0
  count17 := 0
  halt := false
  gained := false
  irqDue := false
  fetches := []
  reserved := 0
  untimed := []
  pend := []
  buf := []
  bufTries := 0
  bufAt := 0

/-- A vector is masked until the host unmasks it (log entry 102). -/
def MsixEntry.init : MsixEntry where
  addr := 0
  data := 0
  mask := true

/-- The endpoint before PERST_N is released (R343, R537). -/
def Hif.init : Hif where
  inReset := true
  linkUp := false
  speed := 0
  width := 0
  d3 := false
  gen := 0
  genSeen := false
  lostTimer := none
  lost := false
  sweeping := false
  sweepAt := 0
  sweeps := []
  sweepK := 0
  waiting := []
  msixEn := false
  funcMask := false
  msixTab := .empty .init
  pba := 0
  doorbell := []

def Collector.init : Collector where
  queues := .empty []
  dropped := .empty 0
  nextId := 1
  seq := 0
  takenAt := none
  table := []
  tblFull := false
  faultN := false
  holdUntil := 0
  released := false
  windows := []
  seqOf := .empty 0
  fallback := false
  lockout := false

def SbkCauses.init : SbkCauses := ⟨false, false, false, false, false, false⟩
def TripCauses.init : TripCauses := ⟨false, false, false, false, false⟩
def Filt.init : Filt := ⟨false, 0⟩
def KpPair.init : KpPair := ⟨.init, false, false, true, false, none, false, false, [], none, false⟩
def KpOut.init : KpOut := ⟨{ TripCauses.init with power := true }, none, .init, false, false, false, false, none, false, 0, 0, 0, 0⟩
def KpLoop.init : KpLoop := ⟨{ SbkCauses.init with power := true }, true, false, none, 0, 0⟩
def Srd.init : Srd := ⟨false, false, 0, none, 0, false, 0, 0⟩

def KpChan.init : KpChan where
  running := false
  params := none
  newParams := none
  newSeen := false
  pcrc := 0
  pairs := .empty .init
  outs := .empty .init
  loops := .empty .init
  srd := .init
  m := 0
  lastHs := 0
  count := 0
  badClock := 0
  goodSince := none
  xchFault := false
  mainReq := false
  time := 0
  own := false

def Kingpost.init : Kingpost := ⟨false, .init, .init, 0, false, none, 0, false⟩

def KeySlot.init : KeySlot := ⟨.empty, 0⟩
def FwSlot.init : FwSlot := ⟨false, 0, 0, 0, none⟩

/-- OTP and NVM as a part that nobody has commissioned holds them: no profile, no keys, no set; firmware slot 0 valid and
preferred (log entry 2). -/
def Pset.init : Pset where
  profile := .none
  image := none
  seq := 0
  digest := 0
  keys := .empty .init
  owner := .init
  nonce := none
  err := 0
  commit := none
  uid := 0
  lot := 0
  wafer := 0
  dieX := 0
  dieY := 0
  svnFloor := 0
  fw := (Tab.empty FwSlot.init).set 0 ⟨true, 0, 0, 0, none⟩
  fwPreferred := 0
  fwRunning := none
  fwFallback := false
  challenge := none
  grant := none
  tokenResult := 0
  appliedAt := none
  askicaDigest := shake256 Config.askicaKey
  ir := 0

def PllSt.init : PllSt := ⟨.search, 0, false, 0⟩

def Clk.init : Clk where
  time := .init
  core := .init
  quads := .empty .init
  started := false
  pre := 0
  point := 0
  hopTo := none
  searching := none
  inHop := false
  bootPoints := []
  bypassCore := some 0
  bypassTime := none
  active := none
  qualA := false
  qualB := false
  lostA := false
  lostB := false
  refSince := .empty 0
  held := none
  rho := 0
  rhoAt := 0
  frac := 0
  stepped := 1
  since := 0
  was := []

/-- A sensor as tested: two counts at 25 °C and 105 °C in its OTP (R497; log entry 2). -/
def Sensor.init : Sensor where
  n1 := 10000
  n2 := 12000
  c1 := 200
  c2 := 840
  code := 0
  valid := false
  stale := false
  failed := false
  invalid := 0
  last := 0
  prevTick := 0
  prevCode := 0
  prevValid := false
  demand := false
  elective := false
  gate := none
  lastGate := none
  once := 0
  crossed := 0
  schedAt := 0
  spoiled := false

def Epl.init : Epl where
  carry := 0
  counts := []
  live := .empty 0
  predE := .empty 0
  actE := .empty 0
  epochs := 0
  above := false
  shed := false
  dorm := false
  overRaised := false
  decUp := 0
  wantPoint := none
  okRuns := .empty 0
  fitRun := 0
  grace := none
  enforce := false
  src := 0x7F
  shedTo := 0
  epochAt := 0
  defRun := 0
  defer := false

/-- A blank NVM: both areas empty, every spare present (R510, R522). Log entry 2. -/
def Belfry.init : Belfry where
  staging := []
  newest := none
  newestWritten := false
  sill := []
  ring := []
  ringSector := 0
  ringSlot := 0
  ringReady := true
  notes := .empty []
  noteDue := []
  noteAt := .empty 0
  noteSlot := 0
  noteErase := none
  frozen := none
  freezing := false
  flush := false
  thawAt := none
  readOnly := false
  lost := .init
  lostSince := 0
  bspares := 0
  gspares := 0
  spmap := []
  lastSeq := 0
  opsec := 0
  pcc := 0
  opsecSat := false
  pccSat := false
  counts := .empty []
  countIn := 0
  countErase := none
  countAt := 0
  torn := 0
  tombs := .empty none
  vhold := true
  reErase := []
  erasing := none
  copies := .empty ⟨[], []⟩
  writes := []
  dead := []
  shut := 0
  secTick := 0
  csaveAt := 0

def Bist.init : Bist := ⟨[], 0, 0, false, false, false, 0, 0, 0, false, false, 0⟩

/-- Right after PWRGOOD: BOOT at step 3 (DEV_STAT resets to 0x32, R554); no usability map marks anything (R551). -/
def Sys.init : Sys where
  dev := .boot
  step := 3
  hold := false
  rails := true
  pwrgood := true
  useTile := 0xFFFFFFFFFFFFFFFF
  useOct := 0xFF
  useXing := 0xF
  usePin := 0x7FF
  useQuad := 0xFFFFFFFF
  bist := .init
  halt := false
  sbkReq := false
  corrected := .empty .init
  sram := []
  scan := none

/-- T_F 8 (Table 1-4); the frame origin is tick 0 (R45). -/
def FrameSt.init : FrameSt := ⟨0, 0, 0, 8, 0, none, 0, 0x01400805, false, none⟩

/-- The block right after reset: every register at its table's reset word, memory with nothing listed, an empty queue.
Log entry 1. -/
def State.reset : State where
  pending := []
  tick := 0
  free := 0
  regs := []
  hotAt := 0
  hot := []
  wrote := []
  staging := []
  out := []
  txSeen := 0
  sys := .init
  fr := .init
  octs := .empty .init
  tiles := .empty .init
  lanes := .empty .init
  cells := .empty .init
  engs := .empty .init
  profs := .empty .init
  setQ := .empty []
  dpws := .empty .init
  trips := .empty .init
  trigs := .empty .init
  sports := .empty .init
  svs := .empty .init
  time := .init
  hif := .init
  rings := .empty .init
  modeReq := none
  flt := .init
  kp := .init
  ps := .init
  clk := .init
  epl := .init
  sensors := .empty .init
  bel := .init

end Sys2Proof.Machine
end

