-- ==== Sys2Proof/Machine/RegMap.lean ====
section
/-! DEFINITION. The set-up register map (chapter 19): for each register its offset in its block, its instances, its reset
word and its fields with access code and range, from the field tables of the chapters that define them. -/

namespace Sys2Proof.Machine

/-- Access codes of Table 0-3 (no field of the manual is ROS). -/
inductive Acc | ro | rw | wo | w1c | rwp
deriving DecidableEq, Repr

/-- A field: access, lowest bit, width, least and greatest value that is in range. -/
structure Fld where
  acc : Acc
  lo : Nat
  len : Nat
  min : Nat
  max : Nat
deriving DecidableEq, Repr

/-- The registers by their names in the manual. -/
inductive RegName where
  | idIdcode | idRev | idUid | idLot0 | idLot1 | idPos | idFw | idFwstat | idPci | devStat | devBoott | devAccerr
  | devFrame | bstCtrl | bstStat | bstBall | bstUse0 | bstUse1 | bstUse2 | bstUse3 | hifCtrl | hifDblo | hifDbhi
  | hifHostlost | hifStat | hifSweepto | hifFetchto | hifRbaselo | hifRbasehi | hifRcfg | hifRstat | fltStat
  | fltSeq | fltDrop | fltTcons | fltBudget0 | fltBudget1 | fltTblsel | fltTblent0 | fltTblent1 | fltTblent2
  | tsCtrl | tsServo | tsStat | tsOffset | tsRate | tsDelay | tsUtc | tsHoldsec | tsOutlier | tsTime0 | tsTime1
  | tsTime2 | tsOrg0 | tsOrg1 | tsOrgctl | tsEperr | tsGmid | tsLat | tsTick | tsTrgcfg | tsTrgofs | tsTrgper
  | tsTrgt0 | tsTrgt0s | tsTscfg | tsTslost | tsSvcfg | tsSvmac0 | tsSvmac1 | tsSvid | tsSvrev | tsSvrate
  | tsSvdly | tsSvstat | tsSpcfg | tsSpstat | dpwCfg | dpwPer | dpwOfs | dpwMinp | dpwStat | dpwCnt | dpwTripcfg
  | dpwTripmap | dpwTripstat | clkCtrl | clkStat | clkHop | clkHopcfg | clkRatio | clkBpi | clkHopcnt | clkSwcnt
  | clkRlcnt | eplCtrl | eplPolicy | eplStat | eplCarry | eplEpoch | eplPred | eplEpcf | eplCf | eplScale
  | eplCoef | thmCtrl | thmLimits | thmGrace | thmRate | thmStat | thmTemp | belCtrl | belStat | belSillcnt
  | belRingcnt | belLastseq | belLost | belOpsec | belPcc | belTorn | belTomb | kpFallback | kpStat | kpLoop | kpIn | kpInfilt
  | kpOut | kpSrda | kpSrdb | kpPcrc | kpFreq | kpLoopoff | psetStat | psetSeq | psetDigest | psetKeys | psetDbg
  | psetNmin | octStat | octRdcfg | octTiming0 | octTiming1 | octPhase | selCtrl | selIsign | selSrc | selVnom
  | selStat | selLb | selTr | selSw | selEx | ldgWin | ldgQual | ldgScale | ldgCh | ldgHealth | ldgStat | ldgWseq
  | ldgSnaplost | ldgCnom | octCtype | octTrimcar | octTrimcnt | octTrimclamp | octLnkpol | ceStat | ceBound
  | ceOvrcnt | ceCapctl | ceCapsel | ceCaplost | ceInjstat | ceLimit | ceStale | ceStime | ceMode | ceSplcnt
  | ceSat | tilCtmap | tilEdgstat | tilTruss | tilHubser | tilHubid | tilHubpar | tilPop0 | tilPop1 | tilCrcerr
  | tilMalform | tilCrederr | lnkCfg | lnkEyeth | lnkStat | lnkHubcap | lnkRtcnt | lnkBadhdr | lnkFill | lnkEyectl
  | lnkAsym | lnkDelay | lnkTerr
deriving DecidableEq, Repr

/-- A register of a block: first offset, instances, distance between them, reset word, fields. -/
structure RegDef where
  name : RegName
  off : Nat
  count : Nat
  stride : Nat
  reset : Nat
  fields : List Fld
deriving DecidableEq, Repr

/-- Registers of the device block (R555). -/
def devRegs0 : List RegDef := [
  ⟨.idIdcode, 0x0, 1, 0x4, 0x4a9610b3, [⟨.ro, 0, 32, 0, 4294967295⟩]⟩,
  ⟨.idRev, 0x4, 1, 0x4, 0x3141, [⟨.ro, 0, 16, 0, 65535⟩]⟩,
  ⟨.idUid, 0x8, 2, 0x4, 0x0, [⟨.ro, 0, 32, 0, 4294967295⟩]⟩,
  ⟨.idLot0, 0x10, 1, 0x4, 0x0, [⟨.ro, 0, 32, 0, 4294967295⟩]⟩,
  ⟨.idLot1, 0x14, 1, 0x4, 0x0, [⟨.ro, 0, 16, 0, 65535⟩]⟩,
  ⟨.idPos, 0x18, 1, 0x4, 0x0, [⟨.ro, 0, 8, 0, 255⟩, ⟨.ro, 8, 8, 0, 255⟩, ⟨.ro, 16, 8, 0, 255⟩]⟩,
  ⟨.idFw, 0x1c, 1, 0x4, 0x0, [⟨.ro, 0, 32, 0, 4294967295⟩]⟩,
  ⟨.idFwstat, 0x20, 1, 0x4, 0x0, [⟨.ro, 0, 1, 0, 1⟩, ⟨.ro, 1, 1, 0, 1⟩, ⟨.ro, 8, 6, 0, 63⟩]⟩,
  ⟨.idPci, 0x24, 1, 0x4, 0x40961f6b, [⟨.ro, 0, 16, 0, 65535⟩, ⟨.ro, 16, 16, 0, 65535⟩]⟩,
  ⟨.devStat, 0x100, 1, 0x4, 0x32, [⟨.ro, 0, 3, 0, 7⟩, ⟨.ro, 4, 4, 0, 15⟩, ⟨.ro, 8, 1, 0, 1⟩]⟩,
  ⟨.devBoott, 0x104, 1, 0x4, 0x0, [⟨.ro, 0, 16, 0, 65535⟩]⟩,
  ⟨.devAccerr, 0x108, 1, 0x4, 0x0, [⟨.w1c, 0, 1, 0, 1⟩, ⟨.w1c, 1, 1, 0, 1⟩, ⟨.w1c, 2, 1, 0, 1⟩, ⟨.w1c, 3, 1, 0, 1⟩]⟩,
  ⟨.devFrame, 0x110, 1, 0x4, 0x8, [⟨.rw, 0, 7, 4, 64⟩]⟩,
  ⟨.bstCtrl, 0x4000, 1, 0x4, 0x0, [⟨.rwp, 0, 1, 0, 1⟩]⟩]

def devRegs1 : List RegDef := [
  ⟨.bstStat, 0x4004, 1, 0x4, 0x0, [⟨.ro, 0, 1, 0, 1⟩, ⟨.ro, 1, 2, 0, 3⟩, ⟨.ro, 3, 1, 0, 1⟩, ⟨.ro, 16, 16, 0, 65535⟩]⟩,
  ⟨.bstBall, 0x4008, 1, 0x4, 0x0, [⟨.ro, 0, 8, 0, 255⟩, ⟨.ro, 8, 8, 0, 255⟩]⟩,
  ⟨.bstUse0, 0x4010, 1, 0x4, 0x0, [⟨.ro, 0, 32, 0, 4294967295⟩]⟩,
  ⟨.bstUse1, 0x4014, 1, 0x4, 0x0, [⟨.ro, 0, 32, 0, 4294967295⟩]⟩,
  ⟨.bstUse2, 0x4018, 1, 0x4, 0x0, [⟨.ro, 0, 8, 0, 255⟩, ⟨.ro, 8, 4, 0, 15⟩, ⟨.ro, 16, 11, 0, 2047⟩]⟩,
  ⟨.bstUse3, 0x401c, 1, 0x4, 0x0, [⟨.ro, 0, 32, 0, 4294967295⟩]⟩]

def devRegs : List RegDef := devRegs0 ++ devRegs1

/-- Registers of the host interface block (R555). -/
def hifRegs : List RegDef := [
  ⟨.hifCtrl, 0x0, 1, 0x4, 0xc808, [⟨.rw, 0, 1, 0, 1⟩, ⟨.rw, 1, 9, 1, 400⟩, ⟨.rw, 10, 14, 10, 10000⟩]⟩,
  ⟨.hifDblo, 0x4, 1, 0x4, 0x0, [⟨.rw, 8, 24, 0, 16777215⟩]⟩,
  ⟨.hifDbhi, 0x8, 1, 0x4, 0x0, [⟨.rw, 0, 32, 0, 4294967295⟩]⟩,
  ⟨.hifHostlost, 0xc, 1, 0x4, 0x64, [⟨.rwp, 0, 14, 10, 10000⟩, ⟨.rwp, 14, 1, 0, 1⟩]⟩,
  ⟨.hifStat, 0x10, 1, 0x4, 0x0, [⟨.ro, 0, 1, 0, 1⟩, ⟨.w1c, 1, 1, 0, 1⟩, ⟨.ro, 2, 3, 0, 7⟩, ⟨.ro, 5, 3, 0, 7⟩, ⟨.ro, 8, 1, 0, 1⟩]⟩,
  ⟨.hifSweepto, 0x14, 1, 0x4, 0x0, [⟨.ro, 0, 31, 0, 2147483647⟩, ⟨.ro, 31, 1, 0, 1⟩]⟩,
  ⟨.hifFetchto, 0x18, 1, 0x4, 0x0, [⟨.ro, 0, 31, 0, 2147483647⟩, ⟨.ro, 31, 1, 0, 1⟩]⟩,
  ⟨.hifRbaselo, 0x100, 37, 0x10, 0x0, [⟨.rw, 6, 26, 0, 67108863⟩]⟩,
  ⟨.hifRbasehi, 0x104, 37, 0x10, 0x0, [⟨.rw, 0, 32, 0, 4294967295⟩]⟩,
  ⟨.hifRcfg, 0x108, 37, 0x10, 0x8, [⟨.rw, 0, 1, 0, 1⟩, ⟨.rw, 1, 5, 4, 16⟩, ⟨.rw, 6, 6, 0, 63⟩, ⟨.rw, 12, 1, 0, 1⟩]⟩,
  ⟨.hifRstat, 0x10c, 37, 0x10, 0x0, [⟨.ro, 0, 1, 0, 1⟩, ⟨.w1c, 1, 1, 0, 1⟩, ⟨.ro, 8, 9, 0, 511⟩]⟩]

/-- Registers of the fault collector block (R555). -/
def fltRegs : List RegDef := [
  ⟨.fltStat, 0x0, 1, 0x4, 0x0, [⟨.ro, 0, 1, 0, 1⟩, ⟨.ro, 1, 1, 0, 1⟩, ⟨.ro, 2, 1, 0, 1⟩, ⟨.ro, 3, 1, 0, 1⟩, ⟨.w1c, 4, 1, 0, 1⟩, ⟨.ro, 8, 9, 0, 511⟩]⟩,
  ⟨.fltSeq, 0x4, 1, 0x4, 0x0, [⟨.ro, 0, 32, 0, 4294967295⟩]⟩,
  ⟨.fltDrop, 0x8, 4, 0x4, 0x0, [⟨.ro, 0, 31, 0, 2147483647⟩, ⟨.ro, 31, 1, 0, 1⟩]⟩,
  ⟨.fltTcons, 0x20, 1, 0x4, 0x14, [⟨.rwp, 0, 10, 1, 1000⟩]⟩,
  ⟨.fltBudget0, 0x24, 1, 0x4, 0x3e80a04, [⟨.rwp, 0, 4, 1, 15⟩, ⟨.rwp, 8, 7, 1, 100⟩, ⟨.rwp, 16, 16, 10, 65535⟩]⟩,
  ⟨.fltBudget1, 0x28, 1, 0x4, 0x3c0410, [⟨.rwp, 0, 8, 1, 255⟩, ⟨.rwp, 8, 8, 1, 255⟩, ⟨.rwp, 16, 12, 1, 3600⟩]⟩,
  ⟨.fltTblsel, 0x30, 1, 0x4, 0x0, [⟨.rw, 0, 8, 0, 255⟩]⟩,
  ⟨.fltTblent0, 0x34, 1, 0x4, 0x0, [⟨.ro, 0, 16, 0, 65535⟩, ⟨.ro, 16, 16, 0, 65535⟩]⟩,
  ⟨.fltTblent1, 0x38, 1, 0x4, 0x0, [⟨.ro, 0, 32, 0, 4294967295⟩]⟩,
  ⟨.fltTblent2, 0x3c, 1, 0x4, 0x0, [⟨.ro, 0, 8, 0, 255⟩, ⟨.ro, 8, 1, 0, 1⟩, ⟨.ro, 9, 1, 0, 1⟩, ⟨.ro, 16, 16, 0, 65535⟩]⟩]

/-- Registers of the time, triggers and pulse outputs block (R555). -/
def tsRegs0 : List RegDef := [
  ⟨.tsCtrl, 0x0, 1, 0x4, 0x33000e, [⟨.rw, 0, 1, 0, 1⟩, ⟨.rw, 1, 2, 0, 3⟩, ⟨.rw, 3, 1, 0, 1⟩, ⟨.rw, 4, 1, 0, 1⟩, ⟨.rw, 5, 1, 0, 1⟩, ⟨.rw, 8, 8, 0, 255⟩, ⟨.rw, 16, 3, 2, 7⟩, ⟨.rw, 20, 3, 0, 7⟩]⟩,
  ⟨.tsServo, 0x4, 1, 0x4, 0xa0602, [⟨.rw, 0, 4, 0, 15⟩, ⟨.rw, 8, 4, 0, 15⟩, ⟨.rw, 16, 7, 1, 100⟩]⟩,
  ⟨.tsStat, 0x8, 1, 0x4, 0x0, [⟨.ro, 0, 3, 0, 7⟩, ⟨.ro, 3, 1, 0, 1⟩, ⟨.w1c, 4, 1, 0, 1⟩]⟩,
  ⟨.tsOffset, 0xc, 1, 0x4, 0x0, [⟨.ro, 0, 32, 0, 4294967295⟩]⟩,
  ⟨.tsRate, 0x10, 1, 0x4, 0x0, [⟨.ro, 0, 32, 0, 4294967295⟩]⟩,
  ⟨.tsDelay, 0x14, 1, 0x4, 0x0, [⟨.ro, 0, 32, 0, 4294967295⟩]⟩,
  ⟨.tsUtc, 0x20, 1, 0x4, 0x0, [⟨.ro, 0, 16, 0, 65535⟩, ⟨.ro, 16, 1, 0, 1⟩]⟩,
  ⟨.tsHoldsec, 0x24, 1, 0x4, 0x0, [⟨.ro, 0, 31, 0, 2147483647⟩, ⟨.ro, 31, 1, 0, 1⟩]⟩,
  ⟨.tsOutlier, 0x28, 1, 0x4, 0x0, [⟨.ro, 0, 31, 0, 2147483647⟩, ⟨.ro, 31, 1, 0, 1⟩]⟩,
  ⟨.tsTime0, 0x40, 1, 0x4, 0x0, [⟨.ro, 0, 32, 0, 4294967295⟩]⟩,
  ⟨.tsTime1, 0x44, 1, 0x4, 0x0, [⟨.ro, 0, 32, 0, 4294967295⟩]⟩,
  ⟨.tsTime2, 0x48, 1, 0x4, 0x0, [⟨.ro, 0, 16, 0, 65535⟩, ⟨.ro, 16, 16, 0, 65535⟩]⟩,
  ⟨.tsOrg0, 0x60, 1, 0x4, 0x0, [⟨.rw, 0, 32, 0, 999999999⟩]⟩,
  ⟨.tsOrg1, 0x64, 1, 0x4, 0x0, [⟨.rw, 0, 32, 0, 4294967295⟩]⟩]

def tsRegs1 : List RegDef := [
  ⟨.tsOrgctl, 0x68, 1, 0x4, 0x0, [⟨.wo, 0, 1, 0, 1⟩, ⟨.ro, 1, 1, 0, 1⟩, ⟨.w1c, 2, 1, 0, 1⟩]⟩,
  ⟨.tsEperr, 0x6c, 1, 0x4, 0x0, [⟨.ro, 0, 32, 0, 4294967295⟩]⟩,
  ⟨.tsGmid, 0x18, 2, 0x4, 0x0, [⟨.ro, 0, 32, 0, 4294967295⟩]⟩,
  ⟨.tsLat, 0x30, 2, 0x4, 0x0, [⟨.rw, 0, 16, 0, 65535⟩, ⟨.rw, 16, 16, 0, 65535⟩]⟩,
  ⟨.tsTick, 0x50, 2, 0x4, 0x0, [⟨.ro, 0, 32, 0, 4294967295⟩]⟩,
  ⟨.tsTrgcfg, 0x1000, 8, 0x20, 0x1083c, [⟨.rw, 0, 1, 0, 1⟩, ⟨.rw, 1, 1, 0, 1⟩, ⟨.rw, 2, 4, 0, 15⟩, ⟨.rw, 8, 8, 1, 255⟩, ⟨.rw, 16, 7, 1, 64⟩]⟩,
  ⟨.tsTrgofs, 0x1004, 8, 0x20, 0x0, [⟨.rw, 0, 16, 0, 65535⟩]⟩,
  ⟨.tsTrgper, 0x1008, 8, 0x20, 0xf4240, [⟨.rw, 0, 30, 1000, 1000000000⟩]⟩,
  ⟨.tsTrgt0, 0x100c, 8, 0x20, 0x0, [⟨.rw, 0, 32, 0, 999999999⟩]⟩,
  ⟨.tsTrgt0s, 0x1010, 8, 0x20, 0x0, [⟨.rw, 0, 32, 0, 4294967295⟩]⟩,
  ⟨.tsTscfg, 0x2000, 1, 0x4, 0x0, [⟨.rw, 0, 16, 0, 65535⟩, ⟨.rw, 16, 4, 0, 15⟩]⟩,
  ⟨.tsTslost, 0x2004, 1, 0x4, 0x0, [⟨.ro, 0, 31, 0, 2147483647⟩, ⟨.ro, 31, 1, 0, 1⟩]⟩,
  ⟨.tsSvcfg, 0x3000, 32, 0x20, 0x40000806, [⟨.rw, 0, 1, 0, 1⟩, ⟨.rw, 1, 2, 1, 3⟩, ⟨.rw, 3, 1, 0, 1⟩, ⟨.rw, 4, 1, 0, 1⟩, ⟨.rw, 5, 1, 0, 1⟩, ⟨.rw, 8, 5, 1, 16⟩, ⟨.rw, 16, 16, 0, 65535⟩]⟩,
  ⟨.tsSvmac0, 0x3004, 32, 0x20, 0x0, [⟨.rw, 0, 32, 0, 4294967295⟩]⟩]

def tsRegs2 : List RegDef := [
  ⟨.tsSvmac1, 0x3008, 32, 0x20, 0x0, [⟨.rw, 0, 16, 0, 65535⟩]⟩,
  ⟨.tsSvid, 0x300c, 32, 0x20, 0x0, [⟨.rw, 0, 32, 0, 4294967295⟩]⟩,
  ⟨.tsSvrev, 0x3010, 32, 0x20, 0x0, [⟨.rw, 0, 32, 0, 4294967295⟩]⟩,
  ⟨.tsSvrate, 0x3014, 32, 0x20, 0xa000fa0, [⟨.rw, 0, 17, 1, 96000⟩, ⟨.rw, 24, 8, 1, 255⟩]⟩,
  ⟨.tsSvdly, 0x3018, 32, 0x20, 0x0, [⟨.rw, 0, 20, 0, 1048575⟩]⟩,
  ⟨.tsSvstat, 0x301c, 32, 0x20, 0x0, [⟨.ro, 0, 1, 0, 1⟩, ⟨.ro, 1, 1, 0, 1⟩, ⟨.w1c, 2, 1, 0, 1⟩, ⟨.ro, 16, 15, 0, 32767⟩, ⟨.ro, 31, 1, 0, 1⟩]⟩,
  ⟨.tsSpcfg, 0x4000, 8, 0x10, 0xc8043c6, [⟨.rw, 0, 1, 0, 1⟩, ⟨.rw, 1, 2, 0, 3⟩, ⟨.rw, 3, 5, 16, 24⟩, ⟨.rw, 8, 2, 0, 3⟩, ⟨.rw, 10, 1, 0, 1⟩, ⟨.rw, 12, 6, 0, 63⟩, ⟨.rw, 20, 10, 0, 1023⟩, ⟨.rwp, 30, 1, 0, 1⟩]⟩,
  ⟨.tsSpstat, 0x4004, 8, 0x10, 0x0, [⟨.ro, 0, 31, 0, 2147483647⟩, ⟨.ro, 31, 1, 0, 1⟩]⟩,
  ⟨.dpwCfg, 0x8000, 24, 0x20, 0x80f04, [⟨.rw, 0, 1, 0, 1⟩, ⟨.rw, 1, 1, 0, 1⟩, ⟨.rw, 2, 1, 0, 1⟩, ⟨.rw, 3, 1, 0, 1⟩, ⟨.rwp, 4, 1, 0, 1⟩, ⟨.rwp, 8, 4, 0, 15⟩, ⟨.rw, 16, 4, 0, 8⟩, ⟨.rw, 20, 6, 0, 63⟩]⟩,
  ⟨.dpwPer, 0x8004, 24, 0x20, 0x9c40, [⟨.rw, 0, 20, 400, 1048575⟩]⟩,
  ⟨.dpwOfs, 0x8008, 24, 0x20, 0x0, [⟨.rw, 0, 20, 0, 1048575⟩]⟩,
  ⟨.dpwMinp, 0x800c, 24, 0x20, 0x320, [⟨.rw, 0, 12, 0, 4000⟩]⟩,
  ⟨.dpwStat, 0x8010, 24, 0x20, 0x2, [⟨.ro, 0, 1, 0, 1⟩, ⟨.ro, 1, 1, 0, 1⟩, ⟨.w1c, 2, 1, 0, 1⟩, ⟨.w1c, 3, 1, 0, 1⟩]⟩,
  ⟨.dpwCnt, 0x8014, 24, 0x20, 0x0, [⟨.ro, 0, 31, 0, 2147483647⟩, ⟨.ro, 31, 1, 0, 1⟩]⟩]

def tsRegs3 : List RegDef := [
  ⟨.dpwTripcfg, 0x8400, 16, 0x8, 0x100, [⟨.rwp, 0, 8, 0, 255⟩, ⟨.rwp, 8, 1, 0, 1⟩, ⟨.rwp, 9, 1, 0, 1⟩]⟩,
  ⟨.dpwTripmap, 0x8404, 16, 0x8, 0x0, [⟨.rwp, 0, 24, 0, 16777215⟩, ⟨.rwp, 24, 8, 0, 255⟩]⟩,
  ⟨.dpwTripstat, 0x8480, 1, 0x4, 0x0, [⟨.ro, 0, 16, 0, 65535⟩, ⟨.w1c, 16, 16, 0, 65535⟩]⟩]

def tsRegs : List RegDef := tsRegs0 ++ tsRegs1 ++ tsRegs2 ++ tsRegs3

/-- Registers of the clocks, energy and thermal block (R555). -/
def clkRegs0 : List RegDef := [
  ⟨.clkCtrl, 0x0, 1, 0x4, 0x192, [⟨.rw, 0, 1, 0, 1⟩, ⟨.rw, 1, 1, 0, 1⟩, ⟨.rw, 2, 10, 1, 1000⟩]⟩,
  ⟨.clkStat, 0x4, 1, 0x4, 0x2, [⟨.ro, 0, 2, 0, 3⟩, ⟨.ro, 2, 1, 0, 1⟩, ⟨.ro, 3, 1, 0, 1⟩, ⟨.ro, 4, 3, 0, 7⟩, ⟨.ro, 7, 3, 0, 7⟩, ⟨.ro, 10, 3, 0, 7⟩, ⟨.w1c, 13, 1, 0, 1⟩]⟩,
  ⟨.clkHop, 0x10, 8, 0x8, 0x80000000, [⟨.rw, 0, 24, 0, 16777215⟩, ⟨.rw, 24, 8, 0, 255⟩]⟩,
  ⟨.clkHopcfg, 0x14, 8, 0x8, 0x8, [⟨.rw, 0, 6, 0, 63⟩, ⟨.rw, 7, 1, 0, 1⟩, ⟨.ro, 8, 5, 0, 31⟩, ⟨.ro, 13, 1, 0, 1⟩]⟩,
  ⟨.clkRatio, 0x50, 1, 0x4, 0x0, [⟨.ro, 0, 28, 0, 268435455⟩]⟩,
  ⟨.clkBpi, 0x54, 1, 0x4, 0x0, [⟨.ro, 0, 16, 0, 65535⟩, ⟨.ro, 16, 16, 0, 65535⟩]⟩,
  ⟨.clkHopcnt, 0x58, 1, 0x4, 0x0, [⟨.ro, 0, 31, 0, 2147483647⟩, ⟨.ro, 31, 1, 0, 1⟩]⟩,
  ⟨.clkSwcnt, 0x5c, 1, 0x4, 0x0, [⟨.ro, 0, 31, 0, 2147483647⟩, ⟨.ro, 31, 1, 0, 1⟩]⟩,
  ⟨.clkRlcnt, 0x60, 1, 0x4, 0x0, [⟨.ro, 0, 31, 0, 2147483647⟩, ⟨.ro, 31, 1, 0, 1⟩]⟩,
  ⟨.eplCtrl, 0x1000, 1, 0x4, 0x647148, [⟨.rw, 0, 16, 1000, 40000⟩, ⟨.rw, 16, 10, 0, 1000⟩]⟩,
  ⟨.eplPolicy, 0x1004, 1, 0x4, 0x640064, [⟨.rw, 0, 10, 1, 1000⟩, ⟨.rw, 16, 10, 1, 1000⟩]⟩,
  ⟨.eplStat, 0x1008, 1, 0x4, 0x0, [⟨.ro, 0, 1, 0, 1⟩, ⟨.ro, 1, 1, 0, 1⟩, ⟨.ro, 2, 1, 0, 1⟩, ⟨.w1c, 3, 1, 0, 1⟩]⟩,
  ⟨.eplCarry, 0x100c, 1, 0x4, 0x0, [⟨.ro, 0, 32, 0, 4294967295⟩]⟩,
  ⟨.eplEpoch, 0x1010, 1, 0x4, 0x0, [⟨.ro, 0, 32, 0, 4294967295⟩]⟩]

def clkRegs1 : List RegDef := [
  ⟨.eplPred, 0x1014, 1, 0x4, 0x0, [⟨.ro, 0, 32, 0, 4294967295⟩]⟩,
  ⟨.eplEpcf, 0x1018, 1, 0x4, 0xffffffff, [⟨.ro, 0, 32, 0, 4294967295⟩]⟩,
  ⟨.eplCf, 0x101c, 1, 0x4, 0x0, [⟨.ro, 0, 32, 0, 4294967295⟩]⟩,
  ⟨.eplScale, 0x1020, 4, 0x4, 0x4000, [⟨.ro, 0, 16, 0, 65535⟩]⟩,
  ⟨.eplCoef, 0x1100, 16, 0x4, 0x0, [⟨.rw, 0, 32, 0, 4294967295⟩]⟩,
  ⟨.thmCtrl, 0x2000, 1, 0x4, 0xc80a, [⟨.rw, 0, 10, 1, 1000⟩, ⟨.rw, 10, 10, 10, 1000⟩]⟩,
  ⟨.thmLimits, 0x2004, 1, 0x4, 0x766c64, [⟨.rwp, 0, 8, 0, 255⟩, ⟨.rwp, 8, 8, 0, 255⟩, ⟨.rwp, 16, 8, 0, 255⟩]⟩,
  ⟨.thmGrace, 0x2008, 1, 0x4, 0xc8, [⟨.rwp, 0, 10, 10, 1000⟩]⟩,
  ⟨.thmRate, 0x200c, 1, 0x4, 0xa32032, [⟨.rwp, 0, 10, 1, 1000⟩, ⟨.rwp, 10, 10, 1, 1000⟩, ⟨.rwp, 20, 10, 1, 1000⟩]⟩,
  ⟨.thmStat, 0x2010, 1, 0x4, 0x7f00, [⟨.ro, 0, 1, 0, 1⟩, ⟨.ro, 1, 1, 0, 1⟩, ⟨.w1c, 2, 1, 0, 1⟩, ⟨.ro, 8, 7, 0, 127⟩]⟩,
  ⟨.thmTemp, 0x2100, 76, 0x4, 0x0, [⟨.ro, 0, 16, 0, 65535⟩, ⟨.ro, 16, 1, 0, 1⟩, ⟨.ro, 17, 1, 0, 1⟩, ⟨.ro, 18, 1, 0, 1⟩, ⟨.ro, 19, 3, 0, 7⟩]⟩]

def clkRegs : List RegDef := clkRegs0 ++ clkRegs1

/-- Registers of the Belfry block (R555). -/
def belRegs : List RegDef := [
  ⟨.belCtrl, 0x0, 1, 0x4, 0x0, [⟨.wo, 0, 1, 0, 1⟩]⟩,
  ⟨.belStat, 0x4, 1, 0x4, 0x110, [⟨.ro, 0, 1, 0, 1⟩, ⟨.ro, 1, 1, 0, 1⟩, ⟨.ro, 2, 3, 0, 7⟩, ⟨.ro, 5, 4, 0, 15⟩, ⟨.ro, 9, 1, 0, 1⟩, ⟨.ro, 10, 1, 0, 1⟩, ⟨.ro, 16, 11, 0, 2047⟩]⟩,
  ⟨.belSillcnt, 0x8, 1, 0x4, 0x0, [⟨.ro, 0, 12, 0, 4095⟩]⟩,
  ⟨.belRingcnt, 0xc, 1, 0x4, 0x0, [⟨.ro, 0, 12, 0, 4095⟩]⟩,
  ⟨.belLastseq, 0x10, 1, 0x4, 0x0, [⟨.ro, 0, 32, 0, 4294967295⟩]⟩,
  ⟨.belLost, 0x14, 1, 0x4, 0x0, [⟨.ro, 0, 31, 0, 2147483647⟩, ⟨.ro, 31, 1, 0, 1⟩]⟩,
  ⟨.belOpsec, 0x18, 1, 0x4, 0x0, [⟨.ro, 0, 32, 0, 4294967295⟩]⟩,
  ⟨.belPcc, 0x1c, 1, 0x4, 0x0, [⟨.ro, 0, 32, 0, 4294967295⟩]⟩,
  ⟨.belTorn, 0x20, 1, 0x4, 0x0, [⟨.ro, 0, 16, 0, 65535⟩]⟩,
  ⟨.belTomb, 0x100, 128, 0x4, 0x0, [⟨.ro, 0, 32, 0, 4294967295⟩]⟩]

/-- Registers of the Kingpost view block (R555). -/
def kpvRegs : List RegDef := [
  ⟨.kpStat, 0x0, 1, 0x4, 0x0, [⟨.ro, 0, 1, 0, 1⟩, ⟨.ro, 1, 1, 0, 1⟩, ⟨.ro, 2, 1, 0, 1⟩, ⟨.ro, 3, 1, 0, 1⟩, ⟨.ro, 4, 1, 0, 1⟩, ⟨.ro, 5, 1, 0, 1⟩, ⟨.ro, 8, 8, 0, 255⟩]⟩,
  ⟨.kpLoop, 0x4, 1, 0x4, 0xff0000, [⟨.ro, 0, 8, 0, 255⟩, ⟨.ro, 8, 8, 0, 255⟩, ⟨.ro, 16, 8, 0, 255⟩]⟩,
  ⟨.kpIn, 0x8, 1, 0x4, 0xffff, [⟨.ro, 0, 16, 0, 65535⟩, ⟨.ro, 16, 16, 0, 65535⟩]⟩,
  ⟨.kpInfilt, 0xc, 1, 0x4, 0x0, [⟨.ro, 0, 16, 0, 65535⟩, ⟨.ro, 16, 16, 0, 65535⟩]⟩,
  ⟨.kpOut, 0x10, 1, 0x4, 0xff, [⟨.ro, 0, 8, 0, 255⟩, ⟨.ro, 8, 8, 0, 255⟩, ⟨.ro, 16, 8, 0, 255⟩, ⟨.ro, 24, 8, 0, 255⟩]⟩,
  ⟨.kpSrda, 0x14, 1, 0x4, 0x0, [⟨.ro, 0, 16, 0, 65535⟩, ⟨.ro, 16, 16, 0, 65535⟩]⟩,
  ⟨.kpSrdb, 0x18, 1, 0x4, 0x0, [⟨.ro, 0, 16, 0, 65535⟩, ⟨.ro, 16, 16, 0, 65535⟩]⟩,
  ⟨.kpPcrc, 0x1c, 1, 0x4, 0x0, [⟨.ro, 0, 32, 0, 4294967295⟩]⟩,
  ⟨.kpFreq, 0x20, 1, 0x4, 0x0, [⟨.ro, 0, 16, 0, 65535⟩, ⟨.ro, 16, 16, 0, 65535⟩]⟩,
  ⟨.kpLoopoff, 0x40, 8, 0x4, 0xffffffff, [⟨.ro, 0, 31, 0, 2147483647⟩, ⟨.ro, 31, 1, 0, 1⟩]⟩,
  ⟨.kpFallback, 0x80, 16, 0x4, 0x0, [⟨.ro, 0, 32, 0, 4294967295⟩]⟩]

/-- Registers of the protection-set shadow block (R555). -/
def pstRegs : List RegDef := [
  ⟨.psetStat, 0x0, 1, 0x4, 0x0, [⟨.ro, 0, 2, 0, 3⟩, ⟨.ro, 2, 1, 0, 1⟩, ⟨.ro, 3, 1, 0, 1⟩, ⟨.ro, 4, 1, 0, 1⟩, ⟨.ro, 8, 8, 0, 255⟩, ⟨.ro, 16, 8, 0, 255⟩]⟩,
  ⟨.psetSeq, 0x4, 1, 0x4, 0x0, [⟨.ro, 0, 32, 0, 4294967295⟩]⟩,
  ⟨.psetDigest, 0x8, 8, 0x4, 0x0, [⟨.ro, 0, 32, 0, 4294967295⟩]⟩,
  ⟨.psetKeys, 0x28, 1, 0x4, 0x0, [⟨.ro, 0, 4, 0, 15⟩, ⟨.ro, 4, 4, 0, 15⟩, ⟨.ro, 8, 4, 0, 15⟩, ⟨.ro, 12, 4, 0, 15⟩, ⟨.ro, 16, 1, 0, 1⟩]⟩,
  ⟨.psetDbg, 0x2c, 1, 0x4, 0x0, [⟨.ro, 0, 1, 0, 1⟩, ⟨.ro, 1, 4, 0, 15⟩, ⟨.ro, 8, 8, 0, 255⟩, ⟨.ro, 16, 16, 0, 65535⟩]⟩,
  ⟨.psetNmin, 0x30, 4, 0x4, 0x0, [⟨.ro, 0, 16, 0, 65535⟩, ⟨.ro, 16, 16, 0, 65535⟩]⟩]

/-- Registers of the octad block (R555). -/
def octRegs0 : List RegDef := [
  ⟨.octStat, 0x0, 1, 0x4, 0x0, [⟨.ro, 0, 3, 0, 7⟩, ⟨.ro, 8, 8, 0, 255⟩]⟩,
  ⟨.octRdcfg, 0x4, 1, 0x4, 0x140003, [⟨.rw, 0, 6, 0, 63⟩, ⟨.rw, 7, 1, 0, 1⟩, ⟨.rw, 8, 3, 0, 7⟩, ⟨.rwp, 16, 7, 1, 100⟩]⟩,
  ⟨.octTiming0, 0x8, 1, 0x4, 0x380018, [⟨.rw, 0, 10, 4, 640⟩, ⟨.rw, 16, 10, 8, 640⟩]⟩,
  ⟨.octTiming1, 0xc, 1, 0x4, 0x4c0040, [⟨.rw, 0, 10, 12, 640⟩, ⟨.rw, 16, 10, 16, 640⟩, ⟨.rw, 28, 4, 0, 12⟩]⟩,
  ⟨.octPhase, 0x10, 1, 0x4, 0x0, [⟨.rw, 0, 16, 0, 65535⟩]⟩,
  ⟨.selCtrl, 0x2000, 1, 0x4, 0xf089, [⟨.rw, 0, 1, 0, 1⟩, ⟨.rw, 1, 2, 0, 2⟩, ⟨.rw, 3, 1, 0, 1⟩, ⟨.rw, 4, 7, 0, 64⟩, ⟨.rw, 11, 7, 5, 100⟩]⟩,
  ⟨.selIsign, 0x2004, 1, 0x4, 0xa40148, [⟨.rw, 0, 15, 0, 32767⟩, ⟨.rw, 16, 15, 0, 32767⟩]⟩,
  ⟨.selSrc, 0x2008, 1, 0x4, 0x20100, [⟨.rw, 0, 6, 0, 63⟩, ⟨.rw, 8, 6, 0, 63⟩, ⟨.rw, 16, 6, 0, 63⟩]⟩,
  ⟨.selVnom, 0x200c, 1, 0x4, 0x0, [⟨.rw, 0, 16, 0, 65535⟩]⟩,
  ⟨.selStat, 0x2010, 1, 0x4, 0x0, [⟨.ro, 0, 2, 0, 3⟩, ⟨.ro, 2, 1, 0, 1⟩, ⟨.w1c, 3, 1, 0, 1⟩, ⟨.w1c, 4, 1, 0, 1⟩, ⟨.w1c, 5, 1, 0, 1⟩, ⟨.w1c, 6, 1, 0, 1⟩, ⟨.w1c, 7, 1, 0, 1⟩, ⟨.ro, 8, 10, 0, 1023⟩, ⟨.ro, 18, 10, 0, 1023⟩]⟩,
  ⟨.selLb, 0x2014, 1, 0x4, 0x0, [⟨.ro, 0, 32, 0, 4294967295⟩]⟩,
  ⟨.selTr, 0x2018, 1, 0x4, 0x0, [⟨.ro, 0, 32, 0, 4294967295⟩]⟩,
  ⟨.selSw, 0x201c, 1, 0x4, 0x0, [⟨.ro, 0, 32, 0, 4294967295⟩]⟩,
  ⟨.selEx, 0x2020, 1, 0x4, 0x0, [⟨.ro, 0, 32, 0, 4294967295⟩]⟩]

def octRegs1 : List RegDef := [
  ⟨.ldgWin, 0x2400, 1, 0x4, 0x186a0, [⟨.rw, 0, 20, 1000, 1048575⟩]⟩,
  ⟨.ldgQual, 0x2404, 1, 0x4, 0x3e80666, [⟨.rw, 0, 15, 0, 32767⟩, ⟨.rw, 16, 10, 16, 1023⟩]⟩,
  ⟨.ldgScale, 0x2408, 1, 0x4, 0x0, [⟨.rw, 0, 16, 0, 65535⟩, ⟨.rw, 16, 16, 0, 65535⟩]⟩,
  ⟨.ldgCh, 0x240c, 1, 0x4, 0x908, [⟨.rw, 0, 6, 0, 63⟩, ⟨.rw, 8, 6, 0, 63⟩, ⟨.rw, 16, 4, 0, 15⟩, ⟨.rw, 20, 1, 0, 1⟩]⟩,
  ⟨.ldgHealth, 0x2410, 1, 0x4, 0xa6432, [⟨.rwp, 0, 8, 10, 250⟩, ⟨.rwp, 8, 8, 1, 250⟩, ⟨.rwp, 16, 8, 1, 50⟩]⟩,
  ⟨.ldgStat, 0x2414, 1, 0x4, 0x1, [⟨.ro, 0, 1, 0, 1⟩, ⟨.w1c, 1, 1, 0, 1⟩, ⟨.ro, 2, 1, 0, 1⟩, ⟨.w1c, 3, 1, 0, 1⟩, ⟨.w1c, 4, 1, 0, 1⟩]⟩,
  ⟨.ldgWseq, 0x2418, 1, 0x4, 0x0, [⟨.ro, 0, 32, 0, 4294967295⟩]⟩,
  ⟨.ldgSnaplost, 0x241c, 1, 0x4, 0x0, [⟨.ro, 0, 31, 0, 2147483647⟩, ⟨.ro, 31, 1, 0, 1⟩]⟩,
  ⟨.ldgCnom, 0x2420, 1, 0x4, 0x0, [⟨.rw, 0, 32, 0, 4294967295⟩]⟩,
  ⟨.octCtype, 0x2800, 4, 0x4, 0x320, [⟨.rw, 0, 12, 200, 4000⟩, ⟨.rw, 16, 12, 0, 4000⟩]⟩,
  ⟨.octTrimcar, 0x2810, 1, 0x4, 0x0, [⟨.ro, 0, 21, 0, 2097151⟩]⟩,
  ⟨.octTrimcnt, 0x2814, 1, 0x4, 0x0, [⟨.ro, 0, 31, 0, 2147483647⟩, ⟨.ro, 31, 1, 0, 1⟩]⟩,
  ⟨.octTrimclamp, 0x2818, 1, 0x4, 0x0, [⟨.ro, 0, 31, 0, 2147483647⟩, ⟨.ro, 31, 1, 0, 1⟩]⟩,
  ⟨.octLnkpol, 0x2820, 1, 0x4, 0x0, [⟨.rw, 0, 2, 0, 2⟩]⟩]

def octRegs : List RegDef := octRegs0 ++ octRegs1

/-- Registers of the engine block (R555). -/
def engRegs : List RegDef := [
  ⟨.ceStat, 0x0, 1, 0x4, 0x0, [⟨.ro, 0, 1, 0, 1⟩, ⟨.ro, 1, 1, 0, 1⟩, ⟨.ro, 2, 1, 0, 1⟩, ⟨.ro, 3, 1, 0, 1⟩, ⟨.ro, 4, 2, 0, 3⟩, ⟨.w1c, 6, 1, 0, 1⟩, ⟨.ro, 8, 8, 0, 255⟩]⟩,
  ⟨.ceBound, 0x4, 1, 0x4, 0x0, [⟨.ro, 0, 16, 0, 65535⟩]⟩,
  ⟨.ceOvrcnt, 0x8, 1, 0x4, 0x0, [⟨.ro, 0, 31, 0, 2147483647⟩, ⟨.ro, 31, 1, 0, 1⟩]⟩,
  ⟨.ceCapctl, 0xc, 1, 0x4, 0x10000, [⟨.rw, 0, 1, 0, 1⟩, ⟨.rw, 1, 4, 0, 15⟩, ⟨.rw, 5, 3, 0, 6⟩, ⟨.ro, 8, 3, 0, 7⟩, ⟨.rw, 16, 5, 1, 16⟩]⟩,
  ⟨.ceCapsel, 0x10, 8, 0x4, 0xc000c000, [⟨.rw, 0, 16, 0, 65535⟩, ⟨.rw, 16, 16, 0, 65535⟩]⟩,
  ⟨.ceCaplost, 0x30, 1, 0x4, 0x0, [⟨.ro, 0, 31, 0, 2147483647⟩, ⟨.ro, 31, 1, 0, 1⟩]⟩,
  ⟨.ceInjstat, 0x34, 1, 0x4, 0x0, [⟨.ro, 0, 4, 0, 15⟩, ⟨.ro, 4, 4, 0, 15⟩, ⟨.w1c, 8, 4, 0, 15⟩]⟩,
  ⟨.ceLimit, 0x38, 2, 0x4, 0x0, [⟨.w1c, 0, 32, 0, 4294967295⟩]⟩,
  ⟨.ceStale, 0x40, 2, 0x4, 0x0, [⟨.ro, 0, 32, 0, 4294967295⟩]⟩,
  ⟨.ceStime, 0x48, 1, 0x4, 0x1400805, [⟨.rw, 0, 7, 1, 64⟩, ⟨.rw, 8, 8, 0, 255⟩, ⟨.rw, 16, 16, 1, 65535⟩]⟩,
  ⟨.ceMode, 0x4c, 1, 0x4, 0x0, [⟨.ro, 0, 3, 0, 7⟩, ⟨.ro, 3, 1, 0, 1⟩, ⟨.ro, 4, 1, 0, 1⟩, ⟨.ro, 5, 1, 0, 1⟩, ⟨.w1c, 6, 1, 0, 1⟩, ⟨.ro, 8, 8, 0, 255⟩, ⟨.ro, 16, 10, 0, 1023⟩]⟩,
  ⟨.ceSplcnt, 0x50, 1, 0x4, 0x0, [⟨.ro, 0, 31, 0, 2147483647⟩, ⟨.ro, 31, 1, 0, 1⟩]⟩,
  ⟨.ceSat, 0x100, 32, 0x4, 0x0, [⟨.w1c, 0, 32, 0, 4294967295⟩]⟩]

/-- Registers of the tile block (R555). -/
def tilRegs : List RegDef := [
  ⟨.tilCtmap, 0x100, 4, 0x4, 0x0, [⟨.rw, 0, 32, 0, 4294967295⟩]⟩,
  ⟨.tilEdgstat, 0x110, 1, 0x4, 0x0, [⟨.ro, 0, 31, 0, 2147483647⟩, ⟨.ro, 31, 1, 0, 1⟩]⟩,
  ⟨.tilTruss, 0x300, 1, 0x4, 0x3, [⟨.rw, 0, 3, 0, 6⟩, ⟨.rw, 4, 4, 0, 15⟩, ⟨.rw, 8, 1, 0, 1⟩]⟩,
  ⟨.tilHubser, 0x304, 1, 0x4, 0x0, [⟨.ro, 0, 32, 0, 4294967295⟩]⟩,
  ⟨.tilHubid, 0x308, 1, 0x4, 0x0, [⟨.ro, 0, 16, 0, 65535⟩, ⟨.ro, 16, 16, 0, 65535⟩]⟩,
  ⟨.tilHubpar, 0x30c, 1, 0x4, 0x0, [⟨.ro, 0, 16, 0, 65535⟩, ⟨.ro, 16, 8, 0, 255⟩, ⟨.ro, 24, 1, 0, 1⟩, ⟨.ro, 25, 7, 0, 127⟩]⟩,
  ⟨.tilPop0, 0x310, 1, 0x4, 0x0, [⟨.ro, 0, 32, 0, 4294967295⟩]⟩,
  ⟨.tilPop1, 0x314, 1, 0x4, 0x0, [⟨.ro, 0, 32, 0, 4294967295⟩]⟩,
  ⟨.tilCrcerr, 0x318, 1, 0x4, 0x0, [⟨.ro, 0, 31, 0, 2147483647⟩, ⟨.ro, 31, 1, 0, 1⟩]⟩,
  ⟨.tilMalform, 0x31c, 1, 0x4, 0x0, [⟨.ro, 0, 31, 0, 2147483647⟩, ⟨.ro, 31, 1, 0, 1⟩]⟩,
  ⟨.tilCrederr, 0x320, 1, 0x4, 0x0, [⟨.ro, 0, 31, 0, 2147483647⟩, ⟨.ro, 31, 1, 0, 1⟩]⟩]

/-- Registers of the lane block (R555). -/
def lnkRegs : List RegDef := [
  ⟨.lnkCfg, 0x0, 1, 0x4, 0x6, [⟨.rw, 0, 1, 0, 1⟩, ⟨.rw, 1, 2, 0, 3⟩, ⟨.rw, 3, 1, 0, 1⟩, ⟨.rw, 4, 1, 0, 1⟩]⟩,
  ⟨.lnkEyeth, 0x4, 1, 0x4, 0xc0818, [⟨.rw, 0, 7, 1, 127⟩, ⟨.rw, 8, 5, 1, 31⟩, ⟨.rw, 16, 5, 6, 20⟩]⟩,
  ⟨.lnkStat, 0x8, 1, 0x4, 0x0, [⟨.ro, 0, 4, 0, 15⟩, ⟨.ro, 4, 2, 0, 3⟩, ⟨.ro, 6, 2, 0, 3⟩, ⟨.ro, 8, 1, 0, 1⟩, ⟨.ro, 9, 1, 0, 1⟩, ⟨.w1c, 10, 1, 0, 1⟩, ⟨.w1c, 11, 1, 0, 1⟩, ⟨.w1c, 12, 1, 0, 1⟩, ⟨.ro, 16, 5, 0, 31⟩]⟩,
  ⟨.lnkHubcap, 0xc, 1, 0x4, 0x0, [⟨.ro, 0, 2, 0, 3⟩, ⟨.ro, 2, 1, 0, 1⟩, ⟨.ro, 4, 4, 0, 15⟩, ⟨.ro, 8, 1, 0, 1⟩]⟩,
  ⟨.lnkRtcnt, 0x10, 1, 0x4, 0x0, [⟨.ro, 0, 3, 0, 7⟩, ⟨.ro, 16, 15, 0, 32767⟩, ⟨.ro, 31, 1, 0, 1⟩]⟩,
  ⟨.lnkBadhdr, 0x14, 1, 0x4, 0x0, [⟨.ro, 0, 31, 0, 2147483647⟩, ⟨.ro, 31, 1, 0, 1⟩]⟩,
  ⟨.lnkFill, 0x18, 1, 0x4, 0x0, [⟨.ro, 0, 15, 0, 32767⟩, ⟨.ro, 15, 1, 0, 1⟩, ⟨.ro, 16, 15, 0, 32767⟩, ⟨.ro, 31, 1, 0, 1⟩]⟩,
  ⟨.lnkEyectl, 0x1c, 1, 0x4, 0x0, [⟨.wo, 0, 1, 0, 1⟩, ⟨.ro, 1, 1, 0, 1⟩, ⟨.w1c, 2, 1, 0, 1⟩, ⟨.w1c, 3, 1, 0, 1⟩, ⟨.rw, 4, 4, 0, 15⟩]⟩,
  ⟨.lnkAsym, 0x20, 1, 0x4, 0x0, [⟨.rw, 0, 24, 0, 16777215⟩]⟩,
  ⟨.lnkDelay, 0x24, 1, 0x4, 0x0, [⟨.ro, 0, 24, 0, 16777215⟩, ⟨.ro, 31, 1, 0, 1⟩]⟩,
  ⟨.lnkTerr, 0x28, 1, 0x4, 0x0, [⟨.ro, 0, 24, 0, 16777215⟩, ⟨.ro, 24, 1, 0, 1⟩]⟩]

/-- A register word found at an offset: its definition, the number of the octad, engine, tile or lane it belongs to (0
for the device's own), its index among its instances, and its BAR0 offset. -/
structure RegRef where
  df : RegDef
  own : Nat
  idx : Nat
  addr : Nat
deriving DecidableEq, Repr

def findIn (own base : Nat) (o : Nat) : List RegDef → Option RegRef
  | [] => none
  | d :: r =>
    if d.off ≤ o ∧ (o - d.off) % d.stride = 0 ∧ (o - d.off) / d.stride < d.count then
      some ⟨d, own, (o - d.off) / d.stride, base + o⟩
    else findIn own base o r

/-- BAR0 offset of octad n, of an engine, of global tile g, of lane 2t + b (Table 19-1, R175, R253, R555). -/
def octBase (n : Nat) : Nat := 0x800000 + n * 0x100000
def engBase (e : Nat) : Nat := if e = 8 then 0x8000 else octBase e + 0x3000
def tileBase (g : Nat) : Nat := octBase (g / 8) + 0x8000 + g % 8 * 0x1000
def laneBase (l : Nat) : Nat := tileBase (l / 2) + 0x200 + l % 2 * 0x40

/-- The register at a BAR0 offset, none where no table defines one (R557).  CE_STIME exists only in the station engine. -/
def regAt (a : Nat) : Option RegRef :=
  let blk := a / 0x100000
  let o := a % 0x100000
  if blk = 0 then
    if 0x8000 ≤ o then findIn 8 0x8000 (o - 0x8000) engRegs else findIn 0 0 o devRegs
  else if blk = 1 then findIn 0 0x100000 o hifRegs
  else if blk = 2 then findIn 0 0x200000 o fltRegs
  else if blk = 3 then findIn 0 0x300000 o tsRegs
  else if blk = 4 then findIn 0 0x400000 o clkRegs
  else if blk = 5 then findIn 0 0x500000 o belRegs
  else if blk = 6 then findIn 0 0x600000 o kpvRegs
  else if blk = 7 then findIn 0 0x700000 o pstRegs
  else if blk < 16 then
    let n := blk - 8
    if o < 0x3000 then findIn n (octBase n) o octRegs
    else if o < 0x8000 then
      match findIn n (engBase n) (o - 0x3000) engRegs with
      | some r => if r.df.name = .ceStime then none else some r
      | none => none
    else if o < 0x10000 then
      let g := n * 8 + (o - 0x8000) / 0x1000
      let t := o % 0x1000
      if 0x200 ≤ t ∧ t < 0x280 then findIn (2 * g + (t - 0x200) / 0x40) (tileBase g + t / 0x40 * 0x40) (t % 0x40) lnkRegs
      else findIn g (tileBase g) t tilRegs
    else none
  else none

/-- The energy coefficients of Table 16-1 in pJ / 256: the typical column stands for a die's own OTP values (log entry 2). -/
def typicalCoef (i : Nat) : Nat :=
  [450560, 358400, 296960, 256000, 400000, 1625000, 352000, 768000, 1024000, 256000000, 89600000, 204800000, 179200000, 6400,
   12800, 384000000].getD i 0

/-- The reset word of a register (R559); point 0 of the hop table resets enabled (Table 15-5). -/
def resetWord (a : Nat) : Word :=
  match regAt a with
  | some r => BitVec.ofNat 32 (r.df.reset + (if r.df.name = .clkHopcfg ∧ r.idx = 0 then 0x80 else 0)
      + if r.df.name = .eplCoef then typicalCoef r.idx else 0)
  | none => 0

end Sys2Proof.Machine
end

