-- ==== Sys2Proof/Machine/Ops.lean ====
section
/-! DEFINITION. The named operations that the commands share: registers, staging memory, what leaves the block, the
protection set in force, blocking and fencing an octad, and raising a fault with its reaction (chapters 12, 14, 19). -/

namespace Sys2Proof.Machine

/-! ## Registers (R555 to R559) -/

/-- The word at an offset: the listed one, else the reset word. -/
def lookReg (a : Nat) : List (Nat × Word) → Word
  | [] => resetWord a
  | (b, v) :: r => if b = a then v else lookReg a r

/-- The list with a word put at an offset: offsets rise, and no entry holds the reset word of its offset. -/
def putReg (a : Nat) (w : Word) : List (Nat × Word) → List (Nat × Word)
  | [] => if w = resetWord a then [] else [(a, w)]
  | (b, v) :: r =>
    if a = b then (if w = resetWord a then r else (a, w) :: r)
    else if a < b then (if w = resetWord a then (b, v) :: r else (a, w) :: (b, v) :: r)
    else (b, v) :: putReg a w r

def State.reg (s : State) (a : Nat) : Word := lookReg a s.regs
def State.setReg (s : State) (a : Nat) (w : Word) : State := { s with regs := putReg a w s.regs }

/-- A number with bits [lo + len − 1 : lo] replaced. -/
def putField (w lo len v : Nat) : Nat := w - field w lo len * 2 ^ lo + v % 2 ^ len * 2 ^ lo

def State.fld (s : State) (a lo len : Nat) : Nat := field (s.reg a).toNat lo len
def State.setFld (s : State) (a lo len v : Nat) : State :=
  s.setReg a (BitVec.ofNat 32 (putField (s.reg a).toNat lo len v))

/-- A status bit set by hardware; a W1C bit stays set until software clears it (R24), and a write on the same tick does not
clear it (Table 19-14). -/
def State.flag (s : State) (a i : Nat) : State :=
  { s.setFld a i 1 1 with hotAt := s.tick, hot := (a, i) :: (if s.hotAt = s.tick then s.hot else []) }

/-- A counter of `len` bits at `lo` with its saturation flag at bit `sat`: it stops at its maximum and sets its flag there
(R51). Log entry 62. -/
def State.countAt (s : State) (a lo len sat n : Nat) : State :=
  let v := s.fld a lo len + n
  if v < 2 ^ len - 1 then s.setFld a lo len v
  else (s.setFld a lo len (2 ^ len - 1)).setFld a sat 1 1

/-- A counter in bits [30:0] with its saturation flag in bit [31]. -/
def State.count (s : State) (a n : Nat) : State := s.countAt a 0 31 31 n

/-- A counter of `len` bits without a register: it stops at its maximum and sets its flag there (R51). -/
def Counter.add (c : Counter) (len k : Nat) : Counter :=
  if c.n + k < 2 ^ len - 1 then { c with n := c.n + k } else ⟨2 ^ len - 1, true⟩

/-! ## Time, free values, what leaves the block -/

def State.now (s : State) : Nat := s.tick.toNat

/-- The next free value of the spec's open places, as a number (log entry 4). -/
def State.freeNat (s : State) : Nat := (Config.freeWord s.free).toNat
def State.freeNext (s : State) : State := { s with free := s.free + 1 }

def State.emit (s : State) (o : Output) : State := { s with out := s.out ++ [o] }

/-- An event that the spec places at an instant: before that tick it has not happened and nothing changes. Log entry 19. -/
def State.whenDue (s : State) (due : Nat) (f : State → State) : State := if due ≤ s.now then f s else s

/-- 2.5 ns in units of 2^-56 ns, the resolution of device time (R308: 40 hidden fraction bits below 2^-16 ns). -/
def tickDt : Nat := 5 * 2 ^ 55

/-- The clock of the timebase moves by n ticks, and device time by those ticks times the servo's rate, in units of 2^-40 (R308). -/
def State.advance (s : State) (n : Nat) : State :=
  { s with tick := s.tick + BitVec.ofNat 64 n,
           clk := { s.clk with stepped := n },
           time := { s.time with dt := ((s.time.dt : Int) + tickDt * n + (tickDt * n : Int) * s.time.rate / 2 ^ 40).toNat } }

/-- A measurement of ρ = f_time / f_bypass: what it gives is open within the ±4 % of the oscillator (Table 1-9), from 400/104 to
400/96 in units of 2^-24.  Log entry 4. -/
def State.measureRho (s : State) : State :=
  { s.freeNext with clk := { s.clk with rho := BitVec.ofNat 28 (64527754 + s.freeNat % 5377313), rhoAt := s.now } }

/-- ρ is measured over every 2^20 ticks while the time PLL measures lock (R480). -/
def State.keepRho (s : State) : State :=
  if s.clk.time.state = .locked ∧ s.clk.bypassTime = none ∧ s.clk.rhoAt + 2 ^ 20 ≤ s.now then s.measureRho else s

/-- One clock of the timebase with no command (R112, R480): a tick, or a cycle of the bypass oscillator, by which the tick count
follows the accumulator's integer part; before the time PLL first locks the count stands. Log entries 12 and 8. -/
def State.idleTick (s : State) : State :=
  if !s.clk.started then { s with clk := { s.clk with pre := s.clk.pre + 1 } }
  else match s.clk.bypassTime with
    | none => (s.advance 1).keepRho
    | some _ =>
      let a := s.clk.frac + s.clk.rho.toNat
      { s with clk := { s.clk with frac := a % 2 ^ 24 } }.advance (a / 2 ^ 24)

/-- The last clock of the timebase is the first at or after a tick: what lies on that tick happens now (R481). -/
def State.reaches (s : State) (t : Nat) : Bool := s.now == t || (decide (t ≤ s.now) && decide (s.now < t + s.clk.stepped))

/-- An offset of Table 1-4, in units of 0.125 µs, after the epoch e of a frame. -/
def frameAt (e units : Nat) : Nat := e + 50 * units

def State.oct (s : State) (n : Nat) : Octad := s.octs.get n
def State.setOct (s : State) (n : Nat) (o : Octad) : State := { s with octs := s.octs.set n o }
def State.updOct (s : State) (n : Nat) (f : Octad → Octad) : State := { s with octs := s.octs.upd n f }
def State.lane (s : State) (l : Nat) : Lane := s.lanes.get l
def State.setLane (s : State) (l : Nat) (x : Lane) : State := { s with lanes := s.lanes.set l x }
def State.updLane (s : State) (l : Nat) (f : Lane → Lane) : State := { s with lanes := s.lanes.upd l f }
def State.cell (s : State) (c : Nat) : Cell := s.cells.get c
def State.updCell (s : State) (c : Nat) (f : Cell → Cell) : State := { s with cells := s.cells.upd c f }
def State.eng (s : State) (e : Nat) : Engine := s.engs.get e
def State.setEng (s : State) (e : Nat) (x : Engine) : State := { s with engs := s.engs.set e x }
def State.updEng (s : State) (e : Nat) (f : Engine → Engine) : State := { s with engs := s.engs.upd e f }
/-- The value that output channel c of an engine has committed, as a block-floating value; zero before a commit (R220, R234). -/
def Engine.outBF (e : Engine) (c : Nat) : BF :=
  if 56 ≤ c then .ofQ15 (sext 16 (e.out.get c).toNat) else .ofWord (Tab.look BF.zero.toWord e.out.ents c)
def State.ring (s : State) (r : Nat) : Ring := s.rings.get r
def State.updRing (s : State) (r : Nat) (f : Ring → Ring) : State := { s with rings := s.rings.upd r f }

/-- Whether the main device is powered and out of reset (Table 18-1). -/
def State.alive (s : State) : Bool := s.sys.dev != .off && s.sys.dev != .reset

/-- Whether elective item i of R493 is shed: eye-scan points 0, BIST segments 1, injection starts 2, ledger snapshots 3,
scheduled thermal demands 4, hub capture credit 5; enforcement and LOCKOUT shed them all (R504, Table 16-3). -/
def State.sheds (s : State) (i : Nat) : Bool := s.epl.enforce || s.sys.dev == .lockout || decide (i < s.epl.shedTo)

/-- n events of activity i of Table 16-1 (R487). Log entry 69. -/
def State.tally (s : State) (i n : Nat) : State := { s with epl := { s.epl with live := s.epl.live.upd i (· + n) } }

/-- Charging, Running or Run-down (R93, R184, R192, R592). -/
def OctState.active : OctState → Bool
  | .charging | .running | .rundown => true
  | _ => false

/-- Blocked or Unconfigured (R562). -/
def OctState.still : OctState → Bool
  | .blocked | .unconfigured => true
  | _ => false

/-- Applies f to every number below n, lowest first. -/
def forNat : Nat → (Nat → State → State) → State → State
  | 0, _, s => s
  | n + 1, f, s => f n (forNat n f s)

/-- The cells of an octad that a hub has reported, in ascending number. -/
def State.octCells (s : State) (n : Nat) : List Nat :=
  (s.cells.ents.filter fun e => e.1 / 512 = n ∧ e.2.populated).map (·.1)

/-- f on every cell of octad n. -/
def State.mapOctCells (s : State) (n : Nat) (f : Cell → Cell) : State :=
  { s with cells := s.cells.mapAll fun i c => if i / 512 = n then f c else c }

/-! ## The staging area of ring 0 (R366): 131,072 bytes -/

/-- What a byte of the staging area reads as while nothing has written it (DESIGN CHOICE, log entry 3). -/
def stagingUnwritten : Byte := 0

def memRead (a : Nat) : List Host.Cell → Byte
  | [] => stagingUnwritten
  | (b, v) :: r => if b = a then v else memRead a r

/-- Writes one byte and keeps the canonical form: addresses rise, no entry equals what an unlisted address reads as.  The area
ends at 131,072; check 4 of R357 lets no transfer past it. -/
def memWrite (a : Nat) (v : Byte) : List Host.Cell → List Host.Cell
  | [] => if 131072 ≤ a then [] else if v = stagingUnwritten then [] else [(a, v)]
  | (b, w) :: r =>
    if 131072 ≤ a then (b, w) :: r
    else if a = b then (if v = stagingUnwritten then r else (a, v) :: r)
    else if a < b then (if v = stagingUnwritten then (b, w) :: r else (a, v) :: (b, w) :: r)
    else (b, w) :: memWrite a v r

def memWriteList (a : Nat) : List Byte → List Host.Cell → List Host.Cell
  | [], m => m
  | v :: r, m => memWriteList (a + 1) r (memWrite a v m)

/-- Bytes a to a + n − 1. -/
def memReadList (a : Nat) : Nat → List Host.Cell → List Byte
  | 0, _ => []
  | n + 1, m => memRead a m :: memReadList (a + 1) n m

/-- The canonical form: addresses strictly rising, all within the area, no entry holding the unwritten value. -/
def Memory.wf : List Host.Cell → Bool
  | [] => true
  | [(a, v)] => decide (a < 131072) && decide (v ≠ stagingUnwritten)
  | (a, v) :: (b, w) :: r => decide (a < b) && decide (v ≠ stagingUnwritten) && Memory.wf ((b, w) :: r)

/-! ## The protection set in force (R441 to R443) -/

/-- The body of a section, found by its type from an offset onward. -/
def psFind (t : Nat) : Nat → List Byte → Option (List Byte)
  | 0, _ => none
  | k + 1, bs =>
    if bs.length < 4 then none
    else
      let len := leAt bs 2 2
      if leAt bs 0 1 = t then some ((bs.drop 4).take len)
      else psFind t k (bs.drop (4 + (len + 3) / 4 * 4))

def psSection (img : List Byte) (t : Nat) : Option (List Byte) := psFind t 8 (img.drop 32)

/-- A section of the set in force; none when absent or no set is in force. -/
def State.psec (s : State) (t : Nat) : List Byte :=
  match s.ps.image with
  | some img => (psSection img t).getD []
  | none => []

/-- OCTCFG of an image (Table 14-4). -/
def imgOctCfg (img : List Byte) : Nat := leAt ((psSection img 1).getD []) 1 1
def imgNmin (img : List Byte) (n : Nat) : Nat := leAt ((psSection img 1).getD []) (4 + 2 * n) 2

def State.octCfg (s : State) : Nat := leAt (s.psec 1) 1 1
def State.configured (s : State) (n : Nat) : Bool := s.octCfg / 2 ^ n % 2 == 1
def State.nMin (s : State) (n : Nat) : Nat := leAt (s.psec 1) (4 + 2 * n) 2

/-- Every configured octad is Blocked or Unconfigured (R44, R325, Table 19-13). -/
def State.allStill (s : State) : Bool :=
  (List.range 8).all fun n => !s.configured n || (s.oct n).state.still

/-! ## Candidates, paths, carriers -/

/-- R59: populated, not retired, a path to the device, cell fault code zero. -/
def Cell.isCand (c : Cell) (path : Bool) : Bool := c.populated && !c.retired && path && c.fault == 0

/-- The lane that carries the hub of tile t: its P lane, or the sibling's B lane while that serves it (R27 to R29). -/
def State.servingLane (s : State) (t : Nat) : Option Nat :=
  if (s.lane (2 * t)).serving then some (2 * t)
  else if (s.lane (2 * (t ^^^ 1) + 1)).serving then some (2 * (t ^^^ 1) + 1)
  else none

/-- Whether a lane can still carry a hub, now or after a bring-up or retrain: it is not OFF and not RETIRED. -/
def Lane.usable (x : Lane) : Bool := x.state != .off && x.state != .retired

/-- Whether a lane's tile and quad are usable; a lane that is not stays OFF (Table 18-7). -/
def State.laneUsable (s : State) (l : Nat) : Bool :=
  s.sys.useTile.getLsbD (l / 2) && s.sys.useQuad.getLsbD (l / 4)

/-- R29: the hub of tile t is served over its sibling's B lane while its P lane retrains, is retired, stands on an unusable
tile or lane quad, or changes its speed (R159). -/
def State.needsBackup (s : State) (t : Nat) : Bool :=
  let p := s.lane (2 * t)
  (p.state != .active && (p.state == .retired || !s.laneUsable (2 * t) || p.proc == .retrain)) || p.proc == .speed

/-- A B lane that waits to take over, or does so (R161, R164). -/
def Lane.standsBy (x : Lane) : Bool :=
  x.state == .warm || x.state == .dormant || x.state == .wake || (x.state == .step && x.proc == .takeover)

/-- Whether the hub of a tile has a path to the device (R32, R59): one of its lanes is ACTIVE, or its B lane stands by while
the hub needs it; both lanes in bring-up or retrain are no path (Table 5-7, R591; log entry 14). -/
def State.hasPath (s : State) (t : Nat) : Bool :=
  let b := s.lane (2 * (t ^^^ 1) + 1)
  (s.lane (2 * t)).state == .active || b.state == .active || (s.needsBackup t && b.standsBy)

/-- Whether both lanes of a hub are gone for good: its cells retire (R32). Log entry 14. -/
def State.pathGone (s : State) (t : Nat) : Bool := !(s.lane (2 * t)).usable && !(s.lane (2 * (t ^^^ 1) + 1)).usable

/-- N_C of an octad from the cells' latched states (R59). -/
def State.ncNow (s : State) (n : Nat) : Nat :=
  (s.octCells n).countP fun c => (s.cell c).isCand (s.hasPath (c / 64))

/-! ## Lanes at rest and hunting (Table 5-4) -/

/-- A lane powered down: no lock, no procedure and none of its timers, nothing waits in its transmitter.  TLOCK clears on the
four causes of R203 only, VALID of LNK_DELAY in HUNT only (Table 6-13). -/
def Lane.powerDown (x : Lane) (st : LaneState) : Lane :=
  { x with state := st, lock := false, serving := false, proc := .none, speed := 0, turning := false, rtAt := none,
           wakeAt := none, txHi := [], txLo := [], txOpen := 0, hunts := [], hdrs := [], openF := none }

/-- A running eye scan is aborted (R171). Log entry 56. -/
def State.abortEye (s : State) (l : Nat) : State :=
  if (s.lane l).eye.isSome then (s.updLane l fun x => { x with eye := none }).flag (laneBase l + 0x1C) 3 else s

/-- Lanes in OFF (Table 5-4), which changes their speed. Log entry 57. -/
def State.lanesOff (s : State) (ls : List Nat) : State :=
  ls.foldl (fun s l => (s.abortEye l).updLane l fun x => x.powerDown .off) s

/-- A lane hunts at L1 (R146, R160): no lock, the exchange and the time transfer start anew. -/
def Lane.hunting (x : Lane) (now : Nat) (p : Proc) : Lane :=
  { x with
    state := .hunt, speed := 0, lock := false, serving := false, proc := p, huntAt := now, acked := false, gate := 0,
    dormantReq := false, capLast := none, capCount := 0, capAck := false, rtAt := none, wakeAt := none, auxAt := none, aux := 0,
    marked := false, t1 := none, unanswered := 0, exchanges := 0, turning := false, txHi := [], txLo := [], txOpen := 0, hunts := [], hdrs := [],
    openF := none }

/-- A bring-up or a retrain starts: HUNT at L1, with MAXSPD as written now (R175), HUBCAP and the delay no longer valid; it aborts an
eye scan (R171). -/
def State.huntLane (s : State) (l : Nat) (p : Proc) : State :=
  ((s.abortEye l).updLane l fun x => { x.hunting s.now p with
    maxSpd := s.fld (laneBase l) 1 2, delayValid := false }).setFld (laneBase l + 0xC) 8 1 0

/-- Row OFF of Table 5-4 for every lane: enabled, tile and quad usable, octad configured, quad PLL locked. -/
def State.startLanes (s : State) : State :=
  forNat 128 (fun l s =>
    if (s.lane l).state = .off ∧ s.fld (laneBase l) 0 1 = 1 ∧ s.laneUsable l ∧ (s.oct (l / 16)).state ≠ .unconfigured
        ∧ (s.clk.quads.get (l / 4)).state = .locked then
      s.huntLane l .bringup
    else s) s

/-! ## Blocking and stopping an octad -/

/-- The ABORT block with REASON BLOCK (Table 6-1, R179): origin and the low 32 bits of the tick count at sending. -/
def abortBlk (origin : Nat) (tick : Word) : Block :=
  blockOf ([0xE7, 0x01, 0xFE, BitVec.ofNat 8 origin] ++ leBytes 4 tick.toNat)

/-- The immediate BLOCK of R133: one ABORT BLOCK on every lane of the octad that has block lock; origin 0 (R179). -/
def State.abortLanes (s : State) (n origin : Nat) : State :=
  forNat 16 (fun i s => if (s.lane (16 * n + i)).lock
    then s.emit (.laneBlock (16 * n + i) (abortBlk origin (s.tick.setWidth 32))) else s) s

def State.immediateBlock (s : State) (n : Nat) : State :=
  (s.abortLanes n 0).updOct n fun o => { o with disturbed := true }

/-- LDG_STAT, LDG_SCALE and the other octad registers by offset in the octad's block. -/
def State.ofld (s : State) (n off lo len : Nat) : Nat := s.fld (octBase n + off) lo len

/-- The ledger's accumulators of a cell at the start of a window (R79, R93, R94); those of a retired cell are frozen (R100). -/
def Cell.clearWindow (c : Cell) : Cell :=
  if c.retired then { c with tc := 0, tcAdd := 0 } else { c with sqv := 0, svv := 0, nq := 0, tc := 0, tcAdd := 0 }

/-- What a selection that takes no effect had added to TC leaves it again (R84, R592). -/
def Cell.dropTc (c : Cell) : Cell := { c with tc := c.tc - c.tcAdd, tcAdd := 0 }

/-- The open ledger window of an octad is discarded for all its cells (Table 3-2). -/
def State.discardWindow (s : State) (n : Nat) : State :=
  let s := if 0 < (s.oct n).window then s.flag (octBase n + 0x2414) 1 else s
  (s.mapOctCells n Cell.clearWindow).updOct n fun o => { o with window := 0, counted := false, countedPrev := false }

/-- What an entry into Blocked or Fenced empties: the committed set (R61), the trim carry (R124), the open window
(Table 3-2), the run of late selections (R88), a selection under way or not yet dispatched with what it has added to TC (R592).
A selection under way that never completes then raises neither SEL_LATE nor SEL_WDOG.  Of a selection that had completed, the
flags of SEL_STAT and the counts of OCT_TRIMCNT and OCT_TRIMCLAMP stay (DESIGN CHOICE, log entry 108). -/
def State.haltSelection (s : State) (n : Nat) : State :=
  let s := s.mapOctCells n Cell.dropTc
  let s := s.discardWindow n
  let s := s.mapOctCells n fun c => { c with ins := false, cmd := .hold, edges := [], level := false, cmdq := [] }
  s.updOct n fun o => { o with carry := 0, nins := 0, lateRun := 0, selRunning := false, selDone := none, tcDone := false,
                               deb := .none }

/-- Direct pulse outputs n with p n at SAFE: the pulse ends at once and the carry is cleared (R124, R129, R134); a level held in debug
halt is held no more (R130, R138). -/
def State.forceSafe (s : State) (p : Nat → Bool) : State :=
  forNat 24 (fun n s => if p n then
    { s with dpws := s.dpws.upd n fun d => { d with
      safe := true, active := false, rise := none, fall := none, carry := 0, heldLevel := none } }
    else s) s

/-- The device is in RUN while an octad is Charging, Running or Run-down, otherwise in IDLE (Table 18-2). -/
def State.settleDev (s : State) : State :=
  if s.sys.dev = .idle ∨ s.sys.dev = .run then
    let r := (List.range 8).any fun n => (s.oct n).state.active
    { s with sys := { s.sys with dev := if r then .run else .idle } }
  else s

/-- Entry into Blocked from Charging, Running or Run-down (R540); BLOCK for an octad in any state sends the BLOCK only.
Log entry 46. -/
def State.toBlocked (s : State) (n : Nat) : State :=
  let s := s.immediateBlock n
  if (s.oct n).state.active then
    ((s.haltSelection n).updOct n fun o => { o with state := .blocked }).settleDev
  else if (s.oct n).state = .blocked then s.updOct n fun o => { o with deb := .none }
  else s

/-- Unit e leaves a mode change that is armed and not yet decided: excluded by a FENCE, or not armed for a reason (R300). -/
def State.modeLeave (s : State) (e : Nat) (reason : Option Nat) : State :=
  match s.modeReq with
  | some r =>
    let out := match reason with
      | none => (s.eng e).armed.isSome || r.notArm.getLsbD e
      | some _ => (s.eng e).armed.isSome
    if r.armed && !r.decided && out then
      let b : BitVec 9 := BitVec.ofNat 9 (2 ^ e)
      { s.updEng e fun x => { x with armed := none } with
        modeReq := some (match reason with
          | none => { r with excl := r.excl ||| b, notArm := r.notArm &&& ~~~b }
          | some c => { r with notArm := r.notArm ||| b, reasons := (e, c) :: r.reasons }) }
    else s
  | none => s

/-- FENCE of one octad (Table 12-3): BLOCK, block loop withdrawn (it follows the state, R539), outputs SAFE, committed
set emptied.  Unconfigured octads have no Fenced state to enter (Table 18-5), and a Fenced one changes nothing (R382). -/
def State.fenceOctad (s : State) (n : Nat) : State :=
  if (s.oct n).state = .unconfigured ∨ (s.oct n).state = .fenced then s
  else
    let s := (s.immediateBlock n).haltSelection n
    let s := (s.updOct n fun o => { o with state := .fenced }).modeLeave n none
    (s.forceSafe fun d => s.fld (0x308000 + 0x20 * d) 8 4 == n).settleDev

/-! ## Entry into Run-down (R544, Table 18-5) -/

/-- A Charging or Running octad enters Run-down; with RD_MEN set the engine enters mode RD_MODE at its next sample when
its mode table holds it (R544). -/
def State.enterRundown (s : State) (n : Nat) : State :=
  if (s.oct n).state = .charging ∨ (s.oct n).state = .running then
    let s := s.updOct n fun o => { o with state := .rundown, rdEntry := s.now }
    let m := s.ofld n 4 8 3
    if s.ofld n 4 7 1 = 1 ∧ m < (s.eng n).modes.length then
      s.updEng n fun e => { e with pending := e.pending ++ [⟨m, e.sampleFrame + 1, ((e.modes[m]?).map (·.ns)).getD 0⟩] }
    else s
  else s

/-! ## Faults (chapter 12) -/

def FClass.code : FClass → Nat
  | .info => 0 | .retry => 1 | .retire => 2 | .fence => 3 | .lockout => 4

def FClass.ofCode : Nat → FClass
  | 0 => .info | 1 => .retry | 2 => .retire | 3 => .fence | _ => .lockout

/-- Codes whose class comes from the reaction map, with the default each table names. -/
def mapCodes : List (Nat × FClass) :=
  [(0x1101, .fence), (0x1502, .info), (0x1804, .fence), (0x1805, .retry), (0x1904, .retry), (0x2101, .fence),
   (0x2504, .info), (0x2605, .fence), (0x3203, .retry), (0x3303, .retry), (0x3603, .retry), (0x3607, .fence),
   (0x3608, .retry), (0x3707, .retry), (0x3809, .retry), (0x3907, .retry), (0x4102, .info), (0x4202, .info),
   (0x4301, .info), (0x4303, .fence), (0x4402, .retry), (0x4501, .info), (0x4601, .fence), (0x4602, .fence),
   (0x4701, .retry)]

/-- Codes of a fixed class above INFO. -/
def fixedCodes : List (Nat × FClass) :=
  [(0x1703, .retire), (0x1705, .retire), (0x1706, .retire), (0x1708, .retry), (0x1807, .retire), (0x1902, .fence),
   (0x2202, .retry), (0x2203, .fence), (0x2205, .retry), (0x2301, .retry), (0x2302, .retry), (0x2303, .fence),
   (0x2501, .fence), (0x2502, .retire), (0x2503, .retry), (0x2603, .fence), (0x3101, .lockout), (0x3102, .lockout),
   (0x3105, .lockout), (0x3202, .retry), (0x3205, .retry), (0x3207, .retry), (0x3307, .retry), (0x3308, .retire),
   (0x3309, .retire), (0x3501, .retry), (0x3502, .retry), (0x3606, .lockout), (0x3705, .lockout), (0x3801, .retry),
   (0x3802, .retire), (0x3803, .retire), (0x3A03, .retire)]

/-- Codes whose record is a NOTICE (R376). -/
def noticeCodes : List Nat :=
  [0x1501, 0x1901, 0x1903, 0x2601, 0x2602, 0x2604, 0x3701, 0x3703, 0x3704, 0x3706, 0x3708, 0x3804, 0x3902, 0x3903,
   0x3904, 0x3905, 0x3908, 0x3A04]

def assoc (c : Nat) : List (Nat × FClass) → Option FClass
  | [] => none
  | (k, v) :: r => if k = c then some v else assoc c r

/-- An entry of the reaction map (Table 12-5): class, FLAGS, MASK; its own entry first, then the 0xFF entry (R383). -/
def mapLook (c : Nat) : Nat → List Byte → Option (FClass × Nat × Nat)
  | 0, _ => none
  | k + 1, bs =>
    if bs.length < 8 then none
    else if leAt bs 0 2 = c then some (.ofCode (leAt bs 2 1 % 8), leAt bs 3 1, leAt bs 4 1)
    else mapLook c k (bs.drop 8)

def State.mapEntry (s : State) (c : Nat) : Option (FClass × Nat × Nat) :=
  match mapLook c 1024 (s.psec 3) with
  | some e => some e
  | none => mapLook (c / 256 * 256 + 255) 1024 (s.psec 3)

/-- Whether the record of a code is a NOTICE: an INFO-class record of a NOTICE code (R376). -/
def isNotice (code : Nat) (cls : FClass) : Bool := noticeCodes.contains code && cls == .info

/-- Class, FAULT_N, EVT and octad mask of a code under the map in force (R384, R385); HOST_LOST always posts (Table 1-11). -/
def State.faultParams (s : State) (c : Nat) : FClass × Bool × Bool × Nat :=
  let trip := decide (0x3400 ≤ c ∧ c < 0x3410)
  let base : FClass := if trip then .info else ((assoc c mapCodes).orElse fun _ => assoc c fixedCodes).getD .info
  let byMap := trip || (assoc c mapCodes).isSome
  let r : FClass × Bool × Bool × Nat :=
    match s.mapEntry c with
    | some (cl, fl, m) =>
      if byMap || decide (base.code ≤ cl.code) then (cl, fl % 2 == 1, fl / 2 % 2 == 1, m)
      else (base, decide (3 ≤ base.code), decide (2 ≤ base.code), 0)
    | none => (base, decide (3 ≤ base.code), decide (2 ≤ base.code), 0)
  (r.1, r.2.1 || r.1 == .lockout, r.2.2.1 || isNotice c r.1 || c == 0x3503, r.2.2.2)

/-- The octad that owns the source of a tile-level or octad-level code (R380). -/
def ownerOctad (code src : Nat) : Nat :=
  if code / 0x100 = 0x17 ∨ code / 0x100 = 0x18 then src / 16
  else if code = 0x1504 then src
  else if code / 0x100 = 0x15 ∨ code = 0x2502 ∨ code = 0x2503 then src / 512
  else if code = 0x2204 ∨ code = 0x2205 then src / 64
  else if code / 0x1000 = 1 then src / 8
  else src

/-- The octads that a FENCE of this code concerns, as a mask (R380); a LOCKOUT fences every configured octad. -/
def State.fenceMask (s : State) (code src : Nat) (cls : FClass) (mask : Nat) : Nat :=
  if cls = .lockout then s.octCfg
  else if code / 0x1000 ≤ 2 then mask ||| 2 ^ ownerOctad code src
  else if mask = 0 then s.octCfg else mask

/-- Detectors that no window covers (R392), the kind of detector that opened it aside. -/
def windowExempt (code : Nat) (cls : FClass) : Bool :=
  cls == .lockout || code / 0x1000 == 4 || code / 0x100 == 0x31 || code / 0x100 == 0x34 || code == 0x1101 || code == 0x2101
    || [0x1901, 0x1902, 0x2601, 0x2602, 0x2603, 0x3703, 0x3704, 0x3705, 0x3708].contains code

/-- Whether a mailbox source (engine × 64 + channel) is fed by engine n, or by octad n's ledger or arm statistics. -/
def State.mboxFedBy (s : State) (src n : Nat) (statsOnly : Bool) : Bool :=
  match (s.eng (src / 64)).graph with
  | some g => match g.chans[src % 64]? with
    | some c => (!statsOnly && c.src == 5 && c.index.toNat / 64 == n)
        || (src / 64 == n && (c.src == 6 || (!statsOnly && c.src == 3)))
    | none => false
  | none => false

def isMbox (code : Nat) : Bool := code == 0x2204 || code == 0x2205 || code == 0x3204 || code == 0x3205

/-- The home tile of the hub that a lane can serve (R27). -/
def hubOfLane (l : Nat) : Nat := if l % 2 = 0 then l / 2 else (l / 2) ^^^ 1

/-- Whether a stale mailbox is one of a source type and index (R238). -/
def State.mboxOf (s : State) (code src : Nat) (f : Nat → Nat → Bool) : Bool :=
  isMbox code && match (s.eng (src / 64)).graph with
  | some g => match g.chans[src % 64]? with
    | some c => c.kind == 1 && f c.src c.index.toNat
    | none => false
  | none => false

/-- The detectors fed by Ethernet port p: the servo's, those of the streams subscribed on the port and of their mailboxes.
Log entry 109. -/
def State.fedByPort (s : State) (p code src : Nat) : Bool :=
  let stream := fun st => s.fld (0x303000 + 0x20 * st) (1 + p) 1 == 1
  (0x3301 ≤ code && code ≤ 0x3304 && s.time.port == p) || ((code == 0x3306 || code == 0x3309) && stream src)
    || s.mboxOf code src fun k i => k == 2 && stream (i / 16)

/-- The detectors fed by the sample ports lo to hi: their own, and those of the mailboxes that the ports fill. -/
def State.fedBySports (s : State) (lo hi code src : Nat) : Bool :=
  ((code == 0x3307 || code == 0x3308) && decide (lo ≤ src) && decide (src ≤ hi))
    || s.mboxOf code src fun k i => k == 1 && decide (lo ≤ i / 8) && decide (i / 8 ≤ hi)

/-- The detectors fed by a tested block (Tables 12-7 and 18-7). Log entry 109. -/
def State.bistFeeds (s : State) (b code src : Nat) : Bool :=
  let n := b % 0x1000
  let lanes := code / 0x100 == 0x17 || code / 0x100 == 0x18
  let cells := code == 0x2502 || code == 0x2503 || (code / 0x100 == 0x15 && code != 0x1504)
  match b / 0x1000 with
  | 1 => (lanes && src / 2 == n) || (cells && src / 64 == n) || (code == 0x1101 && src == n) || (code / 0x100 == 0x16 && src == n)
  | 2 =>
    (code / 0x1000 == 2 && ownerOctad code src == n) || (lanes && src / 16 == n) || (cells && src / 512 == n)
      || (isMbox code && s.mboxFedBy src n false)
  | 3 =>
    if n < 2 then code / 0x100 == 0x22 || code / 0x100 == 0x23 || code / 0x100 == 0x32 || code / 0x100 == 0x33
      || (isMbox code)
    else s.fedByPort (n - 2) code src
  | 4 => match n with
    | 4 => s.fedBySports 0 3 code src
    | 5 => s.fedBySports 4 5 code src
    | 6 => s.fedBySports 6 7 code src
    | 7 => s.fedByPort 0 code src
    | 8 => s.fedByPort 1 code src
    | 9 => code / 0x100 == 0x36 && code != 0x3608
    | 10 => code == 0x3608 || lanes
    | _ => false
  | 5 => lanes && src / 4 == n
  | _ => false

/-- The detectors that a window covers (Table 12-7). -/
def State.covers (s : State) (k : WinKind) (code src : Nat) : Bool :=
  let lanes := code / 0x100 == 0x17 || code / 0x100 == 0x18
  match k with
  | .fence n =>
    (lanes && src / 16 == n) || (code == 0x2503 && src / 512 == n) || (isMbox code && s.mboxFedBy src n false)
      || (0x2301 ≤ code && code ≤ 0x2303 && src == n)
  | .lane l =>
    ([0x1801, 0x1802, 0x1805, 0x1707].contains code && hubOfLane src == hubOfLane l)
      || (code == 0x2503 && src / 64 == hubOfLane l)
  | .wdog n => isMbox code && s.mboxFedBy src n true
  | .quad q => lanes && src / 4 == q
  | .timePll => lanes
  | .bist b => s.bistFeeds b code src
  | .pcie => code == 0x3501 || code == 0x3502 || code == 0x3506
  | .lockout => true

/-- The escalation counts of Table 1-11 by the detectors whose repeats they count: the starts of retrains, the late frames of a
selection. -/
def escalates (code of : Nat) : Bool := (code == 0x1703 && of == 0x1702) || (code == 0x2303 && (of == 0x2301 || of == 0x2302))

/-- The detector that opened the window, and the count of its repeats: the window covers neither (R392). -/
def Window.exempts (w : Window) (code src : Nat) : Bool := (w.code == code || escalates code w.code) && w.src == src

/-- The earliest open window that covers a hit (R391, R392). -/
def State.windowFor (s : State) (code src : Nat) : Option Window :=
  s.flt.windows.find? fun w => s.covers w.kind code src && !w.exempts code src

/-- FAULT_N asserts and stays for at least 20 µs; a release under way is cancelled (R398, R399). -/
def State.assertFaultN (s : State) : State :=
  { s with flt := { s.flt with faultN := true, released := false, holdUntil := s.now + 8000 } }

/-- T_CONS in ticks. -/
def State.tCons (s : State) : Nat := s.fld 0x200020 0 10 * 4000

/-- Opens a consequential window of the report and the detector that caused the reaction; its completion tick is known or still
open (R390). -/
def State.openWindow (s : State) (k : WinKind) (opener code src : Nat) (done : Option Nat) : State :=
  { s with flt := { s.flt with windows := s.flt.windows ++ [⟨k, opener, code, src, done.map (· + s.tCons), []⟩] } }

/-- A reaction has completed: its windows of this kind close T_CONS later (R390). -/
def State.windowDone (s : State) (k : WinKind) : State :=
  { s with flt := { s.flt with windows := s.flt.windows.map fun w =>
      if w.kind = k ∧ w.closeAt = none then { w with closeAt := some (s.now + s.tCons) } else w } }

def levelOf (code : Nat) : Nat := code / 0x1000 - 1

/-- The four queues of R394, 32 reports each; a report that finds its queue full is dropped and counted. -/
def State.enqueue (s : State) (r : Report) : State :=
  let q := s.flt.queues.get r.level
  if q.length < 32 then { s with flt := { s.flt with queues := s.flt.queues.set r.level (q ++ [r]) } }
  else ({ s with flt := { s.flt with dropped := s.flt.dropped.upd r.level (· + 1) } }).count (0x200008 + 4 * r.level) 1

/-- The class byte of Table 12-2. -/
def classByte (cls : FClass) (notice faultN pers merged cons : Bool) : Byte :=
  BitVec.ofNat 8 (cls.code + 8 * bit notice + 16 * bit faultN + 32 * bit pers + 64 * bit merged + 128 * bit cons)

/-- Data bytes 0 to 7 of a record, padded with zeros; the tombstone's detail fills all 16 (R527). -/
def data8 (bs : List Byte) : List Byte :=
  if bs.length ≤ 8 then (bs ++ List.replicate 8 0).take 8 else (bs ++ List.replicate 16 0).take 16

/-- The active table of R401: an entry's repeat count rises, or a new entry is made; TBL_FULL when there is no room. -/
def State.enterActive (s : State) (code src : Nat) (cls : FClass) (cb : Byte) (faultN : Bool) (mask id : Nat) : State × Bool :=
  let c := BitVec.ofNat 16 code
  let u := BitVec.ofNat 16 src
  if s.flt.table.any fun a => a.code == c && a.src == u then
    ({ s with flt := { s.flt with table := s.flt.table.map fun a => if a.code == c && a.src == u then
        { a with rep := min (a.rep + 1) 65535, faultN := a.faultN || faultN,
                 fenced := a.fenced ||| BitVec.ofNat 8 mask } else a } }, false)
  else if s.flt.table.length < 256 then
    ({ s with flt := { s.flt with table := s.flt.table ++ [⟨c, u, 0, cls, cb, faultN, 1, BitVec.ofNat 8 mask, id, s.tick⟩] } },
      false)
  else ({ s with flt := { s.flt with tblFull := true } }, true)

/-- A fault merged into the fall-back record while the fall-back collector is in charge (R396, Table 12-2). Log entry 35. -/
def State.mergeFallback (s : State) (code : Nat) (cls : FClass) : State :=
  match s.kp.fallRec with
  | none => s
  | some r =>
    let n := leAt r.data 15 1
    let d := r.data.take 12 ++ (if n = 0 then leBytes 2 code else (r.data.drop 12).take 2)
      ++ [BitVec.ofNat 8 (max (leAt r.data 14 1) cls.code), BitVec.ofNat 8 (min (n + 1) 255)]
    { s with kp := { s.kp with
        fallRec := some { r with data := d, cls := r.cls ||| 0x40 }, fallDirty := s.kp.fallDirty || decide (n < 255) } }

/-- The retirement of a lane (R169): powered down, RETIRED. -/
def State.laneToRetired (s : State) (l : Nat) : State :=
  (s.abortEye l).updLane l fun x => x.powerDown .retired

/-- The octad would keep N_min candidates after losing the cells cs; R389 does not apply while it is Unconfigured (R107,
R389, Table 12-9). -/
def State.keepsNmin (s : State) (n : Nat) (cs : List Nat) : Bool :=
  (s.oct n).state == .unconfigured || s.nMin n ≤ (s.octCells n).countP fun c => (s.cell c).isCand (s.hasPath (c / 64)) && !cs.contains c

/-- A hub has lost its path (R32): its octad is fenced when too few candidates are left (R389); otherwise its cells retire
when both lanes are gone for good, and only cease to be candidates while a lane may come back. -/
def State.losePathVia (again : Nat → Nat → List Byte → State → State) (t code : Nat) (s : State) : State :=
  let cs := (s.octCells (t / 8)).filter fun c => c / 64 = t ∧ !(s.cell c).retired
  if cs.isEmpty then s
  else if !s.keepsNmin (t / 8) cs then again 0x2501 (t / 8) [] s
  else if s.pathGone t then
    cs.foldl (fun s c => again 0x2502 c (leBytes 2 code) (s.updCell c fun x => { x with retired := true })) s
  else s

/-- RETIRE (Table 12-3): the channel that the source names; `again` raises what the retirement itself raises (a retired lane's
cells, LANE_RETIRE, CELL_RETIRE, OCT_MINCELLS). Log entry 23. -/
def State.retireReaction (again : Nat → Nat → List Byte → State → State) (code src id : Nat) (s : State) : State :=
  if code / 0x100 = 0x17 ∨ code / 0x100 = 0x18 then
    if (s.lane src).state = .retired then s
    else
      let t := hubOfLane src
      let had := s.hasPath t
      let s := ((s.laneToRetired src).windowDone (.lane src)).openWindow (.lane src) id code src (some s.now)
      let s := if code = 0x1703 then s else again 0x1703 src [] s
      if s.hasPath t ∨ !(had || s.pathGone t) then s else s.losePathVia again t code
  else if (code / 0x100 = 0x15 ∧ code ≠ 0x1504) ∨ code = 0x2502 ∨ code = 0x2503 then
    if (s.cell src).retired ∨ !(s.cell src).populated then s
    else if s.keepsNmin (src / 512) [src] then
      let s := s.updCell src fun x => { x with retired := true }
      if code = 0x2502 then s else again 0x2502 src (leBytes 2 code) s
    else again 0x2501 (src / 512) [] s
  else if code = 0x3307 ∨ code = 0x3308 then
    { s with sports := s.sports.upd src fun x => { x with retired := true } }
  else if code = 0x3306 ∨ code = 0x3309 then { s with svs := s.svs.upd src fun x => { x with retired := true } }
  else s

/-- FENCE of each octad concerned (R380), with its window (R390); LOCKOUT has one window of its own. -/
def State.fenceReaction (cls : FClass) (mask code src id : Nat) (s : State) : State :=
  forNat 8 (fun n s =>
    if mask / 2 ^ n % 2 = 1 ∧ (s.oct n).state ≠ .fenced ∧ (s.oct n).state ≠ .unconfigured then
      if cls = .lockout then s.fenceOctad n else (s.fenceOctad n).openWindow (.fence n) id code src (some s.now)
    else s) s

/-- A FENCE detected on the tick of the LOCKOUT `id`, before it in the order of commands: the LOCKOUT covers it (Table 12-9), so that its
record is a consequential one without an entry of its own (R391, R401). -/
def State.coverFences (s : State) (id : Nat) : State :=
  let hit := fun (r : Report) => r.tick == s.tick && r.cls == .fence && !r.cons && !r.persisted
  let hits := s.flt.queues.ents.flatMap fun e => (e.2.filter hit).map fun r => (r.code, r.src, r.data)
  { s with flt := { s.flt with
      queues := s.flt.queues.mapAll fun _ q => q.map fun r => if hit r then { r with cons := true, faultN := false, cause := id } else r
      table := s.flt.table.filter fun a => !(a.cls == .fence && a.madeAt == s.tick && a.rep == 1 && a.seq == 0)
      windows := s.flt.windows.map fun w => if w.opener = id ∧ w.kind = .lockout then { w with hits := w.hits ++ hits } else w } }

/-- LOCKOUT (Table 12-3): SBK request, read-only host interface, outputs SAFE (Table 4-3). Log entry 91. -/
def State.lockoutReaction (code src id : Nat) (s : State) : State :=
  let s := (s.openWindow .lockout id code src (some s.now)).coverFences id
  State.forceSafe { s with
    sys := { s.sys with dev := .lockout, sbkReq := true }
    flt := { s.flt with lockout := true }
    ps := { s.ps with commit := s.ps.commit.map fun c => { c with locked := !c.stored } } } fun _ => true

/-- A consequential record (R391): no reaction, no FAULT_N, no entry; the window counts the hit. -/
def State.recordConsequential (s : State) (w : Window) (r : Report) : State :=
  let s := s.enqueue r
  { s with flt := { s.flt with windows := s.flt.windows.map fun v =>
      if v = w then { v with hits := v.hits ++ [(r.code, r.src, r.data)] } else v } }

/-- One second of operation in ticks. -/
def secTicks : Nat := 400000000

/-- Operating seconds now: those of the boot entry and the whole seconds since (R519), saturating. -/
def State.opsecNow (s : State) : Nat := satAdd 32 s.bel.opsec ((s.now - s.bel.secTick) / secTicks)

/-- The record of a report at its acceptance. -/
def State.recordOf (s : State) (seq : Word) (code src : BitVec 16) (cls : Byte) (rflags : Nat) (dt : Nat) (tick : Tick)
    (data : List Byte) : Record where
  seq := seq
  opsec := BitVec.ofNat 32 s.opsecNow
  pcc := BitVec.ofNat 32 s.bel.pcc
  dt := dt
  code := code
  src := src
  cls := cls
  rflags := BitVec.ofNat 8 (rflags + 2 * bit (!s.time.everLocked))
  rep := 1
  first := tick
  last := tick
  data := data

/-- The record of a fault that no window covers: FAULT_N, then the report into its queue.  The fall-back collector in charge keeps
the first as its record and merges every later one (R396). Log entry 35. -/
def State.recordFault (s : State) (fn : Bool) (code : Nat) (cls : FClass) (r : Report) : State :=
  let s := if fn then s.assertFaultN else s
  if !s.flt.fallback then s.enqueue r
  else if s.kp.fallRec.isSome then s.mergeFallback code cls
  else { s with kp := { s.kp with
      fallRec := some (s.recordOf 0 r.code r.src (classByte cls false fn false false false) 0 r.dt r.tick (List.replicate 16 0))
      fallDirty := true } }

/-- The retirement of a cell and a FENCE of its octad on one tick are both causes of Fenced (Table 12-9): the entries of the octads'
cells that were retired on this tick hold those octads too. -/
def State.joinCauses (s : State) (mask : Nat) : State :=
  { s with flt := { s.flt with table := s.flt.table.map fun a =>
      if a.code = 0x2502 ∧ a.madeAt = s.tick then
        { a with fenced := a.fenced ||| BitVec.ofNat 8 (mask &&& 2 ^ (a.src.toNat / 512)) }
      else a } }

/-- The octads whose FENCE entries were made on this tick: a cell of one that is retired now is a cause of Fenced too (Table
12-9). -/
def State.fencedNow (s : State) (code src : Nat) : Nat :=
  if code = 0x2502 then
    (s.flt.table.foldl (fun m a => if a.madeAt = s.tick ∧ 3 ≤ a.cls.code then m ||| a.fenced.toNat else m) 0) &&& 2 ^ (src / 512)
  else 0

/-- The reaction of a class (Table 12-3): RETIRE and above retire the channel, FENCE and LOCKOUT fence, LOCKOUT locks out.
Log entry 23. -/
def State.react (again : Nat → Nat → List Byte → State → State) (cls : FClass) (mask code src id : Nat) (s : State) : State :=
  if cls.code < 2 then s
  else
    let s := s.retireReaction again code src id
    if cls.code < 3 then s
    else
      let s := (s.fenceReaction cls mask code src id).joinCauses mask
      if cls ≠ .lockout ∨ s.sys.dev = .lockout then s else s.lockoutReaction code src id

/-- Whether the active table takes the fault (R401), and TBL_FULL when it has no room. -/
def State.tableFault (again : Nat → Nat → List Byte → State → State) (cls : FClass) (fn : Bool) (cb : Byte)
    (mask code src id : Nat) (s : State) : State :=
  if 2 ≤ cls.code || fn then
    let e := s.enterActive code src cls cb fn mask id
    if e.2 && code != 0x3104 then again 0x3104 0 [] e.1 else e.1
  else s

/-- The window that covers a fault; none for what no window covers (R392), for a condition that outlasted its window and
while the fall-back collector is in charge. -/
def State.coveredBy (s : State) (code src : Nat) (cls : FClass) (persisted : Bool) : Option Window :=
  if persisted || windowExempt code cls || s.flt.fallback then none else s.windowFor code src

/-- Whether a hit of a detector now is a covered one: its budget count does not take place (R391). -/
def State.covered (s : State) (code src : Nat) : Bool := (s.coveredBy code src (s.faultParams code).1 false).isSome

/-- The next report has a number of its own. -/
def State.nextReport (s : State) : State := { s with flt := { s.flt with nextId := s.flt.nextId + 1 } }

/-- Raising a fault with its reaction.  The reaction of RETIRE and above may raise further faults; the first argument bounds
that chain, which is at most four long.  `persisted` is the report that opened a closed window, for a record whose condition
outlasted it (R391). Log entry 21. -/
def raiseN : Nat → Nat → Nat → List Byte → Option Nat → State → State
  | 0, _, _, _, _, s => s
  | fuel + 1, code, src, data, persisted, s =>
    let p := s.faultParams code
    let mask := if 3 ≤ p.1.code then s.fenceMask code src p.1 p.2.2.2 else s.fencedNow code src
    let id := s.flt.nextId
    let r : Report := ⟨id, BitVec.ofNat 16 code, BitVec.ofNat 16 src, p.1, isNotice code p.1, p.2.1, p.2.2.1, data8 data,
      s.tick, s.time.dt, false, persisted.isSome, persisted.getD 0, levelOf code⟩
    let u := s.nextReport
    match u.coveredBy code src p.1 persisted.isSome with
    | some w => u.recordConsequential w { r with faultN := false, cons := true, persisted := false, cause := w.opener }
    | none =>
      let again := fun c v d s => raiseN fuel c v d none s
      State.react again p.1 mask code src id
        (State.tableFault again p.1 p.2.1 (classByte p.1 (isNotice code p.1) p.2.1 persisted.isSome false false) mask
          code src id (u.recordFault p.2.1 code p.1 r))

/-- Raises a fault (R373 to R404): its class by the reaction map, its consequential window, its reaction at once, its
record into its level's queue. Log entry 21. -/
def State.raise (s : State) (code src : Nat) (data : List Byte) : State := raiseN 6 code src data none s

/-- A fault recorded without its reaction (R470, R535): FAULT_N, its record and its entry. -/
def State.raiseRecorded (s : State) (code src : Nat) : State :=
  let p := s.faultParams code
  let id := s.flt.nextId
  let r : Report := ⟨id, BitVec.ofNat 16 code, BitVec.ofNat 16 src, p.1, isNotice code p.1, p.2.1, p.2.2.1, data8 [], s.tick,
    s.time.dt, false, false, 0, levelOf code⟩
  State.tableFault (fun c v d s => s.raise c v d) p.1 p.2.1 (classByte p.1 (isNotice code p.1) p.2.1 false false false) 0 code src id
    (s.nextReport.recordFault p.2.1 code p.1 r)

/-- An INFO that no table gives a code or data bytes (Table 1-5); no entry of a reaction map names it, so it has no reaction.
Log entry 47. -/
def State.raiseInfo (s : State) (code src : Nat) : State :=
  let r : Report := ⟨s.flt.nextId, BitVec.ofNat 16 code, BitVec.ofNat 16 src, .info, false, false, false, data8 [], s.tick,
    s.time.dt, false, false, 0, levelOf code⟩
  let u := s.nextReport
  match u.coveredBy code src .info false with
  | some w => u.recordConsequential w { r with cons := true, cause := w.opener }
  | none => u.recordFault false code .info r

/-- An underrun of octad n's set-point queue (Table 1-5): counted, and posted as an INFO of the octad level.
Log entry 47. -/
def State.setPointUnderrun (s : State) (n : Nat) : State :=
  (s.updOct n fun o => { o with underrun := o.underrun.add 32 1 }).raiseInfo (0x2000 + Config.underrunCode.toNat) n

/-- The retirement of a cell (R60, R387, R389): RETIRE, or the octad fenced when it would fall below N_min. -/
def State.retireCell (s : State) (c cause : Nat) : State :=
  if (s.cell c).retired ∨ !(s.cell c).populated then s
  else if s.keepsNmin (c / 512) [c] then
    (s.updCell c fun x => { x with retired := true }).raise 0x2502 c (leBytes 2 cause)
  else s.raise 0x2501 (c / 512) []

/-- The retirement of a lane with its own code (R169, R152, R207). -/
def State.retireLane (s : State) (l code : Nat) : State := if (s.lane l).state = .retired then s else s.raise code l []

/-- A hub that has no path any more loses it (R32, R389). -/
def State.losePath (s : State) (t code : Nat) : State :=
  if s.hasPath t then s else s.losePathVia (fun c v d s => s.raise c v d) t code

end Sys2Proof.Machine
end

