-- ==== Sys2Proof/Machine/Flags.lean ====
section
/-! DEFINITION. Flag computations: CFG_ERR of each block, the access-error flags of R558, the sign state of R67, the band
flags of R70, and saturating flags of the engines. -/

namespace Sys2Proof.Machine

/-- Blocks by BAR0 offset (Table 19-1). -/
def inBlock (a b : Nat) : Bool := a / 0x100000 == b

/-- Where the CFG_ERR of a register's block stands: offset and bit (R87, R110, R140, R175, R212, R253, R340, R372, R407,
R485, R509, R554, R561). -/
def cfgErrAt (r : RegRef) : Nat × Nat :=
  match r.df.name with
  | .hifCtrl | .hifDblo | .hifDbhi | .hifHostlost | .hifStat | .hifSweepto | .hifFetchto | .hifRbaselo | .hifRbasehi
  | .hifRcfg | .hifRstat => (0x100010, 1)
  | .fltStat | .fltSeq | .fltDrop | .fltTcons | .fltBudget0 | .fltBudget1 | .fltTblsel | .fltTblent0 | .fltTblent1
  | .fltTblent2 => (0x200000, 4)
  | .dpwCfg | .dpwPer | .dpwOfs | .dpwMinp | .dpwStat | .dpwCnt => (0x308010 + 0x20 * r.idx, 3)
  | .clkCtrl | .clkStat | .clkHop | .clkHopcfg | .clkRatio | .clkBpi | .clkHopcnt | .clkSwcnt | .clkRlcnt => (0x400004, 13)
  | .eplCtrl | .eplPolicy | .eplStat | .eplCarry | .eplEpoch | .eplPred | .eplEpcf | .eplCf | .eplScale | .eplCoef =>
    (0x401008, 3)
  | .thmCtrl | .thmLimits | .thmGrace | .thmRate | .thmStat | .thmTemp => (0x402010, 2)
  | .selCtrl | .selIsign | .selSrc | .selVnom | .selStat | .selLb | .selTr | .selSw | .selEx => (octBase r.own + 0x2010, 6)
  | .ceStat | .ceBound | .ceOvrcnt | .ceCapctl | .ceCapsel | .ceCaplost | .ceInjstat | .ceLimit | .ceStale | .ceStime
  | .ceMode | .ceSplcnt | .ceSat => (engBase r.own, 6)
  | .tilCtmap => (octBase (r.own / 8) + 0x2414, 3)
  | .tilEdgstat | .tilTruss | .tilHubser | .tilHubid | .tilHubpar | .tilPop0 | .tilPop1 | .tilCrcerr | .tilMalform
  | .tilCrederr => (laneBase (2 * r.own) + 8, 10)
  | .lnkCfg | .lnkEyeth | .lnkStat | .lnkHubcap | .lnkRtcnt | .lnkBadhdr | .lnkFill | .lnkEyectl | .lnkAsym | .lnkDelay
  | .lnkTerr => (laneBase r.own + 8, 10)
  | _ =>
    if inBlock r.addr 0 then (0x108, 3)
    else if inBlock r.addr 3 then (0x300008, 4)
    else (octBase r.own + 0x2414, 3)

def State.cfgErr (s : State) (r : RegRef) : State := s.flag (cfgErrAt r).1 (cfgErrAt r).2

/-- The flags of DEV_ACCERR (Table 19-3). -/
inductive AccErr | size | undef | locked
deriving DecidableEq, Repr

def AccErr.bit : AccErr → Nat
  | .size => 0 | .undef => 1 | .locked => 2

def State.accErr (s : State) (e : AccErr) : State := s.flag 0x108 e.bit

/-- The sign state after the latch of I(k), by the first rule of R67 that matches. -/
def nextSign (st : Sign) (i iPrev db hys : Int) : Sign :=
  if i < -db ∧ iPrev < -db then .discharge
  else if db < i ∧ db < iPrev then .charge
  else if st = .charge ∧ i ≤ db - hys then .zero
  else if st = .discharge ∧ -(db - hys) ≤ i then .zero
  else st

/-- DIR follows the sign state and keeps its last value at ZERO (R68); true for DISCHARGE. -/
def nextDir (dir : Bool) (st : Sign) : Bool :=
  match st with
  | .charge => false
  | .discharge => true
  | .zero => dir

/-- Exceedance of the band and its two-frame flags (R69, R70); the exceedance becomes history when the frame's selection
commits (R592, Table 2-5). -/
def Cell.band (c : Cell) (vbar dv : Nat) : Cell :=
  let hi := decide (vbar + dv < c.v)
  let lo := decide ((c.v : Int) < (vbar : Int) - dv)
  { c with obh := hi && c.exHigh, obl := lo && c.exLow, hiNow := hi, loNow := lo }

/-- A threshold of the ledger's health check after one update (R105): exceeded now; crossed by two in a row; returned
when the drop is at most TH − HYS.  The two flags answer whether it was newly crossed and whether it returned. -/
def crossStep (x : Cross) (exceeds returned : Bool) : Cross × Bool × Bool :=
  if x.crossed then (if returned then (⟨false, false⟩, false, true) else (⟨exceeds, true⟩, false, false))
  else if exceeds && x.once then (⟨true, true⟩, true, false)
  else (⟨exceeds, false⟩, false, false)

/-! ## The protection-set shadow of the RWP fields (R397, R448) -/

/-- Entries of 8 bytes. -/
def entries8 : Nat → List Byte → List (List Byte)
  | 0, _ => []
  | k + 1, bs => if bs.isEmpty then [] else bs.take 8 :: entries8 k (bs.drop 8)

/-- The RWP fields of a register word; OWN exists only on sample ports 6 and 7 (R332). -/
def rwpFields (r : RegRef) : List Fld :=
  r.df.fields.filter fun f => f.acc == .rwp && !(r.df.name == .tsSpcfg && decide (r.idx < 6))

/-- Every RWP field of a register word back at its reset value, the other fields kept. -/
def resetRwp (e : Nat × Word) : Nat × Word :=
  match regAt e.1 with
  | none => e
  | some r => (e.1, BitVec.ofNat 32 ((rwpFields r).foldl
      (fun w f => putField w f.lo f.len (field (resetWord e.1).toNat f.lo f.len)) e.2.toNat))

/-- The RWP fields that a REGISTERS entry names. -/
def State.putRwp (s : State) (e : List Byte) : State :=
  let a := leAt e 0 4
  match regAt a with
  | none => s
  | some r => (rwpFields r).foldl (fun s f => s.setFld a f.lo f.len (field (leAt e 4 4) f.lo f.len)) s

/-- Every RWP field of the registers named at one tick: the value of the section, or its reset value. -/
def State.loadShadow (s : State) (here : Nat → Bool) : State :=
  let s := s.regs.foldl (fun s e => if here e.1 then s.setReg (resetRwp e).1 (resetRwp e).2 else s) s
  (entries8 512 (s.psec 2)).foldl (fun s e => if here (leAt e 0 4) then s.putRwp e else s) s

/-- Every RWP field of the device (R448). -/
def State.loadRwp (s : State) : State := s.loadShadow fun _ => true

/-- The main collector's registers rewritten from the protection-set shadow (R397). -/
def State.loadCollector (s : State) : State := s.loadShadow (inBlock · 2)

end Sys2Proof.Machine
end

