-- ==== Sys2Proof/Machine/Partitions.lean ====
section
/-! DEFINITION. The partitions of the NVM that are written as a whole (chapter 17): sectors, two copies with their headers, the
generation in force, writes under way; what the table partitions hold (R510 to R512). -/

namespace Sys2Proof.Machine

/-! ## Sectors (Table 17-1) -/

def Part.num : Part → Nat
  | .fwmark => 0 | .pset => 1 | .usemap => 2 | .c0 => 3 | .csave => 4 | .spmap => 5 | .fw0 => 6 | .fw1 => 7

/-- The sectors of a copy of a partition. -/
def Part.sectors (p : Part) (second : Bool) : List Nat :=
  let run := fun first len => (List.range len).map (first + ·)
  match p with
  | .fwmark => [if second then 33 else 32]
  | .pset => if second then run 43 9 else run 34 9
  | .usemap => [if second then 53 else 52]
  | .c0 => if second then run 57 3 else run 54 3
  | .csave => if second then run 65 5 else run 60 5
  | .spmap => [if second then 73 else 72]
  | .fw0 => run 0 16
  | .fw1 => run 16 16

/-! ## Copies (R512) -/

/-- The 64 bytes of a copy header. -/
def copyHeader (gen : Nat) (content : List Byte) : List Byte :=
  leBytes 2 0xA5B1 ++ [0, 0] ++ leBytes 4 gen ++ leBytes 4 content.length ++ leBytes 4 (crc32c content).toNat ++ List.replicate 48 0

/-- The generation of a copy whose header and CRC check. -/
def Copy.gen (c : Copy) : Option Nat :=
  let g := leAt c.header 4 4
  if c.header = copyHeader g c.content then some g else none

/-- A copy that no check passes. -/
def Copy.torn : Copy := ⟨[], []⟩

def Belfry.copy (b : Belfry) (p : Part) (second : Bool) : Copy := b.copies.get (2 * p.num + bit second)

/-- The copy in force: the valid one of highest generation. -/
def Belfry.newestCopy (b : Belfry) (p : Part) : Option (Bool × Nat × List Byte) :=
  let c := fun second => (b.copy p second).gen.map fun g => (second, g, (b.copy p second).content)
  match c false, c true with
  | some x, some y => some (if x.2.1 < y.2.1 then y else x)
  | some x, none => some x
  | none, y => y

/-- The content in force of a partition. -/
def Belfry.content (b : Belfry) (p : Part) : Option (List Byte) := (b.newestCopy p).map (·.2.2)

/-- The copy that a write takes: the one that does not hold the newest valid content. -/
def Belfry.target (b : Belfry) (p : Part) : Bool := match b.newestCopy p with
  | some x => !x.1
  | none => false

/-- The generation of the next copy, one more than the other copy's. -/
def Belfry.nextGen (b : Belfry) (p : Part) : Nat := match b.newestCopy p with
  | some x => x.2.1 + 1
  | none => 1

def Belfry.setCopy (b : Belfry) (p : Part) (second : Bool) (c : Copy) : Belfry :=
  { b with copies := b.copies.set (2 * p.num + bit second) c }

/-! ## What the table partitions hold (the layouts are a DESIGN CHOICE, log entry 113) -/

def cellRange : List Nat := List.range 4096

/-- C0 of every cell. Log entry 113. -/
def State.c0Bytes (s : State) : List Byte := cellRange.flatMap fun c => leBytes 4 (s.cell c).c0.toNat

/-- C̃ of every cell and its initialised mark (R99). Log entry 113. -/
def State.csaveBytes (s : State) : List Byte :=
  cellRange.flatMap fun c => leBytes 4 ((s.cell c).smooth.getD 0).toNat ++ leBytes 4 (bit (s.cell c).smooth.isSome)

/-- The usability map (R551). -/
def State.useBytes (s : State) : List Byte :=
  leBytes 8 s.sys.useTile.toNat ++ leBytes 1 s.sys.useOct.toNat ++ leBytes 1 s.sys.useXing.toNat ++ leBytes 2 s.sys.usePin.toNat
    ++ leBytes 4 s.sys.useQuad.toNat

/-- The spare map: failed sector and spare of each entry (R523). -/
def Belfry.spBytes (b : Belfry) : List Byte := b.spmap.flatMap fun e => leBytes 2 e.1 ++ leBytes 2 e.2

/-- What a write under way puts into its copy: a table as it stands when its words are programmed. -/
def State.partBytes (s : State) (w : PartWrite) : List Byte :=
  match w.part with
  | .c0 => s.c0Bytes
  | .csave => s.csaveBytes
  | .usemap => s.useBytes
  | .spmap => s.bel.spBytes
  | .fwmark | .pset | .fw0 | .fw1 => w.content

/-! ## Writes -/

/-- A write of a partition: it waits for the erases of its copy; one that is under way already takes the new content. -/
def State.writePart (s : State) (p : Part) (gen : Nat) (content : List Byte) : State :=
  let b := s.bel
  if b.writes.any fun w => w.part == p then
    { s with bel := { b with writes := b.writes.map fun w => if w.part = p then { w with gen := gen, content := content } else w } }
  else
    let t := b.target p
    { s with bel := { b with writes := b.writes ++ [⟨p, t, gen, content, p.sectors t⟩] } }

/-- A write of a table partition. -/
def State.saveTable (s : State) (p : Part) : State := s.writePart p (s.bel.nextGen p) []

/-- The content and then the header of a copy are written: the write is over. -/
def State.putCopy (s : State) (w : PartWrite) : State :=
  let c := s.partBytes w
  let b : Belfry := { s.bel with writes := s.bel.writes.filter fun x => x.part != w.part }
  { s.tally 15 ((c.length + 71) / 8) with bel := b.setCopy w.part w.second { header := copyHeader w.gen c, content := c } }

/-- The write of a partition under way completed at once. -/
def State.finishWrite (s : State) (p : Part) : State :=
  match s.bel.writes.find? fun w => w.part == p with
  | some w => s.putCopy w
  | none => s

/-- The write of a partition dropped; its copy is torn. -/
def State.dropWrite (s : State) (p : Part) : State :=
  match s.bel.writes.find? fun w => w.part == p with
  | some w =>
    let b : Belfry := { s.bel with writes := s.bel.writes.filter fun x => x.part != p }
    { s with bel := b.setCopy p w.second .torn }
  | none => s

/-! ## At boot: what the copies in force say -/

/-- Words of k bytes. -/
def wordsBy (k : Nat) : Nat → List Byte → List Nat
  | 0, _ => []
  | n + 1, bs => if bs.isEmpty then [] else leAt bs 0 k :: wordsBy k n (bs.drop k)

/-- Every cell with the C0 and C̃ that its partitions hold (R98, R99); a cell without a valid copy has neither. -/
def State.loadCells (s : State) : State :=
  let c0 := wordsBy 4 4096 ((s.bel.content .c0).getD [])
  let cs := wordsBy 8 4096 ((s.bel.content .csave).getD [])
  let cells := s.cells.mapAll fun _ c => { c with c0 := 0xFFFFFFFF, smooth := none }
  let cells := c0.zipIdx.foldl (fun t e => if e.1 = 0xFFFFFFFF then t else t.upd e.2 fun c => { c with c0 := BitVec.ofNat 32 e.1 }) cells
  let cells := cs.zipIdx.foldl (fun t e =>
    if e.1 / 2 ^ 32 = 1 then t.upd e.2 fun c => { c with smooth := some (BitVec.ofNat 32 e.1) } else t) cells
  { s with cells := cells }

/-- The usability map of the copy in force; none marks nothing (R551). -/
def State.loadUse (s : State) : State :=
  match s.bel.content .usemap with
  | some m => { s with sys := { s.sys with
      useTile := BitVec.ofNat 64 (leAt m 0 8), useOct := BitVec.ofNat 8 (leAt m 8 1), useXing := BitVec.ofNat 4 (leAt m 9 1),
      usePin := BitVec.ofNat 11 (leAt m 10 2), useQuad := BitVec.ofNat 32 (leAt m 12 4) } }
  | none => s

/-- The spare map of the copy in force, with the spares it has taken (R523 to R525). -/
def State.loadSpares (s : State) : State :=
  let es := (wordsBy 4 512 ((s.bel.content .spmap).getD [])).map fun w => (w % 2 ^ 16, w / 2 ^ 16)
  { s with bel := { s.bel with
      spmap := es
      bspares := es.countP fun e => decide (124 ≤ e.2) && decide (e.2 < 128)
      gspares := es.countP fun e => decide (128 ≤ e.2) && decide (e.2 < 136)
      readOnly := es.any fun e => e.2 == 0xFFFF } }

end Sys2Proof.Machine
end

