-- ==== Sys2Proof/Machine/Operands.lean ====
section
/-! DEFINITION. The operands of the descriptors: opcodes, rings, ACT and LOCKOUT columns, parameter ranges and buffer areas
of Table 11-6, the checks of R357, and the decoding of a 32-byte descriptor (Tables 11-4 and 11-6). -/

namespace Sys2Proof.Machine

/-- The opcode of a body (Table 11-6). -/
def bodyCode : Body → Nat
  | .nop => 0x00 | .deblock _ => 0x10 | .block => 0x11 | .rundown => 0x12 | .mboxWrite _ => 0x13 | .coefWrite _ _ => 0x14
  | .coefSwap => 0x15 | .injStart _ => 0x16 | .injStop _ => 0x17 | .cellQuery _ _ => 0x18 | .cellRetire _ => 0x19
  | .ldgSnapshot => 0x1A | .imgStage _ _ => 0x20 | .lawLoad _ _ => 0x21 | .modeLoad _ _ => 0x22 | .modeChange _ => 0x23
  | .tripClear _ => 0x24 | .timeStep => 0x25 | .enumerate _ _ => 0x26 | .c0Write _ _ => 0x27 | .c0Clear _ => 0x28
  | .c0Adopt _ => 0x29 | .faultClear _ _ => 0x2A | .faultRelease => 0x2B | .thmDemand _ => 0x2C | .belRead _ _ _ _ => 0x2D
  | .belFreeze => 0x2E | .belfryThaw => 0x2E | .bistRun _ => 0x2F | .bistRequalify _ => 0x2F | .psetNonce _ => 0x30
  | .psetCommit _ => 0x31 | .keyChange _ => 0x31 | .attest _ _ => 0x32 | .fwInstall _ _ => 0x33

/-- Whether an opcode is valid on a command ring: D is ring 0, S ring 1, O rings 2 to 9 (R365). -/
def opOnRing (code ring : Nat) : Bool :=
  if code = 0x00 then true
  else if code = 0x13 ∨ code = 0x14 ∨ code = 0x15 ∨ code = 0x16 ∨ code = 0x17 then decide (1 ≤ ring)
  else if 0x10 ≤ code ∧ code ≤ 0x1A then decide (2 ≤ ring)
  else if 0x20 ≤ code ∧ code ≤ 0x33 then ring == 0
  else false

/-- The ACT column. -/
def opAct (code : Nat) : Bool := code == 0 || (0x10 ≤ code && code ≤ 0x1A) || code == 0x23

inductive LkCol | no | lk | lkS
deriving DecidableEq, Repr

/-- The LK column. -/
def opLk (code : Nat) : LkCol :=
  if code = 0x00 ∨ code = 0x2C ∨ code = 0x2D ∨ code = 0x2E ∨ code = 0x32 then .lk
  else if code = 0x2A ∨ code = 0x2B then .lkS
  else .no

/-- The buffer of a buffer opcode. -/
def bodyBuf : Body → Option Buf
  | .coefWrite b _ | .imgStage b _ | .belRead b _ _ _ | .psetNonce b | .attest b _ => some b
  | _ => none

/-- Whether a transfer fits the device-side area of its opcode (check 4 of R357). -/
def bodyFits : Body → Bool
  | .imgStage b ofs => decide (ofs.toNat + b.len.toNat ≤ 131072)
  | .belRead b _ _ count => decide (64 * count.toNat ≤ b.len.toNat)
  | _ => true

/-- A BIST block number of Table 18-7. -/
def bistBlockOk (b : Nat) : Bool :=
  (b / 0x1000 == 1 && decide (b % 0x1000 < 64)) || (b / 0x1000 == 2 && decide (b % 0x1000 < 8))
    || (b / 0x1000 == 3 && decide (b % 0x1000 < 4)) || (b / 0x1000 == 4 && decide (b % 0x1000 < 11))
    || (b / 0x1000 == 5 && decide (b % 0x1000 < 32))

def imgLenOk (w : Word) : Bool := decide (1 ≤ w.toNat) && decide (w.toNat ≤ 131072)

/-- The parameter ranges of Table 11-6 (check 2 of R357), for a descriptor on the given ring. Log entry 44. -/
def bodyRanges (ring : Nat) : Body → Bool
  | .deblock t => t == 1 || t == 2
  | .mboxWrite ws => decide (1 ≤ ws.length) && decide (ws.length ≤ 4) && ws.all fun w => decide (w.1.toNat < 64)
  | .coefWrite _ f => decide (f.toNat ≤ 16383)
  | .injStart p => decide (1 ≤ p.samples.toNat)
  | .cellQuery c sel => decide (c.toNat / 512 + 2 = ring) && decide (1 ≤ sel.toNat) && decide (sel.toNat ≤ 0x7FFF)
  | .cellRetire c => decide (c.toNat / 512 + 2 = ring)
  | .imgStage _ ofs => decide (ofs.toNat ≤ 131071)
  | .lawLoad e l | .modeLoad e l => decide (e.toNat ≤ 8) && imgLenOk l
  | .modeChange p => decide (p.ns.toNat ≤ 1000) && decide (p.targets.toNat < 2 ^ 36)
      && (match p.time with | some t => decide (t.2.toNat ≤ 999999999) | none => true)
  | .enumerate t l => decide (t.toNat < 64) && decide (l.toNat < 2)
  | .c0Write c v => decide (c.toNat < 4096) && v != 0xFFFFFFFF
  | .c0Clear c => decide (c.toNat < 4096)
  | .c0Adopt o => decide (o.toNat < 8)
  | .thmDemand m => decide (m.toNat < 2 ^ 76)
  | .belRead _ a _ c => decide (a.toNat < 2) && decide (1 ≤ c.toNat) && decide (c.toNat ≤ 1023)
  | .bistRun b | .bistRequalify b => bistBlockOk b.toNat
  | .psetNonce b => b.len == 20
  | .psetCommit l | .keyChange l => imgLenOk l
  | .fwInstall sl l => decide (sl.toNat < 2) && imgLenOk l
  | _ => true

/-- Check 2 of R357: ranges, ACT only where the opcode allows it; a MODE_CHANGE sets exactly one of ACT and TFORM. -/
def descWell (ring : Nat) (h : Hdr) (b : Body) : Bool :=
  bodyRanges ring b && (h.act.isNone || opAct (bodyCode b)) &&
    (match b with | .modeChange p => p.time.isSome != h.act.isSome | _ => true)

/-- R344 and R365: whether an opcode executes in LOCKOUT. -/
def State.lockoutAllows (s : State) (code : Nat) : Bool :=
  match opLk code with
  | .lk => true
  | .lkS => s.ps.profile == .s
  | .no => false

/-- The states before IDLE (R455, R537): NOP, IMG_STAGE, FW_INSTALL and ATTEST in BOOT, NOP and ATTEST in SELFTEST (log
entry 6). Log entry 6. -/
def State.bootAllows (s : State) (code : Nat) : Bool :=
  match s.sys.dev with
  | .boot => code == 0x00 || code == 0x20 || code == 0x33 || code == 0x32
  | .selftest => code == 0x00 || code == 0x32
  | _ => true

/-- k_x: the first base frame boundary at or after now (R359, R360). Log entry 93. -/
def State.nextBoundary (s : State) : Word := if s.reaches s.fr.epoch then s.fr.k else s.fr.k + 1

/-- Checks 1 to 6 of R357, in its order; check 7 is made where the pending list is. -/
def State.descCheck (s : State) (ring : Nat) (h : Hdr) (b : Body) : Option Status :=
  let code := bodyCode b
  let kx := s.nextBoundary
  if !opOnRing code ring then some .badOpcode
  else if !descWell ring h b then some .refused
  else if (match bodyBuf b with | some u => u.len == 0 | none => false) then some .lenZero
  else if (match bodyBuf b with | some u => decide (u.buflen.toNat < u.len.toNat) | none => false) || !bodyFits b then
    some .lenOver
  else if (match h.act with | some ka => decide (65535 < frameDiff ka kx) | none => false) then some .refused
  else if (s.sys.dev = .lockout ∧ !s.lockoutAllows code) ∨ !s.bootAllows code then some .state
  else none

/-! ## A descriptor as 32 bytes -/

def mboxPairs (bs : List Byte) : Nat → List (Byte × Word)
  | 0 => []
  | n + 1 => mboxPairs bs n ++ [(BitVec.ofNat 8 (leAt bs (12 + 5 * n) 1), BitVec.ofNat 32 (leAt bs (13 + 5 * n) 4))]

/-- The body that a defined opcode's bytes spell; none where a field that selects the form is out of range. -/
def decodeBody (code : Nat) (tform : Bool) (bs : List Byte) : Option Body :=
  let n8 := fun o => BitVec.ofNat 8 (leAt bs o 1)
  let n16 := fun o => BitVec.ofNat 16 (leAt bs o 2)
  let n32 := fun o => BitVec.ofNat 32 (leAt bs o 4)
  let buf : Buf := ⟨BitVec.ofNat 64 (leAt bs 8 8), n16 16, n16 18⟩
  match code with
  | 0x00 => some .nop
  | 0x10 => some (.deblock (n8 8))
  | 0x11 => some .block
  | 0x12 => some .rundown
  | 0x13 => if 1 ≤ leAt bs 8 1 ∧ leAt bs 8 1 ≤ 4 then some (.mboxWrite (mboxPairs bs (leAt bs 8 1))) else none
  | 0x14 => some (.coefWrite buf (n16 20))
  | 0x15 => some .coefSwap
  | 0x16 => some (.injStart ⟨BitVec.ofNat 2 (leAt bs 8 1), BitVec.ofNat 2 (leAt bs 8 1 / 4), BitVec.ofNat 2 (leAt bs 9 1),
      BitVec.ofNat 2 (leAt bs 9 1 / 4), BitVec.ofNat 10 (leAt bs 10 2), n32 12, BitVec.ofNat 24 (leAt bs 16 3), n32 20, n32 24,
      n8 28⟩)
  | 0x17 => some (.injStop (BitVec.ofNat 4 (leAt bs 8 1)))
  | 0x18 => some (.cellQuery (n16 8) (n16 10))
  | 0x19 => some (.cellRetire (n16 8))
  | 0x1A => some .ldgSnapshot
  | 0x20 => some (.imgStage buf (n32 20))
  | 0x21 => some (.lawLoad (n8 8) (n32 12))
  | 0x22 => some (.modeLoad (n8 8) (n32 12))
  | 0x23 => if leAt bs 8 2 < 512 then some (.modeChange ⟨BitVec.ofNat 9 (leAt bs 8 2), n16 10, BitVec.ofNat 40 (leAt bs 12 5),
      if tform then some (BitVec.ofNat 48 (leAt bs 18 6), n32 24) else none⟩) else none
  | 0x24 => some (.tripClear (n16 8))
  | 0x25 => some .timeStep
  | 0x26 => some (.enumerate (n8 8) (n8 9))
  | 0x27 => some (.c0Write (n16 8) (n32 12))
  | 0x28 => some (.c0Clear (n16 8))
  | 0x29 => some (.c0Adopt (n8 8))
  | 0x2A => some (.faultClear (n16 8) (n16 10))
  | 0x2B => some .faultRelease
  | 0x2C => some (.thmDemand (BitVec.ofNat 80 (leAt bs 8 10)))
  | 0x2D => some (.belRead buf (n8 20) (n16 22) (n16 24))
  | 0x2E => if leAt bs 8 1 = 1 then some .belFreeze else if leAt bs 8 1 = 0 then some .belfryThaw else none
  | 0x2F => if leAt bs 10 1 = 0 then some (.bistRun (n16 8)) else if leAt bs 10 1 = 1 then some (.bistRequalify (n16 8)) else none
  | 0x30 => some (.psetNonce buf)
  | 0x31 => if leAt bs 8 1 = 1 then some (.psetCommit (n32 12)) else if leAt bs 8 1 = 2 then some (.keyChange (n32 12)) else none
  | 0x32 => some (.attest buf (BitVec.ofNat 64 (leAt bs 20 8)))
  | 0x33 => some (.fwInstall (n8 8) (n32 12))
  | _ => none

/-- The opcodes that Table 11-6 defines. -/
def opDefined (code : Nat) : Bool :=
  code == 0 || (0x10 ≤ code && code ≤ 0x1A) || (0x20 ≤ code && code ≤ 0x33)

/-- A raw descriptor: opcode, TAG, IRQ, and its header and body or the status of the first check it fails (R357). -/
structure RawDesc where
  code : Nat
  tag : BitVec 16
  irq : Bool
  res : Except Status (Hdr × Body)

def decodeDesc (ring : Nat) (w : BitVec 256) : RawDesc :=
  let bs := leBytes 32 w.toNat
  let code := leAt bs 0 1
  let fl := leAt bs 1 1
  let act := fl % 2 == 1
  let tform := fl / 4 % 2 == 1
  let tag := BitVec.ofNat 16 (leAt bs 2 2)
  let irq := fl / 2 % 2 == 1
  let h : Hdr := ⟨irq, tag, if act then some (BitVec.ofNat 32 (leAt bs 4 4)) else none⟩
  ⟨code, tag, irq,
    if !opDefined code || !opOnRing code ring then .error .badOpcode
    else if 8 ≤ fl ∨ (!act ∧ leAt bs 4 4 ≠ 0) ∨ (tform ∧ code ≠ 0x23) then .error .refused
    else match decodeBody code tform bs with
      | some b => .ok (h, b)
      | none => .error .refused⟩

/-! ## Words of a sample port (R330, R331) -/

/-- Ticks per bit at RATE: 50, 100, 200, 400 Mbit/s. -/
def bitTicks (rate : Nat) : Nat := 8 / 2 ^ rate

/-- The code of a word (R331). -/
def portCode (w fmt : Nat) (x : BitVec 24) : Int :=
  if fmt = 1 then (x.toNat % 2 ^ w : Int) - 2 ^ (w - 1) else sext w x.toNat

end Sys2Proof.Machine
end

