-- ==== Sys2Proof/Machine/Rings.lean ====
section
/-! DEFINITION. What the device writes into its rings: completions (R363), capture records (R348) and events (R377). -/

namespace Sys2Proof.Machine

/-- The codes of Table 11-7. -/
def Status.code : Status → Nat
  | .ok => 0 | .late => 1 | .refused => 2 | .lenZero => 3 | .lenOver => 4 | .badOpcode => 5 | .authFail => 6 | .state => 7
  | .timeout => 8 | .busy => 9 | .missed => 10

def rcfgAddr (r : Nat) : Nat := 0x100108 + 0x10 * r
def State.ringEn (s : State) (r : Nat) : Bool := s.fld (rcfgAddr r) 0 1 == 1
/-- SIZE of a ring (R346). -/
def State.ringSize (s : State) (r : Nat) : Nat := 2 ^ s.fld (rcfgAddr r) 1 5

/-- Bytes of an entry of a ring (Table 11-2). -/
def entrySize (r : Nat) : Nat := if r < 10 then 32 else if 20 ≤ r ∧ r < 36 then 64 else 16

/-- The base address of a ring, aligned to 64 bytes (R346, Table 11-11). -/
def State.ringBase (s : State) (r : Nat) : Nat :=
  2 ^ 32 * (s.reg (rcfgAddr r - 4)).toNat + 64 * s.fld (rcfgAddr r - 8) 6 26

/-- The host address of entry i mod SIZE of a ring (R346). -/
def State.entryAddr (s : State) (r : Nat) (i : BitVec 16) : BitVec 64 :=
  BitVec.ofNat 64 (s.ringBase r + entrySize r * (i.toNat % s.ringSize r))

/-- Entries of a device-produced ring that the host has not consumed. -/
def Ring.used (x : Ring) : Nat := (x.dev - x.host).toNat

/-- The 16 bytes of a completion entry (Table 11-5). -/
def completionBytes (st : Status) (opcode : Nat) (tag index : BitVec 16) (phase : Bool) (frame : Word) (result : Nat) : List Byte :=
  [BitVec.ofNat 8 st.code, BitVec.ofNat 8 opcode] ++ leBytes 2 tag.toNat ++ leBytes 2 index.toNat ++ [BitVec.ofNat 8 (bit phase), 0]
    ++ leBytes 4 frame.toNat ++ leBytes 4 result

/-- A completion as it is written next to completion ring c (R363): PHASE is the inverse of bit LOG2SZ of the 17-bit producer
count before the entry. -/
def State.completionOut (s : State) (c : Nat) (st : Status) (opcode : Nat) (tag index : BitVec 16) (frame : Word) (result : Nat) :
    Output :=
  let n := (s.ring c).count17
  .hostWrite (s.entryAddr c (n.setWidth 16))
    (completionBytes st opcode tag index (!(n.toNat / s.ringSize c % 2 == 1)) frame result)

/-- One entry of a completion ring (R363): the reservation ends (R353), and the entry is written unless the ring is off or has
halted (R347, R354). -/
def State.putCompletion (s : State) (r : Nat) (st : Status) (opcode : Nat) (tag index : BitVec 16) (irq : Bool)
    (frame : Word) (result : Nat) : State :=
  let c := 10 + r
  let x := s.ring c
  let s := s.updRing c fun y => { y with reserved := y.reserved - 1 }
  if x.halt || !s.ringEn c then s
  else
    let s := s.emit (s.completionOut c st opcode tag index frame result)
    s.updRing c fun y => { y with count17 := y.count17 + 1, dev := (y.count17 + 1).setWidth 16, gained := true,
                                  irqDue := y.irqDue || irq }

/-- The completion of a descriptor (R358): FRAME is the base frame of its effect, zero when it had none. -/
def State.complete (s : State) (d : Desc) (st : Status) (frame : Word) (result : Nat) : State :=
  s.putCompletion d.ring st (bodyCode d.body) d.hdr.tag d.index d.hdr.irq frame result

/-- The completion of a descriptor that took effect in the present base frame. -/
def State.completeNow (s : State) (d : Desc) (st : Status) (result : Nat) : State :=
  s.complete d st (if st = .ok ∨ st = .late then s.fr.k else 0) result

/-- Credits of a lane that the hub has not used (R196). -/
def Lane.outstanding (x : Lane) : Nat := (x.grant - x.taken).toNat

/-- Slots of a capture ring that outstanding credit holds (R197): five for each credit of the lanes whose tile
names it.  A write of CAP_RING moves the reservation to the new ring (DESIGN CHOICE: R197 does not say; log entry 9). -/
def State.creditSlots (s : State) (ring : Nat) : Nat :=
  5 * (s.lanes.ents.foldl (fun a e =>
    if s.fld (tileBase (e.1 / 2) + 0x300) 4 4 = ring then a + e.2.outstanding else a) 0)

/-- Slots of a capture record of the given length, header included (R348). -/
def captureSlots (len : Nat) : Nat := (8 + len + 63) / 64

/-- Whether a capture ring (0 to 15) has room for a record beside the space that outstanding credit holds (R197). -/
def State.captureRoom (s : State) (ring len : Nat) : Bool :=
  let r := 20 + ring
  s.ringEn r && !(s.ring r).halt && decide ((s.ring r).used + captureSlots len + s.creditSlots ring ≤ s.ringSize r - 1)

/-- A capture record as its slots hold it: the header of Table 11-13, the record, zeros to the end of the last slot (R348). -/
def captureImage (kind : Nat) (record : List Byte) (tick : Nat) : List Byte :=
  let n := captureSlots record.length
  let l := [BitVec.ofNat 8 kind, BitVec.ofNat 8 n] ++ leBytes 2 record.length ++ leBytes 4 tick ++ record
  l ++ List.replicate (64 * n - l.length) 0

/-- The writes of a record's slots, which follow each other modulo SIZE. -/
def State.slotWrites (s : State) (r : Nat) (image : List Byte) : List Output :=
  (List.range (image.length / 64)).map fun j =>
    .hostWrite (s.entryAddr r ((s.ring r).dev + BitVec.ofNat 16 j)) ((image.drop (64 * j)).take 64)

/-- A record into a capture ring, whole or not at all (R348); false when it found no room. -/
def State.capture (s : State) (ring kind : Nat) (record : List Byte) : State × Bool :=
  let r := 20 + ring
  if s.captureRoom ring record.length then
    let s := (s.slotWrites r (captureImage kind record s.tick.toNat)).foldl State.emit s
    let n := 64 * captureSlots record.length
    (((s.tally 13 n).tally (15 + kind) n).updRing r fun y =>
      { y with dev := y.dev + BitVec.ofNat 16 (captureSlots record.length), gained := true }, true)
  else (s, false)

/-- The 16 bytes of an entry of the EVT ring (R377). -/
def eventBytes (cls : Byte) (code src : BitVec 16) (seq tick : Word) : List Byte :=
  [0x01, cls] ++ leBytes 2 code.toNat ++ leBytes 2 src.toNat ++ [0, 0] ++ leBytes 4 seq.toNat ++ leBytes 4 tick.toNat

/-- An entry of the EVT ring (R377); an entry that finds the ring off, halted or full is not written (log entry 7). -/
def State.postEvent (s : State) (cls : Byte) (code src : BitVec 16) (seq tick : Word) : State :=
  if s.ringEn 36 && !(s.ring 36).halt && decide ((s.ring 36).used < s.ringSize 36 - 1) then
    (s.emit (.hostWrite (s.entryAddr 36 (s.ring 36).dev) (eventBytes cls code src seq tick))).updRing 36 fun y =>
      { y with dev := y.dev + 1, gained := true }
  else s

/-- The timed descriptors of a ring that are pending, a timed MODE_CHANGE among them (R357, R360; log entry 17). -/
def State.pendCount (s : State) (r : Nat) : Nat :=
  (s.ring r).pend.length + s.hif.waiting.countP fun w => w.d.ring == r && w.kind == .modeChange && w.d.hdr.act.isSome

end Sys2Proof.Machine
end

