-- ==== Sys2Proof/Machine/Selection.lean ====
section
/-! DEFINITION. Arm modulation and cell selection (chapter 2) with the trim carry accumulator (chapter 4): the level stage,
the order keys, the selection of R76, the trim pulse, the watchdog. -/

namespace Sys2Proof.Machine

/-! ## Settings in force in the frame (Tables 2-6 to 2-9; a write takes effect at the octad's next frame boundary) -/

def Octad.trimEn (o : Octad) : Bool := field o.selCtrl.toNat 0 1 == 1
def Octad.basis (o : Octad) : Nat := field o.selCtrl.toNat 1 2
def Octad.centre (o : Octad) : Bool := field o.selCtrl.toNat 3 1 == 1
def Octad.swapMax (o : Octad) : Nat := field o.selCtrl.toNat 4 7
def Octad.bandPm (o : Octad) : Nat := field o.selCtrl.toNat 11 7
def Octad.iDb (o : Octad) : Nat := field o.selIsign.toNat 0 15
def Octad.iHys (o : Octad) : Nat := field o.selIsign.toNat 16 15
def Octad.refCh (o : Octad) : Nat := field o.selSrc.toNat 0 6
def Octad.iCh (o : Octad) : Nat := field o.selSrc.toNat 8 6
def Octad.cycCh (o : Octad) : Nat := field o.selSrc.toNat 16 6
def Octad.vNom (o : Octad) : Nat := field o.selVnom.toNat 0 16

/-! ## The level stage (R58, R63 to R66) -/

/-- floor(x × 2^k + 1/2) of an exact value. -/
def floorHalf (x : Ex) (k : Int) : Int := ((x.scale k).add ⟨1, 2, 0⟩).floor

/-- The current code I of R58. -/
def currentCode (y : Ex) : Int := clampI (-32768) 32767 (floorHalf y 15)

/-- v̄ (R64). -/
def meanCode (sum n : Nat) : Nat := if n = 0 then 0 else sum / n

/-- The reference code A of R63. -/
def refCode (x : Ex) : Nat := (clampI 0 (2 ^ 25 - 1) (floorHalf x 16)).toNat

/-- The level demand D of R65 and whether its upper clamp acted. -/
def levelDemand (basis : Nat) (x : Ex) (vbar vnom nc : Nat) : Nat × Bool :=
  if basis = 2 then
    let d := floorHalf x 16
    (min (clampI 0 d d).toNat (nc * 65536), decide ((nc * 65536 : Nat) < d))
  else
    let v := max (if basis = 1 then vnom else vbar) 1
    let d := (refCode x * 65536 + v / 2) / v
    (min d (nc * 65536), decide (nc * 65536 < d))

/-- n and f of R66. -/
def levelCount (trimEn : Bool) (d : Nat) : Nat × Nat :=
  if trimEn then (d / 65536, d % 65536) else ((d + 32768) / 65536, 0)

/-! ## Order keys (R71, R72) -/

/-- The 46-bit key of a cell (Table 2-2): class, voltage in the order of its list, transitions, cell number. -/
def selKey (ins cand discharge : Bool) (v tc cell : Nat) : Nat :=
  let cls := if !cand then 3 else if ins then 1 else 0
  let ascending := ins == discharge
  cls * 2 ^ 44 + (if ascending then v else 0xFFFF - v) * 2 ^ 28 + tc * 2 ^ 12 + cell

def insertBy (key : Nat → Nat) (x : Nat) : List Nat → List Nat
  | [] => [x]
  | y :: r => if key x ≤ key y then x :: y :: r else y :: insertBy key x r

/-- Ascending order of keys (R72). -/
def sortBy (key : Nat → Nat) : List Nat → List Nat
  | [] => []
  | x :: r => insertBy key x (sortBy key r)

/-! ## The selection (R76) -/

/-- How many swaps the benefit test lets through: the lists' heads are exchanged while the incoming cell is better. -/
def swapCount (v : Nat → Nat) (discharge : Bool) : Nat → List Nat → List Nat → Nat
  | 0, _, _ => 0
  | s + 1, o :: os, i :: is =>
    if (if discharge then decide (v o < v i) else decide (v i < v o)) then swapCount v discharge s os is + 1 else 0
  | _ + 1, _, _ => 0

/-- The outcome of R76: cells inserted, cells bypassed, forced swaps, the first unmoved entry of the insert list. -/
structure Moves where
  ins : List Nat
  byp : List Nat
  swaps : Nat
  trim : Option Nat
deriving DecidableEq, Repr

/-- The pseudocode of R76 over the two sorted lists. -/
def selectMoves (insList bypList : List Nat) (n : Nat) (sign : Sign) (discharge : Bool) (swapMax : Nat)
    (v : Nat → Nat) (obh obl : Nat → Bool) : Moves :=
  let up := n - bypList.length
  let down := bypList.length - n
  let li := insList.drop up
  let lb := bypList.drop down
  let hx := if discharge then obl else obh
  let hy := if discharge then obh else obl
  let s := if sign = .zero then 0 else swapCount v discharge (min (max (lb.countP hx) (li.countP hy)) swapMax) lb li
  ⟨insList.take up ++ li.take s, bypList.take down ++ lb.take s, s, (li.drop s).head?⟩

/-! ## The carry accumulator (R121) -/

/-- Request r, carry c, minimum m, range Q: emitted width, new carry, whether a carry event and a clamp are counted. -/
def carryStep (r c m q : Int) : Int × Int × Bool × Bool :=
  if c = 0 ∧ m ≤ r ∧ m ≤ q - r then (r, 0, false, false)
  else
    let u := c + r
    let e := if u < m then 0 else if q - m < u then q - m else u
    let c1 := u - e
    let cl := decide (q < c1) || decide (c1 < -q)
    (e, clampI (-q) q c1, decide (e ≠ r), cl)

/-- T_F in ticks (Table 1-4: units of 1.25 µs). -/
def State.tfTicks (s : State) : Nat := s.fr.tf * 500

/-- The cell type that its home tile assigns to a cell (R119). -/
def State.cellType (s : State) (c : Nat) : Nat := s.fld (tileBase (c / 64) + 0x100 + 4 * (c % 64 / 16)) (2 * (c % 16)) 2

/-- T_MIN and T_DT of an octad's cell type, and the larger of them. -/
def State.typeMin (s : State) (n ty : Nat) : Nat :=
  max (s.ofld n (0x2800 + 4 * ty) 0 12) (s.ofld n (0x2800 + 4 * ty) 16 12)

/-- The effective minimum of a cell in sub-ticks (R119). -/
def State.cellMin (s : State) (c : Nat) : Nat := 16 * s.typeMin (c / 512) (s.cellType c)

/-! ## Times of the frame (R40, R46) -/

/-- E_n(k) + an offset of Table 1-4 in units of 0.125 µs. -/
def Octad.at (o : Octad) (units : Nat) : Nat := o.epoch + 50 * units
/-- L(k) = E(k+1) + T_LE of the frame whose epoch is e. -/
def State.levelEdge (s : State) (n e : Nat) : Nat := e + s.tfTicks + 50 * (s.oct n).tl.tle

/-- Ticks per core cycle as a fraction: f = 25 MHz × (N + F/2^24) / P at the point in force (R465), 100 MHz on the bypass
oscillator (R474; its ±4 % is left out, log entry 8). -/
def State.corePeriod (s : State) : Nat × Nat :=
  match s.clk.bypassCore with
  | some _ => (4, 1)
  | none =>
    let a := 0x400010 + 8 * s.clk.point
    (16 * s.fld (a + 4) 0 6 * 2 ^ 24, max 1 (s.fld a 24 8 * 2 ^ 24 + s.fld a 0 24))

/-- Core cycles, as a fraction, between two ticks under clocks given newest first, each with its first tick. -/
def cyclesOver : List (Nat × Nat × Nat) → Nat → Nat → Nat × Nat
  | [], _, _ => (0, 1)
  | (t, p, q) :: r, a, b =>
    let x := cyclesOver r a (min b t)
    let d := (b - max a t) * q
    if d = 0 then x else (x.1 * p + d * x.2, x.2 * p)

/-- Whether the core logic has made a number of cycles between two ticks, at the clocks that it has run on (R244, R474). -/
def State.coreRan (s : State) (a b cycles : Nat) : Bool :=
  let x := cyclesOver ((s.clk.since, s.corePeriod.1, s.corePeriod.2) :: s.clk.was) a b
  decide (cycles * x.2 ≤ x.1)

/-! ## Selection of one frame -/

/-- Cells of the octad as the selection sees them: insert list, bypass list, both in key order. -/
def State.selLists (s : State) (n : Nat) : List Nat × List Nat :=
  let cs := s.octCells n
  let d := (s.oct n).discharge
  let key := fun c => let x := s.cell c; selKey x.ins x.cand d x.v x.tcL c
  (sortBy key (cs.filter fun c => (s.cell c).cand && !(s.cell c).ins),
   sortBy key (cs.filter fun c => (s.cell c).cand && (s.cell c).ins))

/-- TC rises by k and stops at 65,535 (R79); what was added is kept until the dispatch (R592). -/
def Cell.addTc (c : Cell) (k : Nat) : Cell := { c with tc := satAdd 16 c.tc k, tcAdd := c.tcAdd + (satAdd 16 c.tc k - c.tc) }

/-- The trim request of a plan through the carry accumulator (R80, R82, R121): the width asked for, what comes of it. -/
def State.trimCarry (s : State) (n : Nat) (p : SelPlan) (c : Nat) : Int × Int × Bool × Bool :=
  let g := 16 * s.tfTicks
  carryStep ((p.f * g + 32768) / 65536 : Nat) (s.oct n).carry (s.cellMin c) g

/-- The trim request of a plan (R80 to R83, R121, R122): the trim cell's command, and the octad's carry and counters. -/
def State.trimStep (s : State) (n : Nat) (p : SelPlan) : State :=
  if p.f == 0 then s
  else match p.trim with
  | none => s.flag (octBase n + 0x2010) 5
  | some c =>
    let r := s.trimCarry n p c
    let e := r.1.toNat
    let s := s.updOct n fun o => { o with carry := r.2.1 }
    let s := if r.2.2.1 then s.count (octBase n + 0x2814) 1 else s
    let s := if r.2.2.2 then s.count (octBase n + 0x2818) 1 else s
    if e = 0 then s
    else
      let a := if p.centre then (16 * s.tfTicks - e) / 32 else 0
      s.updCell c fun x => { x with cmd := .pulse (s.levelEdge n p.epoch + a) (e / 16) (e % 16) }

/-- What a plan adds to TC (R79): 1 for each INSERT and BYPASS, 2 for a PULSE that is emitted, nothing for PERMANENT_BYPASS. -/
def State.commitTc (s : State) (n : Nat) : State :=
  let p := (s.oct n).plan
  let one := p.ins ++ p.byp ++ p.leaving.filter fun c => !p.perms.contains c
  let two := match p.trim with
    | some c => if p.f != 0 && decide (0 < (s.trimCarry n p c).1) then [c] else []
    | none => []
  let s := one.foldl (fun s c => s.updCell c fun x => x.addTc 1) s
  (two.foldl (fun s c => s.updCell c fun x => x.addTc 2) s).updOct n fun o => { o with tcDone := true }

def Action.isPerm : Action → Bool
  | .permBypass _ => true
  | _ => false

/-- The flags of R70 as the selection of this frame sees them. -/
def Cell.takeFlags (c : Cell) : Cell :=
  { c with hiSel := c.hiNow, loSel := c.loNow, obh := c.hiNow && c.exHigh, obl := c.loNow && c.exLow }

/-- What the selection of the frame with epoch ep decides from its latched inputs (R57, R60, R63 to R66, R76): nothing that
changes after the latches changes it. -/
def State.selectPlan (s : State) (n ep : Nat) : SelPlan :=
  let o := s.oct n
  let d := levelDemand o.basis o.x.ex o.vbar o.vNom o.ncand
  let nf := levelCount o.trimEn d.1
  let l := s.selLists n
  let mv := selectMoves l.1 l.2 nf.1 o.sign o.discharge o.swapMax (fun c => (s.cell c).v) (fun c => (s.cell c).obh)
    (fun c => (s.cell c).obl)
  let cs := s.octCells n
  { epoch := ep, sat := d.2, neg := decide (o.x.m < 0), ins := mv.ins, byp := mv.byp,
    leaving := cs.filter fun c => !(s.cell c).cand && (s.cell c).ins,
    perms := cs.filter fun c => (s.cell c).retL && !(s.cell c).permSent && !(o.selDone.isSome && (s.cell c).cmd.isPerm),
    swaps := mv.swaps, trim := mv.trim, f := nf.2, nins := l.2.length + mv.ins.length - mv.byp.length, centre := o.centre }

/-- The commit of a selection (R60, R76 to R83): the new inserted set, the commands at L(k), TC, the flag histories, and the
counts that the frame adds once it is dispatched (R592). -/
def State.selectFrame (s : State) (n : Nat) : State :=
  let p := (s.oct n).plan
  let s := if (s.oct n).tcDone then s else s.commitTc n
  let lk := s.levelEdge n p.epoch
  let ex := p.leaving.length + p.perms.countP fun c => !p.leaving.contains c
  -- R60: non-candidates leave; R78: commands at L(k) with phase 0; R70: the frame's exceedance becomes history
  let s := s.mapOctCells n fun c => { c with cmd := .hold, exHigh := c.hiSel, exLow := c.loSel }
  let s := p.leaving.foldl (fun s c => s.updCell c fun x =>
    if p.perms.contains c then { x with ins := false } else { x with ins := false, cmd := .bypass lk }) s
  let s := p.perms.foldl (fun s c => s.updCell c fun x => { x with cmd := .permBypass lk }) s
  let s := p.ins.foldl (fun s c => s.updCell c fun x => { x with ins := true, cmd := .insert lk }) s
  let s := p.byp.foldl (fun s c => s.updCell c fun x => { x with ins := false, cmd := .bypass lk }) s
  let s := s.trimStep n p
  s.updOct n fun o => { o with
    levelF := p.f, nins := p.nins,
    addLB := (max p.nins o.nins) - (min p.nins o.nins), addTR := p.ins.length + p.byp.length, addSW := p.swaps, addEX := ex,
    selRunning := false, selDone := some o.selFrame, tcDone := false }

/-- Whether the frame of the selection under way still waits for its dispatch. -/
def Octad.selInTime (o : Octad) : Bool := o.toSend.any fun f => f.1 == o.selFrame

/-- SELECTION_COMPLETE: at cycle 400 the selection commits.  A selection that completes after T_D has missed its frame: the
committed set, TC and the flags stay (Table 2-5).  One whose 400 cycles were over at T_D without a completion hangs, and only the
watchdog ends it (R75; DEDUCED, log entry 10). -/
def execSelectionComplete (n : Fin 8) (s : State) : Host.Outcome State Fault Refusal :=
  let o := s.oct n
  .next (
    if !o.selRunning || o.selReset then s
    else if !s.coreRan o.selAt s.now 400 then s
    else if o.selInTime then s.selectFrame n
    else if o.selSlow then s.updOct n fun o => { o with selRunning := false, selSlow := false }
    else s)

/-- SEL_WDOG: 600 core cycles after T_ED an unfinished selection is reset; the committed set stays (R43, R88).  The reload
opens the window of Table 12-7.  A selection whose cycles ran slowly has completed at cycle 400 (log entry 10).
Log entry 108. -/
def execSelWdog (n : Fin 8) (s : State) : Host.Outcome State Fault Refusal :=
  let o := s.oct n
  .next (
    if !o.selRunning || o.selReset then s
    else if !s.coreRan o.selAt s.now 600 then s
    else if o.selSlow then s.updOct n fun o => { o with selRunning := false, selSlow := false }
    else
      let s := s.updOct n fun o => { o with selReset := true }
      let id := s.flt.nextId
      (s.raise 0x2302 n (leBytes 2 0xFFFF)).openWindow (.wdog n) id 0x2302 n (some s.now))

end Sys2Proof.Machine
end

