-- ==== Sys2Proof/Machine/Ledger.lean ====
section
/-! DEFINITION. The capacitor ledger (chapter 3): inserted time, charge and estimate, smoothing, C0, energy, health,
snapshots. -/

namespace Sys2Proof.Machine

/-! ## Inserted time (R89) -/

/-- Ticks with the cell inserted from `start` up to `stop`, given its realised edges and the level before them. -/
def insertedTicks (stop : Nat) : List (Nat × Bool) → Bool → Nat → Nat
  | [], lvl, at_ => if lvl then stop - at_ else 0
  | (t, l) :: r, lvl, at_ =>
    let t1 := min (max t at_) stop
    (if lvl then t1 - at_ else 0) + insertedTicks stop r l t1

/-- The level at a tick and the edges from that tick on. -/
def advanceEdges (stop : Nat) : List (Nat × Bool) → Bool → List (Nat × Bool) × Bool
  | [], lvl => ([], lvl)
  | (t, l) :: r, lvl => if t < stop then advanceEdges stop r l else ((t, l) :: r, lvl)

/-- The last commanded edge time whose edges were all realised before a tick (R91), and the entries left. -/
def advanceCmds (stop : Nat) : List (Word × BitVec 4 × Nat) → Word × BitVec 4 → List (Word × BitVec 4 × Nat) × Word × BitVec 4
  | [], w => ([], w)
  | (w, q, d) :: r, last => if d < stop then advanceCmds stop r (w, q) else ((w, q, d) :: r, last)

/-- Same sign and at least I_MIN in magnitude (R91).  A code of zero has no sign, so that it never qualifies, with I_MIN = 0
either (DESIGN CHOICE, log entry 72). -/
def currentsQualify (i1 i2 : Int) (imin : Nat) : Bool :=
  (decide (0 < i1) && decide (0 < i2) || decide (i1 < 0) && decide (i2 < 0)) && decide (imin ≤ i1.natAbs)
    && decide (imin ≤ i2.natAbs)

/-- The sample interval that ends at the octad's present epoch, for one cell (R89 to R94): τ, q and Δv accumulated when the
interval qualifies and lies in one window (R94), the mismatch counted when only the edge times disagree (R92).
Log entry 72. -/
def Cell.ledgerLatch (c : Cell) (start stop : Nat) (i1 i2 : Int) (imin : Nat) (counts undisturbed : Bool) : Cell :=
  let tau := 16 * insertedTicks stop c.edges c.level start
  let adv := advanceEdges stop c.edges c.level
  let q := advanceCmds stop c.cmdq (c.lastEdge, c.lastSeq)
  let c := { c with edges := adv.1, level := adv.2, cmdq := q.1, lastEdge := q.2.1, lastSeq := q.2.2 }
  let rest := decide (0 < tau) && !c.staleOld && !c.stale && currentsQualify i1 i2 imin && undisturbed
    && c.candOld && c.cand && !c.retL
  if !rest then c
  else if c.fb.edge ≠ c.lastEdge then { c with mismatch := satAdd 16 c.mismatch 1 }
  else if !counts then c
  else
    let dv : Int := (c.v : Int) - c.vOld
    { c with sqv := c.sqv + (i1 + i2) * tau * dv, svv := c.svv + (dv * dv).toNat, nq := c.nq + 1 }

/-! ## Window (R93 to R97) -/

/-- Ĉ of R95. -/
def capEstimate (sqv : Int) (svv vfull ifull : Nat) : Nat :=
  let den := 5 * vfull * svv
  min ((sqv.toNat * ifull * 512 + den / 2) / den) (2 ^ 32 - 1)

/-- C̃ of R97 after a valid window. -/
def smoothStep (old : Option Word) (hat : Word) : Word :=
  match old with
  | none => hat
  | some c => BitVec.ofNat 32 (unsign 32 ((c.toNat : Int) + ((hat.toNat : Int) - c.toNat + 32) / 64))

def State.vFull (s : State) (n : Nat) : Nat := s.ofld n 0x2408 0 16
def State.iFull (s : State) (n : Nat) : Nat := s.ofld n 0x2408 16 16
/-- Both fields of LDG_SCALE are set (R93, R111). -/
def State.scaleSet (s : State) (n : Nat) : Bool := decide (0 < s.vFull n) && decide (0 < s.iFull n)

/-- A window starts: TC cleared, LDG_WIN and LDG_QUAL taken (R79, Table 3-2). -/
def State.startWindow (s : State) (n : Nat) : State :=
  (s.mapOctCells n Cell.clearWindow).updOct n fun o => { o with
    winW := s.ofld n 0x2400 0 20, winImin := s.ofld n 0x2404 0 15, winNqmin := s.ofld n 0x2404 16 10 }

/-- The end of a window (R93): the results are taken aside for the arithmetic of R95, the next window starts at the
following counted frame, where TC is cleared (R79). Log entry 64. -/
def State.ledgerWindowEnd (s : State) (n : Nat) : State :=
  let o := s.oct n
  if o.window = 0 ∨ o.window < o.winW then s
  else
    let vf := s.vFull n
    let ifl := s.iFull n
    let s := s.mapOctCells n fun c =>
      if c.retL then c
      else
        let valid := decide (o.winNqmin ≤ c.nq) && decide (0 < c.sqv)
        { c with endNq := c.nq, endTc := c.tc, endValid := valid,
                 endHat := if valid then BitVec.ofNat 32 (capEstimate c.sqv c.svv vf ifl) else 0,
                 lowEx := if valid then c.lowEx else satAdd 16 c.lowEx 1, sqv := 0, svv := 0, nq := 0 }
    let a := octBase n + 0x2418
    let s := s.setReg a (BitVec.ofNat 32 (satAdd 32 (s.reg a).toNat 1))
    s.updOct n fun o => { o with window := 0, counted := false, countedPrev := false, arithPending := true, arithFrames := 0 }

/-- TC at the window end: what the window's last frame added counts, and the next latch is the first that sees it (R79, R93).
Log entry 64. -/
def State.ledgerEndTc (s : State) (n : Nat) : State :=
  if (s.oct n).arithPending && (s.oct n).arithFrames == 0 && (s.oct n).state.active then
    s.mapOctCells n fun c => if c.retL then c else { c with endTc := c.tc }
  else s

/-- LEDGER_WINDOW_END: the count has reached W. -/
def execLedgerWindowEnd (n : Fin 8) (s : State) : Host.Outcome State Fault Refusal := .next (s.ledgerWindowEnd n)

/-! ## Capacitance in force, energy (R101 to R103) -/

/-- The mean C̃ of the initialised candidates of an octad (R102). -/
def State.meanCap (s : State) (n : Nat) : Option Nat :=
  let cs := (s.octCells n).filter fun c => (s.cell c).cand && (s.cell c).smooth.isSome
  if cs.isEmpty then none
  else some (cs.foldl (fun a c => a + ((s.cell c).smooth.getD 0).toNat) 0 / cs.length)

/-- The capacitance of a cell for its energy: C̃, C0, the octad's mean, C_NOM (R101, R102). -/
def State.capOf (s : State) (n c : Nat) (mean : Option Nat) : Option Nat :=
  let x := s.cell c
  match x.smooth with
  | some w => some w.toNat
  | none =>
    if x.c0 ≠ 0xFFFFFFFF then some x.c0.toNat
    else match mean with
      | some m => some m
      | none => let k := (s.reg (octBase n + 0x2420)).toNat; if k = 0 then none else some k

/-- A sum of ledger energies in joules, as a block-floating value (R101, R103). -/
def energyJoules (e vfull : Nat) : BF := (round1 ⟨(e * vfull ^ 2 : Nat), 100000000, -49⟩).1

/-- The energies formed at a T_FB latch: arm sum and spread (R103); CAP_NONE when a candidate has no value. -/
def State.formEnergy (s : State) (n : Nat) : State :=
  let cs := (s.octCells n).filter fun c => (s.cell c).cand
  let m := s.meanCap n
  let es := cs.map fun c => ((s.capOf n c m).getD 0) * (s.cell c).v ^ 2
  let s := if cs.any fun c => (s.capOf n c m).isNone then s.flag (octBase n + 0x2414) 4 else s
  let sum := es.foldl (· + ·) 0
  let hi := es.foldl max 0
  let lo := es.foldl min hi
  s.updOct n fun o => { o with
    sumE := if cs.isEmpty then .zero else energyJoules sum (s.vFull n),
    spreadE := if cs.isEmpty then .zero else energyJoules (hi - lo) (s.vFull n) }

/-! ## Snapshots (R109) -/

/-- E_i in millijoules, rounded to nearest, saturating (Table 3-3); a tie rounds up (DESIGN CHOICE: Table 3-3 does not say, log entry
108). -/
def energyMilli (e vfull : Nat) : Nat := min ((2 * e * vfull ^ 2 + 2 ^ 49 * 100000) / (2 * 2 ^ 49 * 100000)) 0xFFFFFFFF

/-- One record of Table 3-3. -/
def State.snapRecord (s : State) (n c : Nat) : List Byte :=
  let x := s.cell c
  let fl := bit x.winValid + 2 * bit (x.c0 != 0xFFFFFFFF) + 4 * bit x.notice.crossed + 8 * bit x.retireTh.crossed
    + 16 * bit x.retired + 32 * bit x.smooth.isSome + 64 * bit (x.mismatch == 65535)
  leBytes 2 c ++ leBytes 2 fl ++ leBytes 4 x.winSeq.toNat ++ leBytes 4 (x.smooth.getD 0).toNat
    ++ leBytes 4 (if x.winValid then x.hat.toNat else 0) ++ leBytes 4 x.c0.toNat ++ leBytes 4 x.winNq ++ leBytes 2 x.winTc
    ++ leBytes 2 x.v ++ leBytes 4 (energyMilli (((s.capOf n c (s.meanCap n)).getD 0) * x.v ^ 2) (s.vFull n))

/-- LEDGER_SNAPSHOT_WRITE: one record per populated cell into SNAP_RING; one that finds no room is counted.  It serves a
snapshot that was put off in the same window. -/
def State.writeSnapshot (s : State) (n : Nat) : State :=
  let s := s.updOct n fun o => { o with snapReq := false }
  (s.octCells n).foldl (fun s c =>
    let r := s.capture (s.ofld n 0x240C 16 4) 0x02 (s.snapRecord n c)
    if r.2 then r.1 else s.count (octBase n + 0x241C) 1) s

/-- A snapshot is elective work: shed, it is put off (R109).  Two requests of one window put off are met by one snapshot
(DESIGN CHOICE, log entry 78). -/
def State.requestSnapshot (s : State) (n : Nat) : State :=
  if s.sheds 3 then s.updOct n fun o => { o with snapReq := true } else s.writeSnapshot n

/-- A window end overtakes a snapshot that is still put off: it is counted, and the newer one takes its place (R109).
Log entry 78. -/
def State.overtakeSnapshot (s : State) (n : Nat) : State :=
  if (s.oct n).snapReq then s.count (octBase n + 0x241C) 1 else s

/-! ## Health (R105, R106) -/

/-- One threshold after an update: exceeded, returned (R105). -/
def overThreshold (c0 cap th : Nat) : Bool := decide ((c0 : Int) * th < ((c0 : Int) - cap) * 1000)
def backUnder (c0 cap th hys : Nat) : Bool := decide (((c0 : Int) - cap) * 1000 ≤ (c0 : Int) * ((th : Int) - hys))

/-- The health check of a cell whose C̃ has just been updated. -/
def State.healthCheck (s : State) (n c : Nat) : State :=
  let x := s.cell c
  match x.smooth with
  | none => s
  | some w =>
    if x.c0 = 0xFFFFFFFF then s
    else
      let hys := s.ofld n 0x2410 16 8
      let f := fun (cr : Cross) th => crossStep cr (overThreshold x.c0.toNat w.toNat th) (backUnder x.c0.toNat w.toNat th hys)
      let a := f x.notice (s.ofld n 0x2410 0 8)
      let b := f x.retireTh (s.ofld n 0x2410 8 8)
      let s := s.updCell c fun x => { x with notice := a.1, retireTh := b.1 }
      let s := if a.2.1 then s.raise 0x1501 c [] else s
      let s := if b.2.1 then s.raise 0x1502 c [] else s
      let s := if a.2.2 then s.raise 0x1503 c [] else s
      if b.2.2 then s.raise 0x1503 c [] else s

/-- The window-end arithmetic is complete (R96): the estimates are in force, with smoothing, health and the snapshot.  A retired cell
takes no part: its snapshot record goes on to show Window, its valid flag, N_q and TC of its last window before the retirement
(DESIGN CHOICE: R100 and R109 do not say, log entry 108). -/
def State.ledgerArithmetic (s : State) (n : Nat) : State :=
  let s := (s.updOct n fun o => { o with arithPending := false }).overtakeSnapshot n
  let seq := s.reg (octBase n + 0x2418)
  let s := (s.octCells n).foldl (fun s c =>
    if (s.cell c).retired then s
    else
      let valid := (s.cell c).endValid
      let s := s.updCell c fun x => { x with
        winNq := x.endNq, winTc := x.endTc, winValid := valid, hat := x.endHat, winSeq := seq,
        smooth := if valid then some (smoothStep x.smooth x.endHat) else x.smooth,
        validWins := if !valid then x.validWins else if x.smooth.isSome then x.validWins + 1 else 0 }
      if valid then s.healthCheck n c else s) s
  if s.ofld n 0x240C 20 1 = 1 then s.requestSnapshot n else s

/-- LEDGER_ARITHMETIC_COMPLETE: at the T_FB latch of the 64th frame after the window end, ahead of that latch; the latch
itself completes an arithmetic that is still open then. -/
def execLedgerArithmeticComplete (n : Fin 8) (s : State) : Host.Outcome State Fault Refusal :=
  let o := s.oct n
  .next (
    if !o.arithPending || decide (o.arithFrames < 63) then s
    else match o.toLatch with
    | [] => s
    | f :: _ => s.whenDue (frameAt f.2 o.tl.tfb) fun s => s.ledgerArithmetic n)

/-! ## C0 (R98, R100) and saving (R99) -/

def c0Data (old new : Word) : List Byte := leBytes 4 old.toNat ++ leBytes 4 new.toNat

/-- C0_WRITE: only while C0 is unset.  While a SHUT condition holds NVM programs off, C0 changes and the descriptor completes all the same,
and the write of the C0 partition waits (DESIGN CHOICE: R529 names no status; C0_CLEAR and C0_ADOPT likewise; log entry 11). -/
def State.doC0Write (s : State) (c : Nat) (v : Word) : State × Status × Nat :=
  let x := s.cell c
  if x.c0 ≠ 0xFFFFFFFF then (s, .state, 0)
  else (((s.updCell c fun x => { x with c0 := v }).saveTable .c0).raise 0x1505 c (c0Data x.c0 v), .ok, 0)

/-- C0_CLEAR: only of a retired cell in a Blocked or Unconfigured octad; C̃ becomes uninitialised.  Crossed conditions of the
cell stand: an update of C̃ alone returns them (DESIGN CHOICE, log entry 72). -/
def State.doC0Clear (s : State) (c : Nat) : State × Status × Nat :=
  let x := s.cell c
  if !x.retired || !(s.oct (c / 512)).state.still then (s, .state, 0)
  else (((s.updCell c fun x => { x with c0 := 0xFFFFFFFF, smooth := none, validWins := 0, c0Cleared := true }).saveTable .c0).raise 0x1506
    c (c0Data x.c0 0xFFFFFFFF), .ok, 0)

/-- C0_ADOPT: C̃ becomes C0 of every cell of the octad with C0 unset and 64 valid windows after the initialising one; its
crossed conditions clear without CAP_RETURN (Table 3-2).  RESULT is the number adopted. -/
def State.doC0Adopt (s : State) (n : Nat) : State × Status × Nat :=
  let cs := (s.octCells n).filter fun c => (s.cell c).c0 == 0xFFFFFFFF && (s.cell c).smooth.isSome
    && decide (64 ≤ (s.cell c).validWins)
  let s := if cs.isEmpty then s else s.saveTable .c0
  (cs.foldl (fun s c =>
    let w := (s.cell c).smooth.getD 0
    (s.updCell c fun x => { x with c0 := w, notice := .init, retireTh := .init }).raise 0x1507 c (c0Data 0xFFFFFFFF w)) s,
   .ok, cs.length)

/-- R529: after a SHUT crossing of an octad or device sensor no NVM program or erase starts until every one returns.
Log entry 11. -/
def State.nvmHeld (s : State) : Bool := s.sensors.ents.any fun e => decide (64 ≤ e.1) && e.2.crossed.getLsbD 2

/-- CSAVE_SAVE: once per hour of operation, as deferrable work (R99): a write of the copy that is not in force. -/
def execCsaveSave (s : State) : Host.Outcome State Fault Refusal :=
  .next (s.whenDue (s.bel.csaveAt + 3600 * 400000000) fun s =>
    if s.nvmHeld || s.epl.defer || !s.alive then s else { s.saveTable .csave with bel := { (s.saveTable .csave).bel with csaveAt := s.now } })

end Sys2Proof.Machine
end

