-- ==== Sys2Proof/Machine/Wire.lean ====
section
/-! DEFINITION. The transmitter of a lane (R143 to R145, R149, R151): what waits in it, the block that each block time
carries, and its 66 bits on the wire. -/

namespace Sys2Proof.Machine

/-! ## Blocks of the line -/

/-- A block time in units of 1/25 tick: 512 at L1, halved at each speed (Table 5-1). -/
def blockUnits (speed : Nat) : Nat := 512 / 2 ^ speed

def fillerBlock : Block := 0xA1
def idleBlock : Block := 0xA6

/-- CAPABILITY of the device (Table 6-1, Table 5-2). -/
def Lane.capBlock (x : Lane) (l : Nat) : Block :=
  blockOf [0xD3, BitVec.ofNat 8 (1 + 32 * (l % 2) + 64 * x.maxSpd), BitVec.ofNat 8 (bit x.capAck + 2 * (l / 2))]

/-! ## The scrambler (R144) -/

/-- One bit through the scrambler x^58 + x^39 + 1; the state holds the last 58 bits sent, the latest in bit 0. -/
def scrambleBit (s : BitVec 58) (d : Bool) : Bool := d ^^ (s.getLsbD 38 ^^ s.getLsbD 57)

def shiftIn (s : BitVec 58) (b : Bool) : BitVec 58 := (s <<< 1) ||| BitVec.ofNat 58 (bit b)

/-- n bits of a number, lowest first, scrambled; the state after them. -/
def scramble : Nat → BitVec 58 → Nat → Nat × BitVec 58
  | 0, s, _ => (0, s)
  | n + 1, s, p =>
    let o := scrambleBit s (p % 2 == 1)
    let r := scramble n (shiftIn s o) (p / 2)
    (bit o + 2 * r.1, r.2)

/-- The matching self-synchronising descrambler: its state holds the last 58 bits received. -/
def descramble : Nat → BitVec 58 → Nat → Nat × BitVec 58
  | 0, s, _ => (0, s)
  | n + 1, s, p =>
    let r := descramble n (shiftIn s (p % 2 == 1)) (p / 2)
    (bit (scrambleBit s (p % 2 == 1)) + 2 * r.1, r.2)

/-- The 66 bits of a block: header 0b01 for data, 0b10 for control, first, then the scrambled payload, each field least
significant bit first (R143). -/
def wireBits (data : Bool) (payload : Nat) : BitVec 66 := BitVec.ofNat 66 ((if data then 1 else 2) + 4 * payload)

/-- Every bit inverted, where TXINV or RXINV says so (R145). -/
def invertIf (inv : Bool) (w : BitVec 66) : BitVec 66 := if inv then ~~~w else w

/-! ## What waits in a transmitter -/

/-- Whether a lane's transmitter is on (R161, R169). -/
def LaneState.transmits : LaneState → Bool
  | .off | .dormant | .retired => false
  | _ => true

/-- What follows the frame under way in a queue: its data blocks and its FRAME_END are dropped. -/
def dropFrame (q : List TxItem) : List TxItem := (q.dropWhile (·.data)).drop 1

/-- A control block joins the queue; an ABORT goes before everything and ends the frame under way (R179). -/
def Lane.queueBlock (x : Lane) (b : Block) : Lane :=
  if blockByte b 0 = 0xE7 then
    { x with txHi := ⟨false, b, x.speed⟩ :: (if x.txOpen = 1 then dropFrame x.txHi else x.txHi),
             txLo := if x.txOpen = 2 then dropFrame x.txLo else x.txLo, txOpen := 0 }
  else { x with txLo := x.txLo ++ [⟨false, b, x.speed⟩] }

/-- A frame joins the queue: a COMMAND frame with AUX = 0 has priority over all but an ABORT (R50, R204). -/
def Lane.queueFrame (x : Lane) (f : RawFrame) : Lane :=
  let q : List TxItem := ⟨false, f.start, x.speed⟩ :: (f.data.map fun b => ⟨true, b, x.speed⟩) ++ [⟨false, f.fend, x.speed⟩]
  if f.start.getLsbD 28 then { x with txLo := x.txLo ++ q } else { x with txHi := x.txHi ++ q }

/-- What the block has given a lane goes into its transmitter, while that is on. -/
def State.queueOutput (s : State) (o : Output) : State :=
  match o with
  | .laneBlock l b => if (s.lane l).state.transmits then s.updLane l fun x => x.queueBlock b else s
  | .laneFrame l f => if (s.lane l).state.transmits then s.updLane l fun x => x.queueFrame f else s
  | _ => s

/-- Everything given since the last time. -/
def State.queueOutputs (s : State) : State :=
  { (s.out.drop s.txSeen).foldl (fun s o => s.queueOutput o) s with txSeen := s.out.length }

/-! ## One block time -/

/-- The FRAME_START of an AUX frame. -/
def isAuxStart (i : TxItem) : Bool := !i.data && blockByte i.b 0 == 0xB2 && i.b.getLsbD 28

/-- Whether the capability exchange is under way: CAPABILITY goes out every 32 blocks (R151). Log entry 55. -/
def Lane.exchanging (x : Lane) : Bool := x.lock && (x.state == .capx || x.state == .wake)

/-- The next block and the lane without it: a FILLER after 2,047 others, the frame under way, CAPABILITY when due, what
waits, else IDLE (R149).  An AUX frame that is `held` does not start. Log entry 55. -/
def Lane.nextBlock (x : Lane) (l : Nat) (held : Bool) : TxItem × Lane :=
  if 2047 ≤ x.txRun then (⟨false, fillerBlock, x.speed⟩, x)
  else
    let hi := (x.txHi, fun r => ({ x with txHi := r } : Lane))
    let lo := (x.txLo, fun r => ({ x with txLo := r } : Lane))
    let q := if x.txOpen = 2 then lo else if x.txOpen = 1 ∨ !x.txHi.isEmpty then hi else lo
    if x.txOpen = 0 ∧ x.exchanging ∧ 31 ≤ x.capRun then (⟨false, x.capBlock l, x.speed⟩, x)
    else match q.1 with
      | i :: r =>
        if held && x.txOpen == 0 && x.txHi.isEmpty && isAuxStart i then (⟨false, idleBlock, x.speed⟩, x)
        else
        let y := q.2 r
        let op := if x.txHi.isEmpty ∨ x.txOpen = 2 then 2 else 1
        (i, { y with txOpen := if i.data then x.txOpen else if blockByte i.b 0 = 0xB2 then op
                               else if blockByte i.b 0 = 0xB9 then 0 else x.txOpen })
      | [] => (⟨false, idleBlock, x.speed⟩, x)

/-- A COMMAND frame of the lane is due before an AUX frame that starts now is through: it waits for at most one block (R50), so the
AUX frame, three blocks and perhaps a FILLER, does not start. Log entry 54. -/
def State.auxHeld (s : State) (l : Nat) : Bool :=
  let x := s.lane l
  let o := s.oct (l / 16)
  x.serving && o.toSend.any fun f => decide (frameAt f.2 o.tl.td < s.now + (4 * blockUnits x.speed + 24) / 25 + 1)

/-- A TIME_MARK with MARK or SET as it leaves: its time of departure is added to the 48 bits that it carries (Table 6-9, R201). -/
def stampBlock (i : TxItem) (dep : BitVec 48) : TxItem :=
  let k := field i.b.toNat 8 4
  if !i.data && blockByte i.b 0 == 0xC4 && (k == 1 || k == 3) then
    { i with b := (BitVec.ofNat 48 (i.b.toNat / 2 ^ 16) + dep) ++ i.b.setWidth 16 }
  else i

/-- What a lane keeps of a block that has left: T1 of its MARK.  An exchange with a timestamp on the bypass oscillator is discarded and
counts as no missing ECHO (R481). -/
def Lane.left (x : Lane) (i : TxItem) (dep : BitVec 48) (bypass : Bool) : Lane :=
  if !i.data && blockByte i.b 0 == 0xC4 && field i.b.toNat 8 4 == 1 && x.marked then
    { x with t1 := if bypass then none else some dep, marked := !bypass }
  else x

/-- The 16th FILLER of an acknowledged STEP has left (R154): the divider changes, the lane hunts at the target, T_STEP runs; a change of
speed aborts an eye scan (R171). -/
def State.turnLane (s : State) (l : Nat) : State :=
  let x := s.lane l
  if x.turning && !x.txLo.any (fun i => !i.data && i.b == fillerBlock) then
    (s.abortEye l).updLane l fun x => { x with
      turning := false, speed := x.target, lock := false, stepAt := s.now, hunts := [], hdrs := [], openF := none }
  else s

/-- A block goes out: scrambled, inverted under TXINV, the runs since the last FILLER and CAPABILITY counted. -/
def State.sendBlock (s : State) (l : Nat) (i : TxItem) (x : Lane) : State :=
  let r := scramble 64 x.scr i.b.toNat
  let is := fun c => !i.data && blockByte i.b 0 == c
  (s.setLane l { x with scr := r.2, txRun := if is 0xA1 then 0 else x.txRun + 1, capRun := if is 0xD3 then 0 else x.capRun + 1 }).emit
    (.wire l (invertIf (s.fld (laneBase l) 3 1 == 1) (wireBits i.data r.1)))

/-- Whether a lane's block times count: WARM, or carrying traffic (Table 16-1). -/
def Lane.counts (x : Lane) : Bool := x.state == .warm || x.serving

/-- One tick of a lane's transmitter: 25 units of the 1/25 tick in which block times are counted; a block leaves at the end of its
block time, and that instant, in 1/256 tick, is its time of departure. Log entry 54. -/
def State.txTick (s : State) (l : Nat) : State :=
  let x := s.lane l
  if !x.state.transmits then s
  else
    let n := x.nextBlock l (s.auxHeld l)
    let acc := x.txAcc + 25
    let u := blockUnits n.1.speed
    if acc < u then s.updLane l fun x => { x with txAcc := acc }
    else
      let dep := BitVec.ofNat 48 (s.now * 256 + (u - x.txAcc) * 256 / 25)
      let s := if x.counts then s.tally n.1.speed 1 else s
      (s.sendBlock l (stampBlock n.1 dep) ({ n.2 with txAcc := acc - u }.left n.1 dep s.clk.bypassTime.isSome)).turnLane l

/-- One tick of every transmitter. -/
def State.transmit (s : State) : State :=
  if s.clk.started then
    let s := s.queueOutputs
    let s := s.lanes.ents.foldl (fun s e => s.txTick e.1) s
    { s with txSeen := s.out.length }
  else s

/-- The ABORT blocks that wait go out at once, before the lanes stop. -/
def State.sendAborts (s : State) : State :=
  let s := s.queueOutputs
  let s := s.lanes.ents.foldl (fun s e => match e.2.txHi with
    | i :: r => if blockByte i.b 0 = 0xE7 then s.sendBlock e.1 i { e.2 with txHi := r } else s
    | [] => s) s
  { s with txSeen := s.out.length }

end Sys2Proof.Machine
end

