-- ==== Sys2Proof/Machine/Truss.lean ====
section
/-! DEFINITION. The Truss link's frames and time transfer (chapter 6): command dispatch, feedback, captures and credits,
MARK and ECHO, aborts and malformed blocks. -/

namespace Sys2Proof.Machine

/-! ## Blocks and frames (R177 to R182) -/

/-- CRC-32C of a frame: FRAME_START and the data blocks in order (R182). -/
def frameCrc (start : Block) (data : List Block) : Word :=
  crc32c (blockBytes start ++ data.flatMap blockBytes)

def frameCrcOk (f : RawFrame) : Bool := frameCrc f.start f.data == BitVec.ofNat 32 (f.fend.toNat / 2 ^ 32)

def frameKind (f : RawFrame) : Nat := blockByte f.start 1
def frameCount (f : RawFrame) : Nat := blockByte f.start 2
/-- AUX, valid only in a COMMAND frame (R180): a frame from a hub that sets it is malformed (DEDUCED, log entry 15). -/
def frameAux (f : RawFrame) : Bool := f.start.getLsbD 28
def frameTag (f : RawFrame) : Word := BitVec.ofNat 32 (f.start.toNat / 2 ^ 32)

/-- A frame sent by the device: FRAME_START with KIND, COUNT, SEQ and AUX, TAG; FRAME_END with the CRC. -/
def mkFrame (kind count seq : Nat) (aux : Bool) (tag : Word) (data : List Block) : RawFrame :=
  let st := blockOf ([0xB2, BitVec.ofNat 8 kind, BitVec.ofNat 8 count, BitVec.ofNat 8 (seq % 16 + 16 * bit aux)]
    ++ leBytes 4 tag.toNat)
  ⟨st, data, blockOf ([0xB9, 0, 0, 0] ++ leBytes 4 (frameCrc st data).toNat)⟩

/-- A command entry of Table 6-4. -/
def entryWord (slot action phase word time : Nat) : Block :=
  BitVec.ofNat 64 (slot * 2 ^ 57 + action * 2 ^ 53 + phase * 2 ^ 49 + word % 2 ^ 16 * 2 ^ 32 + time % 2 ^ 32)

/-- The entry of an action (Table 6-5). -/
def actionEntry (slot : Nat) : Action → Block
  | .hold => entryWord slot 0 0 0 0
  | .insert t => entryWord slot 1 0 0 t
  | .bypass t => entryWord slot 2 0 0 t
  | .pulse t w p => entryWord slot 3 p w t
  | .permBypass t => entryWord slot 5 0 0 t
  | .deblock t => entryWord slot 7 0 0 t
  | .query q => entryWord slot 8 0 0 q.toNat

/-- The edge time that an action carries. -/
def Action.time : Action → Option Nat
  | .insert t | .bypass t | .pulse t _ _ | .permBypass t | .deblock t => some t
  | .hold | .query _ => none

/-- The edges that the hub realises for an action under dither index j (R116, R187). -/
def Action.edges (j : Nat) : Action → List (Nat × Bool)
  | .insert t => [(t, true)]
  | .bypass t | .permBypass t | .deblock t => [(t, false)]
  | .pulse t w p => [(t, true), (realisedTick (t + w) p j, false)]
  | .hold | .query _ => []

/-! ## Counters of a tile -/

/-- A malformed frame, block or entry on a lane (R178, R181): counted in TIL_MALFORM and reported. -/
def State.malformed (s : State) (l : Nat) : State := (s.count (tileBase (l / 2) + 0x31C) 1).raise 0x1802 l []
/-- A frame that fails its CRC-32C (R181). -/
def State.crcError (s : State) (l : Nat) : State := (s.count (tileBase (l / 2) + 0x318) 1).raise 0x1801 l []

/-! ## Frames under assembly (R183) -/

/-- A FRAME_START, or a control block other than FILLER and ABORT, inside an open frame: the frame is discarded and counted.
Log entry 95. -/
def State.breakFrame (s : State) (l : Nat) : State :=
  if (s.lane l).openF.isSome then (s.updLane l fun x => { x with openF := none }).malformed l else s

/-! ## Time lock (R203) -/

/-- TLOCK of a lane clears; on a lane carrying traffic in an active octad TIME_UNLOCK is raised. -/
def State.clearTlock (s : State) (l : Nat) : State :=
  let x := s.lane l
  let s := s.updLane l fun x => { x with tlock := false, good := 0 }
  if x.tlock && x.serving && (s.oct (l / 16)).state.active then s.raise 0x1805 l [] else s

/-! ## Credits (R196, R197) -/

/-- Credits that the free space of a capture ring still allows beside those outstanding, each of five slots (a 264-byte
record with its header). Log entry 9. -/
def State.creditRoom (s : State) (ring : Nat) : Nat :=
  let r := 20 + ring
  if s.ringEn r && !(s.ring r).halt then (s.ringSize r - 1 - (s.ring r).used - s.creditSlots ring) / 5
  else 0

def creditBlock (grant : BitVec 16) : Block := blockOf ([0xC8] ++ leBytes 2 grant.toNat)

/-- After the command frame of a lane: GRANT rises as far as reserved space and 64 outstanding credits allow, and a CREDIT
block is sent when it changed.  Shed by the energy plan it does not rise (how far it rises is a DESIGN CHOICE, log 9). -/
def State.grantCredit (s : State) (l : Nat) : State :=
  let a := tileBase (l / 2) + 0x300
  if s.fld a 8 1 = 0 ∨ s.sheds 5 then s
  else
    let x := s.lane l
    let n := min (64 - x.outstanding) (s.creditRoom (s.fld a 4 4))
    if n = 0 then s
    else
      let g := x.grant + BitVec.ofNat 16 n
      (s.updLane l fun x => { x with grant := g }).emit (.laneBlock l (creditBlock g))

/-- CREDIT_REFRESH: a CREDIT block at least once every 1 ms on a lane that carries a hub's traffic, whatever CAP_EN (R197). -/
def execCreditRefresh (l : Fin 128) (s : State) : Host.Outcome State Fault Refusal :=
  let x := s.lane l
  .next (if x.serving then s.emit (.laneBlock l (creditBlock x.grant)) else s)

/-! ## COMMAND_DISPATCH (R184, R185, R114) -/

/-- The command of a cell in the frame (number and epoch) being dispatched: the selection's when it holds (R592), DEBLOCK in
the frame of a Deblock (R542), otherwise HOLD, whose place a waiting QUERY takes (R204); in debug halt HOLD for every slot
(R137). -/
def State.cellAction (s : State) (n : Nat) (f : Word × Nat) (c : Nat) (selected : Bool) : Action :=
  let x := s.cell c
  let a : Action :=
    match (s.oct n).deb with
    | .armed _ g => if g = f.1 ∧ !x.retired ∧ !(s.oct n).halted then .deblock (s.levelEdge n f.2) else .hold
    | _ => if selected then x.cmd else .hold
  match a with
  | .hold =>
    if (s.oct n).halted then .hold
    else match s.hif.waiting.find? fun w => decide (w.kind = .query n c) with
      | some w => match w.d.body with
        | .cellQuery _ sel => .query sel
        | _ => .hold
      | none => .hold
  | a => a

/-- R114: an edge time outside [L(k), L(k) + T_F) is replaced by HOLD, counted and reported. Log entry 24. -/
def State.packEntry (s : State) (n : Nat) (f : Word × Nat) (c l : Nat) (a : Action) : State × Action :=
  match a.time with
  | none => (s, a)
  | some t =>
    if s.levelEdge n f.2 ≤ t ∧ t < s.levelEdge n f.2 + s.tfTicks then (s, a)
    else ((s.count (tileBase (l / 2) + 0x110) 1).raise 0x1601 (l / 2) (leBytes 2 c), .hold)

/-- The command frame of one hub on the lane that carries it: one entry per populated cell in ascending slot (R78), the
dither index k mod 16 as SEQ, the sample tick of E(k+2) as TAG; the edges are kept for τ (R89, R118). Log entry 24. -/
def State.dispatchHub (s : State) (n : Nat) (f : Word × Nat) (t l : Nat) (selected : Bool) : State :=
  let cs := (s.octCells n).filter fun c => c / 64 = t
  if cs.isEmpty then s
  else
    let j := f.1.toNat % 16
    let r := cs.foldl (fun (p : State × List Block) c =>
      let q := p.1.packEntry n f c l (p.1.cellAction n f c selected)
      let a := q.2
      let ed := a.edges j
      let s := q.1.updCell c fun x => { x with
        edges := x.edges ++ ed,
        cmdq := match a.time, ed.getLast? with
          | some t, some e => x.cmdq ++ [(BitVec.ofNat 32 t, BitVec.ofNat 4 j, e.1)]
          | _, _ => x.cmdq }
      (s, p.2 ++ [actionEntry (c % 64 + 64 * (l % 2)) a])) (s, [])
    let s := (r.1.tally 5 cs.length).emit (.laneFrame l
      (mkFrame 0x01 cs.length j false (BitVec.ofNat 32 (f.2 + 2 * s.tfTicks)) r.2))
    s.grantCredit l

/-- What this dispatch answers to a waiting descriptor: to a DEBLOCK OK in its frame (R542), STATE when its octad has left it
since; to a QUERY OK when its entry goes out, STATE when its hub has no lane (R204); none while it waits on. -/
def State.dispatchAnswer (s : State) (n : Nat) (f : Word × Nat) (selected : Bool) (w : Waiting) : Option Status :=
  let done := if w.late then Status.late else .ok
  match w.kind with
  | .dispatch m =>
    if m ≠ n then none
    else match (s.oct n).deb with
      | .none => some .state
      | .armed _ g => if g = f.1 then some done else none
      | .waitB _ _ => none
  | .query m c =>
    if m ≠ n then none
    else if (s.servingLane (c / 64)).isNone then some .state
    else match s.cellAction n f c selected with
      | .query _ => if (s.hif.waiting.find? fun v => decide (v.kind = .query n c)) = some w then some done else none
      | _ => none
  | _ => none

/-- The descriptors that this dispatch completes, as judged ahead of it; a Deblock takes effect at the epoch of the frame dispatched
(R542), whose number its completion shows. -/
def State.completeDispatched (s : State) (k : Word) (done : List (Waiting × Status)) : State :=
  let s := { s with hif := { s.hif with waiting := s.hif.waiting.filter fun w => !done.any fun d => d.1 == w } }
  done.foldl (fun s w => match w.1.kind with
    | .dispatch _ => s.complete w.1.d w.2 (if w.2 = .ok ∨ w.2 = .late then k else 0) 0
    | _ => s.completeNow w.1.d w.2 0) s

/-- What the frame of a dispatched selection adds to the counters of R85, each of 31 bits with its flag. -/
def State.addCycle (s : State) (n : Nat) : State :=
  s.updOct n fun o => { o with
    liveLB := o.liveLB + o.addLB, liveTR := o.liveTR + o.addTR, liveSW := o.liveSW + o.addSW, liveEX := o.liveEX + o.addEX,
    addLB := 0, addTR := 0, addSW := 0, addEX := 0 }

/-- What an octad keeps of a frame whose command frames have gone out: a Deblock of that frame is done (R542), a retired cell
that got its PERMANENT_BYPASS gets HOLD from now on (R60), a late selection disturbs its interval (R91, the interval of the
frame itself: log entry 72) and counts towards SEL_FENCE (R88). -/
def State.afterDispatch (s : State) (n : Nat) (f : Word × Nat) (selected late : Bool) : State :=
  let s := if selected then
      (s.mapOctCells n fun c => { c with permSent := c.permSent || c.cmd.isPerm, tcAdd := 0 }).addCycle n
    else if late then s.mapOctCells n Cell.dropTc
    else s
  s.updOct n fun o => { o with
    toSend := o.toSend.tail, late := late, selDone := if selected then none else o.selDone, tcDone := o.tcDone && !late,
    disturbed := o.disturbed || (late && f.1 == o.frame), disturbedPrev := o.disturbedPrev || (late && f.1 != o.frame),
    lateRun := if late then o.lateRun + 1 else 0,
    deb := match o.deb with | .armed t g => if g = f.1 then .none else .armed t g | d => d }

/-- COMMAND_DISPATCH: at T_D one COMMAND frame on each lane that carries a hub's traffic.  A selection unfinished at T_D
dispatches HOLD for every slot, SEL_LATE, and after three in a row SEL_FENCE (R43, R88).  Its data bytes hold the cycle of
completion, 400 (R75), when fewer cycles have run by T_D, otherwise 0xFFFF: the watchdog has reset it or will (DEDUCED, log
entry 10). Log entry 10. -/
def execCommandDispatch (n : Fin 8) (s : State) : Host.Outcome State Fault Refusal :=
  let o := s.oct n
  .next (
    if o.state = .unconfigured then s
    else match o.toSend with
    | [] => s
    | f :: _ => s.whenDue (frameAt f.2 o.tl.td) fun s =>
      let late := o.selRunning && o.selFrame == f.1 && o.state.active && !o.halted
      let selected := o.selDone == some f.1 && o.state.active && !o.halted
      let done := s.hif.waiting.filterMap fun w => (s.dispatchAnswer n f selected w).map fun st => (w, st)
      let s := forNat 8 (fun t s => match s.servingLane (8 * n + t) with
        | some l => s.dispatchHub n f (8 * n + t) l selected
        | none => s) s
      let s := (s.completeDispatched f.1 done).afterDispatch n f selected late
      if !late then s
      else
        let slow := !o.selReset && !s.coreRan o.selAt s.now 400
        let data := leBytes 2 (if slow then 400 else 0xFFFF)
        let s := ((s.updOct n fun o => { o with selSlow := slow }).flag (octBase n + 0x2010) 7).raise 0x2301 n data
        if 3 ≤ (s.oct n).lateRun then
          (s.updOct n fun o => { o with lateRun := 0 }).raise 0x2303 n data
        else s)

/-! ## FEEDBACK_FRAME (R42, R181, R190 to R192) -/

/-- A feedback entry of Table 6-7 from its two data blocks: slot, status, voltage, temperature, driver, fault, last edge,
sequence. -/
structure FbEntry where
  slot : Nat
  status : Nat
  v : Nat
  temp : Nat
  driver : Nat
  fault : Nat
  edge : Nat
  seq : Nat
deriving DecidableEq, Repr

def fbEntries : List Block → List FbEntry
  | a :: b :: r =>
    ⟨field a.toNat 0 7, field a.toNat 8 9, field a.toNat 24 16, blockByte a 5, blockByte a 6, blockByte a 7,
     field b.toNat 0 32, field b.toNat 32 4⟩ :: fbEntries r
  | _ => []

/-- No number occurs twice. -/
def distinct : List Nat → Bool
  | [] => true
  | x :: r => !r.contains x && distinct r

/-- R181: the shape of a FEEDBACK frame. Log entry 15. -/
def feedbackShape (f : RawFrame) : Bool :=
  frameKind f == 2 && !frameAux f && decide (1 ≤ frameCount f) && decide (frameCount f ≤ 128) && f.data.length == 2 * frameCount f
    && distinct ((fbEntries f.data).map (·.slot))

/-- Whether an entry names a slot that enumeration has reported on this port (R191). -/
def State.entryKnown (s : State) (l : Nat) (e : FbEntry) : Bool :=
  e.slot / 64 == l % 2 && (s.cell (hubOfLane l * 64 + e.slot % 64)).populated

/-- One entry: the image of its cell; one for a slot that is not populated on this port is discarded and counted (R191). -/
def State.takeEntry (s : State) (l : Nat) (e : FbEntry) : State :=
  let c := hubOfLane l * 64 + e.slot % 64
  if s.entryKnown l e then
    let sampled := e.status % 2 == 1
    s.updCell c fun x => { x with fb := {
      v := if sampled then e.v else x.fb.v, fault := BitVec.ofNat 8 e.fault, status := BitVec.ofNat 9 e.status,
      edge := BitVec.ofNat 32 e.edge, seq := BitVec.ofNat 4 e.seq, fresh := sampled, temp := BitVec.ofNat 8 e.temp,
      driver := BitVec.ofNat 8 e.driver } }
  else s.malformed l

/-- A FEEDBACK frame: judged first by its CRC, then by its shape, then by its TAG (R181, R210): it counts for the frame whose
sample tick it names when it arrives by E(k) + T_FB. -/
def State.feedbackFrame (s : State) (l : Nat) (f : RawFrame) : State :=
  let n := l / 16
  let o := s.oct n
  if !s.alive then s
    else if !frameCrcOk f then s.crcError l
    else if !(s.lane l).serving || !feedbackShape f then s.malformed l
    else
      let tag := frameTag f
      match o.epochs with
      | _ :: _ =>
        if o.toLatch.any fun g => tag = BitVec.ofNat 32 g.2 ∧ s.now ≤ frameAt g.2 o.tl.tfb then
          let es := (fbEntries f.data)
          let known := es.filter fun e => s.entryKnown l e
          let s := es.foldl (fun s e => s.takeEntry l e) s
          let s := { s with tiles := s.tiles.upd (hubOfLane l) fun t => { t with fbSeen := true } }
          let s := if known.any fun e => e.status / 64 % 2 = 1 then s.clearTlock l else s
          if (known.any fun e => e.status / 8 % 2 = 1) && o.state.active then s.raise 0x1804 l [] else s
        else if o.epochs.any fun e => tag = BitVec.ofNat 32 e then s
        else s.malformed l
      | [] => s.malformed l

/-- FEEDBACK_FRAME: a FEEDBACK frame has arrived whole; a frame still open before it is broken off (R183). -/
def execFeedbackFrame (l : Fin 128) (f : RawFrame) (s : State) : Host.Outcome State Fault Refusal :=
  .next ((s.breakFrame l).feedbackFrame l f)

/-! ## CAPTURE_FRAME (R196 to R198) -/

/-- A record of a lane that found no room in its ring is lost, and its lane counts it (R348). Log entry 104. -/
def State.captureLost (s : State) (l : Nat) : State := s.updLane l fun x => { x with capLost := x.capLost.add 32 1 }

/-- A CAPTURE frame: one 256-byte block, written whole into CAP_RING as a 264-byte record into the space that its credit
holds; without credit it is discarded, counted in TIL_CREDERR and reported (R197, R198).  A frame discarded for its CRC or its
shape uses up no credit (DESIGN CHOICE: R196 does not say; log entry 9). -/
def State.captureFrame (s : State) (l : Nat) (f : RawFrame) : State :=
  let a := tileBase (l / 2)
  if !s.alive then s
    else if !frameCrcOk f then s.crcError l
    else if !(s.lane l).serving || !(frameKind f == 3 && !frameAux f && frameCount f == 1 && f.data.length == 32) then s.malformed l
    else if (s.lane l).outstanding = 0 then (s.count (a + 0x320) 1).raise 0x1803 l []
    else
      let s := s.updLane l fun x => { x with taken := x.taken + 1 }
      let r := s.capture (s.fld (a + 0x300) 4 4) 0x05 (leBytes 2 l ++ leBytes 6 s.now ++ f.data.flatMap blockBytes)
      if r.2 then r.1 else s.captureLost l

/-- CAPTURE_FRAME: a CAPTURE frame has arrived whole (R183). -/
def execCaptureFrame (l : Fin 128) (f : RawFrame) (s : State) : Host.Outcome State Fault Refusal :=
  .next ((s.breakFrame l).captureFrame l f)

/-! ## Time transfer (R199 to R203) -/

def markBlock (tkind tseq : Nat) (bytes : List Byte) : Block := blockOf ([0xC4, BitVec.ofNat 8 (tkind + 16 * tseq)] ++ bytes)

/-- T_TM in ticks: 125 µs × 2^TM_PER. -/
def State.tTm (s : State) (l : Nat) : Nat := 50000 * 2 ^ s.fld (tileBase (l / 2) + 0x300) 0 3

/-- MARK: every T_TM on each lane in WARM or ACTIVE, its T1 written as it leaves; the fourth MARK in a row without an ECHO clears TLOCK
(R203).  A MARK counts as without an ECHO when the next one is sent (DESIGN CHOICE: R203 gives no instant, log entry 108). -/
def execMark (l : Fin 128) (s : State) : Host.Outcome State Fault Refusal :=
  let x := s.lane l
  .next (
    if x.state ≠ .active ∧ x.state ≠ .warm then s
    else s.whenDue (if x.markAt = 0 then 0 else x.markAt + s.tTm l) fun s =>
      let un := if x.marked then x.unanswered + 1 else x.unanswered
      let q := x.tseq + 1
      let s := s.updLane l fun x => { x with tseq := q, marked := true, t1 := none, markAt := s.now, unanswered := un }
      let s := s.emit (.laneBlock l (markBlock 1 q.toNat (leBytes 6 0)))
      if 4 ≤ un then s.clearTlock l else s)

/-- d_f and e of R200, and the round trip. -/
def echoDelay (t1 t4 r asym : Int) : Int := (t4 - t1 - r + asym) / 2
def echoError (t1 t2 df : Int) : Int := sext 24 (unsign 24 (t2 - t1 - df))

/-- PHASE and FREQ of R201; the factor of FREQ is 9.765625 × 10^-12 / (16 × 125 µs × 2^p) / 10^-10 = 3125 / (64 × 2^p). -/
def adjPhase (e : Int) : Int := clampI (-8388608) 8388607 (-(rndFrac e 2))
def adjFreq (e : Int) (p : Nat) : Int := clampI (-8388608) 8388607 (rndFrac (-e * 3125) (64 * 2 ^ p))

/-- The exchange under way is discarded, which counts as no missing ECHO (R481). -/
def Lane.dropExchange (x : Lane) : Lane := { x with marked := false, t1 := none }

/-- An ECHO: a completed exchange gives LNK_DELAY, LNK_TERR and TLOCK; on the lane carrying a hub's traffic the device answers
with SET, whose departure is added to d_f as it leaves, or ADJUST (R200, R201, R203).  Another TKIND or TSEQ is ignored. -/
def State.echo (s : State) (l : Nat) (b : Block) (t4 : BitVec 48) : State :=
  let x := s.lane l
  let a := laneBase l
  match x.t1 with
    | none => s
    | some t1 =>
      if blockByte b 0 ≠ 0xC4 ∨ field b.toNat 8 4 ≠ 2 ∨ field b.toNat 12 4 ≠ x.tseq.toNat
          ∨ (x.state ≠ .active ∧ x.state ≠ .warm) then s
      else if s.clk.bypassTime.isSome then s.updLane l Lane.dropExchange
      else
        let r := field b.toNat 16 24
        let t2 := field b.toNat 40 24
        let trip : Int := ((t4 - t1).toNat : Int)
        let df := echoDelay 0 trip r (sext 24 (s.fld (a + 0x20) 0 24))
        let e := echoError (t1.toNat : Int) t2 df
        let p := s.fld (tileBase (l / 2) + 0x300) 0 3
        let still := (s.oct (l / 16)).state.still
        let good := if e.natAbs ≤ 16 then x.good + 1 else 0
        let bad := if 64 < e.natAbs then x.bad + 1 else 0
        let big := if 2 ^ 20 < e.natAbs then x.big + 1 else 0
        let s := s.updLane l fun x => { x with
          marked := false, t1 := none, unanswered := 0, delay := df, delayValid := true, terr := e, exchanges := x.exchanges + 1,
          good := good, bad := bad, big := big, tlock := x.tlock || decide (8 ≤ good) }
        let s := if 2 ≤ bad then s.clearTlock l else s
        if !x.serving then s
        else if !(s.lane l).tlock && still && (x.exchanges == 0 || decide (2 ≤ big)) then
          let s := (s.clearTlock l).updLane l fun x => { x with big := 0 }
          s.emit (.laneBlock l (markBlock 3 x.tseq.toNat (leBytes 6 (unsign 48 df))))
        else s.emit (.laneBlock l (markBlock 4 x.tseq.toNat
          (leBytes 3 (unsign 24 (adjPhase e)) ++ leBytes 3 (unsign 24 (adjFreq e p)))))

/-- ECHO: a TIME_MARK block has arrived (R183). -/
def execEcho (l : Fin 128) (b : Block) (t4 : BitVec 48) (s : State) : Host.Outcome State Fault Refusal :=
  .next ((s.breakFrame l).echo l b t4)

/-! ## ABORT (R178, R179, R183) -/

/-- An ABORT ends an open frame without count; one that is not a valid DISCARD is discarded and counted itself. -/
def State.abortIn (s : State) (l : Nat) (b : Block) : State :=
  let s := s.updLane l fun x => { x with openF := none }
  if blockByte b 0 = 0xE7 ∧ blockByte b 1 = 0x02 ∧ blockByte b 2 = 0xFD then s else s.malformed l

/-- ABORT: an ABORT block has arrived. Log entry 95. -/
def execAbort (l : Fin 128) (b : Block) (s : State) : Host.Outcome State Fault Refusal := .next (s.abortIn l b)

end Sys2Proof.Machine
end

