-- ==== Sys2Proof/Machine/Belfry.lean ====
section
/-! DEFINITION. Belfry (chapter 17): records and their areas, acceptance (chapter 12), merging and repeat notes, life counters,
staging and freeze, failed sectors, tombstones. -/

namespace Sys2Proof.Machine

/-! ## Device time and life counters -/

/-- Whole nanoseconds and seconds of a device time in units of 2^-56 ns (R20, R308). -/
def dtNs (dt : Nat) : Nat := dt / 2 ^ 56 % 1000000000
def dtSec (dt : Nat) : Nat := dt / 2 ^ 56 / 1000000000

/-! ## Records (R513) -/

def recordBody (r : Record) : List Byte :=
  leBytes 4 r.seq.toNat ++ leBytes 4 r.opsec.toNat ++ leBytes 4 r.pcc.toNat ++ leBytes 4 (dtNs r.dt) ++ leBytes 4 (dtSec r.dt)
    ++ leBytes 2 r.code.toNat ++ leBytes 2 r.src.toNat ++ [r.cls, r.rflags] ++ leBytes 2 r.rep ++ leBytes 8 r.first.toNat
    ++ leBytes 8 r.last.toNat ++ r.data

/-- The 64 bytes of Table 17-2. -/
def recordBytes (r : Record) : List Byte := recordBody r ++ leBytes 4 (crc32c (recordBody r)).toNat

/-! ## Repeat notes (R517) -/

/-- Bytes 0 to 15 of a note, and its 24 bytes. -/
def noteBody (n : Note) : List Byte := leBytes 4 n.seq.toNat ++ leBytes 2 n.rep ++ [n.rflags, 0] ++ leBytes 8 n.last.toNat
def noteBytes (n : Note) : List Byte := noteBody n ++ leBytes 4 (crc32c (noteBody n)).toNat ++ [0, 0, 0, 0]

/-- A slot after the first phase of a write: word 0 still reads erased (R511, R517, R519). -/
def tornBytes (bs : List Byte) : List Byte := List.replicate 8 0xFF ++ bs.drop 8

/-- The note of a slot that reads valid. -/
def noteOf (bs : List Byte) : Option Note :=
  let n : Note := ⟨BitVec.ofNat 32 (leAt bs 0 4), leAt bs 4 2, BitVec.ofNat 8 (leAt bs 6 1), BitVec.ofNat 64 (leAt bs 8 8)⟩
  if bs = noteBytes n then some n else none

/-- The valid notes of the area with their slots. -/
def Belfry.noteList (b : Belfry) : List (Nat × Note) := b.notes.ents.filterMap fun e => (noteOf e.2).map fun n => (e.1, n)

/-- The note in force for a SEQ: the valid one of highest REPEAT, and then of latest LAST. -/
def Belfry.noteFor (b : Belfry) (seq : Word) : Option Note :=
  (b.noteList.filter fun e => e.2.seq == seq).foldl (fun a e => match a with
    | none => some e.2
    | some m => if m.rep < e.2.rep ∨ (m.rep = e.2.rep ∧ m.last.toNat ≤ e.2.last.toNat) then some e.2 else a) none

/-- Notes of 24 bytes in a sector of 8 KiB, in the area; the sector of the next note. -/
def notesPerSector : Nat := 341
def noteSlots : Nat := 16 * notesPerSector
def Belfry.noteSector (b : Belfry) : Nat := 108 + b.noteSlot / notesPerSector % 16

/-- Bytes written into the next slot of the area. -/
def Belfry.noteAtEnd (b : Belfry) (bs : List Byte) : Belfry :=
  { b with notes := b.notes.set (b.noteSlot % noteSlots) bs, noteSlot := b.noteSlot + 1 }

/-- A record still held. -/
def Belfry.holds (b : Belfry) (seq : Word) : Bool :=
  (b.sill ++ b.ring).any fun x => match x with | .record r => r.seq == seq | .torn => false

/-- A sector of notes is started: the one after it is erased ahead once it holds notes of an earlier lap, those in force for a
record still held being copied forward first (R517). -/
def Belfry.noteAdvance (b : Belfry) (before : Nat) : Belfry :=
  if b.noteSector = before ∨ b.noteSlot < 15 * notesPerSector then b
  else
    let next := (b.noteSlot / notesPerSector + 1) % 16
    let old := b.noteList.filter fun e => e.1 / notesPerSector == next && b.holds e.2.seq && b.noteFor e.2.seq == some e.2
    let b := old.foldl (fun b e => b.noteAtEnd (noteBytes e.2)) b
    { b with noteErase := some (108 + next) }

/-- A note is written, and due no more. -/
def Belfry.putNote (b : Belfry) (n : Note) (now : Nat) : Belfry :=
  let before := b.noteSector
  let b := (b.noteAtEnd (noteBytes n)).noteAdvance before
  { b with noteDue := b.noteDue.filter fun (m : Note) => m.seq != n.seq, noteAt := b.noteAt.set n.seq.toNat now }

/-- The note of a record is due as the record stands. -/
def Belfry.dueNote (b : Belfry) (r : Record) : Belfry :=
  let n : Note := ⟨r.seq, r.rep, r.rflags, r.last⟩
  if b.noteDue.any fun (m : Note) => m.seq == r.seq then
    { b with noteDue := b.noteDue.map fun (m : Note) => if m.seq = r.seq then n else m }
  else { b with noteDue := b.noteDue ++ [n] }

/-- Nothing is written to SILL, RING or NOTES: frozen, about to be (R521), read-only (R525), or the spare map of a retirement still to
be committed (R523). -/
def Belfry.stopped (b : Belfry) : Bool :=
  b.frozen.isSome || b.freezing || b.readOnly || b.writes.any fun w => w.part == .spmap

/-- The NVM can be written: the main device runs, or shuts down in order. -/
def State.nvmOn (s : State) : Bool := s.alive || s.bel.shut != 0

/-- Whether a note can be written now: its sector has been erased, and nothing holds the area back. -/
def State.canNote (s : State) : Bool :=
  !s.bel.stopped && !s.nvmHeld && s.nvmOn && s.bel.noteErase != some s.bel.noteSector && !s.bel.reErase.contains s.bel.noteSector

/-! ## Acceptance, merging, staging (R374, R375, R377, R401, R515, R516, R520) -/

def sameEvent (a b : Record) : Bool :=
  a.code == b.code && a.src == b.src && a.cls == b.cls && a.data.take 8 == b.data.take 8

/-- REPEAT rises and stops at 65,535 with RFLAGS[0]; LAST is the new occurrence. -/
def Record.merge (r : Record) (last : Tick) : Record :=
  { r with rep := min (r.rep + 1) 65535, last := last, rflags := if 65534 ≤ r.rep then r.rflags ||| 1 else r.rflags }

/-- An NVM_SECTOR_RETIRE of a record area, which goes before every other record (R523). -/
def Record.goesFirst (r : Record) : Bool := r.code == 0x3802 && decide (74 ≤ r.src.toNat) && decide (r.src.toNat < 128)

/-- Belfry takes an accepted record: it merges into the newest one (R516), or is staged, or is lost when staging is full
or Belfry read-only.  Copies of the fall-back record never merge.  NVM_SECTOR_RETIRE of a record area goes first, in a place of its own
(R523). Log entry 18. -/
def State.belfryAccept (s : State) (r : Record) (mergeable : Bool) : State :=
  let b := s.bel
  match (if mergeable then b.newest.filter (sameEvent r) else none) with
  | some n =>
    let m := n.merge r.last
    let b := { b with newest := some m }
    if b.newestWritten then
      { s with bel := if m.rep ≠ n.rep ∨ b.noteDue.any (fun d => d.seq == m.seq) then b.dueNote m else b }
    else { s with bel := { b with staging := b.staging.map fun x => if x.seq = n.seq then m else x } }
  | none =>
    if b.readOnly || (decide (128 ≤ b.staging.length) && !r.goesFirst) then
      ({ s with bel := { b with lost := b.lost.add 31 1, lostSince := satAdd 32 b.lostSince 1 } }).count 0x500014 1
    else
      { s with bel := { b with newest := some r, newestWritten := false,
                               staging := if r.goesFirst then r :: b.staging else b.staging ++ [r] } }

/-- A note written at once, with what is copied forward: three words each (R487, R517). -/
def State.writeNote (s : State) (n : Note) : State :=
  let b := s.bel.putNote n s.now
  { s.tally 15 (3 * (b.noteSlot - s.bel.noteSlot)) with bel := b }

/-- A record that stops being the newest has its due note written at once (R517). -/
def State.settleNewest (s : State) : State :=
  match s.bel.newest.bind fun r => s.bel.noteDue.find? fun n => n.seq == r.seq with
  | some n => if s.canNote then s.writeNote n else s
  | none => s

/-- A record into Belfry; the record that stops being the newest has its due note written first (R516, R517). -/
def State.storeRecord (s : State) (r : Record) (mergeable : Bool) : State :=
  let merges := mergeable && (s.bel.newest.filter (sameEvent r)).isSome
  (if merges then s else s.settleNewest).belfryAccept r mergeable

/-- The sequence number after n, stopping at 0xFFFF_FFFF (R374). -/
def nextSeq (n : Word) : Word := BitVec.ofNat 32 (satAdd 32 n.toNat 1)

/-- Reports whose sequence number a later record may still name: openers of windows, causes of waiting reports. -/
def Collector.named (f : Collector) (id : Nat) : Bool :=
  f.windows.any (fun w => w.opener == id) || f.queues.ents.any fun e => e.2.any fun r => r.cause == id

/-- The 16 data bytes of a record (Table 12-2): detail, then the causing record's number where bit [5] or [7] is set. -/
def Collector.recordData (f : Collector) (r : Report) : List Byte :=
  if 8 < r.data.length then r.data.take 16
  else data8 r.data ++ leBytes 4 (if r.cons || r.persisted then (f.seqOf.get r.cause).toNat else 0) ++ [0, 0, 0, 0]

/-- The class of a report at its acceptance: by the map of the set in force, where that took effect after the report was made or on
its tick (R449, Table 14-8). -/
def State.acceptedClass (s : State) (r : Report) : FClass :=
  match s.ps.appliedAt with
  | some t => if r.tick.toNat ≤ t then (s.faultParams r.code.toNat).1 else r.cls
  | none => r.cls

/-- One report accepted: numbered, entered in the active table under that number, posted, stored. -/
def State.accept (s : State) (r : Report) : State :=
  let q := nextSeq s.flt.seq
  let cls := s.acceptedClass r
  let cb := classByte cls (if cls = r.cls then r.notice else isNotice r.code.toNat cls) r.faultN r.persisted false r.cons
  let data := s.flt.recordData r
  let seqOf := s.flt.seqOf.set r.id q
  let f := s.flt
  let s := { s with flt := { f with
    seq := q
    seqOf := { seqOf with ents := seqOf.ents.filter fun e => f.named e.1 }
    table := f.table.map fun (a : Active) => if a.id = r.id then { a with seq := q } else a } }
  let s := if r.evt then s.postEvent cb r.code r.src q (r.tick.setWidth 32) else s
  s.storeRecord (s.recordOf q r.code r.src cb (if r.code = 0x3806 then 4 else 0) r.dt r.tick data) true

/-- A report of Belfry's own that goes ahead of what waits in the collector's queues: raised, and accepted at once; in charge, the
fall-back collector merges it (R396, R520, R523). Log entry 18. -/
def State.raiseNow (s : State) (code src : Nat) (data : List Byte) : State :=
  let old := s.flt.queues
  let s := ({ s with flt := { s.flt with queues := .empty [] } }).raise code src data
  let mine := (s.flt.queues.get 2).filter fun r => r.code.toNat == code
  let more := s.flt.queues.ents.flatMap fun e => e.2.filter fun r => r.code.toNat != code
  let s := more.foldl State.enqueue { s with flt := { s.flt with queues := old } }
  mine.foldl State.accept s

/-- BEL_EVENTS_LOST as soon as the staging queue has room again (R520). Log entry 18. -/
def State.insertLost (s : State) : State :=
  let b := s.bel
  if b.lostSince = 0 ∨ b.readOnly ∨ 128 ≤ b.staging.length ∨ s.flt.fallback then s
  else ({ s with bel := { b with lostSince := 0 } }).raiseNow 0x3806 0 (leBytes 4 b.lostSince)

/-! ## Sectors, spares, read-only (R523 to R526) -/

/-- The physical sector that serves a logical one under the spare map. -/
def mapSector (m : List (Nat × Nat)) : Nat → Nat → Nat
  | 0, p => p
  | k + 1, p => match m.find? fun e => e.1 == p && e.2 != 0xFFFF with
    | some e => mapSector m k e.2
    | none => p

def State.phys (s : State) (sector : Nat) : Nat := mapSector s.bel.spmap 12 sector

/-- The words of a tombstone (Table 17-3), CRC included. -/
def State.tombBytes (s : State) (reason sector : Nat) : List Byte :=
  let b := leBytes 2 0xA5B7 ++ [BitVec.ofNat 8 reason, 0] ++ leBytes 4 s.bel.pcc ++ leBytes 4 s.opsecNow
    ++ leBytes 4 s.bel.lastSeq.toNat ++ leBytes 4 s.bel.lost.n ++ leBytes 4 (dtSec s.time.dt) ++ leBytes 2 sector ++ [0, 0]
  b ++ leBytes 4 (crc32c b).toNat

def wordsOf (bs : List Byte) : Nat → List Word
  | 0 => []
  | n + 1 => BitVec.ofNat 32 (leNat (bs.take 4)) :: wordsOf (bs.drop 4) n

/-- The slot that a new tombstone takes (R526): the lowest free one, else the one of lowest PCC and then lowest OPSEC. -/
def State.tombSlot (s : State) : Nat :=
  match (List.range 16).find? fun i => (s.bel.tombs.get i).isNone with
  | some i => i
  | none =>
    let key := fun i => match s.bel.tombs.get i with
      | some t => ((t.words[1]?).getD 0).toNat * 2 ^ 32 + ((t.words[2]?).getD 0).toNat
      | none => 0
    ((List.range 16).foldl (fun best i => if key i < key best then i else best) 0)

/-- A tombstone into hold-domain SRAM; lost while VHOLD is out of range (Table 17-4). -/
def State.writeTomb (s : State) (reason sector : Nat) : State :=
  if !s.bel.vhold then s
  else { s with bel := { s.bel with tombs := s.bel.tombs.set s.tombSlot (some ⟨wordsOf (s.tombBytes reason sector) 8, false⟩) } }

/-- R525: no spare is left: an SPMAP entry with spare 0xFFFF, nothing more written, the tombstone, BEL_READONLY. -/
def State.becomeReadOnly (s : State) (sector : Nat) : State :=
  let s := ({ s with bel := { s.bel with readOnly := true, spmap := s.bel.spmap ++ [(sector, 0xFFFF)] } }).saveTable .spmap
  (s.writeTomb 0x01 sector).raise 0x3803 sector []

/-- The area of a logical sector: 0 SILL, RING or NOTES; 1 FW0 to CSAVE; 2 COUNT or SPMAP. -/
def sectorArea (sector : Nat) : Nat :=
  if 74 ≤ sector ∧ sector < 124 then 0 else if sector = 70 ∨ sector = 71 ∨ sector = 72 ∨ sector = 73 then 2 else 1

/-- First sector of the partition that holds a sector (Table 17-1). -/
def partStart (sector : Nat) : Nat :=
  [16, 32, 34, 43, 52, 54, 60, 70, 72, 74, 90, 108, 124, 128, 136].foldl (fun a b => if b ≤ sector then b else a) 0

/-! ## The sector being written (R515, R517, R523) -/

/-- Slots of the sill's and the ring's sectors: 128 records of 64 bytes in 8 KiB. -/
def slotsPerSector : Nat := 128

/-- Whether the writer is in the sill. -/
def Belfry.inSill (b : Belfry) : Bool := decide (b.sill.length < 16 * slotsPerSector)

/-- The logical sector of the next slot. -/
def Belfry.nextSector (b : Belfry) : Nat := if b.inSill then 74 + b.sill.length / slotsPerSector else 90 + b.ringSector

/-- The slots used so far of the sector that is being written, or has just been filled. -/
def Belfry.sectorSlots (b : Belfry) (sector : Nat) : List Slot :=
  if sector < 90 then (b.sill.drop (slotsPerSector * (sector - 74))).take slotsPerSector
  else if sector = 90 + b.ringSector then b.ring.drop (b.ring.length - b.ringSlot)
  else []

def Slot.valid (x : Slot) : Bool := x != .torn

/-- The notes of a sector, valid and torn. -/
def Belfry.notesIn (b : Belfry) (sector : Nat) : List (List Byte) :=
  (b.notes.ents.filter fun e => 108 + e.1 / notesPerSector == sector && !e.2.isEmpty).map (·.2)

/-- Valid and unreadable records or notes of a sector (R523); an erased one holds none. -/
def Belfry.sectorCounts (b : Belfry) (sector : Nat) : Nat × Nat :=
  if 108 ≤ sector then
    let l := b.notesIn sector
    (l.countP fun bs => (noteOf bs).isSome, l.countP fun bs => (noteOf bs).isNone)
  else
    let l := b.sectorSlots sector
    (l.countP Slot.valid, l.countP fun x => !x.valid)

/-- A sector rewritten into its spare: only what reads valid is there, and the writer goes on behind it (R523). -/
def Belfry.compact (b : Belfry) (sector : Nat) : Belfry :=
  if 108 ≤ sector then
    let base := (sector - 108) * notesPerSector
    let good := (b.notesIn sector).filter fun bs => (noteOf bs).isSome
    let here := b.noteSector = sector
    let kept : Tab (List Byte) := { b.notes with ents := b.notes.ents.filter fun e => e.1 / notesPerSector != sector - 108 }
    { b with notes := good.zipIdx.foldl (fun t e => t.set (base + e.2) e.1) kept
             noteSlot := if here then b.noteSlot / notesPerSector * notesPerSector + good.length else b.noteSlot }
  else
    let good := (b.sectorSlots sector).filter Slot.valid
    if sector < 90 then { b with sill := b.sill.take (slotsPerSector * (sector - 74)) ++ good }
    else if sector = 90 + b.ringSector then { b with ring := b.ring.take (b.ring.length - b.ringSlot) ++ good, ringSlot := good.length }
    else b

/-! ## Retirement (R511, R523 to R525) -/

/-- A write whose copy loses a sector for good is handled as if it were torn (R524): SPMAP goes on in its other copy, where that is
left. -/
def Belfry.loseSector (b : Belfry) (sector : Nat) : Belfry :=
  let goes := fun (w : PartWrite) => w.todo.contains sector && (w.part != .spmap || b.dead.contains (145 - sector))
  let torn := (b.writes.filter fun w => w.todo.contains sector).foldl (fun b w => b.setCopy w.part w.second .torn) b
  { torn with writes := (b.writes.filter fun w => !goes w).map fun w =>
      if w.todo.contains sector then { w with second := !w.second, todo := [145 - sector] } else w }

/-- COUNT and SPMAP go on with the sector that is left (R524). -/
def Belfry.retireTable (b : Belfry) (sector : Nat) : Belfry :=
  let b := { b with dead := b.dead ++ [sector] }
  if 72 ≤ sector then b.loseSector sector
  else
    let other := 141 - sector
    { b with countIn := other - 70
             countErase := if b.dead.contains other then none else if b.countErase = some sector then some other else b.countErase }

/-- The retirement of a failed sector: a spare of its area takes its place, or the area goes on without one. -/
def State.retireSector (s : State) (logical : Nat) : State :=
  let b := s.bel
  let p := s.phys logical
  if sectorArea logical = 0 then
    if b.bspares < 4 then
      let sp := 124 + b.bspares
      let c := b.sectorCounts logical
      (({ s.tally 15 ((if 108 ≤ logical then 3 else 8) * c.1) with
          bel := ({ b with bspares := b.bspares + 1, spmap := b.spmap ++ [(p, sp)] } : Belfry).compact logical }).saveTable
        .spmap).raiseNow 0x3802 p (leBytes 2 sp ++ leBytes 2 c.1 ++ leBytes 2 c.2)
    else s.becomeReadOnly p
  else if sectorArea logical = 1 ∧ b.gspares < 8 then
    let sp := 128 + b.gspares
    (({ s with bel := { b with gspares := b.gspares + 1, spmap := b.spmap ++ [(p, sp)] } }).saveTable .spmap).raise 0x3802 p
      (leBytes 2 sp)
  else
    ({ s with bel := if sectorArea logical = 1 then b.loseSector logical else b.retireTable logical }).raise 0x3809 (partStart logical) []

/-- A failed verification: NVM_VERIFY (R511); a reaction map that raises it to RETIRE retires the sector at once (R378, R384). -/
def State.verifyFail (s : State) (logical : Nat) : State :=
  let p := s.phys logical
  let cls := (s.faultParams 0x3801).1
  let acts := decide (2 ≤ cls.code) && (s.coveredBy 0x3801 p cls false).isNone
  let s := s.raise 0x3801 p []
  if acts then s.retireSector logical else s

/-- Whether a sector that stood at a physical place has been retired since. -/
def State.retiredFrom (s : State) (logical p : Nat) : Bool := s.phys logical != p || s.bel.readOnly || s.bel.dead.contains logical

/-- A failed verification, the n-th before it of one operation having failed too: the third retires the sector (R511). -/
def State.failOnce (s : State) (logical n : Nat) : State :=
  let p := s.phys logical
  let t := s.verifyFail logical
  if 2 ≤ n ∧ !t.retiredFrom logical p then t.retireSector logical else t

/-- The failed verifications of one erase: each is repeated on the same sector until that is retired. -/
def State.eraseFails (s : State) (logical : Nat) : Nat → State
  | 0 => s
  | k + 1 =>
    let p := s.phys logical
    let r := s.eraseFails logical k
    if r.retiredFrom logical p then r else r.failOnce logical k

/-! ## RECORD_WRITE (R514, R515, R523) -/

/-- The writer starts the next ring sector when that is ready: the records of the sector after it stop being held and its
erase begins (R515); not while the record areas are frozen or read-only. -/
def Belfry.ringAdvance (b : Belfry) : Belfry :=
  if b.ringSlot < slotsPerSector ∨ !b.ringReady ∨ b.frozen.isSome ∨ b.freezing ∨ b.readOnly then b
  else
    let next := (b.ringSector + 1) % 18
    { b with ringSector := next, ringSlot := 0, ringReady := false, erasing := some (90 + (next + 1) % 18),
             ring := if 17 * slotsPerSector ≤ b.ring.length then b.ring.drop slotsPerSector else b.ring }

/-- Whether the next record's slot can be written now (R515, R521, R525, R529). -/
def State.canWrite (s : State) : Bool :=
  !s.bel.stopped && !s.nvmHeld && s.nvmOn && (s.bel.inSill || decide (s.bel.ringSlot < slotsPerSector))

/-- One slot of the area used. -/
def Belfry.push (b : Belfry) (x : Slot) : Belfry :=
  if b.inSill then { b with sill := b.sill ++ [x] } else { b with ring := b.ring ++ [x], ringSlot := b.ringSlot + 1 }

/-- A record in its slot. -/
def Belfry.putRecord (b : Belfry) (r : Record) : Belfry :=
  { (b.push (.record r)).ringAdvance with
      lastSeq := r.seq, newestWritten := b.newestWritten || decide ((b.newest.map (·.seq)) = some r.seq) }

/-- A record that could not be written waits at the head of the staging queue. -/
def State.restage (s : State) (r : Record) : State := { s with bel := { s.bel with staging := r :: s.bel.staging } }

/-- The write of a record of which so many attempts fail, and so many have failed already: each leaves a torn slot and is repeated in
the next erased slot of the sector; the third retires it, and the record is then written after the copies (R511, R523). -/
def State.attempt (r : Record) : Nat → Nat → State → State
  | 0, _, s => if s.canWrite then { s.tally 15 8 with bel := s.bel.putRecord r } else s.restage r
  | k + 1, n, s =>
    if !s.canWrite then s.restage r
    else
      let sec := s.bel.nextSector
      let p := s.phys sec
      let s := ({ s.tally 15 8 with bel := s.bel.push .torn }).failOnce sec n
      if s.retiredFrom sec p then s.restage r
      else State.attempt r k (n + 1) { s with bel := s.bel.ringAdvance }

/-- Writes the head of the staging queue, after `fails` failed verifications of its write. -/
def State.writeRecord (s : State) (fails : Nat) : State :=
  match s.bel.staging with
  | [] => s
  | r :: rest => if !s.canWrite then s else State.attempt r fails 0 { s with bel := { s.bel with staging := rest } }

/-- Deferrable work waits for the budget of its epoch (R52, R493). -/
def State.defers (s : State) : Bool := s.epl.defer

/-- A flush is over once the staging queue is empty (R522). -/
def State.endFlush (s : State) : State := { s with bel := { s.bel with flush := s.bel.flush && !s.bel.staging.isEmpty } }

/-- RECORD_WRITE: deferrable work (R52), essential in a flush (R522): a staged record is written to its slot in two phases. -/
def execRecordWrite (fails : Fin 4) (s : State) : Host.Outcome State Fault Refusal :=
  .next (if s.defers && !s.bel.flush then s else (s.writeRecord fails).insertLost.endFlush)

/-- The staging queue written out at once (R522, R528). -/
def State.flushStaging : Nat → State → State
  | 0, s => s
  | k + 1, s => if s.bel.staging.isEmpty || !s.canWrite then s else State.flushStaging k (s.writeRecord 0)

/-! ## NOTE_WRITE (R517) -/

/-- The write of a due note, in the manner of a record's. -/
def State.noteAttempt (n : Note) : Nat → Nat → State → State
  | 0, _, s => if s.canNote then s.writeNote n else s
  | k + 1, j, s =>
    if !s.canNote then s
    else
      let sec := s.bel.noteSector
      let p := s.phys sec
      let s := ({ s.tally 15 3 with bel := (s.bel.noteAtEnd (tornBytes (noteBytes n))).noteAdvance sec }).failOnce sec j
      if s.retiredFrom sec p then s else State.noteAttempt n k (j + 1) s

/-- NOTE_WRITE: a due repeat note, at most once per second per record while that is the newest; deferrable work. -/
def execNoteWrite (seq : Word) (fails : Fin 4) (s : State) : Host.Outcome State Fault Refusal :=
  let b := s.bel
  .next (match b.noteDue.find? fun n => n.seq == seq with
    | none => s
    | some n =>
      if !s.canNote || s.defers then s
      else
        let due := if (b.newest.map (·.seq)) = some seq ∧ b.noteAt.get seq.toNat ≠ 0 then b.noteAt.get seq.toNat + secTicks else 0
        s.whenDue due fun s => State.noteAttempt n fails 0 s)

/-! ## Erases (R511, R515, R517, R519, R524, R529) -/

/-- The sectors that are being erased, or wait for another erase. -/
def Belfry.erases (b : Belfry) (sector : Nat) : Bool :=
  b.erasing == some sector || b.noteErase == some sector || b.countErase == some sector || b.reErase.contains sector
    || b.writes.any fun w => w.todo.contains sector

/-- An erase of the record areas is under way (R521). -/
def Belfry.erasesNow (b : Belfry) : Bool := b.erasing.isSome || b.noteErase.isSome

/-- A sector of COUNT reads erased. -/
def Belfry.clearCount (b : Belfry) (sector : Nat) : Belfry :=
  { b with counts := { b.counts with ents := b.counts.ents.filter fun e => 70 + e.1 / 512 != sector }, countErase := none }

/-- A sector of NOTES reads erased. -/
def Belfry.clearNotes (b : Belfry) (sector : Nat) : Belfry :=
  { b with notes := { b.notes with ents := b.notes.ents.filter fun e => 108 + e.1 / notesPerSector != sector } }

/-- A sector has been erased and verified: the ring sector ahead is ready, a sector of notes or of COUNT may be written again, a sector
marked for re-erase is marked no more, one copy of a partition has a sector less to erase and is torn until it is written. -/
def Belfry.erased (b : Belfry) (sector : Nat) : Belfry :=
  let ahead := sector == 90 + (b.ringSector + 1) % 18
  let mine := fun (w : PartWrite) => w.todo.contains sector
  let b := if b.countErase = some sector then b.clearCount sector else b
  let b := if b.noteErase = some sector ∨ (b.reErase.contains sector ∧ 108 ≤ sector ∧ sector < 124) then b.clearNotes sector else b
  let b := (b.writes.filter mine).foldl (fun b w => b.setCopy w.part w.second .torn) b
  ({ b with erasing := if b.erasing = some sector then none else b.erasing
            noteErase := if b.noteErase = some sector then none else b.noteErase
            ringReady := b.ringReady || ahead
            reErase := b.reErase.filter (· != sector)
            writes := b.writes.map fun w => if mine w then { w with todo := w.todo.filter (· != sector) } else w } : Belfry).ringAdvance

/-- A SHUT crossing aborts an erase under way; the sector is marked for re-erase (R529). -/
def State.abortErase (s : State) : State :=
  let b := s.bel
  let on := (match b.erasing with | some x => [x] | none => []) ++ (match b.noteErase with | some x => [x] | none => [])
  { s with bel := { b with erasing := none, noteErase := none, reErase := b.reErase ++ on.filter fun x => !b.reErase.contains x } }

/-! ## Life counters (R519) -/

/-- Entries of 16 bytes in a sector of 8 KiB; the 16 bytes of an entry. -/
def countSlots : Nat := 512
def countBody (opsec pcc : Nat) (opsecSat pccSat : Bool) : List Byte :=
  leBytes 4 opsec ++ leBytes 4 pcc ++ [BitVec.ofNat 8 (bit opsecSat + 2 * bit pccSat), 0, 0, 0]
def countBytes (opsec pcc : Nat) (opsecSat pccSat : Bool) : List Byte :=
  countBody opsec pcc opsecSat pccSat ++ leBytes 4 (crc32c (countBody opsec pcc opsecSat pccSat)).toNat

/-- An entry whose CRC matches. -/
def countValid (bs : List Byte) : Bool := bs.length == 16 && leAt bs 12 4 == (crc32c (bs.take 12)).toNat

/-- The slots used of a sector of COUNT. -/
def Belfry.countUsed (b : Belfry) (sector : Nat) : List (List Byte) :=
  (b.counts.ents.filter fun e => e.1 / countSlots == sector && !e.2.isEmpty).map (·.2)

/-- The valid entry last in writing order. -/
def Belfry.countInForce (b : Belfry) : Option (List Byte) :=
  ((b.countUsed (1 - b.countIn) ++ b.countUsed b.countIn).filter countValid).getLast?

/-- Bytes into the next slot of COUNT; when that fills its sector, the other one is erased next, and used. -/
def Belfry.putCount (b : Belfry) (bs : List Byte) : Belfry :=
  let n := (b.countUsed b.countIn).length
  let b := { b with counts := b.counts.set (countSlots * b.countIn + n) bs }
  if n + 1 < countSlots then b
  else
    let next := if b.dead.contains (71 - b.countIn) then b.countIn else 1 - b.countIn
    { b with countIn := next, countErase := some (70 + next) }

/-- Whether COUNT can take an entry: a sector is left, and it is not full. -/
def Belfry.countOpen (b : Belfry) : Bool := b.countErase.isNone && !(b.dead.contains 70 && b.dead.contains 71)

/-- A COUNT entry with the counts as they stand. -/
def State.writeCount (s : State) : State :=
  let sat := s.bel.opsecSat || decide (s.opsecNow = 2 ^ 32 - 1)
  let b := { s.bel with countAt := s.now, opsecSat := sat }
  if b.countOpen then { s.tally 15 2 with bel := b.putCount (countBytes s.opsecNow b.pcc sat b.pccSat) } else { s with bel := b }

/-- COUNT_ENTRY: every 360 s of operation, as deferrable work. -/
def execCountEntry (s : State) : Host.Outcome State Fault Refusal :=
  .next (s.whenDue (s.bel.countAt + 360 * secTicks) fun s =>
    if s.nvmHeld || !s.alive || s.defers || !s.bel.countOpen then s else s.writeCount)

/-! ## Freeze and thaw (R521, R522) -/

def State.thaw (s : State) : State :=
  (State.flushStaging 129 { s with bel := ({ s.bel with frozen := none, flush := true } : Belfry).ringAdvance }).insertLost.endFlush

/-- BEL_FREEZE with byte 8 = 1: it completes once the freeze has taken effect, after the erase under way; frozen already, it
completes and the timer runs on. -/
def State.doBelFreeze (s : State) : State × Option Status :=
  if s.bel.frozen.isSome then (s, some .ok)
  else if s.bel.erasesNow then ({ s with bel := { s.bel with freezing := true } }, none)
  else ({ s with bel := { s.bel with frozen := some s.now } }, some .ok)

/-- BEL_FREEZE with byte 8 = 0; on the tick of a self-thaw there is one thaw and no BEL_THAW (Table 17-4). -/
def State.doBelfryThaw (s : State) : State × Status × Nat :=
  let s := { s with bel := { s.bel with thawAt := none } }
  (match s.bel.frozen with
    | some _ => s.thaw
    | none => s, .ok, 0)

/-- BEL_THAW: 500 ms after the freeze took effect Belfry thaws by itself. -/
def execBelThaw (s : State) : Host.Outcome State Fault Refusal :=
  .next (match s.bel.frozen with
    | some t => s.whenDue (t + 200000000) fun s => ({ s with bel := { s.bel with thawAt := some s.now } }).thaw
    | none => s)

/-- At the end of the tick of a self-thaw BEL_THAW is raised (R522). -/
def State.tellThaw (s : State) : State :=
  match s.bel.thawAt with
  | some _ => ({ s with bel := { s.bel with thawAt := none } }).raise 0x3807 0 []
  | none => s

/-! ## BEL_READ (R518) -/

def slotRecords (l : List Slot) : List Record := l.filterMap fun
  | .record r => some r
  | .torn => none

def insertRec (r : Record) : List Record → List Record
  | [] => [r]
  | x :: l => if r.seq.toNat ≤ x.seq.toNat then r :: x :: l else x :: insertRec r l

/-- The records of an area in ascending SEQ, each with its note in force. -/
def Belfry.held (b : Belfry) (area : Nat) : List Record :=
  ((slotRecords (if area = 0 then b.sill else b.ring)).foldr insertRec []).map fun r =>
    match b.noteFor r.seq with
    | some n => { r with rep := n.rep, rflags := n.rflags, last := n.last }
    | none => r

/-- BEL_READ: the records as host data, or REFUSED when they are not all held. -/
def State.doBelRead (s : State) (addr : BitVec 64) (area first count : Nat) : State × Status × Nat :=
  let l := s.bel.held area
  if l.length < first + count then (s, .refused, 0)
  else (s.emit (.hostWrite addr (((l.drop first).take count).flatMap recordBytes)), .ok, 0)

/-! ## TOMB_CLR (R526) -/

/-- TOMB_CLR written as 1: tombstones clear in the slots already reported (R526). -/
def State.clearTombs (s : State) : State :=
  { s with bel := { s.bel with tombs := s.bel.tombs.mapAll fun _ t => t.filter fun x => !x.reported } }

end Sys2Proof.Machine
end

