-- ==== Sys2Proof/Machine/Faults.lean ====
section
/-! DEFINITION. The fault collector (chapter 12): acceptance of reports, consequential windows, FAULT_N, clearing and
release, the fall-back collector, memory errors. -/

namespace Sys2Proof.Machine

/-! ## Acceptance of a report (R374, R375, R377, R401) -/

/-- The report that caused a record still waits in a queue, so that it has no number yet. -/
def Collector.causeWaits (f : Collector) (r : Report) : Bool :=
  (r.cons || r.persisted) && f.queues.ents.any fun e => e.2.any fun x => x.id == r.cause

/-- Takes the head of the queue of one level.  A record that names its cause waits until the cause, in another queue, has its number
(R391). Log entry 97. -/
def State.acceptHead (s : State) (level : Nat) : State :=
  match s.flt.queues.get level with
  | [] => s
  | r :: rest =>
    if s.flt.causeWaits r then s
    else ({ s with flt := { s.flt with queues := s.flt.queues.set level rest } }).accept r

/-- FLT_DROP for a queue that has room again, as soon as its own queue, the device level's, has room (R394). Log entry 97. -/
def State.insertDrop (s : State) (level : Nat) : State :=
  let d := s.flt.dropped.get level
  if d = 0 ∨ 32 ≤ (s.flt.queues.get level).length ∨ 32 ≤ (s.flt.queues.get 2).length then s
  else ({ s with flt := { s.flt with dropped := s.flt.dropped.set level 0 } }).raise 0x3103 (level + 1) (leBytes 4 d)

/-- FAULT_REPORT: the collector takes the head of every non-empty queue, once on a tick; what it takes then is numbered in
ascending order of level, and no two of one level (R374, R394).  The fall-back collector, in charge, takes none (R396).
Log entry 97. -/
def execFaultReport (s : State) : Host.Outcome State Fault Refusal :=
  .next (
    if s.flt.fallback || !s.alive || (s.clk.started && s.flt.takenAt == some s.tick) then s
    else
      let s := ({ s with flt := { s.flt with takenAt := some s.tick } }).insertLost
      forNat 4 (fun l s => s.insertDrop l) (forNat 4 (fun l s => s.acceptHead l) s))

/-! ## Conditions (R402) -/

/-- Both channels of Kingpost as the main device sees them. -/
def Kingpost.any (k : Kingpost) (f : KpChan → Bool) : Bool := f k.a || f k.b

def TripCauses.any (c : TripCauses) : Bool := c.pair || c.sbk || c.backup || c.test || c.power

/-- The tile, octad and device sensors by code (Tables 16-x of the thermal faults): tile t is sensor t, octad n is 64 + n,
device sensors are 72 to 75 under their own number. -/
def sensorOf (code src : Nat) : Nat :=
  if code / 0x100 = 0x26 then 64 + src else src

/-- Whether the detector of a code reports its condition present now; a detector of a single event never does (R402). -/
def State.conditionPresent (s : State) (code src : Nat) : Bool :=
  let sn := s.sensors.get (sensorOf code src)
  if 0x3400 ≤ code ∧ code < 0x3410 then (s.trips.get (code - 0x3400)).latch
  else match code with
  | 0x1501 => (s.cell src).notice.crossed
  | 0x1502 => (s.cell src).retireTh.crossed
  | 0x1804 => (s.cells.ents.any fun e => e.1 / 64 == hubOfLane src && e.2.populated && e.2.fb.status.getLsbD 3)
  | 0x1805 => (s.lane src).serving && !(s.lane src).tlock
  | 0x1901 | 0x2601 | 0x3703 => sn.crossed.getLsbD 0
  | 0x1902 | 0x2602 | 0x3704 => sn.crossed.getLsbD 1
  | 0x2603 | 0x3705 => sn.crossed.getLsbD 2
  | 0x1903 | 0x2604 | 0x3706 => sn.stale
  | 0x1904 | 0x2605 | 0x3707 => sn.failed
  | 0x2204 | 0x3204 => ((s.eng (src / 64)).mbox.get (src % 64)).stale
  | 0x2205 | 0x3205 => ((s.eng (src / 64)).mbox.get (src % 64)).staleTwice
  | 0x2501 => decide (s.ncNow src < s.nMin src)
  | 0x2503 => (s.cell src).fault != 0
  | 0x3301 => s.time.servo == .holdover
  | 0x3302 => s.time.servo == .slew
  | 0x3303 => s.time.servo == .split
  | 0x3306 => (s.svs.get src).lost
  | 0x3503 => s.hif.lost
  | 0x3506 => !s.hif.linkUp
  | 0x3601 => if src = 0 then s.clk.lostA else s.clk.lostB
  | 0x3603 => s.clk.active.isNone
  | 0x3606 => s.clk.time.state == .failed
  | 0x3607 => s.clk.core.state == .failed
  | 0x3608 => (s.clk.quads.get src).state == .failed
  | 0x3701 => s.epl.above
  | 0x3803 => s.bel.readOnly
  | 0x4101 => s.kp.any fun c => (c.pairs.get src).demand
  | 0x4102 => s.kp.any fun c => (c.pairs.get src).faulty
  | 0x4301 => s.kp.any fun c => (c.loops.get src).sbk
  | 0x4303 => s.kp.any fun c => (c.loops.get src).causes.stuck
  | 0x4401 => s.kp.any fun c => (c.outs.get src).causes.any
  | 0x4402 => s.kp.any fun c => (c.outs.get src).fbTo
  | 0x4501 => s.kp.any fun c => (c.outs.get src).testFail
  | 0x4601 | 0x4602 => if src = 0 then s.kp.a.xchFault else s.kp.b.xchFault
  | _ => false

/-! ## Windows (R390, R391) -/

def distinctHits : List (BitVec 16 × BitVec 16 × List Byte) → List (BitVec 16 × BitVec 16 × List Byte)
  | [] => []
  | h :: r => h :: (distinctHits r).filter fun x => !(x.1 == h.1 && x.2.1 == h.2.1)

/-- A detector hit inside a window whose condition outlasts it raises its fault anew; the budget of a cell or a stream starts from
there, so that the next latch is the first of CELL_PERSIST (R391, Table 12-13). Log entry 70. -/
def State.raisePersisted (s : State) (opener : Nat) (h : BitVec 16 × BitVec 16 × List Byte) : State :=
  let code := h.1.toNat
  let src := h.2.1.toNat
  if s.conditionPresent code src then
    let s := raiseN 6 code src h.2.2 (some opener) s
    if code = 0x2503 then s.updCell src fun c => { c with occ := [s.now], persist := 0 }
    else if code = 0x3306 then { s with svs := s.svs.upd src fun x => { x with occ := [s.now] } }
    else s
  else s

/-- CONS_WINDOW_CLOSE: the closing tick is still inside, so a window closes on a later tick. -/
def execConsWindowClose (s : State) : Host.Outcome State Fault Refusal :=
  let above := fun (w : Window) => match w.closeAt with
    | some t => decide (t < s.now)
    | none => false
  let gone := s.flt.windows.filter above
  let s := { s with flt := { s.flt with windows := s.flt.windows.filter fun w => !above w } }
  .next (gone.foldl (fun s w => (distinctHits w.hits).foldl (fun s h => s.raisePersisted w.opener h) s) s)

/-! ## FAULT_N (R398 to R400) -/

/-- FAULT_N_HOLD_END: after the 20 µs a release takes effect; without one FAULT_N stays asserted. -/
def execFaultNHoldEnd (s : State) : Host.Outcome State Fault Refusal :=
  .next (
    if s.flt.faultN ∧ s.flt.released ∧ s.flt.holdUntil ≤ s.now then
      { s with flt := { s.flt with faultN := false, released := false } }
    else s)

/-- FAULT_RELEASE (R399). Log entry 34. -/
def State.doFaultRelease (s : State) : State × Status × Nat :=
  if s.flt.table.any (·.faultN) || s.flt.tblFull || (s.sys.dev == .lockout && s.ps.profile != .s) then (s, .state, 0)
  else if !s.flt.faultN then (s, .ok, 0)
  else if s.flt.holdUntil ≤ s.now then ({ s with flt := { s.flt with faultN := false, released := false } }, .ok, 0)
  else ({ s with flt := { s.flt with released := true } }, .ok, 0)

/-! ## FAULT_CLEAR (R402, R403, Table 12-8) -/

def State.clearable (s : State) (a : Active) : Bool :=
  !s.conditionPresent a.code.toNat a.src.toNat && !(a.cls == .lockout && s.ps.profile != .s)

/-- The fall-back record's own fault (R397). -/
def State.isFallbackEntry (s : State) (a : Active) : Bool :=
  match s.kp.fallRec with
  | some r => s.flt.fallback && r.code == a.code && r.src == a.src
  | none => false

/-- The device leaves LOCKOUT for IDLE and withdraws its SBK request (Table 12-8, R432). -/
def State.leaveLockout (s : State) : State :=
  ({ s with sys := { s.sys with dev := .idle, sbkReq := false }, flt := { s.flt with lockout := false } }).windowDone .lockout

/-- Entries removed, with the effect of Table 12-8: an octad leaves Fenced once no entry that fenced it remains; the device
leaves LOCKOUT once no LOCKOUT entry remains; collection returns from the fall-back when its record is cleared.
Log entry 36. -/
def State.removeEntries (s : State) (gone : List Active) : State :=
  let back := gone.any s.isFallbackEntry
  let rest := s.flt.table.filter fun a => !gone.contains a
  let was := s.sys.dev == .lockout
  let lock := rest.any fun a => a.cls == .lockout
  let freed := fun n => gone.any (fun a => a.fenced.getLsbD n) && !rest.any fun a => a.fenced.getLsbD n
  let f := { s.flt with table := rest }
  let s := { s with flt := if back then { f with fallback := false } else f }
  let s := if back then { s with kp := { s.kp with fallRec := none, fallFirst := 0, fallDirty := false } } else s
  let s := forNat 8 (fun n s =>
    if (s.oct n).state = .fenced ∧ freed n then s.updOct n fun o => { o with state := .blocked } else s) s
  if was && !lock && s.ps.profile == .s then s.leaveLockout else s

/-- A successful FAULT_CLEAR of everything: TBL_FULL clears (R403), and with it the fences and the LOCKOUT of faults that found
no room in the table and whose octads no entry fences (R402). Log entry 36. -/
def State.clearFull (s : State) : State :=
  if !s.flt.tblFull then s
  else
    let s := { s with flt := { s.flt with tblFull := false } }
    let s := forNat 8 (fun n s =>
      if (s.oct n).state = .fenced ∧ !s.flt.table.any (fun a => a.fenced.getLsbD n) then
        s.updOct n fun o => { o with state := .blocked }
      else s) s
    if s.sys.dev == .lockout && s.ps.profile == .s && !s.flt.table.any (fun a => a.cls == .lockout) then s.leaveLockout else s

/-- FAULT_CLEAR at one tick (R403).  One that would clear the fall-back record's entry rewrites the main collector's registers from the
shadow first, and clears it when they pass their parity check, a free value (R397). Log entries 36 and 110. -/
def State.doFaultClear (s : State) (code src : BitVec 16) : State × Status × Nat :=
  let hit := s.flt.table.filter fun a => (code == 0 || a.code == code) && (src == 0xFFFF || a.src == src)
  let tries := hit.any fun a => s.clearable a && s.isFallbackEntry a
  let holds := Config.parityHolds s.free
  let can := hit.filter fun a => s.clearable a && (holds || !s.isFallbackEntry a)
  let s := if tries then s.loadCollector.freeNext else s
  if hit.isEmpty then (if code = 0 ∧ src = 0xFFFF then s.clearFull else s, .ok, 0)
  else if can.isEmpty then (s, .state, 0)
  else
    let s := s.removeEntries can
    (if code = 0 ∧ src = 0xFFFF then s.clearFull else s, .ok, can.length)

/-! ## The fall-back collector (R395 to R397) -/

/-- The fall-back collector takes charge with this fault as its record, or merges it when it is in charge already.
Log entry 35. -/
def State.takeCharge (s : State) (code src : Nat) : State :=
  if s.flt.fallback then s.raise code src []
  else
    ({ s with flt := { s.flt with fallback := true }, kp := { s.kp with fallRec := none, fallFirst := 0 } }).raise code src []

/-- FLT_SELF: a parity or ECC error in the main collector's registers. -/
def execFltSelf (s : State) : Host.Outcome State Fault Refusal := .next (if s.alive then s.takeCharge 0x3101 0 else s)

/-- FLT_STALL: a queue head not taken within 10 µs. -/
def execFltStall (level : Fin 4) (s : State) : Host.Outcome State Fault Refusal :=
  .next (match s.flt.queues.get level with
    | [] => s
    | r :: _ =>
      if s.flt.fallback || !s.alive then s
      else s.whenDue (r.tick.toNat + 4000) fun s => s.takeCharge 0x3102 (level + 1))

/-- FALLBACK_RECORD_COPY: Belfry copies the record when the fall-back takes charge and when the merged count changes, each
copy under the next sequence number, the first copy's number in data bytes 0–3 (R396). -/
def execFallbackRecordCopy (s : State) : Host.Outcome State Fault Refusal :=
  .next (match s.kp.fallRec with
    | none => s
    | some r =>
      if !s.kp.fallDirty || !s.flt.fallback || s.defers then s
      else
        let q := nextSeq s.flt.seq
        let first := s.kp.fallFirst = 0
        let f0 := if first then q else s.kp.fallFirst
        let r := { r with seq := q, data := leBytes 4 f0.toNat ++ r.data.drop 4 }
        let s := { s with kp := { s.kp with fallRec := some r, fallFirst := f0, fallDirty := false }, flt := { s.flt with
          seq := q
          table := s.flt.table.map fun (a : Active) => if first ∧ a.code = r.code ∧ a.src = r.src ∧ a.seq = 0 then { a with seq := q } else a } }
        let s := s.storeRecord r false
        if first ∧ (s.faultParams r.code.toNat).2.2.1 then s.postEvent r.cls r.code r.src q (r.first.setWidth 32) else s)

end Sys2Proof.Machine
end

