-- ==== Sys2Proof/Machine/Host.lean ====
section
/-! DEFINITION. The host interface (chapter 11) but for the execution of descriptors: the doorbell page, fetching, the
device half of the page and interrupts, timeouts, the host-lost policy, PERST_N, the link. -/

namespace Sys2Proof.Machine

/-- HIF_CTRL.EN, SWEEP, and HL_TO in ticks. -/
def State.hifEn (s : State) : Bool := s.fld 0x100000 0 1 == 1
def State.sweepTicks (s : State) : Nat := 100 * s.fld 0x100000 1 9
def State.hostLostTicks (s : State) : Nat := 400000 * s.fld 0x10000C 0 14

/-- Whether the device can reach host memory: interface out of reset, link in L0, D0 (R343). -/
def State.hostReach (s : State) : Bool := s.alive && !s.hif.inReset && s.hif.linkUp && !s.hif.d3

/-- The host interface's own time: ticks, and before the tick count starts the idle steps of its reference clock, 2.5 ns each.
Log entry 12. -/
def State.hifNow (s : State) : Nat := s.now + s.clk.pre

/-! ## The host half of the page (R349, R354) -/

/-- RING_ERR: the ring halts with HALT and OVF (R354). -/
def State.haltRing (s : State) (r : Nat) : State :=
  ((s.updRing r fun x => { x with halt := true }).flag (rcfgAddr r + 4) 1).raise 0x3505 r []

/-- A producer index of a command ring (R354). -/
def State.takeProducer (s : State) (r : Nat) (i : BitVec 16) : State :=
  if !s.ringEn r || (s.ring r).halt then s
  else if s.ringSize r - 1 < (i - (s.ring r).dev).toNat then s.haltRing r
  else s.updRing r fun x => { x with host := i }

/-- A consumer index of a device-produced ring: it stays among the entries written (R354). -/
def State.takeConsumer (s : State) (r : Nat) (i : BitVec 16) : State :=
  if !s.ringEn r || (s.ring r).halt then s
  else if ((s.ring r).dev - (s.ring r).host).toNat < (i - (s.ring r).host).toNat then s.haltRing r
  else s.updRing r fun x => { x with host := i }

def loHalf (w : Word) : BitVec 16 := w.setWidth 16
def hiHalf (w : Word) : BitVec 16 := (w >>> 16).setWidth 16

/-- Words 0 to 26 of the page. -/
def State.takeIndices (s : State) (p : List Word) : State :=
  let at_ := fun i => p.getD i 0
  let s := forNat 10 (fun w s => (s.takeProducer w (loHalf (at_ w))).takeConsumer (10 + w) (hiHalf (at_ w))) s
  let s := forNat 16 (fun i s => s.takeConsumer (20 + i) (loHalf (at_ (10 + i)))) s
  s.takeConsumer 36 (loHalf (at_ 26))

/-- GEN, word 27 (R368, R369): a change restarts the host-lost timer when it arrives by its expiry, and ends the host-lost
condition with HOST_BACK. Log entry 45. -/
def State.takeGen (s : State) (g : Word) : State :=
  let changed := s.hif.genSeen && g != s.hif.gen
  let s := { s with hif := { s.hif with gen := g, genSeen := true } }
  if !changed then s
  else
    let fresh := some (s.hifNow + s.hostLostTicks)
    if s.hif.lost then
      (({ s with hif := { s.hif with lost := false, lostTimer := fresh } }).setFld 0x100010 0 1 0).raise 0x3504 0 []
    else match s.hif.lostTimer with
      | some t => if s.hifNow ≤ t then { s with hif := { s.hif with lostTimer := fresh } } else s
      | none => s

/-! ## Reads of host memory (R367) -/

/-- A read is issued; without a way to host memory it goes out to nobody. -/
def State.issueRead (s : State) (k : ReadKind) (addr : BitVec 64) (len : Nat) : State :=
  if s.hostReach then s.emit (.hostRead k addr len) else s

/-- CPLTO in ticks. -/
def State.cplTicks (s : State) : Nat := 400 * s.fld 0x100000 10 14

/-- Whether a read issued at a tick may end so now: as a timeout once CPLTO has passed. -/
def State.readEnds (s : State) (c : ReadEnd) (issued : Nat) : Bool := c != .timeout || decide (issued + s.cplTicks ≤ s.hifNow)

/-- Whether the data of a read issued at a tick comes within CPLTO. -/
def State.inCplTime (s : State) (issued : Nat) : Bool := decide (s.hifNow ≤ issued + s.cplTicks)

/-- HIF_SWEEPTO and HIF_FETCHTO count the reads that timed out. -/
def State.countTimeout (s : State) (c : ReadEnd) (a : Nat) : State := if c = .timeout then s.count a 1 else s

/-! ## Fetching (R353) -/

/-- Descriptors of a command ring that reads under way cover. -/
def Ring.fetching (x : Ring) : Nat := (x.fetches.map Fetch.count).sum

/-- Free entries of a ring that the device fills. -/
def State.freeEntries (s : State) (r : Nat) : Nat := s.ringSize r - 1 - (s.ring r).used - (s.ring r).reserved

/-- How many descriptors of a command ring this sweep fetches: at most 128, one free entry of the completion ring for each.
Log entry 88. -/
def State.fetchCount (s : State) (r : Nat) : Nat :=
  let x := s.ring r
  if !s.ringEn r || x.halt || !s.ringEn (10 + r) then 0
  else min (min ((x.host - x.dev).toNat - x.fetching) 128) (s.freeEntries (10 + r))

/-- One read of n descriptors behind those that are under way, their completion entries reserved. Log entry 88. -/
def State.fetchRead (s : State) (r : Fin 10) (sweep n : Nat) : State :=
  if n = 0 then s
  else
    let x := s.ring r
    let i := x.dev + BitVec.ofNat 16 x.fetching
    let s := (s.updRing r fun x => { x with fetches := x.fetches ++ [⟨n, s.hifNow, sweep, 0⟩] }).updRing (10 + r) fun x =>
      { x with reserved := x.reserved + n }
    s.issueRead (.fetch r (BitVec.ofNat 8 n)) (s.entryAddr r i) (32 * n)

/-- The fetches of a ring in a sweep: a read up to the end of the ring, and one from its start for what lies beyond. -/
def State.fetchRing (s : State) (r : Fin 10) (sweep : Nat) : State :=
  let n := s.fetchCount r
  let x := s.ring r
  let m := min n (s.ringSize r - (x.dev + BitVec.ofNat 16 x.fetching).toNat % s.ringSize r)
  (s.fetchRead r sweep m).fetchRead r sweep (n - m)

/-- The fetches of a sweep in ascending ring order. -/
def State.fetchAll (s : State) (sweep : Nat) : State := (List.finRange 10).foldl (fun s r => s.fetchRing r sweep) s

/-- Whether a sweep still has a read of descriptors under way. -/
def State.sweepOpen (s : State) (sweep : Nat) : Bool :=
  (List.range 10).any fun r => (s.ring r).fetches.any fun f => f.sweep == sweep

/-! ## The device half and interrupts (R349, R352, R355) -/

/-- Words 32 to 63; FRAME is that of the sweep (log entry 103). -/
def State.deviceHalf (s : State) : List Word :=
  ((List.range 10).map fun w => ((s.ring w).dev.setWidth 32 : Word) + (((s.ring (10 + w)).dev.setWidth 32 : Word) <<< 16))
    ++ ((List.range 17).map fun i => ((s.ring (20 + i)).dev.setWidth 32 : Word))
    ++ [s.hif.sweepK, BitVec.ofNat 32 (bit s.hif.lost + 2 * bit (s.sys.dev == .lockout)), 0, 0, 0]

/-- The address of the doorbell page (HIF_DBLO, HIF_DBHI). -/
def State.pageAddr (s : State) : BitVec 64 :=
  BitVec.ofNat 64 (2 ^ 32 * (s.reg 0x100008).toNat + 256 * s.fld 0x100004 8 24)

/-- The vector that a ring sends in this sweep, if it sends one. -/
def State.vectorOf (s : State) (r : Nat) : Option Nat :=
  let due := if r < 10 then false else if r < 20 then (s.ring r).irqDue
    else (s.ring r).gained && s.fld (rcfgAddr r) 12 1 == 1
  if due then some (s.fld (rcfgAddr r) 6 6) else none

/-- Whether the function mask or the vector's own keeps a vector back. -/
def Hif.masked (x : Hif) (v : Nat) : Bool := x.funcMask || (x.msixTab.get v).mask

/-- A vector is due (R355): its message goes out, or its pending bit is set while it is masked; nothing without MSI-X enabled.
Log entry 102. -/
def State.sendVector (s : State) (v : Nat) : State :=
  if !s.hif.msixEn then s
  else if s.hif.masked v then { s with hif := { s.hif with pba := s.hif.pba ||| BitVec.twoPow 64 v } }
  else s.emit (.msix v (s.hif.msixTab.get v).addr (s.hif.msixTab.get v).data)

/-- The pending vectors that no mask keeps back any longer go out, in ascending order. -/
def State.sendPending (s : State) : State :=
  forNat 64 (fun v s =>
    if s.hif.msixEn && s.hif.pba.getLsbD v && !s.hif.masked v then
      { s with hif := { s.hif with pba := s.hif.pba &&& ~~~BitVec.twoPow 64 v } }.sendVector v
    else s) s

/-- The device half written when a word of it has changed, then each vector that is due, once. -/
def State.writeHalf (s : State) : State :=
  let w := s.deviceHalf
  if w = s.hif.doorbell then s
  else
    let vs := (List.range 37).filterMap s.vectorOf
    let s := ({ s with hif := { s.hif with doorbell := w } }).emit (.hostWrite (s.pageAddr + 128) (w.flatMap fun (x : Word) => leBytes 4 x.toNat))
    let s := forNat 64 (fun v s => if vs.contains v then s.sendVector v else s) s
    { s with rings := s.rings.mapAll fun _ x => { x with irqDue := false, gained := false } }

/-- The end of a read of descriptors: the device half goes out once its sweep has no other one under way (R352, Table 11-12). -/
def State.sweepDone (s : State) (sweep : Nat) : State := if s.sweepOpen sweep then s else s.writeHalf

/-- A sweep read is issued when its time has come (R351); sweeps missed while the host was out of reach are not made up for.
Log entry 103. -/
def State.issueSweep (s : State) : State :=
  if s.hifEn && s.hostReach && decide (s.hif.sweepAt ≤ s.hifNow) then
    let w : Sweep := ⟨s.hifNow, s.hifNow, s.fr.k, 0⟩
    ({ s with hif := { s.hif with sweepAt := s.hifNow + s.sweepTicks, sweeps := s.hif.sweeps ++ [w] } }).issueRead .sweep s.pageAddr 256
  else s

/-! ## Timeouts (R367) -/

/-- The descriptors that a failed fetch covered: each completes with TIMEOUT, OPCODE 0xFF and TAG zero. -/
def State.failFetch (s : State) (r : Nat) : Nat → State
  | 0 => s
  | n + 1 =>
    let i := (s.ring r).dev
    State.failFetch ((s.putCompletion r .timeout 0xFF 0 i false 0 0).updRing r fun x => { x with dev := x.dev + 1 }) r n

/-- The read of a buffer: its whole LEN bytes at ADDR, in requests of up to 4,096 bytes (Table 11-1). Log entry 88. -/
def State.readFor (s : State) (r : Fin 10) (d : Desc) : State :=
  match bodyBuf d.body with
  | some b => (List.range ((b.len.toNat + 4095) / 4096)).foldl (fun s i =>
      s.issueRead (.buffer r) (b.addr + BitVec.ofNat 64 (4096 * i)) (min 4096 (b.len.toNat - 4096 * i))) s
  | none => s

/-- The read of the next buffer of a ring is issued. -/
def State.issueBuffer (s : State) (r : Nat) (h : r < 10) : State :=
  match (s.ring r).buf with
  | [] => s
  | (d, _) :: _ => (s.updRing r fun x => { x with bufTries := 0, bufAt := s.hifNow }).readFor ⟨r, h⟩ d

/-- A sweep read has failed: issued again, or given up with HIF_SWEEP_TO. -/
def State.sweepFailed (s : State) (c : ReadEnd) : State :=
  match s.hif.sweeps with
  | [] => s
  | w :: rest =>
    if !s.hifEn || !s.readEnds c w.issued then s
    else
      let s := s.countTimeout c 0x100014
      if w.tries < 2 then
        ({ s with hif := { s.hif with sweeps := { w with issued := s.hifNow, tries := w.tries + 1 } :: rest } }).issueRead .sweep s.pageAddr 256
      else ({ s with hif := { s.hif with sweeps := rest } }).raise 0x3502 0 []

/-- DOORBELL_SWEEP: the data of the oldest sweep read under way arrives (R351): indices, GEN, the fetches, and the device half when
nothing is fetched.  A sweep that is due on this tick is issued first; data later than CPLTO is a read that timed out (R367).
Log entry 103. -/
def execDoorbellSweep (page : List Word) (s : State) : Host.Outcome State Fault Refusal :=
  .next (
    if !s.hifEn || !s.hostReach then s
    else
      let s := s.issueSweep
      match s.hif.sweeps with
      | [] => s
      | w :: rest =>
        if !s.inCplTime w.issued then s.sweepFailed .timeout
        else
          let s := { s with hif := { s.hif with sweeps := rest, sweepK := w.k } }
          (((s.takeIndices page).takeGen (page.getD 27 0)).fetchAll w.first).sweepDone w.first)

/-- The oldest read of descriptors of a ring has failed: issued again, or given up with HIF_FETCH_TO. -/
def State.fetchFailed (s : State) (r : Fin 10) (n : Nat) (c : ReadEnd) : State :=
  match (s.ring r).fetches with
  | [] => s
  | f :: rest =>
    if f.count ≠ n ∨ s.readEnds c f.issued = false then s
    else
      let s := s.countTimeout c 0x100018
      if f.tries < 2 then
        (s.updRing r fun x => { x with fetches := { f with issued := s.hifNow, tries := f.tries + 1 } :: rest }).issueRead
          (.fetch r (BitVec.ofNat 8 n)) (s.entryAddr r (s.ring r).dev) (32 * n)
      else (((s.updRing r fun x => { x with fetches := rest }).failFetch r n).raise 0x3501 r []).sweepDone f.sweep

/-- The oldest buffer read of a ring has failed: issued again, or its descriptor completes with TIMEOUT. -/
def State.bufferFailed (s : State) (r : Fin 10) (c : ReadEnd) : State :=
  match (s.ring r).buf with
  | [] => s
  | (d, _) :: rest =>
    if !s.readEnds c (s.ring r).bufAt then s
    else
      let s := s.countTimeout c 0x100018
      if (s.ring r).bufTries < 2 then
        (s.updRing r fun x => { x with bufTries := x.bufTries + 1, bufAt := s.hifNow }).readFor r d
      else
        (((s.updRing r fun x => { x with buf := rest }).complete d .timeout 0 0).issueBuffer r r.isLt).raise 0x3501 r []

/-- READ_TIMEOUT: the read is issued again up to twice; the third failure abandons it. Log entry 88. -/
def execReadTimeout (r : FailedRead) (s : State) : Host.Outcome State Fault Refusal :=
  .next (match r.kind with
    | .sweep => s.sweepFailed r.cause
    | .fetch g n => s.fetchFailed g n.toNat r.cause
    | .buffer g => s.bufferFailed g r.cause)

/-! ## Host lost (R368, R369) -/

/-- HOST_LOST: the timer has expired with no changed GEN by its expiry tick, on which one still counts (R368); the policy is
applied once. -/
def execHostLost (s : State) : Host.Outcome State Fault Refusal :=
  .next (match s.hif.lostTimer with
    | none => s
    | some t =>
      if s.hifNow ≤ t then s
      else
      let pol := s.fld 0x10000C 14 1
      let s := ({ s with hif := { s.hif with lost := true, lostTimer := none } }).setFld 0x100010 0 1 1
      let s := if pol = 1 then forNat 8 (fun n s => s.enterRundown n) s else s
      s.raise 0x3503 pol [])

/-! ## PERST_N, link, D3hot (R343, R371, R537) -/

/-- The reset of the host interface: its registers but the RWP field, every ring, every pending descriptor, the staging
area; a MODE_CHANGE past its decision stays (R343, R366). -/
def State.resetHif (s : State) : State :=
  { s with
    regs := s.regs.filter fun e => !(inBlock e.1 1 && e.1 != 0x10000C)
    staging := []
    rings := .empty .init
    modeReq := s.modeReq.filter (·.decided)
    engs := if (s.modeReq.map (·.decided)).getD true then s.engs else s.engs.mapAll fun _ x => { x with armed := none }
    hif := { Hif.init with doorbell := [] } }

/-- PERST_N is asserted; its window stays open until the link is in L0 again (Table 12-7). -/
def execPerstN (s : State) : Host.Outcome State Fault Refusal :=
  let s := s.resetHif
  .next (s.openWindow .pcie 0 0 0 none)

/-- PERST_N_RELEASE: the endpoint leaves its reset and trains (R341, R537). -/
def execPerstNRelease (s : State) : Host.Outcome State Fault Refusal :=
  .next { s with hif := { s.hif with inReset := false } }

/-- What configuration space reports: Vendor ID, Device ID, Revision ID, class code, Subsystem Vendor ID, Subsystem ID
(R341, R561). -/
def configIds : List Nat := [0x1F6B, 0x4096, 0xA1, 0x118000, 0x1F6B, 0x0001]

/-- Rates and widths of the link (R341, Table 11-10): 2.5 to 16 GT/s, one, two or four lanes. -/
def linkOk (speed width : BitVec 3) : Bool :=
  (speed == 1 || speed == 2 || speed == 3 || speed == 4) && (width == 1 || width == 2 || width == 4)

/-- PCIE_LINK_UP: the link reaches L0 at a rate and a width. Log entry 102. -/
def execPcieLinkUp (speed width : BitVec 3) (s : State) : Host.Outcome State Fault Refusal :=
  .next (
    if s.hif.inReset || !linkOk speed width then s
    else ({ s with hif := { s.hif with linkUp := true, d3 := false, speed := speed.toNat, width := width.toNat } }).windowDone .pcie)

/-- PCIE_LINK_DOWN: the link leaves L0 other than by PERST_N. -/
def execPcieLinkDown (s : State) : Host.Outcome State Fault Refusal :=
  .next (
    if !s.hif.linkUp then s
    else
      let id := s.flt.nextId
      let s := ({ s with hif := { s.hif with linkUp := false, speed := 0, width := 0 } }).raise 0x3506 0 []
      s.openWindow .pcie id 0x3506 0 none)

/-- D3HOT: sweeps rest; everything else runs on. -/
def execD3hot (s : State) : Host.Outcome State Fault Refusal :=
  .next (if s.hif.inReset then s else { s with hif := { s.hif with d3 := true } })

/-! ## What writing HIF_CTRL and HIF_RCFG starts (R347, R351, R368) -/

/-- EN of HIF_CTRL has gone to 1: sweeps begin; the host-lost timer starts once after the interface's reset. -/
def State.hifStarted (s : State) : State :=
  { s with hif := { s.hif with
    sweepAt := s.hifNow
    sweeps := []
    sweeping := true
    lostTimer := if s.hif.lostTimer.isNone && !s.hif.lost && !s.hif.sweeping then some (s.hifNow + s.hostLostTicks)
      else s.hif.lostTimer } }

/-- EN of a ring has gone to 1: both indices are zero. -/
def State.ringStarted (s : State) (r : Nat) : State :=
  s.updRing r fun x => { x with host := 0, dev := 0, count17 := 0, gained := false, irqDue := false }

/-- EN of a ring has gone to 0: it stops and HALT clears; what its reads under way had reserved is free again. -/
def State.ringStopped (s : State) (r : Nat) : State :=
  let n := (s.ring r).fetching
  let s := s.updRing r fun x => { x with halt := false, fetches := [] }
  if r < 10 then s.updRing (10 + r) fun x => { x with reserved := x.reserved - n } else s

/-! ## The MSI-X capability and the power state (R342, R355; log entry 102) -/

/-- A word of the MSI-X table: address low and high, data, vector control. Log entry 102. -/
def MsixEntry.write (e : MsixEntry) (i : Nat) (v : Word) : MsixEntry :=
  match i with
  | 0 => { e with addr := (e.addr >>> 32 <<< 32) ||| ((v &&& ~~~3).setWidth 64) }
  | 1 => { e with addr := (e.addr.setWidth 32).setWidth 64 ||| (v.setWidth 64 <<< 32) }
  | 2 => { e with data := v }
  | _ => { e with mask := v.getLsbD 0 }

def MsixEntry.read (e : MsixEntry) (i : Nat) : Word :=
  match i with
  | 0 => e.addr.setWidth 32
  | 1 => (e.addr >>> 32).setWidth 32
  | 2 => e.data
  | _ => BitVec.ofNat 32 (bit e.mask)

/-- A write to BAR2: the table takes whole words; the pending-bit array and the rest take none. Log entries 82 and 102. -/
def State.bar2Write (s : State) (ofs : Nat) (v : Word) (be : BitVec 4) : State :=
  if ofs < 0x400 ∧ ofs % 4 = 0 ∧ be = 15 then
    ({ s with hif := { s.hif with msixTab := s.hif.msixTab.upd (ofs / 16) fun e => e.write (ofs % 16 / 4) v } }).sendPending
  else s

/-- What BAR2 reads as. -/
def State.bar2Read (s : State) (ofs : Nat) : Word :=
  if ofs < 0x400 then (s.hif.msixTab.get (ofs / 16)).read (ofs % 16 / 4)
  else if ofs = 0x8000 then s.hif.pba.setWidth 32
  else if ofs = 0x8004 then (s.hif.pba >>> 32).setWidth 32
  else 0

/-- Enable and function mask of the MSI-X capability. -/
def State.msixControl (s : State) (v : Word) : State :=
  ({ s with hif := { s.hif with msixEn := v.getLsbD 1, funcMask := v.getLsbD 0 } }).sendPending

/-- The power state in configuration space: 0 D0, 3 D3hot. -/
def State.powerState (s : State) (v : Word) : State :=
  if field v.toNat 0 2 = 3 then { s with hif := { s.hif with d3 := true } }
  else if field v.toNat 0 2 = 0 then { s with hif := { s.hif with d3 := false } }
  else s

end Sys2Proof.Machine
end

