-- ==== Sys2Proof/Machine/Pset.lean ====
section
/-! DEFINITION. Protection set, identity, firmware and debug authorisation (chapter 14). -/

namespace Sys2Proof.Machine

/-! ## The shape and content of an image (R441, R443) -/

def zeros (bs : List Byte) : Bool := bs.all (· == 0)

/-- The sections of an image from an offset on, in order; none when a header or padding breaks Table 14-3's shape. -/
def sections : Nat → List Byte → Option (List (Nat × List Byte))
  | 0, _ => none
  | k + 1, bs =>
    if bs.isEmpty then some []
    else if bs.length < 4 then none
    else
      let len := leAt bs 2 2
      let pad := (len + 3) / 4 * 4
      if bs.length < 4 + pad ∨ leAt bs 1 1 ≠ 0 ∨ !zeros ((bs.drop (4 + len)).take (pad - len)) then none
      else (sections k (bs.drop (4 + pad))).map fun r => (leAt bs 0 1, (bs.drop 4).take len) :: r

def rising : List Nat → Bool
  | a :: b :: r => decide (a < b) && rising (b :: r)
  | _ => true

/-- Table 14-2: the header with its length and CRC-32C. -/
def headerOk (img : List Byte) : Bool :=
  decide (32 ≤ img.length) && decide (img.length ≤ 65536) && leAt img 0 2 == 0xA5E2 && leAt img 2 1 == 1 && leAt img 3 1 == 0
    && leAt img 4 4 == img.length && leAt img 8 4 == (crc32c (zeroField img 8)).toNat && zeros ((img.drop 12).take 20)

def popCount8 (v : Nat) : Nat := (List.range 8).countP fun n => v / 2 ^ n % 2 == 1

/-- Table 14-4 and R4: the profile allows the octad count; N_MIN is 1 to 512 for a configured octad, 0 otherwise. -/
def generalOk (b : List Byte) : Bool :=
  let pr := leAt b 0 1
  let oc := leAt b 1 1
  b.length == 32 && (pr == 1 || pr == 2) && decide (leAt b 2 1 < 2) && leAt b 3 1 == 0 && zeros (b.drop 20)
    && (if pr = 1 then decide (1 ≤ popCount8 oc) && decide (popCount8 oc ≤ 2) else decide (3 ≤ popCount8 oc))
    && (List.range 8).all fun n =>
      let m := leAt b (4 + 2 * n) 2
      if oc / 2 ^ n % 2 = 1 then decide (1 ≤ m) && decide (m ≤ 512) else m == 0

def inRange (v lo hi : Nat) : Bool := decide (lo ≤ v) && decide (v ≤ hi)

/-- An input pair, an output, a port of Table 14-5 in the ranges of Table 13-2. -/
def kpPairOk (b : List Byte) : Bool :=
  inRange (leAt b 0 1) 0 4 && inRange (leAt b 3 1) 5 200 && inRange (leAt b 4 2) 5 1000 && zeros (b.drop 6)
def kpOutOk (b : List Byte) : Bool :=
  inRange (leAt b 0 1) 0 1 && inRange (leAt b 1 1) 1 200 && (inRange (leAt b 2 1) 0 7 || leAt b 2 1 == 15)
    && inRange (leAt b 3 1) 1 60 && inRange (leAt b 4 2) 50 300 && zeros (b.drop 6)
def kpPortOk (b : List Byte) : Bool :=
  inRange (leAt b 0 1) 0 3 && inRange (leAt b 1 1) 16 24 && inRange (leAt b 2 1) 0 3 && inRange (leAt b 3 1) 0 1
    && inRange (leAt b 4 1) 0 63 && leAt b 5 1 == 0 && inRange (leAt b 6 2) 0 1023

def slice (bs : List Byte) (o n : Nat) : List Byte := (bs.drop o).take n

/-- Table 14-5 with its CRC-32C (R413). -/
def kingpostOk (b : List Byte) : Bool :=
  b.length == 220 && (List.range 16).all (fun i => kpPairOk (slice b (8 * i) 8))
    && (List.range 8).all (fun i => kpOutOk (slice b (128 + 8 * i) 8))
    && inRange (leAt b 193 1) 0 (min (leAt b 200 1) (min (leAt b 208 1) 3)) && inRange (leAt b 194 1) 1 20 && leAt b 195 1 == 0
    && inRange (leAt b 196 2) 1 65535 && inRange (leAt b 198 2) 0 32767
    && kpPortOk (slice b 200 8) && kpPortOk (slice b 208 8) && leAt b 216 4 == (crc32c (b.take 216)).toNat

/-- The reaction map of R383. -/
def mapOk (b : List Byte) : Bool :=
  let es := entries8 1025 b
  b.length % 8 == 0 && decide (es.length ≤ 1024) && rising (es.map fun e => leAt e 0 2)
    && es.all fun e => inRange (leAt e 2 1) 0 4 && inRange (leAt e 3 1) 0 3 && zeros (e.drop 5)

/-- The range rules that span RWP fields of one register (R110, R140, R509). Log entry 92. -/
def rwpSpanOk (r : RegRef) (v : Nat) : Bool :=
  match r.df.name with
  | .ldgHealth => decide (field v 0 8 < field v 8 8) && decide (field v 16 8 < field v 0 8)
  | .dpwCfg => decide (field v 8 4 < 8) || field v 8 4 == 15
  | .thmLimits => decide (field v 0 8 < field v 8 8) && decide (field v 8 8 < field v 16 8) && decide (field v 16 8 ≤ 120)
  | .thmRate => decide (field v 0 10 < field v 10 10) && decide (field v 20 10 < field v 0 10)
  | _ => true

/-- A REGISTERS entry: a register with an RWP field, in range, every other bit zero. Log entry 92. -/
def regEntryOk (e : List Byte) : Bool :=
  match regAt (leAt e 0 4) with
  | none => false
  | some r =>
    let v := leAt e 4 4
    let fs := rwpFields r
    !fs.isEmpty && fs.all (fun f => inRange (field v f.lo f.len) f.min f.max) && rwpSpanOk r v
      && v == fs.foldl (fun a f => a + field v f.lo f.len * 2 ^ f.lo) 0

def regsOk (b : List Byte) : Bool :=
  let es := entries8 513 b
  b.length % 8 == 0 && decide (es.length ≤ 512) && rising (es.map fun e => leAt e 0 4) && es.all regEntryOk

/-- The PRIVILEGED section: for each engine its digest and its W_P words. -/
def privParse : Nat → List Byte → Option (List (BitVec 256 × List (BitVec 16)))
  | 0, bs => if bs.isEmpty then some [] else none
  | k + 1, bs =>
    let w := leAt bs 32 2
    let len := 36 + (2 * w + 3) / 4 * 4
    if bs.length < len ∨ 1024 < w ∨ leAt bs 34 2 ≠ 0 ∨ !zeros (slice bs (36 + 2 * w) (len - 36 - 2 * w)) then none
    else (privParse k (bs.drop len)).map fun r =>
      (BitVec.ofNat 256 (leAt bs 0 32), (List.range w).map fun i => BitVec.ofNat 16 (leAt bs (36 + 2 * i) 2)) :: r

def rolesOk (b : List Byte) : Bool := b.length == 8 && b.all fun m => decide (m.toNat < 8)

/-- R443 but for the comparison with OTP (R7). -/
def imageOk (img : List Byte) : Bool :=
  headerOk img && match sections 8 (img.drop 32) with
  | none => false
  | some ss =>
    let find := fun t => (ss.find? fun e => e.1 == t).map (·.2)
    let has := fun t (p : List Byte → Bool) => match find t with | some b => p b | none => false
    let opt := fun t (p : List Byte → Bool) => match find t with | some b => p b | none => true
    rising (ss.map (·.1)) && ss.all (fun e => inRange e.1 1 6) && has 1 generalOk && opt 2 regsOk && opt 3 mapOk
      && has 4 kingpostOk && opt 5 (fun b => (privParse 9 b).isSome) && has 6 rolesOk

def profileOfImage (img : List Byte) : ProfileKind :=
  match leAt ((psSection img 1).getD []) 0 1 with | 1 => .s | 2 => .g | _ => .none

def ProfileKind.code : ProfileKind → Nat
  | .none => 0 | .s => 1 | .g => 2

/-- The digest and the privileged table of an engine under the set in force (Table 14-3). -/
def State.privOf (s : State) (e : Nat) : BitVec 256 × List (BitVec 16) :=
  (((privParse 9 (s.psec 5)).getD []).drop e).headD (0, [])

/-! ## PSET_NONCE (R444) -/

/-- PSET_NONCE: 16 random bytes and the next sequence number. -/
def State.doPsetNonce (s : State) (b : Buf) : State × Status × Nat :=
  let n := Config.random128 s.free
  let q := nextSeq s.ps.seq
  let s := { s.freeNext with ps := { s.ps with nonce := some (n, q, s.now) } }
  (s.emit (.hostWrite b.addr (leBytes 16 n.toNat ++ leBytes 4 q.toNat)), .ok, 0)

def nonceTicks : Nat := 86400 * secTicks

/-- A nonce is outstanding and has not expired. -/
def State.nonceLive (s : State) : Bool := match s.ps.nonce with
  | some (_, _, t) => decide (s.now < t + nonceTicks)
  | none => false

/-- NONCE_EXPIRY: 86,400 s after issue. -/
def execNonceExpiry (s : State) : Host.Outcome State Fault Refusal :=
  .next (match s.ps.nonce with
    | none => s
    | some (_, _, t) => s.whenDue (t + nonceTicks) fun s => { s with ps := { s.ps with nonce := none } })

/-! ## Signatures by two keys (R439, R440, R445, R446) -/

/-- Key slot of a role: role A is 0 to 3, role B 4 to 7. -/
def State.keySlot (s : State) (role slot : Nat) : KeySlot := s.ps.keys.get (4 * role + slot)

/-- The permission mask of a slot (R440). -/
def State.keyMask (s : State) (role slot : Nat) : Nat :=
  match s.ps.image with
  | none => 7
  | some _ => leAt (s.psec 6) (4 * role + slot) 1

/-- The keys and signatures that end a request or token. -/
structure Sigs where
  keyA : List Byte
  keyB : List Byte
  sigA : List Byte
  sigB : List Byte

def sigsOf (bs : List Byte) : Sigs :=
  ⟨slice bs 0 1793, slice bs 1793 1793, slice bs 3586 1280, slice bs 4866 1280⟩

/-- Steps 0x04 and 0x05: the slot is ACTIVE, holds the key's digest and has the permission. -/
def State.keyOk (s : State) (role slot perm : Nat) (key : List Byte) : Bool :=
  decide (slot < 4) && (s.keySlot role slot).state == .active && (s.keySlot role slot).digest == shake256 key
    && s.keyMask role slot / 2 ^ perm % 2 == 1

/-! ## Key changes (R451, R452) -/

/-- One operation of a key-change body applied to the slots and the owner slot, when it is valid. -/
def keyOp (op : List Byte) (k : Tab KeySlot × KeySlot) : Option (Tab KeySlot × KeySlot) :=
  let role := leAt op 1 1
  let slot := leAt op 2 1
  let dig := BitVec.ofNat 256 (leAt op 8 32)
  let i := 4 * role + slot
  let anywhere := (List.range 8).any (fun j => (k.1.get j).state == .active && (k.1.get j).digest == dig)
    || (k.2.state == .active && k.2.digest == dig)
  if !zeros (slice op 3 5) ∨ 1 < role ∨ 3 < slot then none
  else if leAt op 0 1 = 1 then
    if (k.1.get i).state = .empty ∧ !anywhere then some (k.1.set i ⟨.active, dig⟩, k.2) else none
  else if leAt op 0 1 = 2 then
    if (k.1.get i).state = .active ∧ dig = 0 then some (k.1.upd i fun x => { x with state := .revoked }, k.2) else none
  else if leAt op 0 1 = 3 then
    if role = 0 ∧ slot = 0 ∧ k.2.state = .empty ∧ !anywhere then some (k.1, ⟨.active, dig⟩) else none
  else none

def keyOps : Nat → List Byte → Tab KeySlot × KeySlot → Option (Tab KeySlot × KeySlot)
  | 0, _, k => some k
  | n + 1, bs, k => match keyOp (bs.take 40) k with
    | some k => keyOps n (bs.drop 40) k
    | none => none

/-- The key slots after a valid key-change body. -/
def State.keyBody (s : State) (b : List Byte) : Option (Tab KeySlot × KeySlot) :=
  let n := leAt b 3 1
  if leAt b 0 2 ≠ 0xA5E3 ∨ leAt b 2 1 ≠ 1 ∨ !zeros (slice b 4 4) ∨ n < 1 ∨ 4 < n ∨ b.length ≠ 8 + 40 * n then none
  else match keyOps n (b.drop 8) (s.ps.keys, s.ps.owner) with
    | none => none
    | some k =>
      let has := fun role => (List.range 4).any fun j => (k.1.get (4 * role + j)).state == .active
      if has 0 && has 1 then some k else none

/-- R452: neither role has an ACTIVE slot. -/
def State.noKeys (s : State) : Bool := (List.range 8).all fun j => (s.ps.keys.get j).state != .active

/-- A key change that adds a digest to a role (R452). -/
def addsDigest (b : List Byte) (role : Nat) (dig : BitVec 256) : Bool :=
  (List.range (leAt b 3 1)).any fun i =>
    let op := slice b (8 + 40 * i) 40
    leAt op 0 1 == 1 && leAt op 1 1 == role && BitVec.ofNat 256 (leAt op 8 32) == dig

/-! ## PSET_COMMIT and KEY_CHANGE (R445 to R448) -/

/-- Step 0x09: what the state of the octads forbids. -/
def State.octadsAllow (s : State) (img : List Byte) : Bool :=
  let new := imgOctCfg img
  (s.ps.profile == .none || profileOfImage img == s.ps.profile ||
      (List.range 8).all fun n => (new / 2 ^ n % 2 == 0 && !s.configured n) || (s.oct n).state.still)
    && (List.range 8).all fun n =>
      ((new / 2 ^ n % 2 == 1) == s.configured n || (s.oct n).state.still)
        && (!(s.oct n).state.active || decide (imgNmin img n ≤ s.ncNow n))

/-- The steps of Table 14-7 up to 0x0A: the first that fails gives its code and status; the flag says whether the nonce is
consumed (from the start of step 0x06). -/
def State.commitSteps (s : State) (kind : Nat) (req : List Byte) : Except (Nat × Status × Bool) Commit :=
  let len := leAt req 4 4
  let body := slice req 64 len
  let sg := sigsOf (req.drop (64 + len))
  let enrol := s.noKeys
  let seq := BitVec.ofNat 32 (leAt req 12 4)
  let m := shake512 (body ++ leBytes 8 s.ps.uid.toNat ++ slice req 16 16 ++ slice req 12 4)
  if leAt req 0 2 ≠ 0xA5E1 ∨ leAt req 2 1 ≠ 1 ∨ leAt req 3 1 ≠ kind ∨ !zeros (slice req 10 2) ∨ !zeros (slice req 32 32)
      ∨ !(if kind = 1 then inRange len 32 65536 else inRange len 48 168) ∨ req.length ≠ 64 + len + 6146 then
    .error (0x01, .refused, false)
  else match s.ps.nonce with
  | none => .error (0x02, .state, false)
  | some (nn, q, t) =>
    if t + nonceTicks ≤ s.now then .error (0x02, .state, false)
    else if nn.toNat ≠ leAt req 16 16 ∨ q ≠ seq then .error (0x03, .authFail, false)
    else if !(if enrol then kind == 2 && addsDigest body 0 (shake256 sg.keyA) else s.keyOk 0 (leAt req 8 1) (kind - 1) sg.keyA) then
      .error (0x04, .authFail, false)
    else if !(if enrol then kind == 2 && addsDigest body 1 (shake256 sg.keyB) else s.keyOk 1 (leAt req 9 1) (kind - 1) sg.keyB) then
      .error (0x05, .authFail, false)
    else if !Config.falconVerify sg.keyA m sg.sigA then .error (0x06, .authFail, true)
    else if !Config.falconVerify sg.keyB m sg.sigB then .error (0x07, .authFail, true)
    else if kind = 1 then
      if !imageOk body ∨ (profileOfImage body).code < s.ps.profile.code then .error (0x08, .refused, true)
      else if !s.octadsAllow body then .error (0x09, .state, true)
      else if s.nvmHeld then .error (0x0A, .state, true)
      else .ok ⟨false, req, false, false, body, seq, none, profileOfImage body⟩
    else match s.keyBody body with
      | none => .error (0x08, .refused, true)
      | some k =>
        if s.nvmHeld then .error (0x0A, .state, true)
        else .ok ⟨true, (s.bel.content .pset).getD [], false, false, [], seq, some k, s.ps.profile⟩

/-- PSET_REJECT with its ERR code (Table 14-11). -/
def State.tellReject (s : State) (err : Nat) : State := s.raise 0x3901 0 [BitVec.ofNat 8 err]

/-- A commit that completes other than OK: PSET_STAT.ERR and PSET_REJECT; its store is never loaded (Table 14-8). -/
def State.rejectCommit (s : State) (err : Nat) : State :=
  ({ s.dropWrite .pset with ps := { s.ps with err := BitVec.ofNat 8 err, commit := none } }).tellReject err

/-- A PSET_COMMIT that ends before the steps of Table 14-7, with no code of that table (DESIGN CHOICE, log entry 112). -/
def State.rejectEarly (s : State) (ring code : Nat) (st : Status) : State :=
  if ring = 0 ∧ code = 0x31 ∧ st ≠ .ok then s.tellReject 0 else s

/-- PSET_COMMIT (kind 1) and KEY_CHANGE (kind 2): verified at once; the inactive store, with SEQ as its generation, and OTP are then
written, and PSET_APPLIED ends the commit.  The status is the failed step's, or none while the commit goes on.  One commit goes on at
a time (DESIGN CHOICE, log entry 112). -/
def State.startCommit (s : State) (kind imglen : Nat) : State × Option Status :=
  if s.ps.commit.isSome then (s.tellReject 0, some .busy)
  else match s.commitSteps kind (memReadList 0 imglen s.staging) with
  | .error (err, st, consumed) =>
    let s := if consumed then { s with ps := { s.ps with nonce := none } } else s
    (s.rejectCommit err, some st)
  | .ok c => (({ s with ps := { s.ps with nonce := none, commit := some c } }).writePart .pset c.seq.toNat c.request, none)

/-! ## Application (R448, R449, R560) -/

/-- The octads that the set configures enter Blocked, the others Unconfigured (Table 18-5). -/
def State.configureOctads (s : State) : State :=
  State.startLanes (forNat 8 (fun n s =>
    if s.configured n then
      if (s.oct n).state = .unconfigured then s.updOct n fun o => { o with state := .blocked } else s
    else if (s.oct n).state = .blocked then (s.haltSelection n).updOct n fun o => { o with state := .unconfigured } else s) s)

/-- Kingpost is given the KINGPOST section of the set in force (R413). -/
def State.deliverKingpost (s : State) : State :=
  let b := s.psec 4
  { s with kp := { s.kp with a := { s.kp.a with newParams := some b, newSeen := false },
                             b := { s.kp.b with newParams := some b, newSeen := false },
                             deliveredAt := s.kp.a.time } }

/-- The new set takes effect. -/
def State.applySet (s : State) (c : Commit) : State :=
  let s := { s with ps := { s.ps with
    image := some c.image
    seq := c.seq
    digest := shake256 c.image
    profile := c.profile
    appliedAt := some s.now
    err := 0
    commit := none } }
  let s := ((s.loadRwp).configureOctads).deliverKingpost
  s.raise 0x3902 0 (leBytes 4 c.seq.toNat)

/-- The new keys take effect; the set in force stays (R451). -/
def State.applyKeys (s : State) (c : Commit) (k : Tab KeySlot × KeySlot) : State :=
  ({ s with ps := { s.ps with keys := k.1, owner := k.2, seq := c.seq, err := 0, commit := none } }).raise 0x3903 0 []

/-- The descriptor of the commit, if the host interface still holds it. -/
def State.finishWaiting (s : State) (k : WaitKind) (st : Status) (result : Nat) : State :=
  let done := s.hif.waiting.filter fun w => w.kind = k
  let s := { s with hif := { s.hif with waiting := s.hif.waiting.filter fun w => w.kind ≠ k } }
  done.foldl (fun s w => s.completeNow w.d (if st = .ok ∧ w.late then .late else st) result) s

/-- PSET_APPLIED: the writes have been verified, or not.  Verified writes take effect at a base frame boundary only, so at any
other tick the command changes nothing (R448).  A LOCKOUT entered before the copy header is written abandons the commit; the model has
no event for that write, so a free value says which came first.  A failed verification with an OTP program under way is OTP_PROG_FAIL
or a store failure, by a free value (log entry 4). -/
def execPsetApplied (verified : Bool) (s : State) : Host.Outcome State Fault Refusal :=
  .next (match s.ps.commit with
    | none => s
    | some c =>
      let f := s.freeNat % 2
      if verified ∧ s.reaches s.fr.epoch = false then s
      else if c.locked ∧ f = 1 then (s.freeNext.rejectCommit 0x0B).finishWaiting .pset .state 0
      else if !verified then
        let otp := c.keyChange || c.profile != s.ps.profile
        let s := s.freeNext
        let s := if otp && f == 0 then s.raise 0x3907 0 [] else s
        (s.rejectCommit 0x0A).finishWaiting .pset .state 0
      else
        let s := (if c.locked then s.freeNext else s).finishWrite .pset
        let s := match c.keys with
          | some k => s.applyKeys c k
          | none => s.applySet c
        s.finishWaiting .pset .ok c.seq.toNat)

/-- A SHUT crossing during a commit: it completes with STATE unless its store was complete, which a free value says (Table 14-8, log
entry 4). -/
def State.shutCommit (s : State) : State :=
  match s.ps.commit with
  | none => s
  | some c =>
    if c.stored then s
    else
      let f := s.freeNat % 2
      let s := s.freeNext
      if f = 1 then { s with ps := { s.ps with commit := some { c with stored := true } } }
      else (s.rejectCommit 0x0A).finishWaiting .pset .state 0

/-! ## Attestation (R457) -/

/-- Bytes 0 to 159 of the quote (Table 14-9). -/
def State.quoteBody (s : State) (challenge : BitVec 64) : List Byte :=
  let p := s.ps
  let slot := p.fwRunning.getD 0
  let fw := p.fw.get slot
  leBytes 2 0xA5D1 ++ [1, 0] ++ leBytes 6 p.lot.toNat ++ [p.wafer, p.dieX, p.dieY] ++ [0x41, 0x31]
    ++ [BitVec.ofNat 8 p.profile.code] ++ leBytes 8 p.uid.toNat ++ leBytes 8 challenge.toNat
    ++ leBytes 32 Config.bootRomDigest.toNat ++ leBytes 32 (if p.fwRunning.isSome then fw.digest.toNat else 0)
    ++ leBytes 32 (if p.image.isSome then p.digest.toNat else 0) ++ leBytes 4 p.seq.toNat ++ leBytes 4 s.opsecNow
    ++ leBytes 4 s.bel.pcc ++ leBytes 4 (if p.fwRunning.isSome then fw.version.toNat else 0)
    ++ [BitVec.ofNat 8 slot, BitVec.ofNat 8 p.svnFloor] ++ List.replicate 6 0 ++ leBytes 8 s.now

def State.quote (s : State) (challenge : BitVec 64) : List Byte :=
  let q := s.quoteBody challenge
  q ++ leBytes 1280 (Config.identitySign (shake512 q)).toNat

/-- The identity certificate (Table 14-10): its key and signature are the die's own. -/
def State.certificate (s : State) : List Byte :=
  let c := leBytes 3100 Config.identityCert.toNat
  leBytes 2 0xA5D2 ++ [1, 0] ++ slice (s.quoteBody 0) 4 12 ++ leBytes 8 s.ps.uid.toNat ++ slice c 24 1793 ++ [0, 0, 0]
    ++ slice c 1820 1280

/-- ATTEST. -/
def State.doAttest (s : State) (b : Buf) (challenge : BitVec 64) : State × Status × Nat :=
  if b.len = 1440 then (s.emit (.hostWrite b.addr (s.quote challenge)), .ok, 0)
  else if b.len = 4540 then (s.emit (.hostWrite b.addr (s.quote challenge ++ s.certificate)), .ok, 0)
  else (s, .refused, 0)

/-! ## Firmware (R454 to R456) -/

/-- A staged firmware image of well-formed shape: whether the owner signature is present. -/
def fwShape (img : List Byte) : Option Bool :=
  let fl := leAt img 3 1
  let len := leAt img 4 4
  if leAt img 0 2 ≠ 0xA5F1 ∨ leAt img 2 1 ≠ 1 ∨ 1 < fl ∨ 126655 < len ∨ 63 < leAt img 12 1 ∨ !zeros (slice img 13 51)
      ∨ img.length ≠ 64 + len + 1280 + (if fl = 1 then 1793 + 1280 else 0) then none
  else some (fl == 1)

/-- The owner key that ends an image, and whether its signature verifies. -/
def fwOwnerKey (img : List Byte) : List Byte := slice img (64 + leAt img 4 4 + 1280) 1793
def fwOwnerOk (img : List Byte) : Bool :=
  let len := leAt img 4 4
  leAt img 3 1 == 1
    && Config.falconVerify (fwOwnerKey img) (shake512 (img.take (64 + len))) (slice img (64 + len + 1280 + 1793) 1280)

/-- What a slot holds once an image is written. -/
def fwSlotOf (img : List Byte) : FwSlot where
  valid := true
  version := BitVec.ofNat 32 (leAt img 8 4)
  svn := leAt img 12 1
  digest := shake256 (img.take (64 + leAt img 4 4))
  owner := if fwOwnerOk img then some (shake256 (fwOwnerKey img)) else none

/-- The digest of the boot ROM's Askica key matches OTP (R455). -/
def State.askicaOk (s : State) : Bool := shake256 Config.askicaKey == s.ps.askicaDigest

/-- The Askica signature of an image verifies, and where the owner slot is ACTIVE the owner's (R455). -/
def State.fwSigned (s : State) (img : List Byte) : Bool :=
  let len := leAt img 4 4
  s.askicaOk && Config.falconVerify Config.askicaKey (shake512 (img.take (64 + len))) (slice img (64 + len) 1280)
    && (s.ps.owner.state != .active || (fwOwnerOk img && shake256 (fwOwnerKey img) == s.ps.owner.digest))

/-- FW_INSTALL: STATE for the running slot, REFUSED for a malformed image, AUTH_FAIL for a signature or digest mismatch,
REFUSED for an SVN below the floor; no NVM program starts while SHUT holds it (R529), which answers STATE (log entry 11).  The slot is
then erased and written, and the marker after it; the descriptor completes when both are (R456). -/
def State.doFwInstall (s : State) (slot imglen : Nat) : State × Option Status :=
  let img := memReadList 0 imglen s.staging
  if s.ps.fwRunning = some slot then (s, some .state)
  else match fwShape img with
  | none => (s, some .refused)
  | some _ =>
    if !s.fwSigned img then (s, some .authFail)
    else if leAt img 12 1 < s.ps.svnFloor then (s, some .refused)
    else if s.nvmHeld then (s, some .state)
    else (s.writePart (if slot = 0 then .fw0 else .fw1) 1 img, none)

/-- R455: whether a slot's image is valid at boot. -/
def State.fwValid (s : State) (slot : Nat) : Bool :=
  let f := s.ps.fw.get slot
  f.valid && s.askicaOk && decide (s.ps.svnFloor ≤ f.svn) && (s.ps.owner.state != .active || f.owner == some s.ps.owner.digest)

/-! ## Debug authorisation (R458 to R460) -/

/-- Whether debug access needs a grant. -/
def State.debugLocked (s : State) : Bool :=
  match s.ps.profile with
  | .none => false
  | .s => leAt (s.psec 1) 2 1 % 2 == 1
  | .g => true

/-- Whether an access of SCOPE bit i is open now. -/
def State.debugAllows (s : State) (i : Nat) : Bool :=
  !s.debugLocked || match s.ps.grant with
    | some (scope, till) => scope.toNat / 2 ^ i % 2 == 1 && decide (s.now < till)
    | none => false

/-- A JTAG instruction is selected; the pins are driven by a boundary-scan test only while that one is (R459). -/
def State.select (s : State) (ir : Byte) : State := { s with ps := { s.ps with ir := ir }, sys := { s.sys with scan := none } }

/-- JTAG_CHALLENGE: instruction 0x2A captures 16 random bytes, valid for one token. -/
def execJtagChallenge (s : State) : Host.Outcome State Fault Refusal :=
  .next (
    if !s.alive then s
    else
      let s := s.select 0x2A
      let n := Config.random128 s.free
      ({ s.freeNext with ps := { s.ps with challenge := some n } }).emit (.tdo (leBytes 16 n.toNat)))

/-- The token's ERR code under steps 0x01 and 0x03 to 0x07. -/
def State.tokenErr (s : State) (t : List Byte) : Nat :=
  let sg := sigsOf (t.drop 32)
  let dur := leAt t 4 4
  let m := shake512 (t.take 32 ++ leBytes 8 s.ps.uid.toNat)
  if leAt t 0 2 ≠ 0xA5D4 ∨ leAt t 2 1 ≠ 1 ∨ 15 < leAt t 3 1 ∨ !zeros (slice t 10 6) ∨ !inRange dur 1 28800 ∨ t.length ≠ 6178 then 0x01
  else if s.ps.challenge ≠ some (BitVec.ofNat 128 (leAt t 16 16)) then 0x03
  else if !s.keyOk 0 (leAt t 8 1) 2 sg.keyA then 0x04
  else if !s.keyOk 1 (leAt t 9 1) 2 sg.keyB then 0x05
  else if !Config.falconVerify sg.keyA m sg.sigA then 0x06
  else if !Config.falconVerify sg.keyB m sg.sigB then 0x07
  else 0

/-- JTAG_TOKEN: instruction 0x2B shifts out the last result and takes a token, which uses the challenge up. -/
def execJtagToken (t : List Byte) (s : State) : Host.Outcome State Fault Refusal :=
  .next (
    if !s.alive then s
    else
      let err := s.tokenErr t
      let s := (s.select 0x2B).emit (.tdo [s.ps.tokenResult])
      let p := { s.ps with challenge := none, tokenResult := BitVec.ofNat 8 err }
      if err ≠ 0 then ({ s with ps := p }).raise 0x3906 0 []
      else
        let scope := BitVec.ofNat 4 (leAt t 3 1)
        ({ s with ps := { p with grant := some (scope, s.now + leAt t 4 4 * secTicks) } }).raise 0x3905 0
          [BitVec.ofNat 8 scope.toNat])

/-- The JTAG instruction of an access (log entry 111). -/
def jtagInstr : JtagAccess → Byte
  | .read => Config.jtagCode 0
  | .write _ => Config.jtagCode 1
  | .scan _ => Config.jtagCode 2
  | .idcode => Config.jtagCode 3
  | .bypass => Config.jtagCode 4

/-- JTAG_MEMORY_ACCESS: a read (SCOPE [1]) or write (SCOPE [2]) of on-chip memory, as one space of the 23 MiB of R33 in bytes, past
which there is no word to write; a boundary-scan test (SCOPE [3]); IDCODE and BYPASS, which need no grant (R458). Log entry 111. -/
def execJtagMemoryAccess (addr : Word) (write : JtagAccess) (s : State) : Host.Outcome State Fault Refusal :=
  .next (
    if !s.alive then s
    else
      let s := s.select (jtagInstr write)
      match write with
      | .read =>
        if !s.debugAllows 1 then s
        else s.emit (.tdo (leBytes 4 (Tab.look (Config.memoryWord addr.toNat) s.sys.sram addr.toNat).toNat))
      | .write w =>
        if !s.debugAllows 2 || decide (sramBytes ≤ addr.toNat) then s
        else { s with sys := { s.sys with sram := Tab.put addr.toNat w s.sys.sram } }
      | .scan pins => if !s.debugAllows 3 then s else { s with sys := { s.sys with scan := some pins } }
      | .idcode => s.emit (.tdo (leBytes 4 0x4A9610B3))
      | .bypass => s.emit (.tdo [0]))

end Sys2Proof.Machine
end

