-- ==== Sys2Proof/Machine/Nvm.lean ====
section
/-! DEFINITION. What the end of an erase of the NVM brings about: the writes of partitions that it lets end, descriptors that wait
for them, a freeze (R448, R456, R511, R521, R524, R529). -/

namespace Sys2Proof.Machine

/-- The firmware slot of a partition. -/
def Part.fwSlot : Part → Option Nat
  | .fw0 => some 0
  | .fw1 => some 1
  | _ => none

/-- A firmware slot that is being erased holds no valid image. -/
def State.spoilSlot (s : State) (w : PartWrite) : State :=
  match w.part.fwSlot with
  | some i => { s with ps := { s.ps with fw := s.ps.fw.upd i fun f => { f with valid := false } } }
  | none => s

/-- The words of a write whose copy is erased are programmed: a firmware slot is valid and the marker is written after it; with the
marker FW_INSTALL completes (R456).  A protection-set store waits for the end of its commit (R448). -/
def State.endWrite (s : State) (w : PartWrite) : State :=
  let c := w.content
  match w.part with
  | .pset => s
  | .fw0 => (({ s with ps := { s.ps with fw := s.ps.fw.set 0 (fwSlotOf c) } }).putCopy w).writePart .fwmark (s.bel.nextGen .fwmark) [0]
  | .fw1 => (({ s with ps := { s.ps with fw := s.ps.fw.set 1 (fwSlotOf c) } }).putCopy w).writePart .fwmark (s.bel.nextGen .fwmark) [1]
  | .fwmark => (({ s with ps := { s.ps with fwPreferred := leAt c 0 1 } }).putCopy w).finishWaiting .fw .ok 0
  | .usemap | .c0 | .csave | .spmap => s.putCopy w

/-- A write of this partition is under way. -/
def Belfry.writing (b : Belfry) (p : Part) : Bool := b.writes.any fun w => w.part == p

/-- A write that lost its copy for good ends its descriptor with STATE (R524; log entry 113). -/
def State.loseWrites (s : State) (before : Belfry) : State :=
  let gone := fun p => before.writing p && !s.bel.writing p
  let s := if gone .pset then (s.rejectCommit 0x0A).finishWaiting .pset .state 0 else s
  if gone .fw0 || gone .fw1 || gone .fwmark then s.finishWaiting .fw .state 0 else s

/-- A freeze takes effect once no erase of the record areas is under way (R521). -/
def State.settleFreeze (s : State) : State :=
  if !s.bel.freezing || s.bel.erasesNow then s
  else ({ s with bel := { s.bel with freezing := false, frozen := some s.now } }).finishWaiting .freeze .ok 0

/-- An erase that may not begin: of the record areas while they are frozen or read-only (R521, R525); any while SHUT holds it (R529); as
deferrable work while that waits, but for a protection-set store (Table 1-8). -/
def State.eraseWaits (s : State) (sector : Nat) : Bool :=
  (decide (sectorArea sector = 0) && (s.bel.frozen.isSome || s.bel.readOnly)) || s.nvmHeld
    || (s.defers && !(decide (34 ≤ sector) && decide (sector < 52)))

/-- The end of an erase that verifies in the end, or whose sector has been retired for another. -/
def State.eraseEnds (s : State) (sector : Nat) : State :=
  let mine := s.bel.writes.filter fun w => w.todo.contains sector
  let s := mine.foldl State.spoilSlot { s with bel := s.bel.erased sector }
  ((s.bel.writes.filter fun w => w.todo.isEmpty).foldl State.endWrite s).settleFreeze

/-- SECTOR_ERASE: an erase in the background ends after `fails` failed verifications; the third retires the sector. -/
def execSectorErase (sector : Fin 512) (fails : Fin 4) (s : State) : Host.Outcome State Fault Refusal :=
  .next (
    if !s.bel.erases sector || s.eraseWaits sector then s
    else ((s.eraseFails sector fails).loseWrites s.bel).eraseEnds sector)

/-- A SHUT crossing and the NVM: the erase under way is aborted, a freeze that waited for it takes effect, a commit ends (R529). -/
def State.shutNvm (s : State) : State := s.abortErase.settleFreeze.shutCommit

end Sys2Proof.Machine
end

