-- ==== Sys2Proof/Machine/Clocks.lean ====
section
/-! DEFINITION. Clock generation and hopping (chapter 15): band search and lock of the PLLs, hops, references, phase jumps;
and the entry into IDLE that the last lock of start-up gives (R538). -/

namespace Sys2Proof.Machine

def hopAddr (p : Nat) : Nat := 0x400010 + 8 * p

/-- N, F, P of a hop point; EN, BVALID. -/
def State.hopN (s : State) (p : Nat) : Nat := s.fld (hopAddr p) 24 8
def State.hopF (s : State) (p : Nat) : Nat := s.fld (hopAddr p) 0 24
def State.hopP (s : State) (p : Nat) : Nat := s.fld (hopAddr p + 4) 0 6
def State.hopEn (s : State) (p : Nat) : Bool := s.fld (hopAddr p + 4) 7 1 == 1
def State.bandValid (s : State) (p : Nat) : Bool := s.fld (hopAddr p + 4) 13 1 == 1

/-- R465: N + F/2^24 from 128 to 160; P even, 8 to 40; f exactly 100 MHz, or from 104 MHz to 400 MHz. -/
def hopValid (n f p : Nat) : Bool :=
  let m := n * 2 ^ 24 + f
  decide (128 * 2 ^ 24 ≤ m) && decide (m ≤ 160 * 2 ^ 24) && p % 2 == 0 && decide (8 ≤ p) && decide (p ≤ 40)
    && (decide (m = 4 * p * 2 ^ 24) || (decide (104 * p * 2 ^ 24 ≤ 25 * m) && decide (m ≤ 16 * p * 2 ^ 24)))

def State.pointValid (s : State) (p : Nat) : Bool := hopValid (s.hopN p) (s.hopF p) (s.hopP p)

/-- Two points of equal frequency (R471). -/
def State.sameFreq (s : State) (a b : Nat) : Bool :=
  (s.hopN a * 2 ^ 24 + s.hopF a) * s.hopP b == (s.hopN b * 2 ^ 24 + s.hopF b) * s.hopP a

def State.pll (s : State) : Pll → PllSt
  | .time => s.clk.time
  | .core => s.clk.core
  | .quad q => s.clk.quads.get q

def State.setPll (s : State) (p : Pll) (x : PllSt) : State :=
  match p with
  | .time => { s with clk := { s.clk with time := x } }
  | .core => { s with clk := { s.clk with core := x } }
  | .quad q => { s with clk := { s.clk with quads := s.clk.quads.set q x } }

def State.updPll (s : State) (p : Pll) (f : PllSt → PllSt) : State := s.setPll p (f (s.pll p))

/-- The core PLL's source number in CLK_BAND_STALE and CLK_CORE_LOCK_FAIL: the point it locks to. -/
def State.corePoint (s : State) : Nat :=
  match s.clk.bootPoints with
  | b :: _ => b
  | [] => (s.clk.searching.orElse fun _ => s.clk.hopTo).getD s.clk.point

/-- Step 9 of Table 18-3 is under way: the PLL-lock step of start-up (R468). -/
def State.inLockStep (s : State) : Bool := s.sys.dev == .boot && s.sys.step == 9 && !s.sys.hold

/-- Whether a PLL may search or lock now: the time PLL from step 9 on, with an active reference, the core PLL once the timebase runs, a quad PLL in
every state but OFF and RESET. -/
def State.pllLive (s : State) (p : Pll) : Bool :=
  match p with
  | .time => s.clk.active.isSome && (s.inLockStep || (s.alive && s.clk.started))
  | .core => s.clk.started && (s.inLockStep || s.alive)
  | .quad _ => s.alive

/-! ## Entry into IDLE (R538, Table 18-2) -/

/-- The configured octads enter Blocked; DEV_BOOTT takes the time from PWRGOOD, which no tick counts: a free value. -/
def State.enterIdle (s : State) : State :=
  let ms := s.freeNat % 65536
  let s := { s.freeNext with sys := { s.sys with dev := .idle, step := 15 } }
  (s.setFld 0x104 0 16 ms).configureOctads

/-! ## Band search (R467 to R470) -/

/-- The core PLL's search goes on to the next point of start-up (R468), if there is one. -/
def State.nextBootPoint (s : State) : State :=
  match s.clk.bootPoints with
  | _ :: b :: r =>
    { s with clk := { s.clk with bootPoints := b :: r, core := ⟨.search, 0, false, s.now⟩ } }
  | _ => s

/-- A failed search: after three in a row the PLL has failed to lock (R470, R482, R535).  At start-up a point that fails leaves the
search to the points below it (DESIGN CHOICE, log entry 105). -/
def State.searchFailed (s : State) (p : Pll) : State :=
  let n := (s.pll p).fails + 1
  let s := s.updPll p fun x => { x with fails := n, since := s.now }
  if n < 3 then s
  else
    let s := s.updPll p fun x => { x with state := .failed }
    match p with
    | .time =>
      if s.sys.dev = .boot then
        -- at start-up: recorded without its LOCKOUT reaction, the device held in BOOT
        { s with sys := { s.sys with hold := true } }.raiseRecorded 0x3606 0
      else s.raise 0x3606 0 []
    | .core => ((s.setFld (hopAddr s.corePoint + 4) 13 1 0).raise 0x3607 s.corePoint []).nextBootPoint
    | .quad q =>
      -- the lanes wait in OFF; their two hubs have lost both paths (R32)
      let s := (s.raise 0x3608 q []).lanesOff (((List.range 4).map fun i => 4 * q.val + i).filter fun l => (s.lane l).state ≠ .retired)
      (s.losePath (2 * q) 0x3608).losePath (2 * q + 1) 0x3608

/-- A full search that found its band: the entry of the point is written; a search hop then relocks to the point in force
with its stored band (R469). -/
def State.searchFound (s : State) (p : Pll) (band : BitVec 5) : State :=
  let s := s.updPll p fun x => { x with fails := 0, stored := true, since := s.now }
  match p with
  | .core =>
    let s := (s.setFld (hopAddr s.corePoint + 4) 8 5 band.toNat).setFld (hopAddr s.corePoint + 4) 13 1 1
    if s.clk.searching.isSome then
      { s with clk := { s.clk with searching := none, core := { s.clk.core with state := .relock, since := s.now } } }
    else s
  | _ => s

/-- The ticks that n reference cycles take, 16 each, once the tick count runs: 2.56 µs for the 64 of lock, 51.2 µs for the five
steps of a search (R466, R467).  Log entry 105. -/
def State.refWait (s : State) (p : Pll) (n : Nat) : Nat := if s.clk.started then (s.pll p).since + 16 * n else 0

/-- BAND_SEARCH_COMPLETE: a full search ends with a band after its five steps, or without lock. -/
def execBandSearchComplete (p : Pll) (band : Option (BitVec 5)) (s : State) : Host.Outcome State Fault Refusal :=
  .next (
    if !s.pllLive p || (s.pll p).state != .search then s
    else s.whenDue (s.refWait p 1280) fun s => match band with
      | some b => s.searchFound p b
      | none => s.searchFailed p)

/-! ## Lock and settling (R466, R468) -/

/-- A relock with a stored band may still lock: 5 µs from step 3 of Table 15-1, which comes at most 21 ticks after the first
step (R470). -/
def PllSt.inTime (x : PllSt) (now : Nat) : Bool := (x.state != .relock && x.state != .hop) || decide (now ≤ x.since + 2021)

/-- LOCK_DECLARED: 64 reference cycles within ±500 ppm, and within 5 µs where the stored band is used. The time PLL's first lock starts the tick
count (R112); at start-up the core PLL goes on to its next point. Log entry 105. -/
def execLockDeclared (p : Pll) (s : State) : Host.Outcome State Fault Refusal :=
  let x := s.pll p
  let ready := (x.state == .search && x.stored) || x.state == .relock || x.state == .hop
  .next (
    if !s.pllLive p || !ready || !x.inTime s.now then s
    else s.whenDue (s.refWait p 64) fun s =>
      let s := s.updPll p fun x => { x with state := .settling, since := s.now, fails := 0 }
      match p with
      | .time =>
        if s.clk.started then s
        else { s with clk := { s.clk with started := true } }
      | .core => s.nextBootPoint
      | .quad _ => s)

/-- The core's clock is about to change: the one it had so far is kept (R244, R474). -/
def State.clockTurn (s : State) : State :=
  { s with clk := { s.clk with since := s.now, was := ((s.clk.since, s.corePeriod) :: s.clk.was).take 16 } }

/-- The bypass interval of the core logic ends (R472): CLK_BPI in ticks.  The one that start-up ends follows no step 2 of a hop and is
not recorded. -/
def State.endBypass (s : State) : State :=
  match s.clk.bypassCore with
  | none => s
  | some t =>
    let n := min (s.now - t) 65535
    let s := s.clockTurn
    let s := { s with clk := { s.clk with bypassCore := none } }
    if s.sys.dev = .boot then s else (s.setFld 0x400054 0 16 n).setFld 0x400054 16 16 (max n (s.fld 0x400054 16 16))

/-- The core PLL's lock at point 0, settled, ends start-up (R468, R538). -/
def State.endBoot (s : State) : State :=
  match s.clk.bootPoints with
  | [] => s
  | b :: _ =>
    let s := { s with clk := { s.clk with bootPoints := [], point := b } }
    if s.inLockStep then s.enterIdle else s

/-- The time PLL re-zeroes its phase detector and relocks while the timebase runs on the bypass oscillator (R478).  An exchange
of time marks that is open as the interval starts is discarded with those that have a timestamp inside it (R481; log entry 50).  A ρ
that no 2^20 ticks have given yet is taken as it stands then (R480; log entry 4). -/
def State.startRelock (s : State) : State :=
  let s := if s.clk.rho = 0 then s.measureRho else s
  { s with
    clk := { s.clk with
      bypassTime := some s.now, held := none, frac := if s.clk.bypassTime.isSome then s.clk.frac else 0,
      time := { s.clk.time with state := .relock, since := s.now } }
    lanes := s.lanes.mapAll fun _ x => if x.t1.isSome then { x with marked := false, t1 := none } else x
    sensors := s.sensors.mapAll fun _ x => { x with
      spoiled := x.spoiled || (match x.gate with | some g => decide (s.now ≤ g + 16000) | none => false) } }

/-- SETTLING_WAIT_END: 2 µs after lock the logic returns to the PLL; a hop is complete; a phase jump that waited for the hop
relocks now (Table 15-2). -/
def execSettlingWaitEnd (p : Pll) (s : State) : Host.Outcome State Fault Refusal :=
  .next (
    if (s.pll p).state ≠ .settling then s
    else s.whenDue ((s.pll p).since + 800) fun s =>
      let s := s.updPll p fun x => { x with state := .locked }
      match p with
      | .time =>
        ({ s with clk := { s.clk with bypassTime := none, rhoAt := s.now } }).windowDone .timePll
      | .core =>
        let s := s.endBypass.endBoot
        let s := { s with clk := { s.clk with inHop := false } }
        let s := match s.clk.hopTo with
          | some t => ({ s with
              clk := { s.clk with point := t, hopTo := none }
              epl := { s.epl with wantPoint := if s.epl.wantPoint = some t then none else s.epl.wantPoint } }).count 0x400058 1
          | none => s
        if s.clk.held.isSome then s.startRelock else s
      | .quad q => (s.windowDone (.quad q)).startLanes)

/-- RELOCK_TIMEOUT: a relock with a stored band not locked within 5 µs goes on with a full search (R470). -/
def execRelockTimeout (p : Pll) (s : State) : Host.Outcome State Fault Refusal :=
  let x := s.pll p
  .next (
    if x.state ≠ .relock ∧ x.state ≠ .hop then s
    else s.whenDue (x.since + 2000) fun s =>
      let s := s.updPll p fun x => { x with state := .search, stored := false, fails := 0, since := s.now }
      match p with
      | .time => s.raise 0x3605 0 []
      | .core => s.raise 0x3605 (1 + s.corePoint) []
      | .quad _ => s)

/-! ## Hops (R469, R471, R472, R474) -/

/-- The core logic moves onto the bypass oscillator, or stays on it, and the core PLL starts anew. -/
def State.toBypass (s : State) (st : PllState) : State :=
  let s := if s.clk.bypassCore.isSome then s
    else { s.clockTurn with clk := { s.clockTurn.clk with bypassCore := some s.now } }
  { s with clk := { s.clk with core := { s.clk.core with state := st, since := s.now, fails := 0 } } }

/-- CLK_CORE_UNLOCK: the core PLL loses lock, in its settling wait also (R466); it relocks with its stored band, or by a full search.
Within a hop it goes on with step 4, outside one it raises the fault (R474). -/
def execClkCoreUnlock (s : State) : Host.Outcome State Fault Refusal :=
  .next (
    if s.clk.core.state ≠ .locked ∧ s.clk.core.state ≠ .settling then s
    else if s.clk.inHop then s.toBypass (if s.clk.hopTo.isSome then .hop else .relock)
    else
      let st : PllState := if s.bandValid s.corePoint then .relock else .search
      let s := s.toBypass st
      ({ s with clk := { s.clk with core := { s.clk.core with stored := false } } }).raise 0x3609 s.corePoint [])

/-! ## References (R475 to R479) -/

/-- A reference phase jump: during a hop the time PLL waits in holdover until step 6 (Table 15-2). -/
def State.phaseJump (s : State) : State :=
  if !s.clk.started then s
  else
    let id := s.flt.nextId
    let s := (s.raise 0x3604 0 []).count 0x400060 1
    let s := s.openWindow .timePll id 0x3604 0 none
    if s.clk.inHop then
      { s with clk := { s.clk with held := some s.clk.active, time := { s.clk.time with state := .holdover } } }
    else s.startRelock

/-- A switch-over to a reference (R476). -/
def State.switchTo (s : State) (b : Bool) : State :=
  ((({ s with clk := { s.clk with active := some b } }).count 0x40005C 1).raise 0x3602 (bit b) []).phaseJump

def State.qualified (s : State) (b : Bool) : Bool := if b then s.clk.qualB else s.clk.qualA

/-- The choice of the active reference (R476). Log entry 38. -/
def State.chooseRef (s : State) : State :=
  let pref := s.fld 0x400000 0 1 == 1
  match s.clk.active with
  | none =>
    let pick := if s.qualified pref then some pref else if s.qualified (!pref) then some (!pref) else none
    match pick with
    | none => s
    | some b =>
      let was := s.clk.time.state == .holdover
      let s := { s with clk := { s.clk with active := some b } }
      if was then s.phaseJump else s
  | some a =>
    if a ≠ pref ∧ s.qualified pref ∧ s.fld 0x400000 1 1 = 1 then s.switchTo pref else s

/-- CLK_REF_LOSS: a reference is lost, again perhaps before it qualified, which starts its qualification anew; if it was active the
device switches over, or enters holdover; a time PLL that has not locked yet has nothing to hold and searches anew.
Log entry 38. -/
def execClkRefLoss (b : Bool) (s : State) : Host.Outcome State Fault Refusal :=
  .next (
    if !s.alive then s
    else
      let c := if b then { s.clk with lostB := true, qualB := false } else { s.clk with lostA := true, qualA := false }
      let s := { s with clk := { c with refSince := c.refSince.set (bit b) s.now } }
      let s := s.raise 0x3601 (bit b) []
      if s.clk.active ≠ some b then s
      else if s.qualified (!b) then s.switchTo (!b)
      else
        let c := { s.clk with active := none }
        let s := { s with clk := if c.started then { c with time := { c.time with state := .holdover } }
          else { c with time := { c.time with state := .search, stored := false, since := s.now } } }
        if s.clk.started then s.raise 0x3603 0 [] else s)

/-- REF_QUALIFIED: a reference has gone QUAL_T ms without being lost. Log entry 38. -/
def execRefQualified (b : Bool) (s : State) : Host.Outcome State Fault Refusal :=
  .next (
    if !s.alive || s.qualified b then s
    else
      let t := s.clk.refSince.get (bit b)
      s.whenDue (if t = 0 then 0 else t + 400000 * s.fld 0x400000 2 10) fun s =>
      let c := if b then { s.clk with qualB := true, lostB := false } else { s.clk with qualA := true, lostA := false }
      ({ s with clk := c }).chooseRef)

/-- CLK_PHASE_JUMP: a time PLL phase error above 2 ns on two reference cycles, in the settling wait also (R466, R478). -/
def execClkPhaseJump (s : State) : Host.Outcome State Fault Refusal :=
  .next (if s.clk.time.state = .locked ∨ s.clk.time.state = .settling then s.phaseJump else s)

end Sys2Proof.Machine
end

