-- ==== Sys2Proof/Machine/Startup.lean ====
section
/-! DEFINITION. Power-up, boot, shut-down and built-in self-test (chapter 18, with R527, R528, R455, R450). -/

namespace Sys2Proof.Machine

/-! ## BIST blocks (Table 18-7, R546) -/

/-- Balls of a pin group (Table 20-1): 24 DPWM, 16 TRIP, TSTAMP with FAULT_N, 8 CONVST, four per sample port, four per SFI
port, REFCLK_A and REFCLK_B, QREFCLK. -/
def groupBalls : List Nat := [24, 16, 9, 8, 16, 8, 8, 4, 4, 4, 64]

/-- The terminal count of a block's segments. Log entry 29. -/
def bistTerminal (b : Nat) : Nat :=
  match b / 0x1000 with
  | 1 => 65536 | 2 => 262144 | 3 => 16384 | 4 => 4 * groupBalls.getD (b % 0x1000) 0 | _ => 1024

/-- The timeout of a block's segments in ticks (Table 18-7). -/
def bistTimeout (b : Nat) : Nat :=
  match b / 0x1000 with
  | 1 => 800000 | 2 => 2400000 | 3 => 800000 | _ => 400000

/-- The octads concerned, as a mask. -/
def State.bistOctads (s : State) (b : Nat) : Nat :=
  match b / 0x1000 with
  | 1 => 2 ^ (b % 0x1000 / 8) | 2 => 2 ^ (b % 0x1000) | 5 => 2 ^ (b % 0x1000 / 4) | _ => s.octCfg

def setBit (n : Nat) (i : Nat) (v : Bool) : Nat := putField n i 1 (bit v)

/-- The usability map with one block's bit set or cleared (R551). -/
def Sys.use (y : Sys) (b : Nat) (v : Bool) : Sys :=
  let i := b % 0x1000
  match b / 0x1000 with
  | 1 => { y with useTile := BitVec.ofNat 64 (setBit y.useTile.toNat i v) }
  | 2 => { y with useOct := BitVec.ofNat 8 (setBit y.useOct.toNat i v) }
  | 3 => { y with useXing := BitVec.ofNat 4 (setBit y.useXing.toNat i v) }
  | 4 => { y with usePin := BitVec.ofNat 11 (setBit y.usePin.toNat i v) }
  | _ => { y with useQuad := BitVec.ofNat 32 (setBit y.useQuad.toNat i v) }

def Sys.usable (y : Sys) (b : Nat) : Bool :=
  let i := b % 0x1000
  match b / 0x1000 with
  | 1 => y.useTile.getLsbD i
  | 2 => y.useOct.getLsbD i
  | 3 => y.useXing.getLsbD i
  | 4 => y.usePin.getLsbD i
  | _ => y.useQuad.getLsbD i

/-- The lanes that a tile's or lane quad's segment touches. -/
def bistLanes (b : Nat) : List Nat :=
  match b / 0x1000 with
  | 1 => [2 * (b % 0x1000), 2 * (b % 0x1000) + 1]
  | 5 => (List.range 4).map fun i => 4 * (b % 0x1000) + i
  | _ => []

/-! ## BIST segments (R546 to R551) -/

/-- What a segment destroys when it starts, with its window (R549). Log entries 29 and 59. -/
def State.startSegment (s : State) (b : Nat) : State :=
  let s := { s with sys := { s.sys with bist := { s.sys.bist with startAt := s.now } } }
  let s := (bistLanes b).foldl (fun s l =>
    if (s.lane l).state = .off ∨ (s.lane l).state = .retired then s
    else s.huntLane l .bringup) s
  let hubs := (bistLanes b).map hubOfLane
  let s := { s with cells := s.cells.mapAll fun i c =>
    if hubs.contains (i / 64) then { c with fb := .init, edges := [], cmdq := [], level := false } else c }
  let s :=
    if b / 0x1000 = 1 ∨ b / 0x1000 = 5 then
      forNat 8 (fun n s => if s.bistOctads b / 2 ^ n % 2 = 1 then
        (s.discardWindow n).updOct n fun o => { o with carry := 0 } else s) s
    else if b / 0x1000 = 2 ∨ b / 0x1000 = 3 then
      forNat 9 (fun e s => if (if e = 8 then 255 else s.bistOctads b) / 2 ^ (e % 8) % 2 = 1 then
        s.updEng e fun x => { x with running := false, older := [] } else s) s
    else s
  s.openWindow (.bist b) 0 0 0 none

/-- The blocks of a boot run: all but Kingpost's group 6 while OWN is set (R547, R549). Log entry 37. -/
def State.bootBlocks (s : State) : List Nat :=
  (List.range 64).map (0x1000 + ·) ++ (List.range 8).map (0x2000 + ·) ++ (List.range 4).map (0x3000 + ·)
    ++ ((List.range 11).filter fun g => g ≠ 6 ∨ s.fld 0x304060 30 1 = 0).map (0x4000 + ·) ++ (List.range 32).map (0x5000 + ·)

/-- Starts the first block of the list. -/
def State.startBlock (s : State) : State :=
  match s.sys.bist.blocks with
  | [] => s
  | b :: _ => s.startSegment b

/-- LOCKOUT during a segment: the run is abandoned with STATE, the map unchanged (Table 18-8). -/
def State.bistAbandon (s : State) (b : Nat) : State :=
  (({ s with sys := { s.sys with bist := Bist.init } }).windowDone (.bist b)).finishWaiting .bist .state 0

/-- A run that a LOCKOUT has abandoned completes on the next clock, or with its next command (Table 18-8). -/
def State.endAbandoned (s : State) : State :=
  match s.sys.bist.blocks with
  | b :: _ => if s.sys.dev = .lockout then s.bistAbandon b else s
  | [] => s

/-- A block's run is over: the next block starts, or the run of BIST ends.  A fault of the run that has locked the device out
abandons the run; start-up goes no further and the device stays in LOCKOUT (R6). -/
def State.endBlock (s : State) (b : Nat) : State :=
  if s.sys.dev = .lockout then s.bistAbandon b
  else
  let s := s.windowDone (.bist b)
  let y := s.sys.bist
  let rest := y.blocks.drop 1
  let s := { s with sys := { s.sys with bist := { y with blocks := rest, passes := 0, runs := 1, retried := false, busy := !rest.isEmpty } } }
  if !rest.isEmpty then s.startBlock
  else if y.boot then { s with sys := { s.sys with dev := .boot, step := 9 } }
  else
    s.finishWaiting .bist .ok (y.result + 4 * bit (s.sys.usable b) + 2 ^ 8 * (y.ball.toNat / 256) + 2 ^ 16 * (y.ball.toNat % 256))

/-- A block is marked unusable: BIST_UNUSABLE, its lanes OFF (R548, Table 18-7). -/
def State.markUnusable (s : State) (b : Nat) : State :=
  let s := (({ s with sys := s.sys.use b false }).saveTable .usemap).raise 0x3A03 b []
  let s := s.lanesOff (bistLanes b)
  ((bistLanes b).map hubOfLane).foldl (fun s t => s.losePath t 0x3A03) s

/-- A segment that stopped short of its terminal count: run once more, then unusable. -/
def State.segIncomplete (s : State) (b : Nat) (counter : Word) : State :=
  let s := s.raise 0x3A02 b (leBytes 4 counter.toNat)
  let y := s.sys.bist
  let s := { s with sys := { s.sys with bist := { y with result := 2, lastBlock := b, lastRetried := y.retried, retried := true } } }
  if y.retried then (s.markUnusable b).endBlock b else if s.sys.dev = .lockout then s.bistAbandon b else s.startSegment b

/-- A failed check. -/
def State.segFail (s : State) (b : Nat) (ball : BitVec 16) : State :=
  let s := s.raise 0x3A01 b (leBytes 2 ball.toNat)
  let y := s.sys.bist
  let s := { s with sys := { s.sys with bist := { y with result := 1, ball := ball, lastBlock := b, lastRetried := y.retried } } }
  (s.markUnusable b).endBlock b

/-- A pass: re-qualification needs two in a row and restores the block (R550). -/
def State.segPass (s : State) (b : Nat) : State :=
  let y := s.sys.bist
  let s := { s with sys := { s.sys with bist := { y with
    result := 0, lastBlock := b, lastRetried := y.retried, passes := y.passes + 1, runs := y.runs - 1, retried := false } } }
  if 1 < y.runs then s.startSegment b
  else if y.requalify ∧ y.passes + 1 = 2 ∧ !s.sys.usable b then
    let s := (({ s with sys := s.sys.use b true }).saveTable .usemap).raise 0x3A04 b []
    ((s.lanesOff ((bistLanes b).filter fun l => (s.lane l).state = .retired)).startLanes).endBlock b
  else if y.requalify ∧ y.passes + 1 = 2 then
    ((s.lanesOff ((bistLanes b).filter fun l => (s.lane l).state = .retired)).startLanes).endBlock b
  else s.endBlock b

/-- BIST_SEGMENT_END: its pattern counter, whether its check held, the first failing ball (row in the high byte). -/
def execBistSegmentEnd (counter : Word) (ok : Bool) (ball : BitVec 16) (s : State) : Host.Outcome State Fault Refusal :=
  .next (match s.sys.bist.blocks with
    | [] => s
    | b :: _ =>
      if s.sys.dev = .lockout then s.bistAbandon b
      else if counter.toNat < bistTerminal b then s.segIncomplete b counter
      else if ok then s.segPass b
      else s.segFail b ball)

/-- BIST_SEGMENT_TIMEOUT: the segment is INCOMPLETE whatever its signature.  Before the time PLL has locked no tick counts the
timeout (R536, log entry 29). -/
def execBistSegmentTimeout (counter : Word) (s : State) : Host.Outcome State Fault Refusal :=
  .next (match s.sys.bist.blocks with
    | [] => s
    | b :: _ =>
      if s.sys.dev = .lockout then s.bistAbandon b
      else s.whenDue (if s.clk.started then s.sys.bist.startAt + bistTimeout b else 0) fun s => s.segIncomplete b counter)

/-- BIST_RUN and BIST_REQUALIFY (R547, R550): REFUSED for the groups that run only at boot; STATE unless the device is IDLE
or RUN and every octad concerned stands still; BUSY while another runs or thermal enforcement is in force. Log entry 37. -/
def State.startBist (s : State) (b : Nat) (requalify : Bool) : State × Option Status :=
  let still := (List.range 8).all fun n => s.bistOctads b / 2 ^ n % 2 == 0 || (s.oct n).state.still || (s.oct n).state == .fenced
  if b = 0x4009 ∨ b = 0x400A then (s, some .refused)
  else if (s.sys.dev ≠ .idle ∧ s.sys.dev ≠ .run) ∨ !still then (s, some .state)
  else if s.sys.bist.busy ∨ s.epl.enforce then (s, some .busy)
  else if b = 0x4006 ∧ s.fld 0x304060 30 1 = 1 then (s, some .refused)
  else
    let y : Bist := { Bist.init with blocks := [b], runs := if requalify then 2 else 1, requalify := requalify, busy := true }
    (({ s with sys := { s.sys with bist := y } }).startBlock, none)

/-! ## Boot (R536, R455, R527, R450) -/

/-- Belfry as the NVM and hold-domain SRAM hold it: what was only in device memory is gone, and the writes under way with it; the mount
finds the sector ready ahead and those marked for re-erase blank, or erases them (R527). -/
def Belfry.remount (b : Belfry) : Belfry :=
  let marked := b.reErase ++ (match b.noteErase with | some x => [x] | none => [])
  let b := (marked.filter fun x => decide (108 ≤ x) && decide (x < 124)).foldl Belfry.clearNotes b
  let b := match b.countErase with
    | some x => b.clearCount x
    | none => b
  { b with
      staging := [], newest := none, newestWritten := false, noteDue := [], noteAt := .empty 0, frozen := none, freezing := false,
      flush := false, thawAt := none, lost := .init, lostSince := 0, secTick := 0, countAt := 0, csaveAt := 0, erasing := none,
      noteErase := none, reErase := [], ringReady := true, readOnly := false, writes := [], shut := 0 }

/-- PWRGOOD resets the main device (R559); identity, keys, sensor calibration, the NVM with its spare and usability maps, hold-domain
SRAM, Kingpost, the host's queue and every retirement stay (R388).  The set, C0, C̃ and the counts come from the NVM at boot.
Log entries 86, 98 and 106. -/
def State.resetMain (s : State) : State :=
  let s := State.loadUse <| State.loadSpares { State.reset with
    pending := s.pending
    free := s.free
    out := s.out
    txSeen := s.out.length
    sys := { Sys.init with rails := s.sys.rails, pwrgood := s.sys.pwrgood, dev := s.sys.dev }
    hif := Hif.init
    sensors := s.sensors.mapAll fun _ x => { Sensor.init with n1 := x.n1, n2 := x.n2, c1 := x.c1, c2 := x.c2 }
    cells := s.cells.mapAll fun _ c => { Cell.init with retired := c.retired, permSent := c.permSent, c0Cleared := c.c0Cleared }
    lanes := s.lanes.mapAll fun _ x => if x.state = .retired then { Lane.init with state := .retired } else Lane.init
    kp := s.kp
    ps := { s.ps with image := none, seq := 0, digest := 0, nonce := none, err := 0, commit := none, challenge := none, grant := none,
                      tokenResult := 0, fwRunning := none, fwFallback := false, appliedAt := none, ir := 0 }
    bel := s.bel.remount }
  { s with bel := s.bel.ringAdvance }

/-- Step 5: the preferred slot if valid, else the other with FW_FALLBACK, else the device holds in BOOT (R455, R535).  With
both valid the floor rises to the lower of their SVNs (R456). -/
def State.bootFirmware (s : State) : State :=
  let a := s.ps.fwPreferred
  let b := 1 - a
  let p := s.ps
  let p := if s.fwValid 0 ∧ s.fwValid 1 then { p with svnFloor := min (p.fw.get 0).svn (p.fw.get 1).svn } else p
  if s.fwValid a then { s with ps := { p with fwRunning := some a } }
  else if s.fwValid b then ({ s with ps := { p with fwRunning := some b, fwFallback := true } }).raise 0x3904 b []
  else { s with sys := { s.sys with hold := true, step := 5 } }

/-- The bytes of a tombstone. -/
def tombBytes2 (t : Tombstone) : List Byte := slice (t.words.flatMap fun w => leBytes 4 w.toNat) 2 16

/-- Step 6: C0 and C̃ are loaded; the sequence number continues from the highest record held; torn slots are counted; every valid
tombstone is reported (R98, R99, R374, R527). -/
def State.mountNvm (s : State) : State :=
  let b := s.bel
  let top := (slotRecords (b.sill ++ b.ring)).foldl (fun a r => max a r.seq.toNat) 0
  let torn := (b.sill ++ b.ring).countP (fun x => !x.valid) + b.notes.ents.countP fun e => !e.2.isEmpty && (noteOf e.2).isNone
  let s := State.loadCells { s with flt := { s.flt with seq := BitVec.ofNat 32 top }, bel := { b with torn := torn } }
  (List.range 16).foldl (fun s i => match s.bel.tombs.get i with
    | some t => ({ s with bel := { s.bel with tombs := s.bel.tombs.set i (some { t with reported := true }) } }).raise 0x3804 i
        (tombBytes2 t)
    | none => s) s

/-- The set that a store holds: the image of its signed request, none in a store of a key change with no set in force (R445, R450). -/
def storedImage (req : List Byte) : Option (List Byte) :=
  if req.isEmpty then none else some (slice req 64 (leAt req 4 4))

/-- Step 6: PSET_SEQ takes the highest generation of the stores that pass their check, and the set of that store is loaded with its RWP
values and given to Kingpost; a profile with no loadable set is PSET_LOST (R450). -/
def State.loadSet (s : State) : State :=
  let lost := fun (s : State) => if s.ps.profile = .none then s else s.raise 0x3908 0 []
  match s.bel.newestCopy .pset with
  | none => lost s
  | some (_, gen, req) =>
    let s := { s with ps := { s.ps with seq := BitVec.ofNat 32 gen } }
    match storedImage req with
    | none => lost s
    | some img =>
      let p := if s.ps.profile.code < (profileOfImage img).code then profileOfImage img else s.ps.profile
      ({ s with ps := { s.ps with image := some img, digest := shake256 img, profile := p } }).loadRwp.deliverKingpost

/-- Step 7: the COUNT entry with PCC raised from the entry in force, then BEL_BOOT, then BEL_TORN when torn slots were found (R519,
R527). -/
def State.bootRecord (s : State) : State :=
  let old := s.bel.countInForce.getD (countBytes 0 0 false false)
  let pcc := leAt old 4 4
  let b := { s.bel with
    opsec := leAt old 0 4
    pcc := satAdd 32 pcc 1
    opsecSat := leAt old 8 1 % 2 == 1
    pccSat := leAt old 8 1 / 2 % 2 == 1 || decide (2 ^ 32 - 1 ≤ pcc + 1) }
  let s := ({ s with bel := b } : State).writeCount
  let tombs := (List.range 16).countP fun i => (s.bel.tombs.get i).isSome
  let s := s.raise 0x3808 0 (leBytes 2 s.bel.torn ++ [BitVec.ofNat 8 tombs, BitVec.ofNat 8 (4 - s.bel.bspares),
    BitVec.ofNat 8 (8 - s.bel.gspares)])
  if s.bel.torn = 0 then s else s.raise 0x3805 0 (leBytes 2 s.bel.torn)

/-- Step 8 or 9: BIST of every block, or PLL lock; a fault of start-up that has locked the device out ends it there (R6). -/
def State.bootNext (s : State) : State :=
  if s.sys.dev = .lockout then s
  else if s.fld 0x4000 0 1 = 1 then
    ({ s with sys := { s.sys with dev := .selftest, step := 8, bist := { Bist.init with
      blocks := s.bootBlocks, runs := 1, boot := true, busy := true } } }).startBlock
  else { s with sys := { s.sys with step := 9 } }

/-- One step of an orderly shut-down, none while a SHUT condition holds (R529): the COUNT entry; the staged records; the pending notes;
the CSAVE copy (R528). Log entry 114. -/
def State.shutStep (s : State) : State :=
  let k := s.bel.shut
  if k = 0 then s
  else if s.nvmHeld then { s with bel := { s.bel with shut := 0 } }
  else
    let s := match k with
      | 4 => ({ s with bel := match s.bel.countErase with | some x => s.bel.clearCount x | none => s.bel }).writeCount
      | 3 => (s.finishWrite .spmap).thaw
      | 2 => s.bel.noteDue.foldl (fun s n => if s.canNote then s.writeNote n else s) s
      | _ => (s.saveTable .csave).finishWrite .csave
    { s with bel := { s.bel with shut := k - 1 } }

/-- What is left of a shut-down. -/
def State.finishShut (s : State) : State := s.shutStep.shutStep.shutStep.shutStep

/-- PWRGOOD_ASSERTED: from RESET the device boots; TEST_EN high keeps it in RESET (R565).  The core PLL will search every
enabled point in descending order, ending at point 0 (R468). -/
def execPwrgoodAsserted (testEn : Bool) (s : State) : Host.Outcome State Fault Refusal :=
  .next (
    if s.sys.dev ≠ .reset ∧ !(s.sys.dev = .boot ∧ s.sys.step = 3) then s
    else
      let s := s.finishShut.resetMain
      let s := { s with sys := { s.sys with pwrgood := true } }
      if testEn then { s with sys := { s.sys with dev := .reset } }
      else
        let s := { s with sys := { s.sys with dev := .boot, step := 4 } }
        let s := s.bootFirmware
        if s.sys.hold then s
        else
          let s := ((s.mountNvm).loadSet).bootRecord
          let s := { s with clk := { s.clk with bootPoints := ((List.range 8).filter s.hopEn).reverse } }
          s.bootNext)

/-! ## Shut-down (R528, R534) -/

/-- A commit that power loss meets (Table 14-8): a free value says whether the store was complete; if it was, that copy is in force,
the profile is completed at boot, and each key slot being programmed is old, new or REVOKED (log entry 4). -/
def State.cutCommit (s : State) : State :=
  match s.ps.commit with
  | none => s
  | some c =>
    let f := s.freeNat
    let s := { s.freeNext with ps := { s.ps with commit := none } }
    if f % 2 = 0 ∧ !c.stored then s.dropWrite .pset
    else
      let pick := fun i (old new : KeySlot) =>
        if old = new then old
        else match f / 2 / 3 ^ i % 3 with
          | 0 => old
          | 1 => new
          | _ => { new with state := .revoked }
      let s := s.finishWrite .pset
      match c.keys with
      | some k => { s with ps := { s.ps with
          keys := { k.1 with ents := k.1.ents.map fun e => (e.1, pick e.1 (s.ps.keys.get e.1) e.2) }, owner := pick 8 s.ps.owner k.2 } }
      | none => s

/-- Orderly shut-down starts with the rails in range; a tombstone while read-only (R526, R528). Log entry 114. -/
def State.startShutdown (s : State) : State :=
  if !s.sys.rails then s
  else
    let s := { s with bel := { s.bel with shut := 4, freezing := false } }
    if s.bel.readOnly then s.writeTomb 0x02 ((s.bel.spmap.find? fun e => e.2 == 0xFFFF).map (·.1) |>.getD 0) else s

/-- Power fails: a free value says for the record, the note and the COUNT entry that may be under way whether its slot is torn; nothing
else is written (R514, R517, R519, R528; log entry 4). -/
def State.cutNvm (s : State) : State :=
  let f := s.freeNat
  let s := s.freeNext
  let s := if f % 2 = 1 ∧ s.canWrite ∧ !s.bel.staging.isEmpty then { s with bel := s.bel.push .torn } else s
  let s := match s.bel.noteDue with
    | n :: _ => if f / 2 % 2 = 1 ∧ s.canNote then { s with bel := s.bel.noteAtEnd (tornBytes (noteBytes n)) } else s
    | [] => s
  if f / 4 % 2 = 1 ∧ s.nvmOn ∧ s.bel.countOpen then
    { s with bel := s.bel.putCount (tornBytes (countBytes s.opsecNow s.bel.pcc s.bel.opsecSat s.bel.pccSat)) }
  else s

/-- The main device stops: octads Unconfigured, lanes OFF, outputs SAFE, BIST abandoned, the nonce lost. Log entry 98. -/
def State.stopMain (s : State) : State :=
  let s := forNat 8 (fun n s => (s.haltSelection n).updOct n fun o => { o with state := .unconfigured }) s
  let s := (s.cutCommit).forceSafe fun _ => true
  { s with
    sys := { s.sys with bist := Bist.init, scan := none }
    lanes := s.lanes.mapAll fun _ x => x.powerDown .off
    ps := { s.ps with nonce := none, challenge := none, grant := none } }

/-- PWRGOOD_DEASSERTED: BLOCK to every hub of a configured octad, loops withdrawn, lanes stopped, orderly shut-down, RESET. -/
def execPwrgoodDeasserted (s : State) : Host.Outcome State Fault Refusal :=
  .next (
    if s.sys.dev = .off ∨ s.sys.dev = .reset then { s with sys := { s.sys with pwrgood := false } }
    else
      let s := forNat 8 (fun n s => if s.configured n then s.immediateBlock n else s) s
      let s := (s.sendAborts.startShutdown).stopMain
      { s with sys := { s.sys with dev := .reset, pwrgood := false } })

/-- RAILS_IN_RANGE: OFF to RESET (Table 18-2).  Hold-domain SRAM lasts as long as VHOLD stays in range, which has no event of its own:
free values say whether it did, and whether it is now (R526; log entry 4). -/
def execRailsInRange (s : State) : Host.Outcome State Fault Refusal :=
  .next (
    let s := { s with sys := { s.sys with rails := true } }
    if s.sys.dev = .off then
      let f := s.freeNat
      { s.freeNext with
        sys := { s.sys with dev := .reset }
        bel := { s.bel with tombs := if f % 2 = 0 then s.bel.tombs else .empty none, vhold := f / 2 % 2 == 0 } }
    else s)

/-- MAIN_RAILS_LOST: everything volatile of the main device is lost; every loop enable counts as withdrawn (R571, R589). -/
def execMainRailsLost (s : State) : Host.Outcome State Fault Refusal :=
  .next (
    let s := (s.cutNvm.stopMain).resetMain
    { s with sys := { s.sys with rails := false, pwrgood := false, dev := .off } })

end Sys2Proof.Machine
end

