-- ==== Sys2Proof/Machine/Kingpost.lean ====
section
/-! DEFINITION. Kingpost (chapter 13): two channels, each with its safety inputs, safe block, safe run-down, breaker outputs
and dark pulses.  A channel's own time counts its 10 µs samples; intervals are taken at their setting (R409). -/

namespace Sys2Proof.Machine

def State.ch (s : State) : KpCh → KpChan
  | .a => s.kp.a
  | .b => s.kp.b

def State.setCh (s : State) (c : KpCh) (x : KpChan) : State :=
  match c with
  | .a => { s with kp := { s.kp with a := x } }
  | .b => { s with kp := { s.kp with b := x } }

def State.updCh (s : State) (c : KpCh) (f : KpChan → KpChan) : State := s.setCh c (f (s.ch c))

def kpOther : KpCh → KpCh
  | .a => .b
  | .b => .a

def kpIdx : KpCh → Nat
  | .a => 0
  | .b => 1

/-- An event posted into the view; the collector of a running main device takes it, data byte 0 naming the channel (R434). -/
def State.post (s : State) (c : KpCh) (code src : Nat) : State :=
  if s.alive then s.raise code src [BitVec.ofNat 8 (2 ^ kpIdx c)] else s

/-! ## Parameters (Table 13-2, Table 14-5) -/

def KpChan.par (k : KpChan) (o n dflt : Nat) : Nat := match k.params with | some b => leAt b o n | none => dflt
def KpChan.func (k : KpChan) (i : Nat) : Nat := k.par (8 * i) 1 0
def KpChan.octMask (k : KpChan) (i : Nat) : Nat := k.par (8 * i + 1) 1 0
def KpChan.outMask (k : KpChan) (i : Nat) : Nat := k.par (8 * i + 2) 1 0
/-- FILT and DISC in samples of 10 µs. -/
def KpChan.filt (k : KpChan) (i : Nat) : Nat := 10 * k.par (8 * i + 3) 1 20
def KpChan.disc (k : KpChan) (i : Nat) : Nat := 100 * k.par (8 * i + 4) 2 100
def KpChan.outEn (k : KpChan) (n : Nat) : Bool := k.par (128 + 8 * n) 1 0 == 1
def KpChan.tFb (k : KpChan) (n : Nat) : Nat := 100 * k.par (129 + 8 * n) 1 60
def KpChan.backup (k : KpChan) (n : Nat) : Nat := k.par (130 + 8 * n) 1 15
def KpChan.tpPer (k : KpChan) (n : Nat) : Nat := 100000 * k.par (131 + 8 * n) 1 10
/-- TP_WID in µs. -/
def KpChan.tpWid (k : KpChan) (n : Nat) : Nat := k.par (132 + 8 * n) 2 200
def KpChan.sbkTrip (k : KpChan) : Nat := k.par 192 1 0
def KpChan.tKs (k : KpChan) : Nat := 50 * k.par 194 1 2
def KpChan.slope (k : KpChan) : Nat := k.par 196 2 16
def KpChan.bandB (k : KpChan) : Nat := k.par 198 2 1638
def KpChan.srdCh (k : KpChan) : Nat := k.par 193 1 0
/-- The settings of the port that the channel owns, 6 for A and 7 for B: channels, W, ticks of a bit, FMT, TCONV (Table 10-8). -/
def KpChan.portCh (k : KpChan) (c : KpCh) : Nat := k.par (200 + 8 * kpIdx c) 1 3 + 1
def KpChan.width (k : KpChan) (c : KpCh) : Nat := k.par (201 + 8 * kpIdx c) 1 24
def KpChan.bitTime (k : KpChan) (c : KpCh) : Nat := bitTicks (k.par (202 + 8 * kpIdx c) 1 3)
def KpChan.fmt (k : KpChan) (c : KpCh) : Nat := k.par (203 + 8 * kpIdx c) 1 0
def KpChan.tConv (k : KpChan) (c : KpCh) : Nat := k.par (206 + 8 * kpIdx c) 2 200

def bitOf (m i : Nat) : Bool := m / 2 ^ i % 2 == 1

/-! ## KP_INPUT_SAMPLE (R414, R425, R426) -/

/-- A filter of n samples: the state changes once the new level has held for n samples. -/
def Filt.step (f : Filt) (lvl : Bool) (n : Nat) : Filt :=
  if lvl = f.level then { f with run := 0 }
  else if n ≤ f.run + 1 then ⟨lvl, 0⟩
  else { f with run := f.run + 1 }

/-- Readback of a block-loop pin: read low after a low command it is proven; read high 50 µs after it on two samples it is
stuck. -/
def KpLoop.read (x : KpLoop) (lvl : Bool) (now : Nat) : KpLoop :=
  if x.enabled then { x with stuck := 0 }
  else if !lvl then { x with stuck := 0, offAt := some now }
  else if x.cmdAt + 5 ≤ now then { x with stuck := x.stuck + 1 }
  else x

/-- The width of a dark pulse that starts at sample t has passed at sample `now` (R427): its exact end lies at or before it. -/
def darkOver (t wid now : Nat) : Bool := decide (10 * t + wid ≤ 10 * now)

/-- Readback of a breaker output and its feedback: commanded low, in a dark pulse or not, a pin still high 100 µs later on two samples
is stuck (R426).  A dark pulse whose pin has read low before its end ends after TP_WID (R427). -/
def KpOut.read (x : KpOut) (lvl sfb en : Bool) (now wid : Nat) : KpOut :=
  let fb := x.fb.step sfb 100
  let x := { x with fb := fb, fbOpen := x.fbOpen || (x.causes.any && fb.level) }
  let watch := fun (x : KpOut) =>
    if !lvl then { x with stuck := 0 } else if x.cmdAt + 10 ≤ now then { x with stuck := x.stuck + 1 } else x
  match x.dark with
  | some t =>
    if !darkOver t wid now then watch { x with darkLow := x.darkLow || !lvl }
    else if x.darkLow then
      { x with dark := none, darkLow := false, darkEnd := 10 * t + wid, high := en, stuck := 0, cmdAt := if en then x.cmdAt else now }
    else x
  | none => if x.high then { x with stuck := 0 } else watch x

def forTab (n : Nat) (t : Tab α) (f : Nat → α → α) : Tab α := (List.range n).foldl (fun t i => t.upd i (f i)) t

/-- A new parameter block waits while an SRD runs: its 1 ms starts when none runs any more (R413). -/
def State.holdParams (s : State) : State :=
  if s.kp.a.srd.running || s.kp.b.srd.running then { s with kp := { s.kp with deliveredAt := s.kp.a.time } } else s

/-- KP_INPUT_SAMPLE: every 10 µs a channel samples its half of the input pairs and SFB, and reads back its pins. -/
def execKpInputSample (ch : KpCh) (sin : BitVec 16) (sfb blk sout : Byte) (s : State) : Host.Outcome State Fault Refusal :=
  .next (
    if !s.kp.vkp then s
    else
      let k := s.ch ch
      let now := k.time + 1
      let s := s.setCh ch { k with
        time := now
        pairs := forTab 16 k.pairs fun i x => { x with own := x.own.step (sin.getLsbD i) (k.filt i) }
        loops := forTab 8 k.loops fun i x => x.read (blk.getLsbD i) now
        outs := forTab 8 k.outs fun i x => x.read (sout.getLsbD i) (sfb.getLsbD i) (k.outEn i) now (k.tpWid i) }
      let s := s.holdParams
      forNat 8 (fun n s =>
        if 2 ≤ ((s.ch ch).loops.get n).stuck ∧ !((s.ch ch).loops.get n).causes.stuck then
          (s.updCh ch fun k => { k with loops := k.loops.upd n fun x => { x with causes := { x.causes with stuck := true } } }).post ch
            0x4303 n
        else s) s)

/-! ## Causes (R417, R419, R424) -/

/-- Pairs of a function in demand whose mask (octads or outputs) names n. -/
def KpChan.demanded (k : KpChan) (f : Nat → Bool) (mask : Nat → Nat) (n : Nat) : Bool :=
  (List.range 16).any fun i => f (k.func i) && (k.pairs.get i).demand && bitOf (mask i) n

/-- FUNC 1, and FUNC 2 without OWN, act as SBK pairs (R421). -/
def KpChan.sbkFunc (k : KpChan) (f : Nat) : Bool := f == 1 || (f == 2 && !k.own)

/-- The causes of R417 present now for octad n. -/
def KpChan.sbkPresent (k : KpChan) (n : Nat) : SbkCauses where
  pair := k.demanded k.sbkFunc k.octMask n
  srd := k.own && k.demanded (· == 2) k.octMask n
  mainReq := k.mainReq
  xch := k.xchFault
  power := k.params.isNone
  stuck := decide (2 ≤ (k.loops.get n).stuck)

def SbkCauses.any (c : SbkCauses) : Bool := c.pair || c.srd || c.mainReq || c.xch || c.power || c.stuck

/-- Causes held and causes of the kinds held that are present: a reset releases when none of them is. -/
def SbkCauses.and (a b : SbkCauses) : SbkCauses :=
  ⟨a.pair && b.pair, a.srd && b.srd, a.mainReq && b.mainReq, a.xch && b.xch, a.power && b.power, a.stuck && b.stuck⟩

/-- What latches at an evaluation cycle: present causes but an SRD's, which latches when the SRD ends. -/
def SbkCauses.latch (a b : SbkCauses) : SbkCauses :=
  ⟨a.pair || b.pair, a.srd, a.mainReq || b.mainReq, a.xch || b.xch, a.power || b.power, a.stuck || b.stuck⟩

/-- The causes of R424 present now for output n. -/
def KpChan.tripPresent (k : KpChan) (n : Nat) : TripCauses where
  pair := k.demanded (· == 3) k.outMask n
  sbk := bitOf k.sbkTrip n && (List.range 8).any fun i => (k.loops.get i).causes.any
  backup := (List.range 8).any fun o => k.backup o == n && (k.outs.get o).fbTo && !(k.outs.get o).fb.level
  test := decide (2 ≤ (k.outs.get n).stuck)
  power := k.params.isNone

def TripCauses.and (a b : TripCauses) : TripCauses :=
  ⟨a.pair && b.pair, a.sbk && b.sbk, a.backup && b.backup, a.test && b.test, a.power && b.power⟩

def TripCauses.latch (a b : TripCauses) : TripCauses :=
  ⟨a.pair || b.pair, a.sbk || b.sbk, a.backup, a.test, a.power || b.power⟩

/-! ## Applying causes to the pins (R418, R424) -/

/-- An SRD ends for an octad that enters SBK for another cause; it stops when none is left (R423). -/
def Srd.drop (r : Srd) (n : Nat) : Srd :=
  if !r.running then r
  else
    let o := BitVec.ofNat 8 (r.octs.toNat - field r.octs.toNat n 1 * 2 ^ n)
    { r with octs := if o = 0 then r.octs else o, running := o != 0, ended := r.ended || o == 0 }

/-- Entry into SBK for octad n: loop pin low, one ABORT BLOCK with the channel's ORIGIN on every lane of the octad that has
block lock; outputs of SBK_TRIP follow in `applyOuts`. -/
def State.enterSbk (s : State) (ch : KpCh) (n : Nat) : State :=
  let s := s.updCh ch fun k => { k with
    loops := k.loops.upd n fun x => { x with sbk := true, enabled := false, cmdAt := if x.enabled then k.time else x.cmdAt }
    srd := k.srd.drop n }
  (s.abortLanes n (1 + kpIdx ch)).post ch 0x4301 n

/-- Loops follow their causes; a loop whose causes are cleared is enabled again with KP_SBK_RELEASE (R419). -/
def State.applyLoops (s : State) (ch : KpCh) : State :=
  forNat 8 (fun n s =>
    let x := (s.ch ch).loops.get n
    if x.causes.any && !x.sbk then s.enterSbk ch n
    else if !x.causes.any && x.sbk then
      (s.updCh ch fun k => { k with loops := k.loops.upd n fun x => { x with sbk := false, enabled := true } }).post ch 0x4302 n
    else s) s

/-- The first tick of an output's dark-pulse periods after now (R427, R428). -/
def KpChan.darkAfter (k : KpChan) (n : Nat) (x : KpOut) : Nat :=
  if k.time < x.darkNext then x.darkNext else x.darkNext + ((k.time - x.darkNext) / k.tpPer n + 1) * k.tpPer n

/-- Outputs follow their causes: tripped low at once, ending a dark pulse (R428); otherwise high where OUT_EN is set. -/
def State.applyOuts (s : State) (ch : KpCh) : State :=
  forNat 8 (fun n s =>
    let k := s.ch ch
    let x := k.outs.get n
    if x.causes.any then
      if x.tripAt.isSome then s
      else
        (s.updCh ch fun k => { k with outs := k.outs.upd n fun x => { x with
          tripAt := some k.time, high := false, dark := none, darkLow := false, fbOpen := false,
          cmdAt := if x.high then k.time else x.cmdAt } }).post ch 0x4401 n
    else if x.tripAt.isSome ∨ (x.high ≠ k.outEn n ∧ x.dark.isNone) then
      s.updCh ch fun k => { k with outs := k.outs.upd n fun x => { x with
        tripAt := none, high := k.outEn n, cmdAt := k.time, darkNext := k.darkAfter n x } }
    else s) s

/-- Every present cause latches (R417, R424). -/
def KpChan.latchAll (k : KpChan) : KpChan :=
  let k := { k with loops := forTab 8 k.loops fun n x => { x with causes := x.causes.latch (k.sbkPresent n) } }
  { k with outs := forTab 8 k.outs fun n x => { x with causes := x.causes.latch (k.tripPresent n) } }

/-! ## Demands, discrepancy, presses (R414 to R416) -/

/-- A filtered state changes: the other half's change the same way, if one waits, has found its answer; else this one waits for the
other half to follow. -/
def follow (cs : List PinChange) (own level : Bool) (now : Nat) : List PinChange :=
  let pair := fun (c : PinChange) => c.own != own && c.level == level
  if cs.any pair then cs.eraseP pair
  else if cs.any fun c => c.own == own && c.level == level then cs
  else cs ++ [⟨own, level, now⟩]

/-- The changes of a pair's filtered states since the last evaluation; a faulty pair waits for none (R415). -/
def KpPair.track (x : KpPair) (now : Nat) : KpPair :=
  let cs := if x.own.level != x.wasOwn then follow x.changes true x.own.level now else x.changes
  let cs := if x.other != x.wasOther then follow cs false x.other now else cs
  { x with changes := if x.faulty then [] else cs, wasOwn := x.own.level, wasOther := x.other }

/-- Since when one filtered state has changed and the other has not changed the same way. -/
def KpPair.disagreeAt (x : KpPair) : Option Nat := x.changes.head?.map (·.changedAt)

/-- One pair at an evaluation cycle: demand, its unanswered changes, the press of a RESET pair; the flag says
that the pair gives a reset at this cycle. Log entry 33. -/
def KpPair.eval (x : KpPair) (func now : Nat) : KpPair × Bool :=
  let hi := x.own.level && x.other
  let lo := !x.own.level && !x.other
  let x := { x.track now with
    bothLowAt := if lo then some (x.bothLowAt.getD now) else none
    lowSeen := x.lowSeen || (x.faulty && lo) }
  if func = 4 then
    let len := fun t => decide (10000 ≤ now - t) && decide (now - t ≤ 200000)
    let clear := x.faulty && match x.bothLowAt with | some t => decide (t + 100000 ≤ now) | none => false
    let x := { x with demand := false, faulty := x.faulty && !clear }
    if x.faulty then ({ x with pressAt := none, given := false }, false)
    else if hi then ({ x with pressAt := some (x.pressAt.getD now), given := false }, false)
    else
      let ok := match x.pressAt with | some t => len t | none => x.given
      if lo then ({ x with pressAt := none, given := false }, ok)
      else ({ x with pressAt := none, given := ok }, false)
  else ({ x with demand := (func == 1 || func == 2 || func == 3) && (!hi || x.faulty) }, false)

/-- The pairs at an evaluation cycle once parameters are in force; before that every pair keeps its reset demand. -/
def KpChan.evalPairs (k : KpChan) : KpChan × List Nat :=
  if k.params.isNone then (k, [])
  else
    ({ k with pairs := forTab 16 k.pairs fun i x => (x.eval (k.func i) k.time).1 },
     (List.range 16).filter fun i => ((k.pairs.get i).eval (k.func i) k.time).2)

/-- A reset on a pair (R419, R424, R415): octads and outputs without a present cause are released, then faulty pairs that
have been low clear. -/
def KpChan.doReset (k : KpChan) (r : Nat) : KpChan :=
  let k : KpChan := { k with
    loops := forTab 8 k.loops fun n x => if bitOf (k.octMask r) n ∧ !(x.causes.and (k.sbkPresent n)).any then
        { x with causes := SbkCauses.init }
      else x }
  let held := (List.range 8).any fun n => k.srd.octs.getLsbD n && (k.loops.get n).causes.any
  let k : KpChan := if k.srd.ended ∧ !held then { k with srd := Srd.init } else k
  let k : KpChan := { k with
    outs := forTab 8 k.outs fun n x => if bitOf (k.outMask r) n ∧ !(x.causes.and (k.tripPresent n)).any then
        { x with causes := TripCauses.init, fbTo := false, testFail := false }
      else x }
  { k with
    pairs := forTab 16 k.pairs fun i x => if x.faulty ∧ x.lowSeen ∧ k.func i ≠ 4 then
        { x with faulty := false, lowSeen := false }
      else x }

/-- The octads of a pair that are not under SBK already. -/
def KpChan.srdOcts (k : KpChan) (i : Nat) : Nat :=
  (List.range 8).foldl (fun a n => if bitOf (k.octMask i) n ∧ !(k.loops.get n).causes.any then a + 2 ^ n else a) 0

/-- The first SRD pair newly in demand that has octads left to cover, when no SRD runs or waits for its reset (R422, R423, Table
13-4). -/
def KpChan.srdStart (k : KpChan) (before : Tab KpPair) : Option (Nat × Nat) :=
  if k.srd.running || k.srd.ended || !k.own then none
  else
    ((List.range 16).find? fun i =>
      k.func i == 2 && (k.pairs.get i).demand && !(before.get i).demand && k.srdOcts i != 0).map fun i => (i, k.srdOcts i)

/-- A LOCKOUT ends every dark pulse as a demand does (R428, Table 13-4): its result is discarded. -/
def KpChan.endPulses (k : KpChan) : KpChan :=
  { k with outs := forTab 8 k.outs fun _ x => if x.dark.isSome then { x with dark := none, darkLow := false, stuck := 0 } else x }

/-- KP_EVALUATION_CYCLE: every 50 µs a channel evaluates demands, SRD starts, causes, resets, and drives its pins.
Log entry 33. -/
def execKpEvaluationCycle (ch : KpCh) (s : State) : Host.Outcome State Fault Refusal :=
  .next (
    if !s.kp.vkp then s
    else
      let k0 := s.ch ch
      let k1 := { k0 with mainReq := s.sys.sbkReq }
      let e := (if k1.mainReq && !k0.mainReq then k1.endPulses else k1).evalPairs
      let fresh := (List.range 16).filter fun i => (e.1.pairs.get i).demand && !(k0.pairs.get i).demand
      let s := fresh.foldl (fun s i => s.post ch 0x4101 i) (s.setCh ch e.1)
      let s := match e.1.srdStart k0.pairs with
        | some (i, m) => (s.updCh ch fun k => { k with srd := { Srd.init with running := true, octs := BitVec.ofNat 8 m } }).post ch
            0x4201 i
        | none => s
      let s := s.updCh ch KpChan.latchAll
      let s := e.2.foldl (fun s r => s.updCh ch fun k => k.doReset r) s
      (s.applyLoops ch).applyOuts ch)

/-- KP_IN_FAULTY: the channels of a pair have disagreed for DISC (R415, R416). -/
def execKpInFaulty (ch : KpCh) (pair : Fin 16) (s : State) : Host.Outcome State Fault Refusal :=
  let k := s.ch ch
  let x := k.pairs.get pair
  .next (
    match x.disagreeAt with
    | none => s
    | some t =>
      if !s.kp.vkp || x.faulty || decide (k.time < t + k.disc pair) then s
      else
        (s.updCh ch fun k => { k with pairs := k.pairs.upd pair fun x => { x with
          faulty := true, lowSeen := false, changes := [], demand := k.func pair != 0 && k.func pair != 4, given := false,
          pressAt := none } }).post ch 0x4102 pair)

/-! ## Handshakes (R411) -/

/-- A handshake or clock fault of a channel: the cause for every octad in it, both RUN bits low. -/
def State.xchTrouble (s : State) (ch : KpCh) (code : Nat) : State :=
  let s := s.updCh ch fun k => { k with xchFault := true }
  let s := (s.updCh .a fun k => { k with running := false, goodSince := none }).updCh .b fun k =>
    { k with running := false, goodSince := none }
  let s := s.updCh ch KpChan.latchAll
  ((s.applyLoops ch).updCh ch KpChan.latchAll |>.applyOuts ch).post ch code (kpIdx ch)

/-- Both channels have exchanged good handshakes for 1 ms: both run. -/
def State.settleRun (s : State) : State :=
  let good := fun (k : KpChan) => match k.goodSince with | some t => decide (t + 100 ≤ k.time) | none => false
  if good s.kp.a && good s.kp.b then
    (s.updCh .a fun k => { k with running := true, xchFault := false }).updCh .b fun k => { k with running := true, xchFault := false }
  else s

/-- A parameter block whose CRC-32C matches. -/
def kpBlockOk (b : List Byte) : Bool := b.length == 220 && leAt b 216 4 == (crc32c (b.take 216)).toNat

/-- Both channels hold the same new block, and its CRC matches (R413). -/
def kpHeld (a b : KpChan) : Bool :=
  match a.newParams with
  | some x => kpBlockOk x && b.newParams == some x
  | none => false

/-- KP_HANDSHAKE: a channel receives a valid handshake; `count` is its own count of the other channel's clock over its last
100 µs (5,000 cycles of B, 8,000 of A, within 3 %). -/
def execKpHandshake (ch : KpCh) (count : BitVec 16) (s : State) : Host.Outcome State Fault Refusal :=
  .next (
    if !s.kp.vkp then s
    else
      let o := s.ch (kpOther ch)
      let n := count.toNat
      let good := match ch with | .a => inRange n 4850 5150 | .b => inRange n 7760 8240
      let s := s.updCh ch fun k => { k with
        lastHs := k.time
        count := count
        newSeen := k.newSeen || kpHeld k o
        badClock := if good then 0 else k.badClock + 1
        goodSince := if good then some (k.goodSince.getD k.time) else none
        pairs := forTab 16 k.pairs fun i x => { x with other := (o.pairs.get i).own.level } }
      if 2 ≤ (s.ch ch).badClock then (s.updCh ch fun k => { k with badClock := 0 }).xchTrouble ch 0x4602
      else s.settleRun)

/-- KP_XCH_TIMEOUT: no valid handshake within 300 µs; the fault stands until handshakes come again. -/
def execKpXchTimeout (ch : KpCh) (s : State) : Host.Outcome State Fault Refusal :=
  .next (
    if !s.kp.vkp || decide ((s.ch ch).time < (s.ch ch).lastHs + 30) || ((s.ch ch).xchFault && (s.ch ch).goodSince.isNone) then s
    else (s.updCh ch fun k => { k with lastHs := k.time }).xchTrouble ch 0x4601)

/-! ## Safe run-down (R421 to R423) -/

/-- m of R421. -/
def srdMagnitude (c : Int) (w : Nat) : Nat := min (c.natAbs / 2 ^ (w - 16)) 32767

/-- The SRD ends in SBK for its octads, cause SRD. -/
def State.endSrd (s : State) (ch : KpCh) (code : Nat) : State :=
  let octs := (s.ch ch).srd.octs
  let s := s.updCh ch fun k => { k with
    srd := { k.srd with running := false, ended := true }
    loops := forTab 8 k.loops fun n x => if octs.getLsbD n then { x with causes := { x.causes with srd := true } } else x }
  ((s.applyLoops ch).updCh ch KpChan.latchAll |>.applyOuts ch).post ch code 0

/-- One measurement tick after the first has arrived, t in µs (R422). -/
def State.srdTick (s : State) (ch : KpCh) (m : Option Nat) : State :=
  let k := s.ch ch
  let r := k.srd
  let t := r.t0 * k.tKs
  let e := r.e0.getD 0 - r.seff * t / 1000
  let above := match m with | some v => decide (e + k.bandB < v) | none => true
  let s := s.updCh ch fun k => { k with srd := { k.srd with t0 := r.t0 + 1, above := above } }
  if above && r.above then s.endSrd ch 0x4202
  else if r.tEnd ≤ t then s.endSrd ch 0x4203
  else s

/-- The code of channel SRD_CH in a conversion frame of the channel's port, which must end within T_KS of its firing (R330, R331,
R421, R422). -/
def KpChan.portCode (k : KpChan) (c : KpCh) (words : Option (List (BitVec 24))) : Option Int :=
  if k.tKs * 400 < k.tConv c + k.portCh c * k.width c * k.bitTime c then none
  else (words.bind fun ws => ws[k.srdCh]?).map fun w => Machine.portCode (k.width c) (k.fmt c) w

/-- KP_SRD_MEASUREMENT: the words of a conversion frame of the channel's port, or none where the measurement is missing.  Its magnitude
is formed whether or not an SRD runs (R421). -/
def execKpSrdMeasurement (ch : KpCh) (words : Option (List (BitVec 24))) (s : State) : Host.Outcome State Fault Refusal :=
  let m := ((s.ch ch).portCode ch words).map fun c => srdMagnitude c ((s.ch ch).width ch)
  let s := if s.kp.vkp ∧ (s.ch ch).own then s.updCh ch fun k => { k with m := m.getD k.m } else s
  let k := s.ch ch
  .next (
    if !s.kp.vkp || !k.srd.running then s
    else
      match k.srd.e0, m with
      | some _, _ => s.srdTick ch m
      | none, none =>
        if k.srd.above then s.endSrd ch 0x4202
        else s.updCh ch fun k => { k with srd := { k.srd with above := true } }
      | none, some e0 =>
        let seff := max k.slope ((e0 + 1999) / 2000)
        (s.updCh ch fun k => { k with srd := { k.srd with
          e0 := some e0, t0 := 0, seff := seff, tEnd := (e0 * 1000 + seff - 1) / seff } }).srdTick ch m)

/-! ## Breaker feedback and dark pulses (R425 to R428) -/

/-- KP_FB_TIMEOUT: SFB not high within T_FB of the trip, or low again while still tripped; BACKUP is tripped. -/
def execKpFbTimeout (ch : KpCh) (out : Fin 8) (s : State) : Host.Outcome State Fault Refusal :=
  let k := s.ch ch
  let x := k.outs.get out
  .next (
    match x.tripAt with
    | none => s
    | some t =>
      let late := !x.fbOpen && !x.fbTo && decide (t + k.tFb out ≤ k.time)
      let again := x.fbOpen && !x.fb.level
      if !s.kp.vkp || !k.outEn out || !(late || again) then s
      else
        let b := k.backup out
        let s := s.updCh ch fun k => { k with outs := k.outs.upd out fun x => { x with fbTo := true, fbOpen := false } }
        let s := s.post ch 0x4402 out
        if b = 15 then s
        else (s.updCh ch fun k => { k with outs := k.outs.upd b fun x => { x with causes := { x.causes with backup := true } } }).applyOuts ch)

/-- DARK_PULSE_START: an energised output is driven low for TP_WID once in every TP_PER. -/
def execDarkPulseStart (ch : KpCh) (out : Fin 8) (s : State) : Host.Outcome State Fault Refusal :=
  let k := s.ch ch
  let x := k.outs.get out
  .next (
    if !s.kp.vkp || !k.outEn out || !x.high || x.causes.any || x.dark.isSome || decide (k.time < x.darkNext) then s
    else s.updCh ch fun k => { k with outs := k.outs.upd out fun x => { x with
      high := false, dark := some k.time, darkLow := false, cmdAt := k.time, darkNext := k.darkAfter out x } })

/-- KP_TEST_FAIL: a pin that has not read low when its dark pulse ends trips the output through both halves; a stuck SOUT
pin is posted (R426, R427). -/
def execKpTestFail (ch : KpCh) (out : Fin 8) (s : State) : Host.Outcome State Fault Refusal :=
  let k := s.ch ch
  let x := k.outs.get out
  .next (
    if !s.kp.vkp then s
    else if (match x.dark with | some t => !x.darkLow && darkOver t (k.tpWid out) k.time | none => false) then
      let fail := fun (s : State) c => (s.updCh c fun k => { k with outs := k.outs.upd out fun x => { x with
        causes := { x.causes with test := true } } }).applyOuts c
      let s := s.updCh ch fun k => { k with outs := k.outs.upd out fun x => { x with testFail := true, dark := none } }
      (fail (fail s .a) .b).post ch 0x4501 out
    else if 2 ≤ x.stuck ∧ !x.testFail then
      (s.updCh ch fun k => { k with outs := k.outs.upd out fun x => { x with testFail := true } }).post ch 0x4501 out
    else s)

/-! ## Parameters (R412, R413) -/

/-- A channel takes its new block.  Channel A's dark pulses start at phase 0 of the period, channel B's at TP_PER/2. -/
def KpChan.takeParams (k : KpChan) (c : KpCh) (own : Bool) : KpChan :=
  match k.newParams with
  | none => k
  | some b =>
    let k := { k with params := some b, newParams := none, newSeen := false, pcrc := BitVec.ofNat 32 (leAt b 216 4), own := own }
    { k with outs := forTab 8 k.outs fun n x => { x with darkNext := k.time + kpIdx c * (k.tpPer n / 2) } }

/-- KP_PARAM_APPLY: both channels apply the new block together, at a handshake in which both held it and within 1 ms of its delivery; it
waits while an SRD runs. Log entry 89. -/
def execKpParamApply (s : State) : Host.Outcome State Fault Refusal :=
  .next (
    match s.kp.a.newParams, s.kp.b.newParams with
    | some a, some b =>
      if !s.kp.vkp || s.kp.a.srd.running || s.kp.b.srd.running || !kpBlockOk a || a != b || !s.kp.a.newSeen || !s.kp.b.newSeen
          || decide (s.kp.deliveredAt + 100 ≤ s.kp.a.time) then s
      else
        let own := s.fld 0x304060 30 1 == 1 && s.fld 0x304070 30 1 == 1
        { s with kp := { s.kp with a := s.kp.a.takeParams .a own, b := s.kp.b.takeParams .b own, paramOk := true } }
    | _, _ => s)

/-- KP_PARAM_REJECT: not applied together within 1 ms of delivery; both keep the block in force. Log entry 89. -/
def execKpParamReject (s : State) : Host.Outcome State Fault Refusal :=
  .next (
    if !s.kp.vkp || (s.kp.a.newParams.isNone && s.kp.b.newParams.isNone) || s.kp.a.srd.running || s.kp.b.srd.running
        || decide (s.kp.a.time < s.kp.deliveredAt + 100) then s
    else
      let s := { s with kp := { s.kp with a := { s.kp.a with newParams := none }, b := { s.kp.b with newParams := none },
                                          paramOk := false } }
      if s.alive then s.raise 0x4701 0 [3] else s)

/-! ## VKP (R430, R431) -/

/-- VKP_OUT_OF_RANGE: the output stages fall to their safe levels; neither channel runs. -/
def execVkpOutOfRange (s : State) : Host.Outcome State Fault Refusal :=
  let low := fun (k : KpChan) => { k with
    running := false
    goodSince := none
    loops := forTab 8 k.loops fun _ x => { x with enabled := false }
    outs := forTab 8 k.outs fun _ x => { x with high := false, dark := none } }
  .next { s with kp := { s.kp with vkp := false, a := low s.kp.a, b := low s.kp.b } }

/-- VKP_IN_RANGE: Kingpost starts with every pin low, SBK for every octad and every output tripped, and with no fall-back record and the
fall-back collector not in charge, since its power had gone (R396, R397; log entry 35); a running main device delivers the parameters of
its set. -/
def execVkpInRange (s : State) : Host.Outcome State Fault Refusal :=
  .next (
    if s.kp.vkp then s
    else
      let s := { s with kp := { Kingpost.init with vkp := true }, flt := { s.flt with fallback := false } }
      if s.alive && s.ps.image.isSome then s.deliverKingpost else s)

/-! ## KINGPOST_VIEW_ACTION (R420), the block loops (R379) -/

/-- The main device's enable of an octad's block loops: in Blocked, Charging, Running and Run-down, out of RESET (R534, R539). -/
def State.loopEnable (s : State) (n : Nat) : Bool :=
  s.alive && (s.oct n).state != .unconfigured && (s.oct n).state != .fenced

/-- BLKnA or BLKnB is energised while Kingpost's channel and the main device both enable it (R379). -/
def State.loopEnergised (s : State) (ch : KpCh) (n : Nat) : Bool :=
  s.kp.vkp && ((s.ch ch).loops.get n).enabled && s.loopEnable n

/-- Neither channel running: every octad counts as under SBK. -/
def State.kpDown (s : State) : Bool := !s.kp.a.running && !s.kp.b.running

/-- Whether a loop is disabled by either channel, as the view shows it. -/
def State.loopDisabled (s : State) (n : Nat) : Bool :=
  s.kpDown || !(s.kp.a.loops.get n).enabled || !(s.kp.b.loops.get n).enabled

/-- KINGPOST_VIEW_ACTION: the main device acts on the view. -/
def execKingpostViewAction (s : State) : Host.Outcome State Fault Refusal :=
  .next (
    if !s.alive then s
    else forNat 8 (fun n s =>
      if s.loopDisabled n then (if (s.oct n).state.active then s.toBlocked n else s)
      else if (s.kp.a.srd.running && s.kp.a.srd.octs.getLsbD n) || (s.kp.b.srd.running && s.kp.b.srd.octs.getLsbD n) then
        s.enterRundown n
      else s) s)

end Sys2Proof.Machine
end

