-- ==== Sys2Proof/Machine/Edges.lean ====
section
/-! DEFINITION. Direct pulse outputs, trip inputs and debug halt (chapter 4). -/

namespace Sys2Proof.Machine

/-! ## Direct pulse outputs (R126 to R130) -/

def dpwAddr (n : Nat) : Nat := 0x308000 + 0x20 * n

/-- Settings in force of an output. -/
def Dpwm.en (d : Dpwm) : Bool := field d.cfg.toNat 0 1 == 1
def Dpwm.centre (d : Dpwm) : Bool := field d.cfg.toNat 1 1 == 1
def Dpwm.eng (d : Dpwm) : Nat := field d.cfg.toNat 16 4
def Dpwm.chan (d : Dpwm) : Nat := field d.cfg.toNat 20 6
def Dpwm.period (d : Dpwm) : Nat := max 1 (field d.per.toNat 0 20)
def Dpwm.minTicks (d : Dpwm) : Nat := field d.minp.toNat 0 12
/-- S_0 = O + OFS. -/
def State.dpwZero (s : State) (d : Dpwm) : Nat := s.fr.origin + field d.ofs.toNat 0 20

/-- The conditions of Table 4-3 that hold an output at SAFE: LOCKOUT, a mapped trip latch, a fenced owner octad. -/
def State.dpwSafe (s : State) (n : Nat) : Bool :=
  s.sys.dev == .lockout
    || (List.range 16).any (fun m => (s.trips.get m).latch && s.fld (0x308404 + 8 * m) n 1 == 1)
    || (let o := s.fld (dpwAddr n) 8 4; decide (o < 8) && (s.oct o).state == .fenced)

/-- The level of an output's pin (Table 4-3). -/
def State.dpwLevel (s : State) (n : Nat) : Bool :=
  let d := s.dpws.get n
  let act := s.fld (dpwAddr n) 2 1 == 1
  let safe := s.fld (dpwAddr n) 4 1 == 1
  if s.sys.dev = .off ∨ s.sys.dev = .reset ∨ s.sys.dev = .boot then false
  else if s.dpwSafe n then safe
  else match d.heldLevel with
    | some l => l
    | none => if !d.en then s.fld (dpwAddr n) 3 1 == 1 else if d.safe then safe else if d.active then act else !act

/-- SAFE_NOW: a condition holds the output at SAFE, or it still waits there for its next period start (R130). -/
def State.dpwAtSafe (s : State) (n : Nat) : Bool := s.dpwSafe n || ((s.dpws.get n).safe && (s.dpws.get n).en)

/-- One write of a held register (0 CFG, 1 PER, 2 OFS, 3 MINP) comes into force; a change of period, minimum or EN clears the
carry (R124). -/
def Dpwm.adopt (d : Dpwm) (reg : Nat) (w : Word) : Dpwm :=
  match reg with
  | 0 => { d with cfg := w, carry := if field w.toNat 0 1 = 0 then 0 else d.carry }
  | 1 => { d with per := w, carry := if w = d.per then d.carry else 0 }
  | 2 => { d with ofs := w }
  | _ => { d with minp := w, carry := if w = d.minp then d.carry else 0 }

/-- The writes made at least 1 µs before a period start come into force there, each by itself (R130). Log entry 31. -/
def Dpwm.adoptBy (d : Dpwm) (start : Nat) : Dpwm :=
  let now := d.writes.filter fun w => decide (w.1 + 400 ≤ start)
  { now.foldl (fun d w => d.adopt w.2.1 w.2.2) d with writes := d.writes.filter fun w => !decide (w.1 + 400 ≤ start) }

/-- H of R127 for a committed value and a period of P ticks. -/
def dpwHigh (y : BF) (p : Nat) : Nat :=
  (clampI 0 (16 * p) (floorHalf (y.ex.mul (Ex.ofInt (16 * p))) 0)).toNat

/-- NOSRC at a period start: the source engine has committed nothing since its last load (R127). -/
def State.dpwSource (s : State) (n : Nat) (d : Dpwm) : State := s.setFld (dpwAddr n + 0x10) 1 1 (bit !(s.eng d.eng).committed)

/-- A running period: H through the accumulator, then the two edges with the period index as dither index (R127, R128). -/
def State.dpwPeriod (s : State) (n : Nat) (d : Dpwm) (start j : Nat) : State :=
  let e := s.eng d.eng
  let h := if !e.committed then 0 else dpwHigh (e.outBF d.chan) d.period
  let q := 16 * d.period
  let r := carryStep h d.carry (16 * d.minTicks) q
  let w := r.1.toNat
  let a := start + if d.centre then (q - w) / 32 else 0
  let rise := if w = 0 then none else some a
  let fall := if w = 0 ∨ w = q then none else some (a + w / 16)
  let s := if r.2.2.1 then s.count (dpwAddr n + 0x14) 1 else s
  let s := if r.2.2.2 then s.flag (dpwAddr n + 0x10) 2 else s
  { s with dpws := s.dpws.set n { d with
      carry := r.2.1, clamps := d.clamps.add 31 (bit r.2.2.2), rise := rise, fall := fall,
      late := decide (realisedTick (a + w / 16) (w % 16) j ≠ a + w / 16), active := d.active && decide (rise = some start) } }

/-- DPWM_PERIOD_START: the last instant S_j of the settings in force that has not been taken yet.  Changed settings written
at least 1 µs before it are adopted; a period runs only where S_j is an instant of the settings adopted (R126, R130).
Log entry 31. -/
def execDpwmPeriodStart (o : Fin 24) (s : State) : Host.Outcome State Fault Refusal :=
  let d := s.dpws.get o
  let z := s.dpwZero d
  let start := z + (s.now - z) / d.period * d.period
  .next (
    if !s.alive || s.sys.dev == .boot || s.fr.dpwHalt || decide (s.now < z) || decide (start < d.startAt) then s
    else
      let d := { d with startAt := start + 1, heldLevel := none }
      let d := d.adoptBy start
      let z := s.dpwZero d
      let on := decide (z ≤ start) && (start - z) % d.period == 0
      let j := (start - z) / d.period
      let s := if on then s.dpwSource o d else s
      if s.dpwSafe o then
        { s with dpws := s.dpws.set o { d with safe := true, active := false, rise := none, fall := none, carry := 0, idx := j } }
      else if !d.en || !on then
        { s with dpws := s.dpws.set o { d with safe := false, active := false, rise := none, fall := none, idx := j } }
      else s.dpwPeriod o { d with safe := false, idx := j } start j)

/-- DPWM_EDGE: the next edge of the period is realised; one that a trip or a halt has removed is not (Table 4-5).  While the
timebase runs on the bypass oscillator there is no dither (R113, R481). -/
def execDpwmEdge (o : Fin 24) (s : State) : Host.Outcome State Fault Refusal :=
  let d := s.dpws.get o
  .next (
    if d.safe || s.fr.dpwHalt then s
    else match d.rise, d.fall with
      | some t, _ => s.whenDue t fun s => { s with dpws := s.dpws.set o { d with active := true, rise := none } }
      | none, some t => s.whenDue (t + bit (d.late && s.clk.bypassTime.isNone)) fun s =>
        { s with dpws := s.dpws.set o { d with active := false, fall := none } }
      | none, none => s)

/-! ## Trip inputs (R131 to R135) -/

/-- POL, EN and the filter in ticks of a trip input. -/
def State.tripEn (s : State) (m : Nat) : Bool := s.fld (0x308400 + 8 * m) 9 1 == 1
def State.tripPol (s : State) (m : Nat) : Bool := s.fld (0x308400 + 8 * m) 8 1 == 1
def State.tripFilt (s : State) (m : Nat) : Nat := 4 * s.fld (0x308400 + 8 * m) 0 8

/-- What a trip does at the tick after its latch sets (R132). Log entry 22. -/
def State.tripAct (s : State) (m : Nat) : State :=
  let map := s.fld (0x308404 + 8 * m) 0 24
  let octs := s.fld (0x308404 + 8 * m) 24 8
  let s := s.forceSafe fun n => bitOf map n
  let s := forNat 8 (fun n s => if bitOf octs n then s.toBlocked n else s) s
  s.raise (0x3400 + m) m []

/-- TRIP_IN: the synchronised level of an input at this tick.  The latch of an enabled input sets once the level has been
active over its filter time. Log entry 22. -/
def execTripIn (m : Fin 16) (level : Bool) (s : State) : Host.Outcome State Fault Refusal :=
  .next (
    if !s.alive then s
    else
      let t := s.trips.get m
      let t := if level = t.level then t else { t with level := level, since := s.now }
      if s.tripEn m ∧ level = s.tripPol m ∧ !t.latch ∧ t.since + s.tripFilt m ≤ s.now then
        ({ s with trips := s.trips.set m { t with latch := true } }).tripAct m
      else { s with trips := s.trips.set m t })

/-- Whether an input has been inactive over its filter time up to now. -/
def State.tripIdle (s : State) (m : Nat) : Bool :=
  let t := s.trips.get m
  t.level != s.tripPol m && decide (t.since + s.tripFilt m ≤ s.now)

/-- TRIP_CLEAR at one tick: every named latch that is set clears, or none does (R135). -/
def State.doTripClear (s : State) (mask : Nat) : State × Status × Nat :=
  let named := (List.range 16).filter fun m => bitOf mask m && (s.trips.get m).latch
  let bad := named.filter fun m => !s.tripIdle m
  if bad.isEmpty then
    (named.foldl (fun s m => { s with trips := s.trips.upd m fun t => { t with latch := false } }) s, .ok, 0)
  else (bad.foldl (fun s m => (s.flag 0x308480 (16 + m)).raise 0x3410 m []) s, .refused, 0)

/-! ## Debug halt (R137 to R139, R458) -/

/-- DEBUG_HALT: from the next frame boundary of each octad; it needs SCOPE [0] where a grant is needed.  Armed units are
disarmed (R300). Log entry 32. -/
def execDebugHalt (s : State) : Host.Outcome State Fault Refusal :=
  .next (
    if !s.alive || !s.debugAllows 0 then s
    else forNat 9 (fun e s => s.modeLeave e (some 5)) { s with sys := { s.sys with halt := true } })

/-- The outputs at the boundary from which the halt holds: the period counter stops, the pin keeps its level (R137).  A station
sample under way ends without a commit and without an overrun (Table 7-11 leaves open what becomes of it; DESIGN CHOICE, log
entry 31). -/
def State.haltOutputs (s : State) : State :=
  if !s.sys.halt || s.fr.dpwHalt then s
  else
    let s' := forNat 24 (fun n t => { t with dpws := t.dpws.upd n fun d => { d with heldLevel := some (s.dpwLevel n) } }) s
    { s'.updEng 8 fun e => { e with running := false } with fr := { s'.fr with dpwHalt := true, stationDue := none } }

/-- DEBUG_RELEASE: octads resume at their next frame boundary, each halted output at its next period start with its carry
cleared; outputs whose halt has not begun go on (R137, R139). -/
def execDebugRelease (s : State) : Host.Outcome State Fault Refusal :=
  .next (
    if !s.sys.halt then s
    else
      { s with
        sys := { s.sys with halt := false }
        fr := { s.fr with dpwHalt := false }
        dpws := if !s.fr.dpwHalt then s.dpws
          else s.dpws.mapAll fun _ d => { d with carry := 0, rise := none, fall := none, startAt := max d.startAt s.now } })

/-- DEBUG_GRANT_EXPIRY: the grant ends after its DURATION, and a boundary-scan test under it; a halt in force stays until it
is released. Log entry 32. -/
def execDebugGrantExpiry (s : State) : Host.Outcome State Fault Refusal :=
  .next (match s.ps.grant with
    | none => s
    | some (_, t) => s.whenDue t fun s => { s with
        ps := { s.ps with grant := none }, sys := { s.sys with scan := if s.debugLocked then none else s.sys.scan } })

end Sys2Proof.Machine
end

