-- ==== Sys2Proof/Machine/Sine.lean ====
section
/-! DEFINITION. The sine table of R248: T[i] is the integer nearest to (2^23 − 1) × sin(2πi / 4,096).  The first quarter
is written out (computed from that formula); the rest follows from the symmetries of the sine. -/

namespace Sys2Proof.Machine

def sineQuarter0 : List Nat := [
  0, 12868, 25736, 38604, 51472, 64339, 77207, 90074, 102941, 115808, 128675, 141541,
  154407, 167272, 180138, 193002, 205867, 218731, 231594, 244457, 257319, 270180, 283041, 295902,
  308761, 321620, 334478, 347336, 360192, 373048, 385903, 398756, 411609, 424461, 437312, 450162,
  463011, 475859, 488706, 501551, 514396, 527239, 540081, 552921, 565761, 578599, 591435, 604270,
  617104, 629937, 642767, 655597, 668425, 681251, 694076, 706899, 719720, 732540, 745358, 758174,
  770988, 783801, 796611, 809420]

def sineQuarter1 : List Nat := [
  822227, 835032, 847835, 860636, 873435, 886232, 899027, 911820, 924611, 937399, 950186, 962970,
  975751, 988531, 1001308, 1014083, 1026855, 1039625, 1052393, 1065158, 1077920, 1090680, 1103438, 1116192,
  1128945, 1141694, 1154441, 1167185, 1179927, 1192665, 1205401, 1218134, 1230864, 1243592, 1256316, 1269037,
  1281756, 1294471, 1307183, 1319892, 1332599, 1345302, 1358001, 1370698, 1383391, 1396081, 1408768, 1421452,
  1434132, 1446809, 1459482, 1472152, 1484819, 1497482, 1510141, 1522797, 1535450, 1548098, 1560744, 1573385,
  1586023, 1598657, 1611287, 1623913]

def sineQuarter2 : List Nat := [
  1636536, 1649155, 1661770, 1674381, 1686988, 1699591, 1712190, 1724785, 1737376, 1749963, 1762546, 1775124,
  1787699, 1800269, 1812835, 1825397, 1837954, 1850507, 1863056, 1875600, 1888140, 1900676, 1913207, 1925734,
  1938256, 1950773, 1963286, 1975794, 1988298, 2000797, 2013291, 2025781, 2038265, 2050745, 2063220, 2075690,
  2088156, 2100616, 2113072, 2125522, 2137968, 2150408, 2162844, 2175274, 2187699, 2200119, 2212534, 2224944,
  2237349, 2249748, 2262142, 2274530, 2286913, 2299291, 2311664, 2324031, 2336392, 2348748, 2361099, 2373444,
  2385783, 2398117, 2410445, 2422767]

def sineQuarter3 : List Nat := [
  2435084, 2447395, 2459700, 2472000, 2484293, 2496581, 2508863, 2521139, 2533409, 2545673, 2557931, 2570184,
  2582430, 2594670, 2606904, 2619131, 2631353, 2643568, 2655777, 2667980, 2680177, 2692367, 2704551, 2716729,
  2728900, 2741065, 2753223, 2765375, 2777521, 2789660, 2801792, 2813918, 2826037, 2838149, 2850255, 2862354,
  2874446, 2886532, 2898610, 2910682, 2922747, 2934806, 2946857, 2958901, 2970939, 2982969, 2994992, 3007009,
  3019018, 3031020, 3043015, 3055003, 3066984, 3078957, 3090923, 3102882, 3114834, 3126778, 3138715, 3150645,
  3162567, 3174482, 3186389, 3198289]

def sineQuarter4 : List Nat := [
  3210181, 3222066, 3233943, 3245812, 3257674, 3269528, 3281375, 3293213, 3305044, 3316868, 3328683, 3340491,
  3352290, 3364082, 3375866, 3387642, 3399410, 3411170, 3422922, 3434666, 3446402, 3458130, 3469849, 3481561,
  3493264, 3504959, 3516646, 3528324, 3539994, 3551656, 3563310, 3574955, 3586592, 3598220, 3609840, 3621451,
  3633054, 3644648, 3656234, 3667811, 3679379, 3690939, 3702490, 3714032, 3725566, 3737091, 3748607, 3760114,
  3771613, 3783102, 3794583, 3806055, 3817517, 3828971, 3840416, 3851852, 3863278, 3874696, 3886104, 3897504,
  3908894, 3920275, 3931646, 3943009]

def sineQuarter5 : List Nat := [
  3954362, 3965706, 3977040, 3988366, 3999681, 4010988, 4022285, 4033572, 4044850, 4056119, 4067378, 4078627,
  4089867, 4101097, 4112317, 4123528, 4134729, 4145921, 4157102, 4168274, 4179436, 4190588, 4201731, 4212863,
  4223986, 4235098, 4246201, 4257293, 4268376, 4279449, 4290511, 4301564, 4312606, 4323638, 4334660, 4345672,
  4356673, 4367665, 4378646, 4389616, 4400577, 4411527, 4422466, 4433396, 4444314, 4455223, 4466121, 4477008,
  4487885, 4498751, 4509607, 4520452, 4531286, 4542110, 4552923, 4563725, 4574517, 4585298, 4596068, 4606827,
  4617576, 4628313, 4639040, 4649756]

def sineQuarter6 : List Nat := [
  4660460, 4671154, 4681837, 4692509, 4703170, 4713819, 4724458, 4735085, 4745702, 4756307, 4766901, 4777484,
  4788055, 4798616, 4809165, 4819702, 4830229, 4840744, 4851247, 4861739, 4872220, 4882689, 4893147, 4903593,
  4914028, 4924451, 4934863, 4945263, 4955651, 4966028, 4976393, 4986746, 4997087, 5007417, 5017735, 5028041,
  5038336, 5048618, 5058889, 5069147, 5079394, 5089629, 5099852, 5110063, 5120261, 5130448, 5140623, 5150786,
  5160936, 5171074, 5181201, 5191315, 5201416, 5211506, 5221583, 5231648, 5241701, 5251741, 5261769, 5271785,
  5281788, 5291778, 5301757, 5311723]

def sineQuarter7 : List Nat := [
  5321676, 5331617, 5341545, 5351461, 5361364, 5371254, 5381132, 5390997, 5400850, 5410690, 5420517, 5430331,
  5440132, 5449921, 5459697, 5469460, 5479210, 5488948, 5498672, 5508383, 5518082, 5527767, 5537440, 5547099,
  5556746, 5566379, 5575999, 5585606, 5595200, 5604781, 5614349, 5623903, 5633444, 5642972, 5652487, 5661988,
  5671476, 5680951, 5690412, 5699860, 5709294, 5718715, 5728123, 5737517, 5746898, 5756265, 5765618, 5774958,
  5784285, 5793597, 5802897, 5812182, 5821454, 5830712, 5839956, 5849187, 5858404, 5867607, 5876796, 5885972,
  5895133, 5904281, 5913415, 5922535]

def sineQuarter8 : List Nat := [
  5931641, 5940733, 5949811, 5958875, 5967925, 5976961, 5985983, 5994991, 6003985, 6012964, 6021930, 6030881,
  6039818, 6048741, 6057650, 6066544, 6075424, 6084290, 6093141, 6101979, 6110801, 6119610, 6128404, 6137184,
  6145949, 6154699, 6163436, 6172157, 6180865, 6189557, 6198235, 6206899, 6215548, 6224182, 6232802, 6241407,
  6249997, 6258573, 6267133, 6275679, 6284211, 6292727, 6301229, 6309716, 6318188, 6326645, 6335088, 6343515,
  6351927, 6360325, 6368708, 6377075, 6385428, 6393765, 6402088, 6410395, 6418687, 6426965, 6435227, 6443474,
  6451706, 6459922, 6468124, 6476310]

def sineQuarter9 : List Nat := [
  6484481, 6492637, 6500777, 6508902, 6517012, 6525107, 6533186, 6541249, 6549298, 6557331, 6565348, 6573350,
  6581337, 6589308, 6597264, 6605204, 6613128, 6621037, 6628931, 6636809, 6644671, 6652517, 6660348, 6668163,
  6675963, 6683747, 6691515, 6699267, 6707004, 6714725, 6722430, 6730119, 6737792, 6745450, 6753091, 6760717,
  6768327, 6775921, 6783499, 6791061, 6798607, 6806137, 6813651, 6821149, 6828631, 6836097, 6843546, 6850980,
  6858398, 6865799, 6873184, 6880553, 6887906, 6895243, 6902563, 6909868, 6917156, 6924427, 6931683, 6938922,
  6946144, 6953351, 6960541, 6967715]

def sineQuarter10 : List Nat := [
  6974872, 6982013, 6989137, 6996245, 7003337, 7010412, 7017470, 7024512, 7031538, 7038547, 7045539, 7052515,
  7059474, 7066417, 7073343, 7080252, 7087145, 7094021, 7100880, 7107722, 7114548, 7121357, 7128150, 7134925,
  7141684, 7148426, 7155151, 7161860, 7168551, 7175226, 7181883, 7188524, 7195148, 7201755, 7208345, 7214918,
  7221474, 7228014, 7234536, 7241041, 7247529, 7254000, 7260454, 7266890, 7273310, 7279713, 7286098, 7292467,
  7298818, 7305152, 7311469, 7317768, 7324051, 7330316, 7336564, 7342794, 7349008, 7355204, 7361383, 7367544,
  7373688, 7379815, 7385924, 7392016]

def sineQuarter11 : List Nat := [
  7398091, 7404148, 7410188, 7416210, 7422215, 7428203, 7434173, 7440125, 7446060, 7451977, 7457877, 7463760,
  7469624, 7475472, 7481301, 7487113, 7492908, 7498684, 7504444, 7510185, 7515909, 7521615, 7527303, 7532974,
  7538627, 7544262, 7549880, 7555479, 7561061, 7566625, 7572172, 7577700, 7583211, 7588704, 7594179, 7599636,
  7605075, 7610496, 7615900, 7621285, 7626653, 7632003, 7637334, 7642648, 7647944, 7653221, 7658481, 7663723,
  7668946, 7674152, 7679340, 7684509, 7689660, 7694794, 7699909, 7705006, 7710085, 7715146, 7720188, 7725213,
  7730219, 7735207, 7740177, 7745129]

def sineQuarter12 : List Nat := [
  7750062, 7754978, 7759875, 7764753, 7769614, 7774456, 7779280, 7784085, 7788873, 7793642, 7798392, 7803124,
  7807838, 7812534, 7817211, 7821870, 7826510, 7831132, 7835735, 7840320, 7844887, 7849435, 7853965, 7858476,
  7862969, 7867443, 7871898, 7876336, 7880754, 7885154, 7889536, 7893899, 7898243, 7902569, 7906876, 7911165,
  7915435, 7919686, 7923919, 7928133, 7932328, 7936505, 7940663, 7944802, 7948923, 7953025, 7957108, 7961173,
  7965219, 7969246, 7973254, 7977244, 7981214, 7985166, 7989100, 7993014, 7996910, 8000787, 8004644, 8008484,
  8012304, 8016105, 8019888, 8023652]

def sineQuarter13 : List Nat := [
  8027396, 8031122, 8034829, 8038517, 8042187, 8045837, 8049468, 8053081, 8056674, 8060249, 8063804, 8067341,
  8070858, 8074357, 8077837, 8081297, 8084739, 8088161, 8091565, 8094949, 8098315, 8101661, 8104988, 8108296,
  8111586, 8114856, 8118107, 8121338, 8124551, 8127745, 8130919, 8134075, 8137211, 8140328, 8143426, 8146505,
  8149564, 8152605, 8155626, 8158628, 8161611, 8164575, 8167519, 8170444, 8173350, 8176237, 8179104, 8181953,
  8184782, 8187591, 8190382, 8193153, 8195905, 8198638, 8201351, 8204045, 8206720, 8209375, 8212012, 8214628,
  8217226, 8219804, 8222363, 8224902]

def sineQuarter14 : List Nat := [
  8227422, 8229923, 8232404, 8234866, 8237309, 8239732, 8242136, 8244521, 8246886, 8249231, 8251557, 8253864,
  8256152, 8258420, 8260668, 8262897, 8265107, 8267297, 8269468, 8271619, 8273751, 8275863, 8277956, 8280030,
  8282084, 8284118, 8286133, 8288128, 8290104, 8292061, 8293998, 8295915, 8297813, 8299691, 8301550, 8303389,
  8305209, 8307009, 8308790, 8310551, 8312293, 8314015, 8315717, 8317400, 8319063, 8320707, 8322331, 8323936,
  8325521, 8327086, 8328632, 8330158, 8331665, 8333152, 8334619, 8336067, 8337495, 8338903, 8340292, 8341662,
  8343011, 8344341, 8345652, 8346942]

def sineQuarter15 : List Nat := [
  8348214, 8349465, 8350697, 8351909, 8353102, 8354274, 8355428, 8356561, 8357675, 8358769, 8359844, 8360899,
  8361934, 8362949, 8363945, 8364921, 8365878, 8366814, 8367732, 8368629, 8369507, 8370365, 8371203, 8372022,
  8372821, 8373600, 8374359, 8375099, 8375819, 8376520, 8377200, 8377861, 8378503, 8379124, 8379726, 8380308,
  8380870, 8381413, 8381936, 8382439, 8382923, 8383387, 8383831, 8384255, 8384659, 8385044, 8385409, 8385755,
  8386081, 8386386, 8386673, 8386939, 8387186, 8387413, 8387620, 8387808, 8387975, 8388123, 8388252, 8388360,
  8388449, 8388518, 8388568, 8388597]

def sineQuarter16 : List Nat := [
  8388607]

/-- T[i] for i from 0 to 1,024. -/
def sineQuarter : List Nat :=
  sineQuarter0 ++ sineQuarter1 ++ sineQuarter2 ++ sineQuarter3 ++ sineQuarter4 ++ sineQuarter5 ++ sineQuarter6 ++ sineQuarter7 ++ sineQuarter8 ++
  sineQuarter9 ++ sineQuarter10 ++ sineQuarter11 ++ sineQuarter12 ++ sineQuarter13 ++ sineQuarter14 ++ sineQuarter15 ++ sineQuarter16

/-- T[i] of R248 for every i, taken modulo 4,096. -/
def sineTable (i : Nat) : Int :=
  let k := i % 4096
  if k ≤ 1024 then (sineQuarter.getD k 0 : Int)
  else if k ≤ 2048 then (sineQuarter.getD (2048 - k) 0 : Int)
  else if k ≤ 3072 then -(sineQuarter.getD (k - 2048) 0 : Int)
  else -(sineQuarter.getD (4096 - k) 0 : Int)

end Sys2Proof.Machine
end

