-- ==== Sys2Proof/Machine/Blocks.lean ====
section
/-! DEFINITION. The control block library (chapter 8): what each block type reads, computes, keeps and flags.  A number of a
pipe is a `BF`: a block-floating value on pipes 0 to 3, and q × 2^(8 − 23) = q / 2^15 on pipe 4, whose terms the accumulator
of R228 adds exactly, as R232 asks. -/

namespace Sys2Proof.Machine

/-- A block type of Table 8-1: ports that may be used (bit mask), outputs, coefficient and state words, L and O; whether
pipe 4 runs it; its state port; whether port 2 preloads and port 3 resets. -/
structure BType where
  pipe4 : Bool
  ports : Nat
  outs : Nat
  coefs : Nat
  states : Nat
  lat : Nat
  occ : Nat
  statePort : Option Nat
  pre : Bool
  rst : Bool
deriving DecidableEq, Repr

/-- Table 8-1; the words of LUT, DELAY and SEQ beyond the first follow c0. -/
def blockType : Nat → Option BType
  | 0x010 => some ⟨true, 0xF, 1, 4, 0, 6, 1, none, false, false⟩
  | 0x011 => some ⟨true, 0xF, 1, 0, 0, 6, 1, none, false, false⟩
  | 0x012 => some ⟨true, 0x3, 3, 0, 0, 4, 1, none, false, false⟩
  | 0x013 => some ⟨true, 0x7, 1, 2, 0, 4, 1, none, false, false⟩
  | 0x014 => some ⟨true, 0x7, 1, 0, 0, 3, 1, none, false, false⟩
  | 0x015 => some ⟨true, 0x3, 1, 3, 1, 4, 1, none, false, false⟩
  | 0x016 => some ⟨true, 0x1, 1, 0, 0, 2, 1, none, false, false⟩
  | 0x018 => some ⟨false, 0x3, 1, 0, 0, 30, 26, none, false, false⟩
  | 0x019 => some ⟨false, 0x1, 1, 0, 0, 28, 24, none, false, false⟩
  | 0x01A => some ⟨false, 0x1, 1, 1, 0, 12, 4, none, false, false⟩
  | 0x020 => some ⟨true, 0xD, 2, 3, 1, 7, 2, some 1, true, true⟩
  | 0x021 => some ⟨false, 0xD, 2, 4, 1, 9, 2, none, true, true⟩
  | 0x022 => some ⟨true, 0xD, 1, 2, 1, 8, 2, none, true, true⟩
  | 0x023 => some ⟨false, 0x9, 1, 5, 4, 10, 3, none, false, true⟩
  | 0x024 => some ⟨true, 0xD, 1, 2, 1, 6, 1, none, true, true⟩
  | 0x025 => some ⟨true, 0xD, 1, 1, 0, 3, 1, some 0, true, true⟩
  | 0x030 => some ⟨false, 0x7, 3, 0, 0, 8, 3, none, false, false⟩
  | 0x031 => some ⟨false, 0x7, 3, 0, 0, 8, 3, none, false, false⟩
  | 0x032 => some ⟨false, 0x7, 2, 0, 0, 14, 4, none, false, false⟩
  | 0x033 => some ⟨false, 0x7, 2, 0, 0, 14, 4, none, false, false⟩
  | 0x034 => some ⟨false, 0xB, 4, 1, 0, 10, 4, none, false, true⟩
  | 0x035 => some ⟨false, 0xF, 3, 7, 3, 24, 8, none, true, true⟩
  | 0x036 => some ⟨false, 0xF, 2, 0, 0, 8, 2, none, false, false⟩
  | 0x040 => some ⟨false, 0xD, 2, 4, 8, 4, 1, some 1, true, true⟩
  | _ => none

/-- Coefficient words of a block, from the integer in its c0 (R267, R273, R277). -/
def coefWords (typ : Nat) (t : BType) (c0 : Nat) : Nat := if typ = 0x01A then 1 + 2 * c0 else t.coefs
/-- State words of a block. -/
def stateWords (typ : Nat) (t : BType) (c0 : Nat) : Nat :=
  if typ = 0x025 then c0 else if typ = 0x034 then 2 * c0 else t.states

/-- Integer coefficient words (R258): index, least, greatest value. -/
def intWords (typ : Nat) : List (Nat × Nat × Nat) :=
  if typ = 0x015 then [(2, 0, 1)]
  else if typ = 0x01A then [(0, 2, 64)]
  else if typ = 0x025 ∨ typ = 0x034 then [(0, 1, 1024)]
  else if typ = 0x040 then [(3, 1, 8)]
  else []

/-! ## Numbers of a pipe -/

/-- The zero of a pipe: mantissa 0 at exponent −128 (R229), or Q15 zero. -/
def zeroOf (q : Bool) : BF := if q then ⟨0, 8⟩ else .zero
/-- A word read as a number of a pipe (R222, R258). -/
def numOf (q : Bool) (w : Word) : BF := if q then ⟨sext 16 w.toNat, 8⟩ else BF.ofWord w
/-- The word of a number; a Q15 word is held sign-extended (R222). -/
def wordOf (q : Bool) (x : BF) : Word := if q then BitVec.ofInt 32 x.m else x.toWord
/-- The true and the false flag (R259). -/
def flagOf (q v : Bool) : BF := if v then (if q then ⟨32767, 8⟩ else .one) else zeroOf q

/-- The outputs of a block, rounded as a group (R229) or each to Q15 (R232). -/
def roundOut (q : Bool) (rs : List Res) : List BF × Bool :=
  if q then
    let vs := rs.map fun r => let v := r.rndScaled 15; (clampI (-32768) 32767 v, decide (v < -32768) || decide (32767 < v))
    (vs.map fun v => ⟨v.1, 8⟩, vs.any (·.2))
  else groupRound rs

/-- One value: an intermediate, or a state word (R257). -/
def round (q : Bool) (x : Ex) : BF × Bool :=
  match roundOut q [.val x] with
  | ([b], f) => (b, f)
  | (_, f) => (zeroOf q, f)

/-- min(max(x, lo), hi) and whether it differs from x (R263). -/
def limitEx (x lo hi : Ex) : Ex × Bool := let y := (x.max lo).min hi; (y, !(y.eq x))

/-- What a block sees in one sample. -/
structure BlockIn where
  q : Bool
  u : List BF
  live : List Bool
  coef : Nat → Word
  st : List Word
  reset : Bool
  pre : BF
  valid : Bool
  /-- T_s in seconds (R248) -/
  ts : Ex

/-- Outputs, state words and the sticky flag. -/
structure BlockOut where
  outs : List BF
  st : List Word
  flag : Bool

namespace BlockIn

def port (b : BlockIn) (i : Nat) : BF := b.u.getD i (zeroOf b.q)
def has (b : BlockIn) (i : Nat) : Bool := b.live.getD i false
def c (b : BlockIn) (i : Nat) : BF := numOf b.q (b.coef i)
def state (b : BlockIn) (i : Nat) : BF := numOf b.q (b.st.getD i 0)
/-- An integer coefficient word, clamped to its range (R258), and whether it was outside. -/
def int (b : BlockIn) (i lo hi : Nat) : Nat × Bool :=
  let w := if b.q then (b.coef i).toNat % 65536 else (b.coef i).toNat
  (min (max w lo) hi, decide (w < lo) || decide (hi < w))

end BlockIn

/-- Outputs from exact results, with no state. -/
def plainOut (b : BlockIn) (rs : List Res) (flag : Bool) : BlockOut :=
  let o := roundOut b.q rs
  ⟨o.1, [], flag || o.2⟩

def accVal (ts : List Term) : Res := .val (accumulate ts)

/-! ## Arithmetic and logic blocks -/

/-- SUM of R261: ports whose reference is none contribute nothing. -/
def blockSum (b : BlockIn) : BlockOut :=
  plainOut b [accVal (((List.range 4).filter b.has).map fun i => .prod (b.c i) (b.port i))] false

def blockMac (b : BlockIn) : BlockOut :=
  plainOut b [accVal [.prod (b.port 0) (b.port 1), .prod (b.port 2) (b.port 3)]] false

def blockMinMax (b : BlockIn) : BlockOut :=
  let x := (b.port 0).ex
  let y := (b.port 1).ex
  plainOut b [.val (x.min y), .val (x.max y), .val (if x.isNeg then x.neg else x)] false

/-- LIMIT of R263. -/
def blockLimit (b : BlockIn) : BlockOut :=
  let lo := if b.has 1 then b.port 1 else b.c 0
  let hi := if b.has 2 then b.port 2 else b.c 1
  let y := limitEx (b.port 0).ex lo.ex hi.ex
  plainOut b [.val y.1] y.2

def blockSelect (b : BlockIn) : BlockOut :=
  plainOut b [.val (if 0 < (b.port 2).m then (b.port 0).ex else (b.port 1).ex)] false

/-- CMPH of R265; its state word holds CROSSED in bit 0 and PREV in bit 1. -/
def blockCmph (b : BlockIn) : BlockOut :=
  let thr := (if b.has 1 then b.port 1 else b.c 0).ex
  let h := if 0 < (b.c 1).m then (b.c 1).ex else Ex.ofInt 0
  let mode := b.int 2 0 1
  let w := (b.st.getD 0 0).toNat
  let u := (b.port 0).ex
  let above := if mode.1 = 0 then thr.lt u else u.lt thr
  let crossed := w % 2 == 1 || (above && w / 2 % 2 == 1)
  let back := if mode.1 = 0 then u.le (thr.sub h) else (thr.add h).le u
  let crossed := crossed && !back
  ⟨[flagOf b.q crossed], [BitVec.ofNat 32 (bit crossed + 2 * bit above)], mode.2⟩

def blockValid (b : BlockIn) : BlockOut := ⟨[flagOf b.q b.valid], [], false⟩

/-- DIV of R266; a zero divisor gives zero or the saturated value, and the flag. -/
def blockDiv (b : BlockIn) : BlockOut :=
  let x := b.port 0
  let y := b.port 1
  if y.m = 0 then
    ⟨[if x.m = 0 then .zero else if 0 < x.m then ⟨8388607, 127⟩ else ⟨-8388608, 127⟩], [], true⟩
  else plainOut b [.val ⟨if y.m < 0 then -x.m else x.m, y.m.natAbs, x.e - y.e⟩] false

def blockSqrt (b : BlockIn) : BlockOut :=
  let x := b.port 0
  if x.m < 0 then ⟨[.zero], [], true⟩ else plainOut b [.root x.ex] false

/-- Interpolation between two points of a LUT (R267). -/
def lutBetween (u x0 x1 y0 y1 : Ex) : Ex :=
  let dx := x1.sub x0
  if dx.num = 0 then y0
  else
    let d := dx.frac
    y0.add (((y1.sub y0).mul (u.sub x0)).mul (if d.1 < 0 then ⟨-(d.2 : Int), d.1.natAbs, 0⟩ else ⟨(d.2 : Int), d.1.natAbs, 0⟩))

/-- The lowest j with x_j ≤ u ≤ x_(j+1). -/
def lutFind (u : Ex) : List Ex → List Ex → Option Ex
  | x0 :: x1 :: xs, y0 :: y1 :: ys =>
    if x0.le u && u.le x1 then some (lutBetween u x0 x1 y0 y1) else lutFind u (x1 :: xs) (y1 :: ys)
  | _, _ => none

def strictlyRising : List Ex → Bool
  | x :: y :: r => x.lt y && strictlyRising (y :: r)
  | _ => true

/-- LUT of R267, with the breakpoints of the bank in use as they stand. -/
def blockLut (b : BlockIn) : BlockOut :=
  let n := b.int 0 2 64
  let xs := (List.range n.1).map fun i => (b.c (1 + i)).ex
  let ys := (List.range n.1).map fun i => (b.c (1 + n.1 + i)).ex
  let u := (b.port 0).ex
  let x0 := xs.headD (Ex.ofInt 0)
  let xn := xs.getLastD (Ex.ofInt 0)
  let bad := n.2 || !strictlyRising xs
  if u.lt x0 then plainOut b [.val (ys.headD (Ex.ofInt 0))] true
  else if xn.lt u then plainOut b [.val (ys.getLastD (Ex.ofInt 0))] true
  else plainOut b [.val ((lutFind u xs ys).getD (Ex.ofInt 0))] bad

/-! ## Dynamic blocks -/

/-- INTEG of R268. -/
def blockInteg (b : BlockIn) : BlockOut :=
  let x := if b.reset then b.pre.ex else accumulate [.single (b.state 0), .prod (b.c 0) (b.port 0)]
  let y := limitEx x (b.c 1).ex (b.c 2).ex
  let o := roundOut b.q [.val y.1, .val (b.state 0).ex]
  let s := round b.q y.1
  ⟨o.1, [wordOf b.q s.1], y.2 || o.2 || s.2⟩

/-- PI of R269. -/
def blockPi (b : BlockIn) : BlockOut :=
  let kp := b.c 0
  let ki := b.c 1
  let lo := (b.c 2).ex
  let hi := (b.c 3).ex
  let e := b.port 0
  let i0 := b.state 0
  let r : BF × Bool :=
    if b.reset then
      let l := limitEx (accumulate [.single b.pre, (Term.prod kp e).neg]) lo hi
      let v := round b.q l.1
      (v.1, l.2 || v.2)
    else
      let i1 := round b.q (accumulate [.single i0, .prod ki e])
      let y1 := round b.q (accumulate [.prod kp e, .single i1.1])
      let kie := ki.m * e.m
      if (hi.lt y1.1.ex && decide (0 < kie)) || (y1.1.ex.lt lo && decide (kie < 0)) then (i0, true)
      else
        let l := limitEx i1.1.ex lo hi
        let v := round b.q l.1
        (v.1, i1.2 || y1.2 || l.2 || v.2)
  let y := limitEx (accumulate [.prod kp e, .single r.1]) lo hi
  let o := roundOut b.q [.val y.1, .val r.1.ex]
  ⟨o.1, [wordOf b.q r.1], r.2 || y.2 || o.2⟩

/-- LAG1 of R270. -/
def blockLag (b : BlockIn) : BlockOut :=
  let y := if b.reset then b.pre.ex else accumulate [.prod (b.c 1) (b.state 0), .prod (b.c 0) (b.port 0)]
  let o := roundOut b.q [.val y]
  ⟨o.1, [wordOf b.q (round b.q y).1], o.2⟩

/-- BIQUAD of R271; state words u1, u2, y1, y2. -/
def blockBiquad (b : BlockIn) : BlockOut :=
  if b.reset then ⟨[zeroOf b.q], List.replicate 4 (wordOf b.q (zeroOf b.q)), false⟩
  else
    let y := accumulate [.prod (b.c 0) (b.port 0), .prod (b.c 1) (b.state 0), .prod (b.c 2) (b.state 1),
      (Term.prod (b.c 3) (b.state 2)).neg, (Term.prod (b.c 4) (b.state 3)).neg]
    let o := roundOut b.q [.val y]
    ⟨o.1, [wordOf b.q (round b.q (b.port 0).ex).1, b.st.getD 0 0, wordOf b.q (round b.q y).1, b.st.getD 2 0], o.2⟩

/-- RATELIM of R272: the step limited, the sum rounded once. -/
def blockRate (b : BlockIn) : BlockOut :=
  let z := Ex.ofInt 0
  let p := (b.state 0).ex
  let rise := (b.c 0).ex.max z
  let fall := (b.c 1).ex.max z
  let step := limitEx ((b.port 0).ex.sub p) fall.neg rise
  let y := if b.reset then b.pre.ex else p.add step.1
  let o := roundOut b.q [.val y]
  ⟨o.1, [wordOf b.q (round b.q y).1], o.2 || (step.2 && !b.reset)⟩

/-- The D in use of a DELAY or SEQ that owns `own` sample places (R258, R273). -/
def delayOf (b : BlockIn) (own : Nat) : Nat × Bool :=
  let d := b.int 0 1 1024
  (min d.1 own, d.2 || decide (own < d.1))

/-- DELAY of R273; state words newest first. -/
def blockDelay (b : BlockIn) : BlockOut :=
  if b.reset then
    let p := round b.q b.pre.ex
    let o := roundOut b.q [.val b.pre.ex]
    ⟨o.1, b.st.map fun _ => wordOf b.q p.1, o.2⟩
  else
    let d := delayOf b b.st.length
    let o := roundOut b.q [.val (b.state (d.1 - 1)).ex]
    ⟨o.1, (wordOf b.q (round b.q (b.port 0).ex).1 :: b.st).take b.st.length, d.2 || o.2⟩

/-! ## Transforms and angle -/

/-- The constants of R274. -/
def k23 : BF := ⟨5592405, 0⟩
def k13 : BF := ⟨2796203, 0⟩
def kr3 : BF := ⟨4843165, 0⟩
def kh : BF := ⟨4194304, 0⟩
def ks3 : BF := ⟨7264748, 0⟩

/-- φ of an angle in turns (R275). -/
def angleOf (x : Ex) : Nat := unsign 32 (x.scale 32).floor

def sineAt (phi : Nat) : Int :=
  let i := phi / 2 ^ 20
  let r : Int := ((phi % 2 ^ 20 : Nat) : Int)
  sineTable i + ((sineTable (i + 1) - sineTable i) * r + 2 ^ 19) / 2 ^ 20

/-- SC(φ) of R275: cosine and sine as mantissas at exponent 0. -/
def sc (phi : Nat) : BF × BF := (⟨sineAt ((phi + 2 ^ 30) % 2 ^ 32), 0⟩, ⟨sineAt phi, 0⟩)

def blockClarke (b : BlockIn) : BlockOut :=
  let x := b.port 0
  let y := b.port 1
  let z := b.port 2
  plainOut b [accVal [.prod k23 x, (Term.prod k13 y).neg, (Term.prod k13 z).neg],
    accVal [.prod kr3 y, (Term.prod kr3 z).neg], accVal [.prod k13 x, .prod k13 y, .prod k13 z]] false

def blockIclarke (b : BlockIn) : BlockOut :=
  let x := b.port 0
  let y := b.port 1
  let z := Term.single (b.port 2)
  plainOut b [accVal [.single x, z], accVal [(Term.prod kh x).neg, .prod ks3 y, z],
    accVal [(Term.prod kh x).neg, (Term.prod ks3 y).neg, z]] false

def blockPark (b : BlockIn) : BlockOut :=
  let x := b.port 0
  let y := b.port 1
  let t := sc (angleOf (b.port 2).ex)
  plainOut b [accVal [.prod x t.1, .prod y t.2], accVal [.prod y t.1, (Term.prod x t.2).neg]] false

def blockIpark (b : BlockIn) : BlockOut :=
  let d := b.port 0
  let q := b.port 1
  let t := sc (angleOf (b.port 2).ex)
  plainOut b [accVal [.prod d t.1, (Term.prod q t.2).neg], accVal [.prod d t.2, .prod q t.1]] false

/-- SEQ of R277; state words α, β of the newest sample first. -/
def blockSeq (b : BlockIn) : BlockOut :=
  if b.reset then ⟨List.replicate 4 .zero, b.st.map fun _ => BF.zero.toWord, false⟩
  else
    let x := b.port 0
    let y := b.port 1
    let d := delayOf b (b.st.length / 2)
    let xd := b.state (2 * d.1 - 2)
    let yd := b.state (2 * d.1 - 1)
    let o := groupRound [accVal [.prod kh x, (Term.prod kh yd).neg], accVal [.prod kh y, .prod kh xd],
      accVal [.prod kh x, .prod kh yd], accVal [.prod kh y, (Term.prod kh xd).neg]]
    ⟨o.1, ((round false x.ex).1.toWord :: (round false y.ex).1.toWord :: b.st).take b.st.length, d.2 || o.2⟩

/-- The phase advance rnd(f × T_s × 2^32) modulo 2^32. -/
def phaseStep (phi : Nat) (f ts : Ex) : Nat := unsign 32 ((phi : Int) + ((f.mul ts).scale 32).rnd)

/-- ANGLE of R278 and R279; state words φ, I, and the lock word: lock in bit 0, samples within ε in bits [7:1], samples
outside in bits [9:8]. Log entry 87. -/
def blockAngle (b : BlockIn) : BlockOut :=
  let fnom := (b.c 0).ex
  let flo := (b.c 3).ex
  let fhi := (b.c 4).ex
  if b.reset then
    let phi := angleOf b.pre.ex
    let f := limitEx fnom flo fhi
    let o := groupRound [.val ⟨phi, 1, -32⟩, .val (f.1.mul (b.c 6).ex), .val (Ex.ofInt 0)]
    ⟨o.1, [BitVec.ofNat 32 (phaseStep phi f.1 b.ts), BF.zero.toWord, 0], f.2 || o.2⟩
  else
    let phi := (b.st.getD 0 0).toNat
    let t := sc phi
    let eq := round false (accumulate [.prod (b.port 1) t.1, (Term.prod (b.port 0) t.2).neg])
    let il := limitEx (accumulate [.single (b.state 1), .prod (b.c 2) eq.1]) (flo.sub fnom) (fhi.sub fnom)
    let i := round false il.1
    let fl := limitEx (accumulate [.single (b.c 0), .prod (b.c 1) eq.1, .single i.1]) flo fhi
    let f := round false fl.1
    let lw := (b.st.getD 2 0).toNat
    let inside := (if eq.1.ex.isNeg then eq.1.ex.neg else eq.1.ex).le (b.c 5).ex
    let nin := if inside then min (field lw 1 7 + 1) 64 else 0
    let nout := if inside then 0 else min (field lw 8 2 + 1) 2
    let lock := (field lw 0 1 == 1 || decide (64 ≤ nin)) && decide (nout < 2)
    let o := groupRound [.val ⟨phi, 1, -32⟩, accVal [.prod f.1 (b.c 6)], .val (Ex.ofInt (bit lock))]
    ⟨o.1, [BitVec.ofNat 32 (phaseStep phi f.1.ex b.ts), i.1.toWord, BitVec.ofNat 32 (bit lock + 2 * nin + 256 * nout)],
      il.2 || fl.2 || eq.2 || i.2 || f.2 || o.2⟩

def blockPower (b : BlockIn) : BlockOut :=
  let va := b.port 0
  let vb := b.port 1
  let ia := b.port 2
  let ib := b.port 3
  plainOut b [accVal [.prod va ia, .prod vb ib], accVal [.prod vb ia, (Term.prod va ib).neg]] false

/-- PROFILE of R280: u0 unchanged, and the position of the last base frame that has started, which its generator keeps. -/
def blockProfile (b : BlockIn) (position : Ex) : BlockOut :=
  let p := round false position
  ⟨[b.port 0, p.1], [], p.2⟩

/-- One block of a sample (Table 8-1). -/
def evalBlock (typ : Nat) (b : BlockIn) (position : Ex) : BlockOut :=
  match typ with
  | 0x010 => blockSum b
  | 0x011 => blockMac b
  | 0x012 => blockMinMax b
  | 0x013 => blockLimit b
  | 0x014 => blockSelect b
  | 0x015 => blockCmph b
  | 0x016 => blockValid b
  | 0x018 => blockDiv b
  | 0x019 => blockSqrt b
  | 0x01A => blockLut b
  | 0x020 => blockInteg b
  | 0x021 => blockPi b
  | 0x022 => blockLag b
  | 0x023 => blockBiquad b
  | 0x024 => blockRate b
  | 0x025 => blockDelay b
  | 0x030 => blockClarke b
  | 0x031 => blockIclarke b
  | 0x032 => blockPark b
  | 0x033 => blockIpark b
  | 0x034 => blockSeq b
  | 0x035 => blockAngle b
  | 0x036 => blockPower b
  | 0x040 => blockProfile b position
  | _ => ⟨[], [], false⟩

end Sys2Proof.Machine
end

