-- ==== Sys2Proof/Machine/Engine.lean ====
section
/-! DEFINITION. The control engines (chapter 7) with the splice of chapter 9: the start of a sample with its mailbox latch,
the evaluation of the law graph, commit, overrun and capture. -/

namespace Sys2Proof.Machine

/-! ## References (Table 7-4) -/

def refKind (w : BitVec 16) : Nat := w.toNat / 2 ^ 14
def refBlock (w : BitVec 16) : Nat := field w.toNat 2 10
def refPort (w : BitVec 16) : Nat := field w.toNat 0 2
def refChan (w : BitVec 16) : Nat := field w.toNat 0 6
def refCoef (w : BitVec 16) : Nat := field w.toNat 0 14

/-- Channels 56 to 63 carry Q15 values (R214). -/
def privChan (c : Nat) : Bool := decide (56 ≤ c)
def zeroWord (q : Bool) : Word := wordOf q (zeroOf q)

/-- A number of one format as a word of another: Q15 to block-floating by R234, otherwise unchanged (R238). -/
def convWord (srcQ dstQ : Bool) (w : Word) : Word := if srcQ && !dstQ then (BF.ofQ15 (sext 16 w.toNat)).toWord else w

def Graph.isInput (g : Graph) (c : Nat) : Bool := match g.chans[c]? with | some x => x.kind == 1 | none => false
def Graph.isOutput (g : Graph) (c : Nat) : Bool := match g.chans[c]? with | some x => x.kind == 2 | none => false
/-- C_X of R225. -/
def Graph.cx (g : Graph) : Nat := g.fin + 40

/-- The graph that is loaded: an accepted one counts as loaded at once, and takes effect at the next sample start.
Log entry 39. -/
def Engine.loaded (e : Engine) : Option Graph := e.loading.orElse fun _ => e.graph

/-- The engine's mode table, an accepted load included: a graph's discards the table there was (R290). -/
def Engine.modeTable (x : Engine) : List Mode := x.modeLoading.getD (if x.loading.isSome then [] else x.modes)

/-- What a channel reads as in the present sample: an input channel what its mailbox delivers, an output channel its last
commit, zero before it (R220, R239). -/
def Engine.chanWord (e : Engine) (g : Graph) (c : Nat) : Word :=
  if g.isInput c then (e.mbox.get c).held
  else if g.isOutput c && e.committed then Tab.look (zeroWord (privChan c)) e.out.ents c
  else zeroWord (privChan c)

/-- A coefficient word: of the active bank, or of the privileged table for pipe 4 (R233, R245, R255). -/
def Engine.coefWord (e : Engine) (q : Bool) (i : Nat) : Word :=
  if q then ((e.privTab.getD i 0).setWidth 32) else (if e.bankSel then e.bankB else e.bankA).getD i 0

/-- Reset value of a state word (R224, R265, R278). -/
def stateReset (typ : Nat) (q : Bool) (j : Nat) : Word :=
  if typ = 0x015 ∨ (typ = 0x035 ∧ j ≠ 1) then 0 else zeroWord q

/-- The committed state words of a block. -/
def Engine.blockState (e : Engine) (g : Graph) (i : Nat) (b : GBlock) : List Word :=
  match blockType b.typ with
  | none => []
  | some t => (List.range (stateWords b.typ t (g.ds.getD i 0))).map fun j =>
      Tab.look (stateReset b.typ (b.pipe == 4) j) e.state.ents (b.sbase + j)

/-- A state port read before its block has run in this sample: the previous sample's value (R223, R268, R273, R280).
Log entry 40. -/
def Engine.statePort (e : Engine) (g : Graph) (pos : Nat → Ex) (i : Nat) (b : GBlock) : BF :=
  let q := b.pipe == 4
  let st := e.blockState g i b
  if b.typ = 0x020 then numOf q (st.getD 0 0)
  else if b.typ = 0x025 then
    let d := delayOf ⟨q, [], [], fun j => e.coefWord q (b.cbase + j), st, false, zeroOf q, false, Ex.ofInt 0⟩ st.length
    numOf q (st.getD (d.1 - 1) 0)
  else if b.typ = 0x040 then (round false (pos i)).1
  else zeroOf q

/-- The number that a reference delivers to a reader on pipe 4 (q) or on pipes 0 to 3. -/
def Engine.refNum (e : Engine) (g : Graph) (pos : Nat → Ex) (vals : Tab (List Word)) (q : Bool) (w : BitVec 16) : BF :=
  match refKind w with
  | 0 =>
    match g.blocks[refBlock w]? with
    | none => zeroOf q
    | some b =>
      let bq := b.pipe == 4
      let x := match vals.get (refBlock w) with
        | [] => e.statePort g pos (refBlock w) b
        | ws => numOf bq (ws.getD (refPort w) 0)
      if bq && !q then .ofQ15 x.m else x
  | 1 => numOf q (convWord (privChan (refChan w)) q (e.chanWord g (refChan w)))
  | 2 => numOf q (e.coefWord q (refCoef w))
  | _ => zeroOf q

/-! ## Test injection (R247 to R249) -/

def prbsOrder (p : InjParams) : Nat := match p.order.toNat with | 0 => 7 | 1 => 15 | 2 => 23 | _ => 31
def prbsTap (p : InjParams) : Nat := match p.order.toNat with | 0 => 6 | 1 => 14 | 2 => 18 | _ => 28

/-- u_n of R248 as a term. Log entry 40. -/
def Inj.term (j : Inj) : Term :=
  let amp := BF.ofWord j.p.amp
  match j.p.kind.toNat with
  | 0 => .single amp
  | 3 => if j.lfsr / 2 ^ (prbsOrder j.p - 1) % 2 = 1 then .single amp else (Term.single amp).neg
  | _ => .single (round false (accumulate [.prod amp ⟨sineTable (j.phi / 2 ^ 20), 0⟩])).1

/-- The next sample of a running generator. -/
def Inj.advance (j : Inj) : Inj :=
  let n := j.n + 1
  let o := prbsOrder j.p
  let step := (2 * j.lfsr + (j.lfsr / 2 ^ (o - 1) + j.lfsr / 2 ^ (prbsTap j.p - 1)) % 2) % 2 ^ o
  { j with
    n := n
    phi := (j.phi + j.dphi) % 2 ^ 32
    dphi := (j.dphi + (if j.p.kind = 2 then j.p.dphi.toNat else 0)) % 2 ^ 32
    lfsr := if j.p.kind = 3 ∧ n % (j.p.hold.toNat + 1) = 0 then step else j.lfsr }

def Inj.start (j : Inj) : Inj :=
  { j with active := true, pend := false, stopping := false, n := 0, phi := 0, dphi := j.p.phi.toNat,
           lfsr := j.p.phi.toNat % 2 ^ prbsOrder j.p }

/-- Whether the sample of frame k is one that an activation frame lets act; none acts at the next (R246, R247). -/
def reached (k : Word) (act : Option Word) : Bool :=
  match act with
  | some f => decide (0 ≤ frameDiff k f)
  | none => true

/-- A generator at the sample start of frame k: ended, advanced or started (an elective start may be put off, R249); the
flag answers whether enforcement ended it. -/
def Inj.atSample (j : Inj) (k : Word) (enforce defer : Bool) : Inj × Bool :=
  if j.active then
    if j.stopping || decide (j.p.samples.toNat ≤ j.n + 1) then ({ j with active := false, stopping := false }, false)
    else if enforce then ({ j with active := false }, true)
    else (j.advance, false)
  else if j.pend then
    if j.stopping then ({ j with pend := false, stopping := false }, false)
    else if reached k j.frame && !defer then (j.start, false)
    else (j, false)
  else (j, false)

/-- An input with the generators attached to its port (R248).  Several on one port are added one after another in ascending number,
each sum rounded (DESIGN CHOICE: R248 tells of one, log entry 108). -/
def Engine.injected (e : Engine) (i p : Nat) (x : BF) : BF :=
  (List.range 4).foldl (fun x g =>
    let j := e.inj.get g
    if j.active && j.p.block.toNat == i && j.p.port.toNat == p then (round false (accumulate [.single x, j.term])).1 else x) x

/-! ## Evaluation of one sample -/

structure SampleOut where
  vals : Tab (List Word)
  writes : List (Nat × Word)
  flags : List Nat

/-- The last commit of an output channel as a number, none before it (R292, R293). -/
def Engine.outBF? (e : Engine) (c : Nat) : Option BF :=
  if e.committed then (e.out.ents.find? fun p => p.1 == c).map fun p => BF.ofWord p.2 else none

/-- P of a preload entry (R292): y_c is zero for a channel without a commit. -/
def Engine.preload (e : Engine) (p : ModePre) : BF :=
  (round false (accumulate [.prod (BF.ofWord p.g) ((e.outBF? p.chan).getD .zero), .single (BF.ofWord p.b)])).1

/-- One block of the sample; `pres` are the preload entries in force in a splice sample.  A preloaded block reads what the others
would give without preloads, `plain` (Table 9-8; log entry 101); what is injected on its preload port is added to P. -/
def Engine.runBlock (e : Engine) (g : Graph) (pos : Nat → Ex) (ts : Ex) (pres : List ModePre) (plain : Tab (List Word)) (a : SampleOut)
    (i : Nat) : SampleOut :=
  match g.blocks[i]? with
  | none => a
  | some b =>
    match blockType b.typ with
    | none => a
    | some t =>
      let q := b.pipe == 4
      let pl := pres.find? fun p => p.blk == i
      let vals := if pl.isSome then plain else a.vals
      let u := (List.range 4).map fun p =>
        let x := e.refNum g pos vals q (b.ins.getD p 0xC000)
        if q then x else e.injected i p x
      let live := (List.range 4).map fun p => refKind (b.ins.getD p 0xC000) != 3
      let r0 := b.ins.getD 0 0xC000
      let bi : BlockIn := {
        q := q
        u := u
        live := live
        coef := fun j => e.coefWord q (b.cbase + j)
        st := e.blockState g i b
        reset := pl.isSome || (t.rst && decide (0 < (u.getD 3 (zeroOf q)).m))
        pre := match pl with | some p => e.injected i 2 (e.preload p) | none => if t.pre then u.getD 2 (zeroOf q) else zeroOf q
        valid := refKind r0 == 1 && !(g.isInput (refChan r0) && (e.mbox.get (refChan r0)).stale)
        ts := ts }
      let o := evalBlock b.typ bi (pos i)
      { vals := a.vals.set i (o.outs.map (wordOf q))
        writes := a.writes ++ (List.range o.st.length).map fun j => (b.sbase + j, o.st.getD j 0)
        flags := if o.flag then a.flags ++ [i] else a.flags }

/-- Blocks in the order of their start cycles. -/
def Graph.order (g : Graph) : List Nat := sortBy (fun i => ((g.blocks[i]?).map (·.start)).getD 0 * 1024 + i) (List.range g.blocks.length)

def Engine.runGraph (e : Engine) (g : Graph) (pos : Nat → Ex) (ts : Ex) (pres : List ModePre) : SampleOut :=
  let run := fun ps plain => g.order.foldl (e.runBlock g pos ts ps plain) ⟨.empty [], [], []⟩
  if pres.isEmpty then run [] (.empty []) else run pres (run [] (.empty [])).vals

/-! ## Output channels: modes and the splice (R287 to R296) -/

/-- Source, LO, HI and SLOPE of an output channel in a mode (R289). -/
def outSource (m : Option Mode) (c : Nat) (x : GChan) : BitVec 16 × Word × Word × Word :=
  match m.bind fun m => m.chans.find? fun y => y.chan == c with
  | some y => (y.src, y.lo, y.hi, y.slope)
  | none => (x.index, x.x, x.y, 0)

/-- The modes that the present sample enters (R301, R544). -/
def Engine.entries (e : Engine) : List ModeEntry := e.pending.filter fun p => reached e.entryFrame (some p.frame)

/-- The mode that the present sample enters: of two at once the one decided last. Log entry 101. -/
def Engine.entering (e : Engine) : Option ModeEntry := e.entries.getLast?

/-- Whether the present sample is a splice sample, with its incoming mode. -/
def Engine.spliceMode (e : Engine) : Option Mode :=
  match e.entering with
  | some m => if m.mode = e.mode then none else e.modes[m.mode]?
  | none => none

/-- Residual r(n) from r(n − 1) (R294). -/
def nextResidual (delta r slope : BF) (ns n : Nat) : BF :=
  let rl := (round false ⟨delta.m * ((ns - n : Nat) : Int), max ns 1, delta.e - 23⟩).1
  let d := (round false (rl.ex.sub r.ex)).1
  let d := if 0 < slope.m then (round false (d.ex.clamp slope.ex.neg slope.ex)).1 else d
  (round false (r.ex.add d.ex)).1

/-- A value clamped to [LO, HI] at commit (R241), and whether the clamp acted. -/
def clampWord (q : Bool) (w lo hi : Word) : Word × Bool :=
  let x := (numOf q w).ex
  let l := (numOf q lo).ex
  let h := (numOf q hi).ex
  if h.lt (x.max l) then (wordOf q (numOf q hi), !(x.eq h)) else if x.lt l then (wordOf q (numOf q lo), true) else (w, false)

/-- Outputs of a committed sample: values, channels whose limit acted, the splice after it. -/
structure Commit2 where
  outs : List (Nat × Word)
  limits : List Nat
  splice : Splice

def Engine.outputs (e : Engine) (g : Graph) (pos : Nat → Ex) (vals : Tab (List Word)) : Commit2 :=
  let inc := e.spliceMode
  let old := e.modes[e.mode]?
  let cur := match inc with | some m => some m | none => old
  let chans := (List.range 64).filter g.isOutput
  let src := fun (m : Option Mode) c => outSource m c (g.chans.getD c ⟨0, 0, 0, 0, 0, 0⟩)
  let sp0 : Splice := match inc with
    | none => { e.splice with n := if e.splice.active then e.splice.n + 1 else e.splice.n }
    | some _ => ⟨true, 0, (e.entering.map (·.ns)).getD 0, chans.filter fun c => !privChan c && (src cur c).1 != (src old c).1,
        .empty .zero, .empty .zero⟩
  chans.foldl (fun (a : Commit2) c =>
    let q := privChan c
    let x := src (if q then none else cur) c
    let u := e.refNum g pos vals q x.1
    let v : BF × Splice :=
      if sp0.active && sp0.chans.contains c then
        let r :=
          if inc.isSome then
            match e.outBF? c with
            | some y => (round false (y.ex.sub u.ex)).1
            | none => .zero
          else nextResidual (sp0.delta.get c) (sp0.resid.get c) (BF.ofWord x.2.2.2) sp0.ns sp0.n
        ((round false (u.ex.add r.ex)).1,
         { a.splice with delta := if inc.isSome then a.splice.delta.set c r else a.splice.delta, resid := a.splice.resid.set c r })
      else (u, a.splice)
    let w := clampWord q (wordOf q v.1) x.2.1 x.2.2.1
    { outs := a.outs ++ [(c, w.1)], limits := if w.2 then a.limits ++ [c] else a.limits, splice := v.2 }) ⟨[], [], sp0⟩

/-- The splice after a committed sample and whether it ended with it (R296); without a splice n is 0 (log entry 65). -/
def Splice.after (sp : Splice) : Splice × Bool :=
  if sp.active then
    if sp.ns ≤ sp.n ∧ sp.chans.all fun c => (sp.resid.get c).m == 0 then (Splice.init, true) else (sp, false)
  else (sp, false)

/-! ## Mailboxes (R235 to R240) -/

/-- A product of a value with the scale word X (R238): the word and whether R230 saturated. -/
def scaledWord (x : BF) (scale : Word) : Word × Bool :=
  let r := round false (accumulate [.prod x (BF.ofWord scale)])
  (r.1.toWord, r.2)

/-- A sample-port code of width w for a channel (R238). -/
def portWord (c : Nat) (x : GChan) (code : Int) (w : Nat) : Word × Bool :=
  if privChan c then (BitVec.ofInt 32 (Ex.floor ⟨code, 1, 16 - (w : Int)⟩), false)
  else scaledWord ⟨code * 2 ^ (24 - w), 0⟩ x.x

/-- A sampled value for a channel (R238). -/
def sampledWord (c : Nat) (x : GChan) (v : Int) : Word × Bool :=
  if privChan c then
    let r := rndFrac (v * x.x.toInt) (2 ^ 31)
    (BitVec.ofInt 32 (clampI (-32768) 32767 r), decide (r < -32768) || decide (32767 < r))
  else scaledWord (round1 (Ex.ofInt v)).1 x.x

/-- A value that enters a mailbox at its measurement tick. -/
def State.putMbox (s : State) (e c : Nat) (w : Word) (tick : Nat) : State :=
  s.updEng e fun x => { x with mbox := x.mbox.upd c fun m => { m with value := w, tick := tick, got := true } }

def State.limitFlag (s : State) (e c : Nat) : State := s.flag (engBase e + 0x38 + 4 * (c / 32)) (c % 32)

/-- A source value to every mailbox of the nine engines that names it, converted by `f`; a clamp sets LIMIT (R238). -/
def State.feed (s : State) (typ index tick : Nat) (f : Nat → GChan → Word × Bool) : State :=
  forNat 9 (fun e s =>
    match (s.eng e).graph with
    | none => s
    | some g => forNat 64 (fun c s =>
        match g.chans[c]? with
        | some x =>
          if x.kind = 1 ∧ x.src = typ ∧ x.index.toNat = index then
            let r := f c x
            let s := s.putMbox e c r.1 tick
            if r.2 then s.limitFlag e c else s
          else s
        | none => s) s) s

/-- What a channel's source has at the latch of an engine for a frame (number and epoch): value word and measurement tick
(Table 7-7, R285). -/
def State.latchSource (s : State) (e c : Nat) (f : Word × Nat) (x : GChan) : Option (Word × Nat) :=
  let q := privChan c
  let i := x.index.toNat
  let o := s.oct e
  match x.src with
  | 3 => o.latchAt.map fun t => ((if i = 0 then o.sumE else o.spreadE).toWord, t)
  | 4 => match (s.setQ.get i).find? fun p => p.frame == f.1 with
    | some p => some (convWord (privChan i) q p.value, f.2)
    | none => none
  | 5 =>
    let y := s.eng (i / 64)
    if y.committed && y.out.ents.any (fun p => p.1 == i % 64) then
      some (convWord (privChan (i % 64)) q (y.out.get (i % 64)), y.commitTick) else none
  | 6 => o.latchAt.map fun t => ((round1 (match i with
      | 0 => ⟨o.vbar, 1, -16⟩
      | 1 => Ex.ofInt o.ncand
      | 2 => Ex.ofInt o.statN
      | _ => ⟨o.statF, 1, -16⟩)).1.toWord, t)
  | _ => none

/-- One mailbox at a latch: the value used, its age against MAXAGE (R239), and the two stale faults (R240).  MBOX_STALE_PRIV is raised once in a
run of stale latches, at its second (DESIGN CHOICE: R240 does not say whether the third and later ones raise it again, log
entry 108). -/
def State.latchMbox (s : State) (e c : Nat) (f : Word × Nat) (tick : Nat) (x : GChan) : State :=
  let s := match s.latchSource e c f x with
    | some (w, t) => s.putMbox e c w t
    | none => if x.src = 4 then s.setPointUnderrun e else s
  let m := (s.eng e).mbox.get c
  let stale := x.src != 0 && decide (0 < x.maxage) && (!m.got || decide (x.maxage * 400 < tick - m.tick))
  let twice := stale && m.stale && privChan c
  let s := s.updEng e fun y => { y with mbox := y.mbox.set c { m with
    stale := stale, staleTwice := twice, held := if stale || !m.got then m.held else m.value } }
  let lvl := if e = 8 then 0x3200 else 0x2200
  let s := if stale && !m.stale && decide (0 < (s.eng e).sampleNo) then s.raise (lvl + 4) (e * 64 + c) [] else s
  if twice && !m.staleTwice then s.raise (lvl + 5) (e * 64 + c) [] else s

/-! ## Sample start (R215, R216, R224, R233, R246) -/

/-- The entries that a load leaves to an engine: those of a mode change decided since its acceptance (R299, R301). -/
def State.decidedEntries (s : State) (e : Nat) : List ModeEntry :=
  match s.modeReq with
  | some r => if r.decided && r.todo.getLsbD e then (s.eng e).pending.filter (fun p => p.frame == r.ke) else []
  | none => []

/-- The effect of an accepted load (R224): state, banks, flags, mailboxes and generators as new.  A COEF_SWAP still pending is dropped
(DESIGN CHOICE: R224 and R246 do not say, log entry 108). -/
def State.installGraph (s : State) (e : Nat) (g : Graph) : State :=
  let s := s.updEng e fun x => { Engine.init with
    graph := some g, bankA := g.coefs, bankB := g.coefs, loaderr := x.loaderr, mloaderr := x.mloaderr,
    modeLoading := x.modeLoading, armed := x.armed, pending := s.decidedEntries e,
    mbox := ⟨.init, (List.range 56).map fun c => (c, { Mbox.init with held := BF.zero.toWord })⟩ }
  let b := engBase e
  let s := forNat 32 (fun i s => s.setReg (b + 0x100 + 4 * i) 0) s
  let s := (s.setReg (b + 0x38) 0).setReg (b + 0x3C) 0
  if e = 8 then { s with profs := .empty .init, setQ := .empty [] } else s

/-- What takes effect at a sample start before any block reads: a load, a mode table, the privileged table, a swap.
Log entry 101. -/
def State.sampleSettings (s : State) (e : Nat) (frame : Word) : State :=
  let s := match (s.eng e).loading with | some g => s.installGraph e g | none => s
  let s := match (s.eng e).modeLoading with
    | some ms => s.updEng e fun x => { x with
        modes := ms, modeLoading := none, mode := 0, pending := s.decidedEntries e, splice := .init }
    | none => s
  let s := s.updEng e fun x => { x with privTab := (s.privOf e).2 }
  match (s.eng e).swap with
  | some k => if reached frame k then s.updEng e fun x => { x with bankSel := !x.bankSel, swap := none } else s
  | none => s

/-- The generators of an engine at a sample start; enforcement sets SHED and raises INJ_SHED (R249). -/
def State.injSample (s : State) (e : Nat) (frame : Word) : State :=
  let s := forNat 4 (fun g s =>
    let r := ((s.eng e).inj.get g).atSample frame s.epl.enforce (s.sheds 2)
    let s := s.updEng e fun x => { x with inj := x.inj.set g r.1 }
    if r.2 then (s.flag (engBase e + 0x34) (8 + g)).raise (if e = 8 then 0x3206 else 0x2206) e [] else s) s
  s.updEng e fun x => { x with injRan := (List.range 4).any fun g => (x.inj.get g).active }

/-- The latest sample with what was latched for it. -/
def Engine.sample (e : Engine) : Sample :=
  ⟨e.sampleFrame, e.sampleTick, e.sampleNo, e.mbox.ents.map fun m => (m.1, m.2.held), e.inj, e.injRan, e.bankSel⟩

def Engine.withSample (e : Engine) (x : Sample) : Engine :=
  { e with
    sampleFrame := x.frame, entryFrame := x.frame, sampleTick := x.tick, sampleNo := x.no, inj := x.inj, injRan := x.injRan, bankSel := x.bankSel,
    mbox := x.held.foldl (fun t h => t.upd h.1 fun m => { m with held := h.2 }) e.mbox }

/-- The oldest sample under way comes to its deadline: the latest one waits behind the others. -/
def Engine.oldestFirst (e : Engine) : Engine :=
  match e.older with
  | [] => e
  | x :: r => { e.withSample x with older := r ++ [e.sample] }

/-- After the deadline of an older sample the latest one is under way again. -/
def Engine.latestAgain (e : Engine) : Engine :=
  match e.older.getLast? with
  | some x => { e.withSample x with older := e.older.dropLast, running := true }
  | none => e

/-- A sample starts: its frame (number and epoch) and start tick are the latch of R235. -/
def State.startSample (s : State) (e : Nat) (f : Word × Nat) (tick : Nat) : State :=
  if (s.eng e).loaded.isNone then s
  else
    let s := s.updEng e fun x => { x with older := if x.running && e != 8 then x.older ++ [x.sample] else [] }
    let s := (s.sampleSettings e f.1).injSample e f.1
    match (s.eng e).graph with
    | none => s
    | some g =>
      let s := forNat 64 (fun c s => match g.chans[c]? with
        | some x => if x.kind = 1 then s.latchMbox e c f tick x else s
        | none => s) s
      s.updEng e fun x => { x with
        running := true, sampleFrame := f.1, sampleTick := tick, sampleNo := x.sampleNo + 1,
        entryFrame := if e = 8 then f.1 + BitVec.ofNat 32 ((tick - f.2) / max 1 s.tfTicks) else f.1 }

/-! ## Commit, overrun, capture (R241 to R244, R250) -/

/-- T_s of R248 in seconds. -/
def State.samplePeriod (s : State) (e : Nat) : Ex :=
  ⟨s.tfTicks * (if e = 8 then field s.fr.stime.toNat 0 7 else 1), 400000000, 0⟩

/-- The position of a PROFILE block in the base frame in which the sample started (R280). -/
def State.profilePos (s : State) (frame : Word) (i : Nat) : Ex :=
  match (s.profs.get i).past.find? fun p => p.1 == frame with
  | some p => ⟨p.2, 1, -40⟩
  | none => ⟨(s.profs.get i).p, 1, -40⟩

/-- Whether cycles of the schedule, 50 ns aside, are done within a window of ticks at the core clock in force (R225). -/
def State.withinTicks (s : State) (cycles extra window : Nat) : Bool :=
  decide (extra * s.corePeriod.2 + cycles * s.corePeriod.1 ≤ window * s.corePeriod.2)

/-- S + L of a block (R223). -/
def GBlock.finish (b : GBlock) : Nat := b.start + ((blockType b.typ).map (·.lat)).getD 0

/-- The blocks a block reads other than through a state port (R223). -/
def GBlock.producers (blocks : List GBlock) (b : GBlock) : List Nat :=
  b.ins.filterMap fun w =>
    if refKind w = 0 then
      match (blocks[refBlock w]?).bind fun p => blockType p.typ with
      | some t => if t.statePort = some (refPort w) then none else some (refBlock w)
      | none => none
    else none

/-- How far a sample's schedule has run on paper: cycles by which each pipe is late, finish of each block, the last finish of
all and of pipe 4 (none without such a block). -/
structure Sched where
  late : Tab Nat
  fin : Tab Nat
  last : Nat
  last4 : Option Nat

/-- One block of the schedule (R244): it starts late by what its pipe is late, and no earlier than the outputs it reads; each
corrected read holds it, and what follows on its pipe, for 4 cycles. -/
def Graph.schedBlock (g : Graph) (reads : Nat → Nat) (a : Sched) (i : Nat) : Sched :=
  match g.blocks[i]? with
  | none => a
  | some b =>
    let start := (b.producers g.blocks).foldl (fun t p => max t (a.fin.get p)) (b.start + a.late.get b.pipe)
    let f := start + (b.finish - b.start) + 4 * reads i
    { late := a.late.set b.pipe (start + 4 * reads i - b.start), fin := a.fin.set i f, last := max a.last f,
      last4 := if b.pipe = 4 then some (max (a.last4.getD 0) f) else a.last4 }

/-- The schedule of a sample with its corrected reads. -/
def Graph.sched (g : Graph) (reads : List BlockReads) : Sched :=
  g.order.foldl (g.schedBlock fun i => ((reads.filter fun r => r.block.toNat == i).map (·.reads.toNat)).sum)
    ⟨.empty 0, .empty 0, 0, none⟩

def decEff (s : State) (e : Nat) : Nat := min 6 (s.fld (engBase e + 0xC) 5 3 + s.epl.decUp)

/-- One captured signal: its word and whether it is a Q15 word (Table 7-10), which a record holds sign-extended (R222). -/
def Engine.signal (e : Engine) (g : Graph) (ref : BitVec 16) : Word × Bool :=
  let r : Word × Bool := match refKind ref with
    | 0 => match g.blocks[refBlock ref]? with
      | some b => ((e.blockOut.get (refBlock ref)).getD (refPort ref) 0, b.pipe == 4)
      | none => (0, false)
    | 1 => (e.chanWord g (refChan ref), privChan (refChan ref))
    | _ => (0, false)
  (if r.2 then BitVec.ofInt 32 (sext 16 r.1.toNat) else r.1, r.2)

/-- The record of R250, when the sample is one of those recorded.  In the record of an overrun sample an input channel shows the value
latched for that sample (DESIGN CHOICE: Table 7-10 speaks of committed values only, log entry 108). Log entry 63. -/
def State.captureSample (s : State) (e : Nat) (g : Graph) (above : Bool) : State :=
  let b := engBase e
  let x := s.eng e
  let d := decEff s e
  if s.fld (b + 0xC) 0 1 = 0 ∨ (x.sampleNo - 1) % 2 ^ d ≠ 0 then s
  else
    let n := s.fld (b + 0xC) 16 5
    let sigs := (List.range n).map fun i => x.signal g (BitVec.ofNat 16 (s.fld (b + 0x10 + 4 * (i / 2)) (16 * (i % 2)) 16))
    let mask := (List.range n).foldl (fun a i => a + (if (sigs.getD i (0, false)).2 then 2 ^ i else 0)) 0
    let fl := bit above + 2 * bit x.injRan + 4 * bit (match x.capDec with | some c => c != d | none => false)
    let rec_ := leBytes 4 x.sampleFrame.toNat ++ leBytes 1 e ++ leBytes 1 n ++ leBytes 1 fl ++ leBytes 1 d ++ leBytes 2 mask
      ++ leBytes 2 0 ++ leBytes 4 x.sampleTick ++ sigs.flatMap fun w => leBytes 4 w.1.toNat
    let s := s.updEng e fun x => { x with capDec := some d }
    let r := s.capture (s.fld (b + 0xC) 1 4) 0x01 rec_
    if r.2 then r.1 else s.count (b + 0x30) 1

/-- An overrun (R242, R243): the sample is abandoned whole, counted, and the third in a row raises the fence. -/
def State.overrun (s : State) (e : Nat) (priv : Bool) : State :=
  let lvl := if e = 8 then 0x3200 else 0x2200
  let s := (s.updEng e fun x => { x with running := false }).count (engBase e + 8) 1
  let s := s.raise (lvl + (if priv then 2 else 1)) e []
  let run := (s.eng e).ovrRun + 1
  if 3 ≤ run then (s.updEng e fun x => { x with ovrRun := 0 }).raise (lvl + 3) e []
  else s.updEng e fun x => { x with ovrRun := run }

/-- A conversion into the generator's integers, saturating at 64 bits, and whether it saturated (R281). -/
def toGen (x : Ex) : Int × Bool :=
  let v := (x.scale 40).rnd
  let c := clampI (-(2 ^ 63)) (2 ^ 63 - 1) v
  (c, decide (c ≠ v))

/-- At a station commit each PROFILE block's generator learns of it (R284): the first commit sets its position to the
target, a positive R resets it at the next boundary.  R and P are the inputs as the block read them, with what is injected there
(R248). Log entry 41. -/
def State.profileCommit (s : State) (g : Graph) (vals : Tab (List Word)) (e : Engine) : State :=
  forNat g.blocks.length (fun i s =>
    match g.blocks[i]? with
    | some b =>
      if b.typ = 0x040 then
        let p := s.profs.get i
        let x := toGen (BF.ofWord ((vals.get i).getD 0 0)).ex
        let s := if !p.started && x.2 then s.flag (engBase 8 + 0x100 + 4 * (i / 32)) (i % 32) else s
        let p := if p.started then p else { p with started := true, p := x.1, v := 0, a := 0, jlast := s.fr.k }
        let num := fun k => e.injected i k (e.refNum g (s.profilePos e.sampleFrame) vals false (b.ins.getD k 0xC000))
        let r := 0 < (num 3).m
        { s with profs := s.profs.set i (if r then { p with reset := true, preset := (num 2).toWord } else p) }
      else s
    | none => s) s

/-- The commit of a finished sample at its deadline tick (R241), in one step. -/
def State.commitSample (s : State) (e : Nat) (g : Graph) (tick : Nat) : State :=
  let x := s.eng e
  let pos := s.profilePos x.sampleFrame
  let inc := x.spliceMode
  let r := x.runGraph g pos (s.samplePeriod e) ((inc.map (·.pres)).getD [])
  let c := x.outputs g pos r.vals
  let sp := c.splice.after
  let s := s.setEng e { x with
    state := r.writes.foldl (fun t w => t.set w.1 w.2) x.state
    out := c.outs.foldl (fun t w => t.set w.1 w.2) x.out
    blockOut := r.vals
    committed := true
    running := false
    commitTick := tick
    ovrRun := 0
    mode := (x.entering.map (·.mode)).getD x.mode
    pending := x.pending.filter fun p => !x.entries.contains p
    splice := sp.1 }
  let b := engBase e
  let s := r.flags.foldl (fun s i => s.flag (b + 0x100 + 4 * (i / 32)) (i % 32)) s
  let s := c.limits.foldl (fun s i => s.limitFlag e i) s
  let s := if sp.2 then s.count (b + 0x50) 1 else s
  if e = 8 then s.profileCommit g r.vals x else s

/-- Reads that needed a single-bit correction, counted for their memory (R34): 0 to 63 the tiles', 64 + n octad n's, 72 the
device's.  Log entry 25. -/
def State.countCorrected (s : State) (m reads : Nat) : State :=
  { s with sys := { s.sys with corrected := s.sys.corrected.upd m (·.add 32 reads) } }

/-- Whether so many cycles of a sample, and the 50 ns of the crossings, are done by a tick (R225), at the clocks that the core has
run on since its start (R244).  Log entry 16. -/
def State.sampleDone (s : State) (e cycles tick : Nat) : Bool :=
  let t := (s.eng e).sampleTick
  decide (t + 20 ≤ tick) && s.coreRan t (tick - 20) cycles

/-- The sample of an engine ends at a tick as an overrun: ENG_OVR_PRIV when a pipe-4 block had not finished by then (R243). -/
def State.lateSample (s : State) (e : Nat) (g : Graph) (c : Sched) (tick : Nat) : State :=
  let p4 := match c.last4 with | some f => !s.sampleDone e (16 + f) tick | none => false
  (s.overrun e p4).captureSample e g true

/-- The reads of an engine's memory that needed a correction (R34): those of its blocks in a sample and `other` ones.
Log entry 25. -/
def State.countReads (s : State) (e : Nat) (reads : List BlockReads) (other : BitVec 16) : State :=
  s.countCorrected (if e = 8 then 72 else 64 + e) ((reads.map (·.reads.toNat)).sum + other.toNat)

/-- The deadline of an engine (R241 to R243): the sample commits when its schedule, delayed by the reads that needed a correction
(R244), has finished. Log entries 25 and 16. -/
def State.engineDeadline (s : State) (e : Nat) (reads : List BlockReads) (tick : Nat) : State :=
  let x := s.eng e
  match x.graph with
  | none => s
  | some g =>
    if !x.running then s
    else
      let c := g.sched reads
      if s.sampleDone e (c.last + 40) tick then (s.commitSample e g tick).captureSample e g false
      else s.lateSample e g c tick

/-- A double-bit error in engine memory abandons the sample, of several the oldest, at once as an overrun (R244). Log entries 16
and 26. -/
def State.abandonSample (s : State) (e : Nat) : State :=
  match (s.eng e).graph with
  | some g =>
    if (s.eng e).running then ((s.updEng e Engine.oldestFirst).lateSample e g (g.sched []) s.now).updEng e Engine.latestAgain
    else s
  | none => s

/-- DOUBLE_BIT_ERROR (R34, R244, R404): the memory and the word address in which it was found.  Octad memory holds the law
graph and device memory the station's (Table 1-2), so a sample under way is abandoned. Log entry 26.  A
memory holds no word outside its size (R33). -/
def execDoubleBitError (m : Mem) (addr : Word) (s : State) : Host.Outcome State Fault Refusal :=
  .next (
    if !s.alive || decide (m.size ≤ addr.toNat) then s
    else match m with
      | .tile t => s.raise 0x1101 t (leBytes 4 addr.toNat)
      | .octad n => (s.abandonSample n).raise 0x2101 n (leBytes 4 addr.toNat)
      | .device => (s.abandonSample 8).raise 0x3105 0 (leBytes 4 addr.toNat))

end Sys2Proof.Machine
end

