-- ==== Sys2Proof/Machine/Load.lean ====
section
/-! DEFINITION. What the engine descriptors do: LAW_LOAD with the checks of Table 7-6, MODE_LOAD with those of Table 9-6,
host mailboxes, coefficient banks, test injection; and the profile generators (R280 to R285). -/

namespace Sys2Proof.Machine

/-! ## Law-graph images (R218 to R223) -/

/-- A list cut into pieces of the given length. -/
def pieces (len : Nat) : Nat → List Byte → List (List Byte)
  | 0, _ => []
  | n + 1, bs => bs.take len :: pieces len n (bs.drop len)

def leWords (bs : List Byte) (n : Nat) : List Word := (pieces 4 n bs).map fun p => BitVec.ofNat 32 (leNat p)

/-- The image's parts as they lie, before any check. -/
structure LawImg where
  img : List Byte
  kind : Nat
  n : Nat
  wc : Nat
  wp : Nat
  ws : Nat
  fin : Nat
  chanBytes : List (List Byte)
  blockBytes : List (List Byte)
  chans : List GChan
  blocks : List GBlock
  coefs : List Word

def gchanOf (e : List Byte) : GChan :=
  ⟨leAt e 0 1, leAt e 1 1, BitVec.ofNat 16 (leAt e 2 2), leAt e 4 2, BitVec.ofNat 32 (leAt e 8 4), BitVec.ofNat 32 (leAt e 12 4)⟩

def gblockOf (e : List Byte) : GBlock :=
  ⟨field (leAt e 0 2) 0 12, field (leAt e 0 2) 12 3, leAt e 2 2,
   (List.range 4).map fun p => BitVec.ofNat 16 (leAt e (4 + 2 * p) 2), leAt e 12 2, leAt e 14 2⟩

def lawImg (img : List Byte) : LawImg :=
  let n := leAt img 4 2
  let wc := leAt img 6 2
  let cs := pieces 16 64 (img.drop 64)
  let bs := pieces 16 n (img.drop 1088)
  { img := img, kind := leAt img 3 1, n := n, wc := wc, wp := leAt img 8 2, ws := leAt img 10 2, fin := leAt img 12 2,
    chanBytes := cs, blockBytes := bs, chans := cs.map gchanOf, blocks := bs.map gblockOf,
    coefs := leWords (img.drop (1088 + 16 * n)) wc }

/-- An integer coefficient word as the load judges it: from the image, or from the privileged table in force (R258). -/
def LawImg.intWord (l : LawImg) (priv : List (BitVec 16)) (b : GBlock) (i : Nat) : Nat :=
  if b.pipe = 4 then (priv.getD (b.cbase + i) 0).toNat else (l.coefs.getD (b.cbase + i) 0).toNat

/-- Areas, integers and breakpoints of one block (check 0x04). -/
def LawImg.blockAreas (l : LawImg) (priv : List (BitVec 16)) (b : GBlock) : Bool :=
  match blockType b.typ with
  | none => true
  | some t =>
    let area := if b.pipe = 4 then l.wp else l.wc
    let c0 := l.intWord priv b 0
    let nc := coefWords b.typ t c0
    let ns := stateWords b.typ t c0
    (intWords b.typ).all (fun r => decide (b.cbase + r.1 < area) && inRange (l.intWord priv b r.1) r.2.1 r.2.2)
      && (nc == 0 || decide (b.cbase + nc ≤ area)) && (ns == 0 || decide (b.sbase + ns ≤ l.ws))
      && (b.typ != 0x01A || strictlyRising ((List.range c0).map fun j => (BF.ofWord (l.coefs.getD (b.cbase + 1 + j) 0)).ex))

/-- Blocks of type PROFILE (R280): at most 16, and port 0 of each the source of at most one output channel. -/
def LawImg.profilesOk (l : LawImg) : Bool :=
  let ps := (List.range l.n).filter fun i => ((l.blocks[i]?).map (·.typ)).getD 0 == 0x040
  decide (ps.length ≤ 16) && ps.all fun i =>
    decide ((l.chans.countP fun c => c.kind == 2 && c.index.toNat == 4 * i) ≤ 1)

/-- The fields of a reference that Table 7-4 marks zero. -/
def refZeros (w : BitVec 16) : Bool :=
  match refKind w with
  | 0 => field w.toNat 12 2 == 0
  | 1 => field w.toNat 6 8 == 0
  | 2 => true
  | _ => w.toNat == 0xC000

/-- Whether a block output exists. -/
def LawImg.outExists (l : LawImg) (w : BitVec 16) : Bool :=
  match (l.blocks[refBlock w]?).bind fun b => blockType b.typ with
  | some t => decide (refPort w < t.outs)
  | none => false

/-- A reference of a block's port that names something (check 0x06). Log entry 43. -/
def LawImg.refExists (l : LawImg) (pipe : Nat) (w : BitVec 16) : Bool :=
  refZeros w && match refKind w with
  | 0 => l.outExists w
  | 1 => match l.chans[refChan w]? with | some c => c.kind == 1 || c.kind == 2 | none => false
  | 2 => decide (refCoef w < if pipe = 4 then l.wp else l.wc)
  | _ => true

def LawImg.blockRefs (l : LawImg) (e : List Byte) (b : GBlock) : Bool :=
  field (leAt e 0 2) 15 1 == 0 && match blockType b.typ with
  | none => false
  | some t =>
    (List.range 4).all (fun p =>
      let w := b.ins.getD p 0
      if t.ports / 2 ^ p % 2 = 1 then l.refExists b.pipe w else w == 0xC000)
      && (b.typ != 0x016 || refKind (b.ins.getD 0 0) == 1)

/-- The source index of an input channel (Table 7-7). -/
def indexOk (src i : Nat) : Bool :=
  match src with
  | 0 | 7 => i == 0
  | 1 => decide (i < 64) && i / 4 % 2 == 0
  | 2 => decide (i < 512)
  | 3 => decide (i < 2)
  | 4 => decide (i < 64)
  | 5 => decide (i < 576)
  | 6 => decide (i < 4)
  | _ => true

def LawImg.chanOk (l : LawImg) (c : Nat) (e : List Byte) (x : GChan) : Bool :=
  match x.kind with
  | 0 => zeros (slice e 1 1) && zeros (slice e 4 4)
  | 1 => zeros (slice e 6 2) && x.y == 0 && indexOk x.src x.index.toNat
  | 2 => zeros (slice e 1 1) && zeros (slice e 4 4) && refKind x.index == 0 && refZeros x.index && l.outExists x.index
      && (!privChan c || (field x.x.toNat 16 16 == 0 && field x.y.toNat 16 16 == 0))
  | _ => false

/-- Repeatedly takes away the blocks whose producers are gone; a rest is a cycle (check 0x07). -/
def LawImg.peel (l : LawImg) : Nat → List Nat → List Nat
  | 0, left => left
  | k + 1, left =>
    let next := left.filter fun i => (match l.blocks[i]? with | some b => b.producers l.blocks | none => []).any left.contains
    if next.length = left.length then left else l.peel k next

def LawImg.acyclic (l : LawImg) : Bool := (l.peel l.n (List.range l.n)).isEmpty

def GBlock.free (b : GBlock) : Nat := b.start + ((blockType b.typ).map (·.occ)).getD 0

/-- Check 0x08. -/
def LawImg.startsOk (l : LawImg) : Bool :=
  l.blocks.all fun b => (b.producers l.blocks).all fun p => match l.blocks[p]? with
    | some x => decide (x.finish ≤ b.start)
    | none => true

def noOverlap : List GBlock → Bool
  | a :: b :: r => decide (a.free ≤ b.start) && noOverlap (b :: r)
  | _ => true

/-- Check 0x09. -/
def LawImg.pipesOk (l : LawImg) : Bool :=
  (List.range 5).all (fun p =>
    let on := (List.range l.n).filter fun i => ((l.blocks[i]?).map (·.pipe)).getD 7 == p
    noOverlap ((sortBy (fun i => ((l.blocks[i]?).map (·.start)).getD 0 * 1024 + i) on).filterMap fun i => l.blocks[i]?))
    && l.fin == l.blocks.foldl (fun a b => max a b.finish) 0

/-- Check 0x0A. -/
def LawImg.privOk (l : LawImg) : Bool :=
  let pipe := fun w => ((l.blocks[refBlock w]?).map (·.pipe)).getD 0
  l.blocks.all (fun b => b.pipe != 4 || b.ins.all fun w =>
    (refKind w != 0 || pipe w == 4) && (refKind w != 1 || privChan (refChan w)))
    && (List.range 8).all fun i => match l.chans[56 + i]? with
      | some c => c.kind != 2 || pipe c.index == 4
      | none => true

/-- Check 0x0B. Log entry 43. -/
def sourceOk (station : Bool) (c : Nat) (x : GChan) : Bool :=
  x.kind != 1 || (decide (x.src ≤ 7) && !(station && (x.src == 3 || x.src == 4 || x.src == 6))
    && (!privChan c || (x.src != 3 && x.src != 6 && !((x.src == 4 || x.src == 5) && !privChan (x.index.toNat % 64)))))

/-- R217 for a station bound of t_X: T_SS + t_X ≤ T_SDL ≤ M × T_F. -/
def State.stationTimingOk (s : State) (stime : Word) (tf cx : Nat) : Bool :=
  let m := field stime.toNat 0 7
  let ss := field stime.toNat 8 8
  let dl := field stime.toNat 16 16
  decide (50 * dl ≤ m * tf * 500) && decide (ss ≤ dl) && s.withinTicks cx 20 (50 * (dl - ss))

/-- The privileged digest of an image (R226). -/
def LawImg.digest (l : LawImg) : BitVec 256 :=
  let bs := (List.range l.n).filterMap fun i =>
    if ((l.blocks[i]?).map (·.pipe)).getD 0 = 4 then l.blockBytes[i]? else none
  shake256 ((bs ++ l.chanBytes.drop 56).flatten)

/-- R226: no set in force, or under Profile S with a digest of zero, no check. -/
def State.digestOk (s : State) (e : Nat) (l : LawImg) : Bool :=
  s.ps.image.isNone || (s.ps.profile != .g && (s.privOf e).1 == 0) || l.digest == (s.privOf e).1

/-- The octad states that a load needs (R223, R290). -/
def State.loadStates (s : State) (e : Nat) : Bool := if e = 8 then s.allStill else (s.oct e).state.still

/-- The first check of Table 7-6 that fails, 0 for none. -/
def State.lawErr (s : State) (e : Nat) (img : List Byte) : Nat :=
  let priv := (s.privOf e).2
  if img.length < 64 ∨ crc32c (zeroField img 60) ≠ BitVec.ofNat 32 (leAt img 60 4) then 0x01
  else if leAt img 0 2 ≠ 0xA5C3 ∨ leAt img 2 1 ≠ 1 then 0x02
  else if leAt img 3 1 ≠ (if e = 8 then 1 else 0) then 0x03
  else
    let l := lawImg img
    if !(inRange l.n 1 1024 && decide (l.wc ≤ 16384) && decide (l.wp ≤ 1024) && decide (l.ws ≤ 32768)
        && img.length == 1088 + 16 * l.n + 4 * l.wc) then 0x04
    else if !(l.blocks.all (l.blockAreas priv) && l.profilesOk) then 0x04
    else if !(l.blocks.all fun b => match blockType b.typ with
        | some t => decide (b.pipe ≤ 4) && (b.pipe != 4 || t.pipe4) && (b.typ != 0x040 || e == 8)
        | none => false) then 0x05
    else if !(zeros (slice img 14 46) && ((l.blockBytes.zip l.blocks).all fun p => l.blockRefs p.1 p.2)
        && (List.range 64).all fun c => l.chanOk c (l.chanBytes.getD c []) (l.chans.getD c ⟨9, 0, 0, 0, 0, 0⟩)) then 0x06
    else if !l.startsOk then (if l.acyclic then 0x08 else 0x07)
    else if !l.pipesOk then 0x09
    else if !l.privOk then 0x0A
    else if !((List.range 64).all fun c => sourceOk (e == 8) c (l.chans.getD c ⟨0, 0, 0, 0, 0, 0⟩)) then 0x0B
    else if !(if e = 8 then s.stationTimingOk s.fr.stime s.fr.tf (l.fin + 40)
        else s.withinTicks (l.fin + 40) 20 (50 * ((s.oct e).tl.ted - (s.oct e).tl.tfb))) then 0x0C
    else if !s.digestOk e l then 0x0D
    else if !s.loadStates e || (s.eng e).armed.isSome then 0x0E
    else 0

def lawStatus (code : Nat) : Status := if code = 0x0C ∨ code = 0x0E then .state else if code = 0x0D then .authFail else .refused

/-- LAW_LOAD (R223): accepted, the graph takes effect at the engine's next sample start (R224), its mode table is discarded
(R290), and the station's count restarts (R216).  RESULT is LOADERR. Log entry 39. -/
def State.doLawLoad (s : State) (e imglen : Nat) : State × Status × Nat :=
  let img := memReadList 0 imglen s.staging
  let code := s.lawErr e img
  if code ≠ 0 then (s.updEng e fun x => { x with loaderr := BitVec.ofNat 8 code }, lawStatus code, code)
  else
    let l := lawImg img
    let priv := (s.privOf e).2
    let g : Graph := ⟨l.blocks, l.chans, l.coefs, l.wp, l.ws, l.fin, BitVec.ofNat 32 (leAt img 60 4),
      l.blocks.map fun b => l.intWord priv b 0⟩
    let s := s.updEng e fun x => { x with loading := some g, modeLoading := none }
    (if e = 8 then { s with fr := { s.fr with stationCount := 0, stationDue := none } } else s, .ok, 0)

/-! ## Mode tables (R288, R290) -/

/-- Channel and preload entries of a mode's part, as bytes. -/
structure ModeImg where
  first : Nat
  nch : Nat
  npl : Nat
  ns : Nat
  chans : List (List Byte)
  pres : List (List Byte)

def modeImgs (img : List Byte) : List ModeImg :=
  let nm := leAt img 4 1
  let ents := pieces 16 (leAt img 6 2) (img.drop (16 + 8 * nm))
  (pieces 8 nm (img.drop 16)).map fun d =>
    let f := leAt d 0 2
    let c := leAt d 2 1
    let p := leAt d 3 1
    ⟨f, c, p, leAt d 4 2, slice2 ents f c, slice2 ents (f + c) p⟩
where
  slice2 (l : List (List Byte)) (o n : Nat) : List (List Byte) := (l.drop o).take n

def modeOf (m : ModeImg) : Mode :=
  let w := fun e o => BitVec.ofNat 32 (leAt e o 4)
  ⟨m.ns, m.chans.map fun e => ⟨leAt e 1 1, BitVec.ofNat 16 (leAt e 2 2), w e 4, w e 8, w e 12⟩,
   m.pres.map fun e => ⟨leAt e 2 2, leAt e 4 1, w e 8, w e 12⟩⟩

/-- Every entry belongs to exactly one mode (R288). Log entry 42. -/
def entriesOwned (ms : List ModeImg) (ne : Nat) : Bool :=
  (List.range ne).all fun i => (ms.countP fun m => decide (m.first ≤ i) && decide (i < m.first + m.nch + m.npl)) == 1

def profiledChan (g : Graph) (c : Nat) : Bool :=
  match g.chans[c]? with
  | some x => x.kind == 2 && refPort x.index == 0 && ((g.blocks[refBlock x.index]?).map (·.typ)).getD 0 == 0x040
  | none => false

/-- The first check of Table 9-6 that fails, 0 for none. Log entry 42. -/
def State.modeErr (s : State) (e : Nat) (img : List Byte) : Nat :=
  if img.length < 16 ∨ crc32c (zeroField img 12) ≠ BitVec.ofNat 32 (leAt img 12 4) then 0x01
  else if leAt img 0 2 ≠ 0xA5C9 ∨ leAt img 2 1 ≠ 1 ∨ leAt img 3 1 ≠ (if e = 8 then 1 else 0) then 0x02
  else match (s.eng e).loaded with
  | none => 0x03
  | some g =>
    if g.crc ≠ BitVec.ofNat 32 (leAt img 8 4) then 0x03
    else
      let nm := leAt img 4 1
      let ne := leAt img 6 2
      let ms := modeImgs img
      let es := ms.map modeOf
      let blk := fun w => g.blocks[refBlock w]?
      if !(inRange nm 1 8 && decide (ne ≤ 512) && img.length == 16 + 8 * nm + 16 * ne
          && ms.all (fun m => decide (m.nch ≤ 56) && decide (m.npl ≤ 32) && inRange m.ns 1 1000
            && decide (m.first + m.nch + m.npl ≤ ne)
            && m.chans.all (fun x => leAt x 0 1 == 1
              && (BF.ofWord (BitVec.ofNat 32 (leAt x 4 4))).ex.le (BF.ofWord (BitVec.ofNat 32 (leAt x 8 4))).ex)
            && m.pres.all fun x => leAt x 0 1 == 2 && decide (leAt x 4 1 < 56))
          && entriesOwned ms ne) then 0x04
      else if !(es.all fun m => distinct (m.chans.map (·.chan)) && m.chans.all fun y => decide (y.chan < 56) && g.isOutput y.chan) then 0x05
      else if !(es.all fun m => m.chans.all fun y => refKind y.src == 0 && match blk y.src with
          | some b => b.pipe != 4 && (match blockType b.typ with | some t => decide (refPort y.src < t.outs) | none => false)
          | none => false) then 0x06
      else if !(es.all fun m => distinct (m.pres.map (·.blk)) && m.pres.all fun y => match g.blocks[y.blk]? with
          | some b => b.pipe != 4 && [0x020, 0x021, 0x022, 0x024, 0x025].contains b.typ
          | none => false) then 0x07
      else if e = 8 ∧ !(es.all fun m => m.chans.all (fun y => !profiledChan g y.chan && ((blk y.src).map (·.typ)).getD 0 != 0x040)
          && m.pres.all fun y => !profiledChan g y.chan) then 0x08
      else if !(leAt img 5 1 == 0 && (pieces 8 nm (img.drop 16)).all (fun d => leAt d 6 2 == 0)
          && ms.all fun m => m.chans.all (fun x => field (leAt x 2 2) 12 2 == 0)
            && m.pres.all fun x => leAt x 1 1 == 0 && leAt x 5 3 == 0) then 0x09
      else if !s.loadStates e || (s.eng e).armed.isSome then 0x0A
      else 0

/-- MODE_LOAD (R290): accepted, the table takes effect at the next sample start.  RESULT is MLOADERR. -/
def State.doModeLoad (s : State) (e imglen : Nat) : State × Status × Nat :=
  let img := memReadList 0 imglen s.staging
  let code := s.modeErr e img
  if code ≠ 0 then
    (s.updEng e fun x => { x with mloaderr := BitVec.ofNat 8 code }, if code = 0x0A then .state else .refused, code)
  else (s.updEng e fun x => { x with modeLoading := some ((modeImgs img).map modeOf) }, .ok, 0)

/-! ## Mailboxes, banks, injection -/

/-- MBOX_WRITE: all writes at one tick; REFUSED, and nothing written, for a channel whose source type is not 0x07. -/
def State.doMboxWrite (s : State) (e : Nat) (ws : List (Byte × Word)) : State × Status × Nat :=
  match (s.eng e).graph with
  | none => (s, .refused, 0)
  | some g =>
    if ws.all fun w => match g.chans[w.1.toNat]? with | some x => x.kind == 1 && x.src == 7 | none => false then
      (ws.foldl (fun s w => s.putMbox e w.1.toNat w.2 s.now) s, .ok, 0)
    else (s, .refused, 0)

/-- The checks of COEF_WRITE (R245, R246, Table 11-6); none when it may be carried out. Log entry 44. -/
def State.coefWriteErr (s : State) (e len first : Nat) : Option Status :=
  let x := s.eng e
  match x.graph with
  | none => some .state
  | some g =>
    if x.swap.isSome then some .state
    else if len % 4 ≠ 0 ∨ g.coefs.length < first + len / 4 then some .refused
    else none

def putWords (first : Nat) (ws : List Word) (bank : List Word) : List Word :=
  bank.take first ++ ws ++ bank.drop (first + ws.length)

/-- COEF_WRITE: the words into the inactive bank. -/
def State.doCoefWrite (s : State) (e first : Nat) (data : List Byte) : State × Status × Nat :=
  match s.coefWriteErr e data.length first with
  | some st => (s, st, 0)
  | none =>
    let ws := leWords data (data.length / 4)
    (s.updEng e fun x => if x.bankSel then { x with bankA := putWords first ws x.bankA } else { x with bankB := putWords first ws x.bankB },
     .ok, 0)

/-- The activation frame as an engine keeps it: of a late descriptor the next sample start (R246, R247). -/
def State.actFrame (s : State) (late : Bool) : Option Word := if late then none else some s.fr.k

/-- COEF_SWAP (R246): from acceptance until it has taken effect the swap is pending. -/
def State.doCoefSwap (s : State) (e : Nat) (late : Bool) : State × Status × Nat :=
  let x := s.eng e
  if x.graph.isNone then (s, .state, 0)
  else if x.swap.isSome then (s, .busy, 0)
  else (s.updEng e fun x => { x with swap := some (s.actFrame late) }, .ok, 0)

/-- INJ_START (R247, R248). -/
def State.doInjStart (s : State) (e : Nat) (p : InjParams) (late : Bool) : State × Status × Nat :=
  let x := s.eng e
  let j := x.inj.get p.gen.toNat
  let portOk := match x.graph.bind fun g => g.blocks[p.block.toNat]? with
    | some b => b.pipe != 4 && refKind (b.ins.getD p.port.toNat 0xC000) != 3
    | none => false
  if !portOk || (p.kind == 3 && p.phi.toNat % 2 ^ prbsOrder p == 0) then (s, .refused, 0)
  else if j.active || j.pend then (s, .busy, 0)
  else (s.updEng e fun x => { x with inj := x.inj.set p.gen.toNat { Inj.init with pend := true, p := p, frame := s.actFrame late } }, .ok, 0)

/-- INJ_STOP: the generators named end at the next sample start. -/
def State.doInjStop (s : State) (e mask : Nat) : State × Status × Nat :=
  (forNat 4 (fun g s => if mask / 2 ^ g % 2 = 1 then
    s.updEng e fun x => { x with inj := x.inj.upd g fun j => { j with stopping := j.active || j.pend } } else s) s, .ok, 0)

/-! ## Profile generators (R281 to R284) -/

/-- A per-step limit: at least 1, with the flag (R281). -/
def genLimit (x h : Ex) (n : Nat) : Int × Bool :=
  let y := match n with | 1 => x.mul h | 2 => (x.mul h).mul h | _ => ((x.mul h).mul h).mul h
  let r := toGen y
  if r.1 < 1 then (1, true) else r

/-- One step of R282 for one base frame. -/
def genStep (x vs as_ js p v a : Int) : Int × Int × Int :=
  let d := x - p
  if d.natAbs ≤ js.toNat ∧ v.natAbs ≤ as_.toNat ∧ a.natAbs ≤ js.toNat then (x, 0, 0)
  else
    let m := min vs ((isqrt (2 * as_ * d.natAbs).toNat : Nat) : Int)
    let vd := if d < 0 then -m else if 0 < d then m else 0
    let ad := clampI (-as_) as_ (vd - v)
    let a := a + clampI (-js) js (ad - a)
    let v := clampI (-vs) vs (v + a)
    (p + v, v, a)

/-- An entry of a station channel's queue; entries of frames that no octad can still latch are dropped. -/
def State.putSetPoint (s : State) (c : Nat) (frame value : Word) : State :=
  { s with setQ := s.setQ.upd c fun q => (q.filter fun p => decide (-20 ≤ frameDiff p.frame s.fr.k) && p.frame != frame) ++ [⟨frame, value⟩] }

/-- Up to `n` steps of a generator (R283). -/
def genRun (x vs as_ js : Int) : Nat → Profile → Profile × List (Word × Int)
  | 0, p => (p, [])
  | n + 1, p =>
    let r := genStep x vs as_ js p.p p.v p.a
    let j := p.jlast + 1
    let q := genRun x vs as_ js n { p with p := r.1, v := r.2.1, a := r.2.2, jlast := j, past := ((j, r.1) :: p.past).take 96 }
    (q.1, (j, r.1) :: q.2)

/-- PROFILE_STEP of one block at E_B(k): the limits of the active bank, with their flag; once a target is there, reset, target
and steps up to k + RUNAHEAD, at most 8. Log entry 41. -/
def State.profileStep (s : State) (g : Graph) (i : Nat) (b : GBlock) : State :=
  let e := s.eng 8
  let p := s.profs.get i
  let c := fun j => (BF.ofWord (e.coefWord false (b.cbase + j))).ex
  let h : Ex := ⟨s.tfTicks, 400000000, 0⟩
  let vs := genLimit (c 0) h 1
  let as_ := genLimit (c 1) h 2
  let js := genLimit (c 2) h 3
  let rw := (e.coefWord false (b.cbase + 3)).toNat
  let ra := min (max rw 1) 8
  let flag := fun (s : State) f => if f then s.flag (engBase 8 + 0x100 + 4 * (i / 32)) (i % 32) else s
  let s := flag s (vs.2 || as_.2 || js.2 || decide (rw ≠ ra))
  if !p.started then s
  else
    let pr := toGen (BF.ofWord p.preset).ex
    let x := toGen (BF.ofWord ((e.blockOut.get i).getD 0 0)).ex
    let s := flag s (x.2 || (p.reset && pr.2))
    let p := if p.reset then { p with p := pr.1, v := 0, a := 0, reset := false } else p
    let n := min 8 (frameDiff (s.fr.k + BitVec.ofNat 32 ra) p.jlast).toNat
    let r := genRun x.1 vs.1 as_.1 js.1 n p
    let s := { s with profs := s.profs.set i r.1 }
    forNat 56 (fun c s =>
      match g.chans[c]? with
      | some y =>
        if y.kind = 2 ∧ y.index.toNat = 4 * i then
          r.2.foldl (fun s q => s.putSetPoint c q.1 (round false ⟨q.2, 1, -40⟩).1.toWord) s
        else s
      | none => s) s

/-- The set-point queues at a base frame boundary (R283, R284). -/
def State.queueStep (s : State) : State :=
  let e := s.eng 8
  match e.graph with
  | none => s
  | some g =>
    let s := forNat g.blocks.length (fun i s => match g.blocks[i]? with
      | some b => if b.typ = 0x040 then s.profileStep g i b else s
      | none => s) s
    if !e.committed then s
    else forNat 64 (fun c s =>
      if g.isOutput c && !profiledChan g c then s.putSetPoint c (s.fr.k + 1) (e.chanWord g c) else s) s

end Sys2Proof.Machine
end

