-- ==== Sys2Proof/Machine/TimeSync.lean ====
section
/-! DEFINITION. Network time and triggers (chapter 10): the PTP servo, trigger units and CONVST outputs, sample ports,
timestamp captures and sampled-value streams.  PTP times are in units of 2^-16 ns, device time in units of 2^-56 ns. -/

namespace Sys2Proof.Machine

/-- One second in ticks, and in units of device time. -/
def tickSec : Nat := 400000000
def nsUnit : Nat := 2 ^ 56
def dtSecond : Nat := 1000000000 * 2 ^ 56

/-- Device time in units of 2^-16 ns, as a timestamp shows it (R20). -/
def State.stampNow (s : State) : Int := s.time.dt / 2 ^ 40

/-- Device time as 6 bytes of seconds, 4 of nanoseconds and 2 of fraction (R333). -/
def dtBytes (dt : Nat) : List Byte :=
  leBytes 6 (dt / dtSecond) ++ leBytes 4 (dt % dtSecond / nsUnit) ++ leBytes 2 (dt % nsUnit / 2 ^ 40)

/-- What device time advances by in one tick (R308). -/
def State.dtStep (s : State) : Nat := ((tickDt : Int) + (tickDt : Int) * s.time.rate / 2 ^ 40).toNat

/-- The first tick at which device time was at or after d, under the mapping in force (R335). -/
def State.tickOf (s : State) (d : Int) : Nat := (s.now - ((s.time.dt : Int) - d) / (max 1 s.dtStep : Nat)).toNat

/-! ## Trigger units (R327 to R329) -/

def trgAddr (n : Nat) : Nat := 0x301000 + 0x20 * n
def State.trgEn (s : State) (n : Nat) : Bool := s.fld (trgAddr n) 0 1 == 1
def State.trgTime (s : State) (n : Nat) : Bool := s.fld (trgAddr n) 1 1 == 1
def State.trgPer (s : State) (n : Nat) : Nat := max 1 (s.fld (trgAddr n + 8) 0 30) * nsUnit
/-- T0 in device time; seconds [47:32] are those of device time. -/
def State.trgT0 (s : State) (n : Nat) : Nat :=
  (s.time.dt / dtSecond / 2 ^ 32 * 2 ^ 32 + (s.reg (trgAddr n + 0x10)).toNat) * dtSecond + (s.reg (trgAddr n + 0xC)).toNat * nsUnit

/-- The first instance T0 + j × PER at or after d. -/
def firstInstance (t0 per d : Nat) : Nat := if d ≤ t0 then t0 else t0 + (d - t0 + per - 1) / per * per

/-- The first frame boundary at or after tick t, with its frame number, of the grid that starts at tick e with frame k. -/
def frameFrom (e tf : Nat) (k : Word) (t : Nat) : Nat × Word :=
  let j := (t - e + tf - 1) / tf
  (e + j * tf, k + BitVec.ofNat 32 j)

/-- The first boundary from (e, k) on whose frame number is a multiple of DIV. -/
def frameDiv (tf div : Nat) : Nat → Nat × Word → Nat
  | 0, p => p.1
  | n + 1, p => if p.2.toNat % div = 0 then p.1 else frameDiv tf div n (p.1 + tf, p.2 + 1)

/-- The firing in EPOCH mode of the first qualifying epoch at or after a tick (R327). -/
def State.epochDue (s : State) (oct div ofs from_ : Nat) : Due :=
  let e := s.fr.epoch + if oct < 8 then (s.oct oct).tl.phase else 0
  let tf := max 1 s.tfTicks
  .epoch (frameDiv tf (max 1 div) 64 (frameFrom e tf s.fr.k from_) + ofs) oct div ofs

/-- The next firing of a unit from its written settings after tick t, or after device time d (R329). Log entry 49. -/
def State.trgNext (s : State) (n t d : Nat) (after : Bool) : Due :=
  if s.trgTime n then
    let x := firstInstance (s.trgT0 n) (s.trgPer n) d
    .time (if after && x == d then x + s.trgPer n else x)
  else s.epochDue (s.fld (trgAddr n) 2 4) (s.fld (trgAddr n) 16 7) (s.fld (trgAddr n + 4) 0 16) (t + 1)

def State.updTrig (s : State) (n : Nat) (f : Trig → Trig) : State := { s with trigs := s.trigs.upd n f }

/-- A write to a unit's registers: EN = 0 cancels the scheduled firing; a unit with none scheduled schedules its first.
Log entry 49. -/
def State.trgWritten (s : State) (n : Nat) : State :=
  if !s.trgEn n then s.updTrig n fun x => { x with next := none }
  else if (s.trigs.get n).next.isSome then s
  else s.updTrig n fun x => { x with next := some (s.trgNext n s.now s.time.dt false) }

/-- The epochs have moved, with a new origin or a new timeline: a unit fires at the epochs as they now lie; a firing whose epoch
has passed stays (R45, R327). Log entry 49. -/
def State.trgRegrid (s : State) : State :=
  forNat 8 (fun n s => match (s.trigs.get n).next with
    | some (.epoch t o dv f) => if t < s.now + f then s else s.updTrig n fun x => { x with next := some (s.epochDue o dv f s.now) }
    | _ => s) s

/-- A step of device time re-evaluates the TIME-mode units; one that passes instances raises TRG_SKIPPED (R329). -/
def State.trgStep (s : State) : State :=
  forNat 8 (fun n s =>
    match (s.trigs.get n).next with
    | some (.time d) =>
      let s := s.updTrig n fun x => { x with next := some (.time (firstInstance (s.trgT0 n) (s.trgPer n) s.time.dt)) }
      if d < s.time.dt then s.raise 0x3305 n [] else s
    | _ => s) s

/-- A step of device time by v units of 2^-16 ns (R324). -/
def State.stepTime (s : State) (v : Int) : State :=
  let s := { s with time := { s.time with dt := ((s.time.dt : Int) + v * 2 ^ 40).toNat } }
  let s := s.trgStep
  { s with modeReq := s.modeReq.map fun r => { r with redo := r.redo || (r.act.isNone && !r.decided) } }

/-- OWN of sample port n (R332). -/
def State.portOwned (s : State) (n : Nat) : Bool := (n == 6 || n == 7) && s.fld (0x304000 + 0x10 * n) 30 1 == 1

/-- A conversion frame discarded or a firing not realised: counted, SP_FRAME, and the budget of Table 12-6,
which a covered hit does not use (R391). -/
def State.spOccurrence (s : State) (n : Nat) : State :=
  let new := if s.covered 0x3307 n then [] else [s.now]
  let s := (s.count (0x304004 + 0x10 * n) 1).raise 0x3307 n []
  let occ := ((s.sports.get n).occ.filter fun t => decide (s.now < t + tickSec)) ++ new
  let s := { s with sports := s.sports.upd n fun x => { x with occ := occ } }
  if s.fld 0x200028 0 8 < occ.length ∧ !(s.sports.get n).retired then s.raise 0x3308 n [] else s

/-- A firing of unit n at tick t: CONVST, and one conversion frame of sample port n (R328, R330); a port that this firing retires
stops at the next one (R388). -/
def State.fire (s : State) (n t : Nat) : State :=
  let x := s.trigs.get n
  if x.high && decide (t < x.lowAt) then s.spOccurrence n
  else
    let s := s.updTrig n fun x => { x with high := true, lowAt := t + s.fld (trgAddr n) 8 8, fired := t }
    let p := s.sports.get n
    if s.portOwned n then s
    else
      let s := if p.frame.isSome then s.spOccurrence n else s
      let on := s.fld (0x304000 + 0x10 * n) 0 1 == 1 && !p.retired
      { s with sports := s.sports.upd n fun x => { x with frame := if on then some t else none, clocking := false } }

/-- TRIGGER_FIRING.  A unit whose port Kingpost owns is fired by its channel every T_KS, whatever the channel runs or holds (R421). -/
def execTriggerFiring (n : Fin 8) (s : State) : Host.Outcome State Fault Refusal :=
  let x := s.trigs.get n
  .next (
    if s.portOwned n then
      let k := if n.val = 6 then s.kp.a else s.kp.b
      if s.kp.vkp then s.whenDue (x.fired + k.tKs * 400) fun s => s.fire n s.now else s
    else if !s.alive || !s.trgEn n then s
    else match x.next with
      | some (.epoch t _ _ _) => s.whenDue t fun s =>
        (s.fire n t).updTrig n fun x => { x with next := some (s.trgNext n t (s.time.dt - (s.now - t) * s.dtStep) true) }
      | some (.time d) =>
        if d ≤ s.time.dt then (s.fire n s.now).updTrig n fun x => { x with next := some (s.trgNext n s.now s.time.dt true) } else s
      | none => s)

/-- CONVST_END: CONVSTn goes low after WID ticks. -/
def execConvstEnd (n : Fin 8) (s : State) : Host.Outcome State Fault Refusal :=
  let x := s.trigs.get n
  .next (if x.high then s.whenDue x.lowAt fun s => s.updTrig n fun x => { x with high := false } else s)

/-! ## Sample ports (R330 to R332) -/

/-- SAMPLE_PORT_CLOCK_START: TCONV after the firing. -/
def execSamplePortClockStart (n : Fin 8) (s : State) : Host.Outcome State Fault Refusal :=
  let p := s.sports.get n
  .next (match p.frame with
    | some t =>
      if p.clocking then s
      else s.whenDue (t + s.fld (0x304000 + 0x10 * n) 20 10) fun s => { s with sports := s.sports.upd n fun x => { x with clocking := true } }
    | none => s)

/-- SAMPLE_PORT_FRAME: the frame ends, each code enters the mailboxes that name it, with the firing tick; of a port that Kingpost
owns no value reaches a mailbox (R332). -/
def execSamplePortFrame (n : Fin 8) (words : List (BitVec 24)) (s : State) : Host.Outcome State Fault Refusal :=
  let p := s.sports.get n
  let a := 0x304000 + 0x10 * n.val
  let w := s.fld a 3 5
  let nch := s.fld a 1 2 + 1
  .next (match p.frame with
    | some t =>
      if !p.clocking then s
      else s.whenDue (t + s.fld a 20 10 + nch * w * bitTicks (s.fld a 8 2)) fun s =>
        let s := { s with sports := s.sports.upd n fun x => { x with frame := none, clocking := false } }
        if s.portOwned n then s
        else forNat (min nch words.length) (fun c s =>
          s.feed 1 (8 * n + c) t fun ch x => portWord ch x (portCode w (s.fld a 10 1) (words.getD c 0)) w) s
    | none => s)

/-! ## Timestamp capture (R333) -/

/-- TIMESTAMP_CAPTURE: the command comes at the tick T of the capture, which is the pin edge's; an edge whose new level does not
stay for 2 ticks is not captured. -/
def execTimestampCapture (i : Fin 8) (x : PinEdge) (s : State) : Host.Outcome State Fault Refusal :=
  let rising := x.rising
  let held := x.held
  let edge := s.fld 0x302000 (2 * i) 2
  .next (
    if !s.alive || s.time.tsPins.getLsbD i == rising || decide (held.toNat < 2) then s
    else
      let m := 2 ^ i.val
      let s := { s with time := { s.time with
        tsPins := if rising then s.time.tsPins ||| BitVec.ofNat 8 m else s.time.tsPins &&& ~~~(BitVec.ofNat 8 m) } }
      if edge / (if rising then 1 else 2) % 2 = 0 then s
      else
        let r := s.capture (s.fld 0x302000 16 4) 0x04
          ([BitVec.ofNat 8 i, if rising then 1 else 2, 0, 0] ++ leBytes 8 s.tick.toNat ++ dtBytes s.time.dt)
        if r.2 then r.1 else s.count 0x302004 1)

/-! ## Sampled values (R334 to R337) -/

/-- A station network port takes a frame of an EtherType with one IEEE 802.1Q tag at most (R311). -/
def frameTaken (x : EthHdr) (etherType : Nat) : Bool := x.etherType.toNat == etherType && decide (x.tags.toNat ≤ 1)

def svAddr (st : Nat) : Nat := 0x303000 + 0x20 * st

/-- Every condition of R334 but confRev. Log entry 51. -/
def State.svMatches (s : State) (port st : Nat) (a : AsduMsg) : Bool :=
  let b := svAddr st
  s.fld b 0 1 == 1 && s.fld b (1 + port) 1 == 1 && a.mac.toNat % 2 ^ 32 == (s.reg (b + 4)).toNat
    && a.mac.toNat / 2 ^ 32 == s.fld (b + 8) 0 16 && a.appid.toNat == s.fld b 16 16 && crc32c a.svid == s.reg (b + 0xC)
    && decide (s.fld b 8 5 ≤ a.values.length) && (!a.simulated || s.fld b 3 1 == 1)

/-- A quality that marks its value invalid (R337). -/
def State.svInvalid (s : State) (st : Nat) (q : Word) : Bool :=
  let v := q.toNat % 4
  v == 1 || (v == 3 && s.fld (svAddr st) 5 1 == 0) || (q.getLsbD 11 && s.fld (svAddr st) 4 1 == 0)

/-- The sample instant of an accepted ASDU as a tick (R335); for a smpSynch other than 0 to 2 the spec states none, and the
tick is a free value (log entry 4). -/
def State.svTick (s : State) (st : Nat) (a : AsduMsg) : Nat :=
  let sync := a.smpSynch.toNat
  if sync = 1 ∨ sync = 2 then
    let off := a.smpCnt.toNat * dtSecond / max 1 (s.fld (svAddr st + 0x14) 0 17)
    s.tickOf (((s.time.dt : Int) - off) / dtSecond * dtSecond + off)
  else if sync = 0 then s.tickOf ((s.time.dt : Int) - s.fld (svAddr st + 0x18) 0 20 * nsUnit)
  else s.freeNat

/-- An ASDU for stream st: sequence by R336, then its values into their mailboxes. Log entry 51. -/
def State.svAccept (s : State) (st : Nat) (a : AsduMsg) : State :=
  let b := svAddr st
  let x := s.svs.get st
  let rate := max 1 (s.fld (b + 0x14) 0 17)
  let d := (a.smpCnt.toNat + rate - ((x.last.map (·.toNat)).getD 0) % rate) % rate
  if x.last.isSome && d != 1 % rate && (d == 0 || decide (2 * (rate - d) ≤ rate)) then s
  else
    let s := if x.last.isSome ∧ 1 < d then s.countAt (b + 0x1C) 16 15 31 (d - 1) else s
    let t := s.svTick st a
    let s := if 2 < a.smpSynch.toNat then s.freeNext else s
    let s := { s with svs := s.svs.upd st fun x => { x with last := some a.smpCnt, lastAt := s.now, active := true, lost := false } }
    forNat (s.fld b 8 5) (fun i s =>
      match a.values[i]? with
      | some (v, q) => if s.svInvalid st q then s else s.feed 2 (16 * st + i) t fun c g => sampledWord c g v.toInt
      | none => s) s

/-- ASDU: an arrival on a port, for every stream that subscribes to it. -/
def execAsdu (port : Fin 2) (a : AsduMsg) (s : State) : Host.Outcome State Fault Refusal :=
  .next (if !s.alive || !frameTaken a.eth 0x88BA then s
    else forNat 32 (fun st s =>
      if !s.svMatches port st a || (s.svs.get st).retired then s
      else if a.confRev ≠ s.reg (svAddr st + 0x10) then s.flag (svAddr st + 0x1C) 2
      else s.svAccept st a) s)

/-- TS_SVSTAT.ACTIVE: an ASDU has been accepted within LOSTTO (Table 10-9). -/
def State.svActive (s : State) (st : Nat) : Bool :=
  (s.svs.get st).active && decide (s.now < (s.svs.get st).lastAt + s.fld (svAddr st + 0x14) 24 8 * 400000)

/-- SV_LOST: no accepted ASDU for LOSTTO ms; the occurrence counts against the stream's budget (Table 12-6). -/
def execSvLost (st : Fin 32) (s : State) : Host.Outcome State Fault Refusal :=
  let x := s.svs.get st
  let b := svAddr st
  .next (
    if !s.alive || s.fld b 0 1 == 0 || x.lost || x.retired then s
    else s.whenDue (x.lastAt + s.fld (b + 0x14) 24 8 * 400000) fun s =>
      let new := if s.covered 0x3306 st then [] else [s.now]
      let occ := (x.occ.filter fun t => decide (s.now < t + s.fld 0x200028 16 12 * tickSec)) ++ new
      let s := ({ s with svs := s.svs.upd st fun x => { x with lost := true, active := false, occ := occ } }).raise 0x3306 st []
      if s.fld 0x200028 8 8 < occ.length then s.raise 0x3309 st [] else s)

/-! ## The servo (R315 to R323) -/

def State.ptpOn (s : State) (port : Nat) : Bool := s.alive && s.fld 0x300000 0 1 == 1 && s.fld 0x300000 (1 + port) 1 == 1
def State.p2p (s : State) : Bool := s.fld 0x300000 3 1 == 1
/-- The multicast destinations of Table 10-1: peer delay messages have one of their own. -/
def ptpMac : BitVec 48 := 0x011B19000000
def peerMac : BitVec 48 := 0x0180C200000E
/-- A PTP frame of the device's domain, sent to the multicast address of its kind (R311, R312). -/
def State.ptpTaken (s : State) (eth : EthHdr) (dst mac : BitVec 48) (d : Byte) : Bool :=
  frameTaken eth 0x88F7 && dst == mac && d.toNat == s.fld 0x300000 8 8

/-- The receive timestamp of a message that arrives so far into the present tick, and a transmit timestamp, in the port's reference
plane (R314). -/
def State.rxStamp (s : State) (port : Nat) (sub : Fin 163840) : Int :=
  let rx := s.stampNow + sub.val
  if s.fld 0x300000 5 1 = 1 then rx - s.fld (0x300030 + 4 * port) 0 16 * 2 ^ 12 else rx
def State.txStamp (s : State) (port : Nat) : Int :=
  if s.fld 0x300000 5 1 = 1 then s.stampNow + s.fld (0x300030 + 4 * port) 16 16 * 2 ^ 12 else s.stampNow

/-- 2^log seconds in ticks. -/
def logTicks (log : Int) : Nat := if 0 ≤ log then tickSec * 2 ^ log.toNat else tickSec / 2 ^ (-log).toNat

/-- 1 µs, 1 ms and 4 s. -/
def us16 : Int := 1000 * 2 ^ 16
def ms16 : Int := 1000000 * 2 ^ 16

def ppm (n : Nat) : Ex := ⟨n, 1000000, 40⟩
/-- A rate limited to ±n ppm and rounded to the nearest unit of 2^-40. -/
def rateClamp (x : Ex) (n : Nat) : Int := (x.clamp (ppm n).neg (ppm n)).rnd

/-- The applied rate for a frequency estimate y: r = −y within ±300 ppm (R308, R318). -/
def appliedRate (y : Ex) : Int := -(rateClamp y 300)

/-- θ × 2^-k / T_s in units of 2^-40. -/
def gain (theta : Int) (k : Nat) (ts : Int) : Ex := ⟨theta, ts.natAbs, 40 - k⟩

/-- R318: a valid sample in LOCKED. -/
def State.servoUpdate (s : State) (theta ts : Int) : State :=
  if ts ≤ 0 then s
  else
    let i := rateClamp ((Ex.ofInt s.time.freq).add (gain theta (s.fld 0x300004 8 4) ts)) 200
    let y := (Ex.ofInt i).add ((gain theta (s.fld 0x300004 0 4) ts).clamp (ppm 100).neg (ppm 100))
    { s with time := { s.time with freq := i, rate := appliedRate (Ex.ofInt y.rnd) } }

def secondsIn (a b : Nat) : Nat := (b - a) / tickSec

/-- TS_HOLDSEC of a HOLDOVER that goes on (R320). -/
def State.holdSeconds (s : State) : Word := satWord (secondsIn s.time.holdSince s.now)

/-- Leaving a state: TS_HOLDSEC keeps the whole seconds of the HOLDOVER that ends. -/
def State.toServo (s : State) (v : Servo) : State :=
  let s := if s.time.servo = .holdover then s.setReg 0x300024 s.holdSeconds else s
  { s with time := { s.time with servo := v, everLocked := s.time.everLocked || v == .locked } }

/-- Entry to SLEW (R319). -/
def State.enterSlew (s : State) (ta tb ts : Int) : State :=
  let i := if ts ≤ 0 then s.time.freq else rateClamp ((Ex.ofInt s.time.freq).add (gain (tb - ta) 0 ts)) 200
  let s := ({ s with time := { s.time with freq := i } }).toServo .slew
  let sl := ppm (s.fld 0x300004 16 7)
  ({ s with time := { s.time with rate := appliedRate ((Ex.ofInt i).add (if tb < 0 then sl.neg else sl)) } }).raise 0x3302 0 []

def State.enterSplit (s : State) : State :=
  let s := s.toServo .split
  ({ s with time := { s.time with rate := appliedRate (Ex.ofInt s.time.freq) } }).raise 0x3303 0 []

/-- A pair of consecutive valid samples classified by R316. -/
def State.classify (s : State) (ta tb ts : Int) : State :=
  if ms16 < ta.natAbs ∧ ms16 < tb.natAbs then
    let s := { s with time := { s.time with prev := some tb } }
    if s.time.servo = .split then s else s.enterSplit
  else
    let s := { s with time := { s.time with prev := none } }
    if us16 ≤ ta.natAbs ∧ us16 ≤ tb.natAbs then
      ({ s with time := { s.time with prev := some tb } }).enterSlew ta tb ts
    else
      let s := s.toServo .locked
      let s := { s with time := { s.time with rate := appliedRate (Ex.ofInt s.time.freq) } }
      if tb.natAbs < us16 then s.servoUpdate tb ts else s

/-- A valid offset sample, T_s after the previous valid Sync.  `prev` is the sample before it that can still make a pair with it;
a change of grandmaster leaves none, so that the first two samples after it make the next pair (R316).  In LOCKED and SLEW each of
them is also the sample of that state (R318, R319). Log entry 50. -/
def State.servoSample (s : State) (theta ts : Int) : State :=
  let t := s.time
  let s := { s with time := { s.time with theta := theta } }
  let keep := fun (s : State) => { s with time := { s.time with prev := some theta } }
  match t.servo with
    | .free =>
      match t.prev with
      | none => keep s
      | some ta =>
        if s.allStill then
          let s := s.stepTime (-theta)
          let s := { s with time := { s.time with freq := 0, rate := 0, prev := none } }
          (s.toServo .locked).raise 0x3304 0 []
        else s.classify ta theta ts
    | .locked =>
      if theta.natAbs < us16 then ({ s with time := { s.time with prev := none } }).servoUpdate theta ts
      else match t.prev with
        | none => (keep s).count 0x300028 1
        | some ta => s.classify ta theta ts
    | .slew =>
      if theta.natAbs < us16 then
        ({ (s.toServo .locked) with time := { (s.toServo .locked).time with prev := none } }).servoUpdate theta ts
      else if ms16 < theta.natAbs && (match t.prev with | some ta => decide (ms16 < ta.natAbs) | none => false) then
        (keep s).enterSplit
      else
        let sl := ppm (s.fld 0x300004 16 7)
        keep { s with time := { s.time with rate := appliedRate ((Ex.ofInt s.time.freq).add (if theta < 0 then sl.neg else sl)) } }
    | _ =>
      match t.prev with
      | none => keep s
      | some ta => s.classify ta theta ts

/-- A complete Sync (R315): t2 − t1 − C is kept for the delay exchange, and with a delay from the last 4 s a sample forms. -/
def State.syncComplete (s : State) (t2 t1 c : Int) : State :=
  let x := t2 - t1 - c
  let t := s.time
  let s := { s with time := { s.time with lastSync := some x } }
  match t.delayAt with
  | some a =>
    if s.now ≤ a + 4 * tickSec then
      let ts := match t.lastT2 with | some p => t2 - p | none => 0
      let s := { s with time := { s.time with lastT2 := some t2, lastSample := some s.now } }
      s.servoSample (x - t.delay) ts
    else s
  | none => s

/-- The sender is the master selected, on the receiving port. -/
def State.fromMaster (s : State) (port : Nat) (clock : BitVec 64) : Bool :=
  s.time.gmValid && s.time.port == port && s.time.masterId == clock

/-- SYNC (R315): one-step completes at once, two-step waits for its Follow_Up.  A logSyncInterval outside −7 to +1 is none that
the device supports (Table 10-1). Log entries 28 and 50. -/
def execSync (port : Fin 2) (m : PtpMsg) (s : State) : Host.Outcome State Fault Refusal :=
  .next (
    if !s.ptpOn port || !s.ptpTaken m.eth m.dst ptpMac m.domain || !s.fromMaster port m.clock
        || decide (m.logInterval < -7) || decide (1 < m.logInterval) then s
    else
      let t2 := s.rxStamp port m.sub
      let s := { s with time := { s.time with syncInterval := m.logInterval } }
      if m.twoStep then { s with time := { s.time with sync := some (port.val, m, t2, s.now) } }
      else s.syncComplete t2 m.stamp m.correction)

/-- FOLLOW_UP (R315): within 1 s of its Sync. Log entry 28. -/
def execFollowUp (port : Fin 2) (m : PtpMsg) (s : State) : Host.Outcome State Fault Refusal :=
  .next (
    if !s.ptpOn port || !s.ptpTaken m.eth m.dst ptpMac m.domain then s
    else match s.time.sync with
      | some (p, y, t2, at_) =>
        if p = port.val ∧ y.seq = m.seq ∧ y.clock = m.clock then
          let s := { s with time := { s.time with sync := none } }
          if s.now ≤ at_ + tickSec ∧ s.fromMaster port m.clock then s.syncComplete t2 m.stamp (y.correction + m.correction) else s
        else s
      | none => s)

/-- A raw delay of half of x enters the filter (R315). -/
def State.delaySample (s : State) (x : Int) : State :=
  let t := s.time
  let d := if t.delayFirst then x / 2 else t.delay + (x - 2 * t.delay) / 2 ^ (s.fld 0x300000 20 3 + 1)
  { s with time := { s.time with delay := d, delayFirst := false, delayAt := some s.now } }

/-- DELAY_RESP (R315): completes the exchange of the Delay_Req with its sequence number. -/
def execDelayResp (port : Fin 2) (m : PtpMsg) (s : State) : Host.Outcome State Fault Refusal :=
  .next (
    if !s.ptpOn port || s.p2p || !s.ptpTaken m.eth m.dst ptpMac m.domain || !s.fromMaster port m.clock then s
    else
      let s := { s with time := { s.time with minReq := m.logInterval } }
      match s.time.e2eT3, s.time.lastSync with
      | some (q, t3), some x =>
        if q = m.seq then ({ s with time := { s.time with e2eT3 := none } }).delaySample (x + (m.stamp - t3 - m.correction)) else s
      | _, _ => s)

/-- PDELAY_REQ (R312): answered one-step or two-step. -/
def execPdelayReq (port : Fin 2) (m : PtpMsg) (s : State) : Host.Outcome State Fault Refusal :=
  .next (
    if !s.ptpOn port || !s.p2p || !s.ptpTaken m.eth m.dst peerMac m.domain then s
    else
      let t2 := s.rxStamp port m.sub
      let t3 := s.txStamp port
      if s.fld 0x300000 4 1 = 1 then s.emit (.ptp port peerMac .pdelayResp m.seq [m.correction + (t3 - t2)])
      else (s.emit (.ptp port peerMac .pdelayResp m.seq [t2])).emit (.ptp port peerMac .pdelayRespFollowUp m.seq [t3, m.correction]))

/-- PDELAY_RESP (R315): the exchange is complete; `stamp` is t3 − t2 of a two-step peer, zero of a one-step one, and
`correction` the sum of the correction fields (log entry 28). -/
def execPdelayResp (port : Fin 2) (m : PtpMsg) (s : State) : Host.Outcome State Fault Refusal :=
  .next (
    if !s.ptpOn port || !s.p2p || !s.ptpTaken m.eth m.dst peerMac m.domain then s
    else match s.time.pd.get port with
      | some (q, t1) =>
        if q = m.seq then
          let s := { s with time := { s.time with pd := s.time.pd.set port none } }
          if s.time.port = port.val then s.delaySample (s.rxStamp port m.sub - t1 - m.stamp - m.correction) else s
        else s
      | none => s)

/-! ## Best master (R312, R313) -/

/-- The keys of the data set comparison, most significant first. -/
def annKey (a : AnnounceMsg) : Nat :=
  ((((a.priority1.toNat * 256 + a.clockClass.toNat) * 256 + a.accuracy.toNat) * 65536 + a.variance.toNat) * 256
    + a.priority2.toNat) * 2 ^ 64 + a.gm.toNat

/-- Whether a is better than b: of one grandmaster the one with fewer steps, then the sender of lower identity.
Log entry 50. -/
def annBetter (a b : AnnounceMsg) : Bool :=
  if a.gm = b.gm then decide (a.steps.toNat < b.steps.toNat) || (a.steps == b.steps && decide (a.sender.toNat < b.sender.toNat))
  else decide (annKey a < annKey b)

/-- ANN_TO Announce intervals in ticks. -/
def State.annTicks (s : State) (a : AnnounceMsg) : Nat := s.fld 0x300000 16 3 * logTicks a.logInterval

/-- The senders of a port whose Announce timeout has not expired. -/
def State.liveMasters (s : State) (port : Nat) : List Master :=
  if s.ptpOn port then (s.time.masters.get port).filter fun m => decide (s.now < m.at_ + s.annTicks m.msg) else []

/-- The best master of a port (R312). -/
def State.bestMaster (s : State) (port : Nat) : Option AnnounceMsg :=
  (s.liveMasters port).foldl (fun b m => match b with
    | some x => if annBetter m.msg x then some m.msg else b
    | none => some m.msg) none

/-- The port that receives time and its master: of one grandmaster the port with fewer steps, port 0 on a tie (R313). -/
def State.bestPort (s : State) : Option (Nat × AnnounceMsg) :=
  match s.bestMaster 0, s.bestMaster 1 with
  | some a, some b => if (if a.gm = b.gm then decide (b.steps.toNat < a.steps.toNat) else annBetter b a) then some (1, b) else some (0, a)
  | some a, none => some (0, a)
  | none, some b => some (1, b)
  | none, none => none

/-- Selects the receiving port; a change of grandmaster is a return under R316, a change of port alone continues the servo
(R313). -/
def State.selectMaster (s : State) : State :=
  match s.bestPort with
  | none => { s with time := { s.time with gmValid := false } }
  | some (p, a) =>
    let new := !s.time.gmValid || a.gm != s.time.gm
    { s with time := { s.time with
        port := p, gm := a.gm, masterId := a.sender, gmValid := true, utc := a.utc, utcValid := true,
        prev := if new then none else s.time.prev,
        minReq := if new || a.sender != s.time.masterId then 0 else s.time.minReq,
        sync := if new then none else s.time.sync } }

/-- ANNOUNCE: the latest of its sender on its port; those whose timeout has expired are dropped. Log entry 50. -/
def execAnnounce (port : Fin 2) (m : AnnounceMsg) (s : State) : Host.Outcome State Fault Refusal :=
  .next (
    if !s.ptpOn port || !s.ptpTaken m.eth m.dst ptpMac m.domain then s
    else
      let ms := (s.liveMasters port).filter fun x => x.msg.sender != m.sender
      ({ s with time := { s.time with masters := s.time.masters.set port (ms ++ [(⟨m, s.now⟩ : Master)]) } }).selectMaster)

/-- HOLDOVER from LOCKED or SLEW (R320). -/
def State.enterHoldover (s : State) : State :=
  if s.time.servo = .locked ∨ s.time.servo = .slew then
    let s := s.toServo .holdover
    ({ s with time := { s.time with
        rate := appliedRate (Ex.ofInt s.time.freq), holdSince := s.now, prev := none, delayFirst := true } }).raise 0x3301 0 []
  else s

/-- The master that the servo follows. -/
def State.master (s : State) : Option Master :=
  (s.time.masters.get s.time.port).find? fun m => m.msg.sender == s.time.masterId

/-- ANNOUNCE_TIMEOUT: of the receiving port's master; with no other qualified grandmaster the servo enters HOLDOVER. -/
def execAnnounceTimeout (s : State) : Host.Outcome State Fault Refusal :=
  .next (match s.master with
    | some m =>
      if !s.alive || !s.time.gmValid then s
      else s.whenDue (m.at_ + s.annTicks m.msg) fun s =>
        let s := s.selectMaster
        if s.time.gmValid then s else s.enterHoldover
    | none => s)

/-- SYNC_TIMEOUT: no valid sample within 4 Sync intervals. -/
def execSyncTimeout (s : State) : Host.Outcome State Fault Refusal :=
  .next (match s.time.lastSample with
    | some a => if s.alive then s.whenDue (a + 4 * logTicks s.time.syncInterval) State.enterHoldover else s
    | none => s)

/-- When the next request of a port is due: 1 s after the one before, under E2E never sooner than the interval that the master
last gave allows (R312). -/
def State.reqDue (s : State) (port : Fin 2) : Nat :=
  match s.time.sentAt.get port with
  | none => 0
  | some t => t + if s.p2p then tickSec else max tickSec (logTicks s.time.minReq)

/-- DELAY_REQ_SEND: every 1 s, under E2E never more often than the master allows (R312). -/
def execDelayReqSend (port : Fin 2) (s : State) : Host.Outcome State Fault Refusal :=
  .next (
    if !s.ptpOn port then s
    else s.whenDue (s.reqDue port) fun s =>
      let q := s.time.reqSeq
      if s.p2p then
        ({ s with time := { s.time with reqSeq := q + 1, sentAt := s.time.sentAt.set port (some s.now),
                                        pd := s.time.pd.set port (some (q, s.txStamp port)) } }).emit (.ptp port peerMac .pdelayReq q [])
      else if s.time.gmValid ∧ s.time.port = port.val then
        ({ s with time := { s.time with reqSeq := q + 1, sentAt := s.time.sentAt.set port (some s.now),
                                        e2eT3 := some (q, s.txStamp port) } }).emit (.ptp port ptpMac .delayReq q [])
      else s)

/-- TIME_STEP (R321). -/
def State.doTimeStep (s : State) : State × Status × Nat :=
  if s.allStill && s.time.servo == .split then
    let s := s.stepTime (-s.time.theta)
    let s := s.toServo .locked
    (({ s with time := { s.time with rate := appliedRate (Ex.ofInt s.time.freq), prev := none } }).raise 0x3304 0 [], .ok, 0)
  else (s, .state, 0)

end Sys2Proof.Machine
end

