-- ==== Sys2Proof/Machine/Lanes.lean ====
section
/-! DEFINITION. The lanes of the Truss link (chapter 5): bring-up, speed negotiation and qualification, backup lanes,
retrain and retirement, eye scan; enumeration of hubs (R204, R205, R207). -/

namespace Sys2Proof.Machine

/-! ## Times and budgets of a lane -/

/-- Populated cells of the hub of tile t. -/
def State.hubCells (s : State) (t : Nat) : Nat := (s.octCells (t / 8)).countP fun c => c / 64 = t

/-- t_fibre of a lane in units of 1/256 tick: the last d_f measured (R200). -/
def Lane.fibre (x : Lane) : Nat := x.delay.toNat

/-- Constraint 4 of R37 with R195, for a lane at a speed: T_D + t_cmd + t_fibre ≤ T_HR, in units of 1/6400 tick. -/
def State.laneCmdOk (s : State) (l speed : Nat) : Bool :=
  let tl := (s.oct (l / 16)).tl
  decide (50 * tl.td * 6400 + (s.hubCells (hubOfLane l) + 4) * blockUnits speed * 256 + (s.lane l).fibre * 25 ≤ 50 * tl.thr * 6400)

/-- The feedback constraint of R195: T_SH + (2N + 4) t_blk + t_fibre ≤ T_FB; T_SH counts 10 ns, 4 ticks. -/
def State.laneFbOk (s : State) (l speed : Nat) : Bool :=
  let tl := (s.oct (l / 16)).tl
  let tsh := 4 * s.fld (tileBase (hubOfLane l) + 0x30C) 16 8
  decide (tsh * 6400 + (2 * s.hubCells (hubOfLane l) + 4) * blockUnits speed * 256 + (s.lane l).fibre * 25 ≤ 50 * tl.tfb * 6400)

/-- The takeover bound of R163 within 2 × T_F, in units of 1/6400 tick: 5.6192 µs is 56192 units of 1/25 tick. -/
def State.takeoverOk (s : State) (l : Nat) : Bool :=
  let x := s.lane l
  decide (56192 * 256 + 2 * x.fibre * 25 + 97 * blockUnits x.q * 256 ≤ 2 * s.tfTicks * 6400)

/-! ## Blocks that a lane's procedures send -/

/-- A CAPABILITY block out of turn: at block lock and when ACK sets; the transmitter sends one every 32 blocks (R151; log
entry 55). -/
def State.sendCapability (s : State) (l : Nat) : State := s.emit (.laneBlock l ((s.lane l).capBlock l))

/-- LINK_CMD (Table 6-1). -/
def State.sendLinkCmd (s : State) (l op arg : Nat) (seq : Byte) : State :=
  s.emit (.laneBlock l (blockOf [0xD5, BitVec.ofNat 8 op, BitVec.ofNat 8 arg, seq]))

/-! ## Steps of speed (R154, R591) -/

/-- A STEP to a speed is sent: new SEQ, first of at most three sends. -/
def State.startStep (s : State) (l target : Nat) (p : Proc) : State :=
  let s := (s.abortEye l).updLane l fun x => { x with
    state := .step, proc := p, target := target, from_ := x.speed, sends := 1, seq := x.seq + 1, acked := false,
    turning := false, gate := 0,
    sentAt := s.now, dormantReq := false }
  s.sendLinkCmd l 1 target (s.lane l).seq

/-- The window of the lane's retrain or takeover: opened once, with the lane's own record as its opener. -/
def State.laneWindow (s : State) (l opener src : Nat) : State :=
  if s.flt.windows.any fun w => w.kind = .lane l ∧ w.closeAt = none then s else s.openWindow (.lane l) opener 0x1702 src none

/-! ## Serving a hub (R28 to R30, R159 to R165) -/

/-- ACTIVE (Table 5-4): the credit counts restart (R196), the misses of feedback too; the window completes. -/
def State.toActive (s : State) (l : Nat) : State :=
  let s := s.updLane l fun x => { x with state := .active, proc := .none, rtAt := none, wakeAt := none, grant := 0, taken := 0 }
  ({ s with tiles := s.tiles.upd (hubOfLane l) fun t => { t with missed := 0 } }).windowDone (.lane l)

/-- A P lane in ACTIVE whose hub is over on the B lane steps to the speed the plan chose (R159). -/
def State.speedStep (s : State) (t : Nat) : State :=
  let p := s.lane (2 * t)
  if p.proc = .speed ∧ p.state = .active then
    (s.updLane (2 * t) fun x => { x with serving := false }).startStep (2 * t) p.target .speed
  else s

/-- A hub that needs its B lane, served by no lane: a WARM lane steps directly to its Q, a DORMANT one is woken (R30,
R161, R164).  A takeover wins over DORMANT (Table 5-7). -/
def State.checkTakeover (s : State) (t : Nat) : State :=
  let b := 2 * (t ^^^ 1) + 1
  let x := s.lane b
  if !s.needsBackup t || (s.servingLane t == some b) then s
  else
    let opener := ((s.flt.windows.find? fun w => w.kind = .lane (2 * t)).map (·.opener)).getD 0
    match x.state with
    | .warm =>
      let s := s.laneWindow b opener (2 * t)
      if x.q = 0 then ((s.toActive b).updLane b fun x => { x with serving := true, dormantReq := false }).speedStep t
      else s.startStep b x.q .takeover
    | .dormant =>
      (s.laneWindow b opener (2 * t)).updLane b fun x =>
        { x.hunting s.now .none with state := .wake, wakeAt := some s.now }
    | _ => s

/-- WARM at L1 with block lock (R161). -/
def State.toWarm (s : State) (l : Nat) : State :=
  let s := (s.updLane l fun x => { x with
    state := .warm, proc := .none, speed := 0, serving := false, rtAt := none, wakeAt := none }).windowDone (.lane l)
  s.checkTakeover (hubOfLane l)

/-- A B lane goes from its speed to WARM by the STEP procedure (R591). -/
def State.stepDown (s : State) (l : Nat) : State :=
  if (s.lane l).speed = 0 then s.toWarm l
  else (s.updLane l fun x => { x with serving := false }).startStep l 0 .stepdown

/-- A B lane has locked at its Q in a takeover: it carries the hub, unless the hub is back on its P lane. -/
def State.takenOver (s : State) (l : Nat) : State :=
  let t := hubOfLane l
  let s := s.toActive l
  if (s.lane (2 * t)).serving ∧ (s.lane (2 * t)).proc ≠ .speed then s.stepDown l
  else (s.updLane l fun x => { x with serving := true }).speedStep t

/-- At a frame boundary the traffic of a hub is taken by, or returns to, its P lane in ACTIVE (R29, Table 5-7).
Log entry 53. -/
def State.takeTraffic (s : State) (t : Nat) : State :=
  let p := s.lane (2 * t)
  let b := 2 * (t ^^^ 1) + 1
  if p.state = .active ∧ !p.serving ∧ p.proc ≠ .speed then
    let s := s.updLane (2 * t) fun x => { x with serving := true }
    if (s.lane b).state = .active then s.stepDown b else s
  else s

/-! ## Retrain and retirement (R166 to R169) -/

/-- A descriptor that waits for the enumeration of a lane completes. -/
def State.endEnum (s : State) (l : Nat) (st : Status) (n : Nat) : State :=
  (s.updLane l fun x => { x with auxAt := none, aux := 0 }).finishWaiting (.enumerate l) st n

/-- A lane is retired under a code; its hub goes to the other lane if that can carry it. Log entry 58. -/
def State.dropLane (s : State) (l code : Nat) : State :=
  (((s.abortEye l).retireLane l code).endEnum l .timeout 0).checkTakeover (hubOfLane l)

/-- Retrain starts within the last second (R168). -/
def Lane.recent (x : Lane) (now : Nat) : List Nat := x.starts.filter fun t => now < t + 400000000

/-- A retrain starts: LANE_RETRAIN, hunt at L1, counted unless a window covers the hit (R391); the hub goes to its other lane, or has no path for
now (Table 5-7). Log entry 52. -/
def State.startRetrain (s : State) (l : Nat) : State :=
  let id := s.flt.nextId
  let had := s.hasPath (hubOfLane l)
  let counted := !s.covered 0x1702 l
  let s := (s.countAt (laneBase l + 0x10) 16 15 31 1).updLane l fun x => { x with
    starts := if counted then x.recent s.now ++ [s.now] else x.recent s.now }
  let s := (s.raise 0x1702 l []).laneWindow l id l
  let s := ((s.abortEye l).huntLane l .retrain).updLane l fun x => { x with rtAt := some s.now }
  let s := s.checkTakeover (hubOfLane l)
  if had then s.losePath (hubOfLane l) 0x1702 else s

/-- A retrain trigger (R166): the fourth start within 1 s retires the lane instead (R168). Log entry 58. -/
def State.trigger (s : State) (l : Nat) : State :=
  let x := s.lane l
  if x.state = .off ∨ x.state = .retired then s
  else if 3 ≤ (x.recent s.now).length then
    let s := s.dropLane l 0x1703
    -- a covered hit has no reaction (R391)
    if (s.lane l).state = .retired then s else s.startRetrain l
  else s.startRetrain l

/-- The third frame in a row without feedback of a hub retrains its lane (R43, R166). -/
def State.missedFeedback (s : State) (t : Nat) : State :=
  match s.servingLane t with
  | none => s
  | some l =>
    let n := (s.tiles.get t).missed + 1
    if 3 ≤ n then ({ s with tiles := s.tiles.upd t fun x => { x with missed := 0 } }).trigger l
    else { s with tiles := s.tiles.upd t fun x => { x with missed := n } }

/-! ## Enumeration (R204, R205, R207) -/

/-- The AUX frame: one QUERY entry, selector 0, for the lowest slot of the port. -/
def State.sendAux (s : State) (l : Nat) : State :=
  (s.updLane l fun x => { x with aux := x.aux + 1, auxAt := some s.now }).emit
    (.laneFrame l (mkFrame 0x01 1 0 true 0 [actionEntry (64 * (l % 2)) (.query 0)]))

/-- The final speed has settled in QUAL (R157): Q is the speed; a retrain that cannot meet constraint 4 retires the lane
while its octad is not Blocked (R167); the lane is enumerated once. -/
def State.settleLane (s : State) (l : Nat) : State :=
  let x := s.lane l
  let s := s.updLane l fun x => { x with state := .qual, q := x.speed, gate := 7 }
  if x.proc = .retrain ∧ !(s.oct (l / 16)).state.still ∧ !s.laneCmdOk l x.speed then s.dropLane l 0x1703
  else s.sendAux l

/-- Whether a cell needs more than its assigned type gives (R207): 50 ns are 20 ticks. -/
def State.cellTypeShort (s : State) (c : Nat) : Bool :=
  decide (s.typeMin (c / 512) (s.cellType c) < 20 * max (s.cell c).minPulse.toNat (s.cell c).deadTime.toNat)

/-- The first three cases of R207 for the hub of tile t: V_full, T_SH, a cell against its type. -/
def State.enumChecks (s : State) (t : Nat) : List Bool :=
  let a := tileBase t + 0x30C
  [s.fld a 0 16 != s.fld (octBase (t / 8) + 0x2408) 0 16, decide (100 < s.fld a 16 8),
   (s.octCells (t / 8)).any fun c => c / 64 = t && s.cellTypeShort c]

/-- ENUM_CHECK for each case that holds; the source is the lane of the hub. -/
def State.raiseEnumChecks (s : State) (l : Nat) : State :=
  (s.enumChecks (hubOfLane l)).foldl (fun s b => if b then s.raise 0x1806 l [] else s) s

/-- The hub's cells as an ENUM frame lists them.  A retired cell returns when its hub is enumerated after C0_CLEAR has handled its C0:
the device sees no other sign that the hub has been serviced (R388; DESIGN CHOICE, log entry 86). -/
def State.populate (s : State) (t : Nat) (cs : List Block) : State :=
  let s := { s with cells := s.cells.mapAll fun i c => if i / 64 = t then { c with populated := false } else c }
  cs.foldl (fun s b => s.updCell (64 * t + field b.toNat 0 6) fun c => { c with
    populated := true, kind := BitVec.ofNat 8 (blockByte b 1), minPulse := BitVec.ofNat 8 (blockByte b 2),
    deadTime := BitVec.ofNat 8 (blockByte b 3), serial := BitVec.ofNat 32 (b.toNat / 2 ^ 32),
    retired := c.retired && !c.c0Cleared, permSent := c.permSent && !c.c0Cleared, c0Cleared := false }) s

/-- What the tile records of a hub (Table 6-10, Table 6-15). -/
def State.recordHub (s : State) (t : Nat) (serial : Word) (h : Block) (cs : List Block) : State :=
  let a := tileBase t
  let pop := cs.foldl (fun p b => p ||| 2 ^ field b.toNat 0 6) 0
  let s := (s.setReg (a + 0x304) serial).setReg (a + 0x308) (BitVec.ofNat 32 h.toNat)
  let s := s.setReg (a + 0x30C) (BitVec.ofNat 32 (h.toNat / 2 ^ 32))
  let s := (s.setReg (a + 0x310) (BitVec.ofNat 32 pop)).setReg (a + 0x314) (BitVec.ofNat 32 (pop / 2 ^ 32))
  ({ s with tiles := s.tiles.upd t fun x => { x with serialKnown := true, enumerated := true } }).populate t cs

/-- After enumeration a P lane is ACTIVE: after a bring-up it carries a hub that no lane serves at once, after a retrain from
the next frame boundary on (Table 5-7).  A B lane goes to WARM at L1. Log entry 53. -/
def State.enumerated (s : State) (l : Nat) : State :=
  if (s.lane l).state ≠ .qual then s
  else if l % 2 = 0 then
    if (s.lane l).proc ≠ .retrain ∧ s.servingLane (hubOfLane l) = none then
      (s.toActive l).updLane l fun x => { x with serving := true }
    else s.toActive l
  else s.stepDown l

/-- An ENUM frame: the answer to an AUX frame, judged by its CRC and its shape (R181), recorded by the hub's home tile; a B
lane whose serial differs from the one recorded is wired wrongly (R207). Log entry 55. -/
def State.enumFrame (s : State) (l : Nat) (f : RawFrame) : State :=
  let t := hubOfLane l
  let n := frameCount f
  let cs := f.data.drop 1
  if !s.alive then s
    else if !frameCrcOk f then s.crcError l
    else if !(frameKind f == 4 && !frameAux f && decide (1 ≤ n) && decide (n ≤ 64) && f.data.length == n + 1
        && distinct (cs.map fun b => field b.toNat 0 6)) then s.malformed l
    else if (s.lane l).auxAt = none then s
    else if l % 2 = 1 ∧ (s.tiles.get t).serialKnown ∧ s.reg (tileBase t + 0x304) ≠ frameTag f then s.dropLane l 0x1706
    else
      let s := s.recordHub t (frameTag f) (f.data.headD 0) cs
      let s := s.raiseEnumChecks l
      (s.endEnum l .ok n).enumerated l

/-- ENUM_FRAME: an ENUM frame has arrived whole (R183). -/
def execEnumFrame (l : Fin 128) (f : RawFrame) (s : State) : Host.Outcome State Fault Refusal :=
  .next ((s.breakFrame l).enumFrame l f)

/-- ENUM_TIMEOUT: 200 µs without an ENUM frame; three AUX frames in a row retire the lane. -/
def execEnumTimeout (l : Fin 128) (s : State) : Host.Outcome State Fault Refusal :=
  .next (match (s.lane l).auxAt with
    | none => s
    | some t => s.whenDue (t + 80000) fun s =>
      if (s.lane l).state = .retired ∨ (s.lane l).state = .off then s.endEnum l .timeout 0
      else if (s.lane l).aux < 3 then s.sendAux l
      else s.dropLane l 0x1807)

/-- ENUMERATE: the hub on an ACTIVE or WARM lane is enumerated again; none when it waits for the answer. -/
def State.doEnumerate (s : State) (tile lane : Nat) : State × Option Status :=
  let l := 2 * tile + lane
  let x := s.lane l
  if x.state ≠ .active ∧ x.state ≠ .warm then (s, some .state)
  else if x.auxAt.isSome then (s, some .busy)
  else ((s.updLane l fun x => { x with aux := 0 }).sendAux l, none)

/-! ## Capability exchange (R151 to R153) -/

/-- The exchange is complete at the device. Log entry 52. -/
def State.exchanged (s : State) (l : Nat) : State :=
  let x := s.lane l
  let top := min x.maxSpd x.hubMax
  if x.state = .wake then
    if s.needsBackup (hubOfLane l) ∧ s.servingLane (hubOfLane l) = none then
      if x.q = 0 then s.takenOver l else s.startStep l x.q .takeover
    else s.toWarm l
  else if x.proc = .retrain then
    if min x.q top = 0 then s.settleLane l else s.startStep l (min x.q top) .retrain
  else if top = 0 then s.settleLane l
  else s.startStep l 1 .bringup

/-- A CAPABILITY block: ROLE 0 is the device's own stream, a wrong PORT or VERSION a wiring fault (R152); three identical blocks set
ACK, and the exchange is complete when one with ACK set has come too (R151).  Bit [7] of byte 2 and bytes 3 to 7, sent as
zero, are ignored (R177). Log entry 55. -/
def State.capabilityIn (s : State) (l : Nat) (b0 : Block) : State :=
  let x := s.lane l
  let b : Block := BitVec.ofNat 64 (b0.toNat % 2 ^ 23)
  let v := blockByte b 1
  if (x.state ≠ .capx ∧ x.state ≠ .wake) ∨ !x.lock ∨ blockByte b 0 ≠ 0xD3 then s
    else if v / 16 % 2 = 0 then (s.flag (laneBase l + 8) 12).dropLane l 0x1705
    else if v / 32 % 2 ≠ l % 2 ∨ v % 16 ≠ 1 then (s.flag (laneBase l + 8) 11).dropLane l 0x1706
    else
      let n := if x.capLast = some b then x.capCount + 1 else 1
      let ack := x.capAck || decide (3 ≤ n)
      let s := s.updLane l fun x => { x with capLast := some b, capCount := n, capAck := ack, hubMax := v / 64 }
      let s := if ack && !x.capAck then s.sendCapability l else s
      if ack ∧ blockByte b 2 % 2 = 1 then
        (s.setReg (laneBase l + 0xC) (BitVec.ofNat 32 (v / 64 + 4 * (v / 32 % 2) + 16 * (v % 16) + 256))).exchanged l
      else s

/-- CAPABILITY: a CAPABILITY block has arrived (R183). -/
def execCapability (l : Fin 128) (b : Block) (s : State) : Host.Outcome State Fault Refusal :=
  .next ((s.breakFrame l).capabilityIn l b)

/-! ## Qualification (R156, R157) -/

/-- A gate fails: LANE_STEP_FAIL and one speed down; a bring-up's return needs block lock only, a retrain applies the gates
again. -/
def State.gateFail (s : State) (l : Nat) : State :=
  let x := s.lane l
  (s.raise 0x1704 l []).startStep l (x.speed - 1) (if x.proc = .bringup then .fallback else x.proc)

/-- The gates pass: a bring-up short of its target climbs on. -/
def State.gatesPass (s : State) (l : Nat) : State :=
  let x := s.lane l
  if x.proc = .bringup ∧ x.speed < min x.maxSpd x.hubMax then s.startStep l (x.speed + 1) .bringup
  else s.settleLane l

/-- QUAL_POINT_DONE: the dwell at one of the four points of gate 2 ends; after the fourth the device sends REPORT. -/
def execQualPointDone (l : Fin 128) (disagreements : Word) (s : State) : Host.Outcome State Fault Refusal :=
  let x := s.lane l
  .next (
    if x.state ≠ .qual ∨ x.gate = 0 ∨ 4 < x.gate then s
    else if disagreements ≠ 0 then s.gateFail l
    else if x.gate < 4 then s.updLane l fun x => { x with gate := x.gate + 1 }
    else (s.updLane l fun x => { x with gate := 5, seq := x.seq + 1 }).sendLinkCmd l 3 0 (x.seq + 1))

/-- A REPORT_RSP block: the third gate passes with VALUE 0.  The spec gives no timer for an answer that never comes: the lane
then stays in QUAL (DESIGN CHOICE, log entry 99). -/
def State.reportIn (s : State) (l : Nat) (b : Block) : State :=
  let x := s.lane l
  if x.state ≠ .qual ∨ x.gate ≠ 5 ∨ blockByte b 0 ≠ 0xD5 ∨ blockByte b 1 ≠ 4 ∨ blockByte b 3 ≠ x.seq.toNat then s
  else if field b.toNat 32 16 = 0 then s.gatesPass l
  else s.gateFail l

/-- REPORT_RSP: a LINK_CMD block with that OP has arrived (R183). Log entry 99. -/
def execReportRsp (l : Fin 128) (b : Block) (s : State) : Host.Outcome State Fault Refusal :=
  .next ((s.breakFrame l).reportIn l b)

/-- A LINK_CMD ACK: to a STEP, 16 FILLER blocks go out at the present speed, and once the last has left the divider changes
(`State.turnLane`); to a DORMANT, the lane is powered down (R154, R164). -/
def State.linkAckIn (s : State) (l : Nat) (b : Block) : State :=
  let x := s.lane l
  if blockByte b 0 ≠ 0xD5 ∨ blockByte b 1 ≠ 2 ∨ blockByte b 3 ≠ x.seq.toNat then s
    else if x.state = .step ∧ !x.acked ∧ blockByte b 2 = 1 then
      let s := forNat 16 (fun _ s => s.emit (.laneBlock l fillerBlock)) s
      s.updLane l fun x => { x with acked := true, turning := true }
    else if x.state = .warm ∧ x.dormantReq ∧ blockByte b 2 = 5 then
      (s.abortEye l).updLane l fun x => { x with state := .dormant, lock := false, speed := 0, dormantReq := false,
                                                 marked := false, t1 := none, unanswered := 0,
                                                 hunts := [], hdrs := [], openF := none }
    else s

/-- LINK_CMD_ACK: a LINK_CMD block with OP ACK has arrived (R183). -/
def execLinkCmdAck (l : Fin 128) (b : Block) (s : State) : Host.Outcome State Fault Refusal :=
  .next ((s.breakFrame l).linkAckIn l b)

/-! ## Block lock (R146, R147) -/

/-- A retrain's STEP to a speed has failed, as a failure of gate 1 does (R167, R591): one speed lower with the full gates; L1, which
it has reached already, needs block lock and the exchange only (R157); below L1 there is no speed left, a trigger (R166). -/
def State.retrainDown (s : State) (l : Nat) : State :=
  let x := s.lane l
  if x.target = 0 then s.trigger l
  else if x.target - 1 = x.speed then s.settleLane l
  else s.startStep l (x.target - 1) .retrain

/-- Block lock again at the speed that a failed STEP left: a bring-up settles there (R154), a retrain goes on below the speed that
has failed. -/
def State.returned (s : State) (l : Nat) : State :=
  if (s.lane l).proc = .retrain then s.retrainDown l else s.settleLane l

/-- Block lock in STEP at the target speed, by procedure (Table 5-4). -/
def State.stepLocked (s : State) (l : Nat) : State :=
  let x := s.lane l
  if x.gate = 6 then s.returned l
  else match x.proc with
    | .takeover => s.takenOver l
    | .speed => s.toActive l
    | .stepdown => s.toWarm l
    | .fallback => s.settleLane l
    | _ => if x.speed = 0 then s.settleLane l else s.updLane l fun x => { x with state := .qual, gate := 1 }

/-- Block lock at an alignment: the window of headers is empty, the first 58 descrambled bits will be discarded (R144), the elastic
buffer is centred (R150); a lane in HUNT goes on to the exchange, one in STEP by its procedure. -/
def State.gotLock (s : State) (l a : Nat) : State :=
  let x := s.lane l
  let locked := s.updLane l fun x => { x with lock := true, align := a, hdrs := [], skip := 58, fill := 8, hunts := [], openF := none }
  match x.state with
  | .hunt => (locked.updLane l fun x => { x with state := .capx, capxAt := s.now }).sendCapability l
  | .wake => locked.sendCapability l
  | .step => locked.stepLocked l
  | _ => locked

/-- Block lock is lost (R147): LANE_LOCK_LOSS and a retrain. -/
def State.lostLock (s : State) (l : Nat) : State :=
  ((s.updLane l fun x => { x with lock := false, hdrs := [], hunts := [], openF := none }).raise 0x1701 l []).trigger l

/-- Whether a lane hunts: in HUNT or WAKE, and in STEP once its divider has changed. -/
def Lane.isHunting (x : Lane) : Bool := !x.lock && (x.state == .hunt || x.state == .wake || (x.state == .step && x.acked && !x.turning))

/-! ## Timers (Table 5-3) -/

/-- T_HUNT: 2 ms in HUNT. -/
def execTHunt (l : Fin 128) (s : State) : Host.Outcome State Fault Refusal :=
  .next (if (s.lane l).state = .hunt then s.whenDue ((s.lane l).huntAt + 800000) fun s => s.trigger l else s)

/-- T_CAPX: 200 µs from block lock at L1. -/
def execTCapx (l : Fin 128) (s : State) : Host.Outcome State Fault Refusal :=
  .next (if (s.lane l).state = .capx then s.whenDue ((s.lane l).capxAt + 80000) fun s => s.trigger l else s)

/-- A STEP has failed before its divider change, by procedure (R154, R591, R167). -/
def State.stepUnacked (s : State) (l : Nat) : State :=
  let x := s.lane l
  let s := s.raise 0x1704 l []
  match x.proc with
  | .bringup => s.settleLane l
  | .retrain => s.retrainDown l
  | _ => s.trigger l

/-- T_ACK: no ACK to a STEP within 50 µs: sent again, three times at most. -/
def execTAck (l : Fin 128) (s : State) : Host.Outcome State Fault Refusal :=
  let x := s.lane l
  .next (
    if x.state ≠ .step ∨ x.acked then s
    else s.whenDue (x.sentAt + 20000) fun s =>
      if x.sends < 3 then (s.updLane l fun x => { x with sends := x.sends + 1, sentAt := s.now }).sendLinkCmd l 1 x.target x.seq
      else s.stepUnacked l)

/-- T_STEP: no block lock within 200 µs of the divider change: a climb or a retrain goes back to the speed it left; every
other procedure, and a return that finds no lock, is a retrain trigger (R591). -/
def execTStep (l : Fin 128) (s : State) : Host.Outcome State Fault Refusal :=
  let x := s.lane l
  .next (
    if x.state ≠ .step ∨ !x.acked ∨ x.turning ∨ x.lock then s
    else s.whenDue (x.stepAt + 80000) fun s =>
      if x.gate = 6 then s.trigger l
      else
        let s := s.raise 0x1704 l []
        if x.proc = .bringup ∨ x.proc = .retrain then
          (s.abortEye l).updLane l fun x => { x with
            speed := x.from_, gate := 6, stepAt := s.now, hunts := [], hdrs := [],
            proc := if x.proc = .bringup then .fallback else .retrain }
        else s.trigger l)

/-- T_RT: a retrain not done within 20 ms has failed; the next starts at once, counted. -/
def execTRt (l : Fin 128) (s : State) : Host.Outcome State Fault Refusal :=
  .next (match (s.lane l).rtAt with
    | none => s
    | some t => s.whenDue (t + 8000000) fun s => s.trigger l)

/-- LANE_WAKE: T_WAKE, 900 µs from the wake decision, expires before the lane is WARM or ACTIVE. -/
def execLaneWake (l : Fin 128) (s : State) : Host.Outcome State Fault Refusal :=
  .next (match (s.lane l).wakeAt with
    | none => s
    | some t => s.whenDue (t + 360000) fun s =>
      ((s.updLane l fun x => { x with wakeAt := none }).raise 0x1708 l []).trigger l)

/-! ## Dormant lanes (R162, R164) -/

/-- The plan makes a WARM B lane dormant: LINK_CMD DORMANT, in effect once the hub acknowledges it.  The spec gives no resend and
no limit: a command that is never acknowledged leaves the lane WARM (DESIGN CHOICE, log entry 99). -/
def State.makeDormant (s : State) (l : Nat) : State :=
  let x := s.lane l
  if x.state ≠ .warm ∨ l % 2 = 0 ∨ x.dormantReq ∨ s.needsBackup (hubOfLane l) then s
  else (s.updLane l fun x => { x with dormantReq := true, seq := x.seq + 1 }).sendLinkCmd l 5 0 (x.seq + 1)

/-- A wake decision: the lane leaves DORMANT by transmitting at L1. -/
def State.wakeLane (s : State) (l : Nat) : State :=
  if (s.lane l).state ≠ .dormant then s
  else s.updLane l fun x => { x.hunting s.now .none with state := .wake, wakeAt := some s.now }

/-! ## Enabling a lane (R160, R175) -/

/-- EN of LNK_CFG has been written in a state that allows it: 1 starts the bring-up from OFF, 0 takes the lane to OFF unless
it is RETIRED. Log entry 57. -/
def State.laneEnWritten (s : State) (l : Nat) : State :=
  if s.fld (laneBase l) 0 1 = 1 then s.startLanes
  else if (s.lane l).state = .off ∨ (s.lane l).state = .retired then s
  else (((s.abortEye l).lanesOff [l]).windowDone (.lane l)).endEnum l .timeout 0

/-! ## Eye scan (R170, R171) -/

/-- START: a full scan from its first point; a scan already running goes on. Log entry 56. -/
def State.startEye (s : State) (l : Nat) : State :=
  if (s.lane l).eye.isSome then s else s.updLane l fun x => { x with eye := some 0 }

/-- The record of one point: phase outer from −32, voltage inner from −127. -/
def eyeRecord (l i dwell : Nat) (count : Word) (lost : Bool) : List Byte :=
  [BitVec.ofNat 8 l, BitVec.ofNat 8 (unsign 8 ((i % 255 : Nat) - 127 : Int)), BitVec.ofNat 8 (unsign 8 ((i / 255 : Nat) - 32 : Int)),
   BitVec.ofNat 8 dwell] ++ leBytes 2 (min count.toNat 0xFFFF) ++ leBytes 2 (bit (0xFFFF < count.toNat) + 2 * bit lost)

/-- EYE_SCAN_POINT: one record into the scan's ring; 16,320 points end the scan.  A point is elective work (R493), and the
qualification points take the sampler first.  A record without room is lost and counted for its lane (R348). Log entries 94 and 104. -/
def execEyeScanPoint (l : Fin 128) (count : Word) (lockLost : Bool) (s : State) : Host.Outcome State Fault Refusal :=
  let x := s.lane l
  .next (match x.eye with
    | none => s
    | some i =>
      if s.sheds 0 || (x.state == .qual && decide (1 ≤ x.gate) && decide (x.gate ≤ 4)) then s
      else
        let r := s.capture (s.fld (laneBase l + 0x1C) 4 4) 0x03 (eyeRecord l i (s.fld (laneBase l + 4) 16 5) count lockLost)
        let s := (if r.2 then r.1 else s.captureLost l).tally 14 (2 ^ s.fld (laneBase l + 4) 16 5)
        if i + 1 < 16320 then s.updLane l fun x => { x with eye := some (i + 1) }
        else (s.updLane l fun x => { x with eye := none }).flag (laneBase l + 0x1C) 2)

/-! ## A quad PLL loses lock (R482) -/

/-- QUAD_PLL_UNLOCK, in the settling wait also (R466): its lanes lose block lock and retrain; the PLL relocks by full search, under the window of
Table 12-7. Log entry 59. -/
def execQuadPllUnlock (q : Fin 32) (s : State) : Host.Outcome State Fault Refusal :=
  .next (
    if (s.clk.quads.get q).state ≠ .locked ∧ (s.clk.quads.get q).state ≠ .settling then s
    else
      let s := { s with clk := { s.clk with quads := s.clk.quads.set q ⟨.search, 0, false, s.now⟩ } }
      let s := s.openWindow (.quad q) 0 0 0 none
      forNat 4 (fun i s =>
        let l := 4 * q.val + i
        if (s.lane l).lock then s.lostLock l else s) s)

end Sys2Proof.Machine
end

