-- ==== Sys2Proof/Machine/Receive.lean ====
section
/-! DEFINITION. The receiver of a lane (R144 to R147, R150, R183): hunting at all alignments, the window of headers, the
descrambler, the elastic buffer and the assembly of frames. -/

namespace Sys2Proof.Machine

/-! ## Assembly of frames (R178, R183) -/

/-- FRAME_END: the open frame is judged; one that a re-centred elastic buffer has damaged fails its CRC-32C (R150, R181). -/
def State.endFrame (s : State) (l : Nat) (o : OpenFrame) (b : Block) : State :=
  let s := s.updLane l fun x => { x with openF := none }
  let f : RawFrame := ⟨o.start, o.data, b⟩
  if o.damaged then s.crcError l
  else match frameKind f with
    | 2 => s.feedbackFrame l f
    | 3 => s.captureFrame l f
    | 4 => s.enumFrame l f
    | _ => if frameCrcOk f then s.malformed l else s.crcError l

/-- A control block other than FILLER, FRAME_START, FRAME_END and ABORT acts: TIME_MARK, CAPABILITY and the LINK_CMDs that a hub
sends; IDLE and CREDIT ask nothing of the device. -/
def State.controlBlock (s : State) (l : Nat) (b : Block) (t4 : BitVec 48) : State :=
  match blockByte b 0 with
  | 0xC4 => s.echo l b t4
  | 0xD3 => s.capabilityIn l b
  | 0xD5 =>
    if blockByte b 1 = 2 then s.linkAckIn l b
    else if blockByte b 1 = 4 then s.reportIn l b
    else s
  | _ => s

/-- The type codes of Table 6-1 that may stand alone and act where they stand. -/
def controlCodes : List Nat := [0xA6, 0xC4, 0xC8, 0xD3, 0xD5]

/-- One block as the elastic buffer delivers it, by Table 6-3; t4 is the time of its first bit. Log entry 95. -/
def State.takeBlock (s : State) (l : Nat) (isData : Bool) (b : Block) (t4 : BitVec 48) : State :=
  let c := blockByte b 0
  match isData, (s.lane l).openF with
  | true, none => s.malformed l
  | true, some o => s.updLane l fun x => { x with openF := some { o with data := o.data ++ [b] } }
  | false, o =>
    if c = 0xA1 then s
    else if c = 0xB2 then (s.breakFrame l).updLane l fun x => { x with openF := some ⟨b, [], false⟩ }
    else if c = 0xB9 then match o with | some f => s.endFrame l f b | none => s.malformed l
    else if c = 0xE7 then s.abortIn l b
    else if controlCodes.contains c then (s.breakFrame l).controlBlock l b t4
    else s.malformed l

/-- The time of the first bit of a block that ends now: one block time ago (R193 to R199). -/
def State.blockStart (s : State) (l : Nat) : BitVec 48 :=
  BitVec.ofNat 48 (s.now * 256 - blockUnits (s.lane l).speed * 256 / 25)

/-- MALFORMED_BLOCK: a block as the receiver delivers it to frame assembly.  A data block or FRAME_END with no frame open and a
control block of an unknown type are discarded and counted; every other block takes its place by Table 6-3. Log entry 95. -/
def execMalformedBlock (l : Fin 128) (isData : Bool) (b : Block) (s : State) : Host.Outcome State Fault Refusal :=
  .next (s.takeBlock l isData b (s.blockStart l))

/-! ## Hunting (R146) -/

/-- Bit i of the 132 bits that the last piece and this one make. -/
def pieceBit (prev w : BitVec 66) (i : Nat) : Bool := if i < 66 then prev.getLsbD i else w.getLsbD (i - 66)

/-- The header at alignment a that ends in this piece: its two bits differ when it is valid (R143). -/
def syncOk (prev w : BitVec 66) (a : Nat) : Bool :=
  let i := if a = 65 then 65 else 66 + a
  pieceBit prev w i != pieceBit prev w (i + 1)

/-- The counts of consecutive valid headers at the 66 alignments, after a piece. -/
def huntCounts (x : Lane) (w : BitVec 66) : List Nat :=
  (List.range 66).map fun a => if syncOk x.rxPrev w a then x.hunts.getD a 0 + 1 else 0

/-- The alignment that has reached 96, the one whose block ended first: in a piece alignment 65 comes before 0 to 64. -/
def lockAt (counts : List Nat) : Option Nat := (65 :: List.range 65).find? fun a => decide (96 ≤ counts.getD a 0)

/-- Every invalid header is counted, with or without lock (R147). -/
def State.badHeaders (s : State) (l n : Nat) : State := if n = 0 then s else s.count (laneBase l + 0x14) n

/-- One piece while hunting. -/
def State.huntPiece (s : State) (l : Nat) (w : BitVec 66) : State :=
  let x := s.lane l
  let cs := huntCounts x w
  let s := (s.badHeaders l ((List.range 66).countP fun a => !syncOk x.rxPrev w a)).updLane l fun x => { x with
    rxPrev := w, hunts := cs }
  match lockAt cs with
  | some a => s.gotLock l a
  | none => s

/-! ## With block lock (R144, R147, R150) -/

/-- The 66 bits of the block that ends in this piece at the alignment taken. -/
def alignedBlock (x : Lane) (w : BitVec 66) : Nat := x.rxPrev.toNat / 2 ^ x.align + w.toNat % 2 ^ x.align * 2 ^ (66 - x.align)

/-- The level of the elastic buffer after a block and the reads beside it, and blocks inserted and deleted: a FILLER is deleted at 10
blocks or more and passed twice at 6 or fewer, nothing else is. -/
def elasticStep (fill : Nat) (filler : Bool) (reads : Nat) : Int × Nat × Nat :=
  if filler ∧ 10 ≤ fill then (fill - reads, 0, 1)
  else if filler ∧ fill ≤ 6 then (fill + 2 - reads, 1, 0)
  else (fill + 1 - reads, 0, 0)

/-- The elastic buffer takes a block: rate matching is counted; past 16 blocks or at none it is centred again, counted as a deletion
or an insertion, LANE_ELASTIC, and an open frame is damaged. Log entry 54. -/
def State.elastic (s : State) (l : Nat) (filler : Bool) (reads : Nat) : State :=
  let a := laneBase l + 0x18
  let e := elasticStep (s.lane l).fill filler reads
  let s := if e.2.1 = 0 then s else s.countAt a 0 15 15 1
  let s := if e.2.2 = 0 then s else s.countAt a 16 15 31 1
  if 16 < e.1 ∨ e.1 ≤ 0 then
    let s := s.updLane l fun x => { x with fill := 8, openF := x.openF.map fun o => { o with damaged := true } }
    let s := if 16 < e.1 then s.countAt a 16 15 31 1 else s.countAt a 0 15 15 1
    s.raise 0x1707 l []
  else s.updLane l fun x => { x with fill := e.1.toNat }

/-- One block with lock: its header enters the window of 96, in which 12 invalid ones lose the lock; its payload is descrambled, the
first 58 bits after lock discarded with their block; a block with a valid header goes through the buffer to frame assembly. -/
def State.lockedPiece (s : State) (l : Nat) (w : BitVec 66) (reads : Nat) : State :=
  let x := s.lane l
  let blk := alignedBlock x w
  let hdr := blk % 4
  let bad := hdr == 0 || hdr == 3
  let win := (bad :: x.hdrs).take 96
  let d := descramble 64 x.dsc (blk / 4)
  let s := (s.badHeaders l (bit bad)).updLane l fun x => { x with rxPrev := w, hdrs := win, dsc := d.2, skip := x.skip - 64 }
  if 12 ≤ win.countP id then s.lostLock l
  else
    let b : Block := BitVec.ofNat 64 d.1
    let s := s.elastic l (!bad && hdr == 2 && blockByte b 0 == 0xA1 && x.skip == 0) reads
    if bad || decide (0 < x.skip) then s else s.takeBlock l (hdr == 1) b (s.blockStart l)

/-- 66 received bits, inverted under RXINV (R145). -/
def State.receive (s : State) (l : Nat) (r : RxWord) : State :=
  let w := invertIf (s.fld (laneBase l) 4 1 == 1) r.bits
  if (s.lane l).lock then s.lockedPiece l w r.reads.toNat
  else if (s.lane l).isHunting then s.huntPiece l w
  else s

/-- Received bits up to the first after which p holds of the lane. -/
def State.receiveUntil (p : Lane → Bool) (l : Nat) : List RxWord → State → State
  | [], s => s
  | r :: rs, s => let t := s.receive l r; if p (t.lane l) then t else State.receiveUntil p l rs t

/-- BLOCK_LOCK: a lane without lock takes received bits until an alignment has 96 valid headers in a row (R146). Log entry 54. -/
def execBlockLock (l : Fin 128) (ws : List RxWord) (s : State) : Host.Outcome State Fault Refusal :=
  .next (if (s.lane l).lock then s else State.receiveUntil (·.lock) l ws s)

/-- LANE_LOCK_LOSS: a lane with lock takes received bits until 12 of the last 96 headers are invalid (R147). Log entry 54. -/
def execLaneLockLoss (l : Fin 128) (ws : List RxWord) (s : State) : Host.Outcome State Fault Refusal :=
  .next (if (s.lane l).lock then State.receiveUntil (!·.lock) l ws s else s)

/-- LANE_ELASTIC: a lane with lock takes received bits through its elastic buffer while it keeps lock (R150). Log entry 54. -/
def execLaneElastic (l : Fin 128) (ws : List RxWord) (s : State) : Host.Outcome State Fault Refusal :=
  .next (if (s.lane l).lock then ws.foldl (fun s r => if (s.lane l).lock then s.receive l r else s) s else s)

end Sys2Proof.Machine
end

