-- ==== Sys2Proof/Machine/Modes.lean ====
section
/-! DEFINITION. MODE_CHANGE from its execution boundary to its completion (R297 to R305): arming, decision, completion. -/

namespace Sys2Proof.Machine


/-- Target of engine e in the descriptor. -/
def targetOf (p : ModeParams) (e : Nat) : Nat := field p.targets.toNat (4 * e) 4

def unitNamed (p : ModeParams) (e : Nat) : Bool := p.units.getLsbD e

/-- The condition of Table 9-7 that a unit fails first; none when it is armed. -/
def State.armReason (s : State) (p : ModeParams) (e : Nat) : Option Nat :=
  let x := s.eng e
  if x.loaded.isNone || (decide (e < 8) && (s.oct e).state == .unconfigured) then some 1
  else if x.modeTable.isEmpty then some 2
  else if x.modeTable.length ≤ targetOf p e then some 3
  else if x.splice.active then some 4
  else if s.sys.halt then some 5
  else none

/-- Frames from the present base epoch to the first one at or after a device time, in device time as it stands (R298,
R304). -/
def State.framesUntil (s : State) (ta : Nat) : Int :=
  let step : Nat := max 1 (s.tfTicks * s.dtStep)
  let back : Int := (s.time.dt : Int) - ((s.now - s.fr.epoch) * s.dtStep : Nat) - ta
  (0 : Int) - back / step

/-- k_a − k_x of a request at the base boundary just reached. -/
def State.modeAhead (s : State) (r : ModeReq) : Int :=
  match r.act, r.p.time with
  | some ka, _ => frameDiff ka s.fr.k
  | none, some t => s.framesUntil (t.1.toNat * dtSecond + t.2.toNat * nsUnit)
  | none, none => 0

/-- The reason code of the lowest-numbered unit in NOTARM (R302). -/
def ModeReq.reason (r : ModeReq) : Nat :=
  ((List.range 9).findSome? fun e =>
    if r.notArm.getLsbD e then (r.reasons.find? fun p => p.1 == e).map (·.2) else none).getD 0

/-- The request ends: its units are disarmed, its descriptor completes. -/
def State.modeEnd (s : State) (r : ModeReq) (st : Status) (frame : Word) : State :=
  let result := r.excl.toNat + 2 ^ 9 * r.notArm.toNat + 2 ^ 18 * r.reason
  let s := forNat 9 (fun e s => if unitNamed r.p e then s.updEng e fun x => { x with armed := none } else s) s
  let done := s.hif.waiting.filter fun w => w.kind = .modeChange
  let s := { s with modeReq := none, hif := { s.hif with waiting := s.hif.waiting.filter fun w => w.kind ≠ .modeChange } }
  done.foldl (fun s w => s.complete w.d st frame result) s

/-- Arms the named units at E_B(k_x); a unit whose octad is Fenced is excluded (R299). -/
def State.armUnits (s : State) (r : ModeReq) : State × ModeReq :=
  (List.range 9).foldl (fun (a : State × ModeReq) e =>
    let s := a.1
    let r := a.2
    let b : BitVec 9 := BitVec.ofNat 9 (2 ^ e)
    if !unitNamed r.p e then a
    else if e < 8 ∧ (s.oct e).state = .fenced then (s, { r with excl := r.excl ||| b })
    else match s.armReason r.p e with
      | some c => (s, { r with notArm := r.notArm ||| b, reasons := (e, c) :: r.reasons })
      | none => (s.updEng e fun x => { x with armed := some (targetOf r.p e) }, r)) (s, r)

/-- The evaluation of R298 at a base boundary k_x = `s.fr.k`. -/
def State.modeEvaluate (s : State) (r : ModeReq) : State :=
  let ahead := s.modeAhead r
  let l : Int := 1 - ahead
  let s := forNat 9 (fun e s => if unitNamed r.p e then s.updEng e fun x => { x with armed := none } else s) s
  let r := { r with excl := 0, notArm := 0, reasons := [], redo := false }
  if s.sys.dev = .lockout then s.modeEnd r .state 0
  else if 65535 < ahead then s.modeEnd r .refused 0
  else if 2 < l then (s.modeEnd r .missed 0).raise 0x3207 r.p.units.toNat []
  else
    let ka : Word := s.fr.k + BitVec.ofInt 32 ahead
    let ke : Word := if 1 ≤ ahead then ka else s.fr.k + 1
    let a := s.armUnits { r with ka := ka, ke := ke, late := decide (1 ≤ l), armed := true }
    { a.1 with modeReq := some a.2 }

/-- At a base frame boundary (R298, R304): a new request is executed; one whose activation frame a step of device time has
moved is evaluated again. -/
def State.modeArm (s : State) : State :=
  match s.modeReq with
  | none => s
  | some r =>
    if r.decided then s
    else if !r.armed then s.modeEvaluate r
    else if r.redo then
      if s.fr.k + BitVec.ofInt 32 (s.modeAhead r) = r.ka then { s with modeReq := some { r with redo := false } }
      else s.modeEvaluate r
    else s

/-- A unit enters its new mode in sample k_e (R301). -/
def State.enterMode (s : State) (r : ModeReq) (e : Nat) : State :=
  s.updEng e fun x =>
    let t := targetOf r.p e
    { x with pending := x.pending ++ [⟨t, r.ke, if r.p.ns = 0 then ((x.modeTable[t]?).map (·.ns)).getD 0 else r.p.ns.toNat⟩] }

/-- MODE_DECISION: at E_B(k_e − 1) the change commits when a named unit is armed and every named unit that is not excluded is;
otherwise it is refused (R300). -/
def execModeDecision (s : State) : Host.Outcome State Fault Refusal :=
  .next (match s.modeReq with
    | none => s
    | some r =>
      if r.decided || !r.armed || r.redo || decide (frameDiff s.fr.k (r.ke - 1) < 0) then s
      else
        let armed := (List.range 9).filter fun e => unitNamed r.p e && (s.eng e).armed.isSome
        if armed.isEmpty ∨ r.notArm ≠ 0 then (s.modeEnd r .refused 0).raise 0x3208 r.p.units.toNat []
        else
          let s := armed.foldl (fun s e => s.enterMode r e) s
          let s := forNat 9 (fun e s => if r.excl.getLsbD e then s.flag (engBase e + 0x4C) 6 else s) s
          { s with modeReq := some { r with
              decided := true, todo := armed.foldl (fun m e => m ||| BitVec.ofNat 9 (2 ^ e)) 0 } })

/-- Engine e has committed a sample: its sample 0 of a decided change may be the last one awaited (R302). Log entry 65. -/
def State.modeCommitted (s : State) (e : Nat) : State :=
  match s.modeReq with
  | none => s
  | some r =>
    if r.decided && r.todo.getLsbD e && decide (0 ≤ frameDiff (s.eng e).entryFrame r.ke) then
      let s := s.updEng e fun x => { x with armed := none }
      let t := r.todo &&& ~~~(BitVec.ofNat 9 (2 ^ e))
      if t = 0 then s.modeEnd r (if r.late then .late else .ok) r.ke
      else { s with modeReq := some { r with todo := t } }
    else s

/-- A MODE_CHANGE descriptor comes in: BUSY while another is pending (R297). Log entry 65. -/
def State.doModeChange (s : State) (h : Hdr) (p : ModeParams) : State × Option Status :=
  if s.modeReq.isSome then (s, some .busy)
  else
    ({ s with modeReq := some {
        p := p, act := h.act, ka := 0, ke := 0, late := false, armed := false, decided := false, excl := 0, notArm := 0, reasons := [],
        todo := 0, redo := false } }, none)

end Sys2Proof.Machine
end

