-- ==== Sys2Proof/Machine/Thermal.lean ====
section
/-! DEFINITION. The energy plan and thermal management (chapter 16).  Energies are kept in units of 2^-22 pJ, the unit of a
coefficient (U24.8) times a scale (U2.14). -/

namespace Sys2Proof.Machine

/-! ## Energy of events (R487, Table 16-1) -/

/-- The rail group of an activity: 0 CORE, 1 SRAM, 2 SER, 3 OTHER. -/
def groupOf (i : Nat) : Nat :=
  if i = 8 then 1 else if i = 5 ∨ i = 6 ∨ i = 7 ∨ i = 11 then 0 else if i = 12 ∨ i = 15 then 3 else 2

def State.coef (s : State) (i : Nat) : Nat := s.fld (0x401100 + 4 * i) 0 32
def State.scaleOf (s : State) (g : Nat) : Nat := s.fld (0x401020 + 4 * g) 0 16

/-- Energy of n / d events of activity i. -/
def State.energyOf (s : State) (i n d : Nat) : Nat := n * s.coef i * s.scaleOf (groupOf i) / d

def sumList (l : List Nat) : Nat := l.foldl (· + ·) 0

/-- Energy of one group over the counts of an epoch. Log entry 69. -/
def State.groupEnergy (s : State) (counts : List Nat) (g : Nat) : Nat :=
  sumList ((List.range 16).map fun i => if groupOf i = g then s.energyOf i (counts.getD i 0) 1 else 0)

/-- One picojoule. -/
def pj : Nat := 2 ^ 22

/-! ## Essential settings (R492) -/

/-- The lowest speed that meets constraint 4 of R37 and the feedback constraint, at most Q; none where no speed does: the plan then
chooses none (R159, R195). -/
def State.neededSpeed (s : State) (l : Nat) : Option Nat :=
  (List.range ((s.lane l).q + 1)).find? fun v => s.laneCmdOk l v && s.laneFbOk l v

/-- A run-time change of speed of a P lane: its hub goes over to the B lane first; deferred while that is not WARM (R159). -/
def State.changeSpeed (s : State) (t v : Nat) : State :=
  if (s.lane (2 * (t ^^^ 1) + 1)).state ≠ .warm then s
  else (s.updLane (2 * t) fun x => { x with proc := .speed, target := v }).checkTakeover t

/-- Epochs in a row for which each speed has met what the lane needs, at the end of one more epoch. -/
def Lane.suffices (x : Lane) (need : Option Nat) : List Nat :=
  (List.range 4).map fun v => match need with
    | some n => if n ≤ v then x.lowRuns.getD v 0 + 1 else 0
    | none => 0

/-- The speed of one serving P lane: a rise at once; a fall to the lowest speed that has sufficed for LOWER_EP epochs, under
enforcement to the one it needs at once (R492, R504). -/
def State.planLane (s : State) (t : Nat) : State :=
  let x := s.lane (2 * t)
  if !x.serving || x.state != .active || x.proc != .none then s
  else
    let runs := x.lowRuns
    match s.neededSpeed (2 * t) with
    | none => s
    | some v =>
      if x.speed < v then s.changeSpeed t v
      else if s.epl.enforce then (if v < x.speed then s.changeSpeed t v else s)
      else match (List.range x.speed).find? fun w => decide (s.fld 0x401004 0 10 ≤ runs.getD w 0) with
        | some w => s.changeSpeed t w
        | none => s

/-- N + F/2^24 and P of a point as a fraction, ascending with its frequency. -/
def State.pointFreq (s : State) (p : Nat) : Nat × Nat := (s.hopN p * 2 ^ 24 + s.hopF p, max 1 (s.hopP p))

def freqLess (a b : Nat × Nat) : Bool := decide (a.1 * b.2 < b.1 * a.2)

/-- Whether `cycles` core cycles and 50 ns fit into tenths × window / 10 ticks at a point (R225, R492): a cycle takes
16 × 2^24 P / (2^24 N + F) ticks. -/
def State.fitsAt (s : State) (p cycles extra window tenths : Nat) : Bool :=
  let f := s.pointFreq p
  decide (10 * (extra * f.1 + cycles * 16 * 2 ^ 24 * f.2) ≤ tenths * window * f.1)

/-- Ticks, rounded up, of core cycles at a point. -/
def State.ticksAt (s : State) (p cycles : Nat) : Nat :=
  let f := s.pointFreq p
  (cycles * 16 * 2 ^ 24 * f.2 + f.1 - 1) / max 1 f.1

/-- The stretches of a base frame in which a running octad's engine or selection is active: start, length (R48). -/
def State.busyArcs (s : State) (p n : Nat) : List (Nat × Nat) :=
  let o := s.oct n
  if !o.state.active then []
  else
    let eng := match (s.eng n).loaded with | some g => [(o.tl.phase + 50 * o.tl.tfb, 20 + s.ticksAt p g.cx)] | none => []
    eng ++ [(o.tl.phase + 50 * o.tl.ted, s.ticksAt p 400)]

/-- Whether an idle interval around the base frame boundary is at least t_BPI, 7.1 µs, long (R48, R472). Log entry 67. -/
def State.idleInterval (s : State) (p : Nat) : Bool :=
  let t := max 1 s.tfTicks
  let arcs := (List.range 8).flatMap fun n => s.busyArcs p n
  let inside := arcs.any fun a => a.1 % t == 0 || decide (t < a.1 % t + a.2)
  let after := arcs.foldl (fun m a => min m (a.1 % t)) t
  let before := arcs.foldl (fun m a => min m (t - min t (a.1 % t + a.2))) t
  arcs.isEmpty || (!inside && decide (2840 ≤ after + before))

/-- The stretches in which an octad's engine, in every state that runs it, or its selection is at work: no hop comes during a sample
(Table 7-11, R215). -/
def State.workArcs (s : State) (n : Nat) : List (Nat × Nat) :=
  let o := s.oct n
  if o.state.active then s.busyArcs s.clk.point n
  else if o.state == .unconfigured || o.halted then []
  else match (s.eng n).loaded with
    | some g => [(o.tl.phase + 50 * o.tl.tfb, 20 + s.ticksAt s.clk.point g.cx)]
    | none => []

/-- No sample of the station engine starts within so many ticks (R216, Table 7-11). -/
def State.stationIdle (s : State) (ticks : Nat) : Bool :=
  let m := max 1 (field s.fr.stime.toNat 0 7)
  if (s.eng 8).loaded.isNone || s.sys.halt then true
  else match s.fr.stationDue with
    | some d => decide (s.now + ticks ≤ d.2)
    | none => decide (s.now + ticks ≤
        s.fr.epoch + s.tfTicks * (1 + (m - s.fr.stationCount % m) % m) + 50 * field s.fr.stime.toNat 8 8)

/-- Whether an idle interval under R48 holds the present tick, reaches to a base frame boundary, and lasts at least so long
from here, with no sample of any engine in it. Log entry 67. -/
def State.idleFor (s : State) (ticks : Nat) : Bool :=
  let t := max 1 s.tfTicks
  let r := (s.now - s.fr.epoch) % t
  let arcs := (List.range 8).flatMap fun n => s.workArcs n
  let left := arcs.foldl (fun m a => min m ((a.1 % t + t - r) % t)) t
  let past := arcs.foldl (fun m a => min m ((r + t - a.1 % t) % t - a.2)) t
  s.stationIdle ticks && (arcs.isEmpty || (arcs.all (fun a => decide (a.2 ≤ (r + t - a.1 % t) % t)) && decide (ticks ≤ left)
    && (decide (t ≤ r + left) || decide (r ≤ past))))

/-- Whether an engine is at work on a sample: a hop never comes during one (Table 7-11). -/
def State.sampling (s : State) : Bool :=
  (List.range 9).any fun e => match (s.eng e).graph with
    | some g => (s.eng e).running && !s.sampleDone e g.cx s.now
    | none => false

/-- Whether a point meets every condition of R492 step 2. Log entry 67. -/
def State.pointOk (s : State) (p : Nat) : Bool :=
  let engines := (List.range 8).all fun n => match (s.eng n).loaded with
    | some g => (s.oct n).state == .unconfigured || s.fitsAt p g.cx 20 (50 * ((s.oct n).tl.ted - (s.oct n).tl.tfb)) 9
    | none => true
  let station := match (s.eng 8).loaded with
    | some g => s.fitsAt p g.cx 20 (50 * (field s.fr.stime.toNat 16 16 - field s.fr.stime.toNat 8 8)) 9
    | none => true
  let sel := (List.range 8).all fun n => (s.oct n).state == .unconfigured
    || s.fitsAt p 400 0 (50 * ((s.oct n).tl.td - (s.oct n).tl.ted)) 10
  engines && station && sel && s.idleInterval p

/-- The core PLL may leave its point: it is locked, and the time PLL is not relocking. -/
def State.mayLeave (s : State) : Bool := s.clk.core.state == .locked && !s.clk.bypassTime.isSome

/-- HOP: the energy plan starts a hop to the point it wants, which must still qualify (R38), in an idle interval around a base
frame boundary that holds the bypass interval of 7.1 µs (R48, R471, R472). -/
def execHop (point : Fin 8) (s : State) : Host.Outcome State Fault Refusal :=
  .next (
    if s.epl.wantPoint = some point.val && s.mayLeave && point.val != s.clk.point && s.hopEn point && s.bandValid point
        && s.pointValid point && !s.sameFreq point s.clk.point && s.pointOk point && !s.sampling && s.idleFor 2840 then
      ({ s with clk := { s.clk with hopTo := some point.val, inHop := true } }).toBypass .hop
    else s)

/-- SEARCH_HOP: the core PLL leaves for an enabled point without a band, and searches it: at once while no engine holds a law
graph, else in an idle interval of at least 68 µs (R469). -/
def execSearchHop (point : Fin 8) (s : State) : Host.Outcome State Fault Refusal :=
  .next (
    if s.mayLeave && s.hopEn point && !s.bandValid point && s.pointValid point
        && ((List.range 9).all (fun e => (s.eng e).loaded.isNone) || (!s.sampling && s.idleFor 27200)) then
      let s := ({ s with clk := { s.clk with searching := some point.val, inHop := true } }).toBypass .search
      { s with clk := { s.clk with core := { s.clk.core with stored := false } } }
    else s)

/-- Whether an enabled point with a band qualifies. -/
def State.pointFit (s : State) (p : Nat) : Bool := s.hopEn p && s.bandValid p && s.pointValid p && s.pointOk p

/-- The enabled point of lowest frequency with a band that qualifies; the point in force where none does. -/
def State.bestPoint (s : State) : Nat :=
  (List.range 8).foldl (fun b p =>
    if s.pointFit p && (!s.pointOk b || freqLess (s.pointFreq p) (s.pointFreq b)) then p else b)
    s.clk.point

/-- The point of lowest frequency that has qualified for LOWER_EP epochs in a row, if it lies below the one in force. -/
def State.lowPoint (s : State) : Option Nat :=
  (List.range 8).foldl (fun b p =>
    if s.pointFit p && decide (s.fld 0x401004 0 10 ≤ s.epl.okRuns.get p)
        && freqLess (s.pointFreq p) (s.pointFreq (b.getD s.clk.point)) then some p else b) none

/-- The core clock of the next epochs (R492): a rise at once, a fall after LOWER_EP epochs or under enforcement. -/
def State.planClock (s : State) : State :=
  let b := s.bestPoint
  let want :=
    if s.sameFreq b s.clk.point then none
    else if freqLess (s.pointFreq s.clk.point) (s.pointFreq b) ∨ s.epl.enforce then some b
    else s.lowPoint
  { s with epl := { s.epl with wantPoint := want } }

/-- One more epoch for which points and lane speeds have, or have not, sufficed; a lane that does not serve starts anew (R492). -/
def State.countEpoch (s : State) : State :=
  let s := { s with epl := { s.epl with okRuns := (List.range 8).foldl (fun t p =>
    t.set p (if s.pointFit p then s.epl.okRuns.get p + 1 else 0)) s.epl.okRuns } }
  forNat 64 (fun t s =>
    if (s.lane (2 * t)).serving then s.updLane (2 * t) fun x => { x with lowRuns := x.suffices (s.neededSpeed (2 * t)) }
    else if (s.lane (2 * t)).lowRuns.isEmpty then s
    else s.updLane (2 * t) fun x => { x with lowRuns := [] }) s

def State.planSettings (s : State) : State := forNat 64 (fun t s => s.planLane t) s.planClock

/-! ## The prediction (R493) -/

/-- Core cycles of an epoch at the point that the plan has chosen, as a fraction. -/
def State.plannedCycles (s : State) : Nat × Nat :=
  let f := s.pointFreq (s.epl.wantPoint.getD (s.clk.hopTo.getD s.clk.point))
  (400000 * f.1, 16 * 2 ^ 24 * f.2)

/-- The speed that the plan has chosen for a lane. -/
def Lane.plannedSpeed (x : Lane) : Nat := if x.proc = .speed then x.target else x.speed

/-- Counts that the settings fix, as fractions: block times (19,531.25 of L1 in 1 ms), dormant microseconds, cell-frames
(800 / T_F frames of 1.25 µs units), core cycles; every other count is the previous epoch's. -/
def State.predictedCount (s : State) (i : Nat) : Nat × Nat :=
  let lanes := fun (f : Lane → Bool) => (s.lanes.ents.filter fun e => e.1 < 128 && f e.2).length
  let cycles := fun (n : Nat) => (n * s.plannedCycles.1, s.plannedCycles.2)
  match i with
  | 0 | 1 | 2 | 3 => (lanes (fun x => x.counts && x.plannedSpeed == i) * 78125 * 2 ^ i, 4)
  | 4 => (lanes (fun x => x.state == .dormant) * 1000, 1)
  | 5 => (((List.range 64).foldl (fun a t => if (s.servingLane t).isSome then a + s.hubCells t else a) 0) * 800, max 1 s.fr.tf)
  | 6 => cycles ((List.range 8).countP fun n => s.configured n)
  | 7 | 8 => cycles 1
  | _ => (s.epl.counts.getD i 0, 1)

def State.predicted (s : State) (i : Nat) : Nat := s.energyOf i (s.predictedCount i).1 (s.predictedCount i).2

/-- Activities of essential work: all but capture bytes, offset-sampler blocks and NVM words (Table 1-8). -/
def essentialActs : List Nat := [0, 1, 2, 3, 4, 5, 6, 7, 8, 9, 10, 11, 12]

/-- What the energy of a WARM B lane is above a DORMANT one's in an epoch. -/
def State.dormantSaves (s : State) : Int := (s.energyOf 0 78125 4 : Int) - s.energyOf 4 1000 1

/-- Step 3 of R493: WARM B lanes of octads under BKP 0b10, highest index first, while the rest is over the allowance; what is over it
then. Log entry 66. -/
def State.shedLanes (s : State) (above : Int) : Nat → State × Int
  | 0 => (s, above)
  | l + 1 =>
    let d := s.dormantSaves
    if 0 < above ∧ 0 < d ∧ l % 2 = 1 ∧ (s.lane l).state = .warm ∧ s.ofld (l / 16) 0x2820 0 2 = 2 ∧ !s.needsBackup (hubOfLane l)
    then State.shedLanes ({ s.makeDormant l with epl := { s.epl with dorm := true } }) (above - d) l
    else State.shedLanes s above l

/-- Lanes made dormant that policy no longer allows to be are woken in every epoch, shed or not (R162). -/
def State.policyWake (s : State) : State :=
  forNat 128 (fun l s =>
    let bkp := s.ofld (l / 16) 0x2820 0 2
    if (s.lane l).state = .dormant ∧ (bkp = 0 ∨ (bkp = 1 ∧ !(s.oct (l / 16)).state.still)) then s.wakeLane l else s) s

/-- A dormant lane that has fitted into the budget for LOWER_EP epochs is woken, one in an epoch (R494). Log entry 66. -/
def State.wakeLanes (s : State) (room : Int) : State :=
  let dormant := (List.range 128).filter fun l => (s.lane l).state == .dormant && s.ofld (l / 16) 0x2820 0 2 == 2
  match dormant with
  | [] => { s with epl := { s.epl with fitRun := 0, dorm := false } }
  | l :: _ =>
    if s.dormantSaves ≤ room then
      let n := s.epl.fitRun + 1
      let s := { s with epl := { s.epl with fitRun := n } }
      if s.fld 0x401004 0 10 ≤ n then s.wakeLane l else s
    else { s with epl := { s.epl with fitRun := 0 } }

/-- Words of NVM that deferrable work is due to program: eight for a staged record, three for a note, two for a COUNT entry, those of a
CSAVE copy and of the writes of partitions under way (R99, R512, R514, R517, R519); while it waits none is written, so the count of
the epoch before would not tell.  The records of a flush are essential (R522). Log entry 66. -/
def State.nvmDue (s : State) : Nat :=
  (if s.bel.flush then 0 else 8 * s.bel.staging.length) + 3 * s.bel.noteDue.length
    + (if s.bel.countAt + 360 * secTicks ≤ s.now then 2 else 0) + (if s.bel.csaveAt + 3600 * secTicks ≤ s.now then 4104 else 0)
    + sumList ((s.bel.writes.filter fun w => w.part != .pset).map fun w => ((s.partBytes w).length + 71) / 8)

/-- Deferrable work is due: words to program, or a sector to erase. -/
def State.deferrableDue (s : State) : Bool := decide (0 < s.nvmDue) || s.bel.erasesNow || !s.bel.reErase.isEmpty || s.bel.countErase.isSome

/-- What each elective item of R493 costs as requested: the eye-scan points with their records, the snapshots, the hub captures, half the
records of the engines; an item without events of its own costs nothing. Log entry 66. -/
def State.electiveCosts (s : State) : List Nat :=
  let bytes := fun kind d => s.energyOf 13 (s.epl.counts.getD (15 + kind) 0) d
  [s.predicted 14 + bytes 3 1, 0, 0, bytes 2 1, 0, bytes 5 1, bytes 1 2]

/-- Step 2 of R493: items are shed in order, each whole, until the rest fits; how many, and the rest. -/
def shedItems (allow : Int) : List Nat → Nat → Nat × Nat
  | [], p => (0, p)
  | c :: r, p =>
    if (p : Int) ≤ allow then (0, p)
    else
      let q := shedItems allow r (p - c)
      (q.1 + 1, q.2)

/-- Every elective item is shed whatever the allowance (R504, Table 16-3). -/
def State.shedsAll (s : State) : Bool := s.epl.enforce || s.sys.dev == .lockout

/-- What the plan predicts for the next epoch: essential energy; whether all of it is over the allowance; whether deferrable work has
waited DEF_MAX; how many elective items are shed, and what is left (R493, R494). -/
structure Plan where
  ess : Nat
  beyond : Bool
  wait : Bool
  items : Nat
  rest : Nat

def State.plan (s : State) (allow : Int) : Plan :=
  let wait := decide (s.fld 0x401004 16 10 * 100 ≤ s.epl.defRun)
  let due := s.energyOf 15 s.nvmDue 1
  let flush := if s.bel.flush then s.energyOf 15 (8 * s.bel.staging.length) 1 else 0
  let ess := sumList (essentialActs.map s.predicted) + flush + (if wait then due else 0)
  let run := ess + s.predicted 13 + s.predicted 14
  let all := if wait then run else run + due
  let beyond := decide (allow < (all : Int))
  let rest := if beyond then run else all
  let r := if s.shedsAll then (7, rest - sumList s.electiveCosts) else shedItems allow s.electiveCosts rest
  ⟨ess, beyond, wait, r.1, r.2⟩

/-- The plan for elective and deferrable work takes effect. -/
def Epl.takePlan (e : Epl) (p : Plan) (due fits : Bool) (above : Bool) : Epl :=
  { e with
    shedTo := p.items
    shed := decide (0 < p.items)
    decUp := if p.items = 7 then min 6 (e.decUp + 1) else e.decUp - 1
    defer := p.beyond && !p.wait
    defRun := if p.beyond && !p.wait && due then e.defRun + 1 else 0
    fitRun := if fits then e.fitRun else 0
    above := above
    overRaised := above }

/-- Step 3 of R493, or its reversal, and what is left of the prediction; under enforcement nothing more is shed (R507). -/
def State.planLanes (s : State) (allow : Int) (rest : Nat) : State × Nat :=
  if s.epl.enforce then (s, rest)
  else if allow < (rest : Int) then
    let q := s.shedLanes ((rest : Int) - allow) 128
    (q.1, (allow + q.2).toNat)
  else (s.wakeLanes (allow - rest), rest)

/-- The decision for the next epoch: prediction, shedding in the order of R493, OVER (R495); enforcement and LOCKOUT shed every elective
item (R504, Table 16-3). Log entry 66. -/
def State.planWork (s : State) (allow : Int) : State :=
  let p := s.plan allow
  let above := decide (allow < (p.ess : Int))
  let fresh := above && !s.epl.overRaised
  let s := { s with epl := s.epl.takePlan p s.deferrableDue (decide ((p.rest : Int) ≤ allow)) above }
  let q := s.policyWake.planLanes allow p.rest
  let s := q.1.setReg 0x401014 (BitVec.ofNat 32 (min (q.2 / (1000 * pj)) 0xFFFFFFFF))
  if fresh then s.raise 0x3701 0 [] else s

/-! ## ENERGY_EPOCH and EPL_CALIBRATION -/

/-- BUDGET × 1 ms: 1 mW over 1 ms is 10^6 pJ; BUCKET in mJ. -/
def State.budgetEnergy (s : State) : Int := (s.fld 0x401000 0 16 : Int) * 1000000 * pj
def State.bucketEnergy (s : State) : Int := (s.fld 0x401000 16 10 : Int) * 1000000000 * pj

/-- Events of the epoch that ends at a tick, by activity: those counted as they happened, core cycles at the clocks that the logic ran
on, microseconds; those of Ethernet ports with a link are the ports' own (Table 16-1). Log entry 69. -/
def State.epochCounts (s : State) (endAt eth : Nat) : List Nat :=
  let x := cyclesOver ((s.clk.since, s.corePeriod.1, s.corePeriod.2) :: s.clk.was) s.epl.epochAt endAt
  let cycles := x.1 / x.2
  (List.range 21).map fun i =>
    match i with
    | 4 | 9 => s.epl.live.get i / 400
    | 6 => cycles * (List.range 8).countP fun n => s.configured n
    | 7 | 8 => cycles
    | 10 => eth
    | 11 | 12 => (endAt - s.epl.epochAt) / 400
    | _ => s.epl.live.get i

/-- ENERGY_EPOCH: every 400,000 ticks.  The device has counted its own events (R487); the microseconds of each Ethernet port with its link
up and the three energies of the rail monitors in picojoules come with the command (R488, R490, R491). Log entries 69, 78 and 84. -/
def execEnergyEpoch (counts : List (BitVec 32)) (core sram ser : BitVec 64) (s : State) : Host.Outcome State Fault Refusal :=
  .next (
    if !s.clk.started then s
    else s.whenDue (s.epl.epochAt + 400000) fun s =>
      let endAt := s.now / 400000 * 400000
      let cs := s.epochCounts endAt (sumList (counts.map (·.toNat)))
      let meas := fun g => pj * (match g with | 0 => core.toNat | 1 => sram.toNat | _ => ser.toNat)
      let act := meas 0 + meas 1 + meas 2 + s.groupEnergy cs 3
      let cf := cs.getD 5 0
      let s := s.setReg 0x401010 (BitVec.ofNat 32 (min (act / (1000 * pj)) 0xFFFFFFFF))
      let s := (s.setReg 0x40101C (BitVec.ofNat 32 cf)).setReg 0x401018
        (BitVec.ofNat 32 (if cf = 0 then 0xFFFFFFFF else min (act / pj / cf) 0xFFFFFFFF))
      let b := clampI (-s.bucketEnergy) s.bucketEnergy (s.epl.carry + s.budgetEnergy - act)
      let s := s.setReg 0x40100C (BitVec.ofInt 32 (b / (1000000 * pj)))
      let s := { s with epl := { s.epl with
        carry := b
        counts := cs
        live := .empty 0
        epochs := s.epl.epochs + 1
        epochAt := endAt
        predE := (List.range 3).foldl (fun t g => t.upd g (· + s.groupEnergy cs g)) s.epl.predE
        actE := (List.range 3).foldl (fun t g => t.upd g (· + meas g)) s.epl.actE } }
      let s := s.countEpoch.planSettings.planWork (s.budgetEnergy + b)
      -- snapshots put off earlier (R109)
      forNat 8 (fun n s => if (s.oct n).snapReq && !s.sheds 3 then s.writeSnapshot n else s) s)

/-- EPL_CALIBRATION: every 1,024 epochs, for each measured group; a group that predicted nothing has no stated quotient, so
that quotient is a free value (log entry 4). -/
def execEplCalibration (s : State) : Host.Outcome State Fault Refusal :=
  .next (
    if s.epl.epochs < 1024 then s
    else
      let s := (List.range 3).foldl (fun s g =>
        let p := s.epl.predE.get g
        let q := if p = 0 then (s.freeNat % 65536 : Int) else rndFrac ((s.scaleOf g : Int) * s.epl.actE.get g) p
        let s := if p = 0 then s.freeNext else s
        let c := clampI 12288 20480 q
        let s := s.setFld (0x401020 + 4 * g) 0 16 c.toNat
        if c = q then s else s.raise 0x3702 g []) s
      { s with epl := { s.epl with epochs := 0, predE := .empty 0, actE := .empty 0 } })

/-! ## Sensors (R496 to R505) -/

def State.sensor (s : State) (i : Nat) : Sensor := s.sensors.get i
def State.updSensor (s : State) (i : Nat) (f : Sensor → Sensor) : State := { s with sensors := s.sensors.upd i f }

/-- The source instance of a sensor in its codes: tile, octad, or the sensor's own number. -/
def sensorSrc (i : Nat) : Nat := if 64 ≤ i ∧ i < 72 then i - 64 else i

/-- The code of a sensor's fault by level: tile, octad, device. -/
def sensorCode (i tile oct dev : Nat) : Nat := if i < 64 then tile else if i < 72 then oct else dev

/-- THM_DEMAND: an essential demand on each sensor named. -/
def State.doThmDemand (s : State) (mask : Nat) : State × Status × Nat :=
  (forNat 76 (fun i s => if mask / 2 ^ i % 2 = 1 then s.updSensor i fun x => { x with demand := true } else s) s, .ok, 0)

/-- SCHEDULED_DEMAND: every SCHED ms for each sensor, elective (R498). -/
def execScheduledDemand (i : Fin 76) (s : State) : Host.Outcome State Fault Refusal :=
  .next (
    if !s.alive || s.sheds 4 then s
    else s.whenDue ((s.sensor i).schedAt + 400000 * s.fld 0x402000 0 10) fun s =>
      s.updSensor i fun x => { x with elective := true, schedAt := s.now })

/-- SENSOR_GATE_START: the demands that wait are merged into one measurement; a tile sensor's gates start at least 1 ms
apart. -/
def execSensorGateStart (i : Fin 76) (s : State) : Host.Outcome State Fault Refusal :=
  let x := s.sensor i
  .next (
    if !s.alive || !(x.demand || x.elective) || x.gate.isSome then s
    else s.whenDue (match x.lastGate with | some t => if i.val < 64 then t + 400000 else 0 | none => 0) fun s =>
      s.updSensor i fun x => { x with
        demand := false, elective := false, gate := some s.now, lastGate := some s.now, spoiled := s.clk.bypassTime.isSome })

/-- C of R497; none for a sensor without two distinct counts. -/
def Sensor.codeOf (x : Sensor) (n : Int) : Option Int :=
  let d := x.n2 - x.n1
  if d = 0 then none
  else
    let num := (n - x.n1) * (x.c2 - x.c1) * (if d < 0 then -1 else 1)
    some (clampI (-32768) 32767 (x.c1 + rndFrac num d.natAbs))

/-- One limit after a valid reading (R500, R501): crossed by two in a row, returned; the answers are the new sensor, whether it
is newly crossed, whether it returned. -/
def Sensor.limit (x : Sensor) (j : Nat) (exceeds back : Bool) : Sensor × Bool × Bool :=
  let b : BitVec 3 := BitVec.ofNat 3 (2 ^ j)
  if x.crossed.getLsbD j then
    if back then ({ x with crossed := x.crossed &&& ~~~b, once := x.once &&& ~~~b }, false, true) else (x, false, false)
  else if exceeds then
    if x.once.getLsbD j then ({ x with crossed := x.crossed ||| b, once := x.once &&& ~~~b }, true, false)
    else ({ x with once := x.once ||| b, demand := true }, false, false)
  else ({ x with once := x.once &&& ~~~b }, false, false)

/-- The reaction of a crossing (Table 16-2); a throttle request starts the grace time (R503, R505). -/
def State.crossing (s : State) (i j : Nat) : State :=
  let src := sensorSrc i
  match j with
  | 0 => s.raise (sensorCode i 0x1901 0x2601 0x3703) src []
  | 1 =>
    let s := s.raise (sensorCode i 0x1902 0x2602 0x3704) src []
    if i < 64 ∨ s.epl.enforce ∨ s.epl.grace.isSome then s
    else { s with epl := { s.epl with grace := some (s.now + 400000 * s.fld 0x402008 0 10, i) } }
  | _ => s.shutNvm.raise (sensorCode i 0 0x2603 0x3705) src []

/-- One limit of a sensor is evaluated, with its reaction. -/
def State.judge (s : State) (i j : Nat) (exceeds back : Bool) : State :=
  let r := (s.sensor i).limit j exceeds back
  let s := s.updSensor i fun _ => r.1
  let s := if r.2.1 then s.crossing i j else s
  if r.2.2 then s.raise 0x370A i [] else s

/-- The limits of a sensor after a valid reading of code c at measurement tick m. -/
def State.judgeAll (s : State) (i : Nat) (c : Int) (m : Nat) : State :=
  if 64 ≤ i then
    (List.range 3).foldl (fun s j =>
      let x : Int := 8 * s.fld 0x402004 (8 * j) 8
      s.judge i j (decide (x < c)) (decide (c ≤ x - 24))) s
  else
    let y := s.sensor i
    if !y.prevValid then s
    else
      let dc := (c - y.prevCode) * 50000000
      let dt : Int := (m : Int) - y.prevTick
      let h : Int := s.fld 0x40200C 20 10
      (List.range 2).foldl (fun s j =>
        let r : Int := s.fld 0x40200C (10 * j) 10
        s.judge i j (decide (r * dt < dc)) (decide (dc ≤ (r - h) * dt))) s

/-- Whether a THROT condition of an octad or device sensor is crossed. -/
def State.throttled (s : State) : Bool := s.sensors.ents.any fun e => decide (64 ≤ e.1) && e.2.crossed.getLsbD 1

/-- No THROT condition left: a request is cancelled, enforcement ends with THM_RELEASE (R503, R504). -/
def State.throttleEnd (s : State) : State :=
  if s.throttled then s
  else
    let s := { s with epl := { s.epl with grace := none } }
    if s.epl.enforce then ({ s with epl := { s.epl with enforce := false, src := 0x7F } }).raise 0x3709 0 [] else s

/-- A valid reading. Log entry 68. -/
def State.validReading (s : State) (i : Nat) (c : Int) (m : Nat) : State :=
  let s := s.updSensor i fun x => { x with code := c, valid := true, stale := false, failed := false, invalid := 0, last := s.now }
  let s := s.judgeAll i c m
  (s.updSensor i fun x => { x with prevTick := m, prevCode := c, prevValid := true }).throttleEnd

/-- An invalid reading; the third in a row marks the sensor failed (R497). -/
def State.invalidReading (s : State) (i : Nat) : State :=
  let n := (s.sensor i).invalid + 1
  let s := s.updSensor i fun x => { x with invalid := n, failed := x.failed || decide (3 ≤ n) }
  if n = 3 then s.raise (sensorCode i 0x1904 0x2605 0x3707) (sensorSrc i) [] else s

/-- SENSOR_RESULT: 2 µs after the end of the 40 µs gate; a gate that overlaps a bypass interval of the timebase is measured
again at once (Table 16-3). Log entry 94. -/
def execSensorResult (i : Fin 76) (count : Word) (s : State) : Host.Outcome State Fault Refusal :=
  let x := s.sensor i
  .next (match x.gate with
    | none => s
    | some g => s.whenDue (g + 16800) fun s =>
      let s := s.updSensor i fun x => { x with gate := none, spoiled := false }
      if x.spoiled then s.updSensor i fun x => { x with demand := true }
      else match x.codeOf count.toNat with
        | some c =>
          if -480 ≤ c ∧ c ≤ 1200 then s.validReading i c (g + 8000)
          else s.invalidReading i
        | none => s.invalidReading i)

/-- STALENESS_TIMEOUT: T_STALE ms after the result of the last valid reading; a result on that tick still withdraws it (R499).
Log entry 68. -/
def execStalenessTimeout (i : Fin 76) (s : State) : Host.Outcome State Fault Refusal :=
  let x := s.sensor i
  .next (
    if !x.valid || x.stale then s
    else s.whenDue (x.last + 400000 * s.fld 0x402000 10 10 + 1) fun s =>
      (s.updSensor i fun x => { x with stale := true, demand := true }).raise (sensorCode i 0x1903 0x2604 0x3706) (sensorSrc i) [])

/-- GRACE_TIME_END: with a THROT condition still crossed the throttle is enforced: every elective item is shed, DEC_EFF
raised by one (R503, R504). -/
def execGraceTimeEnd (s : State) : Host.Outcome State Fault Refusal :=
  .next (match s.epl.grace with
    | none => s
    | some (t, i) => s.whenDue t fun s =>
      let s := { s with epl := { s.epl with grace := none } }
      if s.throttled then
        let s := { s with epl := { s.epl with enforce := true, src := BitVec.ofNat 7 i, decUp := min 6 (s.epl.decUp + 1) } }
        (s.raise 0x3708 i []).planSettings
      else s)

end Sys2Proof.Machine
end

