-- ==== Sys2Proof/Machine/Deblock.lean ====
section
/-! DEFINITION. Leaving and re-entering Blocked (R62, R111, R125, R136, R540 to R545): Deblock with its checks, BLOCK, Run-down,
and the other octad descriptors on cells (R60, R109, R204). -/

namespace Sys2Proof.Machine

/-! ## The checks of Table 18-6 -/

/-- Settings that a write holds until the octad's next frame boundary (Table 2-5, R110). -/
def State.holdSettings (s : State) (n : Nat) (o : Octad) : Octad :=
  let a := octBase n
  { o with selCtrl := s.reg (a + 0x2000), selIsign := s.reg (a + 0x2004), selSrc := s.reg (a + 0x2008), selVnom := s.reg (a + 0x200C) }

/-- The octad's settings as the frame of execution has them: those adopted when that frame has begun, else those written,
which its boundary adopts (Table 2-5). -/
def State.settingsAhead (s : State) (n : Nat) : Octad :=
  let o := s.oct n
  match o.epochs with
  | e :: _ => if s.fr.epoch ≤ e then o else s.holdSettings n o
  | [] => s.holdSettings n o

/-- Check 0x03: N_C against N_min, where a self-blocked cell whose hub sees the loop closed counts; NOMINAL without V_NOM. -/
def State.cellsShort (s : State) (n : Nat) : Bool :=
  let nc := (s.octCells n).countP fun c =>
    let x := s.cell c
    !x.retired && s.hasPath (c / 64) && (x.fault == 0 || (x.fault == 0xE0 && !x.fb.status.getLsbD 4))
  let o := s.settingsAhead n
  decide (nc < s.nMin n) || (o.basis == 1 && o.vNom == 0)

/-- Constraints 1, 2, 3 and 5 of R37 for the timeline in force; 0.5 µs are 200 ticks. -/
def State.timelineOk (s : State) (n : Nat) : Bool :=
  let tl := (s.oct n).tl
  decide (4 ≤ tl.tfb) && decide (tl.tfb < tl.ted) && decide (tl.ted < tl.td) && decide (tl.td < tl.thr)
    && (match (s.eng n).loaded with | some g => s.withinTicks g.cx 20 (50 * (tl.ted - tl.tfb)) | none => true)
    && s.withinTicks 400 0 (50 * (tl.td - tl.ted))
    && decide (50 * tl.thr + 200 ≤ s.tfTicks + 50 * tl.tle)

/-- Check 0x05: the timeline, and constraint 4 with the feedback constraint for every lane that carries a hub. -/
def State.timingOk (s : State) (n : Nat) : Bool :=
  s.timelineOk n && (List.range 8).all fun i => match s.servingLane (8 * n + i) with
    | some l => s.laneCmdOk l (s.lane l).speed && s.laneFbOk l (s.lane l).speed
    | none => true

/-- Check 0x06 (R125): 2 m > G for a populated cell's type. -/
def State.typesOk (s : State) (n : Nat) : Bool :=
  !(s.settingsAhead n).trimEn || (s.octCells n).all fun c => decide (2 * s.cellMin c ≤ 16 * s.tfTicks)

/-- Check 0x07 (R136). -/
def State.tripsClear (s : State) (n : Nat) : Bool :=
  (List.range 16).all fun m => !((s.trips.get m).latch && bitOf (s.fld (0x308404 + 8 * m) 24 8) n)

/-- The B lanes of an octad that a Deblock needs under BKP 0b00 and 0b01 (R162): all but those RETIRED and those OFF on an
unusable tile or lane quad. Log entry 77. -/
def State.neededB (s : State) (n : Nat) : List Nat :=
  if 2 ≤ s.ofld n 0x2820 0 2 then []
  else ((List.range 8).map fun i => 16 * n + 2 * i + 1).filter fun l =>
    (s.lane l).state != .retired && !((s.lane l).state == .off && !s.laneUsable l)

/-- A B lane is ready when it is WARM, or ACTIVE with its sibling's hub. Log entry 77. -/
def State.bReady (s : State) (l : Nat) : Bool := (s.lane l).state == .warm || ((s.lane l).state == .active && (s.lane l).serving)

/-- Check 0x09 (R203): every hub with a path has TLOCK on its serving lane. -/
def State.hubsLocked (s : State) (n : Nat) : Bool :=
  (List.range 8).all fun i =>
    let t := 8 * n + i
    s.hubCells t == 0 || !s.hasPath t || (match s.servingLane t with | some l => (s.lane l).tlock | none => false)

/-- Check 0x0A (R207). -/
def State.hubsChecked (s : State) (n : Nat) : Bool :=
  (List.range 8).all fun i =>
    let t := 8 * n + i
    s.hubCells t == 0 || ((s.tiles.get t).enumerated && !(s.enumChecks t).any id)

/-- Check 0x0B (R237). -/
def State.ledgerChannelsOk (s : State) (n : Nat) : Bool :=
  match (s.eng n).loaded with
  | none => false
  | some g =>
    let is := fun (c i : Nat) => match g.chans[c]? with | some x => x.kind == 1 && x.src == 3 && x.index.toNat == i | none => false
    is (s.ofld n 0x240C 0 6) 0 && is (s.ofld n 0x240C 8 6) 1
      && (List.range 8).all fun j => !(g.isInput (56 + j) && ((s.eng n).mbox.get (56 + j)).stale)

/-- The block of the octad and the blocks that every octad shares (check 0x0E). -/
def State.blocksUsable (s : State) (n : Nat) : Bool :=
  s.sys.usable (0x2000 + n) && (List.range 4).all (fun c => s.sys.usable (0x3000 + c))
    && (List.range 11).all fun g => s.sys.usable (0x4000 + g)

/-- DBERR of the first check that fails, 0 for none; none when only the wait for B lanes is left open at check 0x08. -/
def State.deblockErr (s : State) (n : Nat) : Option Nat :=
  if s.ps.profile = .none then some 0x01
  else if (s.eng n).loaded.isNone then some 0x02
  else if s.cellsShort n then some 0x03
  else if !s.scaleSet n then some 0x04
  else if !s.timingOk n then some 0x05
  else if !s.typesOk n then some 0x06
  else if !s.tripsClear n then some 0x07
  else if !((s.neededB n).all fun l => s.takeoverOk l) then some 0x08
  else if !((s.neededB n).all fun l => s.bReady l) then none
  else if !s.hubsLocked n then some 0x09
  else if !s.hubsChecked n then some 0x0A
  else if !s.ledgerChannelsOk n then some 0x0B
  else if s.loopDisabled n then some 0x0C
  else if (s.sensor (64 + n)).failed then some 0x0D
  else if !s.blocksUsable n then some 0x0E
  else some 0

/-- A BIST segment of a block that concerns the octad runs (Table 18-8). -/
def State.bistOn (s : State) (n : Nat) : Bool :=
  match s.sys.bist.blocks with
  | b :: _ => s.sys.bist.busy && bitOf (s.bistOctads b) n
  | [] => false

/-! ## Deblock -/

/-- DBERR shows the check that a Deblock fails; a hub in one of the first three cases of R207 raises ENUM_CHECK, its lane the
source. -/
def State.showRefusal (s : State) (n code : Nat) : State :=
  let s := s.updOct n fun o => { o with dberr := BitVec.ofNat 8 code }
  if code = 0x0A then
    forNat 8 (fun i s =>
      let t := 8 * n + i
      if s.hubCells t == 0 then s else s.raiseEnumChecks ((s.servingLane t).getD (2 * t))) s
  else s

/-- A Deblock that has waited is refused: its descriptor completes with STATE. Log entry 96. -/
def State.refuseDeblock (s : State) (n code : Nat) : State :=
  ((s.updOct n fun o => { o with deb := .none }).showRefusal n code).finishWaiting (.dispatch n) .state 0

/-! ## Deblock takes effect (R542) -/

/-- C0_UNSET at an accepted Deblock with candidates whose C0 is unset (R106). -/
def State.c0Unset (s : State) (n : Nat) : State :=
  let cs := (s.octCells n).filter fun c => (s.cell c).isCand (s.hasPath (c / 64)) && (s.cell c).c0 == 0xFFFFFFFF
  match cs with
  | [] => s
  | c :: _ => s.raise 0x1504 n (leBytes 2 cs.length ++ leBytes 2 c)

/-- At E(k) of its frame of execution the octad takes its TARGET state; every history starts anew, selection starts with frame
k + 2 (R61, R68, R542). Log entry 61. -/
def State.deblockEnter (s : State) (n : Nat) (target : OctState) : State :=
  let s := s.mapOctCells n fun c => { c with
    ins := false, exHigh := false, exLow := false, hiNow := false, loNow := false, hiSel := false, loSel := false, obh := false, obl := false,
    sawFault := false }
  let s := s.updOct n fun o => { o with
    state := target, sign := .zero, discharge := false, iCode := 0, iPrev := 0, selIn := 2, fresh := true, carry := 0, lateRun := 0,
    window := 0, counted := false }
  (s.c0Unset n).settleDev

/-- E(k) of the frame of execution: an octad in debug halt, whose frames carry HOLD only (R137), and one that a Deblock that
waited for B lanes finds changed since its checks (R38, R541) are refused. Log entries 96 and 76. -/
def State.deblockAt (s : State) (n : Nat) (target : OctState) : State :=
  if s.sys.halt then s.refuseDeblock n (s.oct n).dberr.toNat
  else match s.deblockErr n with
    | some 0 => s.deblockEnter n target
    | some c => s.refuseDeblock n c
    | none => s.refuseDeblock n 0x08

/-- The frame whose boundary comes next for an octad, the present one while its epoch is still ahead. -/
def State.nextFrame (s : State) (n : Nat) : Word :=
  match (s.oct n).epochs with
  | t :: _ => if s.fr.epoch ≤ t then s.fr.k + 1 else s.fr.k
  | [] => s.fr.k

/-- DEBLOCK at its frame of execution k (R540, R541): the status when it ends at once, none while its descriptor waits for the dispatch of frame k,
or for B lanes first (R162, R543). From Charging to Running there is nothing to check but the loop (R420) and nothing to release, and C0_UNSET,
raised at the Deblock from Blocked, is not raised again (DESIGN CHOICE). In debug halt the octad's frames carry HOLD only (R137), and a Deblock from
Blocked completes with STATE (DESIGN CHOICE). Log entry 76. -/
def State.doDeblock (s : State) (n : Nat) (target : Byte) : State × Option Status :=
  let o := s.oct n
  let t : OctState := if target = 1 then .charging else .running
  if o.state = .charging ∧ t = .running then
    if s.loopDisabled n then (s.showRefusal n 0x0C, some .state)
    else ((s.updOct n fun o => { o with state := .running }), some .ok)
  else if o.state ≠ .blocked ∨ o.deb ≠ .none ∨ s.bistOn n ∨ s.sys.halt then (s, some .state)
  else match s.deblockErr n with
    | some 0 =>
      let taken := match o.epochs with | e :: _ => decide (s.fr.epoch ≤ e) | [] => false
      let s := s.updOct n fun o => { o with deb := .armed t s.fr.k }
      (if taken then s.deblockEnter n t else s, none)
    | some c => (s.showRefusal n c, some .state)
    | none =>
      let s := (s.neededB n).foldl (fun s l => s.wakeLane l) s
      (s.updOct n fun o => { o with deb := .waitB t s.now }, none)

/-- DEBLOCK_B_LANES_WARM: every B lane that the waiting Deblock needs is WARM; it is checked again and executes at the octad's
next frame boundary.  T_WAKE, 900 µs, ends the wait with DBERR 0x08. Log entry 96. -/
def execDeblockBLanesWarm (n : Fin 8) (s : State) : Host.Outcome State Fault Refusal :=
  .next (match (s.oct n).deb with
    | .waitB t since =>
      if since + 360000 < s.now then s.refuseDeblock n 0x08
      else match s.deblockErr n with
        | none => s
        | some 0 => s.updOct n fun o => { o with deb := .armed t (s.nextFrame n) }
        | some c => s.refuseDeblock n c
    | _ => s)

/-! ## BLOCK, RUNDOWN, cells, snapshot -/

/-- BLOCK: the immediate BLOCK of R133 to the octad's hubs, and the octad to Blocked. Log entry 46. -/
def State.doBlock (s : State) (n : Nat) : State × Status × Nat := (s.toBlocked n, .ok, 0)

/-- RUNDOWN: a Charging or Running octad enters Run-down, STATE otherwise. -/
def State.doRundown (s : State) (n : Nat) : State × Status × Nat :=
  if (s.oct n).state = .charging ∨ (s.oct n).state = .running then (s.enterRundown n, .ok, 0) else (s, .state, 0)

/-- OCT_RD_TIMEOUT: T_RD, in 0.1 s, has passed since the entry into Run-down (R545). -/
def execOctRdTimeout (n : Fin 8) (s : State) : Host.Outcome State Fault Refusal :=
  .next (
    if (s.oct n).state ≠ .rundown then s
    else s.whenDue ((s.oct n).rdEntry + 40000000 * s.ofld n 4 16 7 + 1) fun s => (s.raise 0x2504 n []).toBlocked n)

/-- CELL_QUERY: the entry waits for a dispatch; STATE for a slot that has no entry (R78, R204). -/
def State.doCellQuery (s : State) (n c : Nat) : State × Option Status :=
  if (s.oct n).state = .unconfigured ∨ !(s.cell c).populated ∨ (s.servingLane (c / 64)).isNone then (s, some .state) else (s, none)

/-- CELL_RETIRE: RESULT [0] is 1 when R107 fenced the octad instead. -/
def State.doCellRetire (s : State) (c : Nat) : State × Status × Nat :=
  let fence := (s.cell c).populated && !(s.cell c).retired && !s.keepsNmin (c / 512) [c]
  (s.retireCell c 0, .ok, bit fence)

/-- LDG_SNAPSHOT (R109). -/
def State.doSnapshot (s : State) (n : Nat) : State × Status × Nat := (s.requestSnapshot n, .ok, 0)

end Sys2Proof.Machine
end

