-- ==== Sys2Proof/Machine/Frame.lean ====
section
/-! DEFINITION. The cell frame (chapter 1): base frames and octad epochs, the latches at T_FB, the engine deadline with the
start of the selection, the station engine's times, the timeline, the frame origin. -/

namespace Sys2Proof.Machine

/-! ## FEEDBACK_DEADLINE (R57 to R59, R64, R67 to R70, R89 to R94, R386) -/

/-- A takeover of the hub of tile t by its B lane is under way (R159, R161, R164). -/
def State.takingOver (s : State) (t : Nat) : Bool :=
  let b := s.lane (2 * (t ^^^ 1) + 1)
  s.needsBackup t && (b.state == .wake || (b.state == .step && b.proc == .takeover))

/-- Feedback of each hub that a lane serves (R43): a frame without it is a miss, but for a takeover (R165). -/
def State.hubFeedback (s : State) (n : Nat) : State :=
  forNat 8 (fun i s =>
    let t := 8 * n + i
    let s := if (s.servingLane t).isNone || s.hubCells t == 0 || s.takingOver t then s
      else if (s.tiles.get t).fbSeen then { s with tiles := s.tiles.upd t fun x => { x with missed := 0 } }
      else s.missedFeedback t
    { s with tiles := s.tiles.upd t fun x => { x with fbSeen := false } }) s

/-- The latch of a cell's feedback image (Table 2-1, R43): the last accepted values, stale when this frame brought none. -/
def Cell.latch (c : Cell) (path : Bool) : Cell :=
  { c with
    vOld := c.v, staleOld := c.stale, candOld := c.cand,
    v := c.fb.v, stale := !c.fb.fresh, fault := c.fb.fault, retL := c.retired,
    cand := { c with fault := c.fb.fault }.isCand path,
    fb := { c.fb with fresh := false } }

/-- The retry budget of a cell at a latch (Table 12-6, R387): an occurrence is a non-zero code after a latch that saw zero;
code 0xE0 uses nothing up; a covered hit is not counted (R391).  A budget that has run out starts anew. Log entry 70. -/
def State.cellBudget (s : State) (c : Nat) : State :=
  let x := s.cell c
  if x.retired || !x.populated then s
  else
    let hit := x.fault != 0 && x.fault != 0xE0
    let first := hit && !x.sawFault
    let covered := s.covered 0x2503 c
    let win := 40000000 * s.fld 0x200024 8 7
    let occ := if first && !covered then (x.occ.filter fun t => s.now < t + win) ++ [s.now] else x.occ
    let run := if !hit then 0 else if covered then x.persist else x.persist + 1
    let out := (first && decide (s.fld 0x200024 0 4 < occ.length)) || (hit && !covered && decide (s.fld 0x200024 16 16 ≤ run))
    let s := s.updCell c fun x => { x with
      sawFault := x.fault != 0, occ := if out then [] else occ, persist := if out then 0 else run }
    let s := if first then s.raise 0x2503 c [x.fault] else s
    if out && !covered then s.retireCell c 0x2503 else s

/-- I of R58: the engine input value on channel I_CH of the sample that starts at this latch; zero without a graph.
Log entry 71. -/
def State.armCurrent (s : State) (n : Nat) : Int :=
  let c := (s.oct n).iCh
  match (s.eng n).graph with
  | none => 0
  | some g =>
    let w := (s.eng n).chanWord g c
    currentCode (if privChan c then BF.ofQ15 (sext 16 w.toNat) else BF.ofWord w).ex

/-- The octad's part of the latch: current and sign state (R67, R68), candidates and mean (R59, R64), band (R69, R70).
The first latch after a Deblock in a frame whose selection runs starts from ZERO, I(k−1) = 0 and CHARGE. Log entry 61. -/
def State.octLatch (s : State) (n : Nat) : State :=
  let i := s.armCurrent n
  let cs := (s.octCells n).filter fun c => (s.cell c).cand
  let vbar := meanCode (cs.foldl (fun a c => a + (s.cell c).v) 0) cs.length
  let s := s.updOct n fun o =>
    let fresh := o.fresh && o.selIn == 0
    let st := nextSign (if fresh then .zero else o.sign) i (if fresh then 0 else o.iCode) o.iDb o.iHys
    { o with fresh := o.fresh && !fresh, iPrev := o.iCode, iCode := i, sign := st, discharge := nextDir (o.discharge && !fresh) st,
             ncand := cs.length,
             vbar := vbar, dv := vbar * o.bandPm / 1000 }
  let o := s.oct n
  s.mapOctCells n fun c => c.band o.vbar o.dv

/-- A selection of an earlier frame whose commit at cycle 279 lies before this latch has raised TC by then (Table 2-4, R79). -/
def State.earlyTc (s : State) (n tick : Nat) : State :=
  let o := s.oct n
  if o.selRunning && !o.selReset && !o.tcDone && o.selInTime && s.coreRan o.selAt tick 280 then s.commitTc n else s

/-- The ledger's part of the latch (R89 to R96, R101, R103): the interval that ends with this frame's epoch, the window's
count, the arithmetic of an ended window, the energies.  It goes on in debug halt, where no sample latches a current: an
interval that touches a halted frame has none and does not qualify. Log entry 72. -/
def State.ledgerLatch (s : State) (n : Nat) : State :=
  let s := (s.ledgerWindowEnd n).ledgerEndTc n
  let o := s.oct n
  let counted := o.state.active && s.scaleSet n && decide (o.selIn ≤ 1)
  let s := if counted && o.window == 0 then s.startWindow n else s
  let s := s.updOct n fun o => { o with
    iLedPrev := o.iLed, iLed := if o.halted then 0 else o.iCode,
    countedPrev := o.counted, counted := counted, window := if counted then o.window + 1 else o.window,
    arithFrames := o.arithFrames + 1 }
  let o := s.oct n
  let s := match o.epochs with
    | stop :: start :: _ =>
      s.mapOctCells n fun c => c.ledgerLatch start stop o.iLedPrev o.iLed o.winImin (o.countedPrev && o.counted) (!o.disturbedPrev)
    | _ => s
  let s := if o.arithPending && decide (64 ≤ o.arithFrames) then s.ledgerArithmetic n else s
  s.formEnergy n

/-- FEEDBACK_DEADLINE: at E(k) + T_FB of the oldest frame not yet latched.  The engine's sample starts with what the latch of
frame k − 1 formed (R104); in debug halt feedback and the ledger go on, engine and selection do not (R137, R138).  TC is
latched once a window that starts here has cleared it (Tables 2-1 and 2-5).  The corrected reads of the octad's tile memories
since the last latch are counted (R34; log entry 25). -/
def execFeedbackDeadline (x : OctLatch) (s : State) : Host.Outcome State Fault Refusal :=
  let n := x.n
  let o := s.oct n
  .next (
    if !s.alive || o.state == .unconfigured then s
    else match o.toLatch with
    | [] => s
    | f :: _ => s.whenDue (frameAt f.2 o.tl.tfb) fun s =>
      let s := x.ecc.foldl (fun s r => s.countCorrected (8 * n.val + r.tile.val) r.reads.toNat) s
      let s := (s.updOct n fun o => { o with toLatch := o.toLatch.tail }).earlyTc n (frameAt f.2 o.tl.tfb)
      let s := s.hubFeedback n
      let s := { s with cells := s.cells.mapAll fun i c => if i / 512 = n then c.latch (s.hasPath (i / 64)) else c }
      let s := (s.octCells n).foldl (fun s c => s.cellBudget c) s
      let s := if (s.oct n).halted then s
        else ((s.startSample n f (frameAt f.2 o.tl.tfb)).updOct n fun o => { o with
          statN := o.nins, statF := o.levelF }).octLatch n
      ((s.ledgerLatch n).mapOctCells n fun c => { c with tcL := c.tc }).updOct n fun o => { o with
        latchAt := some (frameAt f.2 o.tl.tfb) })

/-! ## ENGINE_DEADLINE (R57, R75, R85, R241, R545) -/

/-- CYC_CH has gone from negative to zero or positive: the live counters are latched and cleared (R85). -/
def State.cycleLatch (s : State) (n : Nat) : State :=
  let o := s.oct n
  let neg := match (s.eng n).graph with
    | none => false
    | some g =>
      let w := (s.eng n).chanWord g o.cycCh
      decide ((if privChan o.cycCh then sext 16 w.toNat else (BF.ofWord w).m) < 0)
  let a := octBase n
  let s := if o.cycNeg && !neg then
      ((((s.setReg (a + 0x2014) (satWord o.liveLB)).setReg (a + 0x2018) (satWord o.liveTR)).setReg (a + 0x201C)
        (satWord o.liveSW)).setReg (a + 0x2020) (satWord o.liveEX)).updOct n fun o => { o with
          liveLB := 0, liveTR := 0, liveSW := 0, liveEX := 0 }
    else s
  s.updOct n fun o => { o with cycNeg := neg }

/-- Run-down ends at the commit in which RD_CH changes from zero or negative to positive (R545). -/
def State.rundownEnd (s : State) (n : Nat) (before : BF) : State :=
  let after := (s.eng n).outBF (s.ofld n 4 0 6)
  if (s.oct n).state = .rundown ∧ before.m ≤ 0 ∧ 0 < after.m then s.toBlocked n else s

/-- The selection of the frame (number and epoch) starts at its T_ED: x and S_prev are latched (Table 2-1, R75), and with them all that it decides
is fixed; the level stage sets LEVEL_SAT and REF_NEG (R63, R65). It does not start before the second frame after a Deblock (R542), nor while an
earlier one neither completes nor is reset. -/
def State.selectionStart (s : State) (n : Nat) (f : Word × Nat) : State :=
  let o := s.oct n
  if o.state.active && o.selIn == 0 && !(o.selRunning && !o.selReset) then
    let s := (s.mapOctCells n Cell.takeFlags).updOct n fun o => { o with
      x := (s.eng n).outBF o.refCh, selRunning := true, selReset := false, selSlow := false, tcDone := false, selAt := s.now,
      selFrame := f.1 }
    let p := s.selectPlan n f.2
    let s := s.updOct n fun o => { o with plan := p }
    let s := if p.sat then s.flag (octBase n + 0x2010) 3 else s
    if p.neg then s.flag (octBase n + 0x2010) 4 else s
  else s

/-- The engine deadline of an octad: at E(k) + T_ED of the oldest frame not yet there the sample commits or overruns, then the
selection starts. -/
def State.octadDeadline (s : State) (n : Nat) (reads : List BlockReads) : State :=
  let o := s.oct n
  if o.state == .unconfigured then s
  else match o.toCommit with
  | [] => s
  | f :: _ => s.whenDue (frameAt f.2 o.tl.ted) fun s =>
    let tick := frameAt f.2 o.tl.ted
    let s := (s.updOct n fun o => { o with toCommit := o.toCommit.tail }).updEng n Engine.oldestFirst
    let ran := (s.eng n).running
    let rd := (s.eng n).outBF (s.ofld n 4 0 6)
    let s := s.engineDeadline n reads tick
    let s := if ran && (s.eng n).committed && (s.eng n).commitTick == tick then (s.modeCommitted n).rundownEnd n rd else s
    (s.cycleLatch n |>.updEng n Engine.latestAgain).selectionStart n f

/-- ENGINE_DEADLINE, with the reads of the octad's memory that needed a correction since the last one: those of the sample's blocks,
which delay them (R244), and `other` ones, which do not; all are counted (R34). Log entry 25. -/
def execEngineDeadline (n : Fin 8) (reads : List BlockReads) (other : BitVec 16) (s : State) : Host.Outcome State Fault Refusal :=
  .next (if !s.alive then s else (s.countReads n reads other).octadDeadline n reads)

/-! ## OCTAD_EPOCH (R39, R46) -/

/-- The frames whose events of one kind are still to come, with one more; the epochs that R210 keeps bound them. -/
def moreFrames (q : List (Word × Nat)) (f : Word × Nat) : List (Word × Nat) := (q ++ [f]).drop (q.length - 16)

/-- The frame f of an octad begins: its latch, deadline and dispatch lie ahead (R35), beside those of earlier frames that
T_FB, T_ED or T_D put after it.  An octad in debug halt runs no engine and no selection from here; a sample under way ends
without a commit and without an overrun (R137, Table 7-11; log entry 31). -/
def State.beginFrame (s : State) (n : Nat) (f : Word × Nat) : State :=
  let halt := s.sys.halt
  let s := if halt then s.updEng n fun e => { e with running := false, older := [] } else s
  s.updOct n fun o =>
    let off := o.state == .unconfigured
    s.holdSettings n { o with
      frame := f.1, epoch := f.2, epochs := (f.2 :: o.epochs).take 16,
      toLatch := if off then [] else moreFrames o.toLatch f,
      toCommit := if off || halt then [] else moreFrames o.toCommit f,
      toSend := if off then [] else moreFrames o.toSend f,
      late := false, disturbedPrev := o.disturbed, disturbed := false, halted := halt,
      selRunning := o.selRunning && !halt, selIn := o.selIn - 1 }

/-- OCTAD_EPOCH: E_n(k) = E_B(k) + φ begins frame k of the octad, once in a base frame.  Lanes take or give back a hub's
traffic here (R29, R159), a Deblock of this frame takes effect, debug halt and release hold from here (R137, R139). -/
def execOctadEpoch (n : Fin 8) (s : State) : Host.Outcome State Fault Refusal :=
  let o := s.oct n
  let e := s.fr.epoch + o.tl.phase
  .next (
    if !s.alive || (match o.epochs with | t :: _ => decide (s.fr.epoch ≤ t) | [] => false) then s
    else s.whenDue e fun s =>
      let s := s.beginFrame n (s.fr.k, e)
      let s := forNat 8 (fun i s => (s.takeTraffic (8 * n.val + i)).checkTakeover (8 * n.val + i)) s
      match (s.oct n).deb with
      | .armed target f =>
        if f = s.fr.k then s.deblockAt n target
        else if (s.oct n).toSend.any fun g => g.1 == f then s
        else s.updOct n fun o => { o with deb := .none }
      | .waitB _ since => if since + 360000 ≤ s.now then s.refuseDeblock n 0x08 else s
      | .none => s)

/-! ## BASE_FRAME_BOUNDARY (R44, R216, R283, R298, R326) -/

/-- TS_EPERR: device time at E_B(k) less the origin's time and k frames, in nanoseconds (R326). Log entry 75. -/
def State.epochError (s : State) : State :=
  let d : Int := (s.time.dt : Int) - ((s.now - s.fr.epoch) * s.dtStep : Nat) - (s.time.orgBase + s.fr.k.toNat * s.tfTicks * tickDt : Nat)
  s.setReg 0x30006C (BitVec.ofInt 32 (clampI (-(2 ^ 31)) (2 ^ 31 - 1) (rndFrac d nsUnit)))

/-- T_SS and T_SDL in force, in ticks. -/
def FrameSt.tss (f : FrameSt) : Nat := 50 * field f.stime.toNat 8 8
def FrameSt.tsdl (f : FrameSt) : Nat := 50 * field f.stime.toNat 16 16

/-- The sample of the base frame in progress, with its start. -/
def FrameSt.due (f : FrameSt) : Word × Nat := (f.k, f.epoch + f.tss)

/-- The station's count of base frames: a sample every M of them, the first in the first one after a load (R216); in debug halt
none (R137). -/
def State.stationCount (s : State) : State :=
  let m := max 1 (field s.fr.stime.toNat 0 7)
  if (s.eng 8).loaded.isNone then { s with fr := { s.fr with stationDue := none } }
  else { s with fr := { s.fr with
    stationDue := if s.sys.halt then none else if s.fr.stationCount % m = 0 then some s.fr.due else s.fr.stationDue,
    stationCount := s.fr.stationCount + 1 } }

/-- The deadline of the station sample under way (R216, R241). -/
def State.stationEnd (s : State) (reads : List BlockReads) : State :=
  let tick := s.fr.stationDl
  let s := s.engineDeadline 8 reads tick
  if (s.eng 8).committed ∧ (s.eng 8).commitTick = tick then s.modeCommitted 8 else s

/-- A station deadline at or before a tick comes before what the tick itself brings (R241, R283); one that its own command has not
carried out yet knows of no corrected read. Log entry 25. -/
def State.stationBefore (s : State) (tick : Nat) : State :=
  if (s.eng 8).running && decide (s.fr.stationDl ≤ tick) then s.stationEnd [] else s

/-- The frame of E_B has begun: the station's count, the set-point queues, mode entries, the check of the epoch, a halt
(R44, R216, R283, R298, R326). -/
def State.baseFrame (s : State) : State := (s.stationCount.queueStep.modeArm.epochError).haltOutputs

/-- BASE_FRAME_BOUNDARY: the latest E_B(k) reached; frames that passed with no boundary commanded are counted.
Log entry 74. -/
def execBaseFrameBoundary (s : State) : Host.Outcome State Fault Refusal :=
  .next (
    if !s.alive then s
    else s.whenDue (s.fr.epoch + s.tfTicks) fun s =>
      let m := (s.now - s.fr.epoch) / max 1 s.tfTicks
      let s := s.stationBefore (s.fr.epoch + m * s.tfTicks)
      ({ s with fr := { s.fr with k := s.fr.k + BitVec.ofNat 32 m, epoch := s.fr.epoch + m * s.tfTicks } }).baseFrame)

/-! ## TIMELINE_TAKES_EFFECT (R39, R217) -/

/-- The timeline fields of an octad as written. Log entry 73. -/
def State.writtenTimeline (s : State) (n : Nat) (tl : Timeline) : Timeline :=
  let a := octBase n
  { tl with
    tfb := s.fld (a + 8) 0 10, ted := s.fld (a + 8) 16 10, td := s.fld (a + 0xC) 0 10, thr := s.fld (a + 0xC) 16 10,
    tle := s.fld (a + 0xC) 28 4 }

/-- TIMELINE_TAKES_EFFECT: at a base frame boundary, with every configured octad Blocked or Unconfigured, T_F, every phase and
CE_STIME; at the frame boundary of an octad that is Blocked or Unconfigured its other fields.  A change of M restarts the
station's count. Log entry 73. -/
def execTimelineTakesEffect (s : State) : Host.Outcome State Fault Refusal :=
  let dev := fun (s : State) =>
    let st := s.reg 0x8048
    let newM := field st.toNat 0 7 != field s.fr.stime.toNat 0 7
    let fr := { s.fr with tf := s.fld 0x110 0 7, stime := st }
    let now := if newM then (s.eng 8).loaded.isSome && !s.sys.halt else (match fr.stationDue with | some d => d.1 == fr.k | none => false)
    let s := { s with fr := { fr with
      stationCount := if newM then 1 else fr.stationCount, stationDue := if now then some fr.due else fr.stationDue } }
    forNat 8 (fun n s => s.updOct n fun o => { o with tl := { o.tl with phase := s.fld (octBase n + 0x10) 0 16 } }) s
  .next (
    if !s.alive then s
    else
      let s := if s.reaches s.fr.epoch ∧ s.allStill then (dev s).trgRegrid else s
      forNat 8 (fun n s =>
        if s.reaches (s.oct n).epoch ∧ (s.oct n).state.still then s.updOct n fun o => { o with tl := s.writtenTimeline n o.tl }
        else s) s)

/-! ## The station engine (R216, R217, R241) -/

/-- STATION_SAMPLE_START: at E_B(k) + T_SS of the base frame k whose sample is due; the deadline of the new sample is that of the
timing in force.  A sample still under way, which only a load or a change of M can leave there, ends without a commit and
without an overrun (the spec does not say what becomes of it; DESIGN CHOICE, log entry 100). -/
def execStationSampleStart (s : State) : Host.Outcome State Fault Refusal :=
  .next (match s.fr.stationDue with
    | none => s
    | some (k, t) =>
      if !s.alive then s
      else s.whenDue t fun s =>
        let s := s.stationBefore t
        ({ s with fr := { s.fr with stationDue := none, stationDl := t + s.fr.tsdl - s.fr.tss } }).startSample 8 (k, t - s.fr.tss) t)

/-- STATION_DEADLINE: at E_B(k) + T_SDL of the frame k in which the sample started; T_SDL may lie in a later base frame.  The reads
of the device memory that needed a correction since the last one are counted, whether or not a sample runs (R34). Log entry 25. -/
def execStationDeadline (reads : List BlockReads) (other : BitVec 16) (s : State) : Host.Outcome State Fault Refusal :=
  .next (
    if !s.alive then s
    else
      let s := s.countReads 8 reads other
      if (s.eng 8).running then s.whenDue s.fr.stationDl (·.stationEnd reads) else s)

/-! ## FRAME_ORIGIN (R45, R325) -/

/-- The frame numbers that the device keeps, moved to the new numbering: the frame after the one cut short is frame 0.  Timed
descriptors keep their ACTFRAME; a MODE_CHANGE not yet decided is evaluated again. Log entry 48. -/
def State.renumber (s : State) (d : Word) : State :=
  { s with
    fr := { s.fr with stationDue := s.fr.stationDue.map fun p => (p.1 - d, p.2) }
    profs := s.profs.mapAll fun _ p => { p with jlast := p.jlast - d, past := p.past.map fun q => (q.1 - d, q.2) }
    setQ := s.setQ.mapAll fun _ q => q.map fun p => { p with frame := p.frame - d }
    engs := s.engs.mapAll fun _ e => { e with
      swap := e.swap.map (·.map (· - d)), inj := e.inj.mapAll fun _ j => { j with frame := j.frame.map (· - d) },
      pending := e.pending.map fun p => { p with frame := p.frame - d }, sampleFrame := e.sampleFrame - d,
      entryFrame := e.entryFrame - d,
      older := e.older.map fun x => { x with frame := x.frame - d } }
    octs := s.octs.mapAll fun _ o => { o with
      toLatch := o.toLatch.map fun f => (f.1 - d, f.2), toCommit := o.toCommit.map fun f => (f.1 - d, f.2),
      toSend := o.toSend.map fun f => (f.1 - d, f.2), selFrame := o.selFrame - d, selDone := o.selDone.map (· - d),
      deb := match o.deb with | .armed t f => .armed t (f - d) | x => x }
    modeReq := s.modeReq.map fun r => if r.decided then { r with ke := r.ke - d } else { r with redo := r.armed } }

/-- FRAME_ORIGIN: the first tick at which device time is at or after the written time; the base frame in progress ends, and
frame 0 starts here. Log entry 48. -/
def execFrameOrigin (s : State) : Host.Outcome State Fault Refusal :=
  .next (
    if !s.alive || !s.time.orgPend || decide (s.time.dt < s.time.orgTime) then s
    else
      let s := (s.stationBefore s.now).renumber (s.fr.k + 1)
      let s := { s with
        fr := { s.fr with k := 0, epoch := s.now, origin := s.now, activatedAt := none }
        time := { s.time with orgPend := false, orgBase := s.time.orgTime } }
      s.trgRegrid.baseFrame)

end Sys2Proof.Machine
end

