-- ==== Sys2Proof/Machine/Descriptors.lean ====
section
/-! DEFINITION. Descriptors (chapter 11): how one comes in, waits for its activation frame or its turn, executes and completes
(R357 to R363), and the 35 descriptor commands. -/

namespace Sys2Proof.Machine

/-! ## Execution -/

/-- The engine of a ring: the station engine for ring 1, the ring's octad otherwise (R365). -/
def ringEngine (ring : Nat) : Nat := if ring = 1 then 8 else ring - 2

/-- A descriptor completes after it has executed: LATE in place of OK when it was late (R360). -/
def finish (d : Desc) (late : Bool) (r : State × Status × Nat) : State :=
  r.1.completeNow d (if r.2.1 = .ok ∧ late = true then .late else r.2.1) r.2.2

/-- A descriptor that ends at once with a status, or goes on waiting. -/
def finishOrWait (d : Desc) (late : Bool) (kind : WaitKind) (r : State × Option Status) : State :=
  match r.2 with
  | some st => finish d late (r.1, st, 0)
  | none => { r.1 with hif := { r.1.hif with waiting := r.1.hif.waiting ++ [⟨d, kind, late⟩] } }

/-- A buffer read from the host: it is issued when the ring has no other one under way (R358). -/
def State.readBuffer (s : State) (d : Desc) (late : Bool) : State :=
  if h : d.ring < 10 then
    let first := (s.ring d.ring).buf.isEmpty
    let s := s.updRing d.ring fun x => { x with buf := x.buf ++ [(d, late)] }
    if first then s.issueBuffer d.ring h else s
  else s

/-- What a descriptor does (Table 11-6), with its completion or its wait. -/
def State.carryOut (s : State) (d : Desc) (late : Bool) : State :=
  let n := d.ring - 2
  let e := ringEngine d.ring
  match d.body with
  | .nop => finish d late (s, .ok, 0)
  | .deblock t => finishOrWait d late (.dispatch n) (s.doDeblock n t)
  | .block => finish d late (s.doBlock n)
  | .rundown => finish d late (s.doRundown n)
  | .mboxWrite ws => finish d late (s.doMboxWrite e ws)
  | .coefWrite b f =>
    match s.coefWriteErr e b.len.toNat f.toNat with
    | some st => finish d late (s, st, 0)
    | none => s.readBuffer d late
  | .coefSwap => finish d late (s.doCoefSwap e late)
  | .injStart p => finish d late (s.doInjStart e p late)
  | .injStop m => finish d late (s.doInjStop e m.toNat)
  | .cellQuery c _ => finishOrWait d late (.query n c.toNat) (s.doCellQuery n c.toNat)
  | .cellRetire c => finish d late (s.doCellRetire c.toNat)
  | .ldgSnapshot => finish d late (s.doSnapshot n)
  | .imgStage _ _ => s.readBuffer d late
  | .lawLoad g l => finish d late (s.doLawLoad g.toNat l.toNat)
  | .modeLoad g l => finish d late (s.doModeLoad g.toNat l.toNat)
  | .modeChange p => finishOrWait d late .modeChange (s.doModeChange d.hdr p)
  | .tripClear m => finish d late (s.doTripClear m.toNat)
  | .timeStep => finish d late s.doTimeStep
  | .enumerate t l => finishOrWait d late (.enumerate (2 * t.toNat + l.toNat)) (s.doEnumerate t.toNat l.toNat)
  | .c0Write c v => finish d late (s.doC0Write c.toNat v)
  | .c0Clear c => finish d late (s.doC0Clear c.toNat)
  | .c0Adopt o => finish d late (s.doC0Adopt o.toNat)
  | .faultClear c u => finish d late (s.doFaultClear c u)
  | .faultRelease => finish d late s.doFaultRelease
  | .thmDemand m => finish d late (s.doThmDemand m.toNat)
  | .belRead b a f c => finish d late (s.doBelRead b.addr a.toNat f.toNat c.toNat)
  | .belFreeze => finishOrWait d late .freeze s.doBelFreeze
  | .belfryThaw => finish d late s.doBelfryThaw
  | .bistRun b => finishOrWait d late .bist (s.startBist b.toNat false)
  | .bistRequalify b => finishOrWait d late .bist (s.startBist b.toNat true)
  | .psetNonce b => finish d late (s.doPsetNonce b)
  | .psetCommit l => finishOrWait d late .pset (s.startCommit 1 l.toNat)
  | .keyChange l => finishOrWait d late .pset (s.startCommit 2 l.toNat)
  | .attest b c => finish d late (s.doAttest b c)
  | .fwInstall sl l => finishOrWait d late .fw (s.doFwInstall sl.toNat l.toNat)

/-- A descriptor that ends without being carried out. Log entry 112. -/
def State.turnAway (s : State) (d : Desc) (st : Status) : State := (s.complete d st 0 0).rejectEarly d.ring (bodyCode d.body) st

/-- Carries out a descriptor whose turn has come; one that LOCKOUT has overtaken completes with STATE (R344).
Log entry 6. -/
def State.perform (s : State) (d : Desc) (late : Bool) : State :=
  let code := bodyCode d.body
  if (s.sys.dev = .lockout ∧ !s.lockoutAllows code) ∨ !s.bootAllows code then s.turnAway d .state else s.carryOut d late

/-! ## Untimed descriptors: one at a time, in ring order (R359) -/

/-- An untimed descriptor of the ring is still in execution. -/
def State.ringBusy (s : State) (r : Nat) : Bool :=
  s.hif.waiting.any (fun w => w.d.ring == r && w.d.hdr.act.isNone && w.kind != .modeChange)
    || (s.ring r).buf.any fun b => b.1.hdr.act.isNone

/-- Opcodes that act at a frame or sample boundary: untimed, they take k_a = k_x. -/
def atBoundary : Body → Bool
  | .deblock _ | .coefSwap | .injStart _ | .injStop _ => true
  | _ => false

/-- The timed descriptors of the base frame boundary of this tick have been judged (R361): what is fetched now is judged at once. -/
def State.activated (s : State) : Bool := s.reaches s.fr.epoch && s.fr.activatedAt == some s.fr.epoch

/-- Whether an untimed descriptor may start now: at any time, at a base frame boundary behind the timed ones (R361), or once the energy plan no
longer puts its BIST off (R550). Log entry 30. -/
def State.mayStart (s : State) (b : Body) : Bool :=
  (!atBoundary b || s.activated)
    && (match b with
      | .bistRun _ | .bistRequalify _ => !(decide (1 < s.epl.shedTo) && !s.epl.enforce && s.sys.dev != .lockout)
      | _ => true)

/-- Starts the untimed descriptors of a ring that may start, at most `fuel` of them. -/
def State.drainRing (s : State) (r : Nat) : Nat → State
  | 0 => s
  | fuel + 1 =>
    match (s.ring r).untimed with
    | [] => s
    | d :: rest =>
      if s.ringBusy r || !s.mayStart d.body then s
      else State.drainRing ((s.updRing r fun x => { x with untimed := rest }).perform d false) r fuel

def State.drain (s : State) (r : Nat) : State := s.drainRing r (s.ring r).untimed.length

/-- The ticks of DORMANT lanes and of the PCIe link in L0 (Table 16-1). -/
def State.tallyTime (s : State) : State :=
  let n := s.clk.stepped * s.lanes.ents.countP fun e => e.2.state == .dormant
  if !s.clk.started then s
  else (if n = 0 then s else s.tally 4 n).tally 9 (if s.hif.linkUp && !s.hif.d3 then s.clk.stepped else 0)

/-! ## Writes on the tick of a LOCKOUT (Table 19-14) -/

/-- What the write of a register had set in motion is taken back, its word being what it was. Log entry 91. -/
def State.unstart (s : State) (r : RegRef) : State :=
  match r.df.name with
  | .dpwCfg | .dpwPer | .dpwOfs | .dpwMinp =>
    { s with dpws := s.dpws.upd r.idx fun d => { d with writes := d.writes.filter fun w => w.1 != s.now } }
  | .tsTrgcfg | .tsTrgofs | .tsTrgper | .tsTrgt0 | .tsTrgt0s => s.trgWritten r.idx
  | .clkCtrl => s.chooseRef
  | .lnkCfg => s.laneEnWritten r.own
  | .lnkEyectl => s.updLane r.own fun x => { x with eye := if x.eye = some 0 then none else x.eye }
  | .tsOrgctl => { s with time := { s.time with orgPend := false } }
  | _ => s

/-- At the end of the tick on which the device entered LOCKOUT, the writes taken on that tick are undone: they count as ignored
(Table 19-14, R558).  In LOCKOUT none is taken, so those kept are of that tick. -/
def State.settleWrites (s : State) : State :=
  let w := s.wrote
  let s : State := { s with wrote := [] }
  if s.sys.dev ≠ .lockout then s
  else w.foldl (fun s e =>
    let s := (s.setReg e.1 e.2).accErr .locked
    match regAt e.1 with
    | some r => s.unstart r
    | none => s) s

/-- A clock of the timebase with no command waiting: writes on the tick of a LOCKOUT are undone (Table 19-14), a BIST run that it has
abandoned completes (Table 18-8), a shut-down under way takes a step (R528), the block's time goes on, the lanes transmit for
each tick of it, a sweep read is issued when due, and each ring starts the untimed descriptors whose turn has come since (R359). Log entries 12, 20
and 30. -/
def State.idle (s : State) : State :=
  let s := s.settleWrites.endAbandoned.shutStep.tellThaw.idleTick.tallyTime
  let s := forNat s.clk.stepped (fun _ s => s.transmit) s
  forNat 10 (fun r s => s.drain r) s.issueSweep

/-! ## Intake (R357, R360) -/

/-- A timed descriptor judged at the base frame boundary just reached (R360): what becomes of it, none while it waits on.
Log entry 93. -/
def State.activate (s : State) (d : Desc) : Option State :=
  match d.hdr.act with
  | none => some s
  | some ka =>
    let l := frameDiff s.fr.k ka
    if l < -65535 then some (s.turnAway d .refused)
    else if l < 0 then none
    else if 2 < l then some (s.turnAway d .missed)
    else some (s.perform d (decide (0 < l)))

/-- A timed descriptor judged now, or left in its ring's pending list. -/
def State.activateOr (s : State) (d : Desc) : State :=
  match s.activate d with
  | some t => t
  | none => s.updRing d.ring fun x => { x with pend := x.pend ++ [d] }

/-- A descriptor that has been read: its checks, then the pending list, the untimed queue, or the way of a MODE_CHANGE with ACT.
Log entries 17 and 93. -/
def State.intake (s : State) (d : Desc) : State :=
  match s.descCheck d.ring d.hdr d.body with
  | some st => s.turnAway d st
  | none =>
    if d.hdr.act.isNone then (s.updRing d.ring fun x => { x with untimed := x.untimed ++ [d] }).drain d.ring
    else if 256 ≤ s.pendCount d.ring then s.turnAway d .busy
    else match d.body with
      | .modeChange _ => s.perform d false
      | _ => if s.activated then s.activateOr d else s.updRing d.ring fun x => { x with pend := x.pend ++ [d] }

/-- Whether the device takes a descriptor of a command ring: interface enabled, host memory in reach, the ring in use and not
halted, a completion ring with a free entry (R353, R354). Log entry 13. -/
def State.canTake (s : State) (r : Nat) : Bool :=
  s.hifEn && s.hostReach && s.ringEn r && !(s.ring r).halt && s.ringEn (10 + r) && decide (0 < s.freeEntries (10 + r))

/-- One descriptor command: the descriptor at the ring's consumer index is read, and its completion entry reserved.
Log entry 13. -/
def State.submit (s : State) (r : Nat) (h : Hdr) (b : Body) : State :=
  if !s.canTake r then s
  else
    let d : Desc := ⟨r, (s.ring r).dev, h, b⟩
    let s := s.updRing r fun x => { x with dev := x.dev + 1 }
    (s.updRing (10 + r) fun x => { x with reserved := x.reserved + 1 }).intake d

/-! ## DESCRIPTOR_FETCH, DESCRIPTOR_ACTIVATION, BUFFER_READ -/

/-- The fetched descriptors in ring order; their completion entries were reserved with the fetch. -/
def State.takeAll (s : State) (r : Nat) : List (BitVec 256) → State
  | [] => s
  | w :: rest =>
    let i := (s.ring r).dev
    let q := decodeDesc r w
    let s := s.updRing r fun x => { x with dev := x.dev + 1 }
    let s := match q.res with
      | .error st => (s.putCompletion r st q.code q.tag i q.irq 0 0).rejectEarly r q.code st
      | .ok (h, b) => s.intake ⟨r, i, h, b⟩
    State.takeAll s r rest

/-- DESCRIPTOR_FETCH: the data of the oldest read of descriptors under way on a ring; later than CPLTO it is a read that timed out
(R367). -/
def execDescriptorFetch (ring : Fin 10) (raw : List (BitVec 256)) (s : State) : Host.Outcome State Fault Refusal :=
  .next (
    match (s.ring ring).fetches with
    | [] => s
    | f :: rest =>
      if f.count ≠ raw.length ∨ !s.hostReach then s
      else if !s.inCplTime f.issued then s.fetchFailed ring f.count .timeout
      else ((s.updRing ring fun x => { x with fetches := rest }).takeAll ring raw).sweepDone f.sweep)

/-- The due timed descriptors of a ring, in ring order (R361). -/
def State.activateRing (s : State) (r : Nat) : State :=
  let ds := (s.ring r).pend
  let s := s.updRing r fun x => { x with pend := [] }
  ds.foldl State.activateOr s

/-- DESCRIPTOR_ACTIVATION: at a base frame boundary the timed descriptors due, in ascending ring order, then the untimed ones
that the boundary releases (R361). -/
def execDescriptorActivation (s : State) : Host.Outcome State Fault Refusal :=
  .next (
    if !s.alive || !s.reaches s.fr.epoch then s
    else
      let s := forNat 10 (fun r s => s.activateRing r) s
      forNat 10 (fun r s => s.drain r) { s with fr := { s.fr with activatedAt := some s.fr.epoch } })

/-- The data of a buffer applied (R245, R366); LOCKOUT in the meantime leaves it unused. -/
def State.applyBuffer (s : State) (d : Desc) (late : Bool) (data : List Byte) : State :=
  if s.sys.dev = .lockout then s.complete d .state 0 0
  else match d.body with
    | .imgStage _ ofs => finish d late ({ s with staging := memWriteList ofs.toNat data s.staging }, .ok, 0)
    | .coefWrite _ f => finish d late (s.doCoefWrite (ringEngine d.ring) f.toNat data)
    | _ => s

/-- BUFFER_READ: the LEN bytes of the oldest buffer of a ring have arrived; the next buffer's read is issued.  Later than CPLTO they
are a read that timed out (R367). -/
def execBufferRead (ring : Fin 10) (data : List Byte) (s : State) : Host.Outcome State Fault Refusal :=
  .next (match (s.ring ring).buf with
    | [] => s
    | (d, late) :: rest =>
      if !s.hostReach || (match bodyBuf d.body with | some b => b.len.toNat != data.length | none => true) then s
      else if !s.inCplTime (s.ring ring).bufAt then s.bufferFailed ring .timeout
      else
        let s := (s.updRing ring fun x => { x with buf := rest }).applyBuffer d late data
        (s.issueBuffer ring ring.isLt).drain ring)

/-! ## The descriptor commands (Table 11-6) -/

/-- The ring of an octad's and of an engine's descriptors (R365). -/
def octRing (n : Nat) : Nat := n + 2
def engRing (e : Nat) : Nat := if e = 8 then 1 else e + 2

/-- NOP: completes OK. -/
def execNop (ring : Fin 10) (h : Hdr) (s : State) : Host.Outcome State Fault Refusal :=
  .next (s.submit ring h .nop)

/-- DEBLOCK of octad n, from ring n + 2. -/
def execDeblock (n : Fin 8) (h : Hdr) (target : Byte) (s : State) : Host.Outcome State Fault Refusal :=
  .next (s.submit (octRing n) h (.deblock target))

/-- BLOCK. -/
def execBlock (n : Fin 8) (h : Hdr) (s : State) : Host.Outcome State Fault Refusal :=
  .next (s.submit (octRing n) h .block)

/-- RUNDOWN. -/
def execRundown (n : Fin 8) (h : Hdr) (s : State) : Host.Outcome State Fault Refusal :=
  .next (s.submit (octRing n) h .rundown)

/-- MBOX_WRITE, from the engine's ring. -/
def execMboxWrite (e : Fin 9) (h : Hdr) (writes : List (Byte × Word)) (s : State) : Host.Outcome State Fault Refusal :=
  .next (s.submit (engRing e) h (.mboxWrite writes))

/-- COEF_WRITE: the buffer is read, BUFFER_READ applies it. -/
def execCoefWrite (e : Fin 9) (h : Hdr) (b : Buf) (first : BitVec 16) (s : State) : Host.Outcome State Fault Refusal :=
  .next (s.submit (engRing e) h (.coefWrite b first))

/-- COEF_SWAP. -/
def execCoefSwap (e : Fin 9) (h : Hdr) (s : State) : Host.Outcome State Fault Refusal :=
  .next (s.submit (engRing e) h .coefSwap)

/-- INJ_START. -/
def execInjStart (e : Fin 9) (h : Hdr) (p : InjParams) (s : State) : Host.Outcome State Fault Refusal :=
  .next (s.submit (engRing e) h (.injStart p))

/-- INJ_STOP. -/
def execInjStop (e : Fin 9) (h : Hdr) (mask : BitVec 4) (s : State) : Host.Outcome State Fault Refusal :=
  .next (s.submit (engRing e) h (.injStop mask))

/-- CELL_QUERY. -/
def execCellQuery (n : Fin 8) (h : Hdr) (cell selector : BitVec 16) (s : State) : Host.Outcome State Fault Refusal :=
  .next (s.submit (octRing n) h (.cellQuery cell selector))

/-- CELL_RETIRE. -/
def execCellRetire (n : Fin 8) (h : Hdr) (cell : BitVec 16) (s : State) : Host.Outcome State Fault Refusal :=
  .next (s.submit (octRing n) h (.cellRetire cell))

/-- LDG_SNAPSHOT. -/
def execLdgSnapshot (n : Fin 8) (h : Hdr) (s : State) : Host.Outcome State Fault Refusal :=
  .next (s.submit (octRing n) h .ldgSnapshot)

/-- IMG_STAGE: the buffer is read, BUFFER_READ applies it. -/
def execImgStage (h : Hdr) (b : Buf) (ofs : Word) (s : State) : Host.Outcome State Fault Refusal :=
  .next (s.submit 0 h (.imgStage b ofs))

/-- LAW_LOAD. -/
def execLawLoad (h : Hdr) (eng : Byte) (imglen : Word) (s : State) : Host.Outcome State Fault Refusal :=
  .next (s.submit 0 h (.lawLoad eng imglen))

/-- MODE_LOAD. -/
def execModeLoad (h : Hdr) (eng : Byte) (imglen : Word) (s : State) : Host.Outcome State Fault Refusal :=
  .next (s.submit 0 h (.modeLoad eng imglen))

/-- MODE_CHANGE. -/
def execModeChange (h : Hdr) (p : ModeParams) (s : State) : Host.Outcome State Fault Refusal :=
  .next (s.submit 0 h (.modeChange p))

/-- TRIP_CLEAR. -/
def execTripClear (h : Hdr) (mask : BitVec 16) (s : State) : Host.Outcome State Fault Refusal :=
  .next (s.submit 0 h (.tripClear mask))

/-- TIME_STEP. -/
def execTimeStep (h : Hdr) (s : State) : Host.Outcome State Fault Refusal :=
  .next (s.submit 0 h .timeStep)

/-- ENUMERATE. -/
def execEnumerate (h : Hdr) (tile lane : Byte) (s : State) : Host.Outcome State Fault Refusal :=
  .next (s.submit 0 h (.enumerate tile lane))

/-- C0_WRITE. -/
def execC0Write (h : Hdr) (cell : BitVec 16) (c0 : Word) (s : State) : Host.Outcome State Fault Refusal :=
  .next (s.submit 0 h (.c0Write cell c0))

/-- C0_CLEAR. -/
def execC0Clear (h : Hdr) (cell : BitVec 16) (s : State) : Host.Outcome State Fault Refusal :=
  .next (s.submit 0 h (.c0Clear cell))

/-- C0_ADOPT. -/
def execC0Adopt (h : Hdr) (octad : Byte) (s : State) : Host.Outcome State Fault Refusal :=
  .next (s.submit 0 h (.c0Adopt octad))

/-- FAULT_CLEAR. -/
def execFaultClear (h : Hdr) (code source : BitVec 16) (s : State) : Host.Outcome State Fault Refusal :=
  .next (s.submit 0 h (.faultClear code source))

/-- FAULT_RELEASE. -/
def execFaultRelease (h : Hdr) (s : State) : Host.Outcome State Fault Refusal :=
  .next (s.submit 0 h .faultRelease)

/-- THM_DEMAND. -/
def execThmDemand (h : Hdr) (mask : BitVec 80) (s : State) : Host.Outcome State Fault Refusal :=
  .next (s.submit 0 h (.thmDemand mask))

/-- BEL_READ. -/
def execBelRead (h : Hdr) (b : Buf) (area : Byte) (first count : BitVec 16) (s : State) : Host.Outcome State Fault Refusal :=
  .next (s.submit 0 h (.belRead b area first count))

/-- BEL_FREEZE with byte 8 at 1. -/
def execBelFreeze (h : Hdr) (s : State) : Host.Outcome State Fault Refusal :=
  .next (s.submit 0 h .belFreeze)

/-- BEL_FREEZE with byte 8 at 0. -/
def execBelfryThaw (h : Hdr) (s : State) : Host.Outcome State Fault Refusal :=
  .next (s.submit 0 h .belfryThaw)

/-- BIST_RUN with byte 10 at 0. -/
def execBistRun (h : Hdr) (blk : BitVec 16) (s : State) : Host.Outcome State Fault Refusal :=
  .next (s.submit 0 h (.bistRun blk))

/-- BIST_RUN with byte 10 at 1. -/
def execBistRequalify (h : Hdr) (blk : BitVec 16) (s : State) : Host.Outcome State Fault Refusal :=
  .next (s.submit 0 h (.bistRequalify blk))

/-- PSET_NONCE. -/
def execPsetNonce (h : Hdr) (b : Buf) (s : State) : Host.Outcome State Fault Refusal :=
  .next (s.submit 0 h (.psetNonce b))

/-- PSET_COMMIT of a protection set. -/
def execPsetCommit (h : Hdr) (imglen : Word) (s : State) : Host.Outcome State Fault Refusal :=
  .next (s.submit 0 h (.psetCommit imglen))

/-- PSET_COMMIT of a key change. -/
def execKeyChange (h : Hdr) (imglen : Word) (s : State) : Host.Outcome State Fault Refusal :=
  .next (s.submit 0 h (.keyChange imglen))

/-- ATTEST. -/
def execAttest (h : Hdr) (b : Buf) (challenge : BitVec 64) (s : State) : Host.Outcome State Fault Refusal :=
  .next (s.submit 0 h (.attest b challenge))

/-- FW_INSTALL. -/
def execFwInstall (h : Hdr) (slot : Byte) (imglen : Word) (s : State) : Host.Outcome State Fault Refusal :=
  .next (s.submit 0 h (.fwInstall slot imglen))

end Sys2Proof.Machine
end

