-- ==== Sys2Proof/Machine/Registers.lean ====
section
/-! DEFINITION. Writes of BAR0 words by the host: the eight steps of R558, the range rules that span fields (R590, R87, R110,
R140, R217, R485, R509), the locks of Table 19-13, and what a taken write starts; the latch of TS_TIME0 (R310). -/

namespace Sys2Proof.Machine

/-! ## The written word -/

/-- Whether a field is among those that step 6 of R558 judges. -/
def Fld.judged (f : Fld) : Bool := f.acc == .rw || f.acc == .wo

def Fld.inRange (f : Fld) (v : Word) : Bool :=
  !f.judged || (decide (f.min ≤ field v.toNat f.lo f.len) && decide (field v.toNat f.lo f.len ≤ f.max))

/-- The bits of a field's place. -/
def Fld.mask (f : Fld) : Word := BitVec.ofNat 32 ((2 ^ f.len - 1) * 2 ^ f.lo)

/-- The flags of a word that hardware has set on this tick: a W1C write leaves them set (Table 19-14). Log entry 79. -/
def State.hotMask (s : State) (a : Nat) : Word :=
  if s.clk.started && s.hotAt == s.tick then
    s.hot.foldl (fun m e => if e.1 = a then m ||| BitVec.ofNat 32 (2 ^ e.2) else m) 0
  else 0

/-- The word after a write: RW fields take the value, W1C bits written as 1 clear, every other bit is kept (steps 5 and 8
of R558); a WO bit reads as zero and is not kept (R557). Log entry 79. -/
def takeWord (fs : List Fld) (hot old v : Word) : Word :=
  fs.foldl (fun w f =>
    match f.acc with
    | .rw => (w &&& ~~~f.mask) ||| (v &&& f.mask)
    | .w1c => w &&& ~~~(v &&& f.mask &&& ~~~hot)
    | _ => w) old

/-- A field of a word. -/
def fieldOf (w : Word) (lo len : Nat) : Nat := field w.toNat lo len

/-- The written T_F in ticks (R590). -/
def State.writtenTf (s : State) : Nat := 500 * s.fld 0x110 0 7

/-- The range rules that span fields or registers (step 6 of R558); w is the word that the write would give.
Log entry 107. -/
def State.rangeOk (s : State) (r : RegRef) (w : Word) : Bool :=
  match r.df.name with
  | .devFrame =>
    (List.range 8).all fun n => decide (s.ofld n 0x10 0 16 < 500 * fieldOf w 0 7)
      && decide (s.fld (trgAddr n + 4) 0 16 < 500 * fieldOf w 0 7)
  | .octPhase => decide (fieldOf w 0 16 < s.writtenTf)
  | .tsTrgofs => decide (fieldOf w 0 16 < s.writtenTf) && decide (fieldOf w 0 16 < s.tfTicks)
  | .tsTrgcfg => decide (fieldOf w 2 4 < 8) || fieldOf w 2 4 == 15
  | .selIsign => decide (fieldOf w 16 15 ≤ fieldOf w 0 15)
  | .selSrc =>
    fieldOf w 8 6 != s.ofld r.own 0x240C 0 6 && fieldOf w 8 6 != s.ofld r.own 0x240C 8 6
  | .ldgCh =>
    fieldOf w 0 6 != fieldOf w 8 6 && fieldOf w 0 6 != s.ofld r.own 0x2008 8 6 && fieldOf w 8 6 != s.ofld r.own 0x2008 8 6
  | .dpwPer =>
    decide (2 * s.fld (dpwAddr r.idx + 12) 0 12 ≤ fieldOf w 0 20) && decide (s.fld (dpwAddr r.idx + 8) 0 20 < fieldOf w 0 20)
  | .dpwOfs => decide (fieldOf w 0 20 < s.fld (dpwAddr r.idx + 4) 0 20)
  | .dpwMinp => decide (2 * fieldOf w 0 12 ≤ s.fld (dpwAddr r.idx + 4) 0 20)
  | .hifRcfg => decide (20 ≤ r.idx) || fieldOf w 12 1 == 0
  | .ceCapsel => fieldOf w 14 2 != 2 && fieldOf w 30 2 != 2
  | .clkHop => hopValid (fieldOf w 24 8) (fieldOf w 0 24) (s.hopP r.idx)
  | .clkHopcfg => hopValid (s.hopN r.idx) (s.hopF r.idx) (fieldOf w 0 6)
  | .thmCtrl => decide (fieldOf w 0 10 < fieldOf w 10 10)
  | _ => true

/-- Whether a hop point is in force or the target of a pending hop (Table 15-3). Log entry 81. -/
def State.pointBusy (s : State) (p : Nat) : Bool :=
  s.clk.point == p || s.clk.hopTo == some p || s.clk.searching == some p || s.epl.wantPoint == some p

/-- The device time that TS_ORG0 and TS_ORG1 name, seconds [47:32] taken from the device's own (R325). -/
def State.writtenOrigin (s : State) : Nat :=
  (s.time.dt / dtSecond / 2 ^ 32 * 2 ^ 32 + (s.reg 0x300064).toNat) * dtSecond + (s.reg 0x300060).toNat * nsUnit

/-- Whether the lock of Table 19-13 lets the write v of a register pass; w is the word it would give. Log entry 80. -/
def State.lockOk (s : State) (r : RegRef) (v w : Word) : Bool :=
  match r.df.name with
  | .octCtype => (s.oct r.own).state.still
  | .tilCtmap => (s.oct (r.own / 8)).state.still
  | .lnkCfg =>
    (fieldOf w 0 1 == 1 && fieldOf w 1 2 == s.fld r.addr 1 2) || (s.oct (r.own / 16)).state.still
  | .lnkAsym => (s.oct (r.own / 16)).state.still
  | .hifDblo | .hifDbhi => !s.hifEn
  | .hifRbaselo | .hifRbasehi => !s.ringEn r.idx
  | .hifRcfg => !s.ringEn r.idx || fieldOf w 0 1 == 0
  | .ceStime => s.stationTimingOk w (s.fld 0x110 0 7) (((s.eng 8).loaded.map Graph.cx).getD 0)
  | .clkHop => !s.pointBusy r.idx
  | .clkHopcfg => !s.pointBusy r.idx && (r.idx != 0 || fieldOf w 7 1 == 1)
  | .tsOrgctl => fieldOf v 0 1 == 0 || (s.allStill && decide (s.time.dt < s.writtenOrigin))
  | _ => true

/-- The outcome of a write that a lock ignores: ERR for an ARM (R325), the CFG_ERR of the block otherwise. -/
def State.lockedOut (s : State) (r : RegRef) : State :=
  if r.df.name = .tsOrgctl then s.flag 0x300068 2 else s.cfgErr r

/-- A register of a sample port, or of its trigger unit, that Kingpost drives (R332): a host write to it is ignored.
Log entry 85. -/
def State.kingpostDrives (s : State) (r : RegRef) : Bool :=
  match r.df.name with
  | .tsSpcfg | .tsTrgcfg | .tsTrgofs | .tsTrgper | .tsTrgt0 | .tsTrgt0s => s.portOwned r.idx
  | _ => false

/-! ## What a taken write starts -/

/-- EN of a register's bit 0 goes from 0 to 1; from 1 to 0. -/
def enRises (old w : Word) : Bool := fieldOf old 0 1 == 0 && fieldOf w 0 1 == 1
def enFalls (old w : Word) : Bool := fieldOf old 0 1 == 1 && fieldOf w 0 1 == 0

/-- BVALID of a hop point clears when its N, F or P changes or its EN is set (R469). Log entry 80. -/
def State.clearBand (s : State) (p : Nat) (old w : Word) : State := if old = w then s else s.setFld (hopAddr p + 4) 13 1 0

/-- A write of a held register of a direct pulse output waits for the period start that adopts it (R130). -/
def State.dpwWritten (s : State) (n reg : Nat) (w : Word) : State :=
  { s with dpws := s.dpws.upd n fun d => { d with writes := d.writes ++ [(s.now, reg, w)] } }

/-- The effect of a taken write beside the word itself: old and new word, and the value written. -/
def State.afterWrite (s : State) (r : RegRef) (old w v : Word) : State :=
  match r.df.name with
  | .hifCtrl => if enRises old w then s.hifStarted else s
  | .hifRcfg => if enRises old w then s.ringStarted r.idx else if enFalls old w then s.ringStopped r.idx else s
  | .tsTrgcfg | .tsTrgofs | .tsTrgper | .tsTrgt0 | .tsTrgt0s => s.trgWritten r.idx
  | .dpwCfg => s.dpwWritten r.idx 0 w
  | .dpwPer => s.dpwWritten r.idx 1 w
  | .dpwOfs => s.dpwWritten r.idx 2 w
  | .dpwMinp => s.dpwWritten r.idx 3 w
  | .clkCtrl => s.chooseRef
  | .clkHop => s.clearBand r.idx old w
  | .clkHopcfg =>
    if fieldOf old 0 6 != fieldOf w 0 6 || (fieldOf old 7 1 == 0 && fieldOf w 7 1 == 1) then s.clearBand r.idx old w else s
  | .lnkCfg => s.laneEnWritten r.own
  | .lnkEyectl => if fieldOf v 0 1 = 1 then s.startEye r.own else s
  | .eplCtrl => ({ s with epl := { s.epl with carry := 0 } }).setReg 0x40100C 0
  | .ldgScale => s.discardWindow r.own
  | .tsSpcfg =>
    if enRises old w then { s with sports := s.sports.upd r.idx fun x => { x with retired := false, occ := [] } } else s
  | .tsSvcfg =>
    if enRises old w then
      { s with svs := s.svs.upd r.idx fun x =>
          { x with retired := false, occ := [], last := none, lastAt := s.now, active := false, lost := false } }
    else s
  | .tsOrgctl =>
    if fieldOf v 0 1 = 1 then { s with time := { s.time with orgPend := true, orgTime := s.writtenOrigin } } else s
  | .belCtrl => if fieldOf v 0 1 = 1 then s.clearTombs else s
  | _ => s

/-! ## The eight steps of R558 -/

/-- Steps 5 to 8, for a write to a register that a table defines; the word it replaces is kept until the next clock (Table 19-14).
Log entries 85 and 91. -/
def State.takeWrite (s : State) (r : RegRef) (v : Word) : State :=
  let old := s.reg r.addr
  let w := takeWord r.df.fields (s.hotMask r.addr) old v
  if s.kingpostDrives r then s
  else if !r.df.fields.all (Fld.inRange · v) || !s.rangeOk r w then s.cfgErr r
  else if !s.lockOk r v w then s.lockedOut r
  else (({ s with wrote := (r.addr, old) :: s.wrote } : State).setReg r.addr w).afterWrite r old w v

/-- The image in force is readable at 0x0071_0000, RO (Table 19-8). -/
def inImage (a : Nat) : Bool := decide (0x710000 ≤ a) && decide (a < 0x720000)

/-- A BAR0 write of one word: offset, value, byte enables.  It reaches the device only over a link in L0. Log entries 82 and 91. -/
def State.hostWrite (s : State) (ofs : Nat) (v : Word) (be : BitVec 4) : State :=
  if !s.hostReach then s
  else if s.sys.dev = .lockout then s.accErr .locked
  else if s.sys.dev ≠ .idle ∧ s.sys.dev ≠ .run ∧ !inBlock ofs 1 then s.accErr .locked
  else if be ≠ 15 then s.accErr .size
  else
    match regAt ofs with
    | none => if inImage ofs then s else s.accErr .undef
    | some r => s.takeWrite r v

/-- REGISTER_WRITE; the host's writes to BAR2 and to configuration space come the same way (R342, log entry 102). -/
def execRegisterWrite (at_ : HostAddr) (value : Word) (be : BitVec 4) (s : State) : Host.Outcome State Fault Refusal :=
  .next (match at_.space with
    | .bar0 => s.hostWrite at_.ofs.toNat value be
    | .bar2 => if s.hostReach then s.bar2Write at_.ofs.toNat value be else s
    | .cfgMsix => if s.hif.linkUp && !s.hif.inReset then s.msixControl value else s
    | .cfgPower => if s.hif.linkUp && !s.hif.inReset then s.powerState value else s)

/-! ## Writes that have a row of their own -/

/-- HOST_INTERFACE_ENABLE: HIF_CTRL written with EN = 1. -/
def execHostInterfaceEnable (ctrl : Word) (s : State) : Host.Outcome State Fault Refusal :=
  .next (s.hostWrite 0x100000 (ctrl ||| 1) 15)

/-- RING_ENABLE: HIF_RCFG of a ring written with EN = 1. Log entry 82. -/
def execRingEnable (r : Fin 37) (cfg : Word) (s : State) : Host.Outcome State Fault Refusal :=
  .next (s.hostWrite (rcfgAddr r) (cfg ||| 1) 15)

/-- RING_DISABLE: HIF_RCFG of a ring written with EN = 0, its other fields as they stand. -/
def execRingDisable (r : Fin 37) (s : State) : Host.Outcome State Fault Refusal :=
  .next (s.hostWrite (rcfgAddr r) (s.reg (rcfgAddr r) &&& ~~~1) 15)

/-- ORIGIN_ARM: TS_ORGCTL written with ARM = 1. -/
def execOriginArm (s : State) : Host.Outcome State Fault Refusal := .next (s.hostWrite 0x300068 1 15)

/-- EYE_SCAN_START: LNK_EYECTL written with START = 1, RING as it stands. -/
def execEyeScanStart (l : Fin 128) (s : State) : Host.Outcome State Fault Refusal :=
  .next (s.hostWrite (laneBase l + 0x1C) (s.reg (laneBase l + 0x1C) &&& 0xF0 ||| 1) 15)

/-- TOMB_CLR: BEL_CTRL written with TOMB_CLR = 1. -/
def execTombClr (s : State) : Host.Outcome State Fault Refusal := .next (s.hostWrite 0x500000 1 15)

/-- LANE_ENABLE and LANE_DISABLE: LNK_CFG written with EN = 1 or 0, its other fields as they stand. -/
def execLaneEnable (l : Fin 128) (s : State) : Host.Outcome State Fault Refusal :=
  .next (s.hostWrite (laneBase l) (s.reg (laneBase l) ||| 1) 15)

def execLaneDisable (l : Fin 128) (s : State) : Host.Outcome State Fault Refusal :=
  .next (s.hostWrite (laneBase l) (s.reg (laneBase l) &&& ~~~1) 15)

/-- TS_TIME0_READ: the read latches device time and the tick count at one tick (R310). -/
def execTsTime0Read (s : State) : Host.Outcome State Fault Refusal :=
  .next (if !s.hostReach then s else { s with time := { s.time with latchDt := s.time.dt, latchTick := s.tick } })

end Sys2Proof.Machine
end

