-- ==== Sys2Proof/Machine/Dispatch.lean ====
section
/-! DEFINITION. One arm per command: each calls that command's meaning. -/

namespace Sys2Proof.Machine

def exec (i : Instr) (s : State) : Host.Outcome State Fault Refusal :=
  match i with
  | .nop ring h => Sys2Proof.Machine.execNop ring h s
  | .deblock n h target => Sys2Proof.Machine.execDeblock n h target s
  | .block n h => Sys2Proof.Machine.execBlock n h s
  | .rundown n h => Sys2Proof.Machine.execRundown n h s
  | .mboxWrite e h writes => Sys2Proof.Machine.execMboxWrite e h writes s
  | .coefWrite e h b first => Sys2Proof.Machine.execCoefWrite e h b first s
  | .coefSwap e h => Sys2Proof.Machine.execCoefSwap e h s
  | .injStart e h p => Sys2Proof.Machine.execInjStart e h p s
  | .injStop e h mask => Sys2Proof.Machine.execInjStop e h mask s
  | .cellQuery n h cell selector => Sys2Proof.Machine.execCellQuery n h cell selector s
  | .cellRetire n h cell => Sys2Proof.Machine.execCellRetire n h cell s
  | .ldgSnapshot n h => Sys2Proof.Machine.execLdgSnapshot n h s
  | .imgStage h b ofs => Sys2Proof.Machine.execImgStage h b ofs s
  | .lawLoad h eng imglen => Sys2Proof.Machine.execLawLoad h eng imglen s
  | .modeLoad h eng imglen => Sys2Proof.Machine.execModeLoad h eng imglen s
  | .modeChange h p => Sys2Proof.Machine.execModeChange h p s
  | .tripClear h mask => Sys2Proof.Machine.execTripClear h mask s
  | .timeStep h => Sys2Proof.Machine.execTimeStep h s
  | .enumerate h tile lane => Sys2Proof.Machine.execEnumerate h tile lane s
  | .c0Write h cell c0 => Sys2Proof.Machine.execC0Write h cell c0 s
  | .c0Clear h cell => Sys2Proof.Machine.execC0Clear h cell s
  | .c0Adopt h octad => Sys2Proof.Machine.execC0Adopt h octad s
  | .faultClear h code source => Sys2Proof.Machine.execFaultClear h code source s
  | .faultRelease h => Sys2Proof.Machine.execFaultRelease h s
  | .thmDemand h mask => Sys2Proof.Machine.execThmDemand h mask s
  | .belRead h b area first count => Sys2Proof.Machine.execBelRead h b area first count s
  | .belFreeze h => Sys2Proof.Machine.execBelFreeze h s
  | .belfryThaw h => Sys2Proof.Machine.execBelfryThaw h s
  | .bistRun h blk => Sys2Proof.Machine.execBistRun h blk s
  | .bistRequalify h blk => Sys2Proof.Machine.execBistRequalify h blk s
  | .psetNonce h b => Sys2Proof.Machine.execPsetNonce h b s
  | .psetCommit h imglen => Sys2Proof.Machine.execPsetCommit h imglen s
  | .keyChange h imglen => Sys2Proof.Machine.execKeyChange h imglen s
  | .attest h b challenge => Sys2Proof.Machine.execAttest h b challenge s
  | .fwInstall h slot imglen => Sys2Proof.Machine.execFwInstall h slot imglen s
  | .descriptorActivation => Sys2Proof.Machine.execDescriptorActivation s
  | .doorbellSweep page => Sys2Proof.Machine.execDoorbellSweep page s
  | .descriptorFetch ring raw => Sys2Proof.Machine.execDescriptorFetch ring raw s
  | .bufferRead ring data => Sys2Proof.Machine.execBufferRead ring data s
  | .readTimeout r => Sys2Proof.Machine.execReadTimeout r s
  | .hostLost => Sys2Proof.Machine.execHostLost s
  | .perstN => Sys2Proof.Machine.execPerstN s
  | .pcieLinkDown => Sys2Proof.Machine.execPcieLinkDown s
  | .d3hot => Sys2Proof.Machine.execD3hot s
  | .hostInterfaceEnable ctrl => Sys2Proof.Machine.execHostInterfaceEnable ctrl s
  | .ringEnable r cfg => Sys2Proof.Machine.execRingEnable r cfg s
  | .ringDisable r => Sys2Proof.Machine.execRingDisable r s
  | .registerWrite at_ value be => Sys2Proof.Machine.execRegisterWrite at_ value be s
  | .tsTime0Read => Sys2Proof.Machine.execTsTime0Read s
  | .originArm => Sys2Proof.Machine.execOriginArm s
  | .frameOrigin => Sys2Proof.Machine.execFrameOrigin s
  | .eyeScanStart l => Sys2Proof.Machine.execEyeScanStart l s
  | .tombClr => Sys2Proof.Machine.execTombClr s
  | .laneEnable l => Sys2Proof.Machine.execLaneEnable l s
  | .laneDisable l => Sys2Proof.Machine.execLaneDisable l s
  | .timelineTakesEffect => Sys2Proof.Machine.execTimelineTakesEffect s
  | .feedbackDeadline x => Sys2Proof.Machine.execFeedbackDeadline x s
  | .engineDeadline n reads other => Sys2Proof.Machine.execEngineDeadline n reads other s
  | .selectionComplete n => Sys2Proof.Machine.execSelectionComplete n s
  | .selWdog n => Sys2Proof.Machine.execSelWdog n s
  | .commandDispatch n => Sys2Proof.Machine.execCommandDispatch n s
  | .baseFrameBoundary => Sys2Proof.Machine.execBaseFrameBoundary s
  | .modeDecision => Sys2Proof.Machine.execModeDecision s
  | .stationSampleStart => Sys2Proof.Machine.execStationSampleStart s
  | .stationDeadline reads other => Sys2Proof.Machine.execStationDeadline reads other s
  | .dpwmPeriodStart o => Sys2Proof.Machine.execDpwmPeriodStart o s
  | .dpwmEdge o => Sys2Proof.Machine.execDpwmEdge o s
  | .ledgerWindowEnd n => Sys2Proof.Machine.execLedgerWindowEnd n s
  | .ledgerArithmeticComplete n => Sys2Proof.Machine.execLedgerArithmeticComplete n s
  | .csaveSave => Sys2Proof.Machine.execCsaveSave s
  | .feedbackFrame l f => Sys2Proof.Machine.execFeedbackFrame l f s
  | .captureFrame l f => Sys2Proof.Machine.execCaptureFrame l f s
  | .enumFrame l f => Sys2Proof.Machine.execEnumFrame l f s
  | .enumTimeout l => Sys2Proof.Machine.execEnumTimeout l s
  | .abort l b => Sys2Proof.Machine.execAbort l b s
  | .capability l b => Sys2Proof.Machine.execCapability l b s
  | .linkCmdAck l b => Sys2Proof.Machine.execLinkCmdAck l b s
  | .reportRsp l b => Sys2Proof.Machine.execReportRsp l b s
  | .qualPointDone l disagreements => Sys2Proof.Machine.execQualPointDone l disagreements s
  | .eyeScanPoint l count lockLost => Sys2Proof.Machine.execEyeScanPoint l count lockLost s
  | .blockLock l ws => Sys2Proof.Machine.execBlockLock l ws s
  | .laneLockLoss l ws => Sys2Proof.Machine.execLaneLockLoss l ws s
  | .laneElastic l ws => Sys2Proof.Machine.execLaneElastic l ws s
  | .tHunt l => Sys2Proof.Machine.execTHunt l s
  | .tCapx l => Sys2Proof.Machine.execTCapx l s
  | .tAck l => Sys2Proof.Machine.execTAck l s
  | .tStep l => Sys2Proof.Machine.execTStep l s
  | .tRt l => Sys2Proof.Machine.execTRt l s
  | .laneWake l => Sys2Proof.Machine.execLaneWake l s
  | .mark l => Sys2Proof.Machine.execMark l s
  | .echo l b t4 => Sys2Proof.Machine.execEcho l b t4 s
  | .creditRefresh l => Sys2Proof.Machine.execCreditRefresh l s
  | .tripIn m level => Sys2Proof.Machine.execTripIn m level s
  | .timestampCapture k edge => Sys2Proof.Machine.execTimestampCapture k edge s
  | .triggerFiring n => Sys2Proof.Machine.execTriggerFiring n s
  | .convstEnd n => Sys2Proof.Machine.execConvstEnd n s
  | .samplePortClockStart n => Sys2Proof.Machine.execSamplePortClockStart n s
  | .samplePortFrame n words => Sys2Proof.Machine.execSamplePortFrame n words s
  | .sync port m => Sys2Proof.Machine.execSync port m s
  | .followUp port m => Sys2Proof.Machine.execFollowUp port m s
  | .delayResp port m => Sys2Proof.Machine.execDelayResp port m s
  | .pdelayReq port m => Sys2Proof.Machine.execPdelayReq port m s
  | .pdelayResp port m => Sys2Proof.Machine.execPdelayResp port m s
  | .announce port m => Sys2Proof.Machine.execAnnounce port m s
  | .delayReqSend port => Sys2Proof.Machine.execDelayReqSend port s
  | .announceTimeout => Sys2Proof.Machine.execAnnounceTimeout s
  | .syncTimeout => Sys2Proof.Machine.execSyncTimeout s
  | .asdu port a => Sys2Proof.Machine.execAsdu port a s
  | .svLost st => Sys2Proof.Machine.execSvLost st s
  | .faultReport => Sys2Proof.Machine.execFaultReport s
  | .consWindowClose => Sys2Proof.Machine.execConsWindowClose s
  | .faultNHoldEnd => Sys2Proof.Machine.execFaultNHoldEnd s
  | .fltStall level => Sys2Proof.Machine.execFltStall level s
  | .fltSelf => Sys2Proof.Machine.execFltSelf s
  | .fallbackRecordCopy => Sys2Proof.Machine.execFallbackRecordCopy s
  | .doubleBitError m addr => Sys2Proof.Machine.execDoubleBitError m addr s
  | .kpInputSample ch sin sfb blk sout => Sys2Proof.Machine.execKpInputSample ch sin sfb blk sout s
  | .kpEvaluationCycle ch => Sys2Proof.Machine.execKpEvaluationCycle ch s
  | .kpHandshake ch count => Sys2Proof.Machine.execKpHandshake ch count s
  | .kpXchTimeout ch => Sys2Proof.Machine.execKpXchTimeout ch s
  | .kpInFaulty ch pair => Sys2Proof.Machine.execKpInFaulty ch pair s
  | .kpSrdMeasurement ch words => Sys2Proof.Machine.execKpSrdMeasurement ch words s
  | .kpFbTimeout ch out => Sys2Proof.Machine.execKpFbTimeout ch out s
  | .darkPulseStart ch out => Sys2Proof.Machine.execDarkPulseStart ch out s
  | .kpTestFail ch out => Sys2Proof.Machine.execKpTestFail ch out s
  | .kpParamApply => Sys2Proof.Machine.execKpParamApply s
  | .kpParamReject => Sys2Proof.Machine.execKpParamReject s
  | .vkpOutOfRange => Sys2Proof.Machine.execVkpOutOfRange s
  | .kingpostViewAction => Sys2Proof.Machine.execKingpostViewAction s
  | .hop point => Sys2Proof.Machine.execHop point s
  | .searchHop point => Sys2Proof.Machine.execSearchHop point s
  | .lockDeclared p => Sys2Proof.Machine.execLockDeclared p s
  | .settlingWaitEnd p => Sys2Proof.Machine.execSettlingWaitEnd p s
  | .bandSearchComplete p band => Sys2Proof.Machine.execBandSearchComplete p band s
  | .relockTimeout p => Sys2Proof.Machine.execRelockTimeout p s
  | .clkCoreUnlock => Sys2Proof.Machine.execClkCoreUnlock s
  | .clkRefLoss b => Sys2Proof.Machine.execClkRefLoss b s
  | .refQualified b => Sys2Proof.Machine.execRefQualified b s
  | .clkPhaseJump => Sys2Proof.Machine.execClkPhaseJump s
  | .quadPllUnlock q => Sys2Proof.Machine.execQuadPllUnlock q s
  | .energyEpoch counts core sram ser => Sys2Proof.Machine.execEnergyEpoch counts core sram ser s
  | .eplCalibration => Sys2Proof.Machine.execEplCalibration s
  | .scheduledDemand sensor => Sys2Proof.Machine.execScheduledDemand sensor s
  | .sensorGateStart sensor => Sys2Proof.Machine.execSensorGateStart sensor s
  | .sensorResult sensor count => Sys2Proof.Machine.execSensorResult sensor count s
  | .stalenessTimeout sensor => Sys2Proof.Machine.execStalenessTimeout sensor s
  | .graceTimeEnd => Sys2Proof.Machine.execGraceTimeEnd s
  | .recordWrite fails => Sys2Proof.Machine.execRecordWrite fails s
  | .noteWrite seq fails => Sys2Proof.Machine.execNoteWrite seq fails s
  | .sectorErase sector fails => Sys2Proof.Machine.execSectorErase sector fails s
  | .countEntry => Sys2Proof.Machine.execCountEntry s
  | .belThaw => Sys2Proof.Machine.execBelThaw s
  | .railsInRange => Sys2Proof.Machine.execRailsInRange s
  | .pwrgoodAsserted testEn => Sys2Proof.Machine.execPwrgoodAsserted testEn s
  | .pwrgoodDeasserted => Sys2Proof.Machine.execPwrgoodDeasserted s
  | .bistSegmentEnd counter ok ball => Sys2Proof.Machine.execBistSegmentEnd counter ok ball s
  | .bistSegmentTimeout counter => Sys2Proof.Machine.execBistSegmentTimeout counter s
  | .octRdTimeout n => Sys2Proof.Machine.execOctRdTimeout n s
  | .deblockBLanesWarm n => Sys2Proof.Machine.execDeblockBLanesWarm n s
  | .psetApplied verified => Sys2Proof.Machine.execPsetApplied verified s
  | .nonceExpiry => Sys2Proof.Machine.execNonceExpiry s
  | .jtagChallenge => Sys2Proof.Machine.execJtagChallenge s
  | .jtagToken token => Sys2Proof.Machine.execJtagToken token s
  | .jtagMemoryAccess addr write => Sys2Proof.Machine.execJtagMemoryAccess addr write s
  | .debugGrantExpiry => Sys2Proof.Machine.execDebugGrantExpiry s
  | .debugHalt => Sys2Proof.Machine.execDebugHalt s
  | .debugRelease => Sys2Proof.Machine.execDebugRelease s
  | .vkpInRange => Sys2Proof.Machine.execVkpInRange s
  | .mainRailsLost => Sys2Proof.Machine.execMainRailsLost s
  | .perstNRelease => Sys2Proof.Machine.execPerstNRelease s
  | .pcieLinkUp speed width => Sys2Proof.Machine.execPcieLinkUp speed width s
  | .octadEpoch n => Sys2Proof.Machine.execOctadEpoch n s
  | .malformedBlock l isData b => Sys2Proof.Machine.execMalformedBlock l isData b s

end Sys2Proof.Machine
end

