-- ==== Sys2Proof/Machine/RegView.lean ====
section
/-! DEFINITION. What a BAR0 read returns (R556, R557): the word held for the register, with the read-only fields that other
state of the block holds put in their places. -/

namespace Sys2Proof.Machine

/-- Read-only fields of a register that the typed state holds: lowest bit, width, value. -/
abbrev View := List (Nat × Nat × Nat)

def putView (w : Nat) (v : View) : Nat := v.foldl (fun w e => putField w e.1 e.2.1 e.2.2) w

/-! ## Codes of the status fields -/

def DevState.code : DevState → Nat
  | .off => 0 | .reset => 1 | .boot => 2 | .selftest => 3 | .idle => 4 | .run => 5 | .lockout => 6

def OctState.code : OctState → Nat
  | .unconfigured => 0 | .blocked => 1 | .charging => 2 | .running => 3 | .rundown => 4 | .fenced => 5

def LaneState.code : LaneState → Nat
  | .off => 0 | .hunt => 1 | .capx => 2 | .step => 3 | .qual => 4 | .active => 5 | .warm => 6 | .dormant => 7 | .wake => 8
  | .retired => 9

def Servo.code : Servo → Nat
  | .free => 0 | .locked => 1 | .holdover => 2 | .slew => 3 | .split => 4

def Sign.code : Sign → Nat
  | .zero => 0 | .charge => 1 | .discharge => 2

/-- TSTATE and CSTATE; a PLL in its settling wait shows the procedure that the wait ends (log entry 60). -/
def PllSt.code (x : PllSt) (inRelock inHop : Bool) : Nat :=
  match x.state with
  | .search => 0
  | .locked => 1
  | .hop => 2
  | .relock => 3
  | .holdover => 2
  | .failed => 4
  | .settling => if inRelock then 3 else if inHop then 2 else 1

/-- A mask of the numbers below n that p holds of. -/
def maskOf (n : Nat) (p : Nat → Bool) : Nat := (List.range n).foldl (fun m i => m + bit (p i) * 2 ^ i) 0

/-! ## The views, block by block -/

def State.viewDev (s : State) (r : RegRef) : View :=
  match r.df.name with
  | .idUid => [(0, 32, s.ps.uid.toNat / 2 ^ (32 * r.idx))]
  | .idLot0 => [(0, 32, s.ps.lot.toNat)]
  | .idLot1 => [(0, 16, s.ps.lot.toNat / 2 ^ 32)]
  | .idPos => [(0, 8, s.ps.wafer.toNat), (8, 8, s.ps.dieX.toNat), (16, 8, s.ps.dieY.toNat)]
  | .idFw => [(0, 32, ((s.ps.fwRunning.map fun i => (s.ps.fw.get i).version).getD 0).toNat)]
  | .idFwstat => [(0, 1, s.ps.fwRunning.getD 0), (1, 1, bit s.ps.fwFallback), (8, 6, s.ps.svnFloor)]
  | .devStat => [(0, 3, s.sys.dev.code), (4, 4, s.sys.step), (8, 1, bit s.sys.hold)]
  | .bstStat =>
    let b := s.sys.bist
    [(0, 1, bit (b.busy && s.sys.dev != .lockout)), (1, 2, b.result), (3, 1, bit b.lastRetried), (16, 16, b.lastBlock)]
  | .bstBall => [(0, 16, s.sys.bist.ball.toNat)]
  | .bstUse0 => [(0, 32, s.sys.useTile.toNat)]
  | .bstUse1 => [(0, 32, s.sys.useTile.toNat / 2 ^ 32)]
  | .bstUse2 => [(0, 8, s.sys.useOct.toNat), (8, 4, s.sys.useXing.toNat), (16, 11, s.sys.usePin.toNat)]
  | .bstUse3 => [(0, 32, s.sys.useQuad.toNat)]
  | _ => []

def State.viewHif (s : State) (r : RegRef) : View :=
  match r.df.name with
  | .hifStat => [(0, 1, bit s.hif.lost), (2, 3, s.hif.speed), (5, 3, s.hif.width), (8, 1, bit (s.sys.dev == .lockout))]
  | .hifRstat => [(0, 1, bit (s.ring r.idx).halt), (8, 9, s.pendCount r.idx)]
  | _ => []

/-- The entry of the active table that FLT_TBLSEL selects (R407). -/
def State.shownEntry (s : State) : Option Active := s.flt.table[s.fld 0x200030 0 8]?

def State.viewFlt (s : State) (r : RegRef) : View :=
  match r.df.name with
  | .fltStat =>
    [(0, 1, bit s.flt.faultN), (1, 1, bit (s.sys.dev == .lockout)), (2, 1, bit s.flt.fallback), (3, 1, bit s.flt.tblFull),
     (8, 9, s.flt.table.length)]
  | .fltSeq => [(0, 32, s.flt.seq.toNat)]
  | .fltTblent0 => match s.shownEntry with
    | some a => [(0, 16, a.code.toNat), (16, 16, a.src.toNat)]
    | none => []
  | .fltTblent1 => match s.shownEntry with
    | some a => [(0, 32, a.seq.toNat)]
    | none => []
  | .fltTblent2 => match s.shownEntry with
    | some a => [(0, 8, a.clsByte.toNat), (8, 1, 1), (9, 1, bit (s.clearable a)), (16, 16, a.rep)]
    | none => []
  | _ => []

def State.viewTs (s : State) (r : RegRef) : View :=
  let t := s.time
  match r.df.name with
  | .tsStat => [(0, 3, t.servo.code), (3, 1, t.port)]
  | .tsOffset => [(0, 32, unsign 32 (clampI (-(2 ^ 31)) (2 ^ 31 - 1) (rndFrac t.theta (2 ^ 16))))]
  | .tsRate => [(0, 32, unsign 32 t.rate)]
  | .tsDelay => [(0, 32, unsign 32 t.delay)]
  | .tsGmid => [(0, 32, t.gm.toNat / 2 ^ (32 * r.idx))]
  | .tsUtc => [(0, 16, t.utc.toNat), (16, 1, bit t.utcValid)]
  | .tsTime0 => [(0, 32, dtNs t.latchDt)]
  | .tsTime1 => [(0, 32, dtSec t.latchDt)]
  | .tsTime2 => [(0, 16, dtSec t.latchDt / 2 ^ 32), (16, 16, t.latchDt / 2 ^ 40)]
  | .tsTick => [(0, 32, t.latchTick.toNat / 2 ^ (32 * r.idx))]
  | .tsOrgctl => [(1, 1, bit t.orgPend)]
  | .tsHoldsec => if t.servo = .holdover then [(0, 32, s.holdSeconds.toNat)] else []
  | .tsSvstat => [(0, 1, bit (s.svActive r.idx)), (1, 1, bit (s.svs.get r.idx).lost)]
  | .dpwStat => [(0, 1, bit (s.dpwAtSafe r.idx))]
  | .dpwTripstat => [(0, 16, maskOf 16 fun m => (s.trips.get m).latch)]
  | _ => []

def State.viewClk (s : State) (r : RegRef) : View :=
  match r.df.name with
  | .clkStat =>
    [(0, 2, match s.clk.active with
        | some b => bit b
        | none => 2),
     (2, 1, bit s.clk.qualA), (3, 1, bit s.clk.qualB), (4, 3, s.clk.time.code s.clk.bypassTime.isSome false),
     (7, 3, s.clk.core.code false s.clk.hopTo.isSome), (10, 3, s.clk.point)]
  | .clkRatio => [(0, 28, s.clk.rho.toNat)]
  | .eplStat => [(0, 1, bit s.epl.above), (1, 1, bit (s.epl.shed || s.sheds 6)), (2, 1, bit s.epl.dorm)]
  | .thmStat => [(0, 1, bit s.epl.enforce), (1, 1, bit s.epl.grace.isSome), (8, 7, s.epl.src.toNat)]
  | .thmTemp =>
    let x := s.sensors.get r.idx
    [(0, 16, unsign 16 x.code), (16, 1, bit x.valid), (17, 1, bit x.stale), (18, 1, bit x.failed), (19, 3, x.crossed.toNat)]
  | _ => []

def countRecords (l : List Slot) : Nat := l.countP fun x => match x with
  | .record _ => true
  | .torn => false

def State.viewBel (s : State) (r : RegRef) : View :=
  let b := s.bel
  match r.df.name with
  | .belStat =>
    [(0, 1, bit b.frozen.isSome), (1, 1, bit b.readOnly), (2, 3, 4 - b.bspares), (5, 4, 8 - b.gspares),
     (9, 1, bit (b.opsecSat || s.opsecNow == 2 ^ 32 - 1)), (10, 1, bit b.pccSat), (16, 11, min b.staging.length 128)]
  | .belSillcnt => [(0, 12, countRecords b.sill)]
  | .belRingcnt => [(0, 12, countRecords b.ring)]
  | .belLastseq => [(0, 32, b.lastSeq.toNat)]
  | .belOpsec => [(0, 32, s.opsecNow)]
  | .belPcc => [(0, 32, b.pcc)]
  | .belTorn => [(0, 16, b.torn)]
  | .belTomb => match b.tombs.get (r.idx / 8) with
    | some t => [(0, 32, (t.words.getD (r.idx % 8) 0).toNat)]
    | none => []
  | _ => []

/-- The older of the last proven switch-offs of the two block-loop pins, in seconds of the channels' 10 µs samples; all ones
while one was never proven (R435). -/
def State.loopOff (s : State) (n : Nat) : Nat :=
  match (s.kp.a.loops.get n).offAt, (s.kp.b.loops.get n).offAt with
  | some a, some b =>
    let v := max ((s.kp.a.time - a) / 100000) ((s.kp.b.time - b) / 100000)
    if v < 2 ^ 31 then v else 0xFFFFFFFF
  | _, _ => 0xFFFFFFFF

def State.viewKp (s : State) (r : RegRef) : View :=
  let a := s.kp.a
  let b := s.kp.b
  match r.df.name with
  | .kpStat =>
    [(0, 1, bit a.running), (1, 1, bit b.running), (2, 1, bit s.kp.paramOk), (3, 1, bit a.srd.running),
     (4, 1, bit b.srd.running), (5, 1, bit (a.mainReq || b.mainReq)),
     (8, 8, (if a.srd.running then a.srd.octs.toNat else 0) ||| (if b.srd.running then b.srd.octs.toNat else 0))]
  | .kpLoop =>
    [(0, 8, maskOf 8 fun n => (a.loops.get n).enabled), (8, 8, maskOf 8 fun n => (b.loops.get n).enabled),
     (16, 8, maskOf 8 fun n => (a.loops.get n).sbk || (b.loops.get n).sbk)]
  | .kpIn =>
    [(0, 16, maskOf 16 fun i => (a.pairs.get i).demand || (b.pairs.get i).demand),
     (16, 16, maskOf 16 fun i => (a.pairs.get i).faulty || (b.pairs.get i).faulty)]
  | .kpInfilt =>
    [(0, 16, maskOf 16 fun i => (a.pairs.get i).own.level), (16, 16, maskOf 16 fun i => (b.pairs.get i).own.level)]
  | .kpOut =>
    [(0, 8, maskOf 8 fun n => (a.outs.get n).causes.any || (b.outs.get n).causes.any),
     (8, 8, maskOf 8 fun n => (a.outs.get n).fb.level || (b.outs.get n).fb.level),
     (16, 8, maskOf 8 fun n => (a.outs.get n).fbTo || (b.outs.get n).fbTo),
     (24, 8, maskOf 8 fun n => (a.outs.get n).testFail || (b.outs.get n).testFail)]
  | .kpSrda => [(0, 16, a.srd.e0.getD 0), (16, 16, a.m)]
  | .kpSrdb => [(0, 16, b.srd.e0.getD 0), (16, 16, b.m)]
  | .kpPcrc => [(0, 32, a.pcrc.toNat)]
  | .kpFreq => [(0, 16, a.count.toNat), (16, 16, b.count.toNat)]
  | .kpLoopoff => [(0, 32, s.loopOff r.idx)]
  | .kpFallback => match s.kp.fallRec with
    | some f => [(0, 32, leAt (recordBytes f) (4 * r.idx) 4)]
    | none => []
  | _ => []

/-- ACTIVE and REVOKED marks of the slots of a role: role A slots 0 to 3, role B slots 4 to 7 (R439). -/
def State.slotMask (s : State) (role : Nat) (k : KeyState) : Nat := maskOf 4 fun i => decide ((s.ps.keys.get (4 * role + i)).state = k)

def State.viewPset (s : State) (r : RegRef) : View :=
  let p := s.ps
  match r.df.name with
  | .psetStat =>
    [(0, 2, p.profile.code), (2, 1, bit p.image.isSome), (3, 1, bit s.nonceLive), (4, 1, bit p.commit.isSome),
     (8, 8, p.err.toNat), (16, 8, s.octCfg)]
  | .psetSeq => [(0, 32, p.seq.toNat)]
  | .psetDigest => [(0, 32, p.digest.toNat / 2 ^ (32 * r.idx))]
  | .psetKeys =>
    [(0, 4, s.slotMask 0 .active), (4, 4, s.slotMask 0 .revoked), (8, 4, s.slotMask 1 .active), (12, 4, s.slotMask 1 .revoked),
     (16, 1, bit (decide (p.owner.state = .active)))]
  | .psetDbg =>
    let g : View := match p.grant with
      | some (sc, t) => if s.now < t then [(0, 1, 1), (1, 4, sc.toNat), (16, 16, min ((t - s.now) / secTicks) 65535)] else []
      | none => []
    (8, 8, p.tokenResult.toNat) :: g
  | .psetNmin => [(0, 16, s.nMin (2 * r.idx)), (16, 16, s.nMin (2 * r.idx + 1))]
  | _ => []

def State.viewOct (s : State) (r : RegRef) : View :=
  let n := r.own
  let o := s.oct n
  match r.df.name with
  | .octStat => [(0, 3, o.state.code), (8, 8, o.dberr.toNat)]
  | .selStat => [(0, 2, o.sign.code), (2, 1, bit o.discharge), (8, 10, o.nins), (18, 10, o.ncand)]
  | .ldgStat =>
    [(0, 1, bit (s.ofld n 0x2408 0 16 == 0 || s.ofld n 0x2408 16 16 == 0)),
     (2, 1, bit ((s.octCells n).any fun c => (s.cell c).c0 == 0xFFFFFFFF))]
  | .octTrimcar => [(0, 21, unsign 21 o.carry)]
  | _ => []

def State.viewEng (s : State) (r : RegRef) : View :=
  let e := s.eng r.own
  match r.df.name with
  | .ceStat =>
    [(0, 1, bit e.loaded.isSome), (1, 1, bit e.committed), (2, 1, bit e.bankSel), (3, 1, bit e.swap.isSome), (4, 2, e.ovrRun),
     (8, 8, e.loaderr.toNat)]
  | .ceBound => [(0, 16, (e.loaded.map Graph.cx).getD 0)]
  | .ceCapctl => [(8, 3, decEff s r.own)]
  | .ceInjstat => [(0, 4, maskOf 4 fun g => (e.inj.get g).active), (4, 4, maskOf 4 fun g => (e.inj.get g).pend)]
  | .ceStale => [(0, 32, maskOf 32 fun c => (e.mbox.get (32 * r.idx + c)).stale)]
  | .ceMode =>
    [(0, 3, e.mode), (3, 1, bit (!e.modeTable.isEmpty)), (4, 1, bit e.armed.isSome), (5, 1, bit e.splice.active),
     (8, 8, e.mloaderr.toNat), (16, 10, min e.splice.n 1023)]
  | _ => []

def State.viewLane (s : State) (r : RegRef) : View :=
  let x := s.lane r.own
  match r.df.name with
  | .lnkStat =>
    [(0, 4, x.state.code), (4, 2, x.speed), (6, 2, x.q), (8, 1, bit x.lock), (9, 1, bit x.serving), (16, 5, x.fill)]
  | .lnkRtcnt => [(0, 3, (x.recent s.now).length)]
  | .lnkEyectl => [(1, 1, bit x.eye.isSome)]
  | .lnkDelay => [(0, 24, unsign 24 x.delay), (31, 1, bit x.delayValid)]
  | .lnkTerr => [(0, 24, unsign 24 x.terr), (24, 1, bit x.tlock)]
  | _ => []

def State.view (s : State) (r : RegRef) : View :=
  s.viewDev r ++ s.viewHif r ++ s.viewFlt r ++ s.viewTs r ++ s.viewClk r ++ s.viewBel r ++ s.viewKp r ++ s.viewPset r
    ++ s.viewOct r ++ s.viewEng r ++ s.viewLane r

/-- A byte of the protection-set image in force, which is readable at 0x0071_0000 (R462). -/
def State.imageWord (s : State) (o : Nat) : Word := BitVec.ofNat 32 (leAt (s.ps.image.getD []) o 4)

/-- What a read of an aligned BAR0 word returns; zero where no table defines a register (R557). -/
def State.readBar0 (s : State) (a : Nat) : Word :=
  if inImage a then s.imageWord (a - 0x710000)
  else
    match regAt a with
    | none => 0
    | some r => BitVec.ofNat 32 (putView (s.reg a).toNat (s.view r))

end Sys2Proof.Machine
end

