-- ==== Sys2Proof/Safety.lean ====
section
/-! DEFINITION. What a safe run is, and the conditions and frames in whose terms the statements are made: a descriptor whose
turn has come, the completion it gets, what a fault and its reaction leave alone, the canonical form of a state. -/

namespace Sys2Proof.Machine

/-! ## Runs -/

/-- The state after n steps, if each answers a next state. -/
def runN : Nat → State → Option State
  | 0, s => some s
  | n + 1, s => match step s with
    | .next t => runN n t
    | _ => none

/-- A run of n steps is safe when none of them stops. -/
def safeFor (n : Nat) (s : State) : Prop := (runN n s).isSome = true

/-! ## Descriptors -/

/-- The ring, header and body of a descriptor command; none for the other commands. -/
def descriptorOf : Instr → Option (Nat × Hdr × Body)
  | .nop ring h => some (ring, h, .nop)
  | .deblock n h t => some (octRing n, h, .deblock t)
  | .block n h => some (octRing n, h, .block)
  | .rundown n h => some (octRing n, h, .rundown)
  | .mboxWrite e h ws => some (engRing e, h, .mboxWrite ws)
  | .coefWrite e h b f => some (engRing e, h, .coefWrite b f)
  | .coefSwap e h => some (engRing e, h, .coefSwap)
  | .injStart e h p => some (engRing e, h, .injStart p)
  | .injStop e h m => some (engRing e, h, .injStop m)
  | .cellQuery n h c sel => some (octRing n, h, .cellQuery c sel)
  | .cellRetire n h c => some (octRing n, h, .cellRetire c)
  | .ldgSnapshot n h => some (octRing n, h, .ldgSnapshot)
  | .imgStage h b o => some (0, h, .imgStage b o)
  | .lawLoad h e l => some (0, h, .lawLoad e l)
  | .modeLoad h e l => some (0, h, .modeLoad e l)
  | .modeChange h p => some (0, h, .modeChange p)
  | .tripClear h m => some (0, h, .tripClear m)
  | .timeStep h => some (0, h, .timeStep)
  | .enumerate h t l => some (0, h, .enumerate t l)
  | .c0Write h c v => some (0, h, .c0Write c v)
  | .c0Clear h c => some (0, h, .c0Clear c)
  | .c0Adopt h o => some (0, h, .c0Adopt o)
  | .faultClear h c u => some (0, h, .faultClear c u)
  | .faultRelease h => some (0, h, .faultRelease)
  | .thmDemand h m => some (0, h, .thmDemand m)
  | .belRead h b a f c => some (0, h, .belRead b a f c)
  | .belFreeze h => some (0, h, .belFreeze)
  | .belfryThaw h => some (0, h, .belfryThaw)
  | .bistRun h b => some (0, h, .bistRun b)
  | .bistRequalify h b => some (0, h, .bistRequalify b)
  | .psetNonce h b => some (0, h, .psetNonce b)
  | .psetCommit h l => some (0, h, .psetCommit l)
  | .keyChange h l => some (0, h, .keyChange l)
  | .attest h b c => some (0, h, .attest b c)
  | .fwInstall h sl l => some (0, h, .fwInstall sl l)
  | _ => none

/-- A descriptor command that its ring takes and that starts at once: untimed, with nothing of its ring ahead of it, every check
of R357 passed, its completion ring running. -/
structure State.Ready (s : State) (r : Nat) (h : Hdr) (b : Body) : Prop where
  takes : s.canTake r = true
  first : (s.ring r).untimed = []
  idle : s.ringBusy r = false
  untimed : h.act = none
  starts : s.mayStart b = true
  checked : s.descCheck r h b = none
  runs : (s.ring (10 + r)).halt = false

/-- The completion entry that a descriptor of ring r gets (R363), as the last thing that has left the block. -/
def State.answered (s t : State) (r : Nat) (h : Hdr) (b : Body) (st : Status) (frame : Word) (result : Nat) : Prop :=
  t.out.getLast? = some (s.completionOut (10 + r) st (bodyCode b) h.tag (s.ring r).dev frame result)

/-- The descriptor of a command at its place in its ring. -/
def State.descOf (s : State) (r : Nat) (h : Hdr) (b : Body) : Desc := ⟨r, (s.ring r).dev, h, b⟩

/-! ## Register writes -/

/-- The word that a write of v to a register would give (steps 5 and 8 of R558). -/
def State.takenWord (s : State) (r : RegRef) (v : Word) : Word := takeWord r.df.fields (s.hotMask r.addr) (s.reg r.addr) v

/-- A whole-word write of v that reaches the register r at offset a and passes every step of R558. -/
structure State.WriteTaken (s : State) (a : Nat) (v : Word) (r : RegRef) : Prop where
  reach : s.hostReach = true
  dev : s.sys.dev = .idle ∨ s.sys.dev = .run
  found : regAt a = some r
  free : s.kingpostDrives r = false
  range : r.df.fields.all (Fld.inRange · v) = true
  span : s.rangeOk r (s.takenWord r v) = true
  lock : s.lockOk r v (s.takenWord r v) = true

/-- One flag of a register set by hardware and nothing else changed, but for the note of the tick that set it. -/
def State.flagged (s t : State) (a i : Nat) : Prop :=
  t.reg a = s.reg a ||| BitVec.twoPow 32 i ∧ (∀ b, b ≠ a → t.reg b = s.reg b)
    ∧ t = { s with regs := t.regs, hotAt := t.hotAt, hot := t.hot }

/-- The registers whose writing starts or changes something beside the word itself. -/
def RegName.starts : RegName → Bool
  | .hifCtrl | .hifRcfg | .tsTrgcfg | .tsTrgofs | .tsTrgper | .tsTrgt0 | .tsTrgt0s | .dpwCfg | .dpwPer | .dpwOfs | .dpwMinp
  | .clkCtrl | .clkHop | .clkHopcfg | .lnkCfg | .lnkEyectl | .eplCtrl | .ldgScale | .tsSpcfg | .tsSvcfg | .tsOrgctl
  | .belCtrl => true
  | _ => false

/-! ## What a fault with its reaction leaves alone -/

/-- A cell without what a reaction may change: the retired mark, the open window's sums, the committed set and its edges. -/
def Cell.core (c : Cell) : Cell :=
  { c with retired := false, sqv := 0, svv := 0, nq := 0, tc := 0, tcAdd := 0, ins := false, cmd := .hold, edges := [], level := false,
           cmdq := [] }

/-- An octad without what a reaction may change: its state, its window, its selection under way, a Deblock on its way. -/
def Octad.core (o : Octad) : Octad :=
  { o with state := .blocked, deb := .none, disturbed := false, window := 0, counted := false, countedPrev := false, carry := 0,
           nins := 0, lateRun := 0, selRunning := false, selDone := none, tcDone := false }

/-- The state without what a reaction may change. -/
def State.core (s : State) : State :=
  { s with
    regs := [], hotAt := 0, hot := [], out := [], sys := { s.sys with dev := .off, sbkReq := false }, octs := .empty .init,
    lanes := .empty .init, cells := .empty .init, engs := .empty .init, dpws := .empty .init, sports := .empty .init,
    svs := .empty .init, modeReq := none, flt := .init, kp := { s.kp with fallRec := none, fallDirty := false },
    ps := { s.ps with commit := s.ps.commit.map fun c => { c with locked := false } } }

/-- Everything that raising a fault, or a part of its reaction, leaves as it was. -/
structure RaiseFrame (s t : State) : Prop where
  core : t.core = s.core
  reg : ∀ a, a < 0x200000 → t.reg a = s.reg a
  cell : ∀ c, (t.cell c).core = (s.cell c).core
  oct : ∀ n, (t.oct n).core = (s.oct n).core
  eng : ∀ e, { t.eng e with armed := none } = { s.eng e with armed := none }
  out : s.out <+: t.out
  retired : ∀ c, (s.cell c).retired = true → (t.cell c).retired = true
  state : ∀ n, (t.oct n).state = (s.oct n).state ∨ (t.oct n).state = .fenced
    ∨ ((t.oct n).state = .blocked ∧ (s.oct n).state.active = true)
  lane : ∀ l, t.lane l = s.lane l ∨ (t.lane l).state = .retired

/-! ## Lanes -/

/-- The lane hunts at L1 in a retrain that started now (R166, R167). -/
def Lane.retraining (x : Lane) (now : Nat) : Prop :=
  x.state = .hunt ∧ x.proc = .retrain ∧ x.rtAt = some now ∧ x.huntAt = now ∧ x.lock = false ∧ x.speed = 0 ∧ x.serving = false

/-- A retrain trigger has acted on a lane: it retrains, or its fourth start within 1 s has retired it (R168). -/
def State.triggered (s t : State) (l : Nat) : Prop :=
  (((s.lane l).recent s.now).length < 3 → (t.lane l).retraining s.now)
    ∧ ((t.lane l).retraining s.now ∨ (t.lane l).state = .retired)

/-! ## What only its own commands change -/

/-- The commands that may write Kingpost's state (R410): its own inputs and clocks, and those that give it the parameters of a
protection set, at a commit and at boot. -/
def writesKingpost : Instr → Bool
  | .kpInputSample .. | .kpEvaluationCycle _ | .kpHandshake .. | .kpXchTimeout _ | .kpInFaulty .. | .kpSrdMeasurement ..
  | .kpFbTimeout .. | .darkPulseStart .. | .kpTestFail .. | .kpParamApply | .kpParamReject | .vkpOutOfRange | .vkpInRange
  | .psetApplied _ | .pwrgoodAsserted _ => true
  | _ => false

/-- The commands that reset the main device's registers and counts: PWRGOOD rising, and the loss of its rails. -/
def resetsMain : Instr → Bool
  | .pwrgoodAsserted _ | .mainRailsLost => true
  | _ => false

/-! ## The canonical form of a state -/

/-- Register words: offsets rise, and none is listed that holds its reset word (R559). -/
def regsCanonical (l : List (Nat × Word)) : Prop :=
  (l.Pairwise fun x y => x.1 < y.1) ∧ ∀ e ∈ l, e.2 ≠ resetWord e.1

/-- The registers and the staging area are in their canonical forms. -/
def State.canonical (s : State) : Prop := regsCanonical s.regs ∧ Memory.wf s.staging = true

end Sys2Proof.Machine
end

