-- ==== Sys2Proof/Certificates/Slice0/Obligations.lean ====
section
/-! DEFINITION. The statements for the provers: `def Obligations.<Name> : Prop`. -/

open Sys2Proof Sys2Proof.Machine

/-! ## Steps, the queue, the invariants -/

/-- A step runs the command at the front of the queue on the state with the queue's rest. -/
def Obligations.StepRunsFrontCommand : Prop :=
  ∀ (c : Instr) (q : List Instr) (s : State), s.pending = c :: q →
    step s = exec c (s.withPending q) ∧ (s.withPending q).pending = q

/-- With no command waiting a step is one clock of the timebase: the tick count rises by one once the time PLL has first locked (R112), on the bypass
oscillator by the integer part of the accumulated ρ (R480), and no command appears in the queue. While the host interface is off, no lane transmits,
no untimed descriptor waits for its turn and no shut-down, thaw or abandoned BIST run is under way, and no write is to be undone, nothing but the
tick count, device time, ρ and the counted activity changes. That an idle step IS a clock is the model's choice (log entry 12). -/
def Obligations.IdleStepCountsOneTick : Prop :=
  ∀ s : State, s.pending = [] → ∃ t, step s = .next t ∧ t.pending = []
    ∧ (s.clk.started = false → t.tick = s.tick)
    ∧ (s.clk.started = true → s.clk.bypassTime = none → t.tick = s.tick + 1)
    ∧ (∀ b, s.clk.started = true → s.clk.bypassTime = some b →
        t.tick = s.tick + BitVec.ofNat 64 ((s.clk.frac + s.clk.rho.toNat) / 2 ^ 24))
    ∧ (s.hifEn = false → (∀ e ∈ s.lanes.ents, e.2.state.transmits = false) → s.out.length ≤ s.txSeen →
        (∀ r < 10, (s.ring r).untimed = []) → s.bel.shut = 0 → s.bel.thawAt = none →
        (s.sys.dev = .lockout → s.sys.bist.blocks = [] ∧ s.wrote = []) →
        t = { s with
            tick := t.tick
            wrote := []
            free := t.free
            txSeen := t.txSeen
            time := { s.time with dt := t.time.dt }
            clk := { s.clk with pre := t.clk.pre, rho := t.clk.rho, rhoAt := t.clk.rhoAt, frac := t.clk.frac, stepped := t.clk.stepped }
            epl := { s.epl with live := t.epl.live } }
        ∧ (s.clk.started = false → t = { s with wrote := [], clk := { s.clk with pre := s.clk.pre + 1 } })
        ∧ (∀ b, s.clk.started = true → s.clk.bypassTime = some b → t.clk.frac = (s.clk.frac + s.clk.rho.toNat) % 2 ^ 24 ∧ t.free = s.free)
        ∧ (s.clk.started = true → s.clk.bypassTime = none → s.time.rate = 0 → t.time.dt = s.time.dt + 5 * 2 ^ 55))

/-- No command stops the block, and none touches the queue of waiting commands: whatever the command and the state, exec answers a next state with
the same queue. -/
def Obligations.CommandsAnswerAndLeaveTheQueue : Prop :=
  ∀ (c : Instr) (s : State), ∃ t, exec c s = .next t ∧ t.pending = s.pending

/-- R410: debug halt, JTAG, PERST_N, host writes and every state of the main device leave Kingpost as it is, the fall-back collector's record in its
domain apart (R396); it changes only by its own inputs and clocks and by the parameters of a protection set. R112: no command steps or reloads the
tick count, and none stops it once it has started, but for those that reset the main device. -/
def Obligations.OnlyTheirOwnChangeKingpostAndTicks : Prop :=
  (∀ (c : Instr) (s t : State), writesKingpost c = false → exec c s = .next t →
      t.kp = { s.kp with fallRec := t.kp.fallRec, fallFirst := t.kp.fallFirst, fallDirty := t.kp.fallDirty })
  ∧ (∀ (c : Instr) (s t : State), resetsMain c = false → exec c s = .next t →
      t.tick = s.tick ∧ (s.clk.started = true → t.clk.started = true))

/-- Right after reset the registers and the staging area are in their canonical forms, with nothing listed; a read of an offset that no table
defines returns zero (R557), and right after reset a read of a register returns its reset word (R559). -/
def Obligations.ResetIsCanonicalAndReadsAsStated : Prop :=
  (State.reset.canonical ∧ State.reset.regs = [] ∧ State.reset.staging = [] ∧ State.reset.pending = [])
  ∧ ((∀ (a : Nat) (s : State), regAt a = none → inImage a = false → s.readBar0 a = 0)
     ∧ State.reset.readBar0 0x0 = 0x4A9610B3 ∧ State.reset.readBar0 0x4 = 0x3141 ∧ State.reset.readBar0 0x24 = 0x40961F6B
     ∧ State.reset.readBar0 0x110 = 8 ∧ State.reset.readBar0 0x100000 = 0xC808 ∧ State.reset.readBar0 0x200020 = 0x14
     ∧ State.reset.readBar0 0x300004 = 0x000A0602 ∧ State.reset.readBar0 0x308000 = 0x00080F04
     ∧ State.reset.readBar0 0x400004 = 2 ∧ State.reset.readBar0 0x401018 = 0xFFFFFFFF ∧ State.reset.readBar0 0x402010 = 0x7F00
     ∧ State.reset.readBar0 0x500004 = 0x110 ∧ State.reset.readBar0 0x600004 = 0x00FF0000 ∧ State.reset.readBar0 0x600040 = 0xFFFFFFFF
     ∧ State.reset.readBar0 0x800008 = 0x00380018 ∧ State.reset.readBar0 0x802000 = 0xF089 ∧ State.reset.readBar0 0x802414 = 1
     ∧ State.reset.readBar0 0x803010 = 0xC000C000 ∧ State.reset.readBar0 0x808200 = 6 ∧ State.reset.readBar0 0x808300 = 3)

/-- Every step, from every state, keeps the canonical forms: register offsets rise and no word is listed at its reset value; staging addresses rise,
stay inside the 131,072 bytes of R366, and none is listed at the unwritten value. -/
def Obligations.StepKeepsCanonical : Prop :=
  ∀ s t : State, s.canonical → step s = .next t → t.canonical

/-! ## Descriptors: checks, waiting, LOCKOUT (R357 to R361, R344) -/

/-- R357: a descriptor that fails a check completes with that check's status, has no effect, and its ring goes on; nothing else changes, but for the
PSET_REJECT of a PSET_COMMIT (R461). -/
def Obligations.FailedCheckCompletesWithoutEffect : Prop :=
  ∀ (c : Instr) (r : Nat) (h : Hdr) (b : Body) (s : State) (st : Status), descriptorOf c = some (r, h, b) →
    s.canTake r = true → (s.ring (10 + r)).halt = false → s.descCheck r h b = some st →
    ∃ t, exec c s = .next t ∧ s.answered t r h b st 0 0
      ∧ (bodyCode b ≠ 0x31 → t = { s with out := t.out, rings := t.rings })
      ∧ (bodyCode b = 0x31 → RaiseFrame { s with rings := t.rings } t) ∧ t.out.length = s.out.length + 1
      ∧ (t.ring r).dev = (s.ring r).dev + 1 ∧ ∀ q, q ≠ r → q ≠ 10 + r → t.ring q = s.ring q

/-- Checks 1 to 6 of R357 in their order: the first that fails sets the status. -/
def Obligations.ChecksSetTheirStatus : Prop :=
  ∀ (r : Nat) (h : Hdr) (b : Body) (s : State),
    (opOnRing (bodyCode b) r = false → s.descCheck r h b = some .badOpcode)
    ∧ (opOnRing (bodyCode b) r = true → descWell r h b = false → s.descCheck r h b = some .refused)
    ∧ (∀ u, bodyBuf b = some u → opOnRing (bodyCode b) r = true → descWell r h b = true →
        (u.len = 0 → s.descCheck r h b = some .lenZero)
        ∧ (u.len ≠ 0 → u.buflen.toNat < u.len.toNat → s.descCheck r h b = some .lenOver)
        ∧ (∀ a ofs, b = .imgStage a ofs → a.len ≠ 0 → 131072 < ofs.toNat + a.len.toNat → s.descCheck r h b = some .lenOver))
    ∧ (∀ ka, h.act = some ka → bodyBuf b = none → opOnRing (bodyCode b) r = true → descWell r h b = true →
        65535 < frameDiff ka s.nextBoundary → s.descCheck r h b = some .refused)
    ∧ (s.sys.dev = .lockout → s.lockoutAllows (bodyCode b) = false → h.act = none → bodyBuf b = none →
        opOnRing (bodyCode b) r = true → descWell r h b = true → s.descCheck r h b = some .state)

/-- R360, R361: a timed descriptor waits in its ring's pending list, which holds 256, and completes with BUSY when the list is full. At a base frame
boundary whose timed descriptors have been judged it is judged at once: one whose frame lies ahead waits, one more than two frames late completes
with MISSED, one in time is carried out. A descriptor command that its ring cannot take waits with the host: nothing changes (log entry 13). -/
def Obligations.TimedAndUntakenDescriptorsWait : Prop :=
  (∀ (c : Instr) (r : Nat) (h : Hdr) (b : Body) (s : State) (ka : Word), descriptorOf c = some (r, h, b) →
     (∀ p, b ≠ .modeChange p) → s.canTake r = true → (s.ring (10 + r)).halt = false → s.descCheck r h b = none → h.act = some ka →
     ∃ t, exec c s = .next t
       ∧ (s.pendCount r < 256 → s.activated = false →
           (t.ring r).pend = (s.ring r).pend ++ [s.descOf r h b] ∧ t = { s with rings := t.rings })
       ∧ (s.pendCount r < 256 → s.activated = true → frameDiff s.fr.k ka < 0 → -65535 ≤ frameDiff s.fr.k ka →
           (t.ring r).pend = (s.ring r).pend ++ [s.descOf r h b] ∧ t = { s with rings := t.rings })
       ∧ (256 ≤ s.pendCount r → s.answered t r h b .busy 0 0 ∧ (t.ring r).pend = (s.ring r).pend
           ∧ (bodyCode b ≠ 0x31 → t = { s with out := t.out, rings := t.rings }))
       ∧ (s.pendCount r < 256 → s.activated = true → 2 < frameDiff s.fr.k ka →
           s.answered t r h b .missed 0 0 ∧ (t.ring r).pend = (s.ring r).pend
           ∧ (bodyCode b ≠ 0x31 → t = { s with out := t.out, rings := t.rings }))
       ∧ (b = .nop → s.pendCount r < 256 → s.activated = true → 0 ≤ frameDiff s.fr.k ka → frameDiff s.fr.k ka ≤ 2 →
           s.answered t r h b (if frameDiff s.fr.k ka = 0 then .ok else .late) s.fr.k 0 ∧ t = { s with out := t.out, rings := t.rings }))
  ∧ (∀ (c : Instr) (r : Nat) (h : Hdr) (b : Body) (s : State), descriptorOf c = some (r, h, b) → s.canTake r = false →
       exec c s = .next s)

/-! ## Octad descriptors -/

/-- NOP completes OK with nothing else done; BLOCK of an active octad brings it to Blocked, its hubs told by an immediate BLOCK on every lane with
block lock; RUNDOWN of a Charging or Running octad brings it to Run-down, the entry noted, and its engine towards RD_MODE when RD_MEN is set and its
mode table holds it (R544).  (Complete with their own effect: `nop`, `block`, `rundown`.) -/
def Obligations.NopBlockAndRundownComplete : Prop :=
  (∀ (ring : Fin 10) (h : Hdr) (s : State), s.Ready ring h .nop → ∃ t, exec (.nop ring h) s = .next t
    ∧ s.answered t ring h .nop .ok s.fr.k 0 ∧ t = { s with out := t.out, rings := t.rings })
  ∧ (∀ (n : Fin 8) (h : Hdr) (s : State), s.Ready (octRing n) h .block → (s.oct n).state.active = true →
    ∃ t, exec (.block n h) s = .next t ∧ (t.oct n).state = .blocked ∧ s.answered t (octRing n) h .block .ok s.fr.k 0
      ∧ (∀ i < 16, (s.lane (16 * n + i)).lock = true → .laneBlock (16 * n + i) (abortBlk 0 (s.tick.setWidth 32)) ∈ t.out)
      ∧ (∀ m, m ≠ n.val → (t.oct m) = (s.oct m))
      ∧ RaiseFrame { s with rings := t.rings } t)
  ∧ (∀ (n : Fin 8) (h : Hdr) (s : State), s.Ready (octRing n) h .rundown →
    ((s.oct n).state = .charging ∨ (s.oct n).state = .running) →
    ∃ t, exec (.rundown n h) s = .next t ∧ s.answered t (octRing n) h .rundown .ok s.fr.k 0
      ∧ t = { s with
          octs := s.octs.upd n fun o => { o with state := .rundown, rdEntry := s.now }
          engs := if s.ofld n 4 7 1 = 1 ∧ s.ofld n 4 8 3 < (s.eng n).modes.length then
              s.engs.upd n fun e => { e with pending := e.pending ++
                [⟨s.ofld n 4 8 3, e.sampleFrame + 1, ((e.modes[s.ofld n 4 8 3]?).map (·.ns)).getD 0⟩] }
            else s.engs
          out := t.out
          rings := t.rings })
  ∧ (∀ (n : Fin 8) (h : Hdr) (s : State), s.Ready (octRing n) h .rundown →
    (s.oct n).state ≠ .charging → (s.oct n).state ≠ .running →
    ∃ t, exec (.rundown n h) s = .next t ∧ s.answered t (octRing n) h .rundown .state 0 0
      ∧ t = { s with out := t.out, rings := t.rings })

/-- R540 to R542: DEBLOCK of a Blocked octad whose checks of Table 18-6 hold takes effect in this frame and its descriptor waits for the dispatch;
the first check that fails is shown in DBERR and completes with STATE; a Charging octad with target Running is released at once, or refused with
check 0x0C while its loop is disabled (R420).  (Completes with its own effect: `deblock`.) -/
def Obligations.DeblockChecksAndArms : Prop :=
  ∀ (n : Fin 8) (h : Hdr) (target : Byte) (s : State), s.Ready (octRing n) h (.deblock target) →
    ((s.oct n).state = .blocked → (s.oct n).deb = .none → s.bistOn n = false → s.sys.halt = false → s.deblockErr n = some 0 →
      (∀ e ∈ (s.oct n).epochs.head?, e < s.fr.epoch) →
      ∃ t, exec (.deblock n h target) s = .next t
        ∧ t = { s with
            octs := s.octs.upd n fun o => { o with deb := .armed (if target = 1 then .charging else .running) s.fr.k }
            hif := { s.hif with waiting :=
              s.hif.waiting ++ [⟨s.descOf (octRing n) h (.deblock target), .dispatch n, false⟩] }
            rings := t.rings })
    ∧ (∀ e, (s.oct n).state = .blocked → (s.oct n).deb = .none → s.bistOn n = false → s.sys.halt = false → s.deblockErr n = some 0 →
      (s.oct n).epochs.head? = some e → s.fr.epoch ≤ e →
      ∃ t, exec (.deblock n h target) s = .next t ∧ (t.oct n).selIn = 2
        ∧ ((t.oct n).state = (if target = 1 then .charging else .running) ∨ (t.oct n).state = .fenced
            ∨ (t.oct n).state = .blocked)
        ∧ t.hif.waiting = s.hif.waiting ++ [⟨s.descOf (octRing n) h (.deblock target), .dispatch n, false⟩])
    ∧ ((s.oct n).state = .blocked → (s.oct n).deb = .none → s.bistOn n = false → s.sys.halt = false → s.deblockErr n = none →
      ∃ t, exec (.deblock n h target) s = .next t
        ∧ (t.oct n).deb = .waitB (if target = 1 then .charging else .running) s.now
        ∧ t.hif.waiting = s.hif.waiting ++ [⟨s.descOf (octRing n) h (.deblock target), .dispatch n, false⟩])
    ∧ (∀ c, (s.oct n).state = .blocked → (s.oct n).deb = .none → s.bistOn n = false → s.sys.halt = false → s.deblockErr n = some (c + 1) →
      ∃ t, exec (.deblock n h target) s = .next t ∧ s.answered t (octRing n) h (.deblock target) .state 0 0
        ∧ (t.oct n).dberr = BitVec.ofNat 8 (c + 1)
        ∧ (c + 1 ≠ 0x0A →
          t = { s with octs := s.octs.upd n fun o => { o with dberr := BitVec.ofNat 8 (c + 1) }, out := t.out, rings := t.rings })
        ∧ RaiseFrame { s with octs := s.octs.upd n fun o => { o with dberr := BitVec.ofNat 8 (c + 1) }, rings := t.rings } t)
    ∧ ((s.oct n).state = .charging → target = 2 → s.loopDisabled n = true →
      ∃ t, exec (.deblock n h target) s = .next t ∧ s.answered t (octRing n) h (.deblock target) .state 0 0
        ∧ t = { s with octs := s.octs.upd n fun o => { o with dberr := 0x0C }, out := t.out, rings := t.rings })
    ∧ ((s.oct n).state = .charging → target = 2 → s.loopDisabled n = false →
      ∃ t, exec (.deblock n h target) s = .next t ∧ s.answered t (octRing n) h (.deblock target) .ok s.fr.k 0
        ∧ t = { s with octs := s.octs.upd n fun o => { o with state := .running }, out := t.out, rings := t.rings })
/-- LDG_SNAPSHOT writes its records at once, or, while snapshots are shed, is put off (R109, R493): its descriptor completes with OK. CELL_QUERY of
a slot with an entry asks for it in the next dispatch, to which its descriptor waits (R78, R204). CELL_RETIRE retires a cell that its octad can
spare (R60, R107), answers RESULT 1 where R107 fences instead, and changes nothing of a cell that is retired already.  (Complete with their own
effect: `cellQuery`, `cellRetire`, `ldgSnapshot`.) -/
def Obligations.SnapshotQueryAndRetirement : Prop :=
  ((∀ (n : Fin 8) (h : Hdr) (s : State), s.Ready (octRing n) h .ldgSnapshot → s.sheds 3 = true →
     ∃ t, exec (.ldgSnapshot n h) s = .next t ∧ s.answered t (octRing n) h .ldgSnapshot .ok s.fr.k 0
       ∧ t = { s with octs := s.octs.upd n fun o => { o with snapReq := true }, out := t.out, rings := t.rings })
   ∧ (∀ (n : Fin 8) (h : Hdr) (s : State), s.Ready (octRing n) h .ldgSnapshot → s.sheds 3 = false →
     ∃ t, exec (.ldgSnapshot n h) s = .next t ∧ s.answered t (octRing n) h .ldgSnapshot .ok s.fr.k 0
       ∧ (∃ l, (s.writeSnapshot n).out = s.out ++ l ∧ s.out ++ l <+: t.out ∧ t.out.length = s.out.length + l.length + 1)
       ∧ t = { s with
           octs := s.octs.upd n fun o => { o with snapReq := false }
           regs := (s.writeSnapshot n).regs
           epl := (s.writeSnapshot n).epl
           out := t.out
           rings := t.rings }))
  ∧ ((∀ (n : Fin 8) (h : Hdr) (cell sel : BitVec 16) (s : State), s.Ready (octRing n) h (.cellQuery cell sel) →
       (s.oct n).state ≠ .unconfigured → (s.cell cell.toNat).populated = true →
       (s.servingLane (cell.toNat / 64)).isSome = true →
       ∃ t, exec (.cellQuery n h cell sel) s = .next t
         ∧ t = { s with hif := { s.hif with waiting :=
             s.hif.waiting ++ [⟨s.descOf (octRing n) h (.cellQuery cell sel), .query n cell.toNat, false⟩] }, rings := t.rings })
     ∧ (∀ (n : Fin 8) (h : Hdr) (cell sel : BitVec 16) (s : State), s.Ready (octRing n) h (.cellQuery cell sel) →
       ((s.oct n).state = .unconfigured ∨ (s.cell cell.toNat).populated = false ∨ s.servingLane (cell.toNat / 64) = none) →
       ∃ t, exec (.cellQuery n h cell sel) s = .next t ∧ s.answered t (octRing n) h (.cellQuery cell sel) .state 0 0
         ∧ t = { s with out := t.out, rings := t.rings }))
  ∧ ((∀ (n : Fin 8) (h : Hdr) (cell : BitVec 16) (s : State), s.Ready (octRing n) h (.cellRetire cell) →
       (s.cell cell.toNat).populated = true → (s.cell cell.toNat).retired = false →
       ∃ t, exec (.cellRetire n h cell) s = .next t ∧ RaiseFrame { s with rings := t.rings } t
         ∧ (s.keepsNmin (cell.toNat / 512) [cell.toNat] = true → (t.cell cell.toNat).retired = true
             ∧ s.answered t (octRing n) h (.cellRetire cell) .ok s.fr.k 0)
         ∧ (s.keepsNmin (cell.toNat / 512) [cell.toNat] = false →
             s.answered t (octRing n) h (.cellRetire cell) .ok s.fr.k 1))
     ∧ (∀ (n : Fin 8) (h : Hdr) (cell : BitVec 16) (s : State), s.Ready (octRing n) h (.cellRetire cell) →
       ((s.cell cell.toNat).populated = false ∨ (s.cell cell.toNat).retired = true) →
       ∃ t, exec (.cellRetire n h cell) s = .next t ∧ s.answered t (octRing n) h (.cellRetire cell) .ok s.fr.k 0
         ∧ t = { s with out := t.out, rings := t.rings }))

/-! ## Engine descriptors -/

/-- MBOX_WRITE writes every named mailbox of a type 0x07 channel at one tick (R235, R365); a channel of another source refuses the whole. COEF_SWAP
at a frame boundary makes the swap pending from acceptance on (R246), BUSY while one is pending; INJ_START on a connected port makes its generator
pending; INJ_STOP marks the running generators it names (R247, R248).  (Complete with their own effect: `mboxWrite`, `coefSwap`, `injStart`,
`injStop`.) -/
def Obligations.MailboxesSwapAndInjections : Prop :=
  ((∀ (e : Fin 9) (h : Hdr) (ws : List (Byte × Word)) (g : Graph) (s : State), s.Ready (engRing e) h (.mboxWrite ws) →
     (s.eng e).graph = some g →
     (∀ w ∈ ws, ∃ x, g.chans[w.1.toNat]? = some x ∧ x.kind = 1 ∧ x.src = 7) →
     ∃ t, exec (.mboxWrite e h ws) s = .next t ∧ s.answered t (engRing e) h (.mboxWrite ws) .ok s.fr.k 0
       ∧ t.eng e = ws.foldl (fun x w => { x with mbox := x.mbox.upd w.1.toNat fun m =>
           { m with value := w.2, tick := s.now, got := true } }) (s.eng e)
       ∧ (∀ f, f ≠ e.val → t.eng f = s.eng f)
       ∧ t = { s with engs := t.engs, out := t.out, rings := t.rings })
   ∧ (∀ (e : Fin 9) (h : Hdr) (ws : List (Byte × Word)) (g : Graph) (s : State), s.Ready (engRing e) h (.mboxWrite ws) →
     (s.eng e).graph = some g → (∃ w ∈ ws, ∀ x, g.chans[w.1.toNat]? = some x → x.src ≠ 7) →
     ∃ t, exec (.mboxWrite e h ws) s = .next t ∧ s.answered t (engRing e) h (.mboxWrite ws) .refused 0 0
       ∧ t = { s with out := t.out, rings := t.rings }))
  ∧ ((∀ (e : Fin 9) (h : Hdr) (s : State), s.Ready (engRing e) h .coefSwap → (s.eng e).graph.isSome = true →
       ∃ t, exec (.coefSwap e h) s = .next t
         ∧ ((s.eng e).swap = none → s.answered t (engRing e) h .coefSwap .ok s.fr.k 0
             ∧ t = { s with engs := s.engs.upd e fun x => { x with swap := some (some s.fr.k) }, out := t.out, rings := t.rings })
         ∧ ((s.eng e).swap ≠ none → s.answered t (engRing e) h .coefSwap .busy 0 0
             ∧ t = { s with out := t.out, rings := t.rings }))
     ∧ (∀ (e : Fin 9) (h : Hdr) (p : InjParams) (g : Graph) (b : GBlock) (s : State), s.Ready (engRing e) h (.injStart p) →
       (s.eng e).graph = some g → g.blocks[p.block.toNat]? = some b → b.pipe ≠ 4 → refKind (b.ins.getD p.port.toNat 0xC000) ≠ 3 →
       (p.kind = 3 → p.phi.toNat % 2 ^ prbsOrder p ≠ 0) →
       ∃ t, exec (.injStart e h p) s = .next t
         ∧ (((s.eng e).inj.get p.gen.toNat).active = false → ((s.eng e).inj.get p.gen.toNat).pend = false →
             s.answered t (engRing e) h (.injStart p) .ok s.fr.k 0
             ∧ t = { s with
                 engs := s.engs.upd e fun x =>
                   { x with inj := x.inj.set p.gen.toNat { Inj.init with pend := true, p := p, frame := some s.fr.k } }
                 out := t.out
                 rings := t.rings })
         ∧ (((s.eng e).inj.get p.gen.toNat).active = true → s.answered t (engRing e) h (.injStart p) .busy 0 0
             ∧ t = { s with out := t.out, rings := t.rings }))
     ∧ (∀ (e : Fin 9) (h : Hdr) (m : BitVec 4) (s : State), s.Ready (engRing e) h (.injStop m) →
       ∃ t, exec (.injStop e h m) s = .next t ∧ s.answered t (engRing e) h (.injStop m) .ok s.fr.k 0
         ∧ (∀ g < 4, ((t.eng e).inj.get g) = (if m.toNat / 2 ^ g % 2 = 1 then
             { (s.eng e).inj.get g with stopping := ((s.eng e).inj.get g).active || ((s.eng e).inj.get g).pend }
             else (s.eng e).inj.get g))
         ∧ (∀ f, f ≠ e.val → t.eng f = s.eng f)
         ∧ t = { s with engs := t.engs, out := t.out, rings := t.rings }))

/-- COEF_WRITE and IMG_STAGE have their buffer read from the host, one buffer of a ring at a time (R358, R366), in requests of at most 4,096 bytes
(Table 11-1); their descriptors wait for its data. The data of an IMG_STAGE buffer that comes within CPLTO is stored at its offset, every other byte
of the staging area is as it was, and the descriptor completes with OK (BUFFER_READ).  (Complete with their own effect: `coefWrite`, `imgStage`,
`bufferRead`.) -/
def Obligations.InBuffersAreReadAndStaged : Prop :=
  ((∀ (e : Fin 9) (h : Hdr) (b : Buf) (f : BitVec 16) (s : State), s.Ready (engRing e) h (.coefWrite b f) →
     s.coefWriteErr e b.len.toNat f.toNat = none → (s.ring (engRing e)).buf = [] →
     ∃ t r, exec (.coefWrite e h b f) s = .next t ∧ r.val = engRing e ∧ t.out = s.out ++ (List.range ((b.len.toNat + 4095) / 4096)).map (fun i =>
           .hostRead (.buffer r) (b.addr + BitVec.ofNat 64 (4096 * i)) (min 4096 (b.len.toNat - 4096 * i)))
       ∧ (t.ring (engRing e)).buf = [(s.descOf (engRing e) h (.coefWrite b f), false)]
       ∧ t = { s with out := t.out, rings := t.rings })
   ∧ (∀ (h : Hdr) (b : Buf) (ofs : Word) (s : State), s.Ready 0 h (.imgStage b ofs) → (s.ring 0).buf = [] →
     ∃ t, exec (.imgStage h b ofs) s = .next t ∧ t.out = s.out ++ (List.range ((b.len.toNat + 4095) / 4096)).map (fun i =>
           .hostRead (.buffer 0) (b.addr + BitVec.ofNat 64 (4096 * i)) (min 4096 (b.len.toNat - 4096 * i)))
       ∧ (t.ring 0).buf = [(s.descOf 0 h (.imgStage b ofs), false)] ∧ t = { s with out := t.out, rings := t.rings }))
  ∧ (∀ (d : Desc) (b : Buf) (ofs : Word) (data : List Byte) (s : State), (s.ring 0).buf = [(d, false)] →
       d.body = .imgStage b ofs → d.ring = 0 → b.len.toNat = data.length → ofs.toNat + data.length ≤ 131072 →
       s.hostReach = true → s.inCplTime (s.ring 0).bufAt = true → s.sys.dev ≠ .lockout → (s.ring 0).untimed = [] → Memory.wf s.staging = true →
       s.ringEn 10 = true → (s.ring 10).halt = false →
       ∃ t, exec (.bufferRead 0 data) s = .next t
         ∧ (∀ i, (hi : i < data.length) → memRead (ofs.toNat + i) t.staging = data[i])
         ∧ (∀ a, a < ofs.toNat ∨ ofs.toNat + data.length ≤ a → memRead a t.staging = memRead a s.staging)
         ∧ t.out.getLast? = some (s.completionOut 10 .ok 0x20 d.hdr.tag d.index s.fr.k 0)
         ∧ t = { s with staging := t.staging, out := t.out, rings := t.rings })

/-- LAW_LOAD and MODE_LOAD judge the staged bytes 0 to IMGLEN − 1 (R366) by Tables 7-6 and 9-6: the first failed check is kept in LOADERR or
MLOADERR and answered as RESULT; an accepted image waits for the engine's next sample start (R224, R290), and an accepted law discards the mode
table.  (Complete with their own effect: `lawLoad`, `modeLoad`.) -/
def Obligations.LoadsAreJudgedAndKept : Prop :=
  (∀ (h : Hdr) (e : Byte) (len : Word) (s : State), s.Ready 0 h (.lawLoad e len) →
    ∃ t, exec (.lawLoad h e len) s = .next t
      ∧ (s.lawErr e.toNat (memReadList 0 len.toNat s.staging) ≠ 0 →
          s.answered t 0 h (.lawLoad e len) (lawStatus (s.lawErr e.toNat (memReadList 0 len.toNat s.staging))) 0
            (s.lawErr e.toNat (memReadList 0 len.toNat s.staging))
          ∧ t = { s with
              engs := s.engs.upd e.toNat fun x =>
                { x with loaderr := BitVec.ofNat 8 (s.lawErr e.toNat (memReadList 0 len.toNat s.staging)) }
              out := t.out
              rings := t.rings })
      ∧ (s.lawErr e.toNat (memReadList 0 len.toNat s.staging) = 0 →
          s.answered t 0 h (.lawLoad e len) .ok s.fr.k 0
          ∧ (∃ g, (t.eng e.toNat) = { s.eng e.toNat with loading := some g, modeLoading := none }
              ∧ g.blocks = (lawImg (memReadList 0 len.toNat s.staging)).blocks
              ∧ g.chans = (lawImg (memReadList 0 len.toNat s.staging)).chans
              ∧ g.coefs = (lawImg (memReadList 0 len.toNat s.staging)).coefs)
          ∧ (∀ f, f ≠ e.toNat → t.eng f = s.eng f)
          ∧ t = { s with fr := t.fr, engs := t.engs, out := t.out, rings := t.rings }
          ∧ t.fr = if e = 8 then { s.fr with stationCount := 0, stationDue := none } else s.fr))
  ∧ (∀ (h : Hdr) (e : Byte) (len : Word) (s : State), s.Ready 0 h (.modeLoad e len) →
    ∃ t, exec (.modeLoad h e len) s = .next t
      ∧ (s.modeErr e.toNat (memReadList 0 len.toNat s.staging) ≠ 0 →
          s.answered t 0 h (.modeLoad e len)
            (if s.modeErr e.toNat (memReadList 0 len.toNat s.staging) = 0x0A then .state else .refused) 0
            (s.modeErr e.toNat (memReadList 0 len.toNat s.staging))
          ∧ t = { s with
              engs := s.engs.upd e.toNat fun x =>
                { x with mloaderr := BitVec.ofNat 8 (s.modeErr e.toNat (memReadList 0 len.toNat s.staging)) }
              out := t.out
              rings := t.rings })
      ∧ (s.modeErr e.toNat (memReadList 0 len.toNat s.staging) = 0 →
          s.answered t 0 h (.modeLoad e len) .ok s.fr.k 0
          ∧ t = { s with
              engs := s.engs.upd e.toNat fun x =>
                { x with modeLoading := some ((modeImgs (memReadList 0 len.toNat s.staging)).map modeOf) }
              out := t.out
              rings := t.rings }))

/-- R297: a MODE_CHANGE is kept as the one request of the device and its descriptor waits; BUSY while another is pending. One of the time form takes
its turn among the untimed descriptors of its ring (R359).  (Completes with its own effect: `modeChange`.) -/
def Obligations.ModeChangeIsKeptOrBusy : Prop :=
  ∀ (h : Hdr) (p : ModeParams) (s : State), s.canTake 0 = true → (s.ring 10).halt = false →
    s.descCheck 0 h (.modeChange p) = none →
    ∃ t, exec (.modeChange h p) s = .next t
      ∧ (h.act = none → s.ringBusy 0 = true →
          (t.ring 0).untimed = (s.ring 0).untimed ++ [s.descOf 0 h (.modeChange p)] ∧ t = { s with rings := t.rings })
      ∧ (s.modeReq = none → ((h.act = none ∧ (s.ring 0).untimed = [] ∧ s.ringBusy 0 = false) ∨ (h.act ≠ none ∧ s.pendCount 0 < 256)) →
          (∃ r, t.modeReq = some r ∧ r.p = p ∧ r.act = h.act ∧ r.armed = false ∧ r.decided = false)
          ∧ t = { s with
              modeReq := t.modeReq
              hif := { s.hif with waiting := s.hif.waiting ++ [⟨s.descOf 0 h (.modeChange p), .modeChange, false⟩] }
              rings := t.rings })
      ∧ (s.modeReq ≠ none → ((h.act = none ∧ (s.ring 0).untimed = [] ∧ s.ringBusy 0 = false) ∨ (h.act ≠ none ∧ s.pendCount 0 < 256)) →
          s.answered t 0 h (.modeChange p) .busy 0 0 ∧ t = { s with out := t.out, rings := t.rings })

/-! ## Device descriptors -/

/-- R135: TRIP_CLEAR clears every named latch at one tick when each named latched input has been inactive over its filter time; otherwise it is
REFUSED and no latch clears. R322: TIME_STEP in SPLIT with every configured octad still steps device time by −θ and goes to LOCKED; STATE otherwise.
(Complete with their own effect: `tripClear`, `timeStep`.) -/
def Obligations.TripClearAndTimeStepAreGuarded : Prop :=
  (∀ (h : Hdr) (mask : BitVec 16) (s : State), s.Ready 0 h (.tripClear mask) →
     ∃ t, exec (.tripClear h mask) s = .next t
       ∧ ((∀ m < 16, bitOf mask.toNat m = true → (s.trips.get m).latch = true → s.tripIdle m = true) →
           s.answered t 0 h (.tripClear mask) .ok s.fr.k 0
           ∧ (∀ m, t.trips.get m = if m < 16 ∧ bitOf mask.toNat m = true then { s.trips.get m with latch := false }
               else s.trips.get m)
           ∧ t = { s with trips := t.trips, out := t.out, rings := t.rings })
       ∧ ((∃ m < 16, bitOf mask.toNat m = true ∧ (s.trips.get m).latch = true ∧ s.tripIdle m = false) →
           s.answered t 0 h (.tripClear mask) .refused 0 0 ∧ t.trips = s.trips
           ∧ RaiseFrame { s with rings := t.rings } t))
  ∧ (∀ (h : Hdr) (s : State), s.Ready 0 h .timeStep →
       ∃ t, exec (.timeStep h) s = .next t
         ∧ (s.allStill = true → s.time.servo = .split →
             s.answered t 0 h .timeStep .ok s.fr.k 0 ∧ t.time.servo = .locked
             ∧ t.time.dt = ((s.time.dt : Int) - s.time.theta * 2 ^ 40).toNat ∧ t.tick = s.tick
             ∧ RaiseFrame { s with rings := t.rings, time := t.time, trigs := t.trigs } t)
         ∧ ((s.allStill = false ∨ s.time.servo ≠ .split) →
             s.answered t 0 h .timeStep .state 0 0 ∧ t = { s with out := t.out, rings := t.rings }))

/-- ENUMERATE asks the hub on an ACTIVE or WARM lane again (R205): a query of the device's own on that lane, the descriptor waits; STATE for a lane
in another state.  (Completes with its own effect: `enumerate`.) -/
def Obligations.EnumerateAsksTheHub : Prop :=
  ∀ (h : Hdr) (tile lane : Byte) (s : State), s.Ready 0 h (.enumerate tile lane) →
    ∃ t, exec (.enumerate h tile lane) s = .next t
      ∧ (((s.lane (2 * tile.toNat + lane.toNat)).state = .active ∨ (s.lane (2 * tile.toNat + lane.toNat)).state = .warm) →
          (s.lane (2 * tile.toNat + lane.toNat)).auxAt = none →
          (t.lane (2 * tile.toNat + lane.toNat)).auxAt = some s.now ∧ (t.lane (2 * tile.toNat + lane.toNat)).aux = 1
          ∧ (∃ f, t.out = s.out ++ [.laneFrame (2 * tile.toNat + lane.toNat) f])
          ∧ t.hif.waiting = s.hif.waiting
              ++ [⟨s.descOf 0 h (.enumerate tile lane), .enumerate (2 * tile.toNat + lane.toNat), false⟩]
          ∧ (∀ l, l ≠ 2 * tile.toNat + lane.toNat → t.lane l = s.lane l)
          ∧ t = { s with lanes := t.lanes, hif := { s.hif with waiting := t.hif.waiting }, out := t.out, rings := t.rings })
      ∧ ((s.lane (2 * tile.toNat + lane.toNat)).state ≠ .active → (s.lane (2 * tile.toNat + lane.toNat)).state ≠ .warm →
          s.answered t 0 h (.enumerate tile lane) .state 0 0 ∧ t = { s with out := t.out, rings := t.rings })

/-- R98, R100: C0_WRITE sets C0 only while it is unset, C0_CLEAR unsets it only for a retired cell of a still octad and makes the smoothed value
uninitialised, C0_ADOPT takes the smoothed value of every cell with C0 unset and 64 valid windows after the initialising one; no other cell's C0
changes. Each change leaves a write of the C0 partition due (R98).  (Complete with their own effect: `c0Write`, `c0Clear`, `c0Adopt`.) -/
def Obligations.ReferenceCapacitanceCommands : Prop :=
  (∀ (h : Hdr) (c : BitVec 16) (v : Word) (s : State), s.Ready 0 h (.c0Write c v) →
    ∃ t, exec (.c0Write h c v) s = .next t
      ∧ ((s.cell c.toNat).c0 = 0xFFFFFFFF → s.answered t 0 h (.c0Write c v) .ok s.fr.k 0 ∧ (t.cell c.toNat).c0 = v
          ∧ (∀ d, d ≠ c.toNat → (t.cell d).c0 = (s.cell d).c0)
          ∧ (∃ w ∈ t.bel.writes, w.part = .c0)
          ∧ RaiseFrame { s with
              rings := t.rings, cells := s.cells.upd c.toNat fun x => { x with c0 := v }, bel := (s.saveTable .c0).bel } t)
      ∧ ((s.cell c.toNat).c0 ≠ 0xFFFFFFFF → s.answered t 0 h (.c0Write c v) .state 0 0
          ∧ t = { s with out := t.out, rings := t.rings }))
  ∧ (∀ (h : Hdr) (c : BitVec 16) (s : State), s.Ready 0 h (.c0Clear c) →
    ∃ t, exec (.c0Clear h c) s = .next t
      ∧ ((s.cell c.toNat).retired = true → (s.oct (c.toNat / 512)).state.still = true →
          s.answered t 0 h (.c0Clear c) .ok s.fr.k 0 ∧ (t.cell c.toNat).c0 = 0xFFFFFFFF ∧ (t.cell c.toNat).smooth = none
          ∧ (∃ w ∈ t.bel.writes, w.part = .c0)
          ∧ (∀ d, d ≠ c.toNat → (t.cell d).c0 = (s.cell d).c0 ∧ (t.cell d).smooth = (s.cell d).smooth))
      ∧ (((s.cell c.toNat).retired = false ∨ (s.oct (c.toNat / 512)).state.still = false) →
          s.answered t 0 h (.c0Clear c) .state 0 0 ∧ t = { s with out := t.out, rings := t.rings }))
  ∧ (∀ (h : Hdr) (o : Byte) (s : State), s.Ready 0 h (.c0Adopt o) →
    ∃ t, exec (.c0Adopt h o) s = .next t
      ∧ (∀ c, (t.cell c).c0 = if c ∈ (s.octCells o.toNat) ∧ (s.cell c).c0 = 0xFFFFFFFF ∧ (s.cell c).smooth.isSome = true
            ∧ 64 ≤ (s.cell c).validWins then (s.cell c).smooth.getD 0 else (s.cell c).c0)
      ∧ s.answered t 0 h (.c0Adopt o) .ok s.fr.k ((s.octCells o.toNat).countP fun c => (s.cell c).c0 == 0xFFFFFFFF
            && (s.cell c).smooth.isSome && decide (64 ≤ (s.cell c).validWins))
      ∧ ((∃ c ∈ s.octCells o.toNat, (s.cell c).c0 = 0xFFFFFFFF ∧ (s.cell c).smooth.isSome = true ∧ 64 ≤ (s.cell c).validWins) →
          ∃ w ∈ t.bel.writes, w.part = .c0))

/-- R402, R403, Table 12-8: FAULT_CLEAR removes every named entry whose condition is gone, RESULT counts them, and an octad that nothing left in the
table has fenced returns to Blocked; STATE when no named entry may clear. R397: the entry of the fall-back record clears, and collection returns,
only when the main collector's registers, rewritten from the shadow, pass their parity check. R399: FAULT_RELEASE lets FAULT_N go when no entry
holds it: at once after its 20 µs, otherwise when they end; STATE while an entry holds it.  (Complete with their own effect: `faultClear`,
`faultRelease`.) -/
def Obligations.FaultClearAndRelease : Prop :=
  (∀ (h : Hdr) (code src : BitVec 16) (s : State), s.Ready 0 h (.faultClear code src) →
     ∃ t, exec (.faultClear h code src) s = .next t
       ∧ t = { s with
           regs := t.regs, free := t.free, kp := t.kp, flt := t.flt, octs := t.octs, sys := t.sys, out := t.out, rings := t.rings }
       ∧ t.kp.a = s.kp.a ∧ t.kp.b = s.kp.b
       ∧ (∀ hit can, hit = (s.flt.table.filter fun a => (code == 0 || a.code == code) && (src == 0xFFFF || a.src == src)) →
           can = hit.filter (fun a => s.clearable a && (Config.parityHolds s.free || !s.isFallbackEntry a)) →
           ((∀ a ∈ hit, s.isFallbackEntry a = false) → t.regs = s.regs ∧ t.free = s.free ∧ t.kp = s.kp ∧ t.flt.fallback = s.flt.fallback)
           ∧ ((∃ a ∈ can, s.isFallbackEntry a = true) → t.flt.fallback = false ∧ t.kp.fallRec = none
             ∧ t.regs = s.loadCollector.regs) ∧
           (can ≠ [] → t.flt.table = s.flt.table.filter (fun a => !can.contains a)
             ∧ s.answered t 0 h (.faultClear code src) .ok s.fr.k can.length
             ∧ (∀ n < 8, (s.oct n).state = .fenced → (∃ a ∈ can, a.fenced.getLsbD n = true) →
                 (∀ a ∈ t.flt.table, a.fenced.getLsbD n = false) → (t.oct n).state = .blocked)
             ∧ (∀ n < 8, (∃ a ∈ t.flt.table, a.fenced.getLsbD n = true) → t.oct n = s.oct n))
           ∧ (hit = [] → s.answered t 0 h (.faultClear code src) .ok s.fr.k 0)
           ∧ (hit ≠ [] → can = [] → s.answered t 0 h (.faultClear code src) .state 0 0
             ∧ ((∀ a ∈ hit, s.isFallbackEntry a = false) → t = { s with out := t.out, rings := t.rings }))))
  ∧ (∀ (h : Hdr) (s : State), s.Ready 0 h .faultRelease →
       ∃ t, exec (.faultRelease h) s = .next t
         ∧ ((s.flt.table.any (·.faultN)) = true → s.answered t 0 h .faultRelease .state 0 0
             ∧ t = { s with out := t.out, rings := t.rings })
         ∧ ((s.flt.table.any (·.faultN)) = false → s.flt.tblFull = false → s.sys.dev ≠ .lockout → s.flt.faultN = true →
             s.answered t 0 h .faultRelease .ok s.fr.k 0
             ∧ t = { s with
                 flt := if s.flt.holdUntil ≤ s.now then { s.flt with faultN := false, released := false }
                   else { s.flt with released := true }
                 out := t.out
                 rings := t.rings }))

/-- R518, R521, R522: BEL_READ gives the records of an area in ascending SEQ as host data, REFUSED when they are not all held; BEL_FREEZE notes when
Belfry froze, or waits for the erase of the record areas under way; frozen already, it completes and the timer runs on; BELFRY_THAW ends the freeze,
and with no freeze in force completes.  (Complete with their own effect: `belRead`, `belFreeze`, `belfryThaw`.) -/
def Obligations.BelfryReadFreezeAndThaw : Prop :=
  (∀ (h : Hdr) (b : Buf) (a : Byte) (f c : BitVec 16) (s : State), s.Ready 0 h (.belRead b a f c) →
    ∃ t, exec (.belRead h b a f c) s = .next t ∧ t = { s with out := t.out, rings := t.rings }
      ∧ (f.toNat + c.toNat ≤ (s.bel.held a.toNat).length → s.answered t 0 h (.belRead b a f c) .ok s.fr.k 0
          ∧ .hostWrite b.addr ((((s.bel.held a.toNat).drop f.toNat).take c.toNat).flatMap recordBytes) ∈ t.out)
      ∧ ((s.bel.held a.toNat).length < f.toNat + c.toNat → s.answered t 0 h (.belRead b a f c) .refused 0 0))
  ∧ (∀ (h : Hdr) (s : State), s.Ready 0 h .belFreeze →
    ∃ t, exec (.belFreeze h) s = .next t
      ∧ (s.bel.frozen = none → s.bel.erasing = none → s.bel.noteErase = none → s.answered t 0 h .belFreeze .ok s.fr.k 0
          ∧ t = { s with bel := { s.bel with frozen := some s.now }, out := t.out, rings := t.rings })
      ∧ (s.bel.frozen = none → (s.bel.erasing.isSome = true ∨ s.bel.noteErase.isSome = true) →
          t = { s with
              bel := { s.bel with freezing := true }
              hif := { s.hif with waiting := s.hif.waiting ++ [⟨s.descOf 0 h .belFreeze, .freeze, false⟩] }
              rings := t.rings })
      ∧ (s.bel.frozen.isSome = true → s.answered t 0 h .belFreeze .ok s.fr.k 0 ∧ t = { s with out := t.out, rings := t.rings }))
  ∧ (∀ (h : Hdr) (s : State), s.Ready 0 h .belfryThaw →
    ∃ t, exec (.belfryThaw h) s = .next t ∧ s.answered t 0 h .belfryThaw .ok s.fr.k 0 ∧ t.bel.frozen = none ∧ t.bel.thawAt = none
      ∧ RaiseFrame { s with rings := t.rings, bel := t.bel, epl := t.epl } t
      ∧ (s.bel.frozen = none → t = { s with bel := { s.bel with thawAt := none }, out := t.out, rings := t.rings }))

/-- R547, R550: BIST_RUN and BIST_REQUALIFY start their block when the device is IDLE or RUN with every octad concerned still or fenced, none other
runs and thermal enforcement is not in force: once, or for two passes; the groups that run only at boot are REFUSED.  (Complete with their own
effect: `bistRun`, `bistRequalify`.) -/
def Obligations.BistStartsItsBlock : Prop :=
  (∀ (h : Hdr) (b : BitVec 16) (s : State), s.Ready 0 h (.bistRun b) →
    ∃ t, exec (.bistRun h b) s = .next t
      ∧ ((b = 0x4009 ∨ b = 0x400A) → s.answered t 0 h (.bistRun b) .refused 0 0 ∧ t = { s with out := t.out, rings := t.rings })
      ∧ (b ≠ 0x4009 → b ≠ 0x400A → b ≠ 0x4006 → (s.sys.dev = .idle ∨ s.sys.dev = .run) →
          (∀ n < 8, s.bistOctads b.toNat / 2 ^ n % 2 = 1 → (s.oct n).state.still = true ∨ (s.oct n).state = .fenced) →
          s.sys.bist.busy = false → s.epl.enforce = false →
          t.sys.bist = { Bist.init with blocks := [b.toNat], runs := 1, busy := true, startAt := s.now }
          ∧ t.hif.waiting = s.hif.waiting ++ [⟨s.descOf 0 h (.bistRun b), .bist, false⟩]
          ∧ t.sys.dev = s.sys.dev ∧ t.staging = s.staging ∧ t.bel = s.bel ∧ t.ps = s.ps ∧ t.kp = s.kp ∧ t.time = s.time))
  ∧ (∀ (h : Hdr) (b : BitVec 16) (s : State), s.Ready 0 h (.bistRequalify b) →
    b ≠ 0x4009 → b ≠ 0x400A → b ≠ 0x4006 → (s.sys.dev = .idle ∨ s.sys.dev = .run) →
    (∀ n < 8, s.bistOctads b.toNat / 2 ^ n % 2 = 1 → (s.oct n).state.still = true ∨ (s.oct n).state = .fenced) →
    s.sys.bist.busy = false → s.epl.enforce = false →
    ∃ t, exec (.bistRequalify h b) s = .next t
      ∧ t.sys.bist = { Bist.init with blocks := [b.toNat], runs := 2, requalify := true, busy := true, startAt := s.now }
      ∧ t.hif.waiting = s.hif.waiting ++ [⟨s.descOf 0 h (.bistRequalify b), .bist, false⟩]
      ∧ t.sys.dev = s.sys.dev ∧ t.staging = s.staging ∧ t.bel = s.bel ∧ t.ps = s.ps ∧ t.kp = s.kp ∧ t.time = s.time)

/-- R444 to R448: PSET_NONCE draws a nonce for the next sequence number and gives both to the host; PSET_COMMIT and KEY_CHANGE run the steps of
Table 14-7: all passed, the commit's writes go on, the signed request into the store that is not in force, with the nonce used up; the first that
fails sets ERR and the status, and the stored set and keys stay. That one commit goes on at a time is the model's choice (log entry 112).  (Complete
with their own effect: `psetNonce`, `psetCommit`, `keyChange`.) -/
def Obligations.NonceAndCommitSteps : Prop :=
  ((∀ (h : Hdr) (b : Buf) (s : State), s.Ready 0 h (.psetNonce b) →
    ∃ t, exec (.psetNonce h b) s = .next t ∧ s.answered t 0 h (.psetNonce b) .ok s.fr.k 0
          ∧ t.ps = { s.ps with nonce := some (Config.random128 s.free, nextSeq s.ps.seq, s.now) }
          ∧ .hostWrite b.addr (leBytes 16 (Config.random128 s.free).toNat ++ leBytes 4 (nextSeq s.ps.seq).toNat) ∈ t.out
          ∧ t = { s with ps := t.ps, free := s.free + 1, out := t.out, rings := t.rings })
   ∧ (∀ (h : Hdr) (b : Buf) (s : State), s.canTake 0 = true → (s.ring 10).halt = false → b.len ≠ 20 →
    ∃ t, exec (.psetNonce h b) s = .next t ∧ s.answered t 0 h (.psetNonce b) .refused 0 0
      ∧ t = { s with out := t.out, rings := t.rings }))
  ∧ (∀ (h : Hdr) (len : Word) (s : State), s.Ready 0 h (.psetCommit len) → s.ps.commit = none →
    ∃ t, exec (.psetCommit h len) s = .next t
      ∧ match s.commitSteps 1 (memReadList 0 len.toNat s.staging) with
        | .ok c => t = { s with
              ps := { s.ps with nonce := none, commit := some c }
              bel := (s.writePart .pset c.seq.toNat c.request).bel
              hif := { s.hif with waiting := s.hif.waiting ++ [⟨s.descOf 0 h (.psetCommit len), .pset, false⟩] }
              rings := t.rings }
        | .error (err, st, used) =>
          t.ps = { s.ps with nonce := if used then none else s.ps.nonce, err := BitVec.ofNat 8 err, commit := none }
          ∧ (st = .refused ∨ st = .state ∨ st = .authFail → s.answered t 0 h (.psetCommit len) st 0 0)
          ∧ RaiseFrame { s with rings := t.rings, ps := t.ps, bel := (s.dropWrite .pset).bel } t)
  ∧ (∀ (h : Hdr) (len : Word) (c : Instr) (b : Body) (s : State),
    (c = .psetCommit h len ∧ b = .psetCommit len) ∨ (c = .keyChange h len ∧ b = .keyChange len) → s.Ready 0 h b →
    s.ps.commit.isSome = true →
    ∃ t, exec c s = .next t ∧ s.answered t 0 h b .busy 0 0 ∧ t.bel = s.bel ∧ RaiseFrame { s with rings := t.rings } t)
  ∧ (∀ (h : Hdr) (len : Word) (s : State), s.Ready 0 h (.keyChange len) → s.ps.commit = none →
    ∃ t, exec (.keyChange h len) s = .next t
      ∧ match s.commitSteps 2 (memReadList 0 len.toNat s.staging) with
        | .ok c => t = { s with
              ps := { s.ps with nonce := none, commit := some c }
              bel := (s.writePart .pset c.seq.toNat c.request).bel
              hif := { s.hif with waiting := s.hif.waiting ++ [⟨s.descOf 0 h (.keyChange len), .pset, false⟩] }
              rings := t.rings }
        | .error (err, st, used) =>
          t.ps = { s.ps with nonce := if used then none else s.ps.nonce, err := BitVec.ofNat 8 err, commit := none }
          ∧ (st = .refused ∨ st = .state ∨ st = .authFail → s.answered t 0 h (.keyChange len) st 0 0)
          ∧ RaiseFrame { s with rings := t.rings, ps := t.ps, bel := (s.dropWrite .pset).bel } t)

/-- R457: ATTEST writes the quote, or quote and certificate, by LEN, and is REFUSED for another LEN. R454 to R456: FW_INSTALL of a well-formed image
whose Askica signature verifies under the key of the OTP digest, with the owner's where the owner slot is ACTIVE, and whose SVN is not below the
floor, starts the write of its slot, and its descriptor waits for that and the marker; the running slot answers STATE, a malformed image or an SVN
below the floor REFUSED, a key or signature that does not match AUTH_FAIL, and no slot changes.  (Complete with their own effect: `attest`,
`fwInstall`.) -/
def Obligations.AttestAndFirmwareInstall : Prop :=
  (∀ (h : Hdr) (b : Buf) (ch : BitVec 64) (s : State), s.Ready 0 h (.attest b ch) →
    ∃ t, exec (.attest h b ch) s = .next t ∧ t = { s with out := t.out, rings := t.rings }
      ∧ (b.len = 1440 → s.answered t 0 h (.attest b ch) .ok s.fr.k 0 ∧ .hostWrite b.addr (s.quote ch) ∈ t.out)
      ∧ (b.len = 4540 → s.answered t 0 h (.attest b ch) .ok s.fr.k 0 ∧ .hostWrite b.addr (s.quote ch ++ s.certificate) ∈ t.out)
      ∧ (b.len ≠ 1440 → b.len ≠ 4540 → s.answered t 0 h (.attest b ch) .refused 0 0 ∧ t.out.length = s.out.length + 1))
  ∧ (∀ (h : Hdr) (sl : Byte) (len : Word) (img : List Byte) (own : Bool) (s : State), s.Ready 0 h (.fwInstall sl len) →
      img = memReadList 0 len.toNat s.staging → s.ps.fwRunning ≠ some sl.toNat → fwShape img = some own →
      shake256 Config.askicaKey = s.ps.askicaDigest →
      Config.falconVerify Config.askicaKey (shake512 (img.take (64 + leAt img 4 4))) (slice img (64 + leAt img 4 4) 1280) = true →
      (s.ps.owner.state = .active → own = true
        ∧ Config.falconVerify (slice img (64 + leAt img 4 4 + 1280) 1793) (shake512 (img.take (64 + leAt img 4 4)))
          (slice img (64 + leAt img 4 4 + 1280 + 1793) 1280) = true
        ∧ shake256 (slice img (64 + leAt img 4 4 + 1280) 1793) = s.ps.owner.digest) →
      ∃ t, exec (.fwInstall h sl len) s = .next t
        ∧ (s.ps.svnFloor ≤ leAt img 12 1 → s.nvmHeld = false →
            t = { s with
              bel := (s.writePart (if sl = 0 then .fw0 else .fw1) 1 img).bel
              hif := { s.hif with waiting := s.hif.waiting ++ [⟨s.descOf 0 h (.fwInstall sl len), .fw, false⟩] }
              rings := t.rings }
            ∧ ∃ w ∈ t.bel.writes, w.part = (if sl = 0 then .fw0 else .fw1) ∧ w.content = img)
        ∧ (leAt img 12 1 < s.ps.svnFloor →
            s.answered t 0 h (.fwInstall sl len) .refused 0 0 ∧ t = { s with out := t.out, rings := t.rings }))
  ∧ (∀ (h : Hdr) (sl : Byte) (len : Word) (s : State), s.Ready 0 h (.fwInstall sl len) →
    ∃ t, exec (.fwInstall h sl len) s = .next t
      ∧ (s.ps.fwRunning = some sl.toNat → s.answered t 0 h (.fwInstall sl len) .state 0 0
          ∧ t = { s with out := t.out, rings := t.rings })
      ∧ (s.ps.fwRunning ≠ some sl.toNat → fwShape (memReadList 0 len.toNat s.staging) = none →
          s.answered t 0 h (.fwInstall sl len) .refused 0 0 ∧ t = { s with out := t.out, rings := t.rings })
      ∧ (∀ own, s.ps.fwRunning ≠ some sl.toNat → fwShape (memReadList 0 len.toNat s.staging) = some own →
          Config.falconVerify Config.askicaKey
            (shake512 ((memReadList 0 len.toNat s.staging).take (64 + leAt (memReadList 0 len.toNat s.staging) 4 4)))
            (slice (memReadList 0 len.toNat s.staging) (64 + leAt (memReadList 0 len.toNat s.staging) 4 4) 1280) = false →
          s.answered t 0 h (.fwInstall sl len) .authFail 0 0 ∧ t = { s with out := t.out, rings := t.rings })
      ∧ (∀ own, s.ps.fwRunning ≠ some sl.toNat → fwShape (memReadList 0 len.toNat s.staging) = some own →
          shake256 Config.askicaKey ≠ s.ps.askicaDigest →
          s.answered t 0 h (.fwInstall sl len) .authFail 0 0 ∧ t = { s with out := t.out, rings := t.rings })
      ∧ (s.ps.fwRunning ≠ some sl.toNat → fwShape (memReadList 0 len.toNat s.staging) = some false → s.ps.owner.state = .active →
          s.answered t 0 h (.fwInstall sl len) .authFail 0 0 ∧ t = { s with out := t.out, rings := t.rings }))


/-! ## Registers (chapter 19) -/

/-- R558, steps 1 to 4, 6 and 7: the first that fails ignores the write and sets its one flag; nothing else changes. A write that its lock (Table
19-13) refuses sets the CFG_ERR of its block, an ARM of an origin the ERR of TS_ORGCTL; the lock of a register of one octad, of a ring, of a hop
point is looked at in the state of that unit. A write to a port or trigger unit that Kingpost drives is ignored (R332).  (Completes with its own
effect: `registerWrite`.) -/
def Obligations.RegisterWriteStopsAtItsFirstFailedStep : Prop :=
  (∀ (ofs : BitVec 24) (v : Word) (be : BitVec 4) (s : State), s.canonical → s.hostReach = true →
     ∃ t, exec (.registerWrite ⟨.bar0, ofs⟩ v be) s = .next t
       ∧ (s.sys.dev = .lockout → s.flagged t 0x108 2)
       ∧ (s.sys.dev = .boot ∨ s.sys.dev = .selftest → inBlock ofs.toNat 1 = false → s.flagged t 0x108 2)
       ∧ (s.sys.dev = .idle ∨ s.sys.dev = .run → be ≠ 15 → s.flagged t 0x108 0)
       ∧ (s.sys.dev = .idle ∨ s.sys.dev = .run → be = 15 → regAt ofs.toNat = none → inImage ofs.toNat = false →
           s.flagged t 0x108 1)
       ∧ (s.sys.dev = .idle ∨ s.sys.dev = .run → be = 15 → regAt ofs.toNat = none → inImage ofs.toNat = true → t = s)
       ∧ (∀ r, s.sys.dev = .idle ∨ s.sys.dev = .run → be = 15 → regAt ofs.toNat = some r →
           s.kingpostDrives r = false → (∃ f ∈ r.df.fields, Fld.inRange f v = false) → s.flagged t (cfgErrAt r).1 (cfgErrAt r).2)
       ∧ (∀ r, s.sys.dev = .idle ∨ s.sys.dev = .run → be = 15 → regAt ofs.toNat = some r → s.kingpostDrives r = true → t = s))
  ∧ (∀ (ofs : BitVec 24) (v : Word) (r : RegRef) (s : State), s.canonical → s.hostReach = true →
       s.sys.dev = .idle ∨ s.sys.dev = .run → regAt ofs.toNat = some r → (∀ f ∈ r.df.fields, Fld.inRange f v = true) →
       s.rangeOk r (s.takenWord r v) = true →
       ((r.df.name = .octCtype ∧ (s.oct r.own).state.still = false) ∨ (r.df.name = .tilCtmap ∧ (s.oct (r.own / 8)).state.still = false)
         ∨ (r.df.name = .lnkAsym ∧ (s.oct (r.own / 16)).state.still = false)
         ∨ ((r.df.name = .hifDblo ∨ r.df.name = .hifDbhi) ∧ s.hifEn = true)
         ∨ ((r.df.name = .hifRbaselo ∨ r.df.name = .hifRbasehi) ∧ s.ringEn r.idx = true)
         ∨ (r.df.name = .clkHop ∧ s.pointBusy r.idx = true)
         ∨ (r.df.name = .tsOrgctl ∧ v.getLsbD 0 = true ∧ (s.allStill = false ∨ s.writtenOrigin ≤ s.time.dt))) →
       ∃ t, exec (.registerWrite ⟨.bar0, ofs⟩ v 15) s = .next t
         ∧ if r.df.name = .tsOrgctl then s.flagged t 0x300068 2 else s.flagged t (cfgErrAt r).1 (cfgErrAt r).2)

/-- R558, step 8, R24, R557: a taken write gives every RW field its written value, clears the W1C bits written as one that hardware has not set on
this very tick (Table 19-14), leaves every read-only bit alone, and, where it starts nothing, changes no other word and nothing else. A flag that
hardware sets on the tick of a W1C write stays set.  (Completes with its own effect: `registerWrite`.) -/
def Obligations.TakenWriteReplacesItsFields : Prop :=
  (∀ (ofs : BitVec 24) (v : Word) (r : RegRef) (s : State), s.canonical → s.WriteTaken ofs.toNat v r →
     ∃ t, exec (.registerWrite ⟨.bar0, ofs⟩ v 15) s = .next t
       ∧ (∀ f ∈ r.df.fields, f.acc = .rw → field (t.reg ofs.toNat).toNat f.lo f.len = field v.toNat f.lo f.len)
       ∧ (∀ f ∈ r.df.fields, f.acc = .w1c → ∀ i, f.lo ≤ i → i < f.lo + f.len → (t.reg ofs.toNat).getLsbD i
           = ((s.reg ofs.toNat).getLsbD i && !(v.getLsbD i && !(s.hotMask ofs.toNat).getLsbD i)))
       ∧ (∀ f ∈ r.df.fields, f.acc ≠ .rw → f.acc ≠ .w1c → r.df.name ≠ .clkHopcfg →
           field (t.reg ofs.toNat).toNat f.lo f.len = field (s.reg ofs.toNat).toNat f.lo f.len)
       ∧ (r.df.name.starts = false → t = { s with wrote := t.wrote, regs := t.regs } ∧ ∀ b, b ≠ ofs.toNat → t.reg b = s.reg b))
  ∧ (∀ (ofs : BitVec 24) (v : Word) (r : RegRef) (i : Nat) (s : State), s.canonical → s.clk.started = true → i < 32 →
       (s.flag ofs.toNat i).WriteTaken ofs.toNat v r → r.df.name.starts = false →
       (∃ f ∈ r.df.fields, f.acc = .w1c ∧ f.lo ≤ i ∧ i < f.lo + f.len) →
       ∃ t, exec (.registerWrite ⟨.bar0, ofs⟩ v 15) (s.flag ofs.toNat i) = .next t ∧ (t.reg ofs.toNat).getLsbD i = true)

/-- The writes with a row of their own: HIF_CTRL with EN = 1 starts the sweeps and once the host-lost timer (R351, R368); a ring's EN rising zeroes
its indices, its falling clears HALT (R347); ARM arms the origin (R325); TOMB_CLR clears the reported tombstones; START starts a scan (R171); EN = 1
trains a lane of the started quads, EN = 0 turns a lane off (R155); a read of TS_TIME0 latches (R310); the power state of configuration space and
the mask of a vector are written as R342 and R355 need (the words' layout is the model's choice, log entry 102).  (Complete with their own effect:
`hostInterfaceEnable`, `ringEnable`, `ringDisable`, `registerWrite`, `tsTime0Read`, `originArm`, `eyeScanStart`, `tombClr`, `laneEnable`,
`laneDisable`.) -/
def Obligations.RegisterRowsStartTheirUnits : Prop :=
  (∀ (ctrl : Word) (r : RegRef) (s : State), s.WriteTaken 0x100000 (ctrl ||| 1) r → s.canonical → s.hifEn = false →
    ∃ t, exec (.hostInterfaceEnable ctrl) s = .next t ∧ t.hifEn = true ∧ t.hif.sweepAt = s.hifNow
      ∧ (s.hif.lostTimer = none → s.hif.lost = false → s.hif.sweeping = false →
          t.hif.lostTimer = some (s.hifNow + 400000 * s.fld 0x10000C 0 14))
      ∧ t = { s with
          wrote := t.wrote
          regs := t.regs
          hif := { s.hif with sweepAt := s.hifNow, sweeps := [], sweeping := true, lostTimer := t.hif.lostTimer } })
  ∧ (∀ (g : Fin 37) (cfg : Word) (r : RegRef) (s : State), s.WriteTaken (rcfgAddr g) (cfg ||| 1) r → s.canonical → s.ringEn g = false →
    ∃ t, exec (.ringEnable g cfg) s = .next t ∧ t.ringEn g = true ∧ (t.ring g).dev = 0 ∧ (t.ring g).host = 0
      ∧ (∀ q, q ≠ g.val → t.ring q = s.ring q ∧ t.ringEn q = s.ringEn q)
      ∧ t = { s with wrote := t.wrote, regs := t.regs, rings := t.rings })
  ∧ (∀ (g : Fin 37) (r : RegRef) (s : State), s.WriteTaken (rcfgAddr g) (s.reg (rcfgAddr g) &&& ~~~1) r → s.canonical →
    s.ringEn g = true →
    ∃ t, exec (.ringDisable g) s = .next t ∧ t.ringEn g = false ∧ (t.ring g).halt = false ∧ (t.ring g).fetches = []
      ∧ (g.val < 10 → (t.ring (10 + g)).reserved = (s.ring (10 + g)).reserved - (s.ring g).fetching)
      ∧ (∀ q, q ≠ g.val → t.ringEn q = s.ringEn q ∧ (q ≠ 10 + g.val → t.ring q = s.ring q))
      ∧ t = { s with wrote := t.wrote, regs := t.regs, rings := t.rings })
  ∧ (∀ (r : RegRef) (s : State), s.WriteTaken 0x300068 1 r →
    ∃ t, exec .originArm s = .next t
      ∧ t = { s with wrote := t.wrote, regs := t.regs, time := { s.time with orgPend := true, orgTime := s.writtenOrigin } })
  ∧ (∀ (r : RegRef) (s : State), s.WriteTaken 0x500000 1 r →
    ∃ t, exec .tombClr s = .next t
      ∧ t = { s with wrote := t.wrote, regs := t.regs, bel := { s.bel with tombs := s.bel.tombs.mapAll fun _ x => x.filter fun y => !y.reported } })
  ∧ (∀ (l : Fin 128) (r : RegRef) (s : State), s.WriteTaken (laneBase l + 0x1C) (s.reg (laneBase l + 0x1C) &&& 0xF0 ||| 1) r →
    ∃ t, exec (.eyeScanStart l) s = .next t ∧ (t.lane l).eye = some ((s.lane l).eye.getD 0)
      ∧ (∀ m, m ≠ l.val → t.lane m = s.lane m) ∧ t = { s with wrote := t.wrote, regs := t.regs, lanes := t.lanes })
  ∧ (∀ (l : Fin 128) (r : RegRef) (s : State), s.WriteTaken (laneBase l) (s.reg (laneBase l) ||| 1) r → s.canonical →
    ∃ t, exec (.laneEnable l) s = .next t ∧ t.fld (laneBase l) 0 1 = 1
      ∧ ((s.lane l).state = .off → s.laneUsable l = true → (s.oct (l / 16)).state ≠ .unconfigured →
          (s.clk.quads.get (l / 4)).state = .locked → (t.lane l).state = .hunt ∧ (t.lane l).huntAt = s.now))
  ∧ (∀ (l : Fin 128) (r : RegRef) (s : State), s.WriteTaken (laneBase l) (s.reg (laneBase l) &&& ~~~1) r → s.canonical →
    (s.lane l).state ≠ .retired → (s.lane l).state ≠ .off →
    ∃ t, exec (.laneDisable l) s = .next t ∧ t.fld (laneBase l) 0 1 = 0 ∧ (t.lane l).state = .off ∧ (t.lane l).lock = false
      ∧ (∀ m, m ≠ l.val → (t.lane m).state = (s.lane m).state))
  ∧ (∀ (ofs : BitVec 24) (v : Word) (s : State), s.hif.linkUp = true → s.hif.inReset = false →
    (v.toNat % 4 = 3 → exec (.registerWrite ⟨.cfgPower, ofs⟩ v 15) s = .next { s with hif := { s.hif with d3 := true } })
    ∧ (v.toNat % 4 = 0 → exec (.registerWrite ⟨.cfgPower, ofs⟩ v 15) s = .next { s with hif := { s.hif with d3 := false } }))
  ∧ (∀ (i : Fin 64) (v : Word) (s : State), s.hostReach = true → s.hif.pba = 0 →
    ∃ t, exec (.registerWrite ⟨.bar2, BitVec.ofNat 24 (16 * i + 12)⟩ v 15) s = .next t
      ∧ (t.hif.msixTab.get i).mask = v.getLsbD 0 ∧ (∀ j, j ≠ i.val → t.hif.msixTab.get j = s.hif.msixTab.get j)
      ∧ t = { s with hif := { s.hif with msixTab := t.hif.msixTab } })
  ∧ (∀ s : State, s.hostReach = true → exec .tsTime0Read s
      = .next { s with time := { s.time with latchDt := s.time.dt, latchTick := s.tick } })

/-! ## Host interface (chapter 11) -/

/-- R351, R354, R368, R349, R352: the data of the oldest sweep read under way, or of the one that is due, which is issued then, sets the producer
index of every running command ring that it does not overrun, halts a ring that it does, and restarts the host-lost timer on a changed GEN; the
device half goes out at once when no read of descriptors of the sweep is under way.  (Completes with its own effect: `doorbellSweep`.) -/
def Obligations.SweepTakesIndicesAndGen : Prop :=
  ∀ (page : List Word) (s : State), s.hifEn = true → s.hostReach = true →
    ((s.hif.sweeps ≠ [] ∧ s.hifNow < s.hif.sweepAt ∧ ∀ w ∈ s.hif.sweeps.head?, s.inCplTime w.issued = true)
      ∨ (s.hif.sweeps = [] ∧ s.hif.sweepAt ≤ s.hifNow)) →
    ∃ t, exec (.doorbellSweep page) s = .next t
      ∧ t.hif.sweeps = s.hif.sweeps.tail ∧ t.hif.gen = page.getD 27 0 ∧ t.hif.genSeen = true
      ∧ (s.hifNow < s.hif.sweepAt → t.hif.sweepAt = s.hif.sweepAt)
      ∧ (s.hif.sweepAt ≤ s.hifNow → t.hif.sweepAt = s.hifNow + 100 * s.fld 0x100000 1 9
          ∧ s.out ++ [.hostRead .sweep s.pageAddr 256] <+: t.out)
      ∧ (∀ r < 10, s.ringEn r = true → (s.ring r).halt = false →
          (loHalf (page.getD r 0) - (s.ring r).dev).toNat < s.ringSize r → (t.ring r).host = loHalf (page.getD r 0))
      ∧ (∀ r < 10, s.ringEn r = true → (s.ring r).halt = false →
          s.ringSize r ≤ (loHalf (page.getD r 0) - (s.ring r).dev).toNat →
          (t.ring r).halt = true ∧ (t.ring r).host = (s.ring r).host ∧ (t.ring r).fetches = (s.ring r).fetches)
      ∧ (∀ x, s.hif.genSeen = true → page.getD 27 0 ≠ s.hif.gen → s.hif.lost = false → s.hif.lostTimer = some x → s.hifNow ≤ x →
          t.hif.lostTimer = some (s.hifNow + 400000 * s.fld 0x10000C 0 14))
      ∧ (s.hif.genSeen = true → page.getD 27 0 ≠ s.hif.gen → s.hif.lost = true →
          t.hif.lost = false ∧ t.hif.lostTimer = some (s.hifNow + 400000 * s.fld 0x10000C 0 14))
      ∧ (t.sweepOpen ((s.hif.sweeps.head?.map (·.first)).getD s.hifNow) = false → t.hif.doorbell = t.deviceHalf)

/-- R353, R357: the descriptor of a fetch is taken in at the ring's consumer index, which advances; a NOP completes with OK, and one that the checks
of its bits refuse with their status, no effect beside; then, the sweep's last read over, the device half is written (R352). R360, R361: at its base
frame boundary a timed descriptor executes in its own frame (OK) or up to two frames late (LATE), is MISSED later, and waits while its frame lies
ahead.  (Complete with their own effect: `descriptorActivation`, `descriptorFetch`.) -/
def Obligations.FetchedAndTimedDescriptorsComplete : Prop :=
  ((∀ (g : Fin 10) (w : BitVec 256) (f : Fetch) (h : Hdr) (s : State), (s.ring g).fetches = [f] → f.count = 1 →
     s.hostReach = true → s.inCplTime f.issued = true → (decodeDesc g w).res = .ok (h, .nop) → h.act = none → (s.ring g).untimed = [] →
     s.ringBusy g = false →
     s.descCheck g h .nop = none → (s.sys.dev = .idle ∨ s.sys.dev = .run) → s.ringEn (10 + g) = true → (s.ring (10 + g)).halt = false →
     ∃ t, exec (.descriptorFetch g [w]) s = .next t ∧ (t.ring g).fetches = [] ∧ (t.ring g).dev = (s.ring g).dev + 1
       ∧ s.out ++ [s.completionOut (10 + g) .ok 0 h.tag (s.ring g).dev s.fr.k 0] <+: t.out
       ∧ (t.sweepOpen f.sweep = false → t.hif.doorbell = t.deviceHalf)
       ∧ t = { s with out := t.out, rings := t.rings, hif := { s.hif with doorbell := t.hif.doorbell, pba := t.hif.pba } })
   ∧ (∀ (g : Fin 10) (w : BitVec 256) (f : Fetch) (st : Status) (s : State), (s.ring g).fetches = [f] → f.count = 1 →
     s.hostReach = true → s.inCplTime f.issued = true → (decodeDesc g w).res = .error st → s.ringEn (10 + g) = true → (s.ring (10 + g)).halt = false →
     ∃ t, exec (.descriptorFetch g [w]) s = .next t ∧ (t.ring g).fetches = [] ∧ (t.ring g).dev = (s.ring g).dev + 1
       ∧ s.out ++ [s.completionOut (10 + g) st (decodeDesc g w).code (decodeDesc g w).tag (s.ring g).dev 0 0] <+: t.out
       ∧ (t.sweepOpen f.sweep = false → t.hif.doorbell = t.deviceHalf)
       ∧ ((decodeDesc g w).code ≠ 0x31 →
           t = { s with out := t.out, rings := t.rings, hif := { s.hif with doorbell := t.hif.doorbell, pba := t.hif.pba } })
       ∧ RaiseFrame { s with rings := t.rings, hif := { s.hif with doorbell := t.hif.doorbell, pba := t.hif.pba } } t))
  ∧ (∀ (g : Fin 10) (h : Hdr) (i : BitVec 16) (ka : Word) (s : State), s.sys.dev = .idle ∨ s.sys.dev = .run →
       s.reaches s.fr.epoch = true →
       (s.ring g).pend = [⟨g, i, h, .nop⟩] → h.act = some ka → (∀ r < 10, r ≠ g.val → (s.ring r).pend = []) →
       (∀ r < 10, (s.ring r).untimed = []) → s.ringEn (10 + g) = true → (s.ring (10 + g)).halt = false →
       ∃ t, exec .descriptorActivation s = .next t ∧ (∀ r, (t.ring r).dev = (s.ring r).dev ∨ r = 10 + g.val)
         ∧ t = { s with fr := { s.fr with activatedAt := some s.fr.epoch }, out := t.out, rings := t.rings }
         ∧ (∀ st : Status, (st = .ok ∧ frameDiff s.fr.k ka = 0) ∨ (st = .late ∧ 0 < frameDiff s.fr.k ka ∧ frameDiff s.fr.k ka ≤ 2)
               ∨ (st = .missed ∧ 2 < frameDiff s.fr.k ka) →
             (t.ring g).pend = []
             ∧ t.out = s.out ++ [s.completionOut (10 + g) st 0 h.tag i (if st = .missed then 0 else s.fr.k) 0])
         ∧ (-65535 ≤ frameDiff s.fr.k ka → frameDiff s.fr.k ka < 0 → (t.ring g).pend = (s.ring g).pend ∧ t.out = s.out))

/-- R367: a device read that has failed, a timed-out one once CPLTO has passed, is issued again up to twice; the timed-out ones are counted. The
third failure abandons the read: a sweep waits for the next, a fetch completes its descriptors and a buffer its own with TIMEOUT. Data that comes
later than CPLTO is such a timeout.  (Completes with its own effect: `readTimeout`.) -/
def Obligations.ReadTimeoutRetriesTwice : Prop :=
  (∀ (c : ReadEnd) (w : Sweep) (rest : List Sweep) (s : State), s.hifEn = true → s.hostReach = true → s.hif.sweeps = w :: rest →
    s.readEnds c w.issued = true →
    ∃ t, exec (.readTimeout ⟨.sweep, c⟩) s = .next t
      ∧ (w.tries < 2 → t = { s.countTimeout c 0x100014 with
          hif := { s.hif with sweeps := { w with issued := s.hifNow, tries := w.tries + 1 } :: rest }
          out := s.out ++ [.hostRead .sweep s.pageAddr 256] })
      ∧ (2 ≤ w.tries → RaiseFrame { s.countTimeout c 0x100014 with hif := { s.hif with sweeps := rest } } t))
  ∧ (∀ (g : Fin 10) (n : BitVec 8) (c : ReadEnd) (f : Fetch) (rest : List Fetch) (s : State), s.hostReach = true →
    (s.ring g).fetches = f :: rest → f.count = n.toNat → s.readEnds c f.issued = true →
    ∃ t, exec (.readTimeout ⟨.fetch g n, c⟩) s = .next t
      ∧ (f.tries < 2 → t = { s.countTimeout c 0x100018 with
          rings := s.rings.upd g fun x => { x with fetches := { f with issued := s.hifNow, tries := f.tries + 1 } :: rest }
          out := s.out ++ [.hostRead (.fetch g n) (s.entryAddr g (s.ring g).dev) (32 * n.toNat)] })
      ∧ (2 ≤ f.tries → (t.ring g).fetches = rest ∧ (t.ring g).dev = (s.ring g).dev + BitVec.ofNat 16 n.toNat
          ∧ (s.ringEn (10 + g) = true → (s.ring (10 + g)).halt = false →
              (t.ring (10 + g)).count17 = (s.ring (10 + g)).count17 + BitVec.ofNat 17 n.toNat
              ∧ (n ≠ 0 → s.completionOut (10 + g) .timeout 0xFF 0 (s.ring g).dev 0 0 ∈ t.out))))
  ∧ (∀ (g : Fin 10) (c : ReadEnd) (d : Desc) (b : Buf) (late : Bool) (rest : List (Desc × Bool)) (s : State), s.hostReach = true →
    (s.ring g).buf = (d, late) :: rest → d.ring = g → bodyBuf d.body = some b → s.readEnds c (s.ring g).bufAt = true →
    ∃ t, exec (.readTimeout ⟨.buffer g, c⟩) s = .next t
      ∧ ((s.ring g).bufTries < 2 → t = { s.countTimeout c 0x100018 with
          rings := s.rings.upd g fun x => { x with bufTries := x.bufTries + 1, bufAt := s.hifNow }
          out := s.out ++ (List.range ((b.len.toNat + 4095) / 4096)).map fun i =>
            .hostRead (.buffer g) (b.addr + BitVec.ofNat 64 (4096 * i)) (min 4096 (b.len.toNat - 4096 * i)) })
      ∧ (2 ≤ (s.ring g).bufTries → (t.ring g).buf = rest
          ∧ (s.ringEn (10 + g) = true → (s.ring (10 + g)).halt = false →
              s.completionOut (10 + g) .timeout (bodyCode d.body) d.hdr.tag d.index 0 0 ∈ t.out)))
  ∧ (∀ (a : Nat) (s : State), s.countTimeout .timeout a = s.count a 1 ∧ (∀ c, c ≠ .timeout → s.countTimeout c a = s)
      ∧ s.readEnds .timeout a = decide (a + 400 * s.fld 0x100000 10 14 ≤ s.hifNow)
      ∧ s.inCplTime a = decide (s.hifNow ≤ a + 400 * s.fld 0x100000 10 14))
  ∧ (∀ (page : List Word) (w : Sweep) (rest : List Sweep) (s : State), s.hifEn = true → s.hostReach = true → s.hifNow < s.hif.sweepAt →
      s.hif.sweeps = w :: rest → s.inCplTime w.issued = false →
      exec (.doorbellSweep page) s = exec (.readTimeout ⟨.sweep, .timeout⟩) s)
  ∧ (∀ (g : Fin 10) (raw : List (BitVec 256)) (n : BitVec 8) (f : Fetch) (rest : List Fetch) (s : State), s.hostReach = true →
      (s.ring g).fetches = f :: rest → f.count = raw.length → f.count = n.toNat → s.inCplTime f.issued = false →
      exec (.descriptorFetch g raw) s = exec (.readTimeout ⟨.fetch g n, .timeout⟩) s)
  ∧ (∀ (g : Fin 10) (data : List Byte) (d : Desc) (b : Buf) (late : Bool) (rest : List (Desc × Bool)) (s : State), s.hostReach = true →
      (s.ring g).buf = (d, late) :: rest → bodyBuf d.body = some b → b.len.toNat = data.length → s.inCplTime (s.ring g).bufAt = false →
      exec (.bufferRead g data) s = exec (.readTimeout ⟨.buffer g, .timeout⟩) s)

/-- R343, R368, R369, R371, R537: PERST_N resets the HIF_ registers but HIF_HOSTLOST, every ring and the staging area, and no more; the link comes
and goes; with no changed GEN by its expiry the host is lost, and every active octad runs down where the set says so.  (Complete with their own
effect: `hostLost`, `perstN`, `pcieLinkDown`, `d3hot`, `perstNRelease`, `pcieLinkUp`.) -/
def Obligations.HostLossAndLink : Prop :=
  (∀ s : State, ∃ t, exec .perstN s = .next t ∧ (∀ r, t.ring r = Ring.init) ∧ t.staging = [] ∧ t.hif.linkUp = false
    ∧ t.hif.inReset = true ∧ (∀ a, t.reg a = if inBlock a 1 = true ∧ a ≠ 0x10000C then resetWord a else s.reg a)
    ∧ t = { s with regs := t.regs, staging := [], rings := t.rings, modeReq := t.modeReq, engs := t.engs, hif := t.hif, flt := t.flt })
  ∧ (∀ s : State, exec .perstNRelease s = .next { s with hif := { s.hif with inReset := false } })
  ∧ (∀ (v w : BitVec 3) (s : State), s.hif.inReset = false → linkOk v w = true → ∃ t, exec (.pcieLinkUp v w) s = .next t
    ∧ t = { s with hif := { s.hif with linkUp := true, d3 := false, speed := v.toNat, width := w.toNat }, flt := t.flt })
  ∧ (∀ s : State, s.hif.linkUp = true → ∃ t, exec .pcieLinkDown s = .next t ∧ t.hostReach = false
    ∧ RaiseFrame { s with hif := { s.hif with linkUp := false, speed := 0, width := 0 } } t)
  ∧ (∀ s : State, s.hif.inReset = false → exec .d3hot s = .next { s with hif := { s.hif with d3 := true } }
    ∧ ({ s with hif := { s.hif with d3 := true } } : State).hostReach = false)
  ∧ (∀ (x : Nat) (s : State), s.hif.lostTimer = some x → x < s.hifNow → s.canonical → ∃ t, exec .hostLost s = .next t
    ∧ t.hif.lost = true ∧ t.hif.lostTimer = none ∧ t.fld 0x100010 0 1 = 1
    ∧ (s.fld 0x10000C 14 1 = 1 → ∀ n < 8, (s.oct n).state = .charging ∨ (s.oct n).state = .running →
        (t.oct n).state = .rundown ∨ (t.oct n).state = .fenced ∨ (t.oct n).state = .blocked)
    ∧ (s.fld 0x10000C 14 1 = 0 → RaiseFrame { s with regs := putReg 0x100010 (s.reg 0x100010 ||| 1) s.regs, hif := t.hif } t))

/-! ## The cell frame (chapter 1), engines and outputs -/

/-- R64, R67, R89, Table 2-1, R43, R34: at E(k) + T_FB of the oldest frame not yet latched every cell's last accepted feedback is latched, stale
when the frame brought none; the sign state follows the currents, from ZERO and I(k − 1) = 0 at the first latch whose selection runs (log entry 61),
the mean is that of the candidates, and the engine's sample of this frame starts.  (Completes with its own effect: `feedbackDeadline`.) -/
def Obligations.FeedbackLatchTakesTheFrame : Prop :=
  ∀ (n : Fin 8) (ecc : List TileReads) (k : Word) (e : Nat) (rest : List (Word × Nat)) (s : State), s.alive = true →
    (s.oct n).state ≠ .unconfigured → (s.oct n).toLatch = (k, e) :: rest → frameAt e (s.oct n).tl.tfb ≤ s.now →
    ∃ t, exec (.feedbackDeadline ⟨n, ecc⟩) s = .next t ∧ (t.oct n).toLatch = rest
      ∧ (∀ c ∈ s.octCells n, (t.cell c).v = (s.cell c).fb.v ∧ (t.cell c).fault = (s.cell c).fb.fault
          ∧ (t.cell c).stale = !(s.cell c).fb.fresh ∧ (t.cell c).fb.fresh = false ∧ (t.cell c).vOld = (s.cell c).v
          ∧ (t.cell c).candOld = (s.cell c).cand ∧ (t.cell c).tcL = (t.cell c).tc)
      ∧ (∀ c, c / 512 ≠ n.val → (t.cell c).v = (s.cell c).v ∧ (t.cell c).stale = (s.cell c).stale ∧ (t.cell c).fb = (s.cell c).fb)
      ∧ (t.oct n).iLedPrev = (s.oct n).iLed ∧ (t.oct n).latchAt = some (frameAt e (s.oct n).tl.tfb)
      ∧ ((s.oct n).halted = true → (t.oct n).iCode = (s.oct n).iCode ∧ (t.oct n).sign = (s.oct n).sign ∧ (t.oct n).iLed = 0)
      ∧ ((s.oct n).halted = false →
          (t.oct n).iPrev = (s.oct n).iCode ∧ (t.oct n).iLed = (t.oct n).iCode
          ∧ (((s.oct n).fresh = false ∨ (s.oct n).selIn ≠ 0) → (t.oct n).fresh = (s.oct n).fresh
              ∧ (t.oct n).sign = nextSign (s.oct n).sign (t.oct n).iCode (s.oct n).iCode (s.oct n).iDb (s.oct n).iHys)
          ∧ ((s.oct n).fresh = true → (s.oct n).selIn = 0 → (t.oct n).fresh = false
              ∧ (t.oct n).sign = nextSign .zero (t.oct n).iCode 0 (s.oct n).iDb (s.oct n).iHys)
          ∧ (t.oct n).vbar = meanCode (((t.octCells n).filter fun c => (t.cell c).cand).foldl (fun a c => a + (t.cell c).v) 0)
              ((t.octCells n).filter fun c => (t.cell c).cand).length
          ∧ ((s.eng n).loaded.isSome = true → (t.eng n).running = true ∧ (t.eng n).sampleFrame = k
              ∧ (t.eng n).sampleTick = frameAt e (s.oct n).tl.tfb))

/-- R215 to R217, R241 to R244: a due station sample starts at its E_B(k) + T_SS; at its deadline an engine whose schedule, each corrected read
delaying it by 4 cycles, has ended commits and runs no longer, one whose schedule has not leaves its outputs, its state and its mode, and counts the
overrun; corrected reads are counted, whether or not a sample runs (R34); of several samples under way the oldest comes to its deadline and the
latest goes on; the selection of the frame starts at T_ED of an active octad with the reference then committed, and all that it decides is fixed
there (R75, Table 2-1).  (Complete with their own effect: `engineDeadline`, `stationSampleStart`, `stationDeadline`.) -/
def Obligations.SamplesStartCommitOrOverrun : Prop :=
  (∀ (k : Word) (e : Nat) (s : State), s.alive = true → s.fr.stationDue = some (k, e) → e ≤ s.now → (s.eng 8).running = false →
    (s.eng 8).loaded.isSome = true →
    ∃ t, exec .stationSampleStart s = .next t ∧ (t.eng 8).running = true ∧ (t.eng 8).sampleTick = e
      ∧ (t.eng 8).sampleFrame = k ∧ t.fr = { s.fr with stationDue := none, stationDl := e + s.fr.tsdl - s.fr.tss })
  ∧ (∀ (reads : List BlockReads) (other : BitVec 16) (g : Graph) (s : State), s.alive = true → (s.eng 8).running = true → (s.eng 8).graph = some g →
    s.fr.stationDl ≤ s.now →
    ∃ t, exec (.stationDeadline reads other) s = .next t ∧ (t.eng 8).running = false
      ∧ t.sys.corrected.get 72 = (s.sys.corrected.get 72).add 32 ((reads.map (·.reads.toNat)).sum + other.toNat)
      ∧ (s.sampleDone 8 ((g.sched reads).last + 40) s.fr.stationDl = true →
          (t.eng 8).committed = true ∧ (t.eng 8).ovrRun = 0 ∧ (t.eng 8).commitTick = s.fr.stationDl)
      ∧ (s.sampleDone 8 ((g.sched reads).last + 40) s.fr.stationDl = false →
          (t.eng 8).out = (s.eng 8).out ∧ (t.eng 8).state = (s.eng 8).state ∧ (t.eng 8).committed = (s.eng 8).committed
          ∧ (t.eng 8).ovrRun = if 2 ≤ (s.eng 8).ovrRun then 0 else (s.eng 8).ovrRun + 1))
  ∧ (∀ (reads : List BlockReads) (other : BitVec 16) (s : State), s.alive = true → (s.eng 8).running = false →
    exec (.stationDeadline reads other) s = .next { s with sys := { s.sys with
      corrected := s.sys.corrected.upd 72 fun c => c.add 32 ((reads.map (·.reads.toNat)).sum + other.toNat) } })
  ∧ (∀ (n : Fin 8) (reads : List BlockReads) (other : BitVec 16) (g : Graph) (k : Word) (e : Nat) (rest : List (Word × Nat)) (s : State),
    s.alive = true →
    (s.oct n).state ≠ .unconfigured → (s.oct n).toCommit = (k, e) :: rest → frameAt e (s.oct n).tl.ted ≤ s.now →
    (s.eng n).graph = some g → (s.eng n).running = true → (s.eng n).older = [] →
    ∃ t, exec (.engineDeadline n reads other) s = .next t ∧ (t.eng n).running = false ∧ (t.oct n).toCommit = rest
      ∧ t.sys.corrected.get (64 + n.val) = (s.sys.corrected.get (64 + n.val)).add 32 ((reads.map (·.reads.toNat)).sum + other.toNat)
      ∧ (s.sampleDone n ((g.sched reads).last + 40) (frameAt e (s.oct n).tl.ted) = true →
          (t.eng n).committed = true ∧ (t.eng n).ovrRun = 0 ∧ (t.eng n).commitTick = frameAt e (s.oct n).tl.ted
          ∧ ((s.oct n).state = .charging ∨ (s.oct n).state = .running → (s.oct n).selIn = 0 →
              ((s.oct n).selRunning = false ∨ (s.oct n).selReset = true) →
              (t.oct n).selRunning = true ∧ (t.oct n).selReset = false ∧ (t.oct n).selAt = s.now ∧ (t.oct n).selFrame = k
              ∧ (t.oct n).x = (t.eng n).outBF (s.oct n).refCh ∧ (t.oct n).plan = t.selectPlan n e
              ∧ (s.canonical → ((t.oct n).plan.sat = true → t.fld (octBase n + 0x2010) 3 1 = 1)
                  ∧ ((t.oct n).plan.neg = true → t.fld (octBase n + 0x2010) 4 1 = 1))))
      ∧ (s.sampleDone n ((g.sched reads).last + 40) (frameAt e (s.oct n).tl.ted) = false →
          (t.eng n).out = (s.eng n).out ∧ (t.eng n).state = (s.eng n).state ∧ (t.eng n).mode = (s.eng n).mode
          ∧ (t.eng n).committed = (s.eng n).committed
          ∧ (t.eng n).ovrRun = if 2 ≤ (s.eng n).ovrRun then 0 else (s.eng n).ovrRun + 1))
  ∧ (∀ (n : Fin 8) (reads : List BlockReads) (other : BitVec 16) (g : Graph) (x : Sample) (older : List Sample) (k : Word) (e : Nat)
    (rest : List (Word × Nat)) (s : State), s.alive = true →
    (s.oct n).state ≠ .unconfigured → (s.oct n).toCommit = (k, e) :: rest → frameAt e (s.oct n).tl.ted ≤ s.now →
    (s.eng n).graph = some g → (s.eng n).running = true → (s.eng n).older = x :: older →
    ∃ t, exec (.engineDeadline n reads other) s = .next t ∧ (t.eng n).running = true ∧ (t.eng n).older = older
      ∧ (t.eng n).sampleFrame = (s.eng n).sampleFrame ∧ (t.eng n).sampleTick = (s.eng n).sampleTick ∧ (t.oct n).toCommit = rest
      ∧ ((s.updEng n Engine.oldestFirst).sampleDone n ((g.sched reads).last + 40) (frameAt e (s.oct n).tl.ted) = true →
          (t.eng n).committed = true ∧ (t.eng n).commitTick = frameAt e (s.oct n).tl.ted))

/-- R44, R46, R39, R45, R325, R300: base frames follow at T_F; an octad's frame begins at its epoch with the settings then written, its latch,
deadline and dispatch still to come; the timeline is taken at a boundary with every configured octad still; an armed origin makes the frame that
starts frame 0; a mode change commits when every named unit is armed and is refused otherwise.  (Complete with their own effect: `frameOrigin`,
`timelineTakesEffect`, `baseFrameBoundary`, `modeDecision`, `octadEpoch`.) -/
def Obligations.FramesAdvance : Prop :=
  (∀ s : State, s.alive = true → s.fr.epoch + s.tfTicks ≤ s.now → s.now < s.fr.epoch + 2 * s.tfTicks →
    ∃ t, exec .baseFrameBoundary s = .next t ∧ t.fr.k = s.fr.k + 1 ∧ t.fr.epoch = s.fr.epoch + s.tfTicks
      ∧ t.fr.tf = s.fr.tf
      ∧ ((s.eng 8).loaded.isSome = true → s.sys.halt = false → t.fr.stationCount = s.fr.stationCount + 1
          ∧ t.fr.stationDue = if s.fr.stationCount % max 1 (field s.fr.stime.toNat 0 7) = 0
              then some (s.fr.k + 1, s.fr.epoch + s.tfTicks + s.fr.tss) else s.fr.stationDue)
      ∧ (s.sys.halt = true → t.fr.stationDue = none))
  ∧ (∀ (n : Fin 8) (s : State), s.alive = true → (∀ e ∈ (s.oct n).epochs.head?, e < s.fr.epoch) → (s.oct n).deb = .none →
    s.fr.epoch + (s.oct n).tl.phase ≤ s.now →
    ∃ t, exec (.octadEpoch n) s = .next t ∧ (t.oct n).frame = s.fr.k ∧ (t.oct n).epoch = s.fr.epoch + (s.oct n).tl.phase
      ∧ (t.oct n).epochs.head? = some (s.fr.epoch + (s.oct n).tl.phase)
      ∧ ((s.oct n).state ≠ .unconfigured →
          (t.oct n).toLatch = moreFrames (s.oct n).toLatch (s.fr.k, s.fr.epoch + (s.oct n).tl.phase)
          ∧ (t.oct n).toSend = moreFrames (s.oct n).toSend (s.fr.k, s.fr.epoch + (s.oct n).tl.phase)
          ∧ (t.oct n).toCommit = if s.sys.halt then [] else moreFrames (s.oct n).toCommit (s.fr.k, s.fr.epoch + (s.oct n).tl.phase))
      ∧ (t.oct n).selIn = (s.oct n).selIn - 1 ∧ (t.oct n).selCtrl = s.reg (octBase n + 0x2000)
      ∧ (t.oct n).selIsign = s.reg (octBase n + 0x2004) ∧ (t.oct n).selSrc = s.reg (octBase n + 0x2008)
      ∧ (t.oct n).selVnom = s.reg (octBase n + 0x200C) ∧ (t.oct n).halted = s.sys.halt)
  ∧ (∀ s : State, s.alive = true → s.reaches s.fr.epoch = true → s.allStill = true →
    ∃ t, exec .timelineTakesEffect s = .next t ∧ t.fr.tf = s.fld 0x110 0 7 ∧ t.fr.stime = s.reg 0x8048
      ∧ (∀ n < 8, (t.oct n).tl.phase = s.ofld n 0x10 0 16)
      ∧ (∀ n < 8, s.reaches (s.oct n).epoch = true → (s.oct n).state.still = true → (t.oct n).tl.tfb = s.ofld n 8 0 10
          ∧ (t.oct n).tl.ted = s.ofld n 8 16 10 ∧ (t.oct n).tl.td = s.ofld n 0xC 0 10 ∧ (t.oct n).tl.thr = s.ofld n 0xC 16 10
          ∧ (t.oct n).tl.tle = s.ofld n 0xC 28 4)
      ∧ t = { s with fr := { s.fr with tf := t.fr.tf, stime := t.fr.stime, stationCount := t.fr.stationCount,
                                       stationDue := t.fr.stationDue }, octs := t.octs, trigs := t.trigs })
  ∧ (∀ s : State, s.alive = true → s.allStill = false →
    ∃ t, exec .timelineTakesEffect s = .next t ∧ t.fr = s.fr ∧ t = { s with octs := t.octs }
      ∧ ∀ n < 8, (t.oct n).tl.phase = (s.oct n).tl.phase ∧ ((s.oct n).state.still = false → t.oct n = s.oct n))
  ∧ (∀ s : State, s.alive = true → s.time.orgPend = true → s.time.orgTime ≤ s.time.dt →
    ∃ t, exec .frameOrigin s = .next t ∧ t.fr.k = 0 ∧ t.fr.epoch = s.now ∧ t.fr.origin = s.now
      ∧ t.time = { s.time with orgPend := false, orgBase := s.time.orgTime })
  ∧ (∀ (r : ModeReq) (s : State), s.modeReq = some r → r.decided = false → r.armed = true → r.redo = false →
    0 ≤ frameDiff s.fr.k (r.ke - 1) → r.notArm = 0 → (∃ e < 9, unitNamed r.p e = true ∧ (s.eng e).armed.isSome = true) →
    ∃ t, exec .modeDecision s = .next t ∧ (∃ q, t.modeReq = some q ∧ q.decided = true ∧ q.ke = r.ke)
      ∧ (∀ e < 9, unitNamed r.p e = true → (s.eng e).armed.isSome = true →
          (t.eng e).pending = (s.eng e).pending ++ [⟨targetOf r.p e, r.ke,
            if r.p.ns = 0 then (((s.eng e).modeTable[targetOf r.p e]?).map (·.ns)).getD 0 else r.p.ns.toNat⟩])
      ∧ (∀ e < 9, unitNamed r.p e = false → t.eng e = s.eng e))
  ∧ (∀ (r : ModeReq) (s : State), s.modeReq = some r → r.decided = false → r.armed = true → r.redo = false →
    0 ≤ frameDiff s.fr.k (r.ke - 1) → r.notArm ≠ 0 →
    ∃ t, exec .modeDecision s = .next t ∧ t.modeReq = none
      ∧ (∀ e < 9, (t.eng e).pending = (s.eng e).pending ∧ (t.eng e).mode = (s.eng e).mode
          ∧ (unitNamed r.p e = true → (t.eng e).armed = none)))

/-- R127, R128, R121, Table 4-3: a period of a running output asks for the committed value's share of it, of which the carry keeps what the minimum
width does not let through; a held output is inactive with no edge; a rising edge is realised at its tick, a falling one at its tick or, where the
dither asks for it, one later, but for the bypass interval of the timebase, which has no dither (R113, R481).  (Complete with their own effect:
`dpwmPeriodStart`, `dpwmEdge`.) -/
def Obligations.PulseOutputsFollowTheirPeriod : Prop :=
  (∀ (o : Fin 24) (d : Dpwm) (s : State), s.dpws.get o = d → s.sys.dev = .idle ∨ s.sys.dev = .run → s.fr.dpwHalt = false →
    s.dpwZero d ≤ s.now → (s.now - s.dpwZero d) % d.period = 0 → d.startAt ≤ s.now → (∀ w ∈ d.writes, s.now < w.1 + 400) →
    ∃ t, exec (.dpwmPeriodStart o) s = .next t ∧ t.fld (dpwAddr o + 0x10) 1 1 = bit !(s.eng d.eng).committed
      ∧ (s.dpwSafe o = true → t = { s with dpws := t.dpws, regs := t.regs } ∧ (t.dpws.get o).safe = true ∧ (t.dpws.get o).active = false
          ∧ (t.dpws.get o).rise = none ∧ (t.dpws.get o).fall = none ∧ (t.dpws.get o).carry = 0)
      ∧ (s.dpwSafe o = false → d.en = false → t = { s with dpws := t.dpws, regs := t.regs } ∧ (t.dpws.get o).active = false
          ∧ (t.dpws.get o).safe = false ∧ (t.dpws.get o).rise = none ∧ (t.dpws.get o).fall = none)
      ∧ (s.dpwSafe o = false → d.en = true → (s.eng d.eng).committed = true →
          (t.dpws.get o).carry = (carryStep (dpwHigh ((s.eng d.eng).outBF d.chan) d.period) d.carry (16 * d.minTicks)
            (16 * d.period)).2.1
          ∧ ((carryStep (dpwHigh ((s.eng d.eng).outBF d.chan) d.period) d.carry (16 * d.minTicks) (16 * d.period)).1 = 0 →
              (t.dpws.get o).rise = none ∧ (t.dpws.get o).fall = none)
          ∧ (∀ w : Nat, (carryStep (dpwHigh ((s.eng d.eng).outBF d.chan) d.period) d.carry (16 * d.minTicks) (16 * d.period)).1 = w →
              0 < w → d.centre = false → (t.dpws.get o).rise = some s.now
              ∧ (w = 16 * d.period → (t.dpws.get o).fall = none)
              ∧ (w < 16 * d.period → (t.dpws.get o).fall = some (s.now + w / 16))
              ∧ (w % 16 = 0 → (t.dpws.get o).late = false))
          ∧ t = { s with dpws := t.dpws, regs := t.regs, hotAt := t.hotAt, hot := t.hot })
      ∧ ∀ q, q ≠ o.val → t.dpws.get q = s.dpws.get q)
  ∧ (∀ (o : Fin 24) (x : Nat) (s : State), (s.dpws.get o).safe = false → s.fr.dpwHalt = false →
    (s.dpws.get o).rise = some x → x ≤ s.now →
    ∃ t, exec (.dpwmEdge o) s = .next t ∧ (t.dpws.get o).active = true ∧ (t.dpws.get o).rise = none
      ∧ (t.dpws.get o).fall = (s.dpws.get o).fall ∧ t = { s with dpws := t.dpws } ∧ ∀ q, q ≠ o.val → t.dpws.get q = s.dpws.get q)
  ∧ (∀ (o : Fin 24) (x : Nat) (s : State), (s.dpws.get o).safe = false → s.fr.dpwHalt = false →
    (s.dpws.get o).rise = none → (s.dpws.get o).fall = some x → x + bit ((s.dpws.get o).late && s.clk.bypassTime.isNone) ≤ s.now →
    ∃ t, exec (.dpwmEdge o) s = .next t ∧ (t.dpws.get o).active = false ∧ (t.dpws.get o).fall = none
      ∧ t = { s with dpws := t.dpws } ∧ ∀ q, q ≠ o.val → t.dpws.get q = s.dpws.get q)

/-! ## Selection, trim, ledger (chapters 2, 3, 4) -/

/-- R76, over any two lists: the moves leave exactly the demanded number of candidates inserted (at most all of them), exchange as many each way as
they swap, never more than SWAP_MAX, and name a trim cell that is not inserted. R121: with carry c, the emitted width is zero, or the request itself
with no carry, or lies between the minimum and the range less the minimum; what is not emitted is carried, within ± the range, and a clamp is said. -/
def Obligations.SelectionMeetsTheDemandAndCarries : Prop :=
  (∀ (li lb : List Nat) (n : Nat) (sign : Sign) (dis : Bool) (swapMax : Nat) (v : Nat → Nat) (obh obl : Nat → Bool),
     (selectMoves li lb n sign dis swapMax v obh obl).swaps ≤ swapMax
     ∧ (sign = .zero → (selectMoves li lb n sign dis swapMax v obh obl).swaps = 0)
     ∧ lb.length + (selectMoves li lb n sign dis swapMax v obh obl).ins.length
         = min n (li.length + lb.length) + (selectMoves li lb n sign dis swapMax v obh obl).byp.length
     ∧ (selectMoves li lb n sign dis swapMax v obh obl).ins <+: li
     ∧ (selectMoves li lb n sign dis swapMax v obh obl).byp <+: lb
     ∧ (selectMoves li lb n sign dis swapMax v obh obl).ins.length
         = min (n - lb.length) li.length + (selectMoves li lb n sign dis swapMax v obh obl).swaps
     ∧ (∀ c, (selectMoves li lb n sign dis swapMax v obh obl).trim = some c → li.Nodup →
         c ∈ li ∧ c ∉ (selectMoves li lb n sign dis swapMax v obh obl).ins))
  ∧ (∀ (r c m q : Int), 0 ≤ r → r ≤ q → 0 ≤ m → 2 * m ≤ q → -q ≤ c → c ≤ q →
       ((carryStep r c m q).1 = 0 ∨ (m ≤ (carryStep r c m q).1 ∧ (carryStep r c m q).1 ≤ q - m))
       ∧ -q ≤ (carryStep r c m q).2.1 ∧ (carryStep r c m q).2.1 ≤ q
       ∧ ((carryStep r c m q).2.2.2 = false → (carryStep r c m q).1 + (carryStep r c m q).2.1 = r + c)
       ∧ ((carryStep r c m q).2.2.1 = true ↔ (carryStep r c m q).1 ≠ r))

/-- R75, R79, R88, Table 2-5: SELECTION_COMPLETE before its frame's dispatch commits the inserted set that the selection decided at its start, with
its count and trim fraction, and changes nothing of another octad, nor TC again where that was raised at cycle 279 already; a selection whose cycles
ran slowly completes after T_D and leaves the set, one that hangs does not complete. SEL_WDOG resets a hung one and leaves the set, raising SEL_WDOG
with the window of Table 12-7 open.  (Complete with their own effect: `selectionComplete`, `selWdog`.) -/
def Obligations.SelectionCommitsOrIsLeft : Prop :=
  (∀ (n : Fin 8) (s : State), (s.oct n).selRunning = true → (s.oct n).selReset = false → (s.oct n).selInTime = true →
    s.coreRan (s.oct n).selAt s.now 400 = true →
    ∃ t, exec (.selectionComplete n) s = .next t ∧ (t.oct n).selRunning = false ∧ (t.oct n).selDone = some (s.oct n).selFrame
      ∧ (t.oct n).nins = (s.oct n).plan.nins ∧ (t.oct n).levelF = (s.oct n).plan.f ∧ (t.oct n).addSW = (s.oct n).plan.swaps
      ∧ (t.oct n).addTR = (s.oct n).plan.ins.length + (s.oct n).plan.byp.length
      ∧ (∀ c ∈ s.octCells n, c ∈ (s.oct n).plan.byp → (t.cell c).ins = false)
      ∧ (∀ c ∈ s.octCells n, c ∈ (s.oct n).plan.ins → c ∉ (s.oct n).plan.byp → (t.cell c).ins = true)
      ∧ (∀ c ∈ s.octCells n, c ∉ (s.oct n).plan.ins → c ∉ (s.oct n).plan.byp → c ∉ (s.oct n).plan.leaving →
          (t.cell c).ins = (s.cell c).ins)
      ∧ ((s.oct n).tcDone = true → ∀ c, (t.cell c).tc = (s.cell c).tc)
      ∧ (∀ m, m ≠ n.val → t.oct m = s.oct m)
      ∧ t = { s with octs := t.octs, cells := t.cells, regs := t.regs, hotAt := t.hotAt, hot := t.hot })
  ∧ (∀ (n : Fin 8) (s : State), (s.oct n).selRunning = true → (s.oct n).selReset = false → (s.oct n).selInTime = false →
    s.coreRan (s.oct n).selAt s.now 400 = true →
    exec (.selectionComplete n) s = .next (if (s.oct n).selSlow = true then
      { s with octs := s.octs.upd n fun o => { o with selRunning := false, selSlow := false } } else s))
  ∧ (∀ (n : Fin 8) (s : State), (s.oct n).selRunning = true → (s.oct n).selReset = false → (s.oct n).selSlow = false →
    s.coreRan (s.oct n).selAt s.now 600 = true →
    ∃ t, exec (.selWdog n) s = .next t ∧ (t.oct n).selReset = true
      ∧ (∃ w ∈ t.flt.windows, w.kind = .wdog n ∧ w.code = 0x2302 ∧ w.src = n.val)
      ∧ RaiseFrame { s with octs := s.octs.upd n fun o => { o with selReset := true } } t)

/-- R93, R95, R97, R99: a full window sets its results aside and counts itself; the arithmetic complete, every valid estimate is smoothed; once per
hour of operation CSAVE_SAVE starts a write of the smoothed values into the copy that is not in force.  (Complete with their own effect:
`ledgerWindowEnd`, `ledgerArithmeticComplete`, `csaveSave`.) -/
def Obligations.LedgerWindowsEstimateAndSave : Prop :=
  (∀ (n : Fin 8) (s : State), (s.oct n).window ≠ 0 → (s.oct n).winW ≤ (s.oct n).window → s.canonical →
    ∃ t, exec (.ledgerWindowEnd n) s = .next t ∧ (t.oct n).window = 0 ∧ (t.oct n).arithPending = true
      ∧ (t.reg (octBase n + 0x2418)).toNat = min ((s.reg (octBase n + 0x2418)).toNat + 1) (2 ^ 32 - 1)
      ∧ (∀ c ∈ s.octCells n, (s.cell c).retL = false →
          (t.cell c).sqv = 0 ∧ (t.cell c).svv = 0 ∧ (t.cell c).nq = 0 ∧ (t.cell c).endNq = (s.cell c).nq
          ∧ (t.cell c).endValid = (decide ((s.oct n).winNqmin ≤ (s.cell c).nq) && decide (0 < (s.cell c).sqv))
          ∧ ((t.cell c).endValid = true → (t.cell c).endHat
              = BitVec.ofNat 32 (capEstimate (s.cell c).sqv (s.cell c).svv (s.ofld n 0x2408 0 16) (s.ofld n 0x2408 16 16))))
      ∧ (∀ c, c / 512 ≠ n.val → t.cell c = s.cell c) ∧ (∀ m, m ≠ n.val → t.oct m = s.oct m)
      ∧ t = { s with cells := t.cells, octs := t.octs, regs := t.regs })
  ∧ (∀ (n : Fin 8) (k : Word) (e : Nat) (rest : List (Word × Nat)) (s : State), (s.oct n).arithPending = true →
    63 ≤ (s.oct n).arithFrames → (s.oct n).toLatch = (k, e) :: rest → frameAt e (s.oct n).tl.tfb ≤ s.now → (s.octCells n).Nodup →
    ∃ t, exec (.ledgerArithmeticComplete n) s = .next t ∧ (t.oct n).arithPending = false
      ∧ (∀ c ∈ s.octCells n, (s.cell c).endValid = true → (s.cell c).retired = false →
          (t.cell c).smooth = some (smoothStep (s.cell c).smooth (s.cell c).endHat)
          ∨ ((t.cell c).retired = true ∧ (t.cell c).smooth = (s.cell c).smooth))
      ∧ (∀ c, (s.cell c).endValid = false → (t.cell c).smooth = (s.cell c).smooth)
      ∧ (∀ c, (t.cell c).c0 = (s.cell c).c0 ∧ (t.cell c).v = (s.cell c).v))
  ∧ (∀ s : State, s.bel.csaveAt + 3600 * 400000000 ≤ s.now → s.nvmHeld = false → s.epl.defer = false → s.alive = true →
    ∃ t, exec .csaveSave s = .next t ∧ (∃ w ∈ t.bel.writes, w.part = .csave ∧ t.partBytes w = s.csaveBytes)
      ∧ (∀ w ∈ s.bel.writes, w.part ≠ .csave → w ∈ t.bel.writes)
      ∧ t = { s with bel := { s.bel with writes := t.bel.writes, csaveAt := s.now } })

/-! ## The Truss link (chapters 5 and 6) -/

/-- R182, R184, R185, R592, R43, R144, R149: a frame that the device makes has a good CRC; at T_D of the oldest frame not yet dispatched every hub
that a lane serves gets one COMMAND frame with an entry for each populated cell in ascending slot, the sample tick of E(k + 2) as TAG; an unfinished
selection is late, its cycle counters unchanged; what the scrambler sends the descrambler gives back, from any state after 58 bits; no transmitter
sends more than 2,047 blocks without a FILLER. The populated cells served are counted for the energy plan (R487); a late selection takes back what
it had added to TC.  (Completes with its own effect: `commandDispatch`.) -/
def Obligations.DispatchSendsEveryHubItsFrame : Prop :=
  (∀ (k c q : Nat) (a : Bool) (tag : Word) (d : List Block), frameCrcOk (mkFrame k c q a tag d) = true)
  ∧ (∀ (n : Fin 8) (sel : Bool) (k : Word) (e : Nat) (rest : List (Word × Nat)) (s : State), (s.oct n).state ≠ .unconfigured →
    (s.oct n).toSend = (k, e) :: rest → frameAt e (s.oct n).tl.td ≤ s.now → ((s.oct n).selRunning = false ∨ (s.oct n).selFrame ≠ k) →
    sel = ((s.oct n).selDone == some k && (s.oct n).state.active && !(s.oct n).halted) →
    (∀ c ∈ s.octCells n, ∀ x, (s.cellAction n (k, e) c sel).time = some x → s.levelEdge n e ≤ x ∧ x < s.levelEdge n e + s.tfTicks) →
    ∃ t, exec (.commandDispatch n) s = .next t ∧ (t.oct n).toSend = rest ∧ (t.oct n).late = false ∧ (t.oct n).lateRun = 0
      ∧ (∀ i < 8, ∀ l, s.servingLane (8 * n + i) = some l → 0 < s.hubCells (8 * n + i) →
          .laneFrame l (mkFrame 0x01 (((s.octCells n).filter fun c => c / 64 = 8 * n + i).length) (k.toNat % 16) false
            (BitVec.ofNat 32 (e + 2 * s.tfTicks))
            (((s.octCells n).filter fun c => c / 64 = 8 * n + i).map fun c =>
              actionEntry (c % 64 + 64 * (l % 2)) (s.cellAction n (k, e) c sel))) ∈ t.out)
      ∧ (sel = true → (t.oct n).liveTR = (s.oct n).liveTR + (s.oct n).addTR ∧ (t.oct n).liveSW = (s.oct n).liveSW + (s.oct n).addSW
          ∧ (t.oct n).liveLB = (s.oct n).liveLB + (s.oct n).addLB ∧ (t.oct n).liveEX = (s.oct n).liveEX + (s.oct n).addEX
          ∧ ∀ c ∈ s.octCells n, (t.cell c).permSent = ((s.cell c).permSent || (s.cell c).cmd.isPerm) ∧ (t.cell c).tcAdd = 0)
      ∧ (sel = false → (t.oct n).liveTR = (s.oct n).liveTR ∧ (t.oct n).liveSW = (s.oct n).liveSW
          ∧ ∀ c, (t.cell c).permSent = (s.cell c).permSent ∧ (t.cell c).tcAdd = (s.cell c).tcAdd)
      ∧ (∀ c, (t.cell c).tc = (s.cell c).tc)
      ∧ t.epl.live.get 5 = s.epl.live.get 5
          + ((List.range 8).map fun i => if (s.servingLane (8 * n + i)).isSome then s.hubCells (8 * n + i) else 0).sum
      ∧ (∀ m, m ≠ n.val → t.oct m = s.oct m)
      ∧ t = { s with octs := t.octs, cells := t.cells, lanes := t.lanes, rings := t.rings, out := t.out, hif := t.hif, epl := t.epl })
  ∧ (∀ (n : Fin 8) (k : Word) (e : Nat) (rest : List (Word × Nat)) (s : State), (s.oct n).toSend = (k, e) :: rest →
    frameAt e (s.oct n).tl.td ≤ s.now → (s.oct n).selRunning = true → (s.oct n).selFrame = k → (s.oct n).selDone ≠ some k →
    (s.oct n).state = .charging ∨ (s.oct n).state = .running → (s.oct n).halted = false →
    ∃ t, exec (.commandDispatch n) s = .next t ∧ (t.oct n).toSend = rest ∧ (t.oct n).late = true
      ∧ t.fld (octBase n + 0x2010) 7 1 = 1 ∧ (t.oct n).liveTR = (s.oct n).liveTR ∧ (t.oct n).liveSW = (s.oct n).liveSW
      ∧ (t.oct n).selSlow = (!(s.oct n).selReset && !s.coreRan (s.oct n).selAt s.now 400))
  ∧ (∀ (n : Nat) (a : BitVec 58) (p : Nat), descramble n a (scramble n a p).1 = (p % 2 ^ n, (scramble n a p).2))
  ∧ (∀ (a b : BitVec 58) (p : Nat), (descramble 58 a p).2 = (descramble 58 b p).2)
  ∧ (∀ (l : Nat) (s : State), (s.lane l).txRun ≤ 2047 → ((s.txTick l).lane l).txRun ≤ 2047)

/-- R181, R190, R196, R204, R207, R178, R183: a frame is judged by its CRC first; accepted feedback gives each named cell its image; a capture uses
a credit; an awaited ENUM frame records the hub and its cells; without one the query is sent again; an ABORT that is no DISCARD and a block with no
place are counted; a FRAME_START opens a frame, which takes data blocks and ends with an ABORT; what arrives whole inside an open frame has that
frame discarded and counted first.  (Complete with their own effect: `feedbackFrame`, `captureFrame`, `enumFrame`, `enumTimeout`, `abort`,
`malformedBlock`.) -/
def Obligations.ReceivedFramesAreJudged : Prop :=
  (∀ (l : Fin 128) (f : RawFrame) (k : Word) (e : Nat) (s : State), s.alive = true → (s.lane l).serving = true →
    (s.lane l).openF = none → frameCrcOk f = true → feedbackShape f = true → (s.oct (l / 16)).epochs ≠ [] →
    (k, e) ∈ (s.oct (l / 16)).toLatch → frameTag f = BitVec.ofNat 32 e → s.now ≤ frameAt e (s.oct (l / 16)).tl.tfb →
    ∃ t, exec (.feedbackFrame l f) s = .next t ∧ (t.tiles.get (hubOfLane l)).fbSeen = true
      ∧ (∀ x ∈ fbEntries f.data, x.slot / 64 = l % 2 → (s.cell (hubOfLane l * 64 + x.slot % 64)).populated = true →
          (t.cell (hubOfLane l * 64 + x.slot % 64)).fb.fresh = decide (x.status % 2 = 1)
          ∧ (t.cell (hubOfLane l * 64 + x.slot % 64)).fb.fault = BitVec.ofNat 8 x.fault
          ∧ (t.cell (hubOfLane l * 64 + x.slot % 64)).fb.v
              = if x.status % 2 = 1 then x.v else (s.cell (hubOfLane l * 64 + x.slot % 64)).fb.v)
      ∧ (∀ c, c / 64 ≠ hubOfLane l → (t.cell c).fb = (s.cell c).fb))
  ∧ (∀ (l : Fin 128) (f : RawFrame) (s : State), s.alive = true → (s.lane l).openF = none → frameCrcOk f = false →
    ∃ t u, exec (.feedbackFrame l f) s = .next t ∧ exec (.captureFrame l f) s = .next u
      ∧ RaiseFrame (s.count (tileBase (l / 2) + 0x318) 1) t ∧ RaiseFrame (s.count (tileBase (l / 2) + 0x318) 1) u)
  ∧ (∀ (l : Fin 128) (f : RawFrame) (r : Nat) (u s : State), s.alive = true → (s.lane l).serving = true → (s.lane l).openF = none →
    frameCrcOk f = true → frameKind f = 3 → frameAux f = false → frameCount f = 1 → f.data.length = 32 → (s.lane l).outstanding ≠ 0 →
    r = s.fld (tileBase (l / 2) + 0x300) 4 4 → u = (s.updLane l fun x => { x with taken := x.taken + 1 }) →
    ∃ t, exec (.captureFrame l f) s = .next t ∧ (t.lane l).taken = (s.lane l).taken + 1
      ∧ (u.captureRoom r 264 = true → (t.ring (20 + r)).dev = (s.ring (20 + r)).dev + 5
          ∧ t.out = s.out ++ u.slotWrites (20 + r) (captureImage 0x05
              (leBytes 2 l ++ leBytes 6 s.now ++ f.data.flatMap blockBytes) s.tick.toNat))
      ∧ (u.captureRoom r 264 = false → (t.lane l).capLost = (s.lane l).capLost.add 32 1 ∧ t.rings = s.rings ∧ t.out = s.out)
      ∧ t = { s with lanes := t.lanes, rings := t.rings, out := t.out, epl := t.epl })
  ∧ (∀ (l : Fin 128) (f : RawFrame) (s : State), s.alive = true → (s.lane l).openF = none → frameCrcOk f = true →
    frameKind f = 4 → frameAux f = false → 1 ≤ frameCount f → frameCount f ≤ 64 → f.data.length = frameCount f + 1 →
    distinct ((f.data.drop 1).map fun b => field b.toNat 0 6) = true → (s.lane l).auxAt.isSome = true →
    (l.val % 2 = 0 ∨ (s.tiles.get (hubOfLane l)).serialKnown = false ∨ s.reg (tileBase (hubOfLane l) + 0x304) = frameTag f) →
    ∃ t, exec (.enumFrame l f) s = .next t ∧ (t.tiles.get (hubOfLane l)).enumerated = true
      ∧ (t.tiles.get (hubOfLane l)).serialKnown = true
      ∧ (∀ b ∈ f.data.drop 1, (t.cell (64 * hubOfLane l + field b.toNat 0 6)).populated = true
          ∧ (t.cell (64 * hubOfLane l + field b.toNat 0 6)).serial = BitVec.ofNat 32 (b.toNat / 2 ^ 32)
          ∧ (t.cell (64 * hubOfLane l + field b.toNat 0 6)).minPulse = BitVec.ofNat 8 (blockByte b 2)
          ∧ (t.cell (64 * hubOfLane l + field b.toNat 0 6)).deadTime = BitVec.ofNat 8 (blockByte b 3))
      ∧ (∀ c, c / 64 ≠ hubOfLane l → (t.cell c).populated = (s.cell c).populated))
  ∧ (∀ (l : Fin 128) (x : Nat) (s : State), (s.lane l).auxAt = some x → x + 80000 ≤ s.now → (s.lane l).state ≠ .retired →
    (s.lane l).state ≠ .off → (s.lane l).aux < 3 →
    ∃ t, exec (.enumTimeout l) s = .next t ∧ (t.lane l).aux = (s.lane l).aux + 1 ∧ (t.lane l).auxAt = some s.now
      ∧ (∃ f, frameCrcOk f = true ∧ t.out = s.out ++ [.laneFrame l f]) ∧ t = { s with lanes := t.lanes, out := t.out })
  ∧ (∀ (l : Fin 128) (b : Block) (s u : State), u = (s.updLane l fun x => { x with openF := none }) →
    (blockByte b 0 = 0xE7 → blockByte b 1 = 0x02 → blockByte b 2 = 0xFD → exec (.abort l b) s = .next u)
    ∧ (¬(blockByte b 0 = 0xE7 ∧ blockByte b 1 = 0x02 ∧ blockByte b 2 = 0xFD) →
      ∃ t, exec (.abort l b) s = .next t ∧ RaiseFrame (u.count (tileBase (l / 2) + 0x31C) 1) t)
    ∧ (blockByte b 0 = 0xE7 → exec (.malformedBlock l false b) s = exec (.abort l b) s))
  ∧ (∀ (l : Fin 128) (isData : Bool) (b : Block) (s : State),
    (isData = true ∧ (s.lane l).openF = none ∨ isData = false ∧ blockByte b 0 = 0xB9 ∧ (s.lane l).openF = none
      ∨ isData = false ∧ blockByte b 0 ∉ [0xA1, 0xB2, 0xB9, 0xE7] ++ controlCodes) →
    ∃ t, exec (.malformedBlock l isData b) s = .next t ∧ RaiseFrame (s.count (tileBase (l / 2) + 0x31C) 1) t)
  ∧ (∀ (l : Fin 128) (b : Block) (s : State),
    (∀ o, (s.lane l).openF = some o →
      exec (.malformedBlock l true b) s = .next (s.updLane l fun x => { x with openF := some { o with data := o.data ++ [b] } }))
    ∧ (blockByte b 0 = 0xB2 → (s.lane l).openF = none →
      exec (.malformedBlock l false b) s = .next (s.updLane l fun x => { x with openF := some ⟨b, [], false⟩ }))
    ∧ (blockByte b 0 = 0xA1 → exec (.malformedBlock l false b) s = .next s))
  ∧ (∀ (l : Fin 128) (i : Instr) (f : RawFrame) (b : Block) (t4 : BitVec 48) (s : State), (s.lane l).openF.isSome = true →
    i ∈ [.feedbackFrame l f, .captureFrame l f, .enumFrame l f, .capability l b, .linkCmdAck l b, .reportRsp l b, .echo l b t4] →
    exec i s = exec i ((s.updLane l fun x => { x with openF := none }).malformed l))

/-- R146, R151, R154, R156, R170, Table 5-4: received bits count valid headers at each alignment, and the first alignment with 96 in a row is the
lane's block lock, which starts the exchange; three identical CAPABILITY blocks set ACK and, with the hub's ACK, the first STEP; an acknowledged
STEP sends 16 FILLER blocks at the old speed, and once they have left moves the lane to its target, where it qualifies gate by gate; a failed gate
costs one speed; an unacknowledged or lockless STEP is tried again or given back.  (Complete with their own effect: `capability`, `linkCmdAck`,
`reportRsp`, `qualPointDone`, `eyeScanPoint`, `blockLock`, `tAck`, `tStep`.) -/
def Obligations.LanesTrainStepByStep : Prop :=
  (∀ (l : Fin 128) (r : RxWord) (rs : List RxWord) (w : BitVec 66) (s : State), (s.lane l).isHunting = true →
    w = invertIf (s.fld (laneBase l) 4 1 == 1) r.bits →
    (lockAt (huntCounts (s.lane l) w) = none →
      ∃ t, exec (.blockLock l [r]) s = .next t ∧ exec (.blockLock l (r :: rs)) s = exec (.blockLock l rs) t
        ∧ (t.lane l) = { s.lane l with rxPrev := w, hunts := huntCounts (s.lane l) w }
        ∧ (∀ m, m ≠ l.val → t.lane m = s.lane m) ∧ t = { s with lanes := t.lanes, regs := t.regs, hotAt := t.hotAt, hot := t.hot })
    ∧ (∀ a, lockAt (huntCounts (s.lane l) w) = some a → (s.lane l).state = .hunt →
      ∃ t, exec (.blockLock l (r :: rs)) s = .next t ∧ (t.lane l).state = .capx ∧ (t.lane l).lock = true ∧ (t.lane l).capxAt = s.now
        ∧ (t.lane l).align = a ∧ (t.lane l).skip = 58 ∧ (t.lane l).fill = 8
        ∧ (∃ b, t.out = s.out ++ [.laneBlock l b] ∧ blockByte b 0 = 0xD3 ∧ blockByte b 1 / 32 % 2 = l % 2)
        ∧ (∀ m, m ≠ l.val → t.lane m = s.lane m)
        ∧ t = { s with lanes := t.lanes, regs := t.regs, hotAt := t.hotAt, hot := t.hot, out := t.out })
    ∧ (∀ a, lockAt (huntCounts (s.lane l) w) = some a → (s.lane l).state = .step → (s.lane l).gate ≠ 6 → (s.lane l).proc = .bringup →
      (s.lane l).speed ≠ 0 →
      ∃ t, exec (.blockLock l (r :: rs)) s = .next t ∧ (t.lane l).state = .qual ∧ (t.lane l).gate = 1 ∧ (t.lane l).lock = true
        ∧ (t.lane l).speed = (s.lane l).speed ∧ t = { s with lanes := t.lanes, regs := t.regs, hotAt := t.hotAt, hot := t.hot }))
  ∧ (∀ (l : Fin 128) (b m : Block) (s : State), (s.lane l).state = .capx → (s.lane l).lock = true → (s.lane l).openF = none →
    blockByte b 0 = 0xD3 → blockByte b 1 / 16 % 2 = 1 → blockByte b 1 / 32 % 2 = l % 2 → blockByte b 1 % 16 = 1 →
    m = BitVec.ofNat 64 (b.toNat % 2 ^ 23) →
    ∃ t, exec (.capability l b) s = .next t ∧ (t.lane l).hubMax = blockByte b 1 / 64
      ∧ ((s.lane l).capAck = false → (s.lane l).capLast ≠ some m → (t.lane l).capAck = false ∧ (t.lane l).capCount = 1
          ∧ (t.lane l).capLast = some m ∧ (t.lane l).state = .capx)
      ∧ ((s.lane l).capAck = false → (s.lane l).capLast = some m → (s.lane l).capCount = 2 → blockByte b 2 % 2 = 0 →
          (t.lane l).capAck = true ∧ (t.lane l).state = .capx ∧ ∃ c, t.out = s.out ++ [.laneBlock l c] ∧ blockByte c 2 % 2 = 1)
      ∧ ((s.lane l).capAck = true → blockByte b 2 % 2 = 1 → (s.lane l).proc = .bringup →
          0 < min (s.lane l).maxSpd (blockByte b 1 / 64) →
          (t.lane l).state = .step ∧ (t.lane l).target = 1 ∧ (t.lane l).sends = 1))
  ∧ (∀ (l : Fin 128) (b : Block) (s : State), (s.lane l).openF = none → blockByte b 0 = 0xD5 → blockByte b 1 = 2 →
    blockByte b 3 = (s.lane l).seq.toNat →
    ((s.lane l).state = .step → (s.lane l).acked = false → blockByte b 2 = 1 →
      ∃ t, exec (.linkCmdAck l b) s = .next t ∧ t.lane l = { s.lane l with acked := true, turning := true }
        ∧ t.out = s.out ++ List.replicate 16 (.laneBlock l 0xA1) ∧ (∀ m, m ≠ l.val → t.lane m = s.lane m)
        ∧ t = { s with lanes := t.lanes, out := t.out })
    ∧ ((s.lane l).state = .warm → (s.lane l).dormantReq = true → blockByte b 2 = 5 →
      ∃ t, exec (.linkCmdAck l b) s = .next t ∧ (t.lane l).state = .dormant ∧ (t.lane l).lock = false
        ∧ ∀ m, m ≠ l.val → t.lane m = s.lane m))
  ∧ (∀ (l : Fin 128) (s : State), (s.lane l).turning = true →
    ((∃ i ∈ (s.lane l).txLo, i.data = false ∧ i.b = 0xA1) → s.turnLane l = s)
    ∧ ((∀ i ∈ (s.lane l).txLo, i.data = true ∨ i.b ≠ 0xA1) →
      ∃ t, s.turnLane l = t ∧ (t.lane l).speed = (s.lane l).target ∧ (t.lane l).lock = false ∧ (t.lane l).turning = false
        ∧ (t.lane l).stepAt = s.now ∧ (t.lane l).hunts = [] ∧ (t.lane l).eye = none
        ∧ (∀ m, m ≠ l.val → t.lane m = s.lane m) ∧ t = { s with lanes := t.lanes, regs := t.regs, hotAt := t.hotAt, hot := t.hot }))
  ∧ (∀ (l : Fin 128) (d : Word) (s : State), (s.lane l).state = .qual → 1 ≤ (s.lane l).gate → (s.lane l).gate ≤ 4 →
    ∃ t, exec (.qualPointDone l d) s = .next t
      ∧ (d = 0 → (t.lane l).gate = (s.lane l).gate + 1 ∧ (t.lane l).state = .qual)
      ∧ (d = 0 → (s.lane l).gate = 4 → ∃ b, t.out = s.out ++ [.laneBlock l b] ∧ blockByte b 0 = 0xD5 ∧ blockByte b 1 = 3)
      ∧ (d ≠ 0 → (t.lane l).state = .step ∧ (t.lane l).target = (s.lane l).speed - 1))
  ∧ (∀ (l : Fin 128) (b : Block) (s : State), (s.lane l).openF = none → (s.lane l).state = .qual → (s.lane l).gate = 5 → blockByte b 0 = 0xD5 →
    blockByte b 1 = 4 → blockByte b 3 = (s.lane l).seq.toNat →
    ∃ t, exec (.reportRsp l b) s = .next t
      ∧ (field b.toNat 32 16 = 0 → (s.lane l).proc = .bringup →
          (s.lane l).speed < min (s.lane l).maxSpd (s.lane l).hubMax →
          (t.lane l).state = .step ∧ (t.lane l).target = (s.lane l).speed + 1)
      ∧ (field b.toNat 32 16 = 0 → (s.lane l).proc = .bringup →
          min (s.lane l).maxSpd (s.lane l).hubMax ≤ (s.lane l).speed →
          (t.lane l).state = .qual ∧ (t.lane l).q = (s.lane l).speed ∧ (t.lane l).auxAt = some s.now)
      ∧ (field b.toNat 32 16 ≠ 0 → (t.lane l).state = .step ∧ (t.lane l).target = (s.lane l).speed - 1))
  ∧ (∀ (l : Fin 128) (count : Word) (lost : Bool) (i : Nat) (s : State), (s.lane l).eye = some i → s.sheds 0 = false →
    (s.lane l).state ≠ .qual ∨ (s.lane l).gate = 0 ∨ 4 < (s.lane l).gate →
    ∃ t, exec (.eyeScanPoint l count lost) s = .next t
      ∧ (t.lane l).eye = (if i + 1 < 16320 then some (i + 1) else none) ∧ (∀ m, m ≠ l.val → t.lane m = s.lane m)
      ∧ t = { s with lanes := t.lanes, regs := t.regs, hotAt := t.hotAt, hot := t.hot, rings := t.rings, out := t.out, epl := t.epl })
  ∧ (∀ (l : Fin 128) (s : State), (s.lane l).state = .step → (s.lane l).acked = false → (s.lane l).sentAt + 20000 ≤ s.now →
    ∃ t, exec (.tAck l) s = .next t
      ∧ ((s.lane l).sends < 3 → (t.lane l).sends = (s.lane l).sends + 1 ∧ (t.lane l).seq = (s.lane l).seq
          ∧ (t.lane l).sentAt = s.now ∧ t.out.length = s.out.length + 1)
      ∧ (3 ≤ (s.lane l).sends → (s.lane l).proc = .bringup → (t.lane l).state = .qual ∧ (t.lane l).auxAt = some s.now))
  ∧ (∀ (l : Fin 128) (s : State), (s.lane l).state = .step → (s.lane l).acked = true → (s.lane l).lock = false →
    (s.lane l).turning = false → (s.lane l).stepAt + 80000 ≤ s.now → (s.lane l).gate ≠ 6 → (s.lane l).proc = .bringup →
    ∃ t, exec (.tStep l) s = .next t
      ∧ ((t.lane l).state = .retired ∨ (t.lane l).speed = (s.lane l).from_ ∧ (t.lane l).stepAt = s.now ∧ (t.lane l).state = .step))

/-- R147, R166, R168, R43, R164, R482, R150: the loss of block lock at 12 invalid headers among the last 96, the timers of HUNT, CAPX, the retrain
and the wake, and a quad PLL's lock loss start a retrain, whose fourth start within 1 s retires the lane; a FILLER is deleted at 10 blocks in the
elastic buffer and passed twice at 6, and a buffer that runs over or empty is centred again.  (Complete with their own effect: `laneLockLoss`,
`laneElastic`, `tHunt`, `tCapx`, `tRt`, `laneWake`, `quadPllUnlock`.) -/
def Obligations.LanesRetrainOrRetire : Prop :=
  (∀ (l : Fin 128) (s : State), (s.lane l).state = .hunt → (s.lane l).huntAt + 800000 ≤ s.now →
    ∃ t, exec (.tHunt l) s = .next t ∧ s.triggered t l)
  ∧ (∀ (l : Fin 128) (s : State), (s.lane l).state = .capx → (s.lane l).capxAt + 80000 ≤ s.now →
    ∃ t, exec (.tCapx l) s = .next t ∧ s.triggered t l)
  ∧ (∀ (l : Fin 128) (x : Nat) (s : State), (s.lane l).rtAt = some x → x + 8000000 ≤ s.now → (s.lane l).state ≠ .off →
    (s.lane l).state ≠ .retired → ∃ t, exec (.tRt l) s = .next t ∧ s.triggered t l)
  ∧ (∀ (l : Fin 128) (x : Nat) (s : State), (s.lane l).wakeAt = some x → x + 360000 ≤ s.now → (s.lane l).state = .wake →
    ∃ t, exec (.laneWake l) s = .next t ∧ ((t.lane l).retraining s.now ∨ (t.lane l).state = .retired))
  ∧ (∀ (l : Fin 128) (r : RxWord) (rs : List RxWord) (w : BitVec 66) (s : State), (s.lane l).lock = true → (s.lane l).state ≠ .off →
    (s.lane l).state ≠ .retired → w = invertIf (s.fld (laneBase l) 4 1 == 1) r.bits →
    12 ≤ (((alignedBlock (s.lane l) w % 4 == 0 || alignedBlock (s.lane l) w % 4 == 3) :: (s.lane l).hdrs).take 96).countP id →
    ∃ t, exec (.laneLockLoss l (r :: rs)) s = .next t ∧ ((t.lane l).retraining s.now ∨ (t.lane l).state = .retired))
  ∧ (∀ (q : Fin 32) (s : State),
    (s.clk.quads.get q).state = .locked ∨ (s.clk.quads.get q).state = .settling →
    ∃ t, exec (.quadPllUnlock q) s = .next t ∧ (t.clk.quads.get q).state = .search
      ∧ (∀ p, p ≠ q.val → t.clk.quads.get p = s.clk.quads.get p)
      ∧ (∀ i < 4, (s.lane (4 * q + i)).lock = true → (s.lane (4 * q + i)).state = .active →
          (t.lane (4 * q + i)).lock = false ∨ (t.lane (4 * q + i)).state = .retired))
  ∧ (∀ (l : Fin 128) (r : RxWord) (blk : Nat) (e : Int × Nat × Nat) (s : State), (s.lane l).lock = true →
    blk = alignedBlock (s.lane l) (invertIf (s.fld (laneBase l) 4 1 == 1) r.bits) → blk % 4 = 2 → (s.lane l).skip = 0 →
    ((false :: (s.lane l).hdrs).take 96).countP id < 12 →
    blockByte (BitVec.ofNat 64 (descramble 64 (s.lane l).dsc (blk / 4)).1) 0 = 0xA1 →
    e = elasticStep (s.lane l).fill true r.reads.toNat →
    ∃ t u, exec (.laneElastic l [r]) s = .next t ∧ u = { s with lanes := u.lanes, regs := u.regs, hotAt := u.hotAt, hot := u.hot }
      ∧ (u.lane l).dsc = (descramble 64 (s.lane l).dsc (blk / 4)).2 ∧ (∀ m, m ≠ l.val → u.lane m = s.lane m)
      ∧ (e.1 ≤ 0 ∨ 16 < e.1 → (u.lane l).fill = 8 ∧ RaiseFrame u t)
      ∧ (0 < e.1 → e.1 ≤ 16 → t = u ∧ ((u.lane l).fill : Int) = e.1
          ∧ u.fld (laneBase l + 0x18) 0 15 = min (s.fld (laneBase l + 0x18) 0 15 + e.2.1) (2 ^ 15 - 1)
          ∧ u.fld (laneBase l + 0x18) 16 15 = min (s.fld (laneBase l + 0x18) 16 15 + e.2.2) (2 ^ 15 - 1)))

/-- R197, R199, R200, R201, R203, R481: MARK carries the next TSEQ and, written as it leaves the lane, the time of its departure, which is T1; a SET
leaves with d_f and its time of departure; an exchange on the bypass oscillator is dropped; an ECHO that answers it gives the delay, the time error
and, after eight good ones, TLOCK; CREDIT repeats the grant.  (Complete with their own effect: `mark`, `echo`, `creditRefresh`.) -/
def Obligations.MarkAndEchoMeasureTheLane : Prop :=
  (∀ (l : Fin 128) (s : State), (s.lane l).state = .active ∨ (s.lane l).state = .warm →
    (s.lane l).markAt = 0 ∨ (s.lane l).markAt + s.tTm l ≤ s.now → (s.lane l).marked = false ∨ (s.lane l).unanswered < 3 →
    ∃ t, exec (.mark l) s = .next t ∧ (t.lane l).marked = true ∧ (t.lane l).t1 = none ∧ (t.lane l).tseq = (s.lane l).tseq + 1
      ∧ (t.lane l).markAt = s.now
      ∧ (∃ b, t.out = s.out ++ [.laneBlock l b] ∧ blockByte b 0 = 0xC4 ∧ field b.toNat 8 4 = 1
          ∧ field b.toNat 12 4 = (t.lane l).tseq.toNat)
      ∧ (t.lane l).unanswered = (if (s.lane l).marked then (s.lane l).unanswered + 1 else (s.lane l).unanswered)
      ∧ (∀ m, m ≠ l.val → t.lane m = s.lane m) ∧ t = { s with lanes := t.lanes, out := t.out })
  ∧ (∀ (l : Fin 128) (s : State), (s.lane l).state = .active ∨ (s.lane l).state = .warm →
    (s.lane l).markAt = 0 ∨ (s.lane l).markAt + s.tTm l ≤ s.now → (s.lane l).marked = true → 3 ≤ (s.lane l).unanswered →
    ∃ t, exec (.mark l) s = .next t ∧ ((t.lane l).tlock = false ∨ (t.lane l).state = .retired))
  ∧ (∀ (l : Fin 128) (b : Block) (t4 t1 : BitVec 48) (s : State), (s.lane l).t1 = some t1 → (s.lane l).openF = none →
    s.clk.bypassTime = none → blockByte b 0 = 0xC4 →
    field b.toNat 8 4 = 2 → field b.toNat 12 4 = (s.lane l).tseq.toNat → (s.lane l).state = .active ∨ (s.lane l).state = .warm →
    (echoError (t1.toNat : Int) (field b.toNat 40 24) (echoDelay 0 ((t4 - t1).toNat : Int) (field b.toNat 16 24)
      (sext 24 (s.fld (laneBase l + 0x20) 0 24)))).natAbs ≤ 64 →
    ∃ t, exec (.echo l b t4) s = .next t ∧ (t.lane l).t1 = none ∧ (t.lane l).marked = false ∧ (t.lane l).unanswered = 0
      ∧ (t.lane l).delayValid = true
      ∧ (t.lane l).delay = echoDelay 0 ((t4 - t1).toNat : Int) (field b.toNat 16 24) (sext 24 (s.fld (laneBase l + 0x20) 0 24))
      ∧ (t.lane l).terr = echoError (t1.toNat : Int) (field b.toNat 40 24) (t.lane l).delay
      ∧ ((t.lane l).terr.natAbs ≤ 16 → 7 ≤ (s.lane l).good → (t.lane l).tlock = true)
      ∧ ((s.lane l).tlock = true → (t.lane l).tlock = true)
      ∧ t.out.length = s.out.length + (if (s.lane l).serving = true then 1 else 0)
      ∧ (∀ m, m ≠ l.val → t.lane m = s.lane m) ∧ t = { s with lanes := t.lanes, out := t.out })
  ∧ (∀ (l : Fin 128) (b : Block) (t4 t1 : BitVec 48) (s : State), (s.lane l).t1 = some t1 → (s.lane l).openF = none →
    s.clk.bypassTime.isSome = true → blockByte b 0 = 0xC4 → field b.toNat 8 4 = 2 → field b.toNat 12 4 = (s.lane l).tseq.toNat →
    (s.lane l).state = .active ∨ (s.lane l).state = .warm →
    exec (.echo l b t4) s = .next (s.updLane l fun x => { x with marked := false, t1 := none }))
  ∧ (∀ (b : Block) (dep : BitVec 48) (sp : Nat) (x : Lane) (byp : Bool), blockByte b 0 = 0xC4 →
    (field b.toNat 8 4 = 1 ∨ field b.toNat 8 4 = 3 →
      (stampBlock ⟨false, b, sp⟩ dep).b.toNat % 2 ^ 16 = b.toNat % 2 ^ 16
        ∧ field (stampBlock ⟨false, b, sp⟩ dep).b.toNat 16 48 = (field b.toNat 16 48 + dep.toNat) % 2 ^ 48)
    ∧ (field b.toNat 8 4 = 2 ∨ field b.toNat 8 4 = 4 → stampBlock ⟨false, b, sp⟩ dep = ⟨false, b, sp⟩)
    ∧ (field b.toNat 8 4 = 1 → x.marked = true → x.left ⟨false, b, sp⟩ dep byp
        = { x with t1 := if byp then none else some dep, marked := !byp }))
  ∧ (∀ (l : Fin 128) (s : State), (s.lane l).serving = true →
    exec (.creditRefresh l) s = .next { s with out := s.out ++ [.laneBlock l (creditBlock (s.lane l).grant)] })

/-! ## Trips, triggers, time (chapters 4 and 10) -/

/-- R131, R132, R135: the latch of an enabled input sets once its level has been active over the filter time; its outputs are safe and its octads
Blocked before the fault is reported. R328 to R333: a firing raises CONVST for WID ticks and starts a conversion frame, whose codes enter every
mailbox that names the port's channel; an edge whose level is held for 2 ticks is captured in one record; a unit whose port Kingpost owns fires
every T_KS, whatever its channel runs, and starts no frame.  (Complete with their own effect: `tripIn`, `timestampCapture`, `triggerFiring`,
`convstEnd`, `samplePortClockStart`, `samplePortFrame`.) -/
def Obligations.TripsTriggersAndPortsAct : Prop :=
  (∀ (m : Fin 16) (s : State), s.alive = true → s.tripEn m = true → (s.trips.get m).level = s.tripPol m → (s.trips.get m).latch = false →
    (s.trips.get m).since + 4 * s.fld (0x308400 + 8 * m) 0 8 ≤ s.now →
    ∃ t u, exec (.tripIn m (s.tripPol m)) s = .next t ∧ RaiseFrame u t
      ∧ (u.trips.get m).latch = true ∧ (∀ k, k ≠ m.val → u.trips.get k = s.trips.get k)
      ∧ (∀ n < 24, bitOf (s.fld (0x308404 + 8 * m) 0 24) n = true → (u.dpws.get n).safe = true)
      ∧ (∀ n < 8, bitOf (s.fld (0x308404 + 8 * m) 24 8) n = true → (s.oct n).state.active = true → (u.oct n).state = .blocked))
  ∧ (∀ (m : Fin 16) (level : Bool) (s : State), s.alive = true → level ≠ (s.trips.get m).level → 0 < s.fld (0x308400 + 8 * m) 0 8 →
    ∃ t, exec (.tripIn m level) s = .next t ∧ (t.trips.get m).level = level ∧ (t.trips.get m).since = s.now
      ∧ (t.trips.get m).latch = (s.trips.get m).latch ∧ t = { s with trips := t.trips })
  ∧ (∀ (n : Fin 8) (d : Due) (x : Nat) (s : State), s.portOwned n = false → s.alive = true → s.trgEn n = true →
    (s.trigs.get n).next = some d → (s.trigs.get n).high = false → (s.sports.get n).frame = none →
    (∃ o k f, d = .epoch x o k f ∧ x ≤ s.now) ∨ (∃ i, d = .time i ∧ i ≤ s.time.dt ∧ x = s.now) →
    ∃ t, exec (.triggerFiring n) s = .next t ∧ (t.trigs.get n).high = true
      ∧ (t.trigs.get n).lowAt = x + s.fld (0x301000 + 0x20 * n) 8 8 ∧ (t.trigs.get n).fired = x ∧ (t.trigs.get n).next.isSome = true
      ∧ (t.sports.get n).frame = (if s.fld (0x304000 + 0x10 * n) 0 1 = 1 ∧ (s.sports.get n).retired = false then some x else none)
      ∧ (∀ i, d = .time i → s.trgTime n = true → ∃ j, (t.trigs.get n).next = some (.time j) ∧ s.time.dt < j)
      ∧ (∀ k, k ≠ n.val → t.trigs.get k = s.trigs.get k ∧ t.sports.get k = s.sports.get k)
      ∧ t = { s with trigs := t.trigs, sports := t.sports })
  ∧ (∀ (n : Fin 8) (k : KpChan) (s : State), s.portOwned n = true → k = (if n.val = 6 then s.kp.a else s.kp.b) → s.kp.vkp = true →
    (s.trigs.get n).fired + 400 * k.tKs ≤ s.now → (s.trigs.get n).high = false →
    ∃ t, exec (.triggerFiring n) s = .next t ∧ (t.trigs.get n).high = true ∧ (t.trigs.get n).fired = s.now
      ∧ t = { s with trigs := t.trigs })
  ∧ (∀ (n : Fin 8) (s : State), (s.trigs.get n).high = true → (s.trigs.get n).lowAt ≤ s.now →
    ∃ t, exec (.convstEnd n) s = .next t ∧ (t.trigs.get n).high = false ∧ t = { s with trigs := t.trigs })
  ∧ (∀ (n : Fin 8) (x : Nat) (s : State), (s.sports.get n).frame = some x → (s.sports.get n).clocking = false →
    x + s.fld (0x304000 + 0x10 * n) 20 10 ≤ s.now →
    ∃ t, exec (.samplePortClockStart n) s = .next t ∧ (t.sports.get n).clocking = true ∧ (t.sports.get n).frame = some x
      ∧ t = { s with sports := t.sports })
  ∧ (∀ (n : Fin 8) (ws : List (BitVec 24)) (x : Nat) (s : State), (s.sports.get n).frame = some x → (s.sports.get n).clocking = true →
    x + s.fld (0x304000 + 0x10 * n) 20 10 + (s.fld (0x304000 + 0x10 * n) 1 2 + 1) * s.fld (0x304000 + 0x10 * n) 3 5
      * bitTicks (s.fld (0x304000 + 0x10 * n) 8 2) ≤ s.now →
    ∃ t, exec (.samplePortFrame n ws) s = .next t ∧ (t.sports.get n).frame = none
      ∧ (s.portOwned n = true → t = { s with sports := t.sports })
      ∧ (s.portOwned n = false → ∀ e < 9, ∀ g c ch y, (s.eng e).graph = some g → c < 64 → g.chans[c]? = some y → y.kind = 1 → y.src = 1 →
          y.index.toNat = 8 * n.val + ch → ch < min (s.fld (0x304000 + 0x10 * n) 1 2 + 1) ws.length →
          ((t.eng e).mbox.get c).value = (portWord c y (portCode (s.fld (0x304000 + 0x10 * n) 3 5) (s.fld (0x304000 + 0x10 * n) 10 1)
            (ws.getD ch 0)) (s.fld (0x304000 + 0x10 * n) 3 5)).1
          ∧ ((t.eng e).mbox.get c).tick = x ∧ ((t.eng e).mbox.get c).got = true)
      ∧ t = { s with sports := t.sports, engs := t.engs, regs := t.regs, hotAt := t.hotAt, hot := t.hot })
  ∧ (∀ (i : Fin 8) (rising : Bool) (held : Byte) (s : State), s.alive = true → s.time.tsPins.getLsbD i ≠ rising →
    (held.toNat < 2 → exec (.timestampCapture i ⟨rising, held⟩) s = .next s)
    ∧ (2 ≤ held.toNat →
      ∃ t, exec (.timestampCapture i ⟨rising, held⟩) s = .next t ∧ t.time.tsPins.getLsbD i = rising
        ∧ (s.fld 0x302000 (2 * i) 2 = 3 → s.captureRoom (s.fld 0x302000 16 4) 24 = true →
            t.out = s.out ++ s.slotWrites (20 + s.fld 0x302000 16 4) (captureImage 0x04 ([BitVec.ofNat 8 i, if rising then 1 else 2, 0, 0]
              ++ leBytes 8 s.tick.toNat ++ dtBytes s.time.dt) s.tick.toNat))
        ∧ (s.fld 0x302000 (2 * i) 2 = 0 → t = { s with time := { s.time with tsPins := t.time.tsPins } })))

/-- R311 to R320: a frame of another EtherType, with two tags or to another multicast address changes nothing; an announced grandmaster is selected;
Sync and Follow_Up give the offset, the exchanges the delay, and in LOCKED an offset below 1 µs moves the frequency by its gain; without a master or
a sample the servo holds over.  (Complete with their own effect: `sync`, `followUp`, `delayResp`, `pdelayReq`, `pdelayResp`, `announce`,
`delayReqSend`, `announceTimeout`, `syncTimeout`.) -/
def Obligations.ServoFollowsTheGrandmaster : Prop :=
  (∀ (port : Fin 2) (m : PtpMsg) (d : Nat) (s : State), s.ptpOn port = true → s.ptpTaken m.eth m.dst ptpMac m.domain = true →
    s.fromMaster port m.clock = true → -7 ≤ m.logInterval → m.logInterval ≤ 1 → m.twoStep = false → s.time.delayAt = some d →
      s.now ≤ d + 4 * 400000000 →
    s.time.servo = .locked →
    (s.rxStamp port m.sub - m.stamp - m.correction - s.time.delay).natAbs < 1000 * 2 ^ 16 →
    ∃ t, exec (.sync port m) s = .next t ∧ t.time.theta = s.rxStamp port m.sub - m.stamp - m.correction - s.time.delay
      ∧ t.time.servo = .locked ∧ t.time.lastT2 = some (s.rxStamp port m.sub) ∧ t.time.lastSample = some s.now ∧ t.time.dt = s.time.dt
      ∧ t.time.prev = none
      ∧ (∀ x, s.time.lastT2 = some x → x < s.rxStamp port m.sub →
          t.time.freq = rateClamp ((Ex.ofInt s.time.freq).add (gain t.time.theta (s.fld 0x300004 8 4) (s.rxStamp port m.sub - x))) 200)
      ∧ t = { s with time := t.time })
  ∧ (∀ (port : Fin 2) (m : PtpMsg) (s : State), s.ptpOn port = true → s.ptpTaken m.eth m.dst ptpMac m.domain = true →
      s.fromMaster port m.clock = true →
    -7 ≤ m.logInterval → m.logInterval ≤ 1 → m.twoStep = true →
    exec (.sync port m) s = .next { s with time := { s.time with
      syncInterval := m.logInterval, sync := some (port.val, m, s.rxStamp port m.sub, s.now) } })
  ∧ (∀ (port : Fin 2) (m : PtpMsg) (s : State), (frameTaken m.eth 0x88F7 = false ∨ (m.dst ≠ ptpMac ∧ m.dst ≠ peerMac)) →
    ∀ i ∈ [Instr.sync port m, .followUp port m, .delayResp port m, .pdelayReq port m, .pdelayResp port m], exec i s = .next s)
  ∧ (∀ (port : Fin 2) (m y : PtpMsg) (t2 : Int) (a : Nat) (s : State), s.ptpOn port = true → s.ptpTaken m.eth m.dst ptpMac m.domain = true →
    s.time.sync = some (port.val, y, t2, a) → y.seq = m.seq → y.clock = m.clock → s.now ≤ a + 400000000 → s.fromMaster port m.clock = true →
    ∃ t, exec (.followUp port m) s = .next t ∧ t.time.sync = none
      ∧ t.time.lastSync = some (t2 - m.stamp - (y.correction + m.correction))
      ∧ (s.time.delayAt = none → t = { s with time := { s.time with sync := none, lastSync := t.time.lastSync } }))
  ∧ (∀ (port : Fin 2) (m : PtpMsg) (t3 x : Int) (s : State), s.ptpOn port = true → s.p2p = false → s.ptpTaken m.eth m.dst ptpMac m.domain = true →
    s.fromMaster port m.clock = true → s.time.e2eT3 = some (m.seq, t3) → s.time.lastSync = some x →
    ∃ t, exec (.delayResp port m) s = .next t ∧ t.time.e2eT3 = none ∧ t.time.minReq = m.logInterval ∧ t.time.delayAt = some s.now
      ∧ t.time.delay = (if s.time.delayFirst = true then (x + (m.stamp - t3 - m.correction)) / 2
          else s.time.delay + (x + (m.stamp - t3 - m.correction) - 2 * s.time.delay) / 2 ^ (s.fld 0x300000 20 3 + 1))
      ∧ t = { s with time := t.time })
  ∧ (∀ (port : Fin 2) (m : PtpMsg) (t1 : Int) (s : State), s.ptpOn port = true → s.p2p = true → s.ptpTaken m.eth m.dst peerMac m.domain = true →
    s.time.pd.get port = some (m.seq, t1) → s.time.port = port →
    ∃ t, exec (.pdelayResp port m) s = .next t ∧ t.time.pd.get port = none ∧ t.time.delayAt = some s.now
      ∧ (s.time.delayFirst = true → t.time.delay = (s.rxStamp port m.sub - t1 - m.stamp - m.correction) / 2)
      ∧ t = { s with time := t.time })
  ∧ (∀ (port : Fin 2) (m : PtpMsg) (s : State), s.ptpOn port = true → s.p2p = true → s.ptpTaken m.eth m.dst peerMac m.domain = true →
    exec (.pdelayReq port m) s = .next { s with out := s.out ++
      (if s.fld 0x300000 4 1 = 1 then [.ptp port peerMac .pdelayResp m.seq [m.correction + (s.txStamp port - s.rxStamp port m.sub)]]
      else [.ptp port peerMac .pdelayResp m.seq [s.rxStamp port m.sub],
        .ptp port peerMac .pdelayRespFollowUp m.seq [s.txStamp port, m.correction]]) })
  ∧ (∀ (port : Fin 2) (s : State), s.ptpOn port = true → s.reqDue port ≤ s.now →
    (s.p2p = true ∨ (s.time.gmValid = true ∧ s.time.port = port)) →
    ∃ t, exec (.delayReqSend port) s = .next t ∧ t.time.reqSeq = s.time.reqSeq + 1 ∧ t.time.sentAt.get port = some s.now
      ∧ s.now + 400000000 ≤ t.reqDue port ∧ (s.p2p = false → s.now + logTicks s.time.minReq ≤ t.reqDue port)
      ∧ t.out = s.out ++ [if s.p2p = true then .ptp port peerMac .pdelayReq s.time.reqSeq [] else .ptp port ptpMac .delayReq s.time.reqSeq []]
      ∧ (s.p2p = true → t.time.pd.get port = some (s.time.reqSeq, s.txStamp port))
      ∧ (s.p2p = false → t.time.e2eT3 = some (s.time.reqSeq, s.txStamp port)) ∧ t = { s with time := t.time, out := t.out })
  ∧ (∀ (port : Fin 2) (m : AnnounceMsg) (s : State), s.ptpOn port = true → s.ptpTaken m.eth m.dst ptpMac m.domain = true → s.liveMasters 0 = [] →
    s.liveMasters 1 = [] → 0 < s.annTicks m →
    ∃ t, exec (.announce port m) s = .next t ∧ t.time.gmValid = true ∧ t.time.gm = m.gm ∧ t.time.masterId = m.sender ∧ t.time.port = port
      ∧ t.time.utc = m.utc
      ∧ t.time.utcValid = true ∧ t = { s with time := t.time })
  ∧ (∀ (m : Master) (s : State), s.master = some m → s.alive = true → s.time.gmValid = true →
    m.at_ + s.annTicks m.msg ≤ s.now → s.bestPort = none → s.time.servo = .locked →
    ∃ t, exec .announceTimeout s = .next t ∧ t.time.gmValid = false ∧ t.time.servo = .holdover ∧ t.time.holdSince = s.now
      ∧ t.time.rate = appliedRate (Ex.ofInt s.time.freq))
  ∧ (∀ (a : Nat) (s : State), s.time.lastSample = some a → s.alive = true → a + 4 * logTicks s.time.syncInterval ≤ s.now →
    s.time.servo = .locked ∨ s.time.servo = .slew →
    ∃ t, exec .syncTimeout s = .next t ∧ t.time.servo = .holdover ∧ t.time.holdSince = s.now ∧ t.time.delayFirst = true
      ∧ t.time.rate = appliedRate (Ex.ofInt s.time.freq) ∧ RaiseFrame { s with time := t.time } t)

/-- R334 to R337: the first ASDU that meets every condition of one stream is accepted and its valid values enter the mailboxes; one of another
configuration revision sets the stream's flag; LOSTTO without one loses the stream.  (Complete with their own effect: `asdu`, `svLost`.) -/
def Obligations.SampledValuesReachTheirStream : Prop :=
  (∀ (port : Fin 2) (a : AsduMsg) (st : Fin 32) (s : State), s.alive = true → frameTaken a.eth 0x88BA = true → s.svMatches port st a = true →
    (∀ k < 32, k ≠ st.val → s.svMatches port k a = false) → (s.svs.get st).retired = false →
    ∃ t, exec (.asdu port a) s = .next t
      ∧ (a.confRev = s.reg (0x303010 + 0x20 * st) → (s.svs.get st).last = none →
          (t.svs.get st).last = some a.smpCnt ∧ (t.svs.get st).active = true ∧ (t.svs.get st).lost = false
          ∧ (t.svs.get st).lastAt = s.now
          ∧ (∀ e < 9, ∀ g c i y v q, (s.eng e).graph = some g → c < 64 → g.chans[c]? = some y → y.kind = 1 → y.src = 2 →
              y.index.toNat = 16 * st.val + i → i < s.fld (0x303000 + 0x20 * st) 8 5 → i < 16 → a.values[i]? = some (v, q) →
              s.svInvalid st q = false → ((t.eng e).mbox.get c).value = (sampledWord c y v.toInt).1
              ∧ ((t.eng e).mbox.get c).got = true))
      ∧ (a.confRev ≠ s.reg (0x303010 + 0x20 * st) → t = s.flag (0x30301C + 0x20 * st) 2)
      ∧ (∀ k, k ≠ st.val → t.svs.get k = s.svs.get k))
  ∧ (∀ (port : Fin 2) (a : AsduMsg) (s : State), frameTaken a.eth 0x88BA = false → exec (.asdu port a) s = .next s)
  ∧ (∀ (st : Fin 32) (s : State), s.alive = true → s.fld (0x303000 + 0x20 * st) 0 1 = 1 → (s.svs.get st).lost = false →
    (s.svs.get st).retired = false → (s.svs.get st).lastAt + s.fld (0x303014 + 0x20 * st) 24 8 * 400000 ≤ s.now →
    ∃ t u, exec (.svLost st) s = .next t ∧ RaiseFrame u t ∧ (u.svs.get st).lost = true ∧ (u.svs.get st).active = false
      ∧ u = { s with svs := u.svs })

/-! ## Faults (chapter 12) -/

/-- R380, R381, R391, R398: a fault that no window covers asserts FAULT_N when its class does, a FENCE or LOCKOUT fences every octad concerned that
is configured, a LOCKOUT locks the device out; a covered one is recorded and has no reaction. -/
def Obligations.RaisedFaultReactsUnlessCovered : Prop :=
  ∀ (code src : Nat) (data : List Byte) (s : State),
    RaiseFrame s (s.raise code src data)
    ∧ (s.nextReport.coveredBy code src (s.faultParams code).1 false = none →
        ((s.faultParams code).2.1 = true → (s.raise code src data).flt.faultN = true)
        ∧ (3 ≤ (s.faultParams code).1.code → ∀ n < 8, (s.oct n).state ≠ .unconfigured →
            (s.fenceMask code src (s.faultParams code).1 (s.faultParams code).2.2.2) / 2 ^ n % 2 = 1 →
            ((s.raise code src data).oct n).state = .fenced)
        ∧ ((s.faultParams code).1 = .lockout → (s.raise code src data).sys.dev = .lockout))
    ∧ (∀ w, s.nextReport.coveredBy code src (s.faultParams code).1 false = some w →
        s.raise code src data = { s with flt := (s.raise code src data).flt, regs := (s.raise code src data).regs }
        ∧ (s.raise code src data).flt.table = s.flt.table ∧ (s.raise code src data).flt.faultN = s.flt.faultN)

/-- R374, R390, R396, R399, R404: the collector numbers the head of a level; a window closes with nothing more when nothing in it lasts; a release
takes effect at the end of the hold; a stalled or faulty collector hands over to the fall-back, whose record is copied under the next number, its
copies in the Kingpost domain; a condition that outlasts its window is raised anew; a double-bit error raises its code with the address, and in
engine memory abandons the sample under way.  (Complete with their own effect: `faultReport`, `consWindowClose`, `faultNHoldEnd`, `fltStall`,
`fltSelf`, `fallbackRecordCopy`, `doubleBitError`.) -/
def Obligations.CollectorCommandsAct : Prop :=
  (∀ (l : Fin 4) (r : Report) (rest : List Report) (s : State), s.flt.fallback = false → s.alive = true →
    (s.clk.started = true → s.flt.takenAt ≠ some s.tick) → s.flt.queues.get l = r :: rest → (∀ k < 4, k ≠ l.val → s.flt.queues.get k = []) →
      (∀ k < 4, s.flt.dropped.get k = 0) → s.flt.causeWaits r = false → s.bel.lostSince = 0 →
    ∃ t, exec .faultReport s = .next t ∧ t.flt.seq = nextSeq s.flt.seq ∧ t.flt.queues.get l = rest
      ∧ (∀ a ∈ s.flt.table, a.id = r.id → { a with seq := nextSeq s.flt.seq } ∈ t.flt.table)
      ∧ (∀ a ∈ s.flt.table, a.id ≠ r.id → a ∈ t.flt.table) ∧ t.flt.takenAt = some s.tick
      ∧ t = { s with flt := t.flt, bel := t.bel, rings := t.rings, out := t.out, regs := t.regs, epl := t.epl })
  ∧ (∀ s : State, (∀ w ∈ s.flt.windows, ∀ h ∈ w.hits, s.conditionPresent h.1.toNat h.2.1.toNat = false) →
    ∃ t, exec .consWindowClose s = .next t ∧ t = { s with flt := { s.flt with windows := t.flt.windows } }
      ∧ (∀ w, w ∈ t.flt.windows ↔ w ∈ s.flt.windows ∧ ∀ x, w.closeAt = some x → s.now ≤ x))
  ∧ (∀ (w : Window) (x : Nat) (h : BitVec 16 × BitVec 16 × List Byte) (u s : State), s.flt.windows = [w] → w.closeAt = some x → x < s.now →
    w.hits = [h] → s.conditionPresent h.1.toNat h.2.1.toNat = true → u = { s with flt := { s.flt with windows := [] } } →
    ∃ t, exec .consWindowClose s = .next t ∧ s.flt.nextId < t.flt.nextId
      ∧ (h.1.toNat ≠ 0x2503 → h.1.toNat ≠ 0x3306 → RaiseFrame u t)
      ∧ (h.1.toNat = 0x2503 → (t.cell h.2.1.toNat).occ = [s.now] ∧ (t.cell h.2.1.toNat).persist = 0))
  ∧ (∀ s : State, s.flt.faultN = true → s.flt.released = true → s.flt.holdUntil ≤ s.now →
    exec .faultNHoldEnd s = .next { s with flt := { s.flt with faultN := false, released := false } })
  ∧ (∀ s : State, s.alive = true → s.flt.fallback = false →
    ∃ t r, exec .fltSelf s = .next t ∧ t.flt.fallback = true ∧ t.kp.fallRec = some r ∧ r.code = 0x3101 ∧ r.src = 0
      ∧ t.kp.fallDirty = true)
  ∧ (∀ (l : Fin 4) (q : Report) (rest : List Report) (s : State), s.flt.queues.get l = q :: rest → s.flt.fallback = false →
    s.alive = true → q.tick.toNat + 4000 ≤ s.now →
    ∃ t r, exec (.fltStall l) s = .next t ∧ t.kp.fallRec = some r ∧ r.code = 0x3102 ∧ r.src = BitVec.ofNat 16 (l + 1)
      ∧ t.kp.fallDirty = true)
  ∧ (∀ (r : Record) (s : State), s.kp.fallRec = some r → s.kp.fallDirty = true → s.flt.fallback = true → s.epl.defer = false →
    ∃ t, exec .fallbackRecordCopy s = .next t ∧ t.flt.seq = nextSeq s.flt.seq ∧ t.kp.fallDirty = false
      ∧ (∃ c, t.kp.fallRec = some c ∧ c.seq = nextSeq s.flt.seq ∧ c.code = r.code ∧ c.src = r.src))
  ∧ (∀ (n : Fin 8) (addr : Word) (g : Graph) (s : State), s.alive = true → addr.toNat < (Mem.octad n).size → (s.eng n).graph = some g →
    (s.eng n).running = true →
    ∃ t, exec (.doubleBitError (.octad n) addr) s = .next t ∧ (t.eng n).running = false ∧ (t.eng n).out = (s.eng n).out
      ∧ (t.eng n).state = (s.eng n).state ∧ (t.eng n).ovrRun = if 2 ≤ (s.eng n).ovrRun then 0 else (s.eng n).ovrRun + 1)
  ∧ (∀ (m : Mem) (addr : Word) (s : State), m.size ≤ addr.toNat → exec (.doubleBitError m addr) s = .next s)
  ∧ (∀ (addr : Word) (s : State), s.alive = true →
    (∀ k : Fin 64, addr.toNat < (Mem.tile k).size →
      exec (.doubleBitError (.tile k) addr) s = .next (s.raise 0x1101 k (leBytes 4 addr.toNat))
      ∧ RaiseFrame s (s.raise 0x1101 k (leBytes 4 addr.toNat)))
    ∧ (∀ n : Fin 8, addr.toNat < (Mem.octad n).size →
      ∃ u, exec (.doubleBitError (.octad n) addr) s = .next (u.raise 0x2101 n (leBytes 4 addr.toNat))
      ∧ ((s.eng n).running = false → u = s))
    ∧ (addr.toNat < Mem.device.size → ∃ u, exec (.doubleBitError .device addr) s = .next (u.raise 0x3105 0 (leBytes 4 addr.toNat))
      ∧ ((s.eng 8).running = false → u = s))
    ∧ (∀ code, code = 0x1101 ∨ code = 0x2101 →
        (s.faultParams code).1 = (match s.mapEntry code with | some (c, _, _) => c | none => .fence))
    ∧ (s.faultParams 0x3105).1 = .lockout)

/-! ## Clocks (chapter 15) -/

/-- R466 to R474, R48: in an idle interval a hop moves the core logic onto the bypass oscillator and its PLL to the point; a search hop searches a
point without a band; lock starts the settling wait, and the first lock of the time PLL the tick count; after 2 µs the hop is complete; a search
that ends stores its band, and the third in a row without one has failed; a relock without lock goes on with a full search.  (Complete with their
own effect: `hop`, `searchHop`, `lockDeclared`, `settlingWaitEnd`, `bandSearchComplete`, `relockTimeout`.) -/
def Obligations.PllsHopSearchAndLock : Prop :=
  (∀ (p : Fin 8) (s : State), s.epl.wantPoint = some p.val → s.mayLeave = true → p.val ≠ s.clk.point →
    s.hopEn p = true → s.bandValid p = true → s.pointValid p = true → s.sameFreq p s.clk.point = false → s.pointOk p = true →
    s.sampling = false → s.idleFor 2840 = true → s.clk.bypassCore = none →
    exec (.hop p) s = .next { s with clk := { s.clk with
      hopTo := some p.val, inHop := true, bypassCore := some s.now, since := s.now,
      was := ((s.clk.since, s.corePeriod) :: s.clk.was).take 16, core := { s.clk.core with state := .hop, since := s.now, fails := 0 } } })
  ∧ (∀ (p : Fin 8) (s : State), s.mayLeave = true → s.hopEn p = true → s.bandValid p = false → s.pointValid p = true →
    ((∀ e < 9, (s.eng e).loaded = none) ∨ (s.sampling = false ∧ s.idleFor 27200 = true)) → s.clk.bypassCore = none →
    exec (.searchHop p) s = .next { s with clk := { s.clk with
      searching := some p.val, inHop := true, bypassCore := some s.now, since := s.now,
      was := ((s.clk.since, s.corePeriod) :: s.clk.was).take 16,
      core := { s.clk.core with state := .search, since := s.now, fails := 0, stored := false } } })
  ∧ (∀ (p : Pll) (s : State), s.pllLive p = true →
    (((s.pll p).state = .search ∧ (s.pll p).stored = true) ∨ (s.pll p).state = .relock ∨ (s.pll p).state = .hop) →
    (s.pll p).inTime s.now = true → s.refWait p 64 ≤ s.now →
    ∃ t, exec (.lockDeclared p) s = .next t
      ∧ ((p = .core → s.clk.bootPoints.length ≤ 1) → (t.pll p).state = .settling ∧ (t.pll p).since = s.now)
      ∧ (∀ a b r, p = .core → s.clk.bootPoints = a :: b :: r →
          t.clk.bootPoints = b :: r ∧ t.clk.core.state = .search ∧ t.clk.core.since = s.now)
      ∧ (p = .time → t.clk.started = true) ∧ t = { s with clk := t.clk })
  ∧ (∀ (s : State), s.clk.core.state = .settling → s.clk.core.since + 800 ≤ s.now → s.clk.held = none →
    s.clk.bootPoints = [] →
    ∃ t, exec (.settlingWaitEnd .core) s = .next t ∧ t.clk.core.state = .locked ∧ t.clk.bypassCore = none ∧ t.clk.hopTo = none
      ∧ t.clk.inHop = false ∧ t.clk.point = s.clk.hopTo.getD s.clk.point ∧ t = { s with clk := t.clk, epl := t.epl, regs := t.regs })
  ∧ (∀ (b : Nat) (s : State), s.clk.core.state = .settling → s.clk.core.since + 800 ≤ s.now → s.clk.held = none → s.clk.hopTo = none →
    s.clk.bootPoints = [b] → s.inLockStep = true →
    ∃ t, exec (.settlingWaitEnd .core) s = .next t ∧ t.clk.core.state = .locked ∧ t.clk.bypassCore = none ∧ t.clk.point = b
      ∧ t.clk.bootPoints = [] ∧ t.sys.dev = .idle)
  ∧ (∀ (s : State), s.clk.time.state = .settling → s.clk.time.since + 800 ≤ s.now →
    ∃ t, exec (.settlingWaitEnd .time) s = .next t ∧ t.clk.time.state = .locked ∧ t.clk.bypassTime = none
      ∧ t.clk.rhoAt = s.now)
  ∧ (∀ (q : Fin 32) (s : State), (s.clk.quads.get q).state = .settling → (s.clk.quads.get q).since + 800 ≤ s.now →
    ∃ t, exec (.settlingWaitEnd (.quad q)) s = .next t ∧ (t.clk.quads.get q).state = .locked
      ∧ (∀ i < 4, (s.lane (4 * q + i)).state = .off → s.fld (laneBase (4 * q + i)) 0 1 = 1 → s.laneUsable (4 * q + i) = true →
          (s.oct ((4 * q + i) / 16)).state ≠ .unconfigured → (t.lane (4 * q + i)).state = .hunt))
  ∧ (∀ (p : Pll) (b : BitVec 5) (s : State), s.pllLive p = true → (s.pll p).state = .search → (p = .core → s.clk.searching = none) →
    s.refWait p 1280 ≤ s.now →
    ∃ t, exec (.bandSearchComplete p (some b)) s = .next t ∧ (t.pll p).stored = true ∧ (t.pll p).fails = 0
      ∧ (t.pll p).state = .search)
  ∧ (∀ (p : Pll) (s : State), s.pllLive p = true → (s.pll p).state = .search → s.refWait p 1280 ≤ s.now →
    (p = .core → s.clk.bootPoints.length ≤ 1) →
    ∃ t, exec (.bandSearchComplete p none) s = .next t ∧ (t.pll p).fails = (s.pll p).fails + 1
      ∧ ((s.pll p).fails < 2 → (t.pll p).state = .search) ∧ (2 ≤ (s.pll p).fails → (t.pll p).state = .failed)
      ∧ (2 ≤ (s.pll p).fails → p = .time → s.sys.dev = .boot → t.sys.hold = true ∧ t.sys.dev = .boot ∧
          (s.flt.fallback = true ∨ s.faultParams 0x3606 = (.lockout, true, true, 0) → t.flt.faultN = true)))
  ∧ (∀ (p : Pll) (s : State), (s.pll p).state = .relock ∨ (s.pll p).state = .hop → (s.pll p).since + 2000 ≤ s.now →
    ∃ t, exec (.relockTimeout p) s = .next t ∧ (t.pll p).state = .search ∧ (t.pll p).stored = false ∧ (t.pll p).fails = 0)

/-- R465: the core clock at a hop point is 25 MHz × (N + F/2^24) / P, so that a core cycle lasts 400 MHz over it in ticks; a point is valid when its
ratio, its divider and its frequency in MHz lie where the rule says. -/
def Obligations.HopPointsRunAtTheirFrequency : Prop :=
  ∀ (p : Nat) (m f : Rat) (s : State), p < 8 → m = s.hopN p + s.hopF p / 2 ^ 24 → f = 25 * m / s.hopP p →
    (s.pointValid p = true ↔ 128 ≤ m ∧ m ≤ 160 ∧ s.hopP p % 2 = 0 ∧ 8 ≤ s.hopP p ∧ s.hopP p ≤ 40
      ∧ (f = 100 ∨ 104 ≤ f ∧ f ≤ 400))
    ∧ (s.clk.bypassCore = none → s.clk.point = p → 0 < m → (s.corePeriod.1 : Rat) / s.corePeriod.2 = 400 / f)

/-- R475 to R479, R474: a lost reference is left for the other if that is qualified, else the time PLL holds over; a reference is qualified after
its time and chosen; a phase jump relocks the time PLL, or waits for a hop to end; a core PLL that loses lock relocks.  (Complete with their own
effect: `clkCoreUnlock`, `clkRefLoss`, `refQualified`, `clkPhaseJump`.) -/
def Obligations.ReferencesAreLostAndChosen : Prop :=
  (∀ (b : Bool) (s : State), s.alive = true → s.clk.active = some b →
    ∃ t, exec (.clkRefLoss b) s = .next t ∧ (if b then t.clk.lostB else t.clk.lostA) = true ∧ t.qualified b = false
      ∧ t.clk.refSince.get (bit b) = s.now
      ∧ (s.qualified (!b) = true → t.clk.active = some (!b))
      ∧ (s.qualified (!b) = false → t.clk.active = none
          ∧ t.clk.time.state = (if s.clk.started = true then .holdover else .search)))
  ∧ (∀ (b : Bool) (s : State), s.alive = true → s.clk.active ≠ some b →
    ∃ t, exec (.clkRefLoss b) s = .next t ∧ (if b then t.clk.lostB else t.clk.lostA) = true ∧ t.clk.active = s.clk.active
      ∧ t.qualified (!b) = s.qualified (!b) ∧ RaiseFrame { s with clk := t.clk } t)
  ∧ (∀ (b : Bool) (s : State), s.alive = true → s.qualified b = false → s.clk.active = none → s.qualified (!b) = false →
    (s.clk.refSince.get (bit b) = 0 ∨ s.clk.refSince.get (bit b) + 400000 * s.fld 0x400000 2 10 ≤ s.now) →
    ∃ t, exec (.refQualified b) s = .next t ∧ t.qualified b = true ∧ t.clk.active = some b)
  ∧ (∀ s : State, s.clk.time.state = .locked ∨ s.clk.time.state = .settling → s.clk.started = true →
    ∃ t, exec .clkPhaseJump s = .next t
      ∧ (s.clk.inHop = false → s.clk.rho = 0 → t.clk.rhoAt = s.now ∧ 64527754 ≤ t.clk.rho.toNat ∧ t.clk.rho.toNat ≤ 69905066)
      ∧ (s.clk.inHop = false → t.clk.time.state = .relock ∧ t.clk.bypassTime = some s.now)
      ∧ (s.clk.inHop = true → t.clk.time.state = .holdover ∧ t.clk.held = some s.clk.active))
  ∧ (∀ s : State, s.clk.core.state = .locked ∨ s.clk.core.state = .settling →
    ∃ t, exec .clkCoreUnlock s = .next t ∧ t.clk.bypassCore = (if s.clk.bypassCore.isSome then s.clk.bypassCore else some s.now)
      ∧ (s.clk.inHop = false → t.clk.core.state = (if s.bandValid s.corePoint = true then .relock else .search)
          ∧ RaiseFrame { s with clk := t.clk } t)
      ∧ (s.clk.inHop = true → t.clk.core.state = (if s.clk.hopTo.isSome then .hop else .relock) ∧ t = { s with clk := t.clk }))

/-! ## Belfry (chapter 17) -/

/-- R511, R512, R515, R517, R519, R521, R522, R523: the head of the staging queue is written to its place, behind a torn slot for a failed
verification; a due note goes to its slot with its CRC, and the sector after a new one is erased ahead; an erase that verifies readies the ring
sector, into which a writer that waits goes on, or lets the copy of a partition be written with its header; an erase that fails three times takes a
spare; the counts are entered every 360 s; 500 ms after it took effect a freeze ends.  (Complete with their own effect: `recordWrite`, `noteWrite`,
`sectorErase`, `countEntry`, `belThaw`.) -/
def Obligations.BelfryWritesNotesAndCounts : Prop :=
  (∀ (r : Record) (rest : List Record) (s : State), s.bel.staging = r :: rest → s.canWrite = true → s.bel.lostSince = 0 →
    s.epl.defer = false ∨ s.bel.flush = true → s.bel.ringSlot < 127 →
    (s.bel.sill.length < 16 * 128 →
      ∃ t, exec (.recordWrite 0) s = .next t ∧ t.bel.staging = rest ∧ t.bel.sill = s.bel.sill ++ [.record r] ∧ t.bel.ring = s.bel.ring
        ∧ t.bel.lastSeq = r.seq ∧ t.epl.live.get 15 = s.epl.live.get 15 + 8 ∧ t = { s with bel := t.bel, epl := t.epl })
    ∧ (s.bel.sill.length + 1 < 16 * 128 → (s.faultParams 0x3801).1.code < 2 →
      ∃ t, exec (.recordWrite 1) s = .next t ∧ t.bel.staging = rest ∧ t.bel.sill = s.bel.sill ++ [.torn, .record r]
        ∧ RaiseFrame { s with bel := t.bel, epl := t.epl } t)
    ∧ (16 * 128 ≤ s.bel.sill.length →
      ∃ t, exec (.recordWrite 0) s = .next t ∧ t.bel.staging = rest ∧ t.bel.sill = s.bel.sill ∧ t.bel.ring = s.bel.ring ++ [.record r]
        ∧ t.bel.ringSlot = s.bel.ringSlot + 1 ∧ t.bel.lastSeq = r.seq ∧ t = { s with bel := t.bel, epl := t.epl }))
  ∧ (∀ (n : Note) (s : State), (s.bel.noteDue.find? fun m => m.seq == n.seq) = some n → s.canNote = true → s.epl.defer = false →
    (s.bel.newest.map (·.seq) ≠ some n.seq ∨ s.bel.noteAt.get n.seq.toNat = 0 ∨ s.bel.noteAt.get n.seq.toNat + 400000000 ≤ s.now) →
    ∃ t, exec (.noteWrite n.seq 0) s = .next t ∧ t = { s with bel := t.bel, epl := t.epl }
      ∧ ((s.bel.noteSlot + 1) % 341 ≠ 0 →
          t.bel = { s.bel with
            notes := s.bel.notes.set (s.bel.noteSlot % 5456) (noteBytes n), noteSlot := s.bel.noteSlot + 1,
            noteDue := s.bel.noteDue.filter fun m => m.seq != n.seq, noteAt := s.bel.noteAt.set n.seq.toNat s.now })
      ∧ ((s.bel.noteSlot + 1) % 341 = 0 → 15 * 341 ≤ s.bel.noteSlot + 1 →
          t.bel.noteErase = some (108 + ((s.bel.noteSlot + 1) / 341 + 1) % 16)))
  ∧ (∀ (k : Fin 512) (s : State), s.bel.erases k = true → s.eraseWaits k = false → s.bel.freezing = false →
    (s.bel.ringSlot < 128 → s.bel.writes = [] →
      ∃ t, exec (.sectorErase k 0) s = .next t ∧ t.bel.erases k = false
        ∧ (k.val = 90 + (s.bel.ringSector + 1) % 18 → t.bel.ringReady = true) ∧ t = { s with bel := t.bel })
    ∧ (128 ≤ s.bel.ringSlot → k.val = 90 + (s.bel.ringSector + 1) % 18 → s.bel.writes = [] →
      ∃ t, exec (.sectorErase k 0) s = .next t ∧ t.bel.ringSector = (s.bel.ringSector + 1) % 18 ∧ t.bel.ringSlot = 0
        ∧ t.bel.erasing = some (90 + (t.bel.ringSector + 1) % 18) ∧ t = { s with bel := t.bel })
    ∧ (∀ w, s.bel.writes = [w] → w.todo = [k.val] → w.part = .usemap ∨ w.part = .c0 ∨ w.part = .csave ∨ w.part = .spmap →
      ∃ t, exec (.sectorErase k 0) s = .next t ∧ t.bel.writes = []
        ∧ t.bel.copies.get (2 * w.part.num + bit w.second) = { header := copyHeader w.gen (s.partBytes w), content := s.partBytes w })
    ∧ (74 ≤ k.val → k.val < 124 → s.bel.bspares < 4 → (s.faultParams 0x3801).1.code < 2 → s.bel.writes = [] →
      ∃ t, exec (.sectorErase k 3) s = .next t ∧ t.bel.bspares = s.bel.bspares + 1
        ∧ t.bel.spmap = s.bel.spmap ++ [(s.phys k, 124 + s.bel.bspares)]))
  ∧ (∀ s : State, s.bel.countAt + 360 * 400000000 ≤ s.now → s.nvmHeld = false → s.alive = true → s.epl.defer = false →
    s.bel.countOpen = true →
    ∃ t, exec .countEntry s = .next t ∧ t.bel.countAt = s.now
      ∧ t.bel.counts.get (512 * s.bel.countIn + (s.bel.countUsed s.bel.countIn).length)
          = countBytes s.opsecNow s.bel.pcc (s.bel.opsecSat || decide (s.opsecNow = 2 ^ 32 - 1)) s.bel.pccSat
      ∧ t = { s with bel := t.bel, epl := t.epl })
  ∧ (∀ (x : Nat) (s : State), s.bel.frozen = some x → x + 200000000 ≤ s.now → s.bel.staging = [] → s.bel.lostSince = 0 →
    s.bel.ringSlot < 128 →
    exec .belThaw s = .next { s with bel := { s.bel with frozen := none, flush := false, thawAt := some s.now } })
  ∧ (∀ (x : Nat) (s : State), s.bel.thawAt = some x →
    s.tellThaw = ({ s with bel := { s.bel with thawAt := none } }).raise 0x3807 0 [])

/-! ## Kingpost (chapter 13) -/

/-- R411, R414 to R419, R424: a sample filters the channel's own inputs; a handshake brings the other channel's and its count; an evaluation cycle
latches what is in demand and drives loops and outputs by their causes; a lost or bad exchange puts every octad in SBK and stops both channels; a
pair that disagrees for its time is faulty and in demand.  (Complete with their own effect: `kpInputSample`, `kpEvaluationCycle`, `kpHandshake`,
`kpXchTimeout`, `kpInFaulty`.) -/
def Obligations.KingpostEvaluatesItsInputs : Prop :=
  (∀ (ch : KpCh) (sin : BitVec 16) (sfb blk sout : Byte) (s : State), s.kp.vkp = true →
    ∃ t, exec (.kpInputSample ch sin sfb blk sout) s = .next t ∧ (t.ch ch).time = (s.ch ch).time + 1
      ∧ (∀ i < 16, ((t.ch ch).pairs.get i).own = ((s.ch ch).pairs.get i).own.step (sin.getLsbD i) ((s.ch ch).filt i))
      ∧ (∀ n < 8, ((t.ch ch).loops.get n).enabled = ((s.ch ch).loops.get n).enabled
          ∧ (blk.getLsbD n = false → ((s.ch ch).loops.get n).enabled = false → ((t.ch ch).loops.get n).stuck = 0
              ∧ ((t.ch ch).loops.get n).offAt = some ((s.ch ch).time + 1)))
      ∧ (∀ o < 8, ∀ x, ((s.ch ch).outs.get o).dark = some x → ((s.ch ch).outs.get o).darkLow = true →
          (10 * x + (s.ch ch).tpWid o ≤ 10 * (s.ch ch).time + 10 → ((t.ch ch).outs.get o).dark = none
            ∧ ((t.ch ch).outs.get o).high = (s.ch ch).outEn o ∧ ((t.ch ch).outs.get o).darkEnd = 10 * x + (s.ch ch).tpWid o)
          ∧ (10 * (s.ch ch).time + 10 < 10 * x + (s.ch ch).tpWid o → ((t.ch ch).outs.get o).dark = some x
            ∧ ((t.ch ch).outs.get o).high = ((s.ch ch).outs.get o).high))
      ∧ t.ch (kpOther ch) = s.ch (kpOther ch))
  ∧ (∀ (ch : KpCh) (s : State), s.kp.vkp = true →
    ∃ t, exec (.kpEvaluationCycle ch) s = .next t ∧ t.ch (kpOther ch) = s.ch (kpOther ch)
      ∧ (t.ch ch).mainReq = s.sys.sbkReq
      ∧ (∀ n < 8, ((t.ch ch).loops.get n).sbk = ((t.ch ch).loops.get n).causes.any
          ∧ (((s.ch ch).loops.get n).sbk = false → ((t.ch ch).loops.get n).sbk = true → ((t.ch ch).loops.get n).enabled = false)
          ∧ (((s.ch ch).loops.get n).sbk = true → ((t.ch ch).loops.get n).sbk = false → ((t.ch ch).loops.get n).enabled = true))
      ∧ (∀ n < 8, ((t.ch ch).outs.get n).tripAt.isSome = ((t.ch ch).outs.get n).causes.any
          ∧ (((s.ch ch).outs.get n).tripAt = none → ((t.ch ch).outs.get n).causes.any = true → ((t.ch ch).outs.get n).high = false))
      ∧ (∀ i < 16, ∀ n < 8, (s.ch ch).params.isSome = true → (s.ch ch).func i = 1 → bitOf ((s.ch ch).octMask i) n = true →
          (((s.ch ch).pairs.get i).own.level && ((s.ch ch).pairs.get i).other) = false → (∀ j < 16, (s.ch ch).func j ≠ 4) →
          ((t.ch ch).loops.get n).causes.pair = true)
      ∧ (∀ n < 8, s.sys.sbkReq = true → (∀ j < 16, (s.ch ch).func j ≠ 4) → ((t.ch ch).loops.get n).causes.mainReq = true))
  ∧ (∀ (ch : KpCh) (count : BitVec 16) (s : State), s.kp.vkp = true →
    ∃ t, exec (.kpHandshake ch count) s = .next t ∧ (t.ch ch).lastHs = (s.ch ch).time ∧ (t.ch ch).count = count
      ∧ (∀ i < 16, ((t.ch ch).pairs.get i).other = ((s.ch (kpOther ch)).pairs.get i).own.level)
      ∧ (kpHeld (s.ch ch) (s.ch (kpOther ch)) = true → (t.ch ch).newSeen = true)
      ∧ (count = (if ch = .a then 5000 else 8000) → (t.ch ch).badClock = 0 ∧ (t.ch ch).goodSince.isSome = true)
      ∧ (count = 0 → 1 ≤ (s.ch ch).badClock → (t.ch ch).xchFault = true ∧ t.kp.a.running = false ∧ t.kp.b.running = false
          ∧ ∀ n < 8, ((t.ch ch).loops.get n).sbk = true))
  ∧ (∀ (ch : KpCh) (s : State), s.kp.vkp = true → (s.ch ch).lastHs + 30 ≤ (s.ch ch).time →
    ((s.ch ch).xchFault = false ∨ (s.ch ch).goodSince.isSome = true) →
    ∃ t, exec (.kpXchTimeout ch) s = .next t ∧ (t.ch ch).xchFault = true ∧ t.kp.a.running = false ∧ t.kp.b.running = false
      ∧ (∀ n < 8, ((t.ch ch).loops.get n).sbk = true ∧ ((t.ch ch).loops.get n).causes.xch = true))
  ∧ (∀ (ch : KpCh) (i : Fin 16) (x : Nat) (s : State), s.kp.vkp = true → ((s.ch ch).pairs.get i).disagreeAt = some x →
    ((s.ch ch).pairs.get i).faulty = false → x + (s.ch ch).disc i ≤ (s.ch ch).time →
    ∃ t, exec (.kpInFaulty ch i) s = .next t ∧ ((t.ch ch).pairs.get i).faulty = true
      ∧ ((t.ch ch).pairs.get i).demand = decide ((s.ch ch).func i ≠ 0 ∧ (s.ch ch).func i ≠ 4) ∧ t.ch (kpOther ch) = s.ch (kpOther ch)
      ∧ RaiseFrame { s with kp := t.kp } t)

/-- R412, R413, R420 to R431: the first measurement of a safe run-down sets its ramp, two in a row above it end it in SBK; a breaker that does not
open in time trips its backup; a dark pulse drives an output low, and one that never read low trips it; both channels take new parameters together,
at a handshake in which both held them and within 1 ms, or not at all; out of VKP's range every pin is low, in range again Kingpost starts anew; the
main device blocks what Kingpost has blocked.  (Complete with their own effect: `kpSrdMeasurement`, `kpFbTimeout`, `darkPulseStart`, `kpTestFail`,
`kpParamApply`, `kpParamReject`, `vkpOutOfRange`, `kingpostViewAction`, `vkpInRange`.) -/
def Obligations.KingpostDrivesItsOutputs : Prop :=
  (∀ (ch : KpCh) (ws : List (BitVec 24)) (c : Int) (m : Nat) (s : State), s.kp.vkp = true → (s.ch ch).own = true →
    (s.ch ch).portCode ch (some ws) = some c → m = srdMagnitude c ((s.ch ch).width ch) → 0 < m →
    ((s.ch ch).srd.running = false → exec (.kpSrdMeasurement ch (some ws)) s = .next (s.updCh ch fun k => { k with m := m }))
    ∧ ((s.ch ch).srd.running = true → (s.ch ch).srd.e0 = none →
    ∃ t, exec (.kpSrdMeasurement ch (some ws)) s = .next t ∧ (t.ch ch).srd.e0 = some m
      ∧ (t.ch ch).srd.t0 = 1 ∧ (t.ch ch).srd.running = true ∧ (t.ch ch).m = m
      ∧ t.ch (kpOther ch) = s.ch (kpOther ch) ∧ t = { s with kp := t.kp }))
  ∧ (∀ (ch : KpCh) (s : State), s.kp.vkp = true → (s.ch ch).srd.running = true → (s.ch ch).srd.above = true →
    ∃ t, exec (.kpSrdMeasurement ch none) s = .next t ∧ (t.ch ch).srd.running = false ∧ (t.ch ch).srd.ended = true
      ∧ (∀ n < 8, (s.ch ch).srd.octs.getLsbD n = true → ((t.ch ch).loops.get n).causes.srd = true
          ∧ ((t.ch ch).loops.get n).sbk = true))
  ∧ (∀ (ch : KpCh) (o : Fin 8) (x : Nat) (s : State), s.kp.vkp = true → (s.ch ch).outEn o = true →
    ((s.ch ch).outs.get o).tripAt = some x → ((s.ch ch).outs.get o).fbOpen = false → ((s.ch ch).outs.get o).fbTo = false →
    x + (s.ch ch).tFb o ≤ (s.ch ch).time →
    ∃ t, exec (.kpFbTimeout ch o) s = .next t
      ∧ ((s.ch ch).backup o = 15 → ((t.ch ch).outs.get o).fbTo = true)
      ∧ (∀ b < 8, (s.ch ch).backup o = b → ((t.ch ch).outs.get b).causes.backup = true ∧ ((t.ch ch).outs.get b).tripAt.isSome = true))
  ∧ (∀ (ch : KpCh) (o : Fin 8) (s : State), s.kp.vkp = true → (s.ch ch).outEn o = true → ((s.ch ch).outs.get o).high = true →
    ((s.ch ch).outs.get o).causes.any = false → ((s.ch ch).outs.get o).dark = none → ((s.ch ch).outs.get o).darkNext ≤ (s.ch ch).time →
    ∃ t, exec (.darkPulseStart ch o) s = .next t ∧ ((t.ch ch).outs.get o).high = false
      ∧ ((t.ch ch).outs.get o).dark = some (s.ch ch).time ∧ ((t.ch ch).outs.get o).darkNext = (s.ch ch).darkAfter o ((s.ch ch).outs.get o)
      ∧ (∀ m, m ≠ o.val → (t.ch ch).outs.get m = (s.ch ch).outs.get m) ∧ t.ch (kpOther ch) = s.ch (kpOther ch)
      ∧ t = { s with kp := t.kp })
  ∧ (∀ (ch : KpCh) (o : Fin 8) (x : Nat) (s : State), s.kp.vkp = true → ((s.ch ch).outs.get o).dark = some x →
    ((s.ch ch).outs.get o).darkLow = false → 10 * x + (s.ch ch).tpWid o ≤ 10 * (s.ch ch).time →
    ∃ t, exec (.kpTestFail ch o) s = .next t ∧ ((t.ch ch).outs.get o).testFail = true ∧ (t.kp.a.outs.get o).causes.test = true
      ∧ (t.kp.b.outs.get o).causes.test = true ∧ (t.kp.a.outs.get o).tripAt.isSome = true ∧ (t.kp.b.outs.get o).tripAt.isSome = true)
  ∧ (∀ (b : List Byte) (s : State), s.kp.vkp = true → s.kp.a.newParams = some b → s.kp.b.newParams = some b → kpBlockOk b = true →
    s.kp.a.srd.running = false → s.kp.b.srd.running = false → s.kp.a.newSeen = true → s.kp.b.newSeen = true →
    s.kp.a.time < s.kp.deliveredAt + 100 →
    ∃ t, exec .kpParamApply s = .next t ∧ t.kp.a.params = some b ∧ t.kp.b.params = some b ∧ t.kp.a.newParams = none
      ∧ t.kp.b.newParams = none ∧ t.kp.paramOk = true ∧ t.kp.a.pcrc = t.kp.b.pcrc ∧ t = { s with kp := t.kp })
  ∧ (∀ s : State, s.kp.vkp = true → (s.kp.a.newParams.isSome = true ∨ s.kp.b.newParams.isSome = true) → s.kp.a.srd.running = false →
    s.kp.b.srd.running = false → s.kp.deliveredAt + 100 ≤ s.kp.a.time →
    ∃ t, exec .kpParamReject s = .next t ∧ t.kp.a.newParams = none ∧ t.kp.b.newParams = none ∧ t.kp.a.params = s.kp.a.params
      ∧ t.kp.b.params = s.kp.b.params ∧ t.kp.paramOk = false)
  ∧ (∀ s : State, s.kp.deliveredAt + 100 ≤ s.kp.a.time ∨ s.kp.a.newSeen = false ∨ s.kp.b.newSeen = false →
    exec .kpParamApply s = .next s)
  ∧ (∀ s : State, ∃ t, exec .vkpOutOfRange s = .next t ∧ t.kp.vkp = false ∧ t.kp.a.running = false ∧ t.kp.b.running = false
    ∧ (∀ n < 8, (t.kp.a.loops.get n).enabled = false ∧ (t.kp.b.loops.get n).enabled = false ∧ (t.kp.a.outs.get n).high = false
        ∧ (t.kp.b.outs.get n).high = false ∧ (t.kp.a.loops.get n).causes = (s.kp.a.loops.get n).causes
        ∧ (t.kp.b.loops.get n).causes = (s.kp.b.loops.get n).causes ∧ (t.kp.a.outs.get n).causes = (s.kp.a.outs.get n).causes
        ∧ (t.kp.b.outs.get n).causes = (s.kp.b.outs.get n).causes)
    ∧ (∀ n ch, t.loopDisabled n = true ∧ t.loopEnergised ch n = false) ∧ (t.readBar0 0x600000).getLsbD 0 = false
      ∧ (t.readBar0 0x600000).getLsbD 1 = false
    ∧ t = { s with kp := t.kp })
  ∧ (∀ s : State, s.kp.vkp = false → (s.alive && s.ps.image.isSome) = false →
    exec .vkpInRange s = .next { s with kp := { Kingpost.init with vkp := true }, flt := { s.flt with fallback := false } })
  ∧ (∀ s : State, s.alive = true → (s.kp.a.running = true ∨ s.kp.b.running = true) →
    ∃ t, exec .kingpostViewAction s = .next t
      ∧ (∀ n < 8, (s.kp.a.loops.get n).enabled = false → (s.oct n).state.active = true → (t.oct n).state = .blocked)
      ∧ (∀ n < 8, (s.kp.a.loops.get n).enabled = true → (s.kp.b.loops.get n).enabled = true → s.kp.a.srd.running = true →
          s.kp.a.srd.octs.getLsbD n = true → (s.oct n).state = .running → (t.oct n).state = .rundown)
      ∧ (∀ n < 8, (s.kp.a.loops.get n).enabled = true → (s.kp.b.loops.get n).enabled = true → s.kp.a.srd.running = false →
          s.kp.b.srd.running = false → (t.oct n).state = (s.oct n).state)
      ∧ t.kp = s.kp)

/-! ## Energy, sensors, power, BIST, the set and debug (chapters 14, 16, 18) -/

/-- R490, R491, R487: an energy epoch of 1 ms keeps the counts that the device made of its own events, writes its energy, its cell-frames and the
energy of one, and carries budget minus energy over within plus or minus BUCKET; every 1,024 epochs each scale is corrected by measured over
predicted energy (R489).  (Complete with their own effect: `energyEpoch`, `eplCalibration`.) -/
def Obligations.EnergyEpochCarriesItsBudget : Prop :=
  (∀ (counts : List (BitVec 32)) (core sram ser : BitVec 64) (cs : List Nat) (s : State), s.clk.started = true →
    s.epl.epochAt + 400000 ≤ s.now → cs = s.epochCounts (s.now / 400000 * 400000) (counts.map (·.toNat)).sum →
    ∃ t, exec (.energyEpoch counts core sram ser) s = .next t
      ∧ t.epl.carry = clampI (-s.bucketEnergy) s.bucketEnergy (s.epl.carry + s.budgetEnergy
          - ((pj * core.toNat + pj * sram.toNat + pj * ser.toNat + s.groupEnergy cs 3 : Nat) : Int))
      ∧ t.epl.counts = cs ∧ t.epl.epochs = s.epl.epochs + 1 ∧ t.epl.epochAt = s.now / 400000 * 400000
      ∧ (∀ i < 21, i ∉ [4, 6, 7, 8, 9, 10, 11, 12] → cs.getD i 0 = s.epl.live.get i)
      ∧ t.kp.a = s.kp.a ∧ t.kp.b = s.kp.b ∧ t.ps.image = s.ps.image ∧ t.ps.keys = s.ps.keys ∧ t.ps.seq = s.ps.seq
      ∧ t.time = s.time ∧ t.staging = s.staging
      ∧ (∀ x n : Nat, n = s.epl.live.get 5 → t.reg 0x40101C = BitVec.ofNat 32 n ∧ (n = 0 → t.reg 0x401018 = 0xFFFFFFFF)
          ∧ (x = pj * core.toNat + pj * sram.toNat + pj * ser.toNat + s.groupEnergy cs 3 → x < 2 ^ 32 * pj →
              t.reg 0x401010 = BitVec.ofNat 32 (x / (1000 * pj))
              ∧ (n ≠ 0 → t.reg 0x401018 = BitVec.ofNat 32 (x / (n * pj))))))
  ∧ (∀ (s : State) (q : Nat → Nat), s.canonical → 1024 ≤ s.epl.epochs →
    (∀ g < 3, s.epl.predE.get g ≠ 0 ∧ 12288 ≤ q g ∧ q g ≤ 20480
      ∧ rndFrac ((s.scaleOf g : Int) * s.epl.actE.get g) (s.epl.predE.get g) = q g) →
    ∃ t, exec .eplCalibration s = .next t ∧ (∀ g < 3, t.scaleOf g = q g)
      ∧ (∀ a, a ≠ 0x401020 → a ≠ 0x401024 → a ≠ 0x401028 → t.reg a = s.reg a)
      ∧ t = { s with regs := t.regs, epl := { s.epl with epochs := 0, predE := .empty 0, actE := .empty 0 } })

/-- R496 to R504: a demand is set on schedule or by THM_DEMAND, merged into one gate, and its result is a reading: valid in range, invalid
otherwise, measured again where its gate met a bypass interval; a sensor without a valid reading in T_STALE is stale; a THROT condition that
outlasts the grace time enforces the throttle.  (Complete with their own effect: `thmDemand`, `scheduledDemand`, `sensorGateStart`, `sensorResult`,
`stalenessTimeout`, `graceTimeEnd`.) -/
def Obligations.SensorsAreDemandedMeasuredAndJudged : Prop :=
  ((∀ (i : Fin 76) (s : State), s.alive = true → s.sheds 4 = false →
     (s.sensors.get i).schedAt + 400000 * s.fld 0x402000 0 10 ≤ s.now →
     ∃ t, exec (.scheduledDemand i) s = .next t
       ∧ t = { s with sensors := s.sensors.upd i fun x => { x with elective := true, schedAt := s.now } })
   ∧ (∀ (i : Fin 76) (s : State), s.alive = true → (s.sensors.get i).demand = true ∨ (s.sensors.get i).elective = true →
     (s.sensors.get i).gate = none → (∀ x, (s.sensors.get i).lastGate = some x → i.val < 64 → x + 400000 ≤ s.now) →
     ∃ t, exec (.sensorGateStart i) s = .next t ∧ (t.sensors.get i).gate = some s.now ∧ (t.sensors.get i).demand = false
       ∧ (t.sensors.get i).elective = false ∧ (∀ j, j ≠ i.val → t.sensors.get j = s.sensors.get j)
       ∧ t = { s with sensors := t.sensors })
   ∧ (∀ (i : Fin 76) (n : Word) (g : Nat) (s : State), (s.sensors.get i).gate = some g → g + 16800 ≤ s.now →
     ∃ t, exec (.sensorResult i n) s = .next t ∧ (t.sensors.get i).gate = none
       ∧ (∀ j, j ≠ i.val → t.sensors.get j = s.sensors.get j)
       ∧ ((s.sensors.get i).spoiled = true → (t.sensors.get i).demand = true ∧ t = { s with sensors := t.sensors })
       ∧ (∀ c, (s.sensors.get i).spoiled = false → (s.sensors.get i).codeOf n.toNat = some c → -480 ≤ c → c ≤ 1200 →
           (t.sensors.get i).code = c ∧ (t.sensors.get i).valid = true ∧ (t.sensors.get i).stale = false
           ∧ (t.sensors.get i).invalid = 0 ∧ (t.sensors.get i).last = s.now)
       ∧ (∀ c, (s.sensors.get i).spoiled = false → (s.sensors.get i).codeOf n.toNat = some c → c < -480 ∨ 1200 < c →
           (t.sensors.get i).code = (s.sensors.get i).code ∧ (t.sensors.get i).invalid = (s.sensors.get i).invalid + 1
           ∧ (2 ≤ (s.sensors.get i).invalid → (t.sensors.get i).failed = true)
           ∧ RaiseFrame { s with sensors := t.sensors } t))
   ∧ (∀ (i : Fin 76) (s : State), (s.sensors.get i).valid = true → (s.sensors.get i).stale = false →
     (s.sensors.get i).last + 400000 * s.fld 0x402000 10 10 < s.now →
     ∃ t, exec (.stalenessTimeout i) s = .next t ∧ (t.sensors.get i).stale = true ∧ (t.sensors.get i).demand = true
       ∧ (∀ j, j ≠ i.val → t.sensors.get j = s.sensors.get j) ∧ RaiseFrame { s with sensors := t.sensors } t)
   ∧ (∀ (x i : Nat) (s : State), s.epl.grace = some (x, i) → x ≤ s.now →
     ∃ t, exec .graceTimeEnd s = .next t ∧ t.epl.grace = none
       ∧ (s.throttled = true → t.epl.enforce = true ∧ t.epl.src = BitVec.ofNat 7 i ∧ t.epl.decUp = min 6 (s.epl.decUp + 1))
       ∧ (s.throttled = false → t = { s with epl := { s.epl with grace := none } })))
  ∧ (∀ (h : Hdr) (mask : BitVec 80) (s : State), s.Ready 0 h (.thmDemand mask) →
       ∃ t, exec (.thmDemand h mask) s = .next t ∧ s.answered t 0 h (.thmDemand mask) .ok s.fr.k 0
         ∧ (∀ i, t.sensors.get i = if i < 76 ∧ mask.toNat / 2 ^ i % 2 = 1 then { s.sensors.get i with demand := true }
             else s.sensors.get i)
         ∧ t = { s with sensors := t.sensors, out := t.out, rings := t.rings })

/-- R536, R528, R571, Table 18-2: rails in range lead from OFF to RESET; PWRGOOD resets the main device and boots its preferred valid slot, with
TEST_EN low, and holds in BOOT without one; the set in force is then that of the store of highest generation; losing it or the rails stops every
octad and lane, starts the orderly shut-down, and leaves identity, keys, the stored sets and Kingpost as they were. Whether the hold-domain SRAM has
lost its supply is open, and so is a slot that power loss tears (log entry 4).  (Complete with their own effect: `railsInRange`, `pwrgoodAsserted`,
`pwrgoodDeasserted`, `mainRailsLost`.) -/
def Obligations.PowerStatesFollowTheRails : Prop :=
  (∀ s : State, s.sys.dev ≠ .off → exec .railsInRange s = .next { s with sys := { s.sys with rails := true } })
  ∧ (∀ s : State, s.sys.dev = .off → ∃ t, exec .railsInRange s = .next t ∧ t.sys = { s.sys with rails := true, dev := .reset }
    ∧ (t.bel.tombs = s.bel.tombs ∨ t.bel.tombs = .empty none)
    ∧ t = { s with sys := t.sys, free := t.free, bel := { s.bel with tombs := t.bel.tombs, vhold := t.bel.vhold } })
  ∧ (∀ s : State, s.sys.dev = .reset → ∃ t, exec (.pwrgoodAsserted true) s = .next t ∧ t.sys.dev = .reset ∧ t.sys.pwrgood = true
    ∧ t.regs = [] ∧ t.staging = [] ∧ (s.bel.shut = 0 → t.kp = s.kp))
  ∧ (∀ s : State, s.sys.dev = .reset → s.fwValid 0 = false → s.fwValid 1 = false →
    ∃ t, exec (.pwrgoodAsserted false) s = .next t ∧ t.sys.dev = .boot ∧ t.sys.hold = true ∧ t.sys.step = 5
      ∧ t.regs = [] ∧ t.ps.image = none ∧ t.ps.seq = 0 ∧ t.ps.keys = s.ps.keys
      ∧ (s.bel.shut = 0 → t.kp = s.kp ∧ t.bel.copies = s.bel.copies))
  ∧ (∀ s : State, s.sys.dev = .reset → s.fwValid s.ps.fwPreferred = true →
    ∃ t, exec (.pwrgoodAsserted false) s = .next t ∧ t.ps.fwRunning = some s.ps.fwPreferred ∧ t.ps.fwFallback = false
      ∧ t.sys.pwrgood = true ∧ t.sys.hold = false
      ∧ (∀ gen req x, s.bel.shut = 0 → s.bel.newestCopy .pset = some (x, gen, req) →
          t.ps.seq = BitVec.ofNat 32 gen ∧ t.ps.image = storedImage req)
      ∧ (s.bel.shut = 0 → s.bel.newestCopy .pset = none → t.ps.image = none ∧ t.ps.seq = 0)
      ∧ (s.bel.shut = 0 → s.bel.countErase = none →
          t.bel.pcc = satAdd 32 (leAt (s.bel.countInForce.getD (countBytes 0 0 false false)) 4 4) 1))
  ∧ (∀ s : State, s.sys.dev ≠ .off → s.sys.dev ≠ .reset → ∃ t, exec .pwrgoodDeasserted s = .next t ∧ t.sys.dev = .reset
    ∧ t.sys.pwrgood = false ∧ (∀ n < 8, (t.oct n).state = .unconfigured) ∧ (∀ m < 24, (t.dpws.get m).safe = true)
    ∧ t.ps.nonce = none ∧ t.ps.grant = none ∧ t.kp = s.kp ∧ (s.sys.rails = true → t.bel.shut = 4)
    ∧ (s.ps.commit = none → t.ps.image = s.ps.image ∧ t.ps.keys = s.ps.keys))
  ∧ (∀ s : State, ∃ t, exec .mainRailsLost s = .next t ∧ t.sys.dev = .off ∧ t.sys.rails = false ∧ t.sys.pwrgood = false ∧ t.regs = []
    ∧ t.staging = [] ∧ t.kp = s.kp ∧ t.ps.image = none
    ∧ (s.bel.staging = [] → t.bel.sill = s.bel.sill ∧ (s.bel.ringSlot < 128 → t.bel.ring = s.bel.ring))
    ∧ (t.bel.sill = s.bel.sill ∨ t.bel.sill = s.bel.sill ++ [.torn])
    ∧ (s.ps.commit = none → t.bel.copies = s.bel.copies ∧ t.ps.keys = s.ps.keys ∧ t.ps.profile = s.ps.profile))
  ∧ (∀ (k : Nat) (s : State), s.bel.shut = k + 1 →
    (s.nvmHeld = true → s.shutStep = { s with bel := { s.bel with shut := 0 } })
    ∧ (s.nvmHeld = false → s.shutStep.bel.shut = k)
    ∧ (s.nvmHeld = false → k = 3 → s.bel.countErase = none → s.bel.countOpen = true →
        s.shutStep.bel.counts.get (512 * s.bel.countIn + (s.bel.countUsed s.bel.countIn).length)
          = countBytes s.opsecNow s.bel.pcc (s.bel.opsecSat || decide (s.opsecNow = 2 ^ 32 - 1)) s.bel.pccSat))

/-- R546 to R551, R545: a segment short of its terminal count is run once more and then marks its block unusable, a failed check marks it at once, a
pass goes on to the next block of the run or ends it, and the second pass in a row of a re-qualification restores its block; LOCKOUT, which a fault
of the segment may itself bring, abandons the run. An octad whose run-down took T_RD raises OCT_RD_TIMEOUT and is Blocked, but where the reaction
map has that fault fence it. A Deblock that waits for WARM B lanes is armed when they are, refused after 0.9 ms.  (Complete with their own effect:
`bistSegmentEnd`, `bistSegmentTimeout`, `octRdTimeout`, `deblockBLanesWarm`.) -/
def Obligations.SegmentsAndRundownsEnd : Prop :=
  (∀ (c : Word) (ok : Bool) (ball : BitVec 16) (b : Nat) (rest : List Nat) (s : State), s.sys.bist.blocks = b :: rest →
    ∃ t, exec (.bistSegmentEnd c ok ball) s = .next t
      ∧ (s.sys.dev = .lockout → t.sys.bist = Bist.init ∧ t.sys = { s.sys with bist := t.sys.bist })
      ∧ (s.sys.dev ≠ .lockout → c.toNat < bistTerminal b → s.sys.bist.retried = false → t.sys.usable b = s.sys.usable b
          ∧ (t.sys.dev ≠ .lockout → t.sys.bist = { s.sys.bist with
              result := 2, lastBlock := b, lastRetried := false, retried := true, startAt := s.now }))
      ∧ (s.sys.dev ≠ .lockout → bistTerminal b ≤ c.toNat → ok = false → t.sys.usable b = false
          ∧ (rest = [] → t.sys.bist.busy = false)
          ∧ (t.sys.dev ≠ .lockout → t.sys.bist.result = 1 ∧ t.sys.bist.ball = ball ∧ t.sys.bist.lastBlock = b
              ∧ t.sys.bist.blocks = rest))
      ∧ (s.sys.dev ≠ .lockout → bistTerminal b ≤ c.toNat → ok = true → s.sys.bist.runs = 1 → s.sys.bist.requalify = false →
          t.sys.usable b = s.sys.usable b ∧ t.sys.bist.result = 0 ∧ t.sys.bist.lastBlock = b ∧ t.sys.bist.blocks = rest
          ∧ (rest = [] → t.sys.bist.busy = false
              ∧ t.sys = if s.sys.bist.boot = true then { s.sys with bist := t.sys.bist, dev := .boot, step := 9 }
                else { s.sys with bist := t.sys.bist }))
      ∧ (s.sys.dev ≠ .lockout → bistTerminal b ≤ c.toNat → ok = true → s.sys.bist.runs = 1 → s.sys.bist.requalify = true →
          s.sys.bist.passes = 1 → s.sys.usable b = false → t.sys.usable b = true))
  ∧ (∀ (c : Word) (b : Nat) (rest : List Nat) (s : State), s.sys.bist.blocks = b :: rest → s.sys.dev ≠ .lockout →
    (s.clk.started = true → s.sys.bist.startAt + bistTimeout b ≤ s.now) →
    ∃ t, exec (.bistSegmentTimeout c) s = .next t ∧ (t.sys.dev ≠ .lockout → t.sys.bist.result = 2 ∧ t.sys.bist.lastBlock = b)
      ∧ (s.sys.bist.retried = false → t.sys.usable b = s.sys.usable b
          ∧ (t.sys.dev ≠ .lockout → t.sys.bist.retried = true ∧ t.sys.bist.blocks = b :: rest ∧ t.sys.bist.startAt = s.now))
      ∧ (s.sys.bist.retried = true → t.sys.usable b = false ∧ (rest = [] → t.sys.bist.busy = false)))
  ∧ (∀ (n : Fin 8) (s : State), (s.oct n).state = .rundown → (s.oct n).rdEntry + 40000000 * s.ofld n 4 16 7 < s.now →
    ∃ t, exec (.octRdTimeout n) s = .next t ∧ ((t.oct n).state = .blocked ∨ (t.oct n).state = .fenced)
      ∧ ((s.faultParams 0x2504).1.code < 2 → s.flt.table.length < 256 → (t.oct n).state = .blocked) ∧ RaiseFrame s t)
  ∧ (∀ (n : Fin 8) (x : OctState) (since : Nat) (s : State), (s.oct n).deb = .waitB x since →
    ∃ t, exec (.deblockBLanesWarm n) s = .next t
      ∧ (s.now ≤ since + 360000 → s.deblockErr n = some 0 →
          t = { s with octs := s.octs.upd n fun o => { o with deb := .armed x (s.nextFrame n) } })
      ∧ (s.now ≤ since + 360000 → s.deblockErr n = none → t = s)
      ∧ (since + 360000 < s.now → (t.oct n).deb = .none ∧ (t.oct n).dberr = 8 ∧ (t.oct n).state = (s.oct n).state
          ∧ t.hif.waiting = s.hif.waiting.filter fun w => w.kind ≠ .dispatch n))

/-- R447 to R449, R453: a commit whose writes verified takes effect at a base frame boundary and at no other tick, the set's image or the keys; one
whose writes failed leaves both as they were with ERR 0x0A, one that a LOCKOUT met before its copy header was written with ERR 0x0B (which came
first is open, log entry 4); a nonce not used within its time expires (R444).  (Complete with their own effect: `psetApplied`, `nonceExpiry`.) -/
def Obligations.CommitsTakeEffectOrLeaveTheSet : Prop :=
  (∀ s : State, s.reaches s.fr.epoch = false → exec (.psetApplied true) s = .next s)
  ∧ (∀ (c : Commit) (s : State), s.ps.commit = some c → c.locked = true → s.reaches s.fr.epoch = true →
    ∃ t, exec (.psetApplied true) s = .next t ∧ t.ps.commit = none
      ∧ (t.ps.err = 0x0B ∧ t.ps.image = s.ps.image ∧ t.ps.keys = s.ps.keys ∨ t.ps.err = 0 ∧ t.ps.seq = c.seq))
  ∧ (∀ (c : Commit) (s : State), s.ps.commit = some c → c.locked = false → s.reaches s.fr.epoch = true →
    ∃ t, exec (.psetApplied true) s = .next t ∧ t.ps.commit = none ∧ t.ps.seq = c.seq ∧ t.ps.err = 0
      ∧ (∀ w, (s.bel.writes.find? fun w => w.part == .pset) = some w →
          t.bel.copies.get (2 + bit w.second) = { header := copyHeader w.gen w.content, content := w.content })
      ∧ (c.keys = none → t.ps.image = some c.image ∧ t.ps.digest = shake256 c.image ∧ t.ps.profile = c.profile ∧ t.ps.appliedAt = some s.now
          ∧ t.ps.keys = s.ps.keys ∧ t.ps.owner = s.ps.owner)
      ∧ (∀ k, c.keys = some k → t.ps.keys = k.1 ∧ t.ps.owner = k.2 ∧ t.ps.image = s.ps.image ∧ t.ps.profile = s.ps.profile)
      ∧ t.hif.waiting = s.hif.waiting.filter fun w => w.kind ≠ .pset)
  ∧ (∀ (c : Commit) (s : State), s.ps.commit = some c → c.locked = false →
    ∃ t, exec (.psetApplied false) s = .next t ∧ t.ps = { s.ps with commit := none, err := 0x0A }
      ∧ t.hif.waiting = s.hif.waiting.filter fun w => w.kind ≠ .pset)
  ∧ (∀ (v : BitVec 128) (q : Word) (x : Nat) (s : State), s.ps.nonce = some (v, q, x) → x + nonceTicks ≤ s.now →
    exec .nonceExpiry s = .next { s with ps := { s.ps with nonce := none } })

/-- R458 to R460, R137: a challenge is given out and used up by the next token; a token whose steps all pass opens its SCOPE for its DURATION, any
other leaves the grant; memory is read and written with SCOPE bits 1 and 2 open, a boundary-scan test drives the pins with bit 3, IDCODE and BYPASS
need no grant; a debug halt holds until it is released, which clears every output's carry.  (Complete with their own effect: `jtagChallenge`,
`jtagToken`, `jtagMemoryAccess`, `debugGrantExpiry`, `debugHalt`, `debugRelease`.) -/
def Obligations.DebugAccessNeedsItsGrant : Prop :=
  (∀ s : State, s.alive = true → exec .jtagChallenge s = .next { s with
    ps := { s.ps with challenge := some (Config.random128 s.free), ir := 0x2A }
    sys := { s.sys with scan := none }
    free := s.free + 1
    out := s.out ++ [.tdo (leBytes 16 (Config.random128 s.free).toNat)] })
  ∧ (∀ (b : List Byte) (s : State), s.alive = true →
    ∃ t, exec (.jtagToken b) s = .next t ∧ s.out ++ [.tdo [s.ps.tokenResult]] <+: t.out
      ∧ (s.tokenErr b ≠ 0 → { t.ps with commit := none } = { s.ps with
          commit := none, ir := 0x2B, challenge := none, tokenResult := BitVec.ofNat 8 (s.tokenErr b) })
      ∧ (s.tokenErr b = 0 → { t.ps with commit := none } = { s.ps with
          commit := none
          ir := 0x2B
          challenge := none
          tokenResult := 0
          grant := some (BitVec.ofNat 4 (leAt b 3 1), s.now + leAt b 4 4 * secTicks) })
      ∧ RaiseFrame { s with ps := t.ps, sys := { s.sys with scan := none } } t)
  ∧ (∀ (a : Word) (x : JtagAccess) (u s : State), s.alive = true → u = s.select (jtagInstr x) →
    (x = .read → s.debugAllows 1 = true → exec (.jtagMemoryAccess a x) s = .next { u with
      out := s.out ++ [.tdo (leBytes 4 (Tab.look (Config.memoryWord a.toNat) s.sys.sram a.toNat).toNat)] })
    ∧ (∀ v, x = .write v → s.debugAllows 2 = true → a.toNat < sramBytes →
      ∃ t, exec (.jtagMemoryAccess a x) s = .next t ∧ t = { u with sys := { u.sys with sram := t.sys.sram } }
        ∧ ∀ y d, Tab.look d t.sys.sram y = if y = a.toNat then v else Tab.look d s.sys.sram y)
    ∧ (∀ p, x = .scan p → s.debugAllows 3 = true →
      exec (.jtagMemoryAccess a x) s = .next { u with sys := { u.sys with scan := some p } })
    ∧ (x = .idcode → exec (.jtagMemoryAccess a x) s = .next { u with out := s.out ++ [.tdo (leBytes 4 0x4A9610B3)] })
    ∧ (x = .bypass → exec (.jtagMemoryAccess a x) s = .next { u with out := s.out ++ [.tdo [0]] })
    ∧ (x ≠ .idcode → x ≠ .bypass → (∀ i, i = 1 ∨ i = 2 ∨ i = 3 → s.debugAllows i = false) →
      exec (.jtagMemoryAccess a x) s = .next u)
    ∧ u = { s with ps := { s.ps with ir := jtagInstr x }, sys := { s.sys with scan := none } })
  ∧ (∀ (sc : BitVec 4) (x : Nat) (s : State), s.ps.grant = some (sc, x) → x ≤ s.now →
    exec .debugGrantExpiry s = .next { s with ps := { s.ps with grant := none } })
  ∧ (∀ s : State, s.alive = true → s.debugAllows 0 = true → ∃ t, exec .debugHalt s = .next t ∧ t.sys.halt = true
    ∧ t = { s with sys := { s.sys with halt := true }, engs := t.engs, modeReq := t.modeReq })
  ∧ (∀ s : State, s.sys.halt = true → ∃ t, exec .debugRelease s = .next t ∧ t.sys.halt = false
    ∧ (∀ m, s.fr.dpwHalt = true → s.dpws.get m ≠ s.dpws.dflt → (t.dpws.get m).carry = 0 ∧ (t.dpws.get m).rise = none)
    ∧ (s.fr.dpwHalt = false → t.dpws = s.dpws)
    ∧ t = { s with sys := { s.sys with halt := false }, fr := { s.fr with dpwHalt := false }, dpws := t.dpws })
end

