-- ==== Sys2Proof/Laws/State.lean ====
section
/-! SUPPORT. What each update of State leaves: one lemma for each field and each accessor, true by unfolding, so that no proof
unfolds a record update. -/

namespace Sys2Proof.Machine

variable (s : State)

/-! ### setReg -/

@[simp] theorem State.setReg_pending (a : Nat) (w : Word) : (s.setReg a w).pending = s.pending := rfl
@[simp] theorem State.setReg_tick (a : Nat) (w : Word) : (s.setReg a w).tick = s.tick := rfl
@[simp] theorem State.setReg_free (a : Nat) (w : Word) : (s.setReg a w).free = s.free := rfl
@[simp] theorem State.setReg_regs (a : Nat) (w : Word) : (s.setReg a w).regs = putReg a w s.regs := rfl
@[simp] theorem State.setReg_hotAt (a : Nat) (w : Word) : (s.setReg a w).hotAt = s.hotAt := rfl
@[simp] theorem State.setReg_hot (a : Nat) (w : Word) : (s.setReg a w).hot = s.hot := rfl
@[simp] theorem State.setReg_wrote (a : Nat) (w : Word) : (s.setReg a w).wrote = s.wrote := rfl
@[simp] theorem State.setReg_staging (a : Nat) (w : Word) : (s.setReg a w).staging = s.staging := rfl
@[simp] theorem State.setReg_out (a : Nat) (w : Word) : (s.setReg a w).out = s.out := rfl
@[simp] theorem State.setReg_txSeen (a : Nat) (w : Word) : (s.setReg a w).txSeen = s.txSeen := rfl
@[simp] theorem State.setReg_sys (a : Nat) (w : Word) : (s.setReg a w).sys = s.sys := rfl
@[simp] theorem State.setReg_fr (a : Nat) (w : Word) : (s.setReg a w).fr = s.fr := rfl
@[simp] theorem State.setReg_octs (a : Nat) (w : Word) : (s.setReg a w).octs = s.octs := rfl
@[simp] theorem State.setReg_tiles (a : Nat) (w : Word) : (s.setReg a w).tiles = s.tiles := rfl
@[simp] theorem State.setReg_lanes (a : Nat) (w : Word) : (s.setReg a w).lanes = s.lanes := rfl
@[simp] theorem State.setReg_cells (a : Nat) (w : Word) : (s.setReg a w).cells = s.cells := rfl
@[simp] theorem State.setReg_engs (a : Nat) (w : Word) : (s.setReg a w).engs = s.engs := rfl
@[simp] theorem State.setReg_profs (a : Nat) (w : Word) : (s.setReg a w).profs = s.profs := rfl
@[simp] theorem State.setReg_setQ (a : Nat) (w : Word) : (s.setReg a w).setQ = s.setQ := rfl
@[simp] theorem State.setReg_dpws (a : Nat) (w : Word) : (s.setReg a w).dpws = s.dpws := rfl
@[simp] theorem State.setReg_trips (a : Nat) (w : Word) : (s.setReg a w).trips = s.trips := rfl
@[simp] theorem State.setReg_trigs (a : Nat) (w : Word) : (s.setReg a w).trigs = s.trigs := rfl
@[simp] theorem State.setReg_sports (a : Nat) (w : Word) : (s.setReg a w).sports = s.sports := rfl
@[simp] theorem State.setReg_svs (a : Nat) (w : Word) : (s.setReg a w).svs = s.svs := rfl
@[simp] theorem State.setReg_time (a : Nat) (w : Word) : (s.setReg a w).time = s.time := rfl
@[simp] theorem State.setReg_hif (a : Nat) (w : Word) : (s.setReg a w).hif = s.hif := rfl
@[simp] theorem State.setReg_rings (a : Nat) (w : Word) : (s.setReg a w).rings = s.rings := rfl
@[simp] theorem State.setReg_modeReq (a : Nat) (w : Word) : (s.setReg a w).modeReq = s.modeReq := rfl
@[simp] theorem State.setReg_flt (a : Nat) (w : Word) : (s.setReg a w).flt = s.flt := rfl
@[simp] theorem State.setReg_kp (a : Nat) (w : Word) : (s.setReg a w).kp = s.kp := rfl
@[simp] theorem State.setReg_ps (a : Nat) (w : Word) : (s.setReg a w).ps = s.ps := rfl
@[simp] theorem State.setReg_clk (a : Nat) (w : Word) : (s.setReg a w).clk = s.clk := rfl
@[simp] theorem State.setReg_epl (a : Nat) (w : Word) : (s.setReg a w).epl = s.epl := rfl
@[simp] theorem State.setReg_sensors (a : Nat) (w : Word) : (s.setReg a w).sensors = s.sensors := rfl
@[simp] theorem State.setReg_bel (a : Nat) (w : Word) : (s.setReg a w).bel = s.bel := rfl
@[simp] theorem State.setReg_oct (a : Nat) (w : Word) (m : Nat) : (s.setReg a w).oct m = s.oct m := rfl
@[simp] theorem State.setReg_lane (a : Nat) (w : Word) (m : Nat) : (s.setReg a w).lane m = s.lane m := rfl
@[simp] theorem State.setReg_cell (a : Nat) (w : Word) (m : Nat) : (s.setReg a w).cell m = s.cell m := rfl
@[simp] theorem State.setReg_eng (a : Nat) (w : Word) (m : Nat) : (s.setReg a w).eng m = s.eng m := rfl
@[simp] theorem State.setReg_ring (a : Nat) (w : Word) (m : Nat) : (s.setReg a w).ring m = s.ring m := rfl
@[simp] theorem State.setReg_now (a : Nat) (w : Word) : (s.setReg a w).now = s.now := rfl

/-! ### setFld -/

@[simp] theorem State.setFld_pending (a lo len v : Nat) : (s.setFld a lo len v).pending = s.pending := rfl
@[simp] theorem State.setFld_tick (a lo len v : Nat) : (s.setFld a lo len v).tick = s.tick := rfl
@[simp] theorem State.setFld_free (a lo len v : Nat) : (s.setFld a lo len v).free = s.free := rfl
@[simp] theorem State.setFld_hotAt (a lo len v : Nat) : (s.setFld a lo len v).hotAt = s.hotAt := rfl
@[simp] theorem State.setFld_hot (a lo len v : Nat) : (s.setFld a lo len v).hot = s.hot := rfl
@[simp] theorem State.setFld_wrote (a lo len v : Nat) : (s.setFld a lo len v).wrote = s.wrote := rfl
@[simp] theorem State.setFld_staging (a lo len v : Nat) : (s.setFld a lo len v).staging = s.staging := rfl
@[simp] theorem State.setFld_out (a lo len v : Nat) : (s.setFld a lo len v).out = s.out := rfl
@[simp] theorem State.setFld_txSeen (a lo len v : Nat) : (s.setFld a lo len v).txSeen = s.txSeen := rfl
@[simp] theorem State.setFld_sys (a lo len v : Nat) : (s.setFld a lo len v).sys = s.sys := rfl
@[simp] theorem State.setFld_fr (a lo len v : Nat) : (s.setFld a lo len v).fr = s.fr := rfl
@[simp] theorem State.setFld_octs (a lo len v : Nat) : (s.setFld a lo len v).octs = s.octs := rfl
@[simp] theorem State.setFld_tiles (a lo len v : Nat) : (s.setFld a lo len v).tiles = s.tiles := rfl
@[simp] theorem State.setFld_lanes (a lo len v : Nat) : (s.setFld a lo len v).lanes = s.lanes := rfl
@[simp] theorem State.setFld_cells (a lo len v : Nat) : (s.setFld a lo len v).cells = s.cells := rfl
@[simp] theorem State.setFld_engs (a lo len v : Nat) : (s.setFld a lo len v).engs = s.engs := rfl
@[simp] theorem State.setFld_profs (a lo len v : Nat) : (s.setFld a lo len v).profs = s.profs := rfl
@[simp] theorem State.setFld_setQ (a lo len v : Nat) : (s.setFld a lo len v).setQ = s.setQ := rfl
@[simp] theorem State.setFld_dpws (a lo len v : Nat) : (s.setFld a lo len v).dpws = s.dpws := rfl
@[simp] theorem State.setFld_trips (a lo len v : Nat) : (s.setFld a lo len v).trips = s.trips := rfl
@[simp] theorem State.setFld_trigs (a lo len v : Nat) : (s.setFld a lo len v).trigs = s.trigs := rfl
@[simp] theorem State.setFld_sports (a lo len v : Nat) : (s.setFld a lo len v).sports = s.sports := rfl
@[simp] theorem State.setFld_svs (a lo len v : Nat) : (s.setFld a lo len v).svs = s.svs := rfl
@[simp] theorem State.setFld_time (a lo len v : Nat) : (s.setFld a lo len v).time = s.time := rfl
@[simp] theorem State.setFld_hif (a lo len v : Nat) : (s.setFld a lo len v).hif = s.hif := rfl
@[simp] theorem State.setFld_rings (a lo len v : Nat) : (s.setFld a lo len v).rings = s.rings := rfl
@[simp] theorem State.setFld_modeReq (a lo len v : Nat) : (s.setFld a lo len v).modeReq = s.modeReq := rfl
@[simp] theorem State.setFld_flt (a lo len v : Nat) : (s.setFld a lo len v).flt = s.flt := rfl
@[simp] theorem State.setFld_kp (a lo len v : Nat) : (s.setFld a lo len v).kp = s.kp := rfl
@[simp] theorem State.setFld_ps (a lo len v : Nat) : (s.setFld a lo len v).ps = s.ps := rfl
@[simp] theorem State.setFld_clk (a lo len v : Nat) : (s.setFld a lo len v).clk = s.clk := rfl
@[simp] theorem State.setFld_epl (a lo len v : Nat) : (s.setFld a lo len v).epl = s.epl := rfl
@[simp] theorem State.setFld_sensors (a lo len v : Nat) : (s.setFld a lo len v).sensors = s.sensors := rfl
@[simp] theorem State.setFld_bel (a lo len v : Nat) : (s.setFld a lo len v).bel = s.bel := rfl
@[simp] theorem State.setFld_oct (a lo len v : Nat) (m : Nat) : (s.setFld a lo len v).oct m = s.oct m := rfl
@[simp] theorem State.setFld_lane (a lo len v : Nat) (m : Nat) : (s.setFld a lo len v).lane m = s.lane m := rfl
@[simp] theorem State.setFld_cell (a lo len v : Nat) (m : Nat) : (s.setFld a lo len v).cell m = s.cell m := rfl
@[simp] theorem State.setFld_eng (a lo len v : Nat) (m : Nat) : (s.setFld a lo len v).eng m = s.eng m := rfl
@[simp] theorem State.setFld_ring (a lo len v : Nat) (m : Nat) : (s.setFld a lo len v).ring m = s.ring m := rfl
@[simp] theorem State.setFld_now (a lo len v : Nat) : (s.setFld a lo len v).now = s.now := rfl

/-! ### flag -/

@[simp] theorem State.flag_pending (a i : Nat) : (s.flag a i).pending = s.pending := rfl
@[simp] theorem State.flag_tick (a i : Nat) : (s.flag a i).tick = s.tick := rfl
@[simp] theorem State.flag_free (a i : Nat) : (s.flag a i).free = s.free := rfl
@[simp] theorem State.flag_wrote (a i : Nat) : (s.flag a i).wrote = s.wrote := rfl
@[simp] theorem State.flag_staging (a i : Nat) : (s.flag a i).staging = s.staging := rfl
@[simp] theorem State.flag_out (a i : Nat) : (s.flag a i).out = s.out := rfl
@[simp] theorem State.flag_txSeen (a i : Nat) : (s.flag a i).txSeen = s.txSeen := rfl
@[simp] theorem State.flag_sys (a i : Nat) : (s.flag a i).sys = s.sys := rfl
@[simp] theorem State.flag_fr (a i : Nat) : (s.flag a i).fr = s.fr := rfl
@[simp] theorem State.flag_octs (a i : Nat) : (s.flag a i).octs = s.octs := rfl
@[simp] theorem State.flag_tiles (a i : Nat) : (s.flag a i).tiles = s.tiles := rfl
@[simp] theorem State.flag_lanes (a i : Nat) : (s.flag a i).lanes = s.lanes := rfl
@[simp] theorem State.flag_cells (a i : Nat) : (s.flag a i).cells = s.cells := rfl
@[simp] theorem State.flag_engs (a i : Nat) : (s.flag a i).engs = s.engs := rfl
@[simp] theorem State.flag_profs (a i : Nat) : (s.flag a i).profs = s.profs := rfl
@[simp] theorem State.flag_setQ (a i : Nat) : (s.flag a i).setQ = s.setQ := rfl
@[simp] theorem State.flag_dpws (a i : Nat) : (s.flag a i).dpws = s.dpws := rfl
@[simp] theorem State.flag_trips (a i : Nat) : (s.flag a i).trips = s.trips := rfl
@[simp] theorem State.flag_trigs (a i : Nat) : (s.flag a i).trigs = s.trigs := rfl
@[simp] theorem State.flag_sports (a i : Nat) : (s.flag a i).sports = s.sports := rfl
@[simp] theorem State.flag_svs (a i : Nat) : (s.flag a i).svs = s.svs := rfl
@[simp] theorem State.flag_time (a i : Nat) : (s.flag a i).time = s.time := rfl
@[simp] theorem State.flag_hif (a i : Nat) : (s.flag a i).hif = s.hif := rfl
@[simp] theorem State.flag_rings (a i : Nat) : (s.flag a i).rings = s.rings := rfl
@[simp] theorem State.flag_modeReq (a i : Nat) : (s.flag a i).modeReq = s.modeReq := rfl
@[simp] theorem State.flag_flt (a i : Nat) : (s.flag a i).flt = s.flt := rfl
@[simp] theorem State.flag_kp (a i : Nat) : (s.flag a i).kp = s.kp := rfl
@[simp] theorem State.flag_ps (a i : Nat) : (s.flag a i).ps = s.ps := rfl
@[simp] theorem State.flag_clk (a i : Nat) : (s.flag a i).clk = s.clk := rfl
@[simp] theorem State.flag_epl (a i : Nat) : (s.flag a i).epl = s.epl := rfl
@[simp] theorem State.flag_sensors (a i : Nat) : (s.flag a i).sensors = s.sensors := rfl
@[simp] theorem State.flag_bel (a i : Nat) : (s.flag a i).bel = s.bel := rfl
@[simp] theorem State.flag_oct (a i : Nat) (m : Nat) : (s.flag a i).oct m = s.oct m := rfl
@[simp] theorem State.flag_lane (a i : Nat) (m : Nat) : (s.flag a i).lane m = s.lane m := rfl
@[simp] theorem State.flag_cell (a i : Nat) (m : Nat) : (s.flag a i).cell m = s.cell m := rfl
@[simp] theorem State.flag_eng (a i : Nat) (m : Nat) : (s.flag a i).eng m = s.eng m := rfl
@[simp] theorem State.flag_ring (a i : Nat) (m : Nat) : (s.flag a i).ring m = s.ring m := rfl
@[simp] theorem State.flag_now (a i : Nat) : (s.flag a i).now = s.now := rfl

/-! ### emit -/

@[simp] theorem State.emit_pending (o : Output) : (s.emit o).pending = s.pending := rfl
@[simp] theorem State.emit_tick (o : Output) : (s.emit o).tick = s.tick := rfl
@[simp] theorem State.emit_free (o : Output) : (s.emit o).free = s.free := rfl
@[simp] theorem State.emit_regs (o : Output) : (s.emit o).regs = s.regs := rfl
@[simp] theorem State.emit_hotAt (o : Output) : (s.emit o).hotAt = s.hotAt := rfl
@[simp] theorem State.emit_hot (o : Output) : (s.emit o).hot = s.hot := rfl
@[simp] theorem State.emit_wrote (o : Output) : (s.emit o).wrote = s.wrote := rfl
@[simp] theorem State.emit_staging (o : Output) : (s.emit o).staging = s.staging := rfl
@[simp] theorem State.emit_out (o : Output) : (s.emit o).out = s.out ++ [o] := rfl
@[simp] theorem State.emit_txSeen (o : Output) : (s.emit o).txSeen = s.txSeen := rfl
@[simp] theorem State.emit_sys (o : Output) : (s.emit o).sys = s.sys := rfl
@[simp] theorem State.emit_fr (o : Output) : (s.emit o).fr = s.fr := rfl
@[simp] theorem State.emit_octs (o : Output) : (s.emit o).octs = s.octs := rfl
@[simp] theorem State.emit_tiles (o : Output) : (s.emit o).tiles = s.tiles := rfl
@[simp] theorem State.emit_lanes (o : Output) : (s.emit o).lanes = s.lanes := rfl
@[simp] theorem State.emit_cells (o : Output) : (s.emit o).cells = s.cells := rfl
@[simp] theorem State.emit_engs (o : Output) : (s.emit o).engs = s.engs := rfl
@[simp] theorem State.emit_profs (o : Output) : (s.emit o).profs = s.profs := rfl
@[simp] theorem State.emit_setQ (o : Output) : (s.emit o).setQ = s.setQ := rfl
@[simp] theorem State.emit_dpws (o : Output) : (s.emit o).dpws = s.dpws := rfl
@[simp] theorem State.emit_trips (o : Output) : (s.emit o).trips = s.trips := rfl
@[simp] theorem State.emit_trigs (o : Output) : (s.emit o).trigs = s.trigs := rfl
@[simp] theorem State.emit_sports (o : Output) : (s.emit o).sports = s.sports := rfl
@[simp] theorem State.emit_svs (o : Output) : (s.emit o).svs = s.svs := rfl
@[simp] theorem State.emit_time (o : Output) : (s.emit o).time = s.time := rfl
@[simp] theorem State.emit_hif (o : Output) : (s.emit o).hif = s.hif := rfl
@[simp] theorem State.emit_rings (o : Output) : (s.emit o).rings = s.rings := rfl
@[simp] theorem State.emit_modeReq (o : Output) : (s.emit o).modeReq = s.modeReq := rfl
@[simp] theorem State.emit_flt (o : Output) : (s.emit o).flt = s.flt := rfl
@[simp] theorem State.emit_kp (o : Output) : (s.emit o).kp = s.kp := rfl
@[simp] theorem State.emit_ps (o : Output) : (s.emit o).ps = s.ps := rfl
@[simp] theorem State.emit_clk (o : Output) : (s.emit o).clk = s.clk := rfl
@[simp] theorem State.emit_epl (o : Output) : (s.emit o).epl = s.epl := rfl
@[simp] theorem State.emit_sensors (o : Output) : (s.emit o).sensors = s.sensors := rfl
@[simp] theorem State.emit_bel (o : Output) : (s.emit o).bel = s.bel := rfl
@[simp] theorem State.emit_reg (o : Output) (b : Nat) : (s.emit o).reg b = s.reg b := rfl
@[simp] theorem State.emit_fld (o : Output) (b l2 n2 : Nat) : (s.emit o).fld b l2 n2 = s.fld b l2 n2 := rfl
@[simp] theorem State.emit_oct (o : Output) (m : Nat) : (s.emit o).oct m = s.oct m := rfl
@[simp] theorem State.emit_lane (o : Output) (m : Nat) : (s.emit o).lane m = s.lane m := rfl
@[simp] theorem State.emit_cell (o : Output) (m : Nat) : (s.emit o).cell m = s.cell m := rfl
@[simp] theorem State.emit_eng (o : Output) (m : Nat) : (s.emit o).eng m = s.eng m := rfl
@[simp] theorem State.emit_ring (o : Output) (m : Nat) : (s.emit o).ring m = s.ring m := rfl
@[simp] theorem State.emit_now (o : Output) : (s.emit o).now = s.now := rfl

/-! ### freeNext -/

@[simp] theorem State.freeNext_pending : (s.freeNext).pending = s.pending := rfl
@[simp] theorem State.freeNext_tick : (s.freeNext).tick = s.tick := rfl
@[simp] theorem State.freeNext_free : (s.freeNext).free = s.free + 1 := rfl
@[simp] theorem State.freeNext_regs : (s.freeNext).regs = s.regs := rfl
@[simp] theorem State.freeNext_hotAt : (s.freeNext).hotAt = s.hotAt := rfl
@[simp] theorem State.freeNext_hot : (s.freeNext).hot = s.hot := rfl
@[simp] theorem State.freeNext_wrote : (s.freeNext).wrote = s.wrote := rfl
@[simp] theorem State.freeNext_staging : (s.freeNext).staging = s.staging := rfl
@[simp] theorem State.freeNext_out : (s.freeNext).out = s.out := rfl
@[simp] theorem State.freeNext_txSeen : (s.freeNext).txSeen = s.txSeen := rfl
@[simp] theorem State.freeNext_sys : (s.freeNext).sys = s.sys := rfl
@[simp] theorem State.freeNext_fr : (s.freeNext).fr = s.fr := rfl
@[simp] theorem State.freeNext_octs : (s.freeNext).octs = s.octs := rfl
@[simp] theorem State.freeNext_tiles : (s.freeNext).tiles = s.tiles := rfl
@[simp] theorem State.freeNext_lanes : (s.freeNext).lanes = s.lanes := rfl
@[simp] theorem State.freeNext_cells : (s.freeNext).cells = s.cells := rfl
@[simp] theorem State.freeNext_engs : (s.freeNext).engs = s.engs := rfl
@[simp] theorem State.freeNext_profs : (s.freeNext).profs = s.profs := rfl
@[simp] theorem State.freeNext_setQ : (s.freeNext).setQ = s.setQ := rfl
@[simp] theorem State.freeNext_dpws : (s.freeNext).dpws = s.dpws := rfl
@[simp] theorem State.freeNext_trips : (s.freeNext).trips = s.trips := rfl
@[simp] theorem State.freeNext_trigs : (s.freeNext).trigs = s.trigs := rfl
@[simp] theorem State.freeNext_sports : (s.freeNext).sports = s.sports := rfl
@[simp] theorem State.freeNext_svs : (s.freeNext).svs = s.svs := rfl
@[simp] theorem State.freeNext_time : (s.freeNext).time = s.time := rfl
@[simp] theorem State.freeNext_hif : (s.freeNext).hif = s.hif := rfl
@[simp] theorem State.freeNext_rings : (s.freeNext).rings = s.rings := rfl
@[simp] theorem State.freeNext_modeReq : (s.freeNext).modeReq = s.modeReq := rfl
@[simp] theorem State.freeNext_flt : (s.freeNext).flt = s.flt := rfl
@[simp] theorem State.freeNext_kp : (s.freeNext).kp = s.kp := rfl
@[simp] theorem State.freeNext_ps : (s.freeNext).ps = s.ps := rfl
@[simp] theorem State.freeNext_clk : (s.freeNext).clk = s.clk := rfl
@[simp] theorem State.freeNext_epl : (s.freeNext).epl = s.epl := rfl
@[simp] theorem State.freeNext_sensors : (s.freeNext).sensors = s.sensors := rfl
@[simp] theorem State.freeNext_bel : (s.freeNext).bel = s.bel := rfl
@[simp] theorem State.freeNext_reg (b : Nat) : (s.freeNext).reg b = s.reg b := rfl
@[simp] theorem State.freeNext_fld (b l2 n2 : Nat) : (s.freeNext).fld b l2 n2 = s.fld b l2 n2 := rfl
@[simp] theorem State.freeNext_oct (m : Nat) : (s.freeNext).oct m = s.oct m := rfl
@[simp] theorem State.freeNext_lane (m : Nat) : (s.freeNext).lane m = s.lane m := rfl
@[simp] theorem State.freeNext_cell (m : Nat) : (s.freeNext).cell m = s.cell m := rfl
@[simp] theorem State.freeNext_eng (m : Nat) : (s.freeNext).eng m = s.eng m := rfl
@[simp] theorem State.freeNext_ring (m : Nat) : (s.freeNext).ring m = s.ring m := rfl
@[simp] theorem State.freeNext_now : (s.freeNext).now = s.now := rfl

/-! ### withPending -/

@[simp] theorem State.withPending_pending (q : List Instr) : (s.withPending q).pending = q := rfl
@[simp] theorem State.withPending_tick (q : List Instr) : (s.withPending q).tick = s.tick := rfl
@[simp] theorem State.withPending_free (q : List Instr) : (s.withPending q).free = s.free := rfl
@[simp] theorem State.withPending_regs (q : List Instr) : (s.withPending q).regs = s.regs := rfl
@[simp] theorem State.withPending_hotAt (q : List Instr) : (s.withPending q).hotAt = s.hotAt := rfl
@[simp] theorem State.withPending_hot (q : List Instr) : (s.withPending q).hot = s.hot := rfl
@[simp] theorem State.withPending_wrote (q : List Instr) : (s.withPending q).wrote = s.wrote := rfl
@[simp] theorem State.withPending_staging (q : List Instr) : (s.withPending q).staging = s.staging := rfl
@[simp] theorem State.withPending_out (q : List Instr) : (s.withPending q).out = s.out := rfl
@[simp] theorem State.withPending_txSeen (q : List Instr) : (s.withPending q).txSeen = s.txSeen := rfl
@[simp] theorem State.withPending_sys (q : List Instr) : (s.withPending q).sys = s.sys := rfl
@[simp] theorem State.withPending_fr (q : List Instr) : (s.withPending q).fr = s.fr := rfl
@[simp] theorem State.withPending_octs (q : List Instr) : (s.withPending q).octs = s.octs := rfl
@[simp] theorem State.withPending_tiles (q : List Instr) : (s.withPending q).tiles = s.tiles := rfl
@[simp] theorem State.withPending_lanes (q : List Instr) : (s.withPending q).lanes = s.lanes := rfl
@[simp] theorem State.withPending_cells (q : List Instr) : (s.withPending q).cells = s.cells := rfl
@[simp] theorem State.withPending_engs (q : List Instr) : (s.withPending q).engs = s.engs := rfl
@[simp] theorem State.withPending_profs (q : List Instr) : (s.withPending q).profs = s.profs := rfl
@[simp] theorem State.withPending_setQ (q : List Instr) : (s.withPending q).setQ = s.setQ := rfl
@[simp] theorem State.withPending_dpws (q : List Instr) : (s.withPending q).dpws = s.dpws := rfl
@[simp] theorem State.withPending_trips (q : List Instr) : (s.withPending q).trips = s.trips := rfl
@[simp] theorem State.withPending_trigs (q : List Instr) : (s.withPending q).trigs = s.trigs := rfl
@[simp] theorem State.withPending_sports (q : List Instr) : (s.withPending q).sports = s.sports := rfl
@[simp] theorem State.withPending_svs (q : List Instr) : (s.withPending q).svs = s.svs := rfl
@[simp] theorem State.withPending_time (q : List Instr) : (s.withPending q).time = s.time := rfl
@[simp] theorem State.withPending_hif (q : List Instr) : (s.withPending q).hif = s.hif := rfl
@[simp] theorem State.withPending_rings (q : List Instr) : (s.withPending q).rings = s.rings := rfl
@[simp] theorem State.withPending_modeReq (q : List Instr) : (s.withPending q).modeReq = s.modeReq := rfl
@[simp] theorem State.withPending_flt (q : List Instr) : (s.withPending q).flt = s.flt := rfl
@[simp] theorem State.withPending_kp (q : List Instr) : (s.withPending q).kp = s.kp := rfl
@[simp] theorem State.withPending_ps (q : List Instr) : (s.withPending q).ps = s.ps := rfl
@[simp] theorem State.withPending_clk (q : List Instr) : (s.withPending q).clk = s.clk := rfl
@[simp] theorem State.withPending_epl (q : List Instr) : (s.withPending q).epl = s.epl := rfl
@[simp] theorem State.withPending_sensors (q : List Instr) : (s.withPending q).sensors = s.sensors := rfl
@[simp] theorem State.withPending_bel (q : List Instr) : (s.withPending q).bel = s.bel := rfl
@[simp] theorem State.withPending_reg (q : List Instr) (b : Nat) : (s.withPending q).reg b = s.reg b := rfl
@[simp] theorem State.withPending_fld (q : List Instr) (b l2 n2 : Nat) : (s.withPending q).fld b l2 n2 = s.fld b l2 n2 := rfl
@[simp] theorem State.withPending_oct (q : List Instr) (m : Nat) : (s.withPending q).oct m = s.oct m := rfl
@[simp] theorem State.withPending_lane (q : List Instr) (m : Nat) : (s.withPending q).lane m = s.lane m := rfl
@[simp] theorem State.withPending_cell (q : List Instr) (m : Nat) : (s.withPending q).cell m = s.cell m := rfl
@[simp] theorem State.withPending_eng (q : List Instr) (m : Nat) : (s.withPending q).eng m = s.eng m := rfl
@[simp] theorem State.withPending_ring (q : List Instr) (m : Nat) : (s.withPending q).ring m = s.ring m := rfl
@[simp] theorem State.withPending_now (q : List Instr) : (s.withPending q).now = s.now := rfl

/-! ### setOct -/

@[simp] theorem State.setOct_pending (n : Nat) (x : Octad) : (s.setOct n x).pending = s.pending := rfl
@[simp] theorem State.setOct_tick (n : Nat) (x : Octad) : (s.setOct n x).tick = s.tick := rfl
@[simp] theorem State.setOct_free (n : Nat) (x : Octad) : (s.setOct n x).free = s.free := rfl
@[simp] theorem State.setOct_regs (n : Nat) (x : Octad) : (s.setOct n x).regs = s.regs := rfl
@[simp] theorem State.setOct_hotAt (n : Nat) (x : Octad) : (s.setOct n x).hotAt = s.hotAt := rfl
@[simp] theorem State.setOct_hot (n : Nat) (x : Octad) : (s.setOct n x).hot = s.hot := rfl
@[simp] theorem State.setOct_wrote (n : Nat) (x : Octad) : (s.setOct n x).wrote = s.wrote := rfl
@[simp] theorem State.setOct_staging (n : Nat) (x : Octad) : (s.setOct n x).staging = s.staging := rfl
@[simp] theorem State.setOct_out (n : Nat) (x : Octad) : (s.setOct n x).out = s.out := rfl
@[simp] theorem State.setOct_txSeen (n : Nat) (x : Octad) : (s.setOct n x).txSeen = s.txSeen := rfl
@[simp] theorem State.setOct_sys (n : Nat) (x : Octad) : (s.setOct n x).sys = s.sys := rfl
@[simp] theorem State.setOct_fr (n : Nat) (x : Octad) : (s.setOct n x).fr = s.fr := rfl
@[simp] theorem State.setOct_octs (n : Nat) (x : Octad) : (s.setOct n x).octs = s.octs.set n x := rfl
@[simp] theorem State.setOct_tiles (n : Nat) (x : Octad) : (s.setOct n x).tiles = s.tiles := rfl
@[simp] theorem State.setOct_lanes (n : Nat) (x : Octad) : (s.setOct n x).lanes = s.lanes := rfl
@[simp] theorem State.setOct_cells (n : Nat) (x : Octad) : (s.setOct n x).cells = s.cells := rfl
@[simp] theorem State.setOct_engs (n : Nat) (x : Octad) : (s.setOct n x).engs = s.engs := rfl
@[simp] theorem State.setOct_profs (n : Nat) (x : Octad) : (s.setOct n x).profs = s.profs := rfl
@[simp] theorem State.setOct_setQ (n : Nat) (x : Octad) : (s.setOct n x).setQ = s.setQ := rfl
@[simp] theorem State.setOct_dpws (n : Nat) (x : Octad) : (s.setOct n x).dpws = s.dpws := rfl
@[simp] theorem State.setOct_trips (n : Nat) (x : Octad) : (s.setOct n x).trips = s.trips := rfl
@[simp] theorem State.setOct_trigs (n : Nat) (x : Octad) : (s.setOct n x).trigs = s.trigs := rfl
@[simp] theorem State.setOct_sports (n : Nat) (x : Octad) : (s.setOct n x).sports = s.sports := rfl
@[simp] theorem State.setOct_svs (n : Nat) (x : Octad) : (s.setOct n x).svs = s.svs := rfl
@[simp] theorem State.setOct_time (n : Nat) (x : Octad) : (s.setOct n x).time = s.time := rfl
@[simp] theorem State.setOct_hif (n : Nat) (x : Octad) : (s.setOct n x).hif = s.hif := rfl
@[simp] theorem State.setOct_rings (n : Nat) (x : Octad) : (s.setOct n x).rings = s.rings := rfl
@[simp] theorem State.setOct_modeReq (n : Nat) (x : Octad) : (s.setOct n x).modeReq = s.modeReq := rfl
@[simp] theorem State.setOct_flt (n : Nat) (x : Octad) : (s.setOct n x).flt = s.flt := rfl
@[simp] theorem State.setOct_kp (n : Nat) (x : Octad) : (s.setOct n x).kp = s.kp := rfl
@[simp] theorem State.setOct_ps (n : Nat) (x : Octad) : (s.setOct n x).ps = s.ps := rfl
@[simp] theorem State.setOct_clk (n : Nat) (x : Octad) : (s.setOct n x).clk = s.clk := rfl
@[simp] theorem State.setOct_epl (n : Nat) (x : Octad) : (s.setOct n x).epl = s.epl := rfl
@[simp] theorem State.setOct_sensors (n : Nat) (x : Octad) : (s.setOct n x).sensors = s.sensors := rfl
@[simp] theorem State.setOct_bel (n : Nat) (x : Octad) : (s.setOct n x).bel = s.bel := rfl
@[simp] theorem State.setOct_reg (n : Nat) (x : Octad) (b : Nat) : (s.setOct n x).reg b = s.reg b := rfl
@[simp] theorem State.setOct_fld (n : Nat) (x : Octad) (b l2 n2 : Nat) : (s.setOct n x).fld b l2 n2 = s.fld b l2 n2 := rfl
@[simp] theorem State.setOct_lane (n : Nat) (x : Octad) (m : Nat) : (s.setOct n x).lane m = s.lane m := rfl
@[simp] theorem State.setOct_cell (n : Nat) (x : Octad) (m : Nat) : (s.setOct n x).cell m = s.cell m := rfl
@[simp] theorem State.setOct_eng (n : Nat) (x : Octad) (m : Nat) : (s.setOct n x).eng m = s.eng m := rfl
@[simp] theorem State.setOct_ring (n : Nat) (x : Octad) (m : Nat) : (s.setOct n x).ring m = s.ring m := rfl
@[simp] theorem State.setOct_now (n : Nat) (x : Octad) : (s.setOct n x).now = s.now := rfl

/-! ### updOct -/

@[simp] theorem State.updOct_pending (n : Nat) (f : Octad → Octad) : (s.updOct n f).pending = s.pending := rfl
@[simp] theorem State.updOct_tick (n : Nat) (f : Octad → Octad) : (s.updOct n f).tick = s.tick := rfl
@[simp] theorem State.updOct_free (n : Nat) (f : Octad → Octad) : (s.updOct n f).free = s.free := rfl
@[simp] theorem State.updOct_regs (n : Nat) (f : Octad → Octad) : (s.updOct n f).regs = s.regs := rfl
@[simp] theorem State.updOct_hotAt (n : Nat) (f : Octad → Octad) : (s.updOct n f).hotAt = s.hotAt := rfl
@[simp] theorem State.updOct_hot (n : Nat) (f : Octad → Octad) : (s.updOct n f).hot = s.hot := rfl
@[simp] theorem State.updOct_wrote (n : Nat) (f : Octad → Octad) : (s.updOct n f).wrote = s.wrote := rfl
@[simp] theorem State.updOct_staging (n : Nat) (f : Octad → Octad) : (s.updOct n f).staging = s.staging := rfl
@[simp] theorem State.updOct_out (n : Nat) (f : Octad → Octad) : (s.updOct n f).out = s.out := rfl
@[simp] theorem State.updOct_txSeen (n : Nat) (f : Octad → Octad) : (s.updOct n f).txSeen = s.txSeen := rfl
@[simp] theorem State.updOct_sys (n : Nat) (f : Octad → Octad) : (s.updOct n f).sys = s.sys := rfl
@[simp] theorem State.updOct_fr (n : Nat) (f : Octad → Octad) : (s.updOct n f).fr = s.fr := rfl
@[simp] theorem State.updOct_octs (n : Nat) (f : Octad → Octad) : (s.updOct n f).octs = s.octs.upd n f := rfl
@[simp] theorem State.updOct_tiles (n : Nat) (f : Octad → Octad) : (s.updOct n f).tiles = s.tiles := rfl
@[simp] theorem State.updOct_lanes (n : Nat) (f : Octad → Octad) : (s.updOct n f).lanes = s.lanes := rfl
@[simp] theorem State.updOct_cells (n : Nat) (f : Octad → Octad) : (s.updOct n f).cells = s.cells := rfl
@[simp] theorem State.updOct_engs (n : Nat) (f : Octad → Octad) : (s.updOct n f).engs = s.engs := rfl
@[simp] theorem State.updOct_profs (n : Nat) (f : Octad → Octad) : (s.updOct n f).profs = s.profs := rfl
@[simp] theorem State.updOct_setQ (n : Nat) (f : Octad → Octad) : (s.updOct n f).setQ = s.setQ := rfl
@[simp] theorem State.updOct_dpws (n : Nat) (f : Octad → Octad) : (s.updOct n f).dpws = s.dpws := rfl
@[simp] theorem State.updOct_trips (n : Nat) (f : Octad → Octad) : (s.updOct n f).trips = s.trips := rfl
@[simp] theorem State.updOct_trigs (n : Nat) (f : Octad → Octad) : (s.updOct n f).trigs = s.trigs := rfl
@[simp] theorem State.updOct_sports (n : Nat) (f : Octad → Octad) : (s.updOct n f).sports = s.sports := rfl
@[simp] theorem State.updOct_svs (n : Nat) (f : Octad → Octad) : (s.updOct n f).svs = s.svs := rfl
@[simp] theorem State.updOct_time (n : Nat) (f : Octad → Octad) : (s.updOct n f).time = s.time := rfl
@[simp] theorem State.updOct_hif (n : Nat) (f : Octad → Octad) : (s.updOct n f).hif = s.hif := rfl
@[simp] theorem State.updOct_rings (n : Nat) (f : Octad → Octad) : (s.updOct n f).rings = s.rings := rfl
@[simp] theorem State.updOct_modeReq (n : Nat) (f : Octad → Octad) : (s.updOct n f).modeReq = s.modeReq := rfl
@[simp] theorem State.updOct_flt (n : Nat) (f : Octad → Octad) : (s.updOct n f).flt = s.flt := rfl
@[simp] theorem State.updOct_kp (n : Nat) (f : Octad → Octad) : (s.updOct n f).kp = s.kp := rfl
@[simp] theorem State.updOct_ps (n : Nat) (f : Octad → Octad) : (s.updOct n f).ps = s.ps := rfl
@[simp] theorem State.updOct_clk (n : Nat) (f : Octad → Octad) : (s.updOct n f).clk = s.clk := rfl
@[simp] theorem State.updOct_epl (n : Nat) (f : Octad → Octad) : (s.updOct n f).epl = s.epl := rfl
@[simp] theorem State.updOct_sensors (n : Nat) (f : Octad → Octad) : (s.updOct n f).sensors = s.sensors := rfl
@[simp] theorem State.updOct_bel (n : Nat) (f : Octad → Octad) : (s.updOct n f).bel = s.bel := rfl
@[simp] theorem State.updOct_reg (n : Nat) (f : Octad → Octad) (b : Nat) : (s.updOct n f).reg b = s.reg b := rfl
@[simp] theorem State.updOct_fld (n : Nat) (f : Octad → Octad) (b l2 n2 : Nat) : (s.updOct n f).fld b l2 n2 = s.fld b l2 n2 := rfl
@[simp] theorem State.updOct_lane (n : Nat) (f : Octad → Octad) (m : Nat) : (s.updOct n f).lane m = s.lane m := rfl
@[simp] theorem State.updOct_cell (n : Nat) (f : Octad → Octad) (m : Nat) : (s.updOct n f).cell m = s.cell m := rfl
@[simp] theorem State.updOct_eng (n : Nat) (f : Octad → Octad) (m : Nat) : (s.updOct n f).eng m = s.eng m := rfl
@[simp] theorem State.updOct_ring (n : Nat) (f : Octad → Octad) (m : Nat) : (s.updOct n f).ring m = s.ring m := rfl
@[simp] theorem State.updOct_now (n : Nat) (f : Octad → Octad) : (s.updOct n f).now = s.now := rfl

/-! ### setLane -/

@[simp] theorem State.setLane_pending (n : Nat) (x : Lane) : (s.setLane n x).pending = s.pending := rfl
@[simp] theorem State.setLane_tick (n : Nat) (x : Lane) : (s.setLane n x).tick = s.tick := rfl
@[simp] theorem State.setLane_free (n : Nat) (x : Lane) : (s.setLane n x).free = s.free := rfl
@[simp] theorem State.setLane_regs (n : Nat) (x : Lane) : (s.setLane n x).regs = s.regs := rfl
@[simp] theorem State.setLane_hotAt (n : Nat) (x : Lane) : (s.setLane n x).hotAt = s.hotAt := rfl
@[simp] theorem State.setLane_hot (n : Nat) (x : Lane) : (s.setLane n x).hot = s.hot := rfl
@[simp] theorem State.setLane_wrote (n : Nat) (x : Lane) : (s.setLane n x).wrote = s.wrote := rfl
@[simp] theorem State.setLane_staging (n : Nat) (x : Lane) : (s.setLane n x).staging = s.staging := rfl
@[simp] theorem State.setLane_out (n : Nat) (x : Lane) : (s.setLane n x).out = s.out := rfl
@[simp] theorem State.setLane_txSeen (n : Nat) (x : Lane) : (s.setLane n x).txSeen = s.txSeen := rfl
@[simp] theorem State.setLane_sys (n : Nat) (x : Lane) : (s.setLane n x).sys = s.sys := rfl
@[simp] theorem State.setLane_fr (n : Nat) (x : Lane) : (s.setLane n x).fr = s.fr := rfl
@[simp] theorem State.setLane_octs (n : Nat) (x : Lane) : (s.setLane n x).octs = s.octs := rfl
@[simp] theorem State.setLane_tiles (n : Nat) (x : Lane) : (s.setLane n x).tiles = s.tiles := rfl
@[simp] theorem State.setLane_lanes (n : Nat) (x : Lane) : (s.setLane n x).lanes = s.lanes.set n x := rfl
@[simp] theorem State.setLane_cells (n : Nat) (x : Lane) : (s.setLane n x).cells = s.cells := rfl
@[simp] theorem State.setLane_engs (n : Nat) (x : Lane) : (s.setLane n x).engs = s.engs := rfl
@[simp] theorem State.setLane_profs (n : Nat) (x : Lane) : (s.setLane n x).profs = s.profs := rfl
@[simp] theorem State.setLane_setQ (n : Nat) (x : Lane) : (s.setLane n x).setQ = s.setQ := rfl
@[simp] theorem State.setLane_dpws (n : Nat) (x : Lane) : (s.setLane n x).dpws = s.dpws := rfl
@[simp] theorem State.setLane_trips (n : Nat) (x : Lane) : (s.setLane n x).trips = s.trips := rfl
@[simp] theorem State.setLane_trigs (n : Nat) (x : Lane) : (s.setLane n x).trigs = s.trigs := rfl
@[simp] theorem State.setLane_sports (n : Nat) (x : Lane) : (s.setLane n x).sports = s.sports := rfl
@[simp] theorem State.setLane_svs (n : Nat) (x : Lane) : (s.setLane n x).svs = s.svs := rfl
@[simp] theorem State.setLane_time (n : Nat) (x : Lane) : (s.setLane n x).time = s.time := rfl
@[simp] theorem State.setLane_hif (n : Nat) (x : Lane) : (s.setLane n x).hif = s.hif := rfl
@[simp] theorem State.setLane_rings (n : Nat) (x : Lane) : (s.setLane n x).rings = s.rings := rfl
@[simp] theorem State.setLane_modeReq (n : Nat) (x : Lane) : (s.setLane n x).modeReq = s.modeReq := rfl
@[simp] theorem State.setLane_flt (n : Nat) (x : Lane) : (s.setLane n x).flt = s.flt := rfl
@[simp] theorem State.setLane_kp (n : Nat) (x : Lane) : (s.setLane n x).kp = s.kp := rfl
@[simp] theorem State.setLane_ps (n : Nat) (x : Lane) : (s.setLane n x).ps = s.ps := rfl
@[simp] theorem State.setLane_clk (n : Nat) (x : Lane) : (s.setLane n x).clk = s.clk := rfl
@[simp] theorem State.setLane_epl (n : Nat) (x : Lane) : (s.setLane n x).epl = s.epl := rfl
@[simp] theorem State.setLane_sensors (n : Nat) (x : Lane) : (s.setLane n x).sensors = s.sensors := rfl
@[simp] theorem State.setLane_bel (n : Nat) (x : Lane) : (s.setLane n x).bel = s.bel := rfl
@[simp] theorem State.setLane_reg (n : Nat) (x : Lane) (b : Nat) : (s.setLane n x).reg b = s.reg b := rfl
@[simp] theorem State.setLane_fld (n : Nat) (x : Lane) (b l2 n2 : Nat) : (s.setLane n x).fld b l2 n2 = s.fld b l2 n2 := rfl
@[simp] theorem State.setLane_oct (n : Nat) (x : Lane) (m : Nat) : (s.setLane n x).oct m = s.oct m := rfl
@[simp] theorem State.setLane_cell (n : Nat) (x : Lane) (m : Nat) : (s.setLane n x).cell m = s.cell m := rfl
@[simp] theorem State.setLane_eng (n : Nat) (x : Lane) (m : Nat) : (s.setLane n x).eng m = s.eng m := rfl
@[simp] theorem State.setLane_ring (n : Nat) (x : Lane) (m : Nat) : (s.setLane n x).ring m = s.ring m := rfl
@[simp] theorem State.setLane_now (n : Nat) (x : Lane) : (s.setLane n x).now = s.now := rfl

/-! ### updLane -/

@[simp] theorem State.updLane_pending (n : Nat) (f : Lane → Lane) : (s.updLane n f).pending = s.pending := rfl
@[simp] theorem State.updLane_tick (n : Nat) (f : Lane → Lane) : (s.updLane n f).tick = s.tick := rfl
@[simp] theorem State.updLane_free (n : Nat) (f : Lane → Lane) : (s.updLane n f).free = s.free := rfl
@[simp] theorem State.updLane_regs (n : Nat) (f : Lane → Lane) : (s.updLane n f).regs = s.regs := rfl
@[simp] theorem State.updLane_hotAt (n : Nat) (f : Lane → Lane) : (s.updLane n f).hotAt = s.hotAt := rfl
@[simp] theorem State.updLane_hot (n : Nat) (f : Lane → Lane) : (s.updLane n f).hot = s.hot := rfl
@[simp] theorem State.updLane_wrote (n : Nat) (f : Lane → Lane) : (s.updLane n f).wrote = s.wrote := rfl
@[simp] theorem State.updLane_staging (n : Nat) (f : Lane → Lane) : (s.updLane n f).staging = s.staging := rfl
@[simp] theorem State.updLane_out (n : Nat) (f : Lane → Lane) : (s.updLane n f).out = s.out := rfl
@[simp] theorem State.updLane_txSeen (n : Nat) (f : Lane → Lane) : (s.updLane n f).txSeen = s.txSeen := rfl
@[simp] theorem State.updLane_sys (n : Nat) (f : Lane → Lane) : (s.updLane n f).sys = s.sys := rfl
@[simp] theorem State.updLane_fr (n : Nat) (f : Lane → Lane) : (s.updLane n f).fr = s.fr := rfl
@[simp] theorem State.updLane_octs (n : Nat) (f : Lane → Lane) : (s.updLane n f).octs = s.octs := rfl
@[simp] theorem State.updLane_tiles (n : Nat) (f : Lane → Lane) : (s.updLane n f).tiles = s.tiles := rfl
@[simp] theorem State.updLane_lanes (n : Nat) (f : Lane → Lane) : (s.updLane n f).lanes = s.lanes.upd n f := rfl
@[simp] theorem State.updLane_cells (n : Nat) (f : Lane → Lane) : (s.updLane n f).cells = s.cells := rfl
@[simp] theorem State.updLane_engs (n : Nat) (f : Lane → Lane) : (s.updLane n f).engs = s.engs := rfl
@[simp] theorem State.updLane_profs (n : Nat) (f : Lane → Lane) : (s.updLane n f).profs = s.profs := rfl
@[simp] theorem State.updLane_setQ (n : Nat) (f : Lane → Lane) : (s.updLane n f).setQ = s.setQ := rfl
@[simp] theorem State.updLane_dpws (n : Nat) (f : Lane → Lane) : (s.updLane n f).dpws = s.dpws := rfl
@[simp] theorem State.updLane_trips (n : Nat) (f : Lane → Lane) : (s.updLane n f).trips = s.trips := rfl
@[simp] theorem State.updLane_trigs (n : Nat) (f : Lane → Lane) : (s.updLane n f).trigs = s.trigs := rfl
@[simp] theorem State.updLane_sports (n : Nat) (f : Lane → Lane) : (s.updLane n f).sports = s.sports := rfl
@[simp] theorem State.updLane_svs (n : Nat) (f : Lane → Lane) : (s.updLane n f).svs = s.svs := rfl
@[simp] theorem State.updLane_time (n : Nat) (f : Lane → Lane) : (s.updLane n f).time = s.time := rfl
@[simp] theorem State.updLane_hif (n : Nat) (f : Lane → Lane) : (s.updLane n f).hif = s.hif := rfl
@[simp] theorem State.updLane_rings (n : Nat) (f : Lane → Lane) : (s.updLane n f).rings = s.rings := rfl
@[simp] theorem State.updLane_modeReq (n : Nat) (f : Lane → Lane) : (s.updLane n f).modeReq = s.modeReq := rfl
@[simp] theorem State.updLane_flt (n : Nat) (f : Lane → Lane) : (s.updLane n f).flt = s.flt := rfl
@[simp] theorem State.updLane_kp (n : Nat) (f : Lane → Lane) : (s.updLane n f).kp = s.kp := rfl
@[simp] theorem State.updLane_ps (n : Nat) (f : Lane → Lane) : (s.updLane n f).ps = s.ps := rfl
@[simp] theorem State.updLane_clk (n : Nat) (f : Lane → Lane) : (s.updLane n f).clk = s.clk := rfl
@[simp] theorem State.updLane_epl (n : Nat) (f : Lane → Lane) : (s.updLane n f).epl = s.epl := rfl
@[simp] theorem State.updLane_sensors (n : Nat) (f : Lane → Lane) : (s.updLane n f).sensors = s.sensors := rfl
@[simp] theorem State.updLane_bel (n : Nat) (f : Lane → Lane) : (s.updLane n f).bel = s.bel := rfl
@[simp] theorem State.updLane_reg (n : Nat) (f : Lane → Lane) (b : Nat) : (s.updLane n f).reg b = s.reg b := rfl
@[simp] theorem State.updLane_fld (n : Nat) (f : Lane → Lane) (b l2 n2 : Nat) : (s.updLane n f).fld b l2 n2 = s.fld b l2 n2 := rfl
@[simp] theorem State.updLane_oct (n : Nat) (f : Lane → Lane) (m : Nat) : (s.updLane n f).oct m = s.oct m := rfl
@[simp] theorem State.updLane_cell (n : Nat) (f : Lane → Lane) (m : Nat) : (s.updLane n f).cell m = s.cell m := rfl
@[simp] theorem State.updLane_eng (n : Nat) (f : Lane → Lane) (m : Nat) : (s.updLane n f).eng m = s.eng m := rfl
@[simp] theorem State.updLane_ring (n : Nat) (f : Lane → Lane) (m : Nat) : (s.updLane n f).ring m = s.ring m := rfl
@[simp] theorem State.updLane_now (n : Nat) (f : Lane → Lane) : (s.updLane n f).now = s.now := rfl

/-! ### updCell -/

@[simp] theorem State.updCell_pending (n : Nat) (f : Cell → Cell) : (s.updCell n f).pending = s.pending := rfl
@[simp] theorem State.updCell_tick (n : Nat) (f : Cell → Cell) : (s.updCell n f).tick = s.tick := rfl
@[simp] theorem State.updCell_free (n : Nat) (f : Cell → Cell) : (s.updCell n f).free = s.free := rfl
@[simp] theorem State.updCell_regs (n : Nat) (f : Cell → Cell) : (s.updCell n f).regs = s.regs := rfl
@[simp] theorem State.updCell_hotAt (n : Nat) (f : Cell → Cell) : (s.updCell n f).hotAt = s.hotAt := rfl
@[simp] theorem State.updCell_hot (n : Nat) (f : Cell → Cell) : (s.updCell n f).hot = s.hot := rfl
@[simp] theorem State.updCell_wrote (n : Nat) (f : Cell → Cell) : (s.updCell n f).wrote = s.wrote := rfl
@[simp] theorem State.updCell_staging (n : Nat) (f : Cell → Cell) : (s.updCell n f).staging = s.staging := rfl
@[simp] theorem State.updCell_out (n : Nat) (f : Cell → Cell) : (s.updCell n f).out = s.out := rfl
@[simp] theorem State.updCell_txSeen (n : Nat) (f : Cell → Cell) : (s.updCell n f).txSeen = s.txSeen := rfl
@[simp] theorem State.updCell_sys (n : Nat) (f : Cell → Cell) : (s.updCell n f).sys = s.sys := rfl
@[simp] theorem State.updCell_fr (n : Nat) (f : Cell → Cell) : (s.updCell n f).fr = s.fr := rfl
@[simp] theorem State.updCell_octs (n : Nat) (f : Cell → Cell) : (s.updCell n f).octs = s.octs := rfl
@[simp] theorem State.updCell_tiles (n : Nat) (f : Cell → Cell) : (s.updCell n f).tiles = s.tiles := rfl
@[simp] theorem State.updCell_lanes (n : Nat) (f : Cell → Cell) : (s.updCell n f).lanes = s.lanes := rfl
@[simp] theorem State.updCell_cells (n : Nat) (f : Cell → Cell) : (s.updCell n f).cells = s.cells.upd n f := rfl
@[simp] theorem State.updCell_engs (n : Nat) (f : Cell → Cell) : (s.updCell n f).engs = s.engs := rfl
@[simp] theorem State.updCell_profs (n : Nat) (f : Cell → Cell) : (s.updCell n f).profs = s.profs := rfl
@[simp] theorem State.updCell_setQ (n : Nat) (f : Cell → Cell) : (s.updCell n f).setQ = s.setQ := rfl
@[simp] theorem State.updCell_dpws (n : Nat) (f : Cell → Cell) : (s.updCell n f).dpws = s.dpws := rfl
@[simp] theorem State.updCell_trips (n : Nat) (f : Cell → Cell) : (s.updCell n f).trips = s.trips := rfl
@[simp] theorem State.updCell_trigs (n : Nat) (f : Cell → Cell) : (s.updCell n f).trigs = s.trigs := rfl
@[simp] theorem State.updCell_sports (n : Nat) (f : Cell → Cell) : (s.updCell n f).sports = s.sports := rfl
@[simp] theorem State.updCell_svs (n : Nat) (f : Cell → Cell) : (s.updCell n f).svs = s.svs := rfl
@[simp] theorem State.updCell_time (n : Nat) (f : Cell → Cell) : (s.updCell n f).time = s.time := rfl
@[simp] theorem State.updCell_hif (n : Nat) (f : Cell → Cell) : (s.updCell n f).hif = s.hif := rfl
@[simp] theorem State.updCell_rings (n : Nat) (f : Cell → Cell) : (s.updCell n f).rings = s.rings := rfl
@[simp] theorem State.updCell_modeReq (n : Nat) (f : Cell → Cell) : (s.updCell n f).modeReq = s.modeReq := rfl
@[simp] theorem State.updCell_flt (n : Nat) (f : Cell → Cell) : (s.updCell n f).flt = s.flt := rfl
@[simp] theorem State.updCell_kp (n : Nat) (f : Cell → Cell) : (s.updCell n f).kp = s.kp := rfl
@[simp] theorem State.updCell_ps (n : Nat) (f : Cell → Cell) : (s.updCell n f).ps = s.ps := rfl
@[simp] theorem State.updCell_clk (n : Nat) (f : Cell → Cell) : (s.updCell n f).clk = s.clk := rfl
@[simp] theorem State.updCell_epl (n : Nat) (f : Cell → Cell) : (s.updCell n f).epl = s.epl := rfl
@[simp] theorem State.updCell_sensors (n : Nat) (f : Cell → Cell) : (s.updCell n f).sensors = s.sensors := rfl
@[simp] theorem State.updCell_bel (n : Nat) (f : Cell → Cell) : (s.updCell n f).bel = s.bel := rfl
@[simp] theorem State.updCell_reg (n : Nat) (f : Cell → Cell) (b : Nat) : (s.updCell n f).reg b = s.reg b := rfl
@[simp] theorem State.updCell_fld (n : Nat) (f : Cell → Cell) (b l2 n2 : Nat) : (s.updCell n f).fld b l2 n2 = s.fld b l2 n2 := rfl
@[simp] theorem State.updCell_oct (n : Nat) (f : Cell → Cell) (m : Nat) : (s.updCell n f).oct m = s.oct m := rfl
@[simp] theorem State.updCell_lane (n : Nat) (f : Cell → Cell) (m : Nat) : (s.updCell n f).lane m = s.lane m := rfl
@[simp] theorem State.updCell_eng (n : Nat) (f : Cell → Cell) (m : Nat) : (s.updCell n f).eng m = s.eng m := rfl
@[simp] theorem State.updCell_ring (n : Nat) (f : Cell → Cell) (m : Nat) : (s.updCell n f).ring m = s.ring m := rfl
@[simp] theorem State.updCell_now (n : Nat) (f : Cell → Cell) : (s.updCell n f).now = s.now := rfl

/-! ### mapOctCells -/

@[simp] theorem State.mapOctCells_pending (n : Nat) (f : Cell → Cell) : (s.mapOctCells n f).pending = s.pending := rfl
@[simp] theorem State.mapOctCells_tick (n : Nat) (f : Cell → Cell) : (s.mapOctCells n f).tick = s.tick := rfl
@[simp] theorem State.mapOctCells_free (n : Nat) (f : Cell → Cell) : (s.mapOctCells n f).free = s.free := rfl
@[simp] theorem State.mapOctCells_regs (n : Nat) (f : Cell → Cell) : (s.mapOctCells n f).regs = s.regs := rfl
@[simp] theorem State.mapOctCells_hotAt (n : Nat) (f : Cell → Cell) : (s.mapOctCells n f).hotAt = s.hotAt := rfl
@[simp] theorem State.mapOctCells_hot (n : Nat) (f : Cell → Cell) : (s.mapOctCells n f).hot = s.hot := rfl
@[simp] theorem State.mapOctCells_wrote (n : Nat) (f : Cell → Cell) : (s.mapOctCells n f).wrote = s.wrote := rfl
@[simp] theorem State.mapOctCells_staging (n : Nat) (f : Cell → Cell) : (s.mapOctCells n f).staging = s.staging := rfl
@[simp] theorem State.mapOctCells_out (n : Nat) (f : Cell → Cell) : (s.mapOctCells n f).out = s.out := rfl
@[simp] theorem State.mapOctCells_txSeen (n : Nat) (f : Cell → Cell) : (s.mapOctCells n f).txSeen = s.txSeen := rfl
@[simp] theorem State.mapOctCells_sys (n : Nat) (f : Cell → Cell) : (s.mapOctCells n f).sys = s.sys := rfl
@[simp] theorem State.mapOctCells_fr (n : Nat) (f : Cell → Cell) : (s.mapOctCells n f).fr = s.fr := rfl
@[simp] theorem State.mapOctCells_octs (n : Nat) (f : Cell → Cell) : (s.mapOctCells n f).octs = s.octs := rfl
@[simp] theorem State.mapOctCells_tiles (n : Nat) (f : Cell → Cell) : (s.mapOctCells n f).tiles = s.tiles := rfl
@[simp] theorem State.mapOctCells_lanes (n : Nat) (f : Cell → Cell) : (s.mapOctCells n f).lanes = s.lanes := rfl
@[simp] theorem State.mapOctCells_engs (n : Nat) (f : Cell → Cell) : (s.mapOctCells n f).engs = s.engs := rfl
@[simp] theorem State.mapOctCells_profs (n : Nat) (f : Cell → Cell) : (s.mapOctCells n f).profs = s.profs := rfl
@[simp] theorem State.mapOctCells_setQ (n : Nat) (f : Cell → Cell) : (s.mapOctCells n f).setQ = s.setQ := rfl
@[simp] theorem State.mapOctCells_dpws (n : Nat) (f : Cell → Cell) : (s.mapOctCells n f).dpws = s.dpws := rfl
@[simp] theorem State.mapOctCells_trips (n : Nat) (f : Cell → Cell) : (s.mapOctCells n f).trips = s.trips := rfl
@[simp] theorem State.mapOctCells_trigs (n : Nat) (f : Cell → Cell) : (s.mapOctCells n f).trigs = s.trigs := rfl
@[simp] theorem State.mapOctCells_sports (n : Nat) (f : Cell → Cell) : (s.mapOctCells n f).sports = s.sports := rfl
@[simp] theorem State.mapOctCells_svs (n : Nat) (f : Cell → Cell) : (s.mapOctCells n f).svs = s.svs := rfl
@[simp] theorem State.mapOctCells_time (n : Nat) (f : Cell → Cell) : (s.mapOctCells n f).time = s.time := rfl
@[simp] theorem State.mapOctCells_hif (n : Nat) (f : Cell → Cell) : (s.mapOctCells n f).hif = s.hif := rfl
@[simp] theorem State.mapOctCells_rings (n : Nat) (f : Cell → Cell) : (s.mapOctCells n f).rings = s.rings := rfl
@[simp] theorem State.mapOctCells_modeReq (n : Nat) (f : Cell → Cell) : (s.mapOctCells n f).modeReq = s.modeReq := rfl
@[simp] theorem State.mapOctCells_flt (n : Nat) (f : Cell → Cell) : (s.mapOctCells n f).flt = s.flt := rfl
@[simp] theorem State.mapOctCells_kp (n : Nat) (f : Cell → Cell) : (s.mapOctCells n f).kp = s.kp := rfl
@[simp] theorem State.mapOctCells_ps (n : Nat) (f : Cell → Cell) : (s.mapOctCells n f).ps = s.ps := rfl
@[simp] theorem State.mapOctCells_clk (n : Nat) (f : Cell → Cell) : (s.mapOctCells n f).clk = s.clk := rfl
@[simp] theorem State.mapOctCells_epl (n : Nat) (f : Cell → Cell) : (s.mapOctCells n f).epl = s.epl := rfl
@[simp] theorem State.mapOctCells_sensors (n : Nat) (f : Cell → Cell) : (s.mapOctCells n f).sensors = s.sensors := rfl
@[simp] theorem State.mapOctCells_bel (n : Nat) (f : Cell → Cell) : (s.mapOctCells n f).bel = s.bel := rfl
@[simp] theorem State.mapOctCells_reg (n : Nat) (f : Cell → Cell) (b : Nat) : (s.mapOctCells n f).reg b = s.reg b := rfl
@[simp] theorem State.mapOctCells_fld (n : Nat) (f : Cell → Cell) (b l2 n2 : Nat) : (s.mapOctCells n f).fld b l2 n2 = s.fld b l2 n2 := rfl
@[simp] theorem State.mapOctCells_oct (n : Nat) (f : Cell → Cell) (m : Nat) : (s.mapOctCells n f).oct m = s.oct m := rfl
@[simp] theorem State.mapOctCells_lane (n : Nat) (f : Cell → Cell) (m : Nat) : (s.mapOctCells n f).lane m = s.lane m := rfl
@[simp] theorem State.mapOctCells_eng (n : Nat) (f : Cell → Cell) (m : Nat) : (s.mapOctCells n f).eng m = s.eng m := rfl
@[simp] theorem State.mapOctCells_ring (n : Nat) (f : Cell → Cell) (m : Nat) : (s.mapOctCells n f).ring m = s.ring m := rfl
@[simp] theorem State.mapOctCells_now (n : Nat) (f : Cell → Cell) : (s.mapOctCells n f).now = s.now := rfl

/-! ### setEng -/

@[simp] theorem State.setEng_pending (n : Nat) (x : Engine) : (s.setEng n x).pending = s.pending := rfl
@[simp] theorem State.setEng_tick (n : Nat) (x : Engine) : (s.setEng n x).tick = s.tick := rfl
@[simp] theorem State.setEng_free (n : Nat) (x : Engine) : (s.setEng n x).free = s.free := rfl
@[simp] theorem State.setEng_regs (n : Nat) (x : Engine) : (s.setEng n x).regs = s.regs := rfl
@[simp] theorem State.setEng_hotAt (n : Nat) (x : Engine) : (s.setEng n x).hotAt = s.hotAt := rfl
@[simp] theorem State.setEng_hot (n : Nat) (x : Engine) : (s.setEng n x).hot = s.hot := rfl
@[simp] theorem State.setEng_wrote (n : Nat) (x : Engine) : (s.setEng n x).wrote = s.wrote := rfl
@[simp] theorem State.setEng_staging (n : Nat) (x : Engine) : (s.setEng n x).staging = s.staging := rfl
@[simp] theorem State.setEng_out (n : Nat) (x : Engine) : (s.setEng n x).out = s.out := rfl
@[simp] theorem State.setEng_txSeen (n : Nat) (x : Engine) : (s.setEng n x).txSeen = s.txSeen := rfl
@[simp] theorem State.setEng_sys (n : Nat) (x : Engine) : (s.setEng n x).sys = s.sys := rfl
@[simp] theorem State.setEng_fr (n : Nat) (x : Engine) : (s.setEng n x).fr = s.fr := rfl
@[simp] theorem State.setEng_octs (n : Nat) (x : Engine) : (s.setEng n x).octs = s.octs := rfl
@[simp] theorem State.setEng_tiles (n : Nat) (x : Engine) : (s.setEng n x).tiles = s.tiles := rfl
@[simp] theorem State.setEng_lanes (n : Nat) (x : Engine) : (s.setEng n x).lanes = s.lanes := rfl
@[simp] theorem State.setEng_cells (n : Nat) (x : Engine) : (s.setEng n x).cells = s.cells := rfl
@[simp] theorem State.setEng_engs (n : Nat) (x : Engine) : (s.setEng n x).engs = s.engs.set n x := rfl
@[simp] theorem State.setEng_profs (n : Nat) (x : Engine) : (s.setEng n x).profs = s.profs := rfl
@[simp] theorem State.setEng_setQ (n : Nat) (x : Engine) : (s.setEng n x).setQ = s.setQ := rfl
@[simp] theorem State.setEng_dpws (n : Nat) (x : Engine) : (s.setEng n x).dpws = s.dpws := rfl
@[simp] theorem State.setEng_trips (n : Nat) (x : Engine) : (s.setEng n x).trips = s.trips := rfl
@[simp] theorem State.setEng_trigs (n : Nat) (x : Engine) : (s.setEng n x).trigs = s.trigs := rfl
@[simp] theorem State.setEng_sports (n : Nat) (x : Engine) : (s.setEng n x).sports = s.sports := rfl
@[simp] theorem State.setEng_svs (n : Nat) (x : Engine) : (s.setEng n x).svs = s.svs := rfl
@[simp] theorem State.setEng_time (n : Nat) (x : Engine) : (s.setEng n x).time = s.time := rfl
@[simp] theorem State.setEng_hif (n : Nat) (x : Engine) : (s.setEng n x).hif = s.hif := rfl
@[simp] theorem State.setEng_rings (n : Nat) (x : Engine) : (s.setEng n x).rings = s.rings := rfl
@[simp] theorem State.setEng_modeReq (n : Nat) (x : Engine) : (s.setEng n x).modeReq = s.modeReq := rfl
@[simp] theorem State.setEng_flt (n : Nat) (x : Engine) : (s.setEng n x).flt = s.flt := rfl
@[simp] theorem State.setEng_kp (n : Nat) (x : Engine) : (s.setEng n x).kp = s.kp := rfl
@[simp] theorem State.setEng_ps (n : Nat) (x : Engine) : (s.setEng n x).ps = s.ps := rfl
@[simp] theorem State.setEng_clk (n : Nat) (x : Engine) : (s.setEng n x).clk = s.clk := rfl
@[simp] theorem State.setEng_epl (n : Nat) (x : Engine) : (s.setEng n x).epl = s.epl := rfl
@[simp] theorem State.setEng_sensors (n : Nat) (x : Engine) : (s.setEng n x).sensors = s.sensors := rfl
@[simp] theorem State.setEng_bel (n : Nat) (x : Engine) : (s.setEng n x).bel = s.bel := rfl
@[simp] theorem State.setEng_reg (n : Nat) (x : Engine) (b : Nat) : (s.setEng n x).reg b = s.reg b := rfl
@[simp] theorem State.setEng_fld (n : Nat) (x : Engine) (b l2 n2 : Nat) : (s.setEng n x).fld b l2 n2 = s.fld b l2 n2 := rfl
@[simp] theorem State.setEng_oct (n : Nat) (x : Engine) (m : Nat) : (s.setEng n x).oct m = s.oct m := rfl
@[simp] theorem State.setEng_lane (n : Nat) (x : Engine) (m : Nat) : (s.setEng n x).lane m = s.lane m := rfl
@[simp] theorem State.setEng_cell (n : Nat) (x : Engine) (m : Nat) : (s.setEng n x).cell m = s.cell m := rfl
@[simp] theorem State.setEng_ring (n : Nat) (x : Engine) (m : Nat) : (s.setEng n x).ring m = s.ring m := rfl
@[simp] theorem State.setEng_now (n : Nat) (x : Engine) : (s.setEng n x).now = s.now := rfl

/-! ### updEng -/

@[simp] theorem State.updEng_pending (n : Nat) (f : Engine → Engine) : (s.updEng n f).pending = s.pending := rfl
@[simp] theorem State.updEng_tick (n : Nat) (f : Engine → Engine) : (s.updEng n f).tick = s.tick := rfl
@[simp] theorem State.updEng_free (n : Nat) (f : Engine → Engine) : (s.updEng n f).free = s.free := rfl
@[simp] theorem State.updEng_regs (n : Nat) (f : Engine → Engine) : (s.updEng n f).regs = s.regs := rfl
@[simp] theorem State.updEng_hotAt (n : Nat) (f : Engine → Engine) : (s.updEng n f).hotAt = s.hotAt := rfl
@[simp] theorem State.updEng_hot (n : Nat) (f : Engine → Engine) : (s.updEng n f).hot = s.hot := rfl
@[simp] theorem State.updEng_wrote (n : Nat) (f : Engine → Engine) : (s.updEng n f).wrote = s.wrote := rfl
@[simp] theorem State.updEng_staging (n : Nat) (f : Engine → Engine) : (s.updEng n f).staging = s.staging := rfl
@[simp] theorem State.updEng_out (n : Nat) (f : Engine → Engine) : (s.updEng n f).out = s.out := rfl
@[simp] theorem State.updEng_txSeen (n : Nat) (f : Engine → Engine) : (s.updEng n f).txSeen = s.txSeen := rfl
@[simp] theorem State.updEng_sys (n : Nat) (f : Engine → Engine) : (s.updEng n f).sys = s.sys := rfl
@[simp] theorem State.updEng_fr (n : Nat) (f : Engine → Engine) : (s.updEng n f).fr = s.fr := rfl
@[simp] theorem State.updEng_octs (n : Nat) (f : Engine → Engine) : (s.updEng n f).octs = s.octs := rfl
@[simp] theorem State.updEng_tiles (n : Nat) (f : Engine → Engine) : (s.updEng n f).tiles = s.tiles := rfl
@[simp] theorem State.updEng_lanes (n : Nat) (f : Engine → Engine) : (s.updEng n f).lanes = s.lanes := rfl
@[simp] theorem State.updEng_cells (n : Nat) (f : Engine → Engine) : (s.updEng n f).cells = s.cells := rfl
@[simp] theorem State.updEng_engs (n : Nat) (f : Engine → Engine) : (s.updEng n f).engs = s.engs.upd n f := rfl
@[simp] theorem State.updEng_profs (n : Nat) (f : Engine → Engine) : (s.updEng n f).profs = s.profs := rfl
@[simp] theorem State.updEng_setQ (n : Nat) (f : Engine → Engine) : (s.updEng n f).setQ = s.setQ := rfl
@[simp] theorem State.updEng_dpws (n : Nat) (f : Engine → Engine) : (s.updEng n f).dpws = s.dpws := rfl
@[simp] theorem State.updEng_trips (n : Nat) (f : Engine → Engine) : (s.updEng n f).trips = s.trips := rfl
@[simp] theorem State.updEng_trigs (n : Nat) (f : Engine → Engine) : (s.updEng n f).trigs = s.trigs := rfl
@[simp] theorem State.updEng_sports (n : Nat) (f : Engine → Engine) : (s.updEng n f).sports = s.sports := rfl
@[simp] theorem State.updEng_svs (n : Nat) (f : Engine → Engine) : (s.updEng n f).svs = s.svs := rfl
@[simp] theorem State.updEng_time (n : Nat) (f : Engine → Engine) : (s.updEng n f).time = s.time := rfl
@[simp] theorem State.updEng_hif (n : Nat) (f : Engine → Engine) : (s.updEng n f).hif = s.hif := rfl
@[simp] theorem State.updEng_rings (n : Nat) (f : Engine → Engine) : (s.updEng n f).rings = s.rings := rfl
@[simp] theorem State.updEng_modeReq (n : Nat) (f : Engine → Engine) : (s.updEng n f).modeReq = s.modeReq := rfl
@[simp] theorem State.updEng_flt (n : Nat) (f : Engine → Engine) : (s.updEng n f).flt = s.flt := rfl
@[simp] theorem State.updEng_kp (n : Nat) (f : Engine → Engine) : (s.updEng n f).kp = s.kp := rfl
@[simp] theorem State.updEng_ps (n : Nat) (f : Engine → Engine) : (s.updEng n f).ps = s.ps := rfl
@[simp] theorem State.updEng_clk (n : Nat) (f : Engine → Engine) : (s.updEng n f).clk = s.clk := rfl
@[simp] theorem State.updEng_epl (n : Nat) (f : Engine → Engine) : (s.updEng n f).epl = s.epl := rfl
@[simp] theorem State.updEng_sensors (n : Nat) (f : Engine → Engine) : (s.updEng n f).sensors = s.sensors := rfl
@[simp] theorem State.updEng_bel (n : Nat) (f : Engine → Engine) : (s.updEng n f).bel = s.bel := rfl
@[simp] theorem State.updEng_reg (n : Nat) (f : Engine → Engine) (b : Nat) : (s.updEng n f).reg b = s.reg b := rfl
@[simp] theorem State.updEng_fld (n : Nat) (f : Engine → Engine) (b l2 n2 : Nat) : (s.updEng n f).fld b l2 n2 = s.fld b l2 n2 := rfl
@[simp] theorem State.updEng_oct (n : Nat) (f : Engine → Engine) (m : Nat) : (s.updEng n f).oct m = s.oct m := rfl
@[simp] theorem State.updEng_lane (n : Nat) (f : Engine → Engine) (m : Nat) : (s.updEng n f).lane m = s.lane m := rfl
@[simp] theorem State.updEng_cell (n : Nat) (f : Engine → Engine) (m : Nat) : (s.updEng n f).cell m = s.cell m := rfl
@[simp] theorem State.updEng_ring (n : Nat) (f : Engine → Engine) (m : Nat) : (s.updEng n f).ring m = s.ring m := rfl
@[simp] theorem State.updEng_now (n : Nat) (f : Engine → Engine) : (s.updEng n f).now = s.now := rfl

/-! ### updRing -/

@[simp] theorem State.updRing_pending (n : Nat) (f : Ring → Ring) : (s.updRing n f).pending = s.pending := rfl
@[simp] theorem State.updRing_tick (n : Nat) (f : Ring → Ring) : (s.updRing n f).tick = s.tick := rfl
@[simp] theorem State.updRing_free (n : Nat) (f : Ring → Ring) : (s.updRing n f).free = s.free := rfl
@[simp] theorem State.updRing_regs (n : Nat) (f : Ring → Ring) : (s.updRing n f).regs = s.regs := rfl
@[simp] theorem State.updRing_hotAt (n : Nat) (f : Ring → Ring) : (s.updRing n f).hotAt = s.hotAt := rfl
@[simp] theorem State.updRing_hot (n : Nat) (f : Ring → Ring) : (s.updRing n f).hot = s.hot := rfl
@[simp] theorem State.updRing_wrote (n : Nat) (f : Ring → Ring) : (s.updRing n f).wrote = s.wrote := rfl
@[simp] theorem State.updRing_staging (n : Nat) (f : Ring → Ring) : (s.updRing n f).staging = s.staging := rfl
@[simp] theorem State.updRing_out (n : Nat) (f : Ring → Ring) : (s.updRing n f).out = s.out := rfl
@[simp] theorem State.updRing_txSeen (n : Nat) (f : Ring → Ring) : (s.updRing n f).txSeen = s.txSeen := rfl
@[simp] theorem State.updRing_sys (n : Nat) (f : Ring → Ring) : (s.updRing n f).sys = s.sys := rfl
@[simp] theorem State.updRing_fr (n : Nat) (f : Ring → Ring) : (s.updRing n f).fr = s.fr := rfl
@[simp] theorem State.updRing_octs (n : Nat) (f : Ring → Ring) : (s.updRing n f).octs = s.octs := rfl
@[simp] theorem State.updRing_tiles (n : Nat) (f : Ring → Ring) : (s.updRing n f).tiles = s.tiles := rfl
@[simp] theorem State.updRing_lanes (n : Nat) (f : Ring → Ring) : (s.updRing n f).lanes = s.lanes := rfl
@[simp] theorem State.updRing_cells (n : Nat) (f : Ring → Ring) : (s.updRing n f).cells = s.cells := rfl
@[simp] theorem State.updRing_engs (n : Nat) (f : Ring → Ring) : (s.updRing n f).engs = s.engs := rfl
@[simp] theorem State.updRing_profs (n : Nat) (f : Ring → Ring) : (s.updRing n f).profs = s.profs := rfl
@[simp] theorem State.updRing_setQ (n : Nat) (f : Ring → Ring) : (s.updRing n f).setQ = s.setQ := rfl
@[simp] theorem State.updRing_dpws (n : Nat) (f : Ring → Ring) : (s.updRing n f).dpws = s.dpws := rfl
@[simp] theorem State.updRing_trips (n : Nat) (f : Ring → Ring) : (s.updRing n f).trips = s.trips := rfl
@[simp] theorem State.updRing_trigs (n : Nat) (f : Ring → Ring) : (s.updRing n f).trigs = s.trigs := rfl
@[simp] theorem State.updRing_sports (n : Nat) (f : Ring → Ring) : (s.updRing n f).sports = s.sports := rfl
@[simp] theorem State.updRing_svs (n : Nat) (f : Ring → Ring) : (s.updRing n f).svs = s.svs := rfl
@[simp] theorem State.updRing_time (n : Nat) (f : Ring → Ring) : (s.updRing n f).time = s.time := rfl
@[simp] theorem State.updRing_hif (n : Nat) (f : Ring → Ring) : (s.updRing n f).hif = s.hif := rfl
@[simp] theorem State.updRing_rings (n : Nat) (f : Ring → Ring) : (s.updRing n f).rings = s.rings.upd n f := rfl
@[simp] theorem State.updRing_modeReq (n : Nat) (f : Ring → Ring) : (s.updRing n f).modeReq = s.modeReq := rfl
@[simp] theorem State.updRing_flt (n : Nat) (f : Ring → Ring) : (s.updRing n f).flt = s.flt := rfl
@[simp] theorem State.updRing_kp (n : Nat) (f : Ring → Ring) : (s.updRing n f).kp = s.kp := rfl
@[simp] theorem State.updRing_ps (n : Nat) (f : Ring → Ring) : (s.updRing n f).ps = s.ps := rfl
@[simp] theorem State.updRing_clk (n : Nat) (f : Ring → Ring) : (s.updRing n f).clk = s.clk := rfl
@[simp] theorem State.updRing_epl (n : Nat) (f : Ring → Ring) : (s.updRing n f).epl = s.epl := rfl
@[simp] theorem State.updRing_sensors (n : Nat) (f : Ring → Ring) : (s.updRing n f).sensors = s.sensors := rfl
@[simp] theorem State.updRing_bel (n : Nat) (f : Ring → Ring) : (s.updRing n f).bel = s.bel := rfl
@[simp] theorem State.updRing_reg (n : Nat) (f : Ring → Ring) (b : Nat) : (s.updRing n f).reg b = s.reg b := rfl
@[simp] theorem State.updRing_fld (n : Nat) (f : Ring → Ring) (b l2 n2 : Nat) : (s.updRing n f).fld b l2 n2 = s.fld b l2 n2 := rfl
@[simp] theorem State.updRing_oct (n : Nat) (f : Ring → Ring) (m : Nat) : (s.updRing n f).oct m = s.oct m := rfl
@[simp] theorem State.updRing_lane (n : Nat) (f : Ring → Ring) (m : Nat) : (s.updRing n f).lane m = s.lane m := rfl
@[simp] theorem State.updRing_cell (n : Nat) (f : Ring → Ring) (m : Nat) : (s.updRing n f).cell m = s.cell m := rfl
@[simp] theorem State.updRing_eng (n : Nat) (f : Ring → Ring) (m : Nat) : (s.updRing n f).eng m = s.eng m := rfl
@[simp] theorem State.updRing_now (n : Nat) (f : Ring → Ring) : (s.updRing n f).now = s.now := rfl

end Sys2Proof.Machine
end

