-- ==== Sys2Proof/Laws/Regs.lean ====
section
/-! SUPPORT. Register words and staging bytes: what an offset or an address reads as after a write, and that writes keep the
canonical forms. -/

namespace Sys2Proof.Machine

/-! ## Registers -/

theorem lookReg_putReg_ne {a b : Nat} (h : b ≠ a) (w : Word) (l : List (Nat × Word)) :
    lookReg b (putReg a w l) = lookReg b l := by
  have h' : ¬a = b := fun e => h e.symm
  induction l with
  | nil => unfold putReg; split <;> simp [lookReg, h']
  | cons e r ih =>
    obtain ⟨k, v⟩ := e
    unfold putReg
    by_cases hak : a = k
    · subst hak
      simp only [if_true]
      split <;> simp [lookReg, h']
    · simp only [hak, if_false]
      split
      · split <;> simp [lookReg, h']
      · simp [lookReg, ih]

theorem State.reg_setReg_ne (s : State) {a b : Nat} (h : b ≠ a) (w : Word) : (s.setReg a w).reg b = s.reg b :=
  lookReg_putReg_ne h w s.regs

theorem State.reg_setFld_ne (s : State) {a b : Nat} (h : b ≠ a) (lo len v : Nat) : (s.setFld a lo len v).reg b = s.reg b :=
  s.reg_setReg_ne h _

theorem State.reg_flag_ne (s : State) {a b : Nat} (h : b ≠ a) (i : Nat) : (s.flag a i).reg b = s.reg b :=
  s.reg_setReg_ne h _

theorem lookReg_of_lt {a : Nat} {l : List (Nat × Word)} (h : ∀ e ∈ l, a < e.1) : lookReg a l = resetWord a := by
  induction l with
  | nil => rfl
  | cons e r ih =>
    have h1 : a < e.1 := h e (by simp)
    have h2 : ¬e.1 = a := by omega
    simp [lookReg, h2, ih fun x hx => h x (by simp [hx])]

/-- In a list whose offsets rise, a word put at an offset is what the offset reads as. -/
theorem lookReg_putReg_same {a : Nat} {w : Word} {l : List (Nat × Word)} (h : (l.map (·.1)).Pairwise (· < ·)) :
    lookReg a (putReg a w l) = w := by
  induction l with
  | nil => unfold putReg; split <;> simp_all [lookReg]
  | cons e r ih =>
    obtain ⟨k, v⟩ := e
    simp only [List.map_cons, List.pairwise_cons] at h
    have hr : ∀ x ∈ r, k < x.1 := fun x hx => h.1 x.1 (List.mem_map_of_mem hx)
    unfold putReg
    split
    · rename_i hk
      subst hk
      split
      · rename_i hw
        rw [lookReg_of_lt hr, hw]
      · simp [lookReg]
    · rename_i hk
      have hk' : ¬k = a := fun e => hk e.symm
      split
      · rename_i hlt
        split
        · rename_i hw
          simp [lookReg, hk', lookReg_of_lt fun x hx => Nat.lt_trans hlt (hr x hx), hw]
        · simp [lookReg]
      · simp [lookReg, hk', ih h.2]

/-- The canonical form of the registers is kept by a write. -/
theorem mem_putReg {a : Nat} {w : Word} {l : List (Nat × Word)} {e : Nat × Word} (h : e ∈ putReg a w l) :
    (e = (a, w) ∧ w ≠ resetWord a) ∨ e ∈ l := by
  induction l with
  | nil => unfold putReg at h; split at h <;> simp_all
  | cons x r ih =>
    obtain ⟨k, v⟩ := x
    unfold putReg at h
    by_cases hak : a = k
    · subst hak
      simp only [if_true] at h
      split at h
      · exact .inr (.tail _ h)
      · rcases List.mem_cons.mp h with h | h
        · exact .inl ⟨h, ‹_›⟩
        · exact .inr (.tail _ h)
    · simp only [hak, if_false] at h
      split at h
      · split at h
        · exact .inr h
        · rcases List.mem_cons.mp h with h | h
          · exact .inl ⟨h, ‹_›⟩
          · exact .inr h
      · rcases List.mem_cons.mp h with h | h
        · exact .inr (h ▸ .head _)
        · exact (ih h).imp id (.tail _)

theorem pairwise_putReg {a : Nat} {w : Word} {l : List (Nat × Word)} (h : l.Pairwise fun x y => x.1 < y.1) :
    (putReg a w l).Pairwise fun x y => x.1 < y.1 := by
  induction l with
  | nil => unfold putReg; split <;> simp
  | cons x r ih =>
    obtain ⟨k, v⟩ := x
    have hc := List.pairwise_cons.mp h
    unfold putReg
    by_cases hak : a = k
    · subst hak
      simp only [if_true]
      split
      · exact hc.2
      · exact List.pairwise_cons.mpr ⟨hc.1, hc.2⟩
    · simp only [hak, if_false]
      split
      · rename_i hlt
        split
        · exact h
        · refine List.pairwise_cons.mpr ⟨fun y hy => ?_, h⟩
          rcases List.mem_cons.mp hy with rfl | hy
          · exact hlt
          · exact Nat.lt_trans hlt (hc.1 y hy)
      · refine List.pairwise_cons.mpr ⟨fun y hy => ?_, ih hc.2⟩
        rcases mem_putReg hy with ⟨rfl, -⟩ | hy
        · simp; omega
        · exact hc.1 y hy

/-! ## Staging memory -/

theorem memRead_memWrite_ne {a b : Nat} (h : b ≠ a) (v : Byte) (m : List Host.Cell) :
    memRead b (memWrite a v m) = memRead b m := by
  have h' : ¬a = b := fun e => h e.symm
  induction m with
  | nil => unfold memWrite; (repeat' split) <;> simp [memRead, h']
  | cons e r ih =>
    obtain ⟨k, w⟩ := e
    unfold memWrite
    repeat' split
    all_goals simp_all [memRead]

theorem memRead_of_lt {a : Nat} {m : List Host.Cell} (h : ∀ e ∈ m, a < e.1) : memRead a m = stagingUnwritten := by
  induction m with
  | nil => rfl
  | cons e r ih =>
    have h1 : a < e.1 := h e (by simp)
    have h2 : ¬e.1 = a := by omega
    simp [memRead, h2, ih fun x hx => h x (by simp [hx])]

/-- The canonical form, as an order and a property of every entry. -/
theorem Memory.wf_iff (m : List Host.Cell) : Memory.wf m = true ↔
    (m.Pairwise fun x y => x.1 < y.1) ∧ ∀ e ∈ m, e.1 < 131072 ∧ e.2 ≠ stagingUnwritten := by
  induction m with
  | nil => simp [Memory.wf]
  | cons e r ih =>
    obtain ⟨a, v⟩ := e
    cases r with
    | nil => simp [Memory.wf]
    | cons e r =>
      obtain ⟨b, w⟩ := e
      simp only [Memory.wf, Bool.and_eq_true, decide_eq_true_eq, ih]
      constructor
      · rintro ⟨⟨hab, hv⟩, hp, hm⟩
        have hb := hm (b, w) (by simp)
        refine ⟨List.pairwise_cons.mpr ⟨fun y hy => ?_, hp⟩, fun e he => ?_⟩
        · rcases List.mem_cons.mp hy with rfl | hy
          · exact hab
          · exact Nat.lt_trans hab ((List.pairwise_cons.mp hp).1 y hy)
        · rcases List.mem_cons.mp he with rfl | he
          · exact ⟨by simp at hb ⊢; omega, hv⟩
          · exact hm e he
      · rintro ⟨hp, hm⟩
        have hc := List.pairwise_cons.mp hp
        exact ⟨⟨hc.1 (b, w) (by simp), (hm (a, v) (by simp)).2⟩, hc.2, fun e he => hm e (.tail _ he)⟩

theorem mem_memWrite {a : Nat} {v : Byte} {m : List Host.Cell} {e : Host.Cell} (h : e ∈ memWrite a v m) :
    (e = (a, v) ∧ a < 131072 ∧ v ≠ stagingUnwritten) ∨ e ∈ m := by
  induction m with
  | nil => unfold memWrite at h; (repeat' split at h) <;> simp_all
  | cons x r ih =>
    obtain ⟨k, w⟩ := x
    unfold memWrite at h
    repeat' split at h
    all_goals simp_all
    all_goals grind

theorem memRead_memWrite_same {a : Nat} {v : Byte} {m : List Host.Cell} (ha : a < 131072) (h : Memory.wf m = true) :
    memRead a (memWrite a v m) = v := by
  rw [Memory.wf_iff] at h
  obtain ⟨hp, -⟩ := h
  have hna : ¬131072 ≤ a := by omega
  induction m with
  | nil => unfold memWrite; (repeat' split) <;> simp_all [memRead]
  | cons e r ih =>
    obtain ⟨k, w⟩ := e
    have hc := List.pairwise_cons.mp hp
    unfold memWrite
    simp only [hna, if_false]
    split
    · rename_i hk
      subst hk
      split
      · rename_i hw
        rw [memRead_of_lt hc.1, hw]
      · simp [memRead]
    · rename_i hk
      have hk' : ¬k = a := fun e => hk e.symm
      split
      · rename_i hlt
        split
        · rename_i hw
          have hr : ∀ x ∈ r, a < x.1 := fun x hx => Nat.lt_trans hlt (hc.1 x hx)
          simp [memRead, hk', memRead_of_lt hr, hw]
        · simp [memRead]
      · simp [memRead, hk', ih hc.2]

/-- Writing a byte keeps the canonical form. -/
theorem Memory.wf_memWrite {a : Nat} {v : Byte} {m : List Host.Cell} (h : Memory.wf m = true) :
    Memory.wf (memWrite a v m) = true := by
  rw [Memory.wf_iff] at h ⊢
  refine ⟨?_, fun e he => ?_⟩
  · obtain ⟨hp, -⟩ := h
    induction m with
    | nil => unfold memWrite; (repeat' split) <;> simp
    | cons x r ih =>
      obtain ⟨k, w⟩ := x
      have hc := List.pairwise_cons.mp hp
      unfold memWrite
      split
      · exact hp
      · split
        · rename_i hk
          subst hk
          split
          · exact hc.2
          · exact List.pairwise_cons.mpr ⟨hc.1, hc.2⟩
        · rename_i hk
          split
          · rename_i hlt
            split
            · exact hp
            · refine List.pairwise_cons.mpr ⟨fun y hy => ?_, hp⟩
              rcases List.mem_cons.mp hy with rfl | hy
              · exact hlt
              · exact Nat.lt_trans hlt (hc.1 y hy)
          · refine List.pairwise_cons.mpr ⟨fun y hy => ?_, ih hc.2⟩
            rcases mem_memWrite hy with ⟨rfl, -⟩ | hy
            · simp; omega
            · exact hc.1 y hy
  · rcases mem_memWrite he with ⟨rfl, h1, h2⟩ | he
    · exact ⟨h1, h2⟩
    · exact h.2 e he

theorem Memory.wf_memWriteList {a : Nat} {vs : List Byte} {m : List Host.Cell} (h : Memory.wf m = true) :
    Memory.wf (memWriteList a vs m) = true := by
  induction vs generalizing a m with
  | nil => exact h
  | cons v r ih => exact ih (Memory.wf_memWrite h)

/-- A byte outside the written span reads as before. -/
theorem memRead_memWriteList_out {a b : Nat} {vs : List Byte} {m : List Host.Cell} (h : b < a ∨ a + vs.length ≤ b) :
    memRead b (memWriteList a vs m) = memRead b m := by
  induction vs generalizing a m with
  | nil => rfl
  | cons v r ih =>
    simp only [List.length_cons] at h
    rw [memWriteList, ih (by omega), memRead_memWrite_ne (by omega)]

/-- A byte of the written span reads as the byte written to it. -/
theorem memRead_memWriteList_in {a i : Nat} {vs : List Byte} {m : List Host.Cell} (h : Memory.wf m = true) (hi : i < vs.length)
    (ha : a + vs.length ≤ 131072) : memRead (a + i) (memWriteList a vs m) = vs[i] := by
  induction vs generalizing a i m with
  | nil => simp at hi
  | cons v r ih =>
    simp only [List.length_cons] at hi ha
    cases i with
    | zero =>
      simp only [memWriteList, Nat.add_zero, List.getElem_cons_zero]
      rw [memRead_memWriteList_out (by omega), memRead_memWrite_same (by omega) h]
    | succ j =>
      have := ih (a := a + 1) (i := j) (Memory.wf_memWrite (a := a) (v := v) h) (by omega) (by omega)
      rw [show a + (j + 1) = a + 1 + j by omega]
      simpa [memWriteList] using this

end Sys2Proof.Machine
end

