-- ==== Sys2Proof/Laws/Tab.lean ====
section
/-! SUPPORT. The sparse table: what a key reads as after it, or another one, has been set. -/

namespace Sys2Proof.Tab

variable {α : Type}

theorem look_put_same (d : α) (i : Nat) (v : α) (l : List (Nat × α)) : look d (put i v l) i = v := by
  induction l with
  | nil => simp [put, look]
  | cons e r ih =>
    obtain ⟨k, w⟩ := e
    unfold put
    split
    · simp [look]
    · rename_i h
      split
      · simp [look]
      · have hk : ¬k = i := fun e => h e.symm
        simp [look, hk, ih]

theorem look_put_ne (d : α) {i j : Nat} (h : j ≠ i) (v : α) (l : List (Nat × α)) : look d (put i v l) j = look d l j := by
  have h' : ¬i = j := fun e => h e.symm
  induction l with
  | nil => simp [put, look, h']
  | cons e r ih =>
    obtain ⟨k, w⟩ := e
    unfold put
    split
    · rename_i hik
      subst hik
      simp [look, h']
    · split
      · simp [look, h']
      · simp [look, ih]

@[simp] theorem get_set_same (t : Tab α) (i : Nat) (v : α) : (t.set i v).get i = v := look_put_same ..

theorem get_set_ne (t : Tab α) {i j : Nat} (h : j ≠ i) (v : α) : (t.set i v).get j = t.get j := look_put_ne _ h ..

theorem get_set (t : Tab α) (i j : Nat) (v : α) : (t.set i v).get j = if j = i then v else t.get j := by
  split
  · rename_i h; subst h; exact get_set_same ..
  · rename_i h; exact get_set_ne _ h _

@[simp] theorem get_upd_same (t : Tab α) (i : Nat) (f : α → α) : (t.upd i f).get i = f (t.get i) := get_set_same ..

theorem get_upd_ne (t : Tab α) {i j : Nat} (h : j ≠ i) (f : α → α) : (t.upd i f).get j = t.get j := get_set_ne _ h _

theorem get_upd (t : Tab α) (i j : Nat) (f : α → α) : (t.upd i f).get j = if j = i then f (t.get i) else t.get j :=
  get_set ..

@[simp] theorem get_empty (d : α) (i : Nat) : (Tab.empty d).get i = d := rfl

theorem look_map (d : α) (f : Nat → α → α) (l : List (Nat × α)) (i : Nat) (hd : f i d = d) :
    look d (l.map fun e => (e.1, f e.1 e.2)) i = f i (look d l i) := by
  induction l with
  | nil => simp [look, hd]
  | cons e r ih =>
    obtain ⟨k, w⟩ := e
    simp only [List.map_cons, look]
    split
    · rename_i h; subst h; rfl
    · exact ih

/-- A function that keeps the default value acts on every key. -/
theorem get_mapAll (t : Tab α) (f : Nat → α → α) (i : Nat) (hd : f i t.dflt = t.dflt) : (t.mapAll f).get i = f i (t.get i) :=
  look_map _ _ _ _ hd

end Sys2Proof.Tab
end

