-- ==== Sys2Proof/Laws/Raise.lean ====
section
/-! SUPPORT. Raising a fault with its reaction: what it leaves as it was, said once for the whole chain of reactions. -/

namespace Sys2Proof.Machine

namespace RaiseFrame

theorem refl (s : State) : RaiseFrame s s :=
  ⟨rfl, fun _ _ => rfl, fun _ => rfl, fun _ => rfl, fun _ => rfl, List.prefix_rfl, fun _ h => h, fun _ => .inl rfl, fun _ => .inl rfl⟩

theorem trans {s t u : State} (h : RaiseFrame s t) (k : RaiseFrame t u) : RaiseFrame s u := by
  refine ⟨k.core.trans h.core, fun a ha => (k.reg a ha).trans (h.reg a ha), fun c => (k.cell c).trans (h.cell c),
    fun n => (k.oct n).trans (h.oct n), fun e => (k.eng e).trans (h.eng e), h.out.trans k.out,
    fun c hc => k.retired c (h.retired c hc), fun n => ?_, fun l => ?_⟩
  · rcases k.state n with e | e | ⟨e, e'⟩
    · rw [e]; exact h.state n
    · exact .inr (.inl e)
    · rcases h.state n with f | f | ⟨f, -⟩
      · exact .inr (.inr ⟨e, f ▸ e'⟩)
      · rw [f] at e'; exact absurd e' (by decide)
      · rw [f] at e'; exact absurd e' (by decide)
  · rcases k.lane l with e | e
    · rw [e]; exact h.lane l
    · exact .inr e

/-- A change of the fields that `core` drops, other than those with a clause of their own. -/
theorem of_eq {s t : State} (h : t.core = s.core) (hr : t.regs = s.regs) (hc : t.cells = s.cells) (ho : t.octs = s.octs)
    (he : t.engs = s.engs) (hout : t.out = s.out) (hl : t.lanes = s.lanes) : RaiseFrame s t :=
  ⟨h, fun a _ => by simp only [State.reg, hr], fun c => by simp only [State.cell, hc], fun n => by simp only [State.oct, ho],
    fun e => by simp only [State.eng, he], ⟨[], by rw [hout, List.append_nil]⟩,
    fun c h => by simpa only [State.cell, hc] using h, fun n => .inl (by simp only [State.oct, ho]),
    fun l => .inl (by simp only [State.lane, hl])⟩

theorem setKp (s : State) (r : Option Record) (d : Bool) : RaiseFrame s { s with kp := { s.kp with fallRec := r, fallDirty := d } } :=
  of_eq rfl rfl rfl rfl rfl rfl rfl
theorem setFlt (s : State) (x : Collector) : RaiseFrame s { s with flt := x } := of_eq rfl rfl rfl rfl rfl rfl rfl
theorem setDpws (s : State) (x : Tab Dpwm) : RaiseFrame s { s with dpws := x } := of_eq rfl rfl rfl rfl rfl rfl rfl
theorem setSports (s : State) (x : Tab SPort) : RaiseFrame s { s with sports := x } := of_eq rfl rfl rfl rfl rfl rfl rfl
theorem setSvs (s : State) (x : Tab SvStream) : RaiseFrame s { s with svs := x } := of_eq rfl rfl rfl rfl rfl rfl rfl
theorem setModeReq (s : State) (x : Option ModeReq) : RaiseFrame s { s with modeReq := x } := of_eq rfl rfl rfl rfl rfl rfl rfl
theorem setDev (s : State) (x : DevState) : RaiseFrame s { s with sys := { s.sys with dev := x } } :=
  of_eq rfl rfl rfl rfl rfl rfl rfl
theorem setLocked (s : State) (x : DevState) (b : Bool) (f : Collector) (g : Commit → Bool) :
    RaiseFrame s { s with sys := { s.sys with dev := x, sbkReq := b }, flt := f,
                          ps := { s.ps with commit := s.ps.commit.map fun c => { c with locked := g c } } } := by
  refine of_eq ?_ rfl rfl rfl rfl rfl rfl
  simp only [State.core, Option.map_map]
  rfl

/-- A change of registers from 0x200000 on, and of which flags hardware has just set. -/
theorem of_regs {s t : State} (h : t.core = s.core) (hr : ∀ a, a < 0x200000 → t.reg a = s.reg a) (hc : t.cells = s.cells)
    (ho : t.octs = s.octs) (he : t.engs = s.engs) (hout : t.out = s.out) (hl : t.lanes = s.lanes) : RaiseFrame s t :=
  ⟨h, hr, fun c => by simp only [State.cell, hc], fun n => by simp only [State.oct, ho],
    fun e => by simp only [State.eng, he], ⟨[], by rw [hout, List.append_nil]⟩,
    fun c h => by simpa only [State.cell, hc] using h, fun n => .inl (by simp only [State.oct, ho]),
    fun l => .inl (by simp only [State.lane, hl])⟩

theorem flag {s : State} {a i : Nat} (h : 0x200000 ≤ a) : RaiseFrame s (s.flag a i) :=
  of_regs rfl (fun b hb => s.reg_flag_ne (by omega) i) rfl rfl rfl rfl rfl

theorem setFld {s : State} {a lo len v : Nat} (h : 0x200000 ≤ a) : RaiseFrame s (s.setFld a lo len v) :=
  of_regs rfl (fun b hb => s.reg_setFld_ne (by omega) lo len v) rfl rfl rfl rfl rfl

theorem count {s : State} {a n : Nat} (h : 0x200000 ≤ a) : RaiseFrame s (s.count a n) := by
  simp only [State.count, State.countAt]
  split
  · exact setFld h
  · exact (setFld h).trans (setFld h)

theorem emit (s : State) (o : Output) : RaiseFrame s (s.emit o) :=
  ⟨rfl, fun _ _ => rfl, fun _ => rfl, fun _ => rfl, fun _ => rfl, List.prefix_append .., fun _ h => h, fun _ => .inl rfl,
    fun _ => .inl rfl⟩

theorem updOct {s : State} {n : Nat} {f : Octad → Octad} (h : ∀ o, (f o).core = o.core) (hst : ∀ o, (f o).state = o.state) :
    RaiseFrame s (s.updOct n f) :=
  ⟨rfl, fun _ _ => rfl, fun _ => rfl, fun m => by
    simp only [State.oct, State.updOct, Tab.get_upd]
    split
    · rename_i e; subst e; exact h _
    · rfl, fun _ => rfl, List.prefix_rfl, fun _ h => h, fun m => .inl (by
    simp only [State.oct, State.updOct, Tab.get_upd]
    split
    · rename_i e; subst e; exact hst _
    · rfl), fun _ => .inl rfl⟩

/-- An octad that was active enters Blocked; any octad may become fenced. -/
theorem setState {s t : State} {n : Nat} {x : OctState} (h : RaiseFrame s t)
    (hx : x = .fenced ∨ (x = .blocked ∧ (s.oct n).state.active = true)) :
    RaiseFrame s (t.updOct n fun o => { o with state := x }) := by
  refine ⟨h.core, h.reg, h.cell, fun m => ?_, h.eng, h.out, h.retired, fun m => ?_, h.lane⟩
  · rw [← h.oct m]
    simp only [State.oct, State.updOct, Tab.get_upd]
    split
    · rename_i e; subst e; rfl
    · rfl
  · simp only [State.oct, State.updOct, Tab.get_upd]
    split
    · rename_i e; subst e
      rcases hx with rfl | ⟨rfl, ha⟩
      · exact .inr (.inl rfl)
      · exact .inr (.inr ⟨rfl, ha⟩)
    · exact h.state m

theorem updCell {s : State} {n : Nat} {f : Cell → Cell} (h : ∀ c, (f c).core = c.core)
    (hr : ∀ c, c.retired = true → (f c).retired = true) : RaiseFrame s (s.updCell n f) :=
  ⟨rfl, fun _ _ => rfl, fun m => by
    simp only [State.cell, State.updCell, Tab.get_upd]
    split
    · rename_i e; subst e; exact h _
    · rfl, fun _ => rfl, fun _ => rfl, List.prefix_rfl, fun m hm => by
    simp only [State.cell, State.updCell, Tab.get_upd]
    split
    · rename_i e; subst e; exact hr _ hm
    · exact hm, fun _ => .inl rfl, fun _ => .inl rfl⟩

theorem look_map_retired (d : Cell) (f : Nat → Cell → Cell) (hf : ∀ i c, c.retired = true → (f i c).retired = true)
    (l : List (Nat × Cell)) (i : Nat) (h : (Tab.look d l i).retired = true) :
    (Tab.look d (l.map fun e => (e.1, f e.1 e.2)) i).retired = true := by
  induction l with
  | nil => exact h
  | cons e r ih =>
    obtain ⟨k, w⟩ := e
    simp only [List.map_cons, Tab.look] at h ⊢
    split at h
    · rename_i hk; rw [if_pos hk]; exact hf _ _ h
    · rename_i hk; rw [if_neg hk]; exact ih h

theorem look_map_core (d : Cell) (f : Nat → Cell → Cell) (hf : ∀ i c, (f i c).core = c.core) (l : List (Nat × Cell)) (i : Nat) :
    (Tab.look d (l.map fun e => (e.1, f e.1 e.2)) i).core = (Tab.look d l i).core := by
  induction l with
  | nil => rfl
  | cons e r ih =>
    obtain ⟨k, w⟩ := e
    simp only [List.map_cons, Tab.look]
    split
    · exact hf _ _
    · exact ih

theorem mapOctCells {s : State} {n : Nat} {f : Cell → Cell} (h : ∀ c, (f c).core = c.core)
    (hr : ∀ c, (f c).retired = c.retired) : RaiseFrame s (s.mapOctCells n f) := by
  refine ⟨rfl, fun _ _ => rfl, fun m => ?_, fun _ => rfl, fun _ => rfl, List.prefix_rfl, fun m hm => ?_, fun _ => .inl rfl,
    fun _ => .inl rfl⟩
  · refine look_map_core s.cells.dflt (fun i c => if i / 512 = n then f c else c) (fun i c => ?_) s.cells.ents m
    show (if i / 512 = n then f c else c).core = c.core
    split
    · exact h c
    · rfl
  · refine look_map_retired s.cells.dflt (fun i c => if i / 512 = n then f c else c) (fun i c hc => ?_) s.cells.ents m hm
    show (if i / 512 = n then f c else c).retired = true
    split
    · rw [hr]; exact hc
    · exact hc

theorem ite {s a b : State} {c : Prop} [Decidable c] (ha : RaiseFrame s a) (hb : RaiseFrame s b) :
    RaiseFrame s (if c then a else b) := by split <;> assumption

theorem forNat {f : Nat → State → State} (h : ∀ i s, RaiseFrame s (f i s)) (n : Nat) (s : State) :
    RaiseFrame s (forNat n f s) := by
  induction n with
  | zero => exact refl s
  | succ n ih => exact ih.trans (h _ _)

theorem foldl {α : Type} {f : State → α → State} (h : ∀ s a, RaiseFrame s (f s a)) (l : List α) (s : State) :
    RaiseFrame s (l.foldl f s) := by
  induction l generalizing s with
  | nil => exact refl s
  | cons a r ih => exact (h s a).trans (ih _)

/-! ### The fields that no reaction touches -/

theorem pending_eq {s t : State} (h : RaiseFrame s t) : t.pending = s.pending :=
  (congrArg State.pending h.core : t.core.pending = s.core.pending)

theorem tick_eq {s t : State} (h : RaiseFrame s t) : t.tick = s.tick :=
  (congrArg State.tick h.core : t.core.tick = s.core.tick)

theorem free_eq {s t : State} (h : RaiseFrame s t) : t.free = s.free :=
  (congrArg State.free h.core : t.core.free = s.core.free)

theorem staging_eq {s t : State} (h : RaiseFrame s t) : t.staging = s.staging :=
  (congrArg State.staging h.core : t.core.staging = s.core.staging)

theorem fr_eq {s t : State} (h : RaiseFrame s t) : t.fr = s.fr :=
  (congrArg State.fr h.core : t.core.fr = s.core.fr)

theorem tiles_eq {s t : State} (h : RaiseFrame s t) : t.tiles = s.tiles :=
  (congrArg State.tiles h.core : t.core.tiles = s.core.tiles)

theorem profs_eq {s t : State} (h : RaiseFrame s t) : t.profs = s.profs :=
  (congrArg State.profs h.core : t.core.profs = s.core.profs)

theorem setQ_eq {s t : State} (h : RaiseFrame s t) : t.setQ = s.setQ :=
  (congrArg State.setQ h.core : t.core.setQ = s.core.setQ)

theorem trips_eq {s t : State} (h : RaiseFrame s t) : t.trips = s.trips :=
  (congrArg State.trips h.core : t.core.trips = s.core.trips)

theorem trigs_eq {s t : State} (h : RaiseFrame s t) : t.trigs = s.trigs :=
  (congrArg State.trigs h.core : t.core.trigs = s.core.trigs)

theorem time_eq {s t : State} (h : RaiseFrame s t) : t.time = s.time :=
  (congrArg State.time h.core : t.core.time = s.core.time)

theorem hif_eq {s t : State} (h : RaiseFrame s t) : t.hif = s.hif :=
  (congrArg State.hif h.core : t.core.hif = s.core.hif)

theorem rings_eq {s t : State} (h : RaiseFrame s t) : t.rings = s.rings :=
  (congrArg State.rings h.core : t.core.rings = s.core.rings)

theorem kpA_eq {s t : State} (h : RaiseFrame s t) : t.kp.a = s.kp.a :=
  (congrArg (fun u => u.kp.a) h.core : t.core.kp.a = s.core.kp.a)

theorem kpB_eq {s t : State} (h : RaiseFrame s t) : t.kp.b = s.kp.b :=
  (congrArg (fun u => u.kp.b) h.core : t.core.kp.b = s.core.kp.b)

theorem image_eq {s t : State} (h : RaiseFrame s t) : t.ps.image = s.ps.image :=
  (congrArg (fun u => u.ps.image) h.core : t.core.ps.image = s.core.ps.image)

theorem clk_eq {s t : State} (h : RaiseFrame s t) : t.clk = s.clk :=
  (congrArg State.clk h.core : t.core.clk = s.core.clk)

theorem epl_eq {s t : State} (h : RaiseFrame s t) : t.epl = s.epl :=
  (congrArg State.epl h.core : t.core.epl = s.core.epl)

theorem sensors_eq {s t : State} (h : RaiseFrame s t) : t.sensors = s.sensors :=
  (congrArg State.sensors h.core : t.core.sensors = s.core.sensors)

theorem bel_eq {s t : State} (h : RaiseFrame s t) : t.bel = s.bel :=
  (congrArg State.bel h.core : t.core.bel = s.core.bel)

theorem now_eq {s t : State} (h : RaiseFrame s t) : t.now = s.now := by
  simp only [State.now, h.tick_eq]

theorem c0_eq {s t : State} (h : RaiseFrame s t) (c : Nat) : (t.cell c).c0 = (s.cell c).c0 :=
  (congrArg Cell.c0 (h.cell c) : (t.cell c).core.c0 = (s.cell c).core.c0)

theorem smooth_eq {s t : State} (h : RaiseFrame s t) (c : Nat) : (t.cell c).smooth = (s.cell c).smooth :=
  (congrArg Cell.smooth (h.cell c) : (t.cell c).core.smooth = (s.cell c).core.smooth)

/-! ### The parts of a reaction -/

theorem abortLanes (s : State) (n o : Nat) : RaiseFrame s (s.abortLanes n o) :=
  forNat (fun _ _ => ite (emit _ _) (refl _)) _ _

theorem immediateBlock (s : State) (n : Nat) : RaiseFrame s (s.immediateBlock n) := by
  refine (abortLanes s n 0).trans ?_
  exact updOct (fun _ => rfl) fun _ => rfl

theorem discardWindow (s : State) (n : Nat) : RaiseFrame s (s.discardWindow n) := by
  unfold State.discardWindow
  extract_lets s1
  have h : RaiseFrame s s1 := ite (flag (by simp only [octBase]; omega)) (refl s)
  have h2 : RaiseFrame s (s1.mapOctCells n Cell.clearWindow) := h.trans (mapOctCells (fun c => by unfold Cell.clearWindow; split <;> rfl) fun c => by
    unfold Cell.clearWindow; split <;> rfl)
  refine h2.trans ?_
  exact updOct (fun _ => rfl) fun _ => rfl

theorem haltSelection (s : State) (n : Nat) : RaiseFrame s (s.haltSelection n) := by
  unfold State.haltSelection
  extract_lets s0 s1 s2
  have h0 : RaiseFrame s s0 := mapOctCells (fun _ => rfl) fun _ => rfl
  have h : RaiseFrame s1 s2 := mapOctCells (fun _ => rfl) fun _ => rfl
  refine ((h0.trans (discardWindow s0 n)).trans h).trans ?_
  exact updOct (fun _ => rfl) fun _ => rfl

theorem forceSafe (s : State) (p : Nat → Bool) : RaiseFrame s (s.forceSafe p) :=
  forNat (fun n u => by
    show RaiseFrame u (if _ then _ else _)
    exact ite (setDpws u _) (refl u)) _ _

theorem settleDev (s : State) : RaiseFrame s s.settleDev := by
  unfold State.settleDev
  refine ite ?_ (refl s)
  exact setDev s _

theorem toBlocked (s : State) (n : Nat) : RaiseFrame s (s.toBlocked n) := by
  unfold State.toBlocked
  dsimp only
  have h := immediateBlock s n
  generalize s.immediateBlock n = u at h ⊢
  refine h.trans ?_
  split
  · rename_i ha
    exact (setState (haltSelection u n) (.inr ⟨rfl, ha⟩)).trans (settleDev _)
  · split
    · exact updOct (fun _ => rfl) fun _ => rfl
    · exact refl u

theorem updEng_armed (s : State) (e : Nat) (x : Option Nat) : RaiseFrame s (s.updEng e fun y => { y with armed := x }) :=
  ⟨rfl, fun _ _ => rfl, fun _ => rfl, fun _ => rfl, fun m => by
    simp only [State.eng, State.updEng, Tab.get_upd]
    split
    · rename_i h; subst h; rfl
    · rfl, List.prefix_rfl, fun _ h => h, fun _ => .inl rfl, fun _ => .inl rfl⟩

theorem modeLeave (s : State) (e : Nat) (r : Option Nat) : RaiseFrame s (s.modeLeave e r) := by
  unfold State.modeLeave
  split
  · refine ite ?_ (refl s)
    exact (updEng_armed s e none).trans (setModeReq _ _)
  · exact refl s

theorem fenceOctad (s : State) (n : Nat) : RaiseFrame s (s.fenceOctad n) := by
  unfold State.fenceOctad
  refine ite (refl s) ?_
  dsimp only
  have h1 := setState (n := n) ((immediateBlock s n).trans (haltSelection (s.immediateBlock n) n)) (.inl rfl)
  exact h1.trans ((modeLeave _ n none).trans ((forceSafe _ _).trans (settleDev _)))

theorem enqueue (s : State) (r : Report) : RaiseFrame s (s.enqueue r) := by
  unfold State.enqueue
  extract_lets q
  refine ite (setFlt s _) ?_
  exact (setFlt s _).trans (count (by omega))

theorem enterActive (s : State) (code src : Nat) (cls : FClass) (cb : Byte) (fn : Bool) (mask id : Nat) :
    RaiseFrame s (s.enterActive code src cls cb fn mask id).1 := by
  simp only [State.enterActive]
  split
  · exact setFlt s _
  · split <;> exact setFlt s _

theorem mergeFallback (s : State) (code : Nat) (cls : FClass) : RaiseFrame s (s.mergeFallback code cls) := by
  unfold State.mergeFallback
  split
  · exact refl s
  · exact setKp s _ _

theorem assertFaultN (s : State) : RaiseFrame s s.assertFaultN := setFlt s _

theorem openWindow (s : State) (k : WinKind) (o c u : Nat) (d : Option Nat) : RaiseFrame s (s.openWindow k o c u d) := setFlt s _

theorem windowDone (s : State) (k : WinKind) : RaiseFrame s (s.windowDone k) := setFlt s _

theorem coverFences (s : State) (id : Nat) : RaiseFrame s (s.coverFences id) := setFlt s _

theorem joinCauses (s : State) (mask : Nat) : RaiseFrame s (s.joinCauses mask) := setFlt s _

theorem laneToRetired (s : State) (l : Nat) : RaiseFrame s (s.laneToRetired l) := by
  unfold State.laneToRetired State.abortEye
  by_cases h : (s.lane l).eye.isSome = true
  · rw [if_pos h]
    refine ⟨rfl, fun a ha => s.reg_flag_ne (by simp only [laneBase, tileBase, octBase]; omega) 3, fun _ => rfl, fun _ => rfl, fun _ => rfl,
      List.prefix_rfl, fun _ h => h, fun _ => .inl rfl, fun m => ?_⟩
    change ((s.lanes.upd l _).upd l _).get m = s.lanes.get m ∨ (((s.lanes.upd l _).upd l _).get m).state = .retired
    rw [Tab.get_upd]
    split
    · exact .inr rfl
    · rename_i hm; exact .inl ((Tab.get_upd ..).trans (if_neg hm))
  · rw [if_neg h]
    refine ⟨rfl, fun _ _ => rfl, fun _ => rfl, fun _ => rfl, fun _ => rfl, List.prefix_rfl, fun _ h => h, fun _ => .inl rfl, fun m => ?_⟩
    simp only [State.lane, State.updLane, Tab.get_upd]
    split
    · exact .inr rfl
    · exact .inl rfl

theorem retireMark (s : State) (c : Nat) : RaiseFrame s (s.updCell c fun x => { x with retired := true }) :=
  updCell (fun _ => rfl) fun _ _ => rfl

theorem losePathVia {again : Nat → Nat → List Byte → State → State} (ih : ∀ c u d s, RaiseFrame s (again c u d s))
    (t code : Nat) (s : State) : RaiseFrame s (State.losePathVia again t code s) := by
  unfold State.losePathVia
  extract_lets cs
  refine ite (refl s) (ite (ih _ _ _ _) (ite ?_ (refl s)))
  exact foldl (fun u c => (retireMark u c).trans (ih _ _ _ _)) _ _

theorem retireReaction {again : Nat → Nat → List Byte → State → State} (ih : ∀ c u d s, RaiseFrame s (again c u d s))
    (code src id : Nat) (s : State) : RaiseFrame s (s.retireReaction again code src id) := by
  have hc := retireMark
  unfold State.retireReaction
  split
  · refine ite (refl s) ?_
    have h1 := ((laneToRetired s src).trans (windowDone _ (.lane src))).trans (openWindow _ (.lane src) id code src (some s.now))
    have h2 := h1.trans (ite (c := code = 0x1703) (refl _) (ih 0x1703 src [] _))
    exact ite h2 (h2.trans (losePathVia ih _ _ _))
  · refine ite (ite (refl s) (ite ?_ (ih _ _ _ _))) (ite (setSports s _) (ite (setSvs s _) (refl s)))
    exact ite (hc s src) ((hc s src).trans (ih _ _ _ _))

theorem fenceReaction (s : State) (cls : FClass) (mask code src id : Nat) : RaiseFrame s (s.fenceReaction cls mask code src id) :=
  forNat (fun n u => ite (ite (fenceOctad u n) ((fenceOctad u n).trans (openWindow _ _ _ _ _ _))) (refl u)) _ _

theorem lockoutReaction (s : State) (code src id : Nat) : RaiseFrame s (s.lockoutReaction code src id) :=
  ((openWindow s .lockout id code src (some s.now)).trans (coverFences _ id)).trans
    ((setLocked _ .lockout true _ _).trans (forceSafe _ _))

theorem recordConsequential (s : State) (w : Window) (r : Report) : RaiseFrame s (s.recordConsequential w r) :=
  (enqueue s r).trans (setFlt _ _)

theorem recordFault (s : State) (fn : Bool) (code : Nat) (cls : FClass) (r : Report) :
    RaiseFrame s (s.recordFault fn code cls r) := by
  unfold State.recordFault
  dsimp only
  generalize hu : (if fn = true then s.assertFaultN else s) = u
  have h : RaiseFrame s u := hu ▸ ite (assertFaultN s) (refl s)
  split
  · exact h.trans (enqueue u _)
  · split
    · exact h.trans (mergeFallback u _ _)
    · exact h.trans (setKp u _ _)

theorem react {again : Nat → Nat → List Byte → State → State} (ih : ∀ c u d s, RaiseFrame s (again c u d s)) (cls : FClass)
    (mask code src id : Nat) (s : State) : RaiseFrame s (s.react again cls mask code src id) := by
  unfold State.react
  dsimp only
  generalize hu : s.retireReaction again code src id = u
  have h1 : RaiseFrame s u := hu ▸ retireReaction ih code src id s
  generalize hv : (u.fenceReaction cls mask code src id).joinCauses mask = v
  have h2 : RaiseFrame s v := h1.trans (hv ▸ (fenceReaction u cls mask code src id).trans (joinCauses _ mask))
  split
  · exact refl s
  · split
    · exact h1
    · split
      · exact h2
      · exact h2.trans (lockoutReaction v _ _ _)

theorem tableFault {again : Nat → Nat → List Byte → State → State} (ih : ∀ c u d s, RaiseFrame s (again c u d s)) (cls : FClass)
    (fn : Bool) (cb : Byte) (mask code src id : Nat) (s : State) :
    RaiseFrame s (s.tableFault again cls fn cb mask code src id) := by
  unfold State.tableFault
  have h := enterActive s code src cls cb fn mask id
  dsimp only
  split
  · split
    · exact h.trans (ih _ _ _ _)
    · exact h
  · exact refl s

theorem of_raiseN (fuel : Nat) : ∀ (code src : Nat) (data : List Byte) (p : Option Nat) (s : State),
    RaiseFrame s (raiseN fuel code src data p s) := by
  induction fuel with
  | zero => intro code src data p s; exact refl s
  | succ fuel ih =>
    intro code src data p s
    have hi : ∀ c v d u, RaiseFrame u (raiseN fuel c v d none u) := fun c v d u => ih c v d none u
    have h0 : RaiseFrame s s.nextReport := setFlt s _
    unfold raiseN
    dsimp only
    generalize s.nextReport = u at h0 ⊢
    split
    · exact h0.trans (recordConsequential _ _ _)
    · exact h0.trans ((recordFault _ _ _ _ _).trans ((tableFault hi _ _ _ _ _ _ _ _).trans (react hi _ _ _ _ _ _)))

end RaiseFrame

theorem State.raise_frame (s : State) (code src : Nat) (data : List Byte) : RaiseFrame s (s.raise code src data) :=
  RaiseFrame.of_raiseN ..

theorem State.retireCell_frame (s : State) (c cause : Nat) : RaiseFrame s (s.retireCell c cause) := by
  unfold State.retireCell
  split
  · exact .refl s
  · split
    · exact (RaiseFrame.retireMark _ _).trans (State.raise_frame ..)
    · exact State.raise_frame ..

theorem State.retireLane_frame (s : State) (l code : Nat) : RaiseFrame s (s.retireLane l code) := by
  unfold State.retireLane
  split
  · exact .refl s
  · exact State.raise_frame ..

theorem State.losePath_frame (s : State) (t code : Nat) : RaiseFrame s (s.losePath t code) := by
  unfold State.losePath
  exact .ite (.refl s) (.losePathVia (fun _ _ _ _ => State.raise_frame ..) ..)

end Sys2Proof.Machine
end

