-- ==== Sys2Proof/Laws/Block.lean ====
section
/-! SUPPORT. Blocking an octad: its ABORT BLOCKs, and what becomes of the octads. -/

namespace Sys2Proof.Machine

/-- A property that every step keeps holds after all of them. -/
theorem forNat_induct {P : State → Prop} {f : Nat → State → State} (h : ∀ i s, P s → P (f i s)) (n : Nat) {s : State} (hs : P s) :
    P (forNat n f s) := by
  induction n with
  | zero => exact hs
  | succ n ih => exact h _ _ ih

/-- The ABORT BLOCKs of an octad: one on every lane with block lock, nothing else. -/
theorem State.abortLanes_spec (s : State) (n o : Nat) :
    s.abortLanes n o = { s with out := (s.abortLanes n o).out }
      ∧ ∀ i < 16, (s.lane (16 * n + i)).lock = true →
        .laneBlock (16 * n + i) (abortBlk o (s.tick.setWidth 32)) ∈ (s.abortLanes n o).out := by
  unfold State.abortLanes
  suffices h : ∀ k, ∃ l, forNat k (fun i s => if (s.lane (16 * n + i)).lock
      then s.emit (.laneBlock (16 * n + i) (abortBlk o (s.tick.setWidth 32))) else s) s = { s with out := l }
      ∧ ∀ i < k, (s.lane (16 * n + i)).lock = true → .laneBlock (16 * n + i) (abortBlk o (s.tick.setWidth 32)) ∈ l by
    obtain ⟨l, h1, h2⟩ := h 16
    rw [h1]
    exact ⟨rfl, h2⟩
  intro k
  induction k with
  | zero => exact ⟨s.out, rfl, by simp⟩
  | succ k ih =>
    obtain ⟨l, h1, h2⟩ := ih
    unfold forNat
    rw [h1]
    by_cases hk : (s.lane (16 * n + k)).lock = true
    · refine ⟨l ++ [.laneBlock (16 * n + k) (abortBlk o (s.tick.setWidth 32))], by dsimp only; exact if_pos hk, fun i hi hl => ?_⟩
      rcases Nat.lt_succ_iff_lt_or_eq.mp hi with hi | rfl
      · exact List.mem_append_left _ (h2 i hi hl)
      · exact List.mem_append_right _ (List.mem_singleton.mpr rfl)
    · refine ⟨l, by dsimp only; exact if_neg hk, fun i hi hl => ?_⟩
      rcases Nat.lt_succ_iff_lt_or_eq.mp hi with hi | rfl
      · exact h2 i hi hl
      · exact absurd hl hk

theorem State.immediateBlock_octs (s : State) (n : Nat) :
    (s.immediateBlock n).octs = s.octs.upd n fun o => { o with disturbed := true } := by
  unfold State.immediateBlock
  rw [(s.abortLanes_spec n 0).1]
  rfl

theorem State.immediateBlock_out (s : State) (n : Nat) : (s.immediateBlock n).out = (s.abortLanes n 0).out := by
  unfold State.immediateBlock
  generalize s.abortLanes n 0 = u
  rfl

/-- A BLOCK sends its ABORT BLOCK on every lane of the octad that has block lock (R133). -/
theorem State.toBlocked_aborts {s : State} {n i : Nat} (hi : i < 16) (hl : (s.lane (16 * n + i)).lock = true) :
    .laneBlock (16 * n + i) (abortBlk 0 (s.tick.setWidth 32)) ∈ (s.toBlocked n).out := by
  have h1 := (s.abortLanes_spec n 0).2 i hi hl
  rw [← State.immediateBlock_out] at h1
  unfold State.toBlocked
  dsimp only
  generalize s.immediateBlock n = u at h1 ⊢
  split
  · have h2 := RaiseFrame.haltSelection u n
    generalize u.haltSelection n = v at h2 ⊢
    exact (h2.out.trans (RaiseFrame.settleDev (v.updOct n fun o => { o with state := .blocked })).out).subset h1
  · split
    · exact h1
    · exact h1

theorem State.discardWindow_octs (s : State) (n : Nat) :
    (s.discardWindow n).octs = s.octs.upd n fun o => { o with window := 0, counted := false, countedPrev := false } := by
  unfold State.discardWindow
  dsimp only
  split <;> rfl

theorem State.haltSelection_octs (s : State) (n : Nat) :
    (s.haltSelection n).octs = (s.octs.upd n fun o => { o with window := 0, counted := false, countedPrev := false }).upd n
      fun o => { o with
        carry := 0, nins := 0, lateRun := 0, selRunning := false, selDone := none, tcDone := false, deb := .none } :=
  congrArg (fun t => t.upd n fun o => { o with
    carry := 0, nins := 0, lateRun := 0, selRunning := false, selDone := none, tcDone := false, deb := .none })
    ((s.mapOctCells n Cell.dropTc).discardWindow_octs n)

@[simp] theorem State.settleDev_octs (s : State) : s.settleDev.octs = s.octs := by
  unfold State.settleDev
  split <;> rfl

/-- An active octad enters Blocked; no other octad changes. -/
theorem State.toBlocked_oct {s : State} {n : Nat} (h : (s.oct n).state.active = true) :
    ((s.toBlocked n).oct n).state = .blocked ∧ ∀ m, m ≠ n → (s.toBlocked n).oct m = s.oct m := by
  have ho : ∀ m, (s.immediateBlock n).oct m = if m = n then { s.oct n with disturbed := true } else s.oct m := fun m => by
    simp only [State.oct, State.immediateBlock_octs, Tab.get_upd]
  have ha : ((s.immediateBlock n).oct n).state.active = true := by rw [ho, if_pos rfl]; exact h
  unfold State.toBlocked
  dsimp only
  rw [if_pos ha]
  have hr : ∀ m, ((((s.immediateBlock n).haltSelection n).updOct n fun o => { o with state := .blocked }).settleDev).oct m
      = if m = n then { ((s.immediateBlock n).haltSelection n).oct n with state := .blocked }
        else ((s.immediateBlock n).haltSelection n).oct m := fun m => by
    simp only [State.oct, State.settleDev_octs, State.updOct, Tab.get_upd]
  refine ⟨by rw [hr, if_pos rfl], fun m hm => ?_⟩
  rw [hr, if_neg hm]
  simp only [State.oct, State.haltSelection_octs, Tab.get_upd_ne _ hm]
  exact (ho m).trans (if_neg hm)

end Sys2Proof.Machine
end

