-- ==== Sys2Proof/Laws/Submit.lean ====
section
/-! SUPPORT. Descriptors: a ready one is performed at once, and its completion is the last thing that leaves the block. -/

namespace Sys2Proof.Machine

/-- The state in which a ring has taken a descriptor: what differs from before is in the two rings. -/
def State.taken (s : State) (r : Nat) (h : Hdr) (b : Body) : State :=
  (((s.updRing r fun x => { x with dev := x.dev + 1 }).updRing (10 + r) fun x => { x with reserved := x.reserved + 1 }).updRing r
    fun x => { x with untimed := x.untimed ++ [s.descOf r h b] }).updRing r fun x => { x with untimed := [] }

/-- t differs from s in the rings and in what has left the block only. -/
def RingsOnly (s t : State) : Prop := t = { s with out := t.out, rings := t.rings }

theorem RingsOnly.refl (s : State) : RingsOnly s s := rfl

theorem RingsOnly.trans {s t u : State} (h : RingsOnly s t) (k : RingsOnly t u) : RingsOnly s u := by
  unfold RingsOnly at h k ⊢
  rw [h] at k
  exact k

theorem RingsOnly.updRing (s : State) (r : Nat) (f : Ring → Ring) : RingsOnly s (s.updRing r f) := rfl

theorem RingsOnly.emit (s : State) (o : Output) : RingsOnly s (s.emit o) := rfl

/-- Host interface registers, base frame and the other accessors read the same. -/
theorem RingsOnly.reg {s t : State} (h : RingsOnly s t) (a : Nat) : t.reg a = s.reg a := by rw [h]; rfl
theorem RingsOnly.pending {s t : State} (h : RingsOnly s t) : t.pending = s.pending := by rw [h]
theorem RingsOnly.tick {s t : State} (h : RingsOnly s t) : t.tick = s.tick := by rw [h]
theorem RingsOnly.free {s t : State} (h : RingsOnly s t) : t.free = s.free := by rw [h]
theorem RingsOnly.regs {s t : State} (h : RingsOnly s t) : t.regs = s.regs := by rw [h]
theorem RingsOnly.staging {s t : State} (h : RingsOnly s t) : t.staging = s.staging := by rw [h]
theorem RingsOnly.sys {s t : State} (h : RingsOnly s t) : t.sys = s.sys := by rw [h]
theorem RingsOnly.fr {s t : State} (h : RingsOnly s t) : t.fr = s.fr := by rw [h]
theorem RingsOnly.octs {s t : State} (h : RingsOnly s t) : t.octs = s.octs := by rw [h]
theorem RingsOnly.lanes {s t : State} (h : RingsOnly s t) : t.lanes = s.lanes := by rw [h]
theorem RingsOnly.cells {s t : State} (h : RingsOnly s t) : t.cells = s.cells := by rw [h]
theorem RingsOnly.engs {s t : State} (h : RingsOnly s t) : t.engs = s.engs := by rw [h]
theorem RingsOnly.time {s t : State} (h : RingsOnly s t) : t.time = s.time := by rw [h]
theorem RingsOnly.hif {s t : State} (h : RingsOnly s t) : t.hif = s.hif := by rw [h]
theorem RingsOnly.modeReq {s t : State} (h : RingsOnly s t) : t.modeReq = s.modeReq := by rw [h]
theorem RingsOnly.flt {s t : State} (h : RingsOnly s t) : t.flt = s.flt := by rw [h]
theorem RingsOnly.ps {s t : State} (h : RingsOnly s t) : t.ps = s.ps := by rw [h]
theorem RingsOnly.bel {s t : State} (h : RingsOnly s t) : t.bel = s.bel := by rw [h]
theorem RingsOnly.epl {s t : State} (h : RingsOnly s t) : t.epl = s.epl := by rw [h]
theorem RingsOnly.sensors {s t : State} (h : RingsOnly s t) : t.sensors = s.sensors := by rw [h]
theorem RingsOnly.trips {s t : State} (h : RingsOnly s t) : t.trips = s.trips := by rw [h]
theorem RingsOnly.oct {s t : State} (h : RingsOnly s t) (n : Nat) : t.oct n = s.oct n := by simp only [State.oct, h.octs]
theorem RingsOnly.lane {s t : State} (h : RingsOnly s t) (n : Nat) : t.lane n = s.lane n := by simp only [State.lane, h.lanes]
theorem RingsOnly.cell {s t : State} (h : RingsOnly s t) (n : Nat) : t.cell n = s.cell n := by simp only [State.cell, h.cells]
theorem RingsOnly.eng {s t : State} (h : RingsOnly s t) (n : Nat) : t.eng n = s.eng n := by simp only [State.eng, h.engs]

theorem RingsOnly.taken (s : State) (r : Nat) (h : Hdr) (b : Body) : RingsOnly s (s.taken r h b) :=
  (((RingsOnly.updRing s r _).trans (RingsOnly.updRing _ (10 + r) _)).trans (RingsOnly.updRing _ r _)).trans
    (RingsOnly.updRing _ r _)

theorem State.taken_ring_comp (s : State) (r : Nat) (h : Hdr) (b : Body) :
    (s.taken r h b).ring (10 + r) = { s.ring (10 + r) with reserved := (s.ring (10 + r)).reserved + 1 } := by
  simp [State.taken, State.ring, State.updRing, Tab.get_upd]

/-- A ready descriptor is performed at once. -/
theorem State.submit_ready {s : State} {r : Nat} {h : Hdr} {b : Body} (hr : s.Ready r h b) (hb : ∀ p, b ≠ .modeChange p) :
    s.submit r h b = (s.taken r h b).perform (s.descOf r h b) false := by
  have hlen : ((s.updRing r fun x => { x with dev := x.dev + 1 }).updRing (10 + r) fun x =>
      { x with reserved := x.reserved + 1 }).ring r = { s.ring r with dev := (s.ring r).dev + 1 } := by
    simp [State.ring, State.updRing, Tab.get_upd]
  generalize hu : (s.updRing r fun x => { x with dev := x.dev + 1 }).updRing (10 + r) (fun x =>
      { x with reserved := x.reserved + 1 }) = u at hlen
  have hc : u.descCheck r h b = none := by rw [← hu]; exact hr.checked
  have hbusy : ∀ f : Ring → Ring, (∀ x, (f x).buf = x.buf) → (u.updRing r f).ringBusy r = false := by
    intro f hf
    have : ((u.updRing r f).ring r).buf = (s.ring r).buf := by
      show (((u.rings.upd r f)).get r).buf = _
      rw [Tab.get_upd_same, hf]
      exact (congrArg Ring.buf hlen : (u.ring r).buf = _)
    have hw : (u.updRing r f).hif = s.hif := by rw [← hu]; rfl
    unfold State.ringBusy
    rw [this, hw]
    exact hr.idle
  have hmay : ∀ f : Ring → Ring, (u.updRing r f).mayStart b = true := by
    intro f
    rw [← hu]
    exact hr.starts
  have hi : s.submit r h b = u.intake (s.descOf r h b) := by
    unfold State.submit
    simp only [hr.takes, Bool.not_true, Bool.false_eq_true, if_false]
    rw [← hu]
    rfl
  rw [hi]
  have hq : u.intake (s.descOf r h b) = (u.updRing r fun x => { x with untimed := x.untimed ++ [s.descOf r h b] }).drain r := by
    unfold State.intake
    simp only [State.descOf, hc, hr.untimed, Option.isNone_none, if_true]
  rw [hq]
  have hun : (u.ring r).untimed = [] := by rw [hlen]; exact hr.first
  have hun' : ((u.updRing r fun x => { x with untimed := x.untimed ++ [s.descOf r h b] }).ring r).untimed = [s.descOf r h b] := by
    show ((u.rings.upd r _).get r).untimed = _
    rw [Tab.get_upd_same]
    show (u.ring r).untimed ++ _ = _
    rw [hun, List.nil_append]
  have hm := hmay fun x => { x with untimed := x.untimed ++ [s.descOf r h b] }
  have hb' := hbusy (fun x => { x with untimed := x.untimed ++ [s.descOf r h b] }) fun _ => rfl
  unfold State.taken
  rw [hu]
  generalize u.updRing r (fun x => { x with untimed := x.untimed ++ [s.descOf r h b] }) = v at hun' hm hb' ⊢
  unfold State.drain
  rw [hun']
  unfold State.drainRing
  rw [hun']
  show (if v.ringBusy r || !v.mayStart b then v else State.drainRing _ r 0) = _
  rw [hm, hb']
  rfl

/-- The device's state lets a ready descriptor execute (R344, R455, R537). -/
theorem State.Ready.allowed {s : State} {r : Nat} {h : Hdr} {b : Body} (hr : s.Ready r h b) :
    ¬((s.sys.dev = .lockout ∧ (!s.lockoutAllows (bodyCode b)) = true) ∨ (!s.bootAllows (bodyCode b)) = true) := by
  intro hc
  have h1 := hr.checked
  unfold State.descCheck at h1
  simp only [hc, if_true] at h1
  repeat' split at h1
  all_goals cases h1

/-- A ready descriptor is carried out at once. -/
theorem State.submit_carried {s : State} {r : Nat} {h : Hdr} {b : Body} (hr : s.Ready r h b) (hb : ∀ p, b ≠ .modeChange p) :
    s.submit r h b = (s.taken r h b).carryOut (s.descOf r h b) false := by
  rw [State.submit_ready hr hb]
  have hg : ¬(((s.taken r h b).sys.dev = .lockout ∧ (!(s.taken r h b).lockoutAllows (bodyCode b)) = true)
      ∨ (!(s.taken r h b).bootAllows (bodyCode b)) = true) := hr.allowed
  unfold State.perform
  generalize hu : s.taken r h b = u at hg ⊢
  exact if_neg hg

/-- A completion changes nothing but the rings and what has left the block. -/
theorem RingsOnly.complete (s : State) (d : Desc) (st : Status) (f : Word) (res : Nat) : RingsOnly s (s.complete d st f res) := by
  unfold State.complete State.putCompletion
  dsimp only
  split
  · exact RingsOnly.updRing ..
  · exact ((RingsOnly.updRing s _ _).trans (RingsOnly.emit _ _)).trans (RingsOnly.updRing _ _ _)

theorem RingsOnly.finish {d : Desc} {late : Bool} {x : State × Status × Nat} {v : State} (h : RingsOnly v x.1) :
    RingsOnly v (finish d late x) := h.trans (RingsOnly.complete ..)

theorem State.ringEn_of_canTake {s : State} {r : Nat} (h : s.canTake r = true) : s.ringEn (10 + r) = true := by
  simp only [State.canTake, Bool.and_eq_true] at h
  exact h.1.2

/-- A completion entry is laid out from its ring's count and the ring's registers. -/
theorem State.completionOut_congr {s u : State} {c : Nat} (hc : c < 20) (hcnt : (u.ring c).count17 = (s.ring c).count17)
    (hreg : ∀ a, a < 0x200000 → u.reg a = s.reg a) (st : Status) (o : Nat) (tag i : BitVec 16) (frame : Word) (res : Nat) :
    u.completionOut c st o tag i frame res = s.completionOut c st o tag i frame res := by
  have h0 : u.reg (rcfgAddr c) = s.reg (rcfgAddr c) := hreg _ (by simp only [rcfgAddr]; omega)
  have h4 : u.reg (rcfgAddr c - 4) = s.reg (rcfgAddr c - 4) := hreg _ (by simp only [rcfgAddr]; omega)
  have h8 : u.reg (rcfgAddr c - 8) = s.reg (rcfgAddr c - 8) := hreg _ (by simp only [rcfgAddr]; omega)
  simp only [State.completionOut, State.entryAddr, State.ringBase, State.ringSize, State.fld, hcnt, h0, h4, h8]

/-- The completion of a descriptor is the last thing that leaves the block, when the completion ring and the host interface's
registers are as they were. -/
theorem State.complete_answered {s u : State} {r : Nat} {h : Hdr} {b : Body} {st : Status} {frame : Word} {res : Nat}
    (hr : r < 10) (hen : s.ringEn (10 + r) = true) (hhalt : (u.ring (10 + r)).halt = false)
    (hcnt : (u.ring (10 + r)).count17 = (s.ring (10 + r)).count17) (hreg : ∀ a, a < 0x200000 → u.reg a = s.reg a) :
    s.answered (u.complete (s.descOf r h b) st frame res) r h b st frame res := by
  have ha : rcfgAddr (10 + r) < 0x200000 := by simp only [rcfgAddr]; omega
  have hen' : ∀ f, (u.updRing (10 + r) f).ringEn (10 + r) = true := fun f => by
    have : u.ringEn (10 + r) = true := by simpa only [State.ringEn, State.fld, hreg _ ha] using hen
    exact this
  have hout : ∀ f : Ring → Ring, (∀ x, (f x).count17 = x.count17) → ∀ o t i fr rs,
      (u.updRing (10 + r) f).completionOut (10 + r) st o t i fr rs = s.completionOut (10 + r) st o t i fr rs := fun f hf o t i fr rs => by
    refine State.completionOut_congr (u := u.updRing (10 + r) f) (c := 10 + r) (by omega) ?_ hreg st o t i fr rs
    rw [← hcnt]
    show ((u.rings.upd (10 + r) f).get (10 + r)).count17 = _
    rw [Tab.get_upd_same, hf]
    rfl
  unfold State.answered State.complete State.putCompletion
  dsimp only [State.descOf]
  rw [if_neg (by rw [hhalt, hen']; decide)]
  exact (List.getLast?_concat ..).trans
    (congrArg some (hout (fun y => { y with reserved := y.reserved - 1 }) (fun _ => rfl) _ _ _ _ _))

/-- A completion adds one output at most, and changes the completion ring of the descriptor only. -/
theorem State.complete_rings {u : State} {d : Desc} {st : Status} {frame : Word} {res : Nat} {q : Nat} (hq : q ≠ 10 + d.ring) :
    (u.complete d st frame res).ring q = u.ring q := by
  unfold State.complete State.putCompletion
  dsimp only
  split <;> simp [State.ring, State.updRing, State.emit, Tab.get_upd, hq]

/-- What a ready descriptor is answered with, when what it did left its completion ring and the host interface's registers
alone. -/
theorem finish_answered {s u : State} {r : Nat} {h : Hdr} {b : Body} {st st' : Status} {res : Nat} {late : Bool}
    (hr : s.Ready r h b) (hr10 : r < 10) (hring : u.ring (10 + r) = (s.taken r h b).ring (10 + r))
    (hreg : ∀ a, a < 0x200000 → u.reg a = s.reg a) (hst : (if st = .ok ∧ late = true then Status.late else st) = st') :
    s.answered (finish (s.descOf r h b) late (u, st, res)) r h b st' (if st' = .ok ∨ st' = .late then u.fr.k else 0) res := by
  rw [State.taken_ring_comp] at hring
  unfold finish State.completeNow
  dsimp only
  rw [hst]
  exact State.complete_answered hr10 (State.ringEn_of_canTake hr.takes) (by rw [hring]; exact hr.runs) (by rw [hring]) hreg

/-- Taking a descriptor changes the rings only. -/
theorem State.taken_eq (s : State) (r : Nat) (h : Hdr) (b : Body) : s.taken r h b = { s with rings := (s.taken r h b).rings } := by
  have h1 : (s.taken r h b).out = s.out := by simp [State.taken]
  have h2 := RingsOnly.taken s r h b
  unfold RingsOnly at h2
  rw [h1] at h2
  exact h2

/-- The completion and the frame of a ready descriptor that is carried out at once, whatever the rings hold: v is s with the
descriptor's effect. -/
theorem State.Ready.completes {s v : State} {u : Tab Ring → State} {r : Nat} {h : Hdr} {b : Body} {st : Status} {res : Nat}
    (hr : s.Ready r h b) (hr10 : r < 10) (hb : ∀ p, b ≠ .modeChange p)
    (hc : ∀ rg, ({ s with rings := rg } : State).carryOut (s.descOf r h b) false = finish (s.descOf r h b) false (u rg, st, res))
    (hv : ∀ rg, RingsOnly v (u rg)) (hring : ∀ rg, (u rg).ring (10 + r) = rg.get (10 + r))
    (hreg : ∀ a, a < 0x200000 → v.reg a = s.reg a) (hk : v.fr.k = s.fr.k) (hst : st ≠ .late) :
    s.answered (s.submit r h b) r h b st (if st = .ok then s.fr.k else 0) res
      ∧ s.submit r h b = { v with out := (s.submit r h b).out, rings := (s.submit r h b).rings } := by
  rw [State.submit_carried hr hb]
  rw [State.taken_eq, hc]
  refine ⟨?_, RingsOnly.finish (hv _)⟩
  have := finish_answered (s := s) (u := u (s.taken r h b).rings) (st := st) (st' := st) (res := res) (late := false) hr hr10
    (hring _) (fun a ha => ((hv _).reg a).trans (hreg a ha)) (by simp)
  simpa [hst, (hv _).fr, hk] using this

/-- The same where what the descriptor did does not depend on the rings: v is s with its effect. -/
theorem State.Ready.completesTo {s : State} (v : State) {r : Nat} {h : Hdr} {b : Body} {st : Status} {res : Nat}
    (hr : s.Ready r h b) (hr10 : r < 10) (hb : ∀ p, b ≠ .modeChange p)
    (hc : ∀ rg, ({ s with rings := rg } : State).carryOut (s.descOf r h b) false
      = finish (s.descOf r h b) false ({ v with rings := rg }, st, res))
    (hreg : ∀ a, a < 0x200000 → v.reg a = s.reg a) (hk : v.fr.k = s.fr.k) (hst : st ≠ .late) :
    s.answered (s.submit r h b) r h b st (if st = .ok then s.fr.k else 0) res
      ∧ s.submit r h b = { v with out := (s.submit r h b).out, rings := (s.submit r h b).rings } :=
  hr.completes hr10 hb hc (fun _ => rfl) (fun _ => rfl) hreg hk hst

/-- A completion is added at the end of what has left the block. -/
theorem State.complete_out (s : State) (d : Desc) (st : Status) (f : Word) (res : Nat) : s.out <+: (s.complete d st f res).out := by
  unfold State.complete State.putCompletion
  dsimp only
  split
  · exact List.prefix_rfl
  · exact List.prefix_append ..

theorem finish_out (d : Desc) (late : Bool) (x : State × Status × Nat) : x.1.out <+: (finish d late x).out :=
  State.complete_out ..

/-- A frame goes on over a change of the rings and of what has left the block. -/
theorem RaiseFrame.ringsOnly {s t u : State} (h : RaiseFrame s t) (k : RingsOnly t u) (ho : t.out <+: u.out) :
    RaiseFrame { s with rings := u.rings } u := by
  rw [k]
  refine ⟨?_, h.reg, h.cell, h.oct, h.eng, h.out.trans ho, h.retired, h.state, h.lane⟩
  exact congrArg (fun y : State => { y with rings := u.rings }) h.core

/-- A ready descriptor whose effect raises faults: f is its effect, w is s with what it changes of its own. -/
theorem State.Ready.completesRaise {s : State} (w : State) (f : State → State) {r : Nat} {h : Hdr} {b : Body} {st : Status}
    {res : Nat} (hr : s.Ready r h b) (hr10 : r < 10) (hb : ∀ p, b ≠ .modeChange p)
    (hc : ∀ rg, ({ s with rings := rg } : State).carryOut (s.descOf r h b) false
      = finish (s.descOf r h b) false (f { s with rings := rg }, st, res))
    (hf : ∀ rg, RaiseFrame { w with rings := rg } (f { s with rings := rg }))
    (hreg : ∀ a, a < 0x200000 → w.reg a = s.reg a) (hk : w.fr.k = s.fr.k) (hst : st ≠ .late) :
    s.answered (s.submit r h b) r h b st (if st = .ok then s.fr.k else 0) res
      ∧ RaiseFrame { w with rings := (s.submit r h b).rings } (s.submit r h b)
      ∧ ∃ rg, RingsOnly (f { s with rings := rg }) (s.submit r h b) ∧ (f { s with rings := rg }).out <+: (s.submit r h b).out := by
  rw [State.submit_carried hr hb]
  rw [State.taken_eq, hc]
  generalize hrg : (s.taken r h b).rings = rg
  have hf := hf rg
  have hfr : (f { s with rings := rg }).fr.k = s.fr.k := by
    have : (f { s with rings := rg }).fr = w.fr := hf.fr_eq
    rw [this, hk]
  have hri : (f { s with rings := rg }).rings = rg := hf.rings_eq
  refine ⟨?_, ?_, rg, RingsOnly.finish (RingsOnly.refl _), finish_out _ _ (f { s with rings := rg }, st, res)⟩
  · have := finish_answered (s := s) (u := f { s with rings := rg }) (st := st) (st' := st) (res := res) (late := false) hr hr10
      (by simp only [State.ring, hri, hrg]) (fun a ha => (hf.reg a ha).trans (hreg a ha)) (by simp)
    simpa [hst, hfr] using this
  · exact hf.ringsOnly (RingsOnly.finish (RingsOnly.refl _)) (finish_out _ _ (f { s with rings := rg }, st, res))

/-- A ready descriptor that waits, or whose completion comes later. -/
theorem State.Ready.waits {s : State} (v : State) {r : Nat} {h : Hdr} {b : Body} (hr : s.Ready r h b) (hb : ∀ p, b ≠ .modeChange p)
    (hc : ∀ rg, ({ s with rings := rg } : State).carryOut (s.descOf r h b) false = { v with rings := rg }) :
    s.submit r h b = { v with rings := (s.submit r h b).rings } := by
  rw [State.submit_carried hr hb, State.taken_eq, hc]

end Sys2Proof.Machine
end

