-- ==== Sys2Proof/Machine/Package.lean ====
section
/-! DEFINITION. The signals of the device, their groups and rails, and the net of every ball of the 52 × 52 array (R564, R581 to
R588).  No command reads it: it is the fixed face that the block shows its board. -/

namespace Sys2Proof.Machine

inductive Rail | vcore | vsram | vser | vserh | vio18 | vio33 | vkp | vhold
deriving DecidableEq, Repr

/-- A signal ball; `pos` is the positive line of a pair, `chB` Kingpost's channel B.  Lane 2t is lane t.P, 2t + 1 lane t.B (R16). -/
inductive Signal
  | laneTx (lane : Nat) (pos : Bool) | laneRx (lane : Nat) (pos : Bool) | qrefclk (q : Nat) (pos : Bool)
  | pet (i : Nat) (pos : Bool) | per (i : Nat) (pos : Bool) | pcieRefclk (pos : Bool)
  | sfiTx (i : Nat) (pos : Bool) | sfiRx (i : Nat) (pos : Bool)
  | refclk (b : Bool) (pos : Bool)
  | sck (i : Nat) (pos : Bool) | sdo (i : Nat) (pos : Bool)
  | convst (i : Nat) | tck | tms | tdi | tdo | trstN | testEn
  | trip (i : Nat) | dpwm (i : Nat) | tstamp (i : Nat) | faultN | pwrgood | perstN
  | sin (i : Nat) (chB : Bool) | sout (i : Nat) (chB : Bool) | blk (i : Nat) (chB : Bool) | sfb (i : Nat) | refsafe
deriving DecidableEq, Repr

inductive Net
  | gnd
  | supply (r : Rail)
  | signal (s : Signal)
deriving DecidableEq, Repr

/-- The groups of Table 20-1. -/
inductive Group | lanes | quadRefs | pcie | stationNet | deviceRefs | samplePorts | trigTest | discrete | kingpost
deriving DecidableEq, Repr

/-- The one group of a signal. -/
def Signal.group : Signal → Group
  | .laneTx _ _ | .laneRx _ _ => .lanes
  | .qrefclk _ _ => .quadRefs
  | .pet _ _ | .per _ _ | .pcieRefclk _ => .pcie
  | .sfiTx _ _ | .sfiRx _ _ => .stationNet
  | .refclk _ _ => .deviceRefs
  | .sck _ _ | .sdo _ _ => .samplePorts
  | .convst _ | .tck | .tms | .tdi | .tdo | .trstN | .testEn => .trigTest
  | .trip _ | .dpwm _ | .tstamp _ | .faultN | .pwrgood | .perstN => .discrete
  | .sin _ _ | .sout _ _ | .blk _ _ | .sfb _ | .refsafe => .kingpost

/-- The rails that power a group (Table 20-1). -/
def Group.rails : Group → List Rail
  | .lanes | .pcie | .stationNet => [.vser, .vserh]
  | .quadRefs | .deviceRefs => [.vser]
  | .samplePorts | .trigTest => [.vio18]
  | .discrete => [.vio33]
  | .kingpost => [.vkp]

/-- Row letters A to Y, and of the array: plain, then prefixed with A, then with B (R582). -/
def rowLetters : List String := ["A", "B", "C", "D", "E", "F", "G", "H", "J", "K", "L", "M", "N", "P", "T", "U", "V", "W", "Y"]

def ballName (row col : Nat) : String :=
  (["", "A", "B"].getD (row / 19) "") ++ (rowLetters.getD (row % 19) "") ++ toString col

/-- Table 20-13: the net at column x and cell row o of quad q; the lanes of the quad are 4q to 4q + 3 (R584). -/
def quadNet (q x o : Nat) : Net :=
  let pos := x == 0
  match o with
  | 0 => if x < 2 then .signal (.laneTx (4 * q) pos) else .gnd
  | 1 => if x < 2 then .signal (.laneTx (4 * q + 1) pos) else .supply .vserh
  | 3 => if x < 2 then .signal (.laneTx (4 * q + 2) pos) else .gnd
  | 4 => if x < 2 then .signal (.laneTx (4 * q + 3) pos) else .supply .vserh
  | 6 => if x < 2 then .signal (.laneRx (4 * q) pos) else .gnd
  | 7 => if x < 2 then .signal (.laneRx (4 * q + 1) pos) else .supply .vser
  | 8 => if x < 2 then .supply .vser else .gnd
  | 9 => if x < 2 then .signal (.laneRx (4 * q + 2) pos) else .gnd
  | 10 => if x < 2 then .signal (.laneRx (4 * q + 3) pos) else .supply .vser
  | 11 => if x < 2 then .signal (.qrefclk q pos) else .gnd
  | _ => .gnd

/-- Kingpost's list of a channel (R585). -/
def kpBall (p : Nat) (chB : Bool) : Net :=
  .signal (if p < 16 then .sin p chB else if p < 24 then .sout (p - 16) chB else .blk (p - 24) chB)

/-- The left edge (R585). -/
def leftNet (row col : Nat) : Net :=
  let r := row - 12
  if col = 3 then .gnd
  else if col = 6 then (if row ≤ 30 then .supply .vkp else if row = 31 then .gnd else .supply .vio18)
  else
    let i := if col < 3 then col - 1 else col - 2
    if row < 28 then kpBall (2 * r + i % 2) (decide (3 < col))
    else if row < 30 then .signal (.sfb (4 * (row - 28) + i))
    else if row = 30 then (if col = 4 then .signal .refsafe else .gnd)
    else if row = 31 then (if col = 5 then .supply .vhold else .gnd)
    else .signal (if i < 2 then .sck (row - 32) (i == 0) else .sdo (row - 32) (i == 2))

/-- The pairs of rows 12 to 19 of the right edge, two a row (R586). -/
def rightPair (n : Nat) (pos : Bool) : Net :=
  if n < 4 then .signal (.pet n pos)
  else if n < 8 then .signal (.per (n - 4) pos)
  else match n with
    | 8 => .signal (.pcieRefclk pos)
    | 9 => .signal (.refclk false pos)
    | 10 => .signal (.sfiTx 0 pos)
    | 11 => .signal (.sfiRx 0 pos)
    | 12 => .signal (.sfiTx 1 pos)
    | 13 => .signal (.sfiRx 1 pos)
    | 14 => .signal (.refclk true pos)
    | _ => .gnd

/-- The discrete list of rows 21 to 33, and the triggers and test list of rows 35 to 39 (R586). -/
def discreteNet (p : Nat) : Net :=
  if p < 16 then .signal (.trip p)
  else if p < 40 then .signal (.dpwm (p - 16))
  else if p < 48 then .signal (.tstamp (p - 40))
  else match p with
    | 48 => .signal .faultN
    | 49 => .signal .pwrgood
    | 50 => .signal .perstN
    | _ => .gnd

def testNet (p : Nat) : Net :=
  if p < 8 then .signal (.convst p)
  else match p with
    | 8 => .signal .tck
    | 9 => .signal .tms
    | 10 => .signal .tdi
    | 11 => .signal .tdo
    | 12 => .signal .trstN
    | 13 => .signal .testEn
    | _ => .gnd

/-- The right edge (R586): the signal columns 52, 51, 49, 48 are positions 0 to 3. -/
def rightNet (row col : Nat) : Net :=
  if col = 50 then .gnd
  else if col = 47 then
    if row ≤ 19 then .supply (if row % 2 = 0 then .vser else .vserh)
    else if row = 20 ∨ row = 34 then .gnd
    else .supply (if row ≤ 33 then .vio33 else .vio18)
  else
    let pos := match col with | 52 => 0 | 51 => 1 | 49 => 2 | _ => 3
    if row ≤ 19 then rightPair (2 * (row - 12) + pos / 2) (pos % 2 == 0)
    else if row = 20 ∨ row = 34 then .gnd
    else if row ≤ 33 then discreteNet (4 * (row - 21) + pos)
    else testNet (4 * (row - 35) + pos)

/-- The centre (R587). -/
def centreNet (row col : Nat) : Net :=
  if (row + col) % 2 = 0 then .gnd
  else .supply (if col = 7 ∨ col = 8 ∨ col = 45 ∨ col = 46 then .vsram else .vcore)

/-- The net of the ball at row index 0 to 51 and column 1 to 52 (Table 20-12). -/
def ballNet (row col : Nat) : Net :=
  if row < 12 ∨ 40 ≤ row then
    if col ≤ 2 ∨ 51 ≤ col then .gnd
    else if row < 12 then quadNet ((col - 3) / 3) ((col - 3) % 3) row
    else quadNet (16 + (col - 3) / 3) ((col - 3) % 3) (51 - row)
  else if col ≤ 6 then leftNet row col
  else if 47 ≤ col then rightNet row col
  else centreNet row col

/-- How many balls have a net that p holds of. -/
def ballCount (p : Net → Bool) : Nat := (List.range 2704).countP fun b => p (ballNet (b / 52) (b % 52 + 1))

end Sys2Proof.Machine
end

