-- ==== Sys2Proof/Tests/Slice0.lean ====
section
/-! SUPPORT. Tests: each WellFormed check refuses an ill-formed term; a witness for the hypotheses of every statement, clause by
clause, on small states; a few steps whose expected values come from the spec. -/

namespace Sys2Proof.Tests

set_option Elab.async false

open Sys2Proof.Machine

/-! ## WellFormed: one ill-formed command for each check -/

def hdr : Hdr := ⟨false, 7, none⟩
def hdrAt (k : Word) : Hdr := ⟨false, 7, some k⟩

theorem test_wf_mbox_write_refuses_none : (Instr.mboxWrite 0 hdr []).wf = false := by decide
theorem test_wf_mbox_write_refuses_five : (Instr.mboxWrite 0 hdr (List.replicate 5 (0, 0))).wf = false := by decide
theorem test_wf_doorbell_sweep_refuses_short_page : (Instr.doorbellSweep [0]).wf = false := by decide
theorem test_wf_descriptor_fetch_refuses_none : (Instr.descriptorFetch 0 []).wf = false := by decide
theorem test_wf_descriptor_fetch_refuses_many : (Instr.descriptorFetch 0 (List.replicate 129 0)).wf = false := by decide +kernel
theorem test_wf_buffer_read_refuses_none : (Instr.bufferRead 0 []).wf = false := by decide
theorem test_wf_buffer_read_refuses_long : (Instr.bufferRead 0 (List.replicate 65536 0)).wf = false := by
  show (decide (1 ≤ (List.replicate 65536 (0 : Byte)).length) && decide ((List.replicate 65536 (0 : Byte)).length ≤ 65535)) = false
  rw [List.length_replicate]; decide
theorem test_wf_read_timeout_refuses_empty_fetch : (Instr.readTimeout ⟨.fetch 0 0, .timeout⟩).wf = false := by decide
theorem test_wf_read_timeout_refuses_long_fetch : (Instr.readTimeout ⟨.fetch 0 129, .timeout⟩).wf = false := by decide
theorem test_wf_sample_port_frame_refuses_none : (Instr.samplePortFrame 0 []).wf = false := by decide
theorem test_wf_sample_port_frame_refuses_five : (Instr.samplePortFrame 0 (List.replicate 5 0)).wf = false := by decide
theorem test_wf_asdu_refuses_no_value : (Instr.asdu 0 ⟨⟨0x88BA, 0⟩, 0, 0, [], 0, 0, 0, false, []⟩).wf = false := by decide
theorem test_wf_energy_epoch_refuses_fifteen : (Instr.energyEpoch (List.replicate 15 0) 0 0 0).wf = false := by decide
theorem test_wf_double_bit_error_refuses_beyond_the_memory : (Instr.doubleBitError (.tile 63) 0xC000).wf = false := by decide
theorem test_wf_double_bit_error_refuses_part_word : (Instr.doubleBitError (.tile 63) 2).wf = false := by decide
theorem test_wf_jtag_token_refuses_short : (Instr.jtagToken [0]).wf = false := by decide
theorem test_wf_accepts_nop : (Instr.nop 0 hdr).wf = true := by decide

/-! ## States: the host interface up, the device in IDLE, every ring enabled at 16 entries -/

def upRegs : List (Nat × Word) :=
  (List.range 37).foldl (fun l r => putReg (rcfgAddr r) 0x9 l) (putReg 0x100000 0xC809 [])

def up : State :=
  { State.reset with
    tick := 1000000, regs := upRegs, sys := { Sys.init with dev := .idle }, clk := { Clk.init with started := true, bypassCore := none },
    fr := { FrameSt.init with k := 100, epoch := 1000000, activatedAt := some 1000000 }, hif := { Hif.init with inReset := false, linkUp := true } }

/-- `up` with one octad in a given state. -/
def upOcts (n : Nat) (o : Octad) : State := { up with octs := up.octs.set n o }
def blocked : Octad := { Octad.init with state := .blocked }
def running : Octad := { Octad.init with state := .running }

/-- An image whose first section configures every octad and asks each for the same least number of cells. -/
def image (nmin : Byte) : List Byte :=
  List.replicate 32 0 ++ [1, 0, 20, 0, 0, 0xFF, 0, 0] ++ (List.replicate 8 [nmin, 0]).flatten
def withSet (s : State) (nmin : Byte) : State := { s with ps := { s.ps with image := some (image nmin), profile := .s } }

theorem ready_of {s : State} {r : Nat} {h : Hdr} {b : Body} (x : (s.canTake r && (s.ring r).untimed.isEmpty && !s.ringBusy r
    && h.act.isNone && s.mayStart b && (s.descCheck r h b).isNone && !(s.ring (10 + r)).halt) = true) : s.Ready r h b := by
  simp only [Bool.and_eq_true, List.isEmpty_iff, Bool.not_eq_true', Option.isNone_iff_eq_none] at x
  exact ⟨x.1.1.1.1.1.1, x.1.1.1.1.1.2, x.1.1.1.1.2, x.1.1.1.2, x.1.1.2, x.1.2, x.2⟩

def refAt (a : Nat) : RegRef := (regAt a).getD ⟨⟨.idIdcode, 0, 0, 0, 0, []⟩, 0, 0, 0⟩

theorem taken_of {s : State} {a : Nat} {v : Word} (x : (s.hostReach && (s.sys.dev == .idle || s.sys.dev == .run)
    && (regAt a).isSome && !s.kingpostDrives (refAt a) && (refAt a).df.fields.all (Fld.inRange · v) && s.rangeOk (refAt a) (s.takenWord (refAt a) v)
    && s.lockOk (refAt a) v (s.takenWord (refAt a) v)) = true) : s.WriteTaken a v (refAt a) := by
  simp only [Bool.and_eq_true, Bool.or_eq_true, beq_iff_eq, Bool.not_eq_true'] at x
  refine ⟨x.1.1.1.1.1.1, x.1.1.1.1.1.2, ?_, x.1.1.1.2, x.1.1.2, x.1.2, x.2⟩
  have := x.1.1.1.1.2
  unfold refAt
  cases hr : regAt a with
  | none => simp [hr] at this
  | some r => rfl

/-! ## Witnesses: steps and descriptors -/

theorem witness_step_runs_front_command : ({ up with pending := [.nop 0 hdr] }).pending = .nop 0 hdr :: [] := rfl
/-- The timebase on the bypass oscillator, whose ρ is 4.01. -/
def onBypass : State := { up with clk := { up.clk with bypassTime := some 999990, rho := 67276637, frac := 16777215 } }
theorem witness_idle_step : up.pending = [] ∧ up.clk.started = true ∧ up.clk.bypassTime = none ∧ up.time.rate = 0
    ∧ State.reset.pending = [] ∧ State.reset.clk.started = false
    ∧ onBypass.pending = [] ∧ onBypass.clk.started = true ∧ onBypass.clk.bypassTime = some 999990 := by decide +kernel
theorem test_bypass_cycle_counts_rho : (match step onBypass with | .next t => t.now | _ => 0) = 1000005 := by decide +kernel
/-- The host interface off, no lane transmitting, nothing sent or waiting. -/
def quiet : State := { up with regs := [] }
theorem witness_idle_step_quiet : quiet.pending = [] ∧ quiet.hifEn = false ∧ (∀ e ∈ quiet.lanes.ents, e.2.state.transmits = false)
    ∧ quiet.out.length ≤ quiet.txSeen ∧ (∀ r < 10, (quiet.ring r).untimed = []) ∧ quiet.clk.started = true ∧ quiet.time.rate = 0
    ∧ quiet.bel.shut = 0 ∧ quiet.bel.thawAt = none ∧ ({ onBypass with regs := [] } : State).hifEn = false
    ∧ State.reset.hifEn = false ∧ State.reset.bel.shut = 0 := by decide +kernel
theorem witness_commands_answer : exec .perstNRelease up = .next { up with hif := { up.hif with inReset := false } } := rfl
theorem witness_own_changes : writesKingpost .perstN = false ∧ resetsMain .perstN = false ∧ up.clk.started = true ∧ ∃ t, exec .perstN up = .next t :=
  ⟨rfl, rfl, rfl, _, rfl⟩
theorem canonical_up : up.canonical :=
  ⟨⟨by decide +kernel, by decide +kernel⟩, by decide +kernel⟩
theorem witness_step_keeps_canonical : up.canonical ∧ ∃ t, step up = .next t := ⟨canonical_up, _, rfl⟩

/-- A descriptor that check 2 of R357 refuses: DEBLOCK with TARGET 3. -/
theorem witness_failed_check : descriptorOf (.deblock 0 hdr 3) = some (2, hdr, .deblock 3) ∧ up.canTake 2 = true
    ∧ (up.ring 12).halt = false ∧ up.descCheck 2 hdr (.deblock 3) = some .refused ∧ bodyCode (.deblock 3) ≠ 0x31
    ∧ descriptorOf (.psetCommit hdr 0) = some (0, hdr, .psetCommit 0) ∧ up.canTake 0 = true ∧ (up.ring 10).halt = false
    ∧ up.descCheck 0 hdr (.psetCommit 0) = some .refused ∧ bodyCode (.psetCommit 0) = 0x31 := by decide +kernel

def locked : State := { up with sys := { up.sys with dev := .lockout } }

theorem witness_checks : opOnRing (bodyCode .coefSwap) 0 = false
    ∧ (opOnRing (bodyCode (.deblock 3)) 2 = true ∧ descWell 2 hdr (.deblock 3) = false)
    ∧ (bodyBuf (.imgStage ⟨0, 0, 20⟩ 0) = some ⟨0, 0, 20⟩ ∧ opOnRing (bodyCode (.imgStage ⟨0, 0, 20⟩ 0)) 0 = true
      ∧ descWell 0 hdr (.imgStage ⟨0, 0, 20⟩ 0) = true)
    ∧ (bodyBuf (.psetNonce ⟨0, 20, 19⟩) = some ⟨0, 20, 19⟩ ∧ descWell 0 hdr (.psetNonce ⟨0, 20, 19⟩) = true
      ∧ (19 : BitVec 16).toNat < (20 : BitVec 16).toNat)
    ∧ (descWell 0 hdr (.imgStage ⟨0, 2, 2⟩ 131071) = true ∧ 131072 < (131071 : Word).toNat + (2 : BitVec 16).toNat)
    ∧ ((hdrAt 65636).act = some 65636 ∧ bodyBuf .nop = none ∧ opOnRing (bodyCode .nop) 0 = true ∧ descWell 0 (hdrAt 65636) .nop = true
      ∧ 65535 < frameDiff 65636 up.nextBoundary)
    ∧ (locked.sys.dev = .lockout ∧ locked.lockoutAllows (bodyCode (.thmDemand 0)) = true
      ∧ locked.lockoutAllows (bodyCode .rundown) = false ∧ bodyBuf .rundown = none ∧ opOnRing (bodyCode .rundown) 2 = true
      ∧ descWell 2 hdr .rundown = true) := by decide +kernel

def fullList : List Desc := List.replicate 256 ⟨0, 0, hdrAt 200, .nop⟩
def upFull : State := { up with rings := up.rings.set 0 { Ring.init with pend := fullList } }

/-- The timed descriptors of this boundary have not been judged yet. -/
def early : State := { up with fr := { up.fr with activatedAt := none } }
theorem witness_timed_waits : descriptorOf (.nop 0 (hdrAt 98)) = some (0, hdrAt 98, .nop) ∧ early.canTake 0 = true
    ∧ (early.ring 10).halt = false ∧ early.descCheck 0 (hdrAt 98) .nop = none ∧ early.pendCount 0 < 256 ∧ early.activated = false
    ∧ up.canTake 0 = true ∧ up.descCheck 0 (hdrAt 101) .nop = none ∧ up.pendCount 0 < 256 ∧ up.activated = true
    ∧ frameDiff up.fr.k 101 = -1 := by decide +kernel
theorem witness_timed_in_time : up.descCheck 0 (hdrAt 100) .nop = none ∧ frameDiff up.fr.k 100 = 0
    ∧ up.descCheck 0 (hdrAt 98) .nop = none ∧ frameDiff up.fr.k 98 = 2 := by decide +kernel
theorem witness_timed_busy : upFull.canTake 0 = true ∧ (upFull.ring 10).halt = false
    ∧ upFull.descCheck 0 (hdrAt 200) .nop = none ∧ 256 ≤ upFull.pendCount 0 := by decide +kernel
theorem witness_timed_missed : up.descCheck 0 (hdrAt 97) .nop = none ∧ up.pendCount 0 < 256
    ∧ up.activated = true
    ∧ frameDiff up.fr.k 97 = 3 := by decide +kernel
theorem witness_untaken : descriptorOf (.nop 0 hdr) = some (0, hdr, .nop) ∧ State.reset.canTake 0 = false := by decide +kernel

theorem witness_nop : up.Ready 9 hdr .nop := ready_of (by decide +kernel)
theorem witness_block : (upOcts 7 running).Ready (octRing 7) hdr .block ∧ ((upOcts 7 running).oct 7).state.active = true :=
  ⟨ready_of (by decide +kernel), by decide +kernel⟩
theorem witness_rundown : (upOcts 7 running).Ready (octRing 7) hdr .rundown ∧ ((upOcts 7 running).oct 7).state = .running
    ∧ (upOcts 0 { running with state := .charging }).Ready (octRing 0) hdr .rundown
    ∧ ((upOcts 0 { running with state := .charging }).oct 0).state = .charging :=
  ⟨ready_of (by decide +kernel), by decide +kernel, ready_of (by decide +kernel), by decide +kernel⟩
theorem witness_rundown_state : (upOcts 7 blocked).Ready (octRing 7) hdr .rundown ∧ ((upOcts 7 blocked).oct 7).state ≠ .charging
    ∧ ((upOcts 7 blocked).oct 7).state ≠ .running := ⟨ready_of (by decide +kernel), by decide +kernel, by decide +kernel⟩

/-- A graph of no block whose channels 0 and 1 are the ledger's charge and current (R237). -/
def ledgerGraph : Graph := ⟨[], [⟨1, 3, 0, 0, 0, 0⟩, ⟨1, 3, 1, 0, 0, 0⟩], [], 0, 0, 0, 0, []⟩

/-- A Kingpost channel that runs with the block loop of octad 0 enabled. -/
def kpUp : KpChan := { KpChan.init with running := true, loops := (Tab.empty KpLoop.init).set 0 { KpLoop.init with enabled := true } }

/-- Octad 0 Blocked with every check of Table 18-6 met: a set in force, a graph, no cells, LDG_SCALE set, no B lane needed. -/
def deblockable : State :=
  { upOcts 0 blocked with
    ps := { Pset.init with profile := .s }
    engs := (Tab.empty Engine.init).set 0 { Engine.init with loading := some ledgerGraph }
    kp := { Kingpost.init with a := kpUp, b := kpUp }
    regs := putReg (octBase 0 + 0x2820) 2 (putReg (octBase 0 + 0x240C) 0x100 (putReg (octBase 0 + 0x2408) 0x40004000 upRegs)) }

theorem witness_deblock_waits_for_the_dispatch : deblockable.Ready (octRing 0) hdr (.deblock 2) ∧ (deblockable.oct 0).state = .blocked
    ∧ (deblockable.oct 0).deb = .none ∧ deblockable.bistOn 0 = false ∧ deblockable.deblockErr 0 = some 0
    ∧ deblockable.sys.halt = false
      ∧ ∀ e ∈ (deblockable.oct 0).epochs.head?, e < deblockable.fr.epoch := ⟨ready_of (by decide +kernel), by decide +kernel⟩

def deblockNow : State := { deblockable with octs := deblockable.octs.set 0 { blocked with epochs := [1000000] } }
theorem witness_deblock_at_its_epoch : deblockNow.Ready (octRing 0) hdr (.deblock 1) ∧ (deblockNow.oct 0).state = .blocked
    ∧ (deblockNow.oct 0).deb = .none ∧ deblockNow.bistOn 0 = false ∧ deblockNow.deblockErr 0 = some 0
    ∧ (deblockNow.oct 0).epochs.head? = some 1000000 ∧ deblockNow.fr.epoch ≤ 1000000 :=
  ⟨ready_of (by decide +kernel), by decide +kernel⟩

/-- B lanes needed (BKP 0b00) that may take over but are not WARM. -/
def deblockB : State :=
  { deblockable with
    regs := putReg (octBase 0 + 0x2820) 0 deblockable.regs
    lanes := (List.range 8).foldl (fun l i => l.set (2 * i + 1) { Lane.init with state := .hunt }) (Tab.empty Lane.init) }
theorem witness_deblock_waits_for_b_lanes : deblockB.Ready (octRing 0) hdr (.deblock 2) ∧ (deblockB.oct 0).state = .blocked
    ∧ (deblockB.oct 0).deb = .none ∧ deblockB.bistOn 0 = false ∧ deblockB.deblockErr 0 = none :=
  ⟨ready_of (by decide +kernel), by decide +kernel⟩
theorem witness_deblock_refused : (upOcts 0 blocked).Ready (octRing 0) hdr (.deblock 2) ∧ ((upOcts 0 blocked).oct 0).state = .blocked
    ∧ ((upOcts 0 blocked).oct 0).deb = .none ∧ (upOcts 0 blocked).bistOn 0 = false
    ∧ (upOcts 0 blocked).deblockErr 0 = some (0 + 1) := ⟨ready_of (by decide +kernel), by decide +kernel⟩
def charging : State := upOcts 0 { running with state := .charging }
def chargingKp : State := { charging with kp := { Kingpost.init with a := kpUp, b := kpUp } }
theorem witness_deblock_of_charging : charging.Ready (octRing 0) hdr (.deblock 2) ∧ (charging.oct 0).state = .charging
    ∧ charging.loopDisabled 0 = true ∧ chargingKp.Ready (octRing 0) hdr (.deblock 2) ∧ (chargingKp.oct 0).state = .charging
    ∧ chargingKp.loopDisabled 0 = false :=
  ⟨ready_of (by decide +kernel), by decide +kernel, by decide +kernel, ready_of (by decide +kernel), by decide +kernel, by decide +kernel⟩

/-- Octad 7 with cells 3584 and 4095, on serving P lanes. -/
def withCells : State :=
  { upOcts 7 running with
    cells := ((Tab.empty Cell.init).set 3584 { Cell.init with populated := true }).set 4095 { Cell.init with populated := true }
    lanes := ((Tab.empty Lane.init).set 112 { Lane.init with state := .active, serving := true }).set 126
      { Lane.init with state := .active, serving := true } }

/-- Work is shed up to class 3, snapshots (R493). -/
def shedding : State := { up with epl := { up.epl with shedTo := 4 } }
theorem witness_snapshot : up.Ready (octRing 0) hdr .ldgSnapshot ∧ up.sheds 3 = false
    ∧ shedding.Ready (octRing 0) hdr .ldgSnapshot ∧ shedding.sheds 3 = true :=
  ⟨ready_of (by decide +kernel), by decide +kernel, ready_of (by decide +kernel), by decide +kernel⟩
theorem witness_cell_query_state : withCells.Ready (octRing 7) hdr (.cellQuery 4094 1) ∧ (withCells.cell 4094).populated = false :=
  ⟨ready_of (by decide +kernel), by decide +kernel⟩
theorem witness_cell_retire_of_none : withCells.Ready (octRing 7) hdr (.cellRetire 4094) ∧ (withCells.cell 4094).populated = false :=
  ⟨ready_of (by decide +kernel), by decide +kernel⟩
theorem witness_cell_query : withCells.Ready (octRing 7) hdr (.cellQuery 4095 1) ∧ (withCells.oct 7).state ≠ .unconfigured
    ∧ (withCells.cell 4095).populated = true ∧ (withCells.servingLane (4095 / 64)).isSome = true :=
  ⟨ready_of (by decide +kernel), by decide +kernel⟩
theorem witness_cell_retire : withCells.Ready (octRing 7) hdr (.cellRetire 4095) ∧ (withCells.cell 4095).populated = true
    ∧ (withCells.cell 4095).retired = false ∧ withCells.keepsNmin (4095 / 512) [4095] = true :=
  ⟨ready_of (by decide +kernel), by decide +kernel⟩

theorem witness_cell_retire_fences : (withSet withCells 2).Ready (octRing 7) hdr (.cellRetire 4095)
    ∧ ((withSet withCells 2).cell 4095).populated = true ∧ ((withSet withCells 2).cell 4095).retired = false
    ∧ (withSet withCells 2).keepsNmin (4095 / 512) [4095] = false ∧ (withSet withCells 1).keepsNmin (4095 / 512) [4095] = true :=
  ⟨ready_of (by decide +kernel), by decide +kernel⟩

/-! ## Witnesses: engine descriptors -/

/-- A graph of one ADD-like block whose ports 0 and 1 are open to injection, with host mailboxes 0 and 63. -/
def hostGraph : Graph :=
  ⟨[⟨0x014, 0, 0, [0, 0, 0, 0xC000], 0, 0⟩], ⟨1, 7, 0, 0, 0, 0⟩ :: List.replicate 62 ⟨0, 0, 0, 0, 0, 0⟩ ++ [⟨1, 7, 0, 0, 0, 0⟩],
    List.replicate 8 0, 0, 0, 3, 0x12345678, [0]⟩
def withEng (s : State) (e : Nat) (x : Engine) : State := { s with engs := s.engs.set e x }
def eng : Engine := { Engine.init with graph := some hostGraph, bankA := List.replicate 8 0, bankB := List.replicate 8 0 }

theorem witness_mailbox : (withEng up 8 eng).Ready (engRing 8) hdr (.mboxWrite [(0, 1), (63, 2)])
    ∧ ((withEng up 8 eng).eng 8).graph = some hostGraph
    ∧ ∀ w ∈ ([(0, 1), (63, 2)] : List (Byte × Word)), (hostGraph.chans[w.1.toNat]?).any (fun x => x.kind == 1 && x.src == 7) = true :=
  ⟨ready_of (by decide +kernel), by decide +kernel,
    List.all_eq_true (p := fun w : Byte × Word => (hostGraph.chans[w.1.toNat]?).any fun x => x.kind == 1 && x.src == 7).mp
      (by decide +kernel)⟩
theorem witness_mailbox_refused : (withEng up 8 eng).Ready (engRing 8) hdr (.mboxWrite [(1, 1)])
    ∧ ∃ w ∈ ([(1, 1)] : List (Byte × Word)), ∀ x, hostGraph.chans[w.1.toNat]? = some x → x.src ≠ 7 :=
  ⟨ready_of (by decide +kernel), (1, 1), by simp, by intro x h; cases h; decide⟩
theorem witness_coef_swap : (withEng up 0 eng).Ready (engRing 0) hdr .coefSwap ∧ ((withEng up 0 eng).eng 0).swap = none
    ∧ (withEng up 0 { eng with swap := some (some 100) }).Ready (engRing 0) hdr .coefSwap
    ∧ ((withEng up 0 { eng with swap := some (some 100) }).eng 0).swap ≠ none :=
  ⟨ready_of (by decide +kernel), rfl, ready_of (by decide +kernel), by decide +kernel⟩

def sine : InjParams := ⟨3, 0, 1, 0, 0, 0, 1, 0, 0, 1⟩
theorem witness_inj_start : (withEng up 0 eng).Ready (engRing 0) hdr (.injStart sine)
    ∧ hostGraph.blocks[sine.block.toNat]? = some ⟨0x014, 0, 0, [0, 0, 0, 0xC000], 0, 0⟩ ∧ (0 : Nat) ≠ 4
    ∧ refKind (([0, 0, 0, 0xC000] : List (BitVec 16)).getD sine.port.toNat 0xC000) ≠ 3 ∧ sine.kind ≠ 3
    ∧ (((withEng up 0 eng).eng 0).inj.get sine.gen.toNat).active = false
    ∧ (((withEng up 0 eng).eng 0).inj.get sine.gen.toNat).pend = false :=
  ⟨ready_of (by decide +kernel), by decide +kernel⟩
def injecting : State := withEng up 0 { eng with inj := (Tab.empty Inj.init).set 3 { Inj.init with active := true } }
theorem witness_inj_busy_and_stop : injecting.Ready (engRing 0) hdr (.injStart sine)
    ∧ ((injecting.eng 0).inj.get sine.gen.toNat).active = true ∧ injecting.Ready (engRing 0) hdr (.injStop 8) :=
  ⟨ready_of (by decide +kernel), by decide +kernel, ready_of (by decide +kernel)⟩

theorem witness_coef_write : (withEng up 0 eng).Ready (engRing 0) hdr (.coefWrite ⟨0x1000, 32, 32⟩ 0)
    ∧ (withEng up 0 eng).coefWriteErr 0 32 0 = none ∧ ((withEng up 0 eng).ring (engRing 0)).buf = [] :=
  ⟨ready_of (by decide +kernel), by decide +kernel⟩
theorem witness_img_stage : up.Ready 0 hdr (.imgStage ⟨0x1000, 1, 1⟩ 131071) ∧ (up.ring 0).buf = [] :=
  ⟨ready_of (by decide +kernel), by decide +kernel⟩
def stageDesc (ofs : Word) : Desc := ⟨0, 0, hdr, .imgStage ⟨0x1000, 2, 2⟩ ofs⟩
def staging (ofs : Word) : State := { up with rings := up.rings.set 0 { Ring.init with buf := [(stageDesc ofs, false)], bufAt := 999000 } }
theorem witness_staged : ((staging 131070).ring 0).buf = [(stageDesc 131070, false)]
    ∧ (stageDesc 131070).body = .imgStage ⟨0x1000, 2, 2⟩ 131070 ∧ (stageDesc 131070).ring = 0
    ∧ (2 : BitVec 16).toNat = [1, (0 : Byte)].length
    ∧ (131070 : Word).toNat + [1, (0 : Byte)].length ≤ 131072 ∧ (staging 131070).hostReach = true
    ∧ (staging 131070).inCplTime ((staging 131070).ring 0).bufAt = true
    ∧ (staging 131070).sys.dev ≠ .lockout ∧ ((staging 131070).ring 0).untimed = [] ∧ Memory.wf (staging 131070).staging = true
    ∧ (staging 131070).ringEn 10 = true ∧ ((staging 131070).ring 10).halt = false := by decide +kernel
theorem test_staged_bytes_land : (match exec (.bufferRead 0 [1, 0]) (staging 131070) with
    | .next t => t.staging | _ => []) = [(131070, 1)] := by decide +kernel

/-- A law image of one block (Table 7-2) whose CRC is right, in the staging area. -/
def lawBytes : List Host.Cell :=
  [(0, 0xC3), (1, 0xA5), (2, 1), (4, 1), (12, 3), (60, 0xB0), (61, 0x7A), (62, 0x23), (63, 0x58), (1088, 0x14), (1093, 0xC0),
   (1095, 0xC0), (1097, 0xC0), (1099, 0xC0)]
def lawStaged : State := { up with staging := lawBytes }
theorem witness_law_loads : lawStaged.Ready 0 hdr (.lawLoad 0 1104) := ready_of (by decide +kernel)
set_option maxRecDepth 100000 in
theorem witness_law_accepted : lawStaged.lawErr 0 (memReadList 0 1104 lawStaged.staging) = 0 := by decide +kernel
theorem witness_law_refused : up.Ready 0 hdr (.lawLoad 8 1) ∧ up.lawErr 8 (memReadList 0 1 up.staging) = 1 :=
  ⟨ready_of (by decide +kernel), by decide +kernel⟩

/-- A mode table of one mode without entries (Table 9-3), for a graph whose CRC is 0x58237AB0. -/
def modeBytes : List Host.Cell :=
  [(0, 0xC9), (1, 0xA5), (2, 1), (4, 1), (8, 0xB0), (9, 0x7A), (10, 0x23), (11, 0x58), (12, 0xFE), (13, 0xB6), (15, 0xF7), (20, 1)]
def modeStaged : State := withEng { up with staging := modeBytes } 0 { eng with graph := some { hostGraph with crc := 0x58237AB0 } }
theorem witness_modes_load : modeStaged.Ready 0 hdr (.modeLoad 0 24) ∧ modeStaged.modeErr 0 (memReadList 0 24 modeStaged.staging) = 0 :=
  ⟨ready_of (by decide +kernel), by decide +kernel⟩
theorem witness_modes_refused : up.Ready 0 hdr (.modeLoad 8 1) ∧ up.modeErr 8 (memReadList 0 1 up.staging) ≠ 0 :=
  ⟨ready_of (by decide +kernel), by decide +kernel⟩

def modeParams : ModeParams := ⟨1, 0, 0, none⟩
def modeAtTime : ModeParams := ⟨1, 0, 0, some (5, 0)⟩
theorem witness_mode_change : up.canTake 0 = true ∧ (up.ring 10).halt = false
    ∧ up.descCheck 0 (hdrAt 200) (.modeChange modeParams) = none ∧ up.modeReq = none ∧ up.pendCount 0 < 256
    ∧ (staging 0).canTake 0 = true ∧ (staging 0).descCheck 0 hdr (.modeChange modeAtTime) = none ∧ (staging 0).ringBusy 0 = true
    ∧ up.descCheck 0 hdr (.modeChange modeAtTime) = none ∧ (up.ring 0).untimed = [] ∧ up.ringBusy 0 = false := by decide +kernel

/-! ## Witnesses: device descriptors -/

/-- Inputs 0 and 15 latched and idle beyond their filter time; input 1 latched and still active. -/
def latched : State :=
  { up with trips := ((up.trips.set 0 ⟨true, false, 0⟩).set 15 ⟨true, false, 0⟩).set 1 ⟨true, true, 0⟩ }
theorem witness_trip_clear : latched.Ready 0 hdr (.tripClear 0x8001)
    ∧ (∀ m < 16, bitOf 0x8001 m = true → (latched.trips.get m).latch = true → latched.tripIdle m = true)
    ∧ latched.Ready 0 hdr (.tripClear 0x8003)
    ∧ (∃ m < 16, bitOf 0x8003 m = true ∧ (latched.trips.get m).latch = true ∧ latched.tripIdle m = false) :=
  ⟨ready_of (by decide +kernel), by decide +kernel, ready_of (by decide +kernel), by decide +kernel⟩
def split : State := { up with time := { up.time with servo := .split, theta := 5 * 2 ^ 16, dt := 2 ^ 60 } }
theorem witness_time_step : split.Ready 0 hdr .timeStep ∧ split.allStill = true ∧ split.time.servo = .split
    ∧ up.Ready 0 hdr .timeStep ∧ up.time.servo ≠ .split :=
  ⟨ready_of (by decide +kernel), by decide +kernel, by decide +kernel, ready_of (by decide +kernel), by decide +kernel⟩
def warm : State := { up with lanes := up.lanes.set 127 { Lane.init with state := .warm } }
theorem witness_enumerate : warm.Ready 0 hdr (.enumerate 63 1) ∧ (warm.lane (2 * 63 + 1)).state = .warm
    ∧ (warm.lane (2 * 63 + 1)).auxAt = none ∧ up.Ready 0 hdr (.enumerate 63 1) ∧ (up.lane (2 * 63 + 1)).state = .off :=
  ⟨ready_of (by decide +kernel), by decide +kernel, by decide +kernel, ready_of (by decide +kernel), by decide +kernel⟩
def adopting : State :=
  { up with cells := ((up.cells.set 4095 { Cell.init with populated := true, smooth := some 77, validWins := 64, retired := true }).set
      3584 { Cell.init with populated := true, smooth := some 78, validWins := 63, c0 := 5 }) }
theorem witness_c0_commands : adopting.Ready 0 hdr (.c0Write 4095 9) ∧ (adopting.cell 4095).c0 = 0xFFFFFFFF
    ∧ adopting.Ready 0 hdr (.c0Write 3584 9) ∧ (adopting.cell 3584).c0 ≠ 0xFFFFFFFF
    ∧ adopting.Ready 0 hdr (.c0Clear 4095) ∧ (adopting.cell 4095).retired = true ∧ (adopting.oct (4095 / 512)).state.still = true
    ∧ adopting.Ready 0 hdr (.c0Clear 3584) ∧ (adopting.cell 3584).retired = false ∧ adopting.Ready 0 hdr (.c0Adopt 7) :=
  ⟨ready_of (by decide +kernel), by decide +kernel, ready_of (by decide +kernel), by decide +kernel, ready_of (by decide +kernel),
    by decide +kernel, by decide +kernel, ready_of (by decide +kernel), by decide +kernel, ready_of (by decide +kernel)⟩

def entry (code src : BitVec 16) (fn : Bool) : Active := ⟨code, src, 1, .fence, 3, fn, 1, 0x80, 1, 0⟩
/-- Octad 7 fenced by a fault that is gone. -/
def fenced : State := { upOcts 7 { Octad.init with state := .fenced } with flt := { up.flt with table := [entry 0x2504 7 false] } }
theorem witness_fault_clear : fenced.Ready 0 hdr (.faultClear 0 0xFFFF)
    ∧ (fenced.flt.table.filter fun a => ((0 : BitVec 16) == 0 || a.code == 0) && ((0xFFFF : BitVec 16) == 0xFFFF || a.src == 0xFFFF))
      = [entry 0x2504 7 false] ∧ [entry 0x2504 7 false].filter fenced.clearable ≠ [] ∧ (fenced.oct 7).state = .fenced
    ∧ (∃ a ∈ [entry 0x2504 7 false].filter fenced.clearable, a.fenced.getLsbD 7 = true) :=
  ⟨ready_of (by decide +kernel), by decide +kernel⟩
/-- The fall-back collector in charge with the record of the entry. -/
def fallen : State :=
  { fenced with
    flt := { fenced.flt with fallback := true }
    kp := { up.kp with fallRec := some ⟨9, 0, 0, 0, 0x2504, 7, 3, 0, 1, 0, 0, []⟩ } }
theorem witness_fallback_clear : fallen.Ready 0 hdr (.faultClear 0x2504 7) ∧ fallen.clearable (entry 0x2504 7 false) = true
    ∧ fallen.isFallbackEntry (entry 0x2504 7 false) = true ∧ (∀ a ∈ fenced.flt.table, fenced.isFallbackEntry a = false) :=
  ⟨ready_of (by decide +kernel), by decide +kernel⟩
/-- A trip input still active: its entry may not clear. -/
def tripped : State := { latched with flt := { up.flt with table := [entry 0x340F 1 false] } }
def holding : State := { up with flt := { up.flt with faultN := true, holdUntil := 1008000 } }
def holdingEntry : State := { up with flt := { up.flt with faultN := true, table := [entry 0x2504 7 true] } }
theorem witness_fault_release : holdingEntry.Ready 0 hdr .faultRelease ∧ holdingEntry.flt.table.any (·.faultN) = true
    ∧ holding.Ready 0 hdr .faultRelease ∧ holding.flt.table.any (·.faultN) = false ∧ holding.flt.tblFull = false
    ∧ holding.sys.dev ≠ .lockout ∧ holding.flt.faultN = true :=
  ⟨ready_of (by decide +kernel), by decide +kernel, ready_of (by decide +kernel), by decide +kernel⟩
theorem witness_thermal_demand : up.Ready 0 hdr (.thmDemand 0x8000000000000000001) := ready_of (by decide +kernel)
def oneRecord : State :=
  { up with bel := { up.bel with frozen := some 5, sill := [.record ⟨1, 0, 0, 0, 0x3808, 0, 0, 0, 1, 0, 0, []⟩] } }
theorem witness_bel_read : oneRecord.Ready 0 hdr (.belRead ⟨0, 64, 64⟩ 0 0 1) ∧ 0 + 1 ≤ (oneRecord.bel.held 0).length
    ∧ oneRecord.Ready 0 hdr (.belRead ⟨0, 64, 64⟩ 0 1 1) ∧ (oneRecord.bel.held 0).length < 1 + 1
    ∧ up.Ready 0 hdr .belFreeze ∧ up.bel.frozen = none ∧ up.bel.erasing = none ∧ up.bel.noteErase = none
    ∧ oneRecord.Ready 0 hdr .belFreeze ∧ oneRecord.Ready 0 hdr .belfryThaw ∧ oneRecord.bel.frozen.isSome = true :=
  ⟨ready_of (by decide +kernel), by decide +kernel, ready_of (by decide +kernel), by decide +kernel, ready_of (by decide +kernel),
    by decide +kernel, by decide +kernel, by decide +kernel, ready_of (by decide +kernel), ready_of (by decide +kernel), by decide +kernel⟩
def erasingNotes : State := { up with bel := { up.bel with noteErase := some 108 } }
theorem witness_freeze_waits : erasingNotes.Ready 0 hdr .belFreeze ∧ erasingNotes.bel.frozen = none
    ∧ erasingNotes.bel.noteErase.isSome = true ∧ up.Ready 0 hdr .belfryThaw ∧ up.bel.frozen = none :=
  ⟨ready_of (by decide +kernel), by decide +kernel, by decide +kernel, ready_of (by decide +kernel), by decide +kernel⟩
theorem witness_bist : up.Ready 0 hdr (.bistRun 0x400A) ∧ up.Ready 0 hdr (.bistRun 0x2007) ∧ up.Ready 0 hdr (.bistRequalify 0x103F)
    ∧ (∀ n < 8, up.bistOctads 0x2007 / 2 ^ n % 2 = 1 → (up.oct n).state.still = true ∨ (up.oct n).state = .fenced)
    ∧ (∀ n < 8, up.bistOctads 0x103F / 2 ^ n % 2 = 1 → (up.oct n).state.still = true ∨ (up.oct n).state = .fenced)
    ∧ up.sys.bist.busy = false ∧ up.epl.enforce = false ∧ up.sys.dev = .idle :=
  ⟨ready_of (by decide +kernel), ready_of (by decide +kernel), ready_of (by decide +kernel), by decide +kernel⟩
theorem witness_pset_commands : up.Ready 0 hdr (.psetNonce ⟨0, 20, 20⟩)
    ∧ (up.canTake 0 = true ∧ (up.ring 10).halt = false ∧ (19 : BitVec 16) ≠ 20)
    ∧ up.Ready 0 hdr (.psetCommit 131072) ∧ up.Ready 0 hdr (.keyChange 1) ∧ up.ps.commit = none :=
  ⟨ready_of (by decide +kernel), by decide +kernel, ready_of (by decide +kernel), ready_of (by decide +kernel), by decide +kernel⟩
def aCommit (locked : Bool) : Commit := ⟨false, [], locked, false, image 2, 5, none, .g⟩
def committing (locked : Bool) : State := { up with ps := { up.ps with commit := some (aCommit locked) } }
theorem witness_commit_busy : (committing false).Ready 0 hdr (.psetCommit 1) ∧ (committing false).Ready 0 hdr (.keyChange 1)
    ∧ (committing false).ps.commit.isSome = true := ⟨ready_of (by decide +kernel), ready_of (by decide +kernel), by decide +kernel⟩
theorem witness_attest_and_install : up.Ready 0 hdr (.attest ⟨0, 1440, 1440⟩ 5) ∧ up.Ready 0 hdr (.attest ⟨0, 4540, 4540⟩ 5)
    ∧ up.Ready 0 hdr (.attest ⟨0, 1439, 1439⟩ 5) ∧ up.Ready 0 hdr (.fwInstall 1 64)
    ∧ up.ps.fwRunning ≠ some 1 ∧ fwShape (memReadList 0 64 up.staging) = none
    ∧ ({ up with ps := { up.ps with fwRunning := some 0 } }).Ready 0 hdr (.fwInstall 0 64) :=
  ⟨ready_of (by decide +kernel), ready_of (by decide +kernel), ready_of (by decide +kernel), ready_of (by decide +kernel),
    by decide +kernel, by decide +kernel, ready_of (by decide +kernel)⟩
/-- A firmware image without body, SVN 0, its signature all zero bytes (R454): 64 + 1,280 bytes. -/
def fwStaged : State := { up with staging := [(0, 0xF1), (1, 0xA5), (2, 1)] }
/-- Whether the signature of these bytes verifies is the opaque Falcon check of Config; the other hypotheses hold. -/
theorem witness_firmware_accepted : fwStaged.Ready 0 hdr (.fwInstall 1 1344) ∧ fwStaged.ps.fwRunning ≠ some 1
    ∧ fwShape (memReadList 0 1344 fwStaged.staging) = some false ∧ fwStaged.ps.owner.state ≠ .active
    ∧ fwStaged.ps.svnFloor ≤ leAt (memReadList 0 1344 fwStaged.staging) 12 1 ∧ fwStaged.nvmHeld = false :=
  ⟨ready_of (by decide +kernel), by decide +kernel, by decide +kernel, by decide +kernel⟩
def fwLow : State := { fwStaged with ps := { fwStaged.ps with svnFloor := 1 } }
def fwOwned : State := { fwStaged with ps := { fwStaged.ps with owner := { fwStaged.ps.owner with state := .active } } }
theorem witness_firmware_refused : fwLow.Ready 0 hdr (.fwInstall 1 1344) ∧ fwLow.ps.fwRunning ≠ some 1
    ∧ leAt (memReadList 0 1344 fwLow.staging) 12 1 < fwLow.ps.svnFloor ∧ fwOwned.Ready 0 hdr (.fwInstall 1 1344)
    ∧ fwOwned.ps.owner.state = .active :=
  ⟨ready_of (by decide +kernel), by decide +kernel, by decide +kernel, ready_of (by decide +kernel), by decide +kernel⟩

/-! ## Witnesses: registers -/

def booting : State := { up with sys := { up.sys with dev := .boot } }
theorem witness_write_stops : up.hostReach = true ∧ locked.hostReach = true ∧ booting.hostReach = true ∧ inBlock 0x300004 1 = false
    ∧ up.sys.dev = .idle ∧ regAt 0x300FFC = none ∧ (refAt 0x300004).addr = 0x300004 ∧ regAt 0x300004 = some (refAt 0x300004)
    ∧ (∃ f ∈ (refAt 0x300004).df.fields, Fld.inRange f 0xFFFFFFFF = false) := by decide +kernel

/-- Writes that a lock of Table 19-13 refuses: each unit at its last place. -/
def lockedAt (s : State) (a : Nat) (v : Word) : Bool :=
  s.hostReach && s.sys.dev == .idle && regAt a == some (refAt a) && (refAt a).df.fields.all (Fld.inRange · v)
    && s.rangeOk (refAt a) (s.takenWord (refAt a) v)
theorem witness_locked_writes : lockedAt (upOcts 7 running) 0xF0280C 0x320 = true
    ∧ ((refAt 0xF0280C).df.name = .octCtype ∧ ((upOcts 7 running).oct (refAt 0xF0280C).own).state.still = false)
    ∧ lockedAt (upOcts 7 running) (tileBase 63 + 0x10C) 0 = true
    ∧ ((refAt (tileBase 63 + 0x10C)).df.name = .tilCtmap
      ∧ ((upOcts 7 running).oct ((refAt (tileBase 63 + 0x10C)).own / 8)).state.still = false)
    ∧ lockedAt (upOcts 7 running) (laneBase 127 + 0x20) 0 = true
    ∧ ((refAt (laneBase 127 + 0x20)).df.name = .lnkAsym
      ∧ ((upOcts 7 running).oct ((refAt (laneBase 127 + 0x20)).own / 16)).state.still = false)
    ∧ lockedAt up 0x100004 0 = true ∧ ((refAt 0x100004).df.name = .hifDblo ∧ up.hifEn = true)
    ∧ lockedAt up 0x100340 0 = true ∧ ((refAt 0x100340).df.name = .hifRbaselo ∧ up.ringEn (refAt 0x100340).idx = true)
    ∧ lockedAt up 0x400010 0x80000000 = true ∧ ((refAt 0x400010).df.name = .clkHop ∧ up.pointBusy (refAt 0x400010).idx = true)
    ∧ lockedAt up 0x300068 1 = true ∧ ((refAt 0x300068).df.name = .tsOrgctl ∧ (1 : Word).getLsbD 0 = true
      ∧ up.writtenOrigin ≤ up.time.dt) := by decide +kernel

/-- OWN of port 6 set: a write to its registers is ignored. -/
theorem witness_kingpost_drives : ({ up with regs := putReg 0x304060 0x40000000 up.regs }).kingpostDrives (refAt 0x304060) = true
    ∧ regAt 0x304060 = some (refAt 0x304060) := by decide +kernel
theorem witness_taken_write : up.WriteTaken 0xF02400 1000 (refAt 0xF02400) ∧ (refAt 0xF02400).df.name.starts = false
    ∧ (∃ f ∈ (refAt 0xF02400).df.fields, f.acc = .rw) :=
  ⟨taken_of (by decide +kernel), by decide +kernel, by decide +kernel⟩
theorem test_taken_write_lands : (match exec (.registerWrite ⟨.bar0, 0xF02400⟩ 1000 15) up with | .next t => t.reg 0xF02400 | _ => 0) = 1000 := by
  decide +kernel
theorem witness_flag_outlives_clear : up.clk.started = true ∧ (up.flag 0x108 2).WriteTaken 0x108 7 (refAt 0x108)
    ∧ (refAt 0x108).df.name.starts = false ∧ (∃ f ∈ (refAt 0x108).df.fields, f.acc = .w1c ∧ f.lo ≤ 2 ∧ 2 < f.lo + f.len) :=
  ⟨rfl, taken_of (by decide +kernel), by decide +kernel, by decide +kernel⟩
theorem test_flag_outlives_clear :
    (match exec (.registerWrite ⟨.bar0, 0x108⟩ 7 15) (up.flag 0x108 2) with | .next t => t.reg 0x108 | _ => 0) = 4 := by
  decide +kernel
theorem witness_undefined_reads : regAt 0x300FFC = none ∧ inImage 0x300FFC = false ∧ regAt 0x711000 = none ∧ inImage 0x711000 = true := by
  decide +kernel

/-- `up` with the host interface and every ring off, the lane of tile 63 that may train. -/
def off : State :=
  { up with
    regs := []
    octs := up.octs.set 7 blocked
    clk := { up.clk with quads := up.clk.quads.set 31 { PllSt.init with state := .locked } } }
theorem canonical_off : off.canonical := ⟨⟨by decide +kernel, by decide +kernel⟩, by decide +kernel⟩
theorem witness_interface_enable : off.WriteTaken 0x100000 (0xC808 ||| 1) (refAt 0x100000) ∧ off.hifEn = false
    ∧ off.hif.lostTimer = none ∧ off.hif.lost = false ∧ off.hif.sweeping = false :=
  ⟨taken_of (by decide +kernel), by decide +kernel⟩
theorem witness_ring_enable : off.WriteTaken (rcfgAddr 36) (8 ||| 1) (refAt (rcfgAddr 36)) ∧ off.ringEn 36 = false :=
  ⟨taken_of (by decide +kernel), by decide +kernel⟩
theorem witness_ring_disable : up.WriteTaken (rcfgAddr 36) (up.reg (rcfgAddr 36) &&& ~~~1) (refAt (rcfgAddr 36)) ∧ up.ringEn 36 = true :=
  ⟨taken_of (by decide +kernel), by decide +kernel⟩
theorem witness_origin_arm : ({ up with regs := putReg 0x300060 16 up.regs }).WriteTaken 0x300068 1 (refAt 0x300068) :=
  taken_of (by decide +kernel)
theorem witness_tomb_clr : up.WriteTaken 0x500000 1 (refAt 0x500000) := taken_of (by decide +kernel)
theorem witness_eye_scan_start : off.WriteTaken (laneBase 127 + 0x1C) (off.reg (laneBase 127 + 0x1C) &&& 0xF0 ||| 1) (refAt (laneBase 127 + 0x1C)) :=
  taken_of (by decide +kernel)
theorem witness_lane_enable : off.WriteTaken (laneBase 127) (off.reg (laneBase 127) ||| 1) (refAt (laneBase 127))
    ∧ (off.lane 127).state = .off ∧ off.laneUsable 127 = true ∧ (off.oct (127 / 16)).state ≠ .unconfigured
    ∧ (off.clk.quads.get (127 / 4)).state = .locked := ⟨taken_of (by decide +kernel), by decide +kernel⟩
def hunting : State := { off with lanes := off.lanes.set 127 { Lane.init with state := .hunt } }
theorem witness_lane_disable : hunting.WriteTaken (laneBase 127) (hunting.reg (laneBase 127) &&& ~~~1) (refAt (laneBase 127))
    ∧ (hunting.lane 127).state ≠ .retired ∧ (hunting.lane 127).state ≠ .off := ⟨taken_of (by decide +kernel), by decide +kernel⟩
theorem test_lane_enable_hunts : (match exec (.laneEnable 127) off with | .next t => (t.lane 127).state | _ => .off) = .hunt := by
  decide +kernel
theorem witness_time0_read : up.hostReach = true ∧ up.hif.linkUp = true ∧ up.hif.inReset = false ∧ up.hif.pba = 0
    ∧ (7 : Word).toNat % 4 = 3 ∧ (8 : Word).toNat % 4 = 0 := by decide +kernel
/-- R342: a vector masked in BAR2. -/
theorem test_vector_mask_lands : (match exec (.registerWrite ⟨.bar2, 1020⟩ 0 15) up with
    | .next t => ((t.hif.msixTab.get 63).mask, (t.hif.msixTab.get 62).mask) | _ => (true, false)) = (false, true) := by decide +kernel

/-! ## Witnesses: the host interface -/

/-- A page with producer indices 5 and 16 of rings 0 and 9, GEN 3. -/
def page : List Word := 5 :: List.replicate 8 0 ++ [16] ++ List.replicate 17 0 ++ [3] ++ List.replicate 36 0
/-- The sweep is due now; or its read was issued 100 ticks ago and the next is due later. -/
def swept : State :=
  { up with hif := { up.hif with gen := 2, genSeen := true, lostTimer := some 1000000, sweepAt := 1000000 } }
def sweptLost : State := { swept with hif := { swept.hif with lost := true, lostTimer := none } }
def sweepOut (tries : Nat) : State :=
  { swept with hif := { swept.hif with sweepAt := 1000001, sweeps := [⟨900000, 980000, 100, tries⟩] } }
theorem witness_sweep : swept.hifEn = true ∧ swept.hostReach = true ∧ (swept.hif.sweeps = [] ∧ swept.hif.sweepAt ≤ swept.hifNow)
    ∧ ((sweepOut 0).hif.sweeps ≠ [] ∧ (sweepOut 0).hifNow < (sweepOut 0).hif.sweepAt
      ∧ ∀ w ∈ (sweepOut 0).hif.sweeps.head?, (sweepOut 0).inCplTime w.issued = true)
    ∧ (swept.ringEn 0 = true ∧ (swept.ring 0).halt = false ∧ (loHalf (page.getD 0 0) - (swept.ring 0).dev).toNat < swept.ringSize 0)
    ∧ (swept.ringEn 9 = true ∧ (swept.ring 9).halt = false ∧ swept.ringSize 9 ≤ (loHalf (page.getD 9 0) - (swept.ring 9).dev).toNat)
    ∧ (swept.hif.genSeen = true ∧ page.getD 27 0 ≠ swept.hif.gen ∧ swept.hif.lost = false ∧ swept.hif.lostTimer = some 1000000
      ∧ swept.hifNow ≤ 1000000)
    ∧ sweptLost.hif.lost = true := by decide +kernel
/-- R353: the five descriptors of ring 0 are fetched from its base; ring 9, overrun, is not. -/
theorem test_sweep_fetches : (match exec (.doorbellSweep page) swept with
    | .next t => ((t.ring 0).fetching, (t.ring 9).halt, (t.ring 9).fetching) | _ => (0, false, 0)) = (5, true, 0) := by decide +kernel

/-- A NOP as 32 bytes: opcode 0, TAG 7 (Table 11-4). -/
def nopBits : BitVec 256 := 0x00070000
def oneFetch (count tries : Nat) : Fetch := ⟨count, 980000, 900000, tries⟩
def fetching : State := { up with rings := up.rings.set 9 { Ring.init with fetches := [oneFetch 1 0], host := 1 } }
theorem witness_fetch : (fetching.ring 9).fetches = [oneFetch 1 0] ∧ (oneFetch 1 0).count = 1 ∧ fetching.hostReach = true
    ∧ fetching.inCplTime (oneFetch 1 0).issued = true
    ∧ (decodeDesc 9 nopBits).res = .ok (hdr, .nop)
    ∧ hdr.act = none ∧ (fetching.ring 9).untimed = [] ∧ fetching.ringBusy 9 = false ∧ fetching.descCheck 9 hdr .nop = none
    ∧ fetching.sys.dev = .idle ∧ fetching.ringEn 19 = true ∧ (fetching.ring 19).halt = false := by
  refine ⟨rfl, rfl, rfl, by decide +kernel, rfl, rfl, rfl, ?_⟩; decide +kernel

/-- Opcode 0xFF is no opcode. -/
def badBits : BitVec 256 := 0x000700FF
theorem witness_fetch_refused : (decodeDesc 9 badBits).res = .error .badOpcode ∧ fetching.ringEn 19 = true
    ∧ (fetching.ring 19).halt = false := by
  refine ⟨rfl, ?_⟩; decide +kernel
/-- R352: the sweep's last read over, its device half goes out: ring 9's consumer index 1 in word 41, its completion's producer index 1. -/
theorem test_fetch_writes_the_half : (match exec (.descriptorFetch 9 [nopBits]) fetching with
    | .next t => t.hif.doorbell.getD 9 0 | _ => 0) = 0x00010001 := by decide +kernel

def timed (k : Word) : State := { up with rings := up.rings.set 9 { Ring.init with pend := [⟨9, 3, hdrAt k, .nop⟩] } }
/-- The frames 100 (OK), 98 (LATE), 97 (MISSED), 101 and 65,635 (waiting) against frame 100. -/
def timedOk (k : Word) : Bool :=
  (timed k).sys.dev == .idle && (timed k).reaches (timed k).fr.epoch && ((timed k).ring 9).pend == [⟨9, 3, hdrAt k, .nop⟩]
    && (List.range 10).all (fun r => (r == 9 || ((timed k).ring r).pend.isEmpty) && ((timed k).ring r).untimed.isEmpty)
    && (timed k).ringEn 19 && !((timed k).ring 19).halt
theorem witness_timed_due : timedOk 100 = true ∧ timedOk 98 = true ∧ timedOk 97 = true ∧ timedOk 101 = true ∧ timedOk 65635 = true := by
  decide +kernel
theorem witness_timed_frames : frameDiff 100 100 = 0 ∧ frameDiff 100 98 = 2 ∧ frameDiff 100 97 = 3 ∧ frameDiff 100 101 = -1
    ∧ frameDiff 100 65635 = -65535 := by decide +kernel

theorem witness_sweep_timeout : up.hifEn = true ∧ up.hostReach = true ∧ (sweepOut 1).hif.sweeps = ⟨900000, 980000, 100, 1⟩ :: []
    ∧ (1 : Nat) < 2 ∧ (sweepOut 2).hif.sweeps = ⟨900000, 980000, 100, 2⟩ :: []
    ∧ up.readEnds .timeout 980000 = true ∧ up.readEnds .timeout 980001 = false ∧ up.readEnds .abort 1000000 = true := by decide +kernel
def fetchTries (n : Nat) : State := { up with rings := up.rings.set 9 { Ring.init with fetches := [oneFetch 128 n, oneFetch 1 0] } }
theorem witness_fetch_timeout : (128 : BitVec 8) ≠ 0 ∧ ((fetchTries 1).ring 9).fetches = oneFetch 128 1 :: [oneFetch 1 0]
    ∧ (oneFetch 128 1).count = (128 : BitVec 8).toNat ∧ up.readEnds .timeout (oneFetch 128 1).issued = true
    ∧ (oneFetch 128 1).tries < 2 ∧ ((fetchTries 2).ring 9).fetches = oneFetch 128 2 :: [oneFetch 1 0] ∧ 2 ≤ (oneFetch 128 2).tries
    ∧ (fetchTries 2).ringEn 19 = true ∧ ((fetchTries 2).ring 19).halt = false := by decide +kernel
def bufTries (n : Nat) : State :=
  { up with rings := up.rings.set 0 { Ring.init with buf := [(stageDesc 0, false)], bufTries := n, bufAt := 980000 } }
theorem witness_buffer_timeout : ((bufTries 1).ring 0).buf = (stageDesc 0, false) :: [] ∧ (stageDesc 0).ring = 0
    ∧ bodyBuf (stageDesc 0).body = some ⟨0x1000, 2, 2⟩ ∧ (bufTries 1).readEnds .timeout ((bufTries 1).ring 0).bufAt = true
    ∧ ((bufTries 1).ring 0).bufTries < 2 ∧ 2 ≤ ((bufTries 2).ring 0).bufTries ∧ (bufTries 2).ringEn 10 = true
    ∧ ((bufTries 2).ring 10).halt = false := by decide +kernel

/-- A sweep, a fetch and a buffer read whose data comes one tick after CPLTO. -/
def lateReads : State :=
  { up with
    hif := { up.hif with sweepAt := 1000001, sweeps := [⟨900000, 979999, 100, 0⟩] }
    rings := (up.rings.set 9 { Ring.init with fetches := [⟨1, 979999, 900000, 0⟩] }).set 0
      { Ring.init with buf := [(stageDesc 0, false)], bufAt := 979999 } }
theorem witness_late_data : lateReads.hifEn = true ∧ lateReads.hostReach = true ∧ lateReads.hifNow < lateReads.hif.sweepAt
    ∧ lateReads.hif.sweeps = [⟨900000, 979999, 100, 0⟩] ∧ (lateReads.ring 9).fetches = [⟨1, 979999, 900000, 0⟩]
    ∧ (lateReads.ring 0).buf = [(stageDesc 0, false)] ∧ lateReads.inCplTime 979999 = false
    ∧ bodyBuf (stageDesc 0).body = some ⟨0x1000, 2, 2⟩ ∧ (lateReads.ring 0).bufAt = 979999 := by decide +kernel
theorem witness_link : up.hif.inReset = false ∧ up.hif.linkUp = true ∧ linkOk 1 2 = true ∧ linkOk 5 0 = false := by decide
def losing (bit14 : Bool) : State :=
  { upOcts 7 running with
    hif := { up.hif with lostTimer := some 999999 }
    regs := if bit14 then putReg 0x10000C 0x4064 upRegs else upRegs }
theorem witness_host_lost : (losing true).hif.lostTimer = some 999999 ∧ 999999 < (losing true).hifNow
    ∧ (losing true).fld 0x10000C 14 1 = 1 ∧ ((losing true).oct 7).state = .running ∧ (losing false).fld 0x10000C 14 1 = 0 := by
  decide +kernel
theorem canonical_losing : (losing true).canonical := ⟨⟨by decide +kernel, by decide +kernel⟩, by decide +kernel⟩


/-! ## Witnesses: the cell frame, engines and outputs -/

/-- Octad 7 at T_FB of frame 100, with a cell whose feedback is fresh. -/
def atLatch : State :=
  { withCells with
    octs := withCells.octs.set 7 { running with frame := 100, epoch := 998800, epochs := [998800], toLatch := [(100, 998800)] }
    cells := withCells.cells.set 4095 { Cell.init with populated := true, fb := ⟨30000, 0, 0, 0, 0, true, 0, 0⟩ } }
def atLatchHalted : State := { atLatch with octs := atLatch.octs.upd 7 fun o => { o with halted := true, iLed := 5 } }
theorem witness_latch : atLatch.alive = true ∧ (atLatch.oct 7).state ≠ .unconfigured ∧ (atLatch.oct 7).toLatch = (100, 998800) :: []
    ∧ frameAt 998800 (atLatch.oct 7).tl.tfb ≤ atLatch.now ∧ (atLatch.oct 7).halted = false ∧ (atLatchHalted.oct 7).halted = true
    ∧ 4095 ∈ atLatch.octCells 7 ∧ (withEng atLatch 7 eng).alive = true ∧ ((withEng atLatch 7 eng).eng 7).loaded.isSome = true := by
  decide +kernel
def firstFrame : State := { atLatch with octs := atLatch.octs.upd 7 fun o => { o with fresh := true, sign := .discharge, discharge := true } }
theorem witness_first_frame : (atLatch.oct 7).fresh = false ∧ (firstFrame.oct 7).fresh = true ∧ (firstFrame.oct 7).selIn = 0
    ∧ (firstFrame.oct 7).halted = false := by decide +kernel
/-- R67, R68: the first frame after a Deblock starts from ZERO and CHARGE. -/
theorem test_first_frame_forgets_the_sign : (match exec (.feedbackDeadline ⟨7, []⟩) firstFrame with
    | .next t => ((t.oct 7).sign, (t.oct 7).discharge) | _ => (.charge, true)) = (.zero, false) := by
  decide +kernel
theorem test_latch_takes_fresh_feedback : (match exec (.feedbackDeadline ⟨7, []⟩) atLatch with
    | .next t => ((t.cell 4095).v, (t.cell 4095).stale, (t.oct 7).vbar) | _ => (0, true, 0)) = (30000, false, 15000) := by
  decide +kernel

def station : State := { withEng up 8 eng with fr := { up.fr with stationDue := some (100, 999600), epoch := 999600 } }
theorem witness_station_start : station.alive = true ∧ station.fr.stationDue = some (100, 999600) ∧ 999600 ≤ station.now
    ∧ (station.eng 8).running = false ∧ (station.eng 8).loaded.isSome = true := by decide +kernel
def stationRuns : State :=
  { withEng up 8 { eng with running := true, sampleTick := 984400 } with fr := { up.fr with stationDl := 1000000 } }
/-- 4,080 corrected reads of block 0, 16,320 cycles in all (R244). -/
def slowReads : List BlockReads := List.replicate 16 ⟨0, 255⟩
theorem witness_station_deadline : stationRuns.alive = true ∧ (stationRuns.eng 8).running = true
    ∧ (stationRuns.eng 8).graph = some hostGraph ∧ stationRuns.fr.stationDl ≤ stationRuns.now
    ∧ stationRuns.sampleDone 8 ((hostGraph.sched [⟨0, 1⟩]).last + 40) stationRuns.fr.stationDl = true
    ∧ stationRuns.sampleDone 8 ((hostGraph.sched slowReads).last + 40) stationRuns.fr.stationDl = false
    ∧ up.alive = true ∧ (up.eng 8).running = false := by decide +kernel
/-- R34: a corrected read of the station's memory while no sample runs is counted. -/
theorem test_idle_station_counts_corrections : (match exec (.stationDeadline [] 3) up with
    | .next t => (t.sys.corrected.get 72).n | _ => 0) = 3 := by decide +kernel
def engineRuns : State :=
  withEng { withCells with octs := withCells.octs.set 7 { running with
      frame := 100, epoch := 997200, epochs := [997200], toCommit := [(100, 997200)], toSend := [(100, 997200)] } }
    7 { eng with running := true, sampleTick := 998400 }
theorem witness_engine_deadline : engineRuns.alive = true ∧ (engineRuns.oct 7).state = .running
    ∧ (engineRuns.oct 7).toCommit = (100, 997200) :: [] ∧ frameAt 997200 (engineRuns.oct 7).tl.ted ≤ engineRuns.now
    ∧ (engineRuns.eng 7).graph = some hostGraph ∧ (engineRuns.eng 7).running = true
    ∧ engineRuns.sampleDone 7 ((hostGraph.sched []).last + 40) (frameAt 997200 (engineRuns.oct 7).tl.ted) = true
    ∧ (engineRuns.oct 7).selIn = 0 ∧ (engineRuns.oct 7).selRunning = false ∧ (engineRuns.eng 7).older = []
    ∧ engineRuns.sampleDone 7 ((hostGraph.sched slowReads).last + 40) (frameAt 997200 (engineRuns.oct 7).tl.ted) = false := by
  decide +kernel

theorem canonical_engineRuns : engineRuns.canonical := ⟨⟨by decide +kernel, by decide +kernel⟩, by decide +kernel⟩
/-- Two samples under way: that of frame 100 comes to its deadline, that of frame 101 has begun. -/
def twoSamples : State :=
  engineRuns.updEng 7 fun e => { e with sampleTick := 999600, sampleFrame := 101, older := [⟨100, 998400, 1, [], Tab.empty Inj.init, false, false⟩] }
theorem witness_older_sample : twoSamples.alive = true ∧ (twoSamples.oct 7).state ≠ .unconfigured
    ∧ (twoSamples.oct 7).toCommit = (100, 997200) :: [] ∧ frameAt 997200 (twoSamples.oct 7).tl.ted ≤ twoSamples.now
    ∧ (twoSamples.eng 7).graph = some hostGraph ∧ (twoSamples.eng 7).running = true
    ∧ (twoSamples.eng 7).older = ⟨100, 998400, 1, [], Tab.empty Inj.init, false, false⟩ :: []
    ∧ (twoSamples.updEng 7 Engine.oldestFirst).sampleDone 7 ((hostGraph.sched []).last + 40)
        (frameAt 997200 (twoSamples.oct 7).tl.ted) = true := by decide +kernel

def frameDue : State := { withEng up 8 eng with fr := { up.fr with epoch := 996000 } }
theorem witness_base_frame : frameDue.alive = true ∧ frameDue.fr.epoch + frameDue.tfTicks = frameDue.now
    ∧ frameDue.now < frameDue.fr.epoch + 2 * frameDue.tfTicks ∧ (frameDue.eng 8).loaded.isSome = true := by decide +kernel
theorem test_base_frame_advances : (match exec .baseFrameBoundary frameDue with | .next t => (t.fr.k, t.fr.epoch) | _ => (0, 0))
    = (101, 1000000) := by decide +kernel
theorem witness_octad_epoch : up.alive = true ∧ (∀ e ∈ (up.oct 7).epochs.head?, e < up.fr.epoch) ∧ (up.oct 7).deb = .none
    ∧ (upOcts 7 running).alive = true ∧ ((upOcts 7 running).oct 7).state ≠ .unconfigured
    ∧ up.fr.epoch + (up.oct 7).tl.phase ≤ up.now := by decide +kernel
def still : State := { upOcts 7 { blocked with epoch := 1000000 } with regs := putReg (octBase 7 + 8) 0x00380020 upRegs }
theorem witness_timeline : still.alive = true ∧ still.now = still.fr.epoch ∧ still.allStill = true
    ∧ still.reaches still.fr.epoch = true ∧ still.reaches (still.oct 7).epoch = true ∧ (still.oct 7).state.still = true
    ∧ (withSet (upOcts 7 running) 0).alive = true ∧ (withSet (upOcts 7 running) 0).allStill = false := by decide +kernel
theorem test_timeline_is_taken : (match exec .timelineTakesEffect still with | .next t => (t.oct 7).tl.tfb | _ => 0) = 0x20 := by
  decide +kernel
theorem witness_origin : ({ up with time := { up.time with orgPend := true } }).alive = true
    ∧ ({ up with time := { up.time with orgPend := true } }).time.orgTime ≤ up.time.dt := by decide +kernel
def deciding (notArm : BitVec 9) : State :=
  { withEng up 8 { eng with modes := [⟨1, [], []⟩, ⟨1, [], []⟩], armed := some 1 } with
    modeReq := some ⟨⟨0x100, 0, 0x100000000, none⟩, some 101, 101, 101, false, true, false, 0, notArm, [], 0, false⟩ }
theorem witness_mode_decision : ∃ r, (deciding 0).modeReq = some r ∧ r.decided = false ∧ r.armed = true ∧ r.redo = false
    ∧ 0 ≤ frameDiff (deciding 0).fr.k (r.ke - 1) ∧ r.notArm = 0
    ∧ (∃ e < 9, unitNamed r.p e = true ∧ ((deciding 0).eng e).armed.isSome = true)
    ∧ targetOf r.p 8 ≠ ((deciding 0).eng 8).mode := ⟨_, rfl, by decide +kernel⟩
theorem witness_mode_refused : ∃ r, (deciding 1).modeReq = some r ∧ r.decided = false ∧ r.armed = true ∧ r.redo = false
    ∧ 0 ≤ frameDiff (deciding 1).fr.k (r.ke - 1) ∧ r.notArm ≠ 0 := ⟨_, rfl, by decide +kernel⟩

/-- Output 23 enabled, sourced by channel 0 of the station, at the start of a period. -/
def pulse (en : Bool) : State :=
  { withEng up 8 { eng with committed := true, out := (Tab.empty 0).set 0 (BF.ofQ15 16384).toWord } with
    dpws := up.dpws.set 23 { Dpwm.init with cfg := if en then 0x00080F05 else 0x00080F04, writes := [(999999, 2, 0)], safe := false } }
theorem witness_pulse_period : ∀ b, (pulse b).sys.dev = .idle ∧ (pulse b).fr.dpwHalt = false
    ∧ (pulse b).dpwZero ((pulse b).dpws.get 23) ≤ (pulse b).now
    ∧ ((pulse b).now - (pulse b).dpwZero ((pulse b).dpws.get 23)) % ((pulse b).dpws.get 23).period = 0
    ∧ ((pulse b).dpws.get 23).startAt ≤ (pulse b).now ∧ (∀ w ∈ ((pulse b).dpws.get 23).writes, (pulse b).now < w.1 + 400)
    ∧ (pulse b).dpwSafe 23 = false ∧ ((pulse b).dpws.get 23).en = b ∧ ((pulse b).eng ((pulse b).dpws.get 23).eng).committed = true := by
  decide +kernel
def pulseSafe : State :=
  { pulse true with trips := up.trips.set 0 ⟨true, false, 0⟩, regs := putReg 0x308404 0x00800000 upRegs }
theorem witness_pulse_safe : pulseSafe.dpwSafe 23 = true := by decide +kernel
def edges (r f : Option Nat) : State := { up with dpws := up.dpws.set 23 { Dpwm.init with safe := false, rise := r, fall := f } }
theorem witness_edges : ((edges (some 1000000) none).dpws.get 23).safe = false ∧ (edges (some 1000000) none).fr.dpwHalt = false
    ∧ ((edges (some 1000000) none).dpws.get 23).rise = some 1000000 ∧ ((edges none (some 1000000)).dpws.get 23).rise = none
    ∧ ((edges none (some 1000000)).dpws.get 23).fall = some 1000000
    ∧ 1000000 + bit (((edges none (some 1000000)).dpws.get 23).late && (edges none (some 1000000)).clk.bypassTime.isNone)
      ≤ (edges none (some 1000000)).now := by decide +kernel
/-- The late falling edge of the dither, and the bypass interval that has none (R113, R481). -/
def lateEdge (byp : Bool) : State :=
  let s := edges none (some 1000000)
  { s with dpws := s.dpws.upd 23 fun d => { d with late := true }
           clk := { s.clk with bypassTime := if byp then some 999000 else none } }
theorem test_dither_is_one_tick_late : (match exec (.dpwmEdge 23) (lateEdge false), exec (.dpwmEdge 23) (lateEdge true) with
    | .next t, .next u => ((t.dpws.get 23).fall, (u.dpws.get 23).fall) | _, _ => (none, none)) = (some 1000000, none) := by
  decide +kernel

theorem witness_carry : (0 : Int) ≤ 5 ∧ (5 : Int) ≤ 10 ∧ (0 : Int) ≤ 5 ∧ 2 * (5 : Int) ≤ 10 ∧ -(10 : Int) ≤ -10 ∧ (-10 : Int) ≤ 10 := by decide
theorem test_selection_by_hand : selectMoves [4, 9] [7] 2 .charge false 8 (fun c => c) (fun _ => false) (fun _ => false)
    = ⟨[4], [], 0, some 9⟩ := by decide
def selecting (late : Bool) : State :=
  { withCells with octs := withCells.octs.set 7 { running with
      selRunning := true, selAt := 0, selFrame := 100, toSend := if late then [(101, 1000000)] else [(100, 998800), (101, 1000000)] } }
theorem witness_selection : ((selecting false).oct 7).selRunning = true ∧ ((selecting false).oct 7).selReset = false
    ∧ ((selecting false).oct 7).selInTime = true ∧ (selecting false).coreRan 0 1000000 600 = true ∧ (selecting false).now = 1000000
    ∧ (selecting false).coreRan 0 1000000 400 = true ∧ ((selecting true).oct 7).selInTime = false
    ∧ ((selecting false).oct 7).selSlow = false
    ∧ (((selecting true).updOct 7 fun o => { o with selSlow := true }).oct 7).selSlow = true
    ∧ (((selecting false).updOct 7 fun o => { o with tcDone := true }).oct 7).tcDone = true := by decide +kernel

/-- A full window of one cell with an estimate. -/
def windowFull : State :=
  { withCells with
    octs := withCells.octs.set 7 { running with window := 100000 }
    cells := withCells.cells.set 4095 { Cell.init with populated := true, sqv := 1000000, svv := 100, nq := 1000 } }
theorem witness_window_end : (windowFull.oct 7).window ≠ 0 ∧ (windowFull.oct 7).winW = (windowFull.oct 7).window
    ∧ 4095 ∈ windowFull.octCells 7 ∧ (windowFull.cell 4095).retL = false := by decide +kernel
theorem canonical_window : windowFull.canonical := ⟨⟨by decide +kernel, by decide +kernel⟩, by decide +kernel⟩
def arithmetic : State :=
  { withCells with
    octs := withCells.octs.set 7 { running with arithPending := true, arithFrames := 63, toLatch := [(100, 998800)] }
    cells := withCells.cells.set 4095 { Cell.init with populated := true, endValid := true, endHat := 640, smooth := some 0 } }
theorem witness_arithmetic : (arithmetic.oct 7).arithPending = true ∧ 63 ≤ (arithmetic.oct 7).arithFrames
    ∧ (arithmetic.oct 7).toLatch = (100, 998800) :: [] ∧ frameAt 998800 (arithmetic.oct 7).tl.tfb ≤ arithmetic.now
    ∧ (arithmetic.octCells 7).Nodup ∧ (arithmetic.cell 4095).endValid = true := by decide +kernel
/-- R97: C̃ + (Ĉ − C̃ + 32) / 64, rounded down. -/
theorem test_smoothing_step : (match exec (.ledgerArithmeticComplete 7) arithmetic with | .next t => (t.cell 4095).smooth | _ => none)
    = some 10 := by decide +kernel
theorem witness_csave : ({ up with tick := 1440000000000 }).bel.csaveAt + 3600 * 400000000 = ({ up with tick := 1440000000000 }).now
    ∧ up.nvmHeld = false ∧ up.epl.defer = false ∧ up.alive = true := by decide +kernel

/-! ## The Truss link -/

/-- Octad 7 serving hub 56 on lane 112 and hub 63 on lane 126, one cell each, in the frame that began at tick 1,000,000. -/
def linked : State :=
  { withCells with octs := withCells.octs.set 7 { running with
      epoch := 1000000, epochs := [1000000, 980000], frame := 17, toLatch := [(17, 1000000)], toSend := [(17, 1000000)] } }
/-- At T_D the selection holds an insertion at the first tick of the level window for cell 4095. -/
def dispatching (done : Bool) : State :=
  { linked with
    tick := 1003200
    octs := linked.octs.upd 7 fun o => { o with selDone := if done then some 17 else none, selFrame := 17, addTR := 5, addSW := 3, liveTR := 7 }
    cells := linked.cells.set 4095 { Cell.init with populated := true, cmd := .insert (linked.levelEdge 7 1000000) } }
theorem witness_dispatch : ∀ b, ((dispatching b).oct 7).state ≠ .unconfigured ∧ ((dispatching b).oct 7).toSend = (17, 1000000) :: []
    ∧ frameAt 1000000 ((dispatching b).oct 7).tl.td ≤ (dispatching b).now ∧ ((dispatching b).oct 7).selRunning = false
    ∧ b = (((dispatching b).oct 7).selDone == some 17 && ((dispatching b).oct 7).state.active && !((dispatching b).oct 7).halted)
    ∧ (∀ c ∈ (dispatching b).octCells 7, ∀ x ∈ ((dispatching b).cellAction 7 (17, 1000000) c b).time,
        (dispatching b).levelEdge 7 1000000 ≤ x ∧ x < (dispatching b).levelEdge 7 1000000 + (dispatching b).tfTicks)
    ∧ (dispatching b).servingLane 63 = some 126 ∧ 0 < (dispatching b).hubCells 63 := by decide +kernel
def lateSelection : State :=
  { linked with tick := 1003200, octs := linked.octs.upd 7 fun o => { o with selRunning := true, selFrame := 17, lateRun := 2 } }
theorem witness_dispatch_late : (lateSelection.oct 7).toSend = (17, 1000000) :: []
    ∧ frameAt 1000000 (lateSelection.oct 7).tl.td ≤ lateSelection.now ∧ (lateSelection.oct 7).selRunning = true
    ∧ (lateSelection.oct 7).selFrame = 17 ∧ (lateSelection.oct 7).selDone ≠ some 17
    ∧ (lateSelection.oct 7).state = .running ∧ (lateSelection.oct 7).halted = false := by decide +kernel
theorem witness_transmit_run : (linked.lane 126).txRun ≤ 2047
    ∧ ((linked.updLane 126 fun x => { x with txRun := 2047 }).lane 126).txRun ≤ 2047 := by decide +kernel
/-- R144: from state 1 the scrambled bit i is the data bit with the bits 39 and 58 places back: the first 38 of zeros stay zeros. -/
theorem test_scrambler_taps : (scramble 40 1 0).1 = 2 ^ 38 := by decide +kernel

/-- A feedback entry pair of slot 63: SAMPLED, V = 5000. -/
def feedback : RawFrame := mkFrame 2 1 0 false 1000000 [BitVec.ofNat 64 (63 + 2 ^ 8 + 5000 * 2 ^ 24), 0]
theorem witness_feedback : linked.alive = true ∧ (linked.lane 126).serving = true ∧ (linked.lane 126).openF = none
    ∧ frameCrcOk feedback = true ∧ feedbackShape feedback = true ∧ (linked.oct (126 / 16)).epochs ≠ []
    ∧ (17, 1000000) ∈ (linked.oct (126 / 16)).toLatch ∧ frameTag feedback = BitVec.ofNat 32 1000000
    ∧ linked.now ≤ frameAt 1000000 (linked.oct (126 / 16)).tl.tfb
    ∧ (fbEntries feedback.data).map (fun x => (x.slot, x.status % 2, x.v)) = [(63, 1, 5000)] := by decide +kernel
def broken : RawFrame := { feedback with fend := 0xB9 }
theorem witness_crc : frameCrcOk broken = false ∧ linked.alive = true ∧ (linked.lane 112).serving = true := by decide +kernel
def captureOf : RawFrame := mkFrame 3 1 0 false 0 (List.replicate 32 0x0102030405060708)
def credited (n : BitVec 16) : State := { linked with lanes := linked.lanes.upd 126 fun x => { x with grant := n } }
set_option maxRecDepth 100000 in
theorem witness_capture_frame : frameCrcOk captureOf = true ∧ frameKind captureOf = 3 ∧ frameAux captureOf = false ∧ frameCount captureOf = 1
    ∧ captureOf.data.length = 32 ∧ ((credited 1).lane 126).outstanding ≠ 0 ∧ (linked.lane 126).outstanding = 0
    ∧ ((credited 1).updLane 126 fun x => { x with taken := 1 }).captureRoom 0 264 = true
    ∧ (credited 1).fld (tileBase 63 + 0x300) 4 4 = 0
    ∧ ({ credited 1 with regs := [] }).captureRoom 0 264 = false := by decide +kernel
/-- Hub data block and one cell of slot 5: kind 1, 3 × 50 ns, 2 × 50 ns, serial 9. -/
def enumOf : RawFrame := mkFrame 4 1 0 false 77 [0, BitVec.ofNat 64 (5 + 2 ^ 8 + 3 * 2 ^ 16 + 2 * 2 ^ 24 + 9 * 2 ^ 32)]
def asked (n : Nat) : State :=
  let x : Lane := { Lane.init with state := .qual, lock := true, gate := 7, aux := n, auxAt := some 920000 }
  { up with lanes := ((Tab.empty Lane.init).set 126 x).set 127 x }
theorem witness_enum : frameCrcOk enumOf = true ∧ frameKind enumOf = 4 ∧ frameAux enumOf = false ∧ frameCount enumOf = 1 ∧ enumOf.data.length = 2
    ∧ distinct ((enumOf.data.drop 1).map fun b => field b.toNat 0 6) = true ∧ ((asked 1).lane 126).auxAt.isSome = true
    ∧ ((asked 1).lane 127).auxAt.isSome = true ∧ ((asked 1).tiles.get (hubOfLane 127)).serialKnown = false
    ∧ (asked 1).alive = true := by decide +kernel
theorem witness_enum_timeout : ((asked 2).lane 127).auxAt = some 920000 ∧ 920000 + 80000 ≤ (asked 2).now
    ∧ ((asked 2).lane 127).state ≠ .retired ∧ ((asked 2).lane 127).state ≠ .off ∧ ((asked 2).lane 127).aux < 3 := by decide +kernel
/-- Table 6-3: DISCARD and another ABORT; with no frame open a data block, a FRAME_END and an unknown type; an open frame. -/
def openFrame (l : Nat) : State := linked.updLane l fun x => { x with openF := some ⟨0xB2, [1], false⟩ }
theorem witness_blocks : blockByte 0xFD02E7 0 = 0xE7 ∧ blockByte 0xFD02E7 1 = 0x02 ∧ blockByte 0xFD02E7 2 = 0xFD
    ∧ ¬(blockByte 0xE7 0 = 0xE7 ∧ blockByte 0xE7 1 = 0x02 ∧ blockByte 0xE7 2 = 0xFD) ∧ blockByte 0xB9 0 = 0xB9
    ∧ (linked.lane 127).openF = none ∧ blockByte 0x11 0 ∉ [0xA1, 0xB2, 0xB9, 0xE7] ++ controlCodes
    ∧ ((openFrame 127).lane 127).openF = some ⟨0xB2, [1], false⟩ := by decide +kernel
/-- R183: a whole frame inside an open one leaves the first discarded and counted. -/
theorem test_broken_frame_is_counted : (match exec (.malformedBlock 127 false 0xB2) (openFrame 127) with
    | .next t => (t.fld (tileBase 63 + 0x31C) 0 31, ((t.lane 127).openF.map (·.data)).getD [1]) | _ => (0, [])) = (1, []) := by
  decide +kernel

/-- One lane in a given state. -/
def withLane (l : Nat) (x : Lane) : State := { up with lanes := up.lanes.set l x }
def stepping (p : Proc) (acked : Bool) (n : Nat) : Lane :=
  { Lane.init with state := .step, proc := p, speed := 1, target := 2, from_ := 1, acked := acked, sends := n, seq := 4,
                   sentAt := 980000, stepAt := 920000 }
/-- 66 bits with one transition, between bits 3 and 4: the header of alignment 3 is valid, of others it is not. -/
def oneEdge : RxWord := ⟨BitVec.ofNat 66 (2 ^ 66 - 16), 1⟩
/-- A lane that hunts with so many valid headers behind it at alignment 3. -/
def atCount (x : Lane) (n : Nat) : State :=
  withLane 127 { x with rxPrev := BitVec.ofNat 66 (2 ^ 66 - 1), hunts := (List.replicate 66 0).set 3 n }
theorem witness_hunting : ((atCount { Lane.init with state := .hunt } 94).lane 127).isHunting = true
    ∧ oneEdge.bits = invertIf ((atCount { Lane.init with state := .hunt } 94).fld (laneBase 127) 4 1 == 1) oneEdge.bits
    ∧ lockAt (huntCounts ((atCount { Lane.init with state := .hunt } 94).lane 127) oneEdge.bits) = none := by decide +kernel
theorem witness_lock_in_hunt : ((atCount { Lane.init with state := .hunt } 95).lane 127).isHunting = true
    ∧ lockAt (huntCounts ((atCount { Lane.init with state := .hunt } 95).lane 127) oneEdge.bits) = some 3
    ∧ ((atCount { Lane.init with state := .hunt } 95).lane 127).state = .hunt := by decide +kernel
theorem witness_lock_in_step : ((atCount (stepping .bringup true 1) 95).lane 127).isHunting = true
    ∧ lockAt (huntCounts ((atCount (stepping .bringup true 1) 95).lane 127) oneEdge.bits) = some 3
    ∧ ((atCount (stepping .bringup true 1) 95).lane 127).state = .step ∧ ((atCount (stepping .bringup true 1) 95).lane 127).gate ≠ 6
    ∧ ((atCount (stepping .bringup true 1) 95).lane 127).proc = .bringup ∧ ((atCount (stepping .bringup true 1) 95).lane 127).speed ≠ 0 := by
  decide +kernel
/-- CAPABILITY of a hub on port B at maximum speed L4, ACK as given. -/
def capOf (ack : Nat) : Block := BitVec.ofNat 64 (0xD3 + 0xF1 * 2 ^ 8 + ack * 2 ^ 16)
def capx (last : Option Block) (n : Nat) (a : Bool) : State :=
  withLane 127 { Lane.init with state := .capx, lock := true, proc := .bringup, capLast := last, capCount := n, capAck := a, maxSpd := 3 }
theorem witness_capability : ∀ k < 2, blockByte (capOf k) 0 = 0xD3
    ∧ blockByte (capOf k) 1 / 16 % 2 = 1 ∧ blockByte (capOf k) 1 / 32 % 2 = 127 % 2
    ∧ blockByte (capOf k) 1 % 16 = 1 ∧ blockByte (capOf k) 2 % 2 = k ∧ ((capx (some (capOf 0)) 2 false).lane 127).state = .capx
    ∧ ((capx (some (capOf 0)) 2 false).lane 127).capLast = some (capOf 0) ∧ ((capx none 0 false).lane 127).capLast ≠ some (capOf k)
    ∧ ((capx none 0 true).lane 127).lock = true
    ∧ capOf k = BitVec.ofNat 64 ((capOf k).toNat % 2 ^ 23) ∧ ((capx none 0 true).lane 127).openF = none
    ∧ 0 < min ((capx none 0 true).lane 127).maxSpd (blockByte (capOf k) 1 / 64) := by decide +kernel
def ackOf (op seq : Nat) : Block := BitVec.ofNat 64 (0xD5 + 2 * 2 ^ 8 + op * 2 ^ 16 + seq * 2 ^ 24)
theorem witness_ack : blockByte (ackOf 1 4) 0 = 0xD5 ∧ blockByte (ackOf 1 4) 1 = 2 ∧ blockByte (ackOf 5 0) 2 = 5
    ∧ blockByte (ackOf 1 4) 3 = ((withLane 0 (stepping .bringup false 3)).lane 0).seq.toNat ∧ blockByte (ackOf 1 4) 2 = 1
    ∧ blockByte (ackOf 5 0) 3 = ((withLane 1 { Lane.init with state := .warm, dormantReq := true }).lane 1).seq.toNat
    ∧ ((withLane 1 { Lane.init with state := .warm, dormantReq := true }).lane 1).dormantReq = true := by decide +kernel
def qualifying (g sp : Nat) (m : Nat) : Lane :=
  { Lane.init with state := .qual, proc := .bringup, lock := true, gate := g, speed := sp, hubMax := m, maxSpd := 3, seq := 4 }
theorem witness_qual_point : ∀ g ∈ [1, 4], ((withLane 127 (qualifying g 1 3)).lane 127).state = .qual
    ∧ 1 ≤ ((withLane 127 (qualifying g 1 3)).lane 127).gate ∧ ((withLane 127 (qualifying g 1 3)).lane 127).gate ≤ 4 := by decide +kernel
def rspOf (v : Nat) : Block := BitVec.ofNat 64 (0xD5 + 4 * 2 ^ 8 + 4 * 2 ^ 24 + v * 2 ^ 32)
theorem witness_report : ∀ m ∈ [1, 3], ((withLane 127 (qualifying 5 1 m)).lane 127).gate = 5 ∧ blockByte (rspOf m) 0 = 0xD5
    ∧ blockByte (rspOf m) 1 = 4 ∧ blockByte (rspOf m) 3 = ((withLane 127 (qualifying 5 1 m)).lane 127).seq.toNat
    ∧ field (rspOf 0).toNat 32 16 = 0 ∧ field (rspOf m).toNat 32 16 ≠ 0
    ∧ 1 < min ((withLane 127 (qualifying 5 1 3)).lane 127).maxSpd 3
      ∧ min ((withLane 127 (qualifying 5 1 1)).lane 127).maxSpd 1 ≤ 1 := by decide +kernel
def scanning (i : Nat) : State := withLane 127 { Lane.init with state := .active, lock := true, eye := some i }
theorem witness_eye_scan : ((scanning 16319).lane 127).eye = some 16319 ∧ ((scanning 0).lane 127).eye = some 0
    ∧ (scanning 0).sheds 0 = false ∧ ((scanning 0).lane 127).state ≠ .qual := by decide +kernel
theorem witness_ack_timer : ∀ n ∈ [2, 3], ((withLane 127 (stepping .bringup false n)).lane 127).acked = false
    ∧ ((withLane 127 (stepping .bringup false n)).lane 127).sentAt + 20000 ≤ up.now
    ∧ ((withLane 127 (stepping .bringup false n)).lane 127).sends = n := by decide +kernel
theorem witness_step_timer : ((withLane 127 (stepping .bringup true 1)).lane 127).stepAt + 80000 ≤ up.now := by decide +kernel

/-- A lane with n retrain starts within the last second. -/
def retried (n : Nat) (x : Lane) : State := withLane 127 { x with starts := List.replicate n 600001 }
/-- The 16 FILLER of an acknowledged STEP still to leave, and gone (R154). -/
def turningLane (left : Bool) : State :=
  withLane 127 { stepping .bringup true 1 with turning := true, txLo := if left then [] else [⟨false, 0xA1, 1⟩] }
theorem witness_turning : ((turningLane true).lane 127).turning = true ∧ ((turningLane false).lane 127).turning = true
    ∧ (∃ i ∈ ((turningLane false).lane 127).txLo, i.data = false ∧ i.b = 0xA1)
    ∧ (∀ i ∈ ((turningLane true).lane 127).txLo, i.data = true ∨ i.b ≠ 0xA1)
    ∧ ((withLane 127 (stepping .bringup true 1)).lane 127).turning = false := by decide +kernel
theorem witness_link_timers : up.now = 1000000
    ∧ ((retried 2 { Lane.init with state := .hunt, huntAt := 200000 }).lane 127).huntAt + 800000 ≤ up.now
    ∧ ((retried 3 { Lane.init with state := .capx, capxAt := 920000 }).lane 127).capxAt + 80000 ≤ up.now
    ∧ ((retried 3 Lane.init).lane 127).recent 1000000 = [600001, 600001, 600001]
    ∧ ((retried 1 { Lane.init with state := .wake, wakeAt := some 640000 }).lane 127).wakeAt = some 640000 ∧ 640000 + 360000 ≤ up.now := by
  decide +kernel
def retraining : State := { withLane 127 { Lane.init with state := .hunt, rtAt := some 1000000 } with tick := 9000000 }
theorem witness_retrain_timer : (retraining.lane 127).rtAt = some 1000000 ∧ 1000000 + 8000000 ≤ retraining.now
    ∧ (retraining.lane 127).state ≠ .off ∧ (retraining.lane 127).state ≠ .retired := by decide +kernel
def carrying : State :=
  { withLane 127 { Lane.init with state := .active, lock := true, serving := true, hdrs := List.replicate 11 true } with
    clk := { Clk.init with started := true, quads := Clk.init.quads.set 31 ⟨.locked, 0, false, 0⟩ } }
/-- Twelve invalid headers among the last 96: this block's is 0b00 (R147). -/
theorem witness_lock_loss : (carrying.lane 127).lock = true ∧ (carrying.lane 127).state = .active
    ∧ (0 : BitVec 66) = invertIf (carrying.fld (laneBase 127) 4 1 == 1) 0
    ∧ 12 ≤ (((alignedBlock (carrying.lane 127) 0 % 4 == 0 || alignedBlock (carrying.lane 127) 0 % 4 == 3)
      :: (carrying.lane 127).hdrs).take 96).countP id
    ∧ (carrying.clk.quads.get 31).state = .locked
    ∧ ({ carrying with clk := { carrying.clk with quads := carrying.clk.quads.upd 31 fun q => { q with state := .settling } } }
        |>.clk.quads.get 31).state = .settling := by decide +kernel
/-- A FILLER as the wire carries it from scrambler state 1, at a level of the elastic buffer. -/
def fillerBits : BitVec 66 := wireBits false (scramble 64 1 0xA1).1
def buffered (n : Nat) : State :=
  withLane 127 { Lane.init with state := .active, lock := true, fill := n, dsc := 1, rxPrev := fillerBits }
theorem witness_elastic : ((buffered 10).lane 127).lock = true ∧ ((buffered 10).lane 127).skip = 0
    ∧ alignedBlock ((buffered 10).lane 127) (invertIf ((buffered 10).fld (laneBase 127) 4 1 == 1) fillerBits) % 4 = 2
    ∧ ((false :: ((buffered 10).lane 127).hdrs).take 96).countP id < 12
    ∧ blockByte (BitVec.ofNat 64 (descramble 64 ((buffered 10).lane 127).dsc
        (alignedBlock ((buffered 10).lane 127) (invertIf ((buffered 10).fld (laneBase 127) 4 1 == 1) fillerBits) / 4)).1) 0 = 0xA1 := by
  decide +kernel
/-- R150: a FILLER deleted at 10 blocks, passed twice at 6. -/
theorem test_elastic_rates : elasticStep 10 true 1 = (9, 0, 1) ∧ elasticStep 6 true 1 = (7, 1, 0) ∧ elasticStep 7 true 1 = (7, 0, 0)
    ∧ elasticStep 1 false 2 = (0, 0, 0) := by decide

/-- Lane 126 with an exchange open: T1 at tick 999,000; the hub's ECHO of a delay of 1,000 units. -/
def exchanging (un good : Nat) : State :=
  let x : Lane := { Lane.init with state := .active, serving := true, lock := true, tseq := 3, marked := true, t1 := some 255744000 }
  { linked with lanes := linked.lanes.set 126 { x with unanswered := un, good := good, markAt := 600000 } }
/-- The timebase on the bypass oscillator (R481). -/
def onBypassTime (s : State) : State := { s with clk := { s.clk with bypassTime := some 999000 } }
def echoOf : Block := BitVec.ofNat 64 (0xC4 + 0x32 * 2 ^ 8 + 500 * 2 ^ 16 + (255745000 + 10) % 2 ^ 24 * 2 ^ 40)
theorem witness_mark : (linked.lane 126).state = .active ∧ (linked.lane 126).markAt = 0 ∧ (linked.lane 126).marked = false
    ∧ ((exchanging 2 0).lane 126).markAt + (exchanging 2 0).tTm 126 ≤ (exchanging 2 0).now ∧ ((exchanging 2 0).lane 126).unanswered < 3
    ∧ ((exchanging 3 0).lane 126).marked = true ∧ 3 ≤ ((exchanging 3 0).lane 126).unanswered := by decide +kernel
theorem witness_echo : ((exchanging 0 7).lane 126).t1 = some 255744000 ∧ blockByte echoOf 0 = 0xC4 ∧ field echoOf.toNat 8 4 = 2
    ∧ field echoOf.toNat 12 4 = ((exchanging 0 7).lane 126).tseq.toNat ∧ field echoOf.toNat 16 24 = 500
    ∧ (echoError (255744000 : Int) (field echoOf.toNat 40 24) (echoDelay 0 ((255746500 - 255744000 : BitVec 48).toNat : Int) 500
        (sext 24 ((exchanging 0 7).fld (laneBase 126 + 0x20) 0 24)))).natAbs = 10
    ∧ (exchanging 0 7).clk.bypassTime = none ∧ ((exchanging 0 7).lane 126).openF = none
    ∧ (onBypassTime (exchanging 0 7)).clk.bypassTime.isSome = true
    ∧ ((onBypassTime (exchanging 0 7)).lane 126).t1 = some 255744000 := by decide +kernel
/-- A MARK with its TSEQ, an ECHO and a SET, and the time at which they leave. -/
theorem witness_stamp : ∀ w ∈ [1, 3, 2, 4], blockByte (BitVec.ofNat 64 (0xC4 + w * 2 ^ 8)) 0 = 0xC4
    ∧ field (BitVec.ofNat 64 (0xC4 + w * 2 ^ 8)).toNat 8 4 = w ∧ ((exchanging 0 7).lane 126).marked = true := by decide
/-- R199: the MARK on the wire carries its time of departure, which is T1. -/
theorem test_mark_leaves_with_its_time : (stampBlock ⟨false, BitVec.ofNat 64 (0xC4 + 0x31 * 2 ^ 8), 4⟩ 7).b
    = BitVec.ofNat 64 (0xC4 + 0x31 * 2 ^ 8 + 7 * 2 ^ 16) := by decide
def credits : State := { linked with regs := putReg (tileBase 63 + 0x300) 0x100 upRegs }
theorem witness_credit : (credits.lane 126).serving = true ∧ credits.fld (tileBase 63 + 0x300) 8 1 = 1 := by decide +kernel

/-! ## Trips, triggers, ports and time -/

/-- Trip input 15 enabled, active high, filter 1, over outputs 0 and 23 and octads 0 and 7, active since tick 999,996. -/
def tripping : State :=
  { upOcts 7 running with
    regs := putReg 0x30847C 0x81800001 (putReg 0x308478 0x301 upRegs), trips := up.trips.set 15 ⟨false, true, 999996⟩ }
theorem witness_trip : tripping.alive = true ∧ tripping.tripEn 15 = true ∧ (tripping.trips.get 15).level = tripping.tripPol 15
    ∧ (tripping.trips.get 15).latch = false ∧ (tripping.trips.get 15).since + 4 * tripping.fld (0x308400 + 8 * 15) 0 8 ≤ tripping.now
    ∧ bitOf (tripping.fld (0x308404 + 8 * 15) 0 24) 23 = true ∧ bitOf (tripping.fld (0x308404 + 8 * 15) 24 8) 7 = true
    ∧ (tripping.oct 7).state.active = true ∧ false ≠ (tripping.trips.get 15).level ∧ 0 < tripping.fld (0x308400 + 8 * 15) 0 8 := by
  decide +kernel
/-- Trigger unit 5 in FRAME or TIME mode, CONVST for 16 ticks, its firing due now; port 5 enabled. -/
def firing (d : Due) : State :=
  { up with
    regs := putReg 0x301000 0x00011001 (putReg 0x3010A0 (if d = .time 0 then 0x00011003 else 0x00011001)
      (putReg 0x3010A8 400000 (putReg 0x304050 0x1 upRegs)))
    trigs := up.trigs.set 5 ⟨some d, false, 0, 0⟩ }
theorem witness_trigger : ∀ d ∈ [Due.epoch 1000000 0 1 0, Due.time 0], (firing d).portOwned 5 = false ∧ (firing d).alive = true
    ∧ (firing d).trgEn 5 = true ∧ ((firing d).trigs.get 5).next = some d ∧ 1000000 ≤ (firing d).now ∧ 0 ≤ (firing d).time.dt
    ∧ ((firing d).trigs.get 5).high = false ∧ ((firing d).sports.get 5).frame = none := by decide +kernel
theorem witness_trigger_time : (firing (.time 0)).trgTime 5 = true := by decide +kernel
/-- Port 6 driven by Kingpost's channel A, running with T_KS 100 µs, 40,000 ticks after its last firing. -/
def kpFiring : State :=
  { up with
    kp := { up.kp with a := kpUp, vkp := true }
    regs := putReg 0x304060 0x40000000 upRegs, trigs := up.trigs.set 6 ⟨none, false, 0, 960000⟩ }
theorem witness_kingpost_trigger : kpFiring.portOwned 6 = true ∧ kpFiring.kp.vkp = true
    ∧ (kpFiring.trigs.get 6).fired + 400 * kpFiring.kp.a.tKs = kpFiring.now ∧ (kpFiring.trigs.get 6).high = false := by decide +kernel
def converting (hi c : Bool) : State :=
  { up with
    engs := up.engs.set 8 { Engine.init with graph := some { hostGraph with chans := [⟨1, 1, 43, 1, 0, 0⟩] } }
    regs := putReg 0x304050 0x87 upRegs, trigs := up.trigs.set 5 ⟨none, hi, 1000000, 0⟩
    sports := up.sports.set 5 ⟨some 900000, c, [], false⟩ }
theorem witness_convst : ((converting true true).trigs.get 5).high = true ∧ ((converting true true).trigs.get 5).lowAt ≤ up.now
    ∧ ((converting true false).sports.get 5).frame = some 900000 ∧ ((converting true false).sports.get 5).clocking = false
    ∧ 900000 + (converting true false).fld (0x304000 + 0x10 * 5) 20 10 ≤ up.now := by decide +kernel
def ownedFrame : State := { kpFiring with sports := up.sports.set 6 ⟨some 900000, true, [], false⟩ }
theorem witness_owned_frame : (ownedFrame.sports.get 6).clocking = true ∧ ownedFrame.portOwned 6 = true := by decide +kernel
theorem witness_port_frame : (converting true true).portOwned 5 = false ∧ ((converting true true).sports.get 5).clocking = true ∧ 43 = 8 * 5 + 3
    ∧ 3 < (converting true true).fld (0x304000 + 0x10 * 5) 1 2 + 1
    ∧ 900000 + (converting true true).fld (0x304000 + 0x10 * 5) 20 10 + ((converting true true).fld (0x304000 + 0x10 * 5) 1 2 + 1)
      * (converting true true).fld (0x304000 + 0x10 * 5) 3 5 * bitTicks ((converting true true).fld (0x304000 + 0x10 * 5) 8 2) ≤ up.now := by
  decide +kernel
def stamping (v : Word) : State := { up with regs := putReg 0x302000 v upRegs }
theorem witness_timestamp : (stamping 0).alive = true ∧ (stamping 0).time.tsPins.getLsbD 7 ≠ true
    ∧ (stamping 0xC000).fld 0x302000 (2 * 7) 2 = 3 ∧ (stamping 0).fld 0x302000 (2 * 7) 2 = 0
    ∧ (1 : Byte).toNat < 2 ∧ 2 ≤ (2 : Byte).toNat
    ∧ (stamping 0xC000).captureRoom ((stamping 0xC000).fld 0x302000 16 4) 24 = true := by decide +kernel

/-- A frame of a PTP message as R311 takes it, once tagged. -/
def ptpHdr : EthHdr := ⟨0x88F7, 1⟩
def announcing : AnnounceMsg := ⟨ptpHdr, ptpMac, 0, 7, 0, 0, 0, 0, 0, 0, 7, 37, 0⟩
/-- Both PTP ports on, port 1's master 7 selected, the servo in LOCKED with a delay of 1 µs at device time 1 s. -/
def ptp (mech : Word) : State :=
  { up with
    regs := putReg 0x300000 (0x00030007 ||| mech) upRegs
    time := { up.time with
      servo := .locked, gmValid := true, masterId := 7, port := 1, delay := 1000 * 2 ^ 16, delayAt := some 1000000
      dt := 10 ^ 9 * 2 ^ 56, lastT2 := some (9 * 10 ^ 8 * 2 ^ 16)
      masters := up.time.masters.set 1 [⟨announcing, 999999⟩] } }
def msg (two : Bool) (seq : BitVec 16) (stamp : Int) : PtpMsg := ⟨ptpHdr, ptpMac, 0, 7, seq, 0, stamp, 0, two, 0⟩
/-- A Sync that arrives 1,999 ns after its origin: 999 ns beyond the delay. -/
def syncMsg : PtpMsg := msg false 0 ((10 ^ 9 - 1999) * 2 ^ 16)
theorem witness_sync : (ptp 0).ptpOn 1 = true ∧ (ptp 0).ptpTaken syncMsg.eth syncMsg.dst ptpMac syncMsg.domain = true
    ∧ (ptp 0).fromMaster 1 syncMsg.clock = true ∧ -7 ≤ syncMsg.logInterval ∧ syncMsg.logInterval ≤ 1
    ∧ syncMsg.twoStep = false ∧ (ptp 0).time.delayAt = some 1000000 ∧ (ptp 0).now ≤ 1000000 + 4 * 400000000
    ∧ (ptp 0).time.servo = .locked
    ∧ ((ptp 0).rxStamp 1 syncMsg.sub - syncMsg.stamp - syncMsg.correction - (ptp 0).time.delay).natAbs = 999 * 2 ^ 16
    ∧ (msg true 0 0).twoStep = true ∧ (9 : Int) * 10 ^ 8 * 2 ^ 16 < (ptp 0).rxStamp 1 syncMsg.sub
    ∧ frameTaken ⟨0x88F7, 2⟩ 0x88F7 = false ∧ frameTaken ⟨0x0800, 0⟩ 0x88F7 = false
    ∧ ({ syncMsg with dst := 0x010CCD040000 } : PtpMsg).dst ≠ ptpMac
        ∧ ({ syncMsg with dst := 0x010CCD040000 } : PtpMsg).dst ≠ peerMac := by decide +kernel
def followed : State := { ptp 0 with time := { (ptp 0).time with sync := some (1, msg true 9 0, 70000, 1000000), delayAt := none } }
theorem witness_follow_up : followed.ptpOn 1 = true ∧ followed.ptpTaken ptpHdr ptpMac ptpMac 0 = true
    ∧ followed.time.sync = some (1, msg true 9 0, 70000, 1000000) ∧ followed.now ≤ 1000000 + 400000000
    ∧ followed.fromMaster 1 7 = true ∧ followed.time.delayAt = none := by decide +kernel
def requested (p2p : Word) : State :=
  { ptp p2p with time := { (ptp p2p).time with
      e2eT3 := some (9, 50), lastSync := some 1000, pd := up.time.pd.set 1 (some (9, 50)) } }
theorem witness_delay : (requested 0).p2p = false ∧ (requested 8).p2p = true ∧ (requested 8).ptpOn 1 = true
    ∧ (requested 0).time.e2eT3 = some (9, 50) ∧ (requested 0).time.lastSync = some 1000
    ∧ (requested 8).time.pd.get 1 = some (9, 50) ∧ (requested 8).time.port = 1 ∧ (requested 0).reqDue 1 ≤ up.now ∧ (requested 8).reqDue 1 ≤ up.now
    ∧ (requested 8).ptpTaken ptpHdr peerMac peerMac 0 = true
    ∧ (requested 0).ptpTaken ptpHdr ptpMac ptpMac 0 = true ∧ (requested 0).fromMaster 1 7 = true
        ∧ (requested 0).time.gmValid = true := by decide +kernel
def unannounced : State := { ptp 0 with time := { (ptp 0).time with masters := .empty [] } }
theorem witness_announce : unannounced.liveMasters 0 = [] ∧ unannounced.liveMasters 1 = [] ∧ 0 < unannounced.annTicks announcing
    ∧ unannounced.ptpTaken announcing.eth announcing.dst ptpMac announcing.domain = true ∧ unannounced.ptpOn 0 = true := by decide +kernel
def silent : State := { ptp 0 with tick := 1200999999 }
theorem witness_announce_timeout : silent.master = some ⟨announcing, 999999⟩ ∧ silent.alive = true
    ∧ silent.time.gmValid = true ∧ 999999 + silent.annTicks announcing ≤ silent.now
    ∧ silent.bestPort = none ∧ silent.time.servo = .locked := by decide +kernel
def unsynced : State := { silent with tick := 1600000001, time := { silent.time with lastSample := some 1, syncInterval := 0 } }
theorem witness_sync_timeout : unsynced.time.lastSample = some 1 ∧ 1 + 4 * logTicks unsynced.time.syncInterval ≤ unsynced.now
    ∧ unsynced.alive = true ∧ unsynced.time.servo = .locked := by decide +kernel

/-- Stream 31 on port 1, one value, of confRev 1; channel 0 of the station takes its value 15. -/
def subscribed (n i : Nat) : State :=
  { up with
    regs := putReg 0x3033E0 (BitVec.ofNat 32 (5 + n * 2 ^ 8)) (putReg 0x3033F0 1 upRegs)
    engs := up.engs.set 8 { Engine.init with graph := some { hostGraph with chans := [⟨1, 2, BitVec.ofNat 16 (16 * 31 + i), 1, 0, 0⟩] } } }
def asduOf (n : Nat) (rev : Word) : AsduMsg := ⟨⟨0x88BA, 0⟩, 0, 0, [], rev, 5, 0, false, List.replicate n (1000, 0)⟩
theorem witness_asdu : (subscribed 16 15).alive = true ∧ frameTaken (asduOf 16 1).eth 0x88BA = true ∧ frameTaken ⟨0x88F7, 0⟩ 0x88BA = false
    ∧ (subscribed 16 15).svMatches 1 31 (asduOf 16 1) = true ∧ (subscribed 16 15).svMatches 1 31 (asduOf 16 2) = true
    ∧ (∀ k < 31, (subscribed 16 15).svMatches 1 k (asduOf 16 1) = false) ∧ ((subscribed 16 15).svs.get 31).retired = false
    ∧ (asduOf 16 1).confRev = (subscribed 16 15).reg (0x303010 + 0x20 * 31) ∧ ((subscribed 16 15).svs.get 31).last = none
    ∧ 15 < (subscribed 16 15).fld (0x303000 + 0x20 * 31) 8 5 ∧ (asduOf 16 1).values[15]? = some (1000, 0)
    ∧ (subscribed 16 15).svInvalid 31 0 = false := by decide +kernel
theorem witness_sv_lost : (subscribed 1 0).alive = true ∧ ((subscribed 1 0).svs.get 31).retired = false
    ∧ (subscribed 1 0).fld (0x303000 + 0x20 * 31) 0 1 = 1 ∧ ((subscribed 1 0).svs.get 31).lost = false
    ∧ ((subscribed 1 0).svs.get 31).lastAt + (subscribed 1 0).fld (0x303014 + 0x20 * 31) 24 8 * 400000 ≤ 102000000 := by decide +kernel

/-! ## Faults, clocks, Belfry -/

def clean : List Byte := List.replicate 8 0
/-- Octads 0 and 7 configured, a window of octad 7's fence open. -/
def covering : State :=
  { upOcts 7 { Octad.init with state := .fenced } with flt := { up.flt with windows := [⟨.fence 7, 1, 0x2303, 7, none, []⟩] } }
theorem witness_fault_reaction : up.nextReport.coveredBy 0x2303 7 (up.faultParams 0x2303).1 false = none
    ∧ (up.faultParams 0x2303).2.1 = true ∧ 3 ≤ (up.faultParams 0x2303).1.code ∧ ((upOcts 7 blocked).oct 7).state ≠ .unconfigured
    ∧ (upOcts 7 blocked).fenceMask 0x2303 7 (up.faultParams 0x2303).1 (up.faultParams 0x2303).2.2.2 / 2 ^ 7 % 2 = 1
    ∧ (up.faultParams 0x3606).1 = .lockout ∧ (covering.nextReport.coveredBy 0x1701 112 (covering.faultParams 0x1701).1 false).isSome = true := by
  decide +kernel
def oneReport : Report := ⟨5, 0x2504, 7, .fence, false, true, false, clean, 996000, 0, false, false, 0, 1⟩
def reporting (f : Bool) : State :=
  { up with flt := { up.flt with
      queues := up.flt.queues.set 1 [oneReport], fallback := f, table := [{ entry 0x2504 7 true with id := 5 }, entry 0x2504 6 true] } }
theorem witness_collector : (reporting false).flt.fallback = false ∧ (reporting false).alive = true
    ∧ (reporting false).flt.takenAt ≠ some (reporting false).tick ∧ (reporting false).flt.queues.get 1 = [oneReport] ∧ (∀ k < 4, k ≠ 1 →
        (reporting false).flt.queues.get k = [])
    ∧ (∀ k < 4, (reporting false).flt.dropped.get k = 0) ∧ (reporting false).flt.causeWaits oneReport = false
    ∧ (reporting false).bel.lostSince = 0 ∧ oneReport.tick.toNat + 4000 ≤ (reporting false).now := by decide +kernel
def closing : State :=
  { up with flt := { up.flt with windows :=
      [⟨.pcie, 1, 0x3001, 0, some 999999, [(0x1701, 3, [])]⟩, ⟨.lockout, 1, 0x3105, 0, some 1000000, []⟩,
       ⟨.fence 1, 2, 0x2101, 1, none, []⟩] } }
theorem witness_window_close : ∀ w ∈ closing.flt.windows, ∀ h ∈ w.hits, closing.conditionPresent h.1.toNat h.2.1.toNat = false := by
  decide +kernel
/-- A window that closed one tick ago and covered a report whose condition lasts: trip input 15, and the persistence of a cell. -/
def lasting (h : BitVec 16 × BitVec 16 × List Byte) : State :=
  { latched with
    flt := { up.flt with windows := [⟨.lockout, 1, 0x3105, 0, some 999999, [h]⟩] }
    cells := up.cells.set 4095 { Cell.init with fault := 1 } }
theorem witness_window_lasts : ∀ h ∈ [((0x340F : BitVec 16), (1 : BitVec 16), ([] : List Byte)), (0x2503, 4095, [])],
    (lasting h).flt.windows = [⟨.lockout, 1, 0x3105, 0, some 999999, [h]⟩]
    ∧ (lasting h).conditionPresent h.1.toNat h.2.1.toNat = true ∧ 999999 < (lasting h).now := by decide +kernel
def ending : State := { up with flt := { up.flt with faultN := true, released := true, holdUntil := 1000000 } }
theorem witness_hold_end : ending.flt.faultN = true ∧ ending.flt.released = true ∧ ending.flt.holdUntil ≤ ending.now := by decide +kernel
def lastRecord : Record := ⟨1, 0, 0, 0, 0x3808, 0, 0, 0, 1, 0, 0, []⟩
def copying : State :=
  { up with flt := { up.flt with fallback := true }, kp := { up.kp with fallRec := some lastRecord, fallDirty := true } }
theorem witness_fallback : copying.kp.fallRec = some lastRecord ∧ copying.kp.fallDirty = true ∧ copying.flt.fallback = true
    ∧ copying.epl.defer = false := by decide +kernel
def sampling : State := withEng up 7 { eng with running := true, ovrRun := 2 }
theorem witness_double_bit : sampling.alive = true ∧ (sampling.eng 7).graph = some hostGraph ∧ (sampling.eng 7).running = true
    ∧ (0x1FFFFC : Word).toNat < (Mem.octad 7).size ∧ (Mem.octad 7).size ≤ (0x200000 : Word).toNat ∧ (0xBFFC : Word).toNat < (Mem.tile 63).size
    ∧ (0x3FFFFC : Word).toNat < Mem.device.size ∧ (sampling.eng 8).running = false := by
  decide +kernel

/-- Points 0 and 7 of the hop table, 100 and 400 MHz, enabled; the band of point 7 known or not. -/
def clocked (band : Word) (c : PllSt) : State :=
  { up with
    regs := putReg 0x400010 0x80000000 (putReg 0x400014 0x20A0 (putReg 0x400048 0x80000000 (putReg 0x40004C (0x88 ||| band) upRegs)))
    clk := { up.clk with core := c, time := ⟨.locked, 0, true, 0⟩ }, epl := { up.epl with wantPoint := some 7 } }
def inLock : PllSt := ⟨.locked, 0, true, 0⟩
theorem witness_hop : (clocked 0x2000 inLock).epl.wantPoint = some 7 ∧ (clocked 0x2000 inLock).mayLeave = true
    ∧ 7 ≠ (clocked 0x2000 inLock).clk.point ∧ (clocked 0x2000 inLock).hopEn 7 = true
    ∧ (clocked 0x2000 inLock).bandValid 7 = true ∧ (clocked 0x2000 inLock).pointValid 7 = true
    ∧ (clocked 0x2000 inLock).sameFreq 7 (clocked 0x2000 inLock).clk.point = false ∧ (clocked 0x2000 inLock).pointOk 7 = true
    ∧ (clocked 0x2000 inLock).sampling = false ∧ (clocked 0x2000 inLock).idleFor 2840 = true := by decide +kernel
/-- The station engine loaded, its next sample 64 base frames away. -/
def rarely : State :=
  { withEng (clocked 0 inLock) 8 eng with fr := { (clocked 0 inLock).fr with stime := 0x01000040, stationCount := 1 } }
theorem witness_search_hop : (clocked 0 inLock).mayLeave = true ∧ (clocked 0 inLock).bandValid 7 = false
    ∧ (clocked 0 inLock).hopEn 7 = true ∧ (clocked 0 inLock).pointValid 7 = true
    ∧ (∀ e < 9, ((clocked 0 inLock).eng e).loaded = none)
    ∧ (rarely.eng 8).loaded ≠ none ∧ rarely.sampling = false ∧ rarely.idleFor 27200 = true ∧ rarely.bandValid 7 = false
    ∧ rarely.mayLeave = true ∧ (clocked 0 inLock).clk.bypassCore = none := by decide +kernel
def atSeven : State := { clocked 0x2000 inLock with clk := { (clocked 0x2000 inLock).clk with point := 7 } }
theorem witness_hop_frequency : (7 : Nat) < 8 ∧ atSeven.clk.bypassCore = none ∧ atSeven.clk.point = 7 ∧ atSeven.hopN 7 = 128
    ∧ atSeven.hopF 7 = 0 ∧ (0 : Rat) < (128 : Nat) + (0 : Nat) / 2 ^ 24 :=
  ⟨by decide, by decide +kernel, by decide +kernel, by decide +kernel, by decide +kernel, by norm_num⟩
def settled : PllSt := ⟨.settling, 0, true, 999200⟩
def searching (n : Nat) (b : Bool) : PllSt := ⟨.search, n, b, 979520⟩
/-- Quad 31 and the time PLL in a given state, lane 127 to be brought up. -/
def quadIn (x : PllSt) : State :=
  { upOcts 7 blocked with
    regs := putReg (laneBase 127) 1 upRegs
    clk := { up.clk with time := x, core := x, quads := up.clk.quads.set 31 x, active := some false, qualA := true } }
theorem witness_lock_declared : (quadIn (searching 0 true)).pllLive (.quad 31) = true ∧ (quadIn (searching 0 true)).pllLive .time = true
    ∧ ((quadIn (searching 0 true)).pll .time).state = .search ∧ ((quadIn (searching 0 true)).pll (.quad 31)).stored = true
    ∧ (quadIn (searching 0 true)).clk.bootPoints = [] ∧ (quadIn (searching 0 true)).clk.searching = none
    ∧ (searching 0 true).inTime (quadIn (searching 0 true)).now = true ∧ (quadIn (searching 0 true)).refWait .time 64 ≤ up.now
    ∧ (PllSt.mk .relock 0 true 997979).inTime up.now = true ∧ (PllSt.mk .relock 0 true 997978).inTime up.now = false := by decide +kernel
/-- The PLL-lock step of a start-up, with points 2 and 7 still to search (R470, R538). -/
def starting (b : List Nat) (x : PllSt) : State :=
  { quadIn x with
    sys := { Sys.init with dev := .boot, step := 9 }
    clk := { (quadIn x).clk with bootPoints := b, bypassCore := some 900000 } }
theorem witness_boot_points : (starting [2, 7] (searching 0 true)).pllLive .core = true
    ∧ (starting [2, 7] (searching 0 true)).clk.bootPoints = [2, 7] ∧ (starting [7] settled).clk.core.state = .settling
    ∧ (starting [7] settled).clk.core.since + 800 ≤ (starting [7] settled).now ∧ (starting [7] settled).clk.held = none
    ∧ (starting [7] settled).clk.hopTo = none ∧ (starting [7] settled).inLockStep = true
    ∧ (starting [7] (searching 2 false)).pllLive .time = true ∧ (starting [7] (searching 2 false)).sys.dev = .boot
    ∧ (starting [7] (searching 2 false)).faultParams 0x3606 = (.lockout, true, true, 0) := by decide +kernel
/-- R535, R384: a time PLL that fails in start-up holds there, and its LOCKOUT report asserts FAULT_N all the same. -/
theorem test_failed_boot_holds : (match exec (.bandSearchComplete .time none) (starting [7] (searching 2 false)) with
    | .next t => (t.sys.dev == .boot, t.sys.hold, t.flt.faultN) | _ => (false, false, false)) = (true, true, true) := by decide +kernel
theorem witness_settled : (clocked 0x2000 settled).clk.core.state = .settling
    ∧ (clocked 0x2000 settled).clk.core.since + 800 ≤ (clocked 0x2000 settled).now ∧ (clocked 0x2000 settled).clk.held = none
    ∧ (quadIn settled).clk.time.state = .settling ∧ (quadIn settled).clk.time.since + 800 ≤ (quadIn settled).now
    ∧ ((quadIn settled).clk.quads.get 31).state = .settling ∧ ((quadIn settled).clk.quads.get 31).since + 800 ≤ (quadIn settled).now
    ∧ ((quadIn settled).lane (4 * 31 + 3)).state = .off ∧ (quadIn settled).fld (laneBase (4 * 31 + 3)) 0 1 = 1
    ∧ (quadIn settled).laneUsable (4 * 31 + 3) = true ∧ ((quadIn settled).oct ((4 * 31 + 3) / 16)).state ≠ .unconfigured := by decide +kernel
theorem witness_search_ends : ∀ n < 3, ((quadIn (searching n false)).pll (.quad 31)).state = .search
    ∧ ((quadIn (searching n false)).pll .core).fails = n ∧ (quadIn (searching n false)).pllLive .core = true
    ∧ (quadIn (searching n false)).refWait .core 1280 = (quadIn (searching n false)).now
        ∧ (quadIn (searching n false)).clk.searching = none := by decide +kernel
theorem witness_relock_timeout : ((quadIn ⟨.relock, 0, true, 998000⟩).pll .time).state = .relock
    ∧ ((quadIn ⟨.relock, 0, true, 998000⟩).pll .time).since + 2000 ≤ (quadIn ⟨.relock, 0, true, 998000⟩).now
    ∧ ((quadIn ⟨.hop, 0, true, 998000⟩).pll .core).state = .hop := by decide +kernel

/-- Reference A active, B qualified or not. -/
def onA (b : Bool) : State := { up with clk := { up.clk with active := some false, qualA := true, qualB := b, time := inLock } }
theorem witness_reference_loss : ∀ b, (onA b).alive = true 
    ∧ (onA b).clk.active = some false ∧ (onA b).clk.active ≠ some true ∧ (onA b).qualified (!false) = b := by decide +kernel
def noRef : State := { up with tick := 4096000000, clk := { up.clk with refSince := up.clk.refSince.set 1 1 } }
theorem witness_reference_qualified : noRef.alive = true
    ∧ noRef.qualified true = false ∧ noRef.qualified false = false ∧ noRef.clk.active = none
    ∧ noRef.clk.refSince.get (bit true) + 400000 * noRef.fld 0x400000 2 10 ≤ noRef.now
    ∧ noRef.clk.refSince.get (bit false) = 0 := by decide +kernel
theorem witness_phase_jump : (onA true).clk.time.state = .locked ∧ (onA true).clk.started = true ∧ (onA true).clk.inHop = false
    ∧ ({ onA true with clk := { (onA true).clk with inHop := true } }).clk.inHop = true ∧ (clocked 0x2000 inLock).clk.core.state = .locked
    ∧ (onA true).clk.rho = 0 ∧ (clocked 0x2000 settled).clk.core.state = .settling
    ∧ ({ up with clk := { up.clk with time := settled } }).clk.time.state = .settling := by decide +kernel

/-- A record waits, with n records in the SILL area and the ring at slot m. -/
def recording (n m : Nat) : State :=
  { up with bel := { up.bel with
      staging := [lastRecord], newest := some lastRecord, ringSlot := m, sill := List.replicate n (.record lastRecord) } }
theorem witness_record_write : (recording 0 0).bel.staging = [lastRecord] ∧ (recording 0 0).canWrite = true
    ∧ (recording 0 0).bel.lostSince = 0 ∧ (recording 0 0).bel.sill.length < 16 * 128 ∧ (recording 0 0).epl.defer = false
    ∧ ((recording 0 0).faultParams 0x3801).1.code < 2 := by decide +kernel
theorem witness_record_ring : (recording 2048 126).canWrite = true ∧ (recording 2048 126).bel.lostSince = 0
    ∧ 16 * 128 ≤ (recording 2048 126).bel.sill.length ∧ (recording 2048 126).bel.ringSlot < 127 := by
  have h : (recording 2048 126).bel.sill.length = 2048 := List.length_replicate
  refine ⟨?_, rfl, h.symm ▸ (by decide : 16 * 128 ≤ 2048), by decide⟩
  simp only [State.canWrite]
  decide +kernel
def dueNote : Note := ⟨1, 2, 0, 999000⟩
/-- A note of record 1 is due, the next slot of NOTES is k, and the ring is at slot m with the sector ahead being erased. -/
def noting (m k : Nat) : State :=
  { up with bel := { up.bel with noteDue := [dueNote], newest := some lastRecord, erasing := some 91, ringSlot := m, noteSlot := k } }
theorem witness_note : ∀ k ∈ [0, 5455], ((noting 127 k).bel.noteDue.find? fun m => m.seq == dueNote.seq) = some dueNote
    ∧ (noting 127 k).canNote = true ∧ (noting 127 k).epl.defer = false ∧ (noting 127 k).bel.noteAt.get dueNote.seq.toNat = 0
    ∧ (noting 127 k).bel.noteSlot = k := by decide +kernel
theorem witness_erase : (noting 127 0).bel.erases 91 = true ∧ (noting 127 0).eraseWaits 91 = false ∧ (noting 127 0).bel.freezing = false
    ∧ (noting 127 0).bel.ringSlot < 128 ∧ (noting 127 0).bel.writes = [] ∧ 91 = 90 + ((noting 127 0).bel.ringSector + 1) % 18
    ∧ 128 ≤ (noting 128 0).bel.ringSlot ∧ (noting 127 0).bel.bspares < 4 ∧ ((noting 127 0).faultParams 0x3801).1.code < 2 := by
  decide +kernel
/-- The second copy of C0 is to be written, its last sector still to erase (R512). -/
def copyWrite : PartWrite := ⟨.c0, true, 5, [], [57]⟩
def copyDue : State := { up with bel := { up.bel with writes := [copyWrite] } }
theorem witness_partition_write : copyDue.bel.erases 57 = true ∧ copyDue.eraseWaits 57 = false ∧ copyDue.bel.freezing = false
    ∧ copyDue.bel.writes = [copyWrite] ∧ copyWrite.todo = [57] ∧ copyWrite.part = .c0 := by decide +kernel
def hourly : State := { up with tick := 144000000000, bel := { up.bel with frozen := some 143799999999 } }
theorem witness_count_and_thaw : hourly.bel.countAt + 360 * 400000000 ≤ hourly.now ∧ hourly.nvmHeld = false ∧ hourly.alive = true
    ∧ hourly.epl.defer = false ∧ hourly.bel.frozen = some 143799999999 ∧ 143799999999 + 200000000 ≤ hourly.now
    ∧ hourly.bel.staging = [] ∧ hourly.bel.lostSince = 0 ∧ hourly.bel.ringSlot < 128 ∧ hourly.bel.countOpen = true := by decide +kernel
/-- The tick of a self-thaw, before BEL_THAW is raised. -/
theorem witness_thaw_told : ({ up with bel := { up.bel with thawAt := some 1000000 } }).bel.thawAt = some 1000000 := rfl

/-! ## Kingpost -/

/-- 220 bytes of parameters: pair 15 FUNC 1 over octads 0 and 7, DISC 1 ms; outputs 0 and 7 enabled, 0 without a backup, 7 backed by 0. -/
def kpBytes : List Byte :=
  List.replicate 120 0 ++ [1, 0x81, 0, 20, 1, 0, 0, 0] ++ [1, 1, 15, 10, 200, 0, 0, 0] ++ List.replicate 48 0
    ++ [1, 1, 0, 10, 200, 0, 0, 0] ++ List.replicate 24 0 ++ [0x85, 0x67, 0xB4, 0x81]
def withKp (a b : KpChan) : State := { up with kp := ⟨true, a, b, 950, false, none, 0, false⟩ }
def kpRun : KpChan := { kpUp with params := some kpBytes, time := 1000 }
theorem witness_kp_sample : (withKp kpRun kpRun).kp.vkp = true ∧ (0x7F : Byte).getLsbD 7 = false
    ∧ (((withKp kpRun kpRun).ch .a).loops.get 7).enabled = false ∧ (((withKp kpRun kpRun).ch .a).loops.get 0).enabled = true := by decide +kernel
def kpClear : KpLoop := ⟨SbkCauses.init, false, true, none, 0, 0⟩
/-- Loop 7 enabled; the held cause of loop 0 stays; output 7 high. -/
def kpDemand : KpChan :=
  { kpRun with
    loops := kpUp.loops.set 7 kpClear
    outs := kpUp.outs.set 7 ⟨TripCauses.init, none, .init, false, false, false, true, none, false, 0, 0, 0, 0⟩ }
theorem witness_kp_cycle : ((withKp kpDemand kpRun).ch .a).params.isSome = true ∧ ((withKp kpDemand kpRun).ch .a).func 15 = 1
    ∧ bitOf (((withKp kpDemand kpRun).ch .a).octMask 15) 7 = true
    ∧ ((((withKp kpDemand kpRun).ch .a).pairs.get 15).own.level && (((withKp kpDemand kpRun).ch .a).pairs.get 15).other) = false
    ∧ (∀ j < 16, ((withKp kpDemand kpRun).ch .a).func j ≠ 4) ∧ (((withKp kpDemand kpRun).ch .a).loops.get 7).sbk = false
    ∧ (((withKp kpDemand kpRun).ch .a).outs.get 7).tripAt = none
    ∧ ({ withKp kpDemand kpRun with sys := { up.sys with sbkReq := true } }).sys.sbkReq = true := by decide +kernel
theorem witness_kp_handshake : (withKp { kpRun with badClock := 1 } kpRun).kp.vkp = true
    ∧ 1 ≤ ((withKp { kpRun with badClock := 1 } kpRun).ch .a).badClock
    ∧ ((withKp { kpRun with lastHs := 970 } kpRun).ch .a).lastHs + 30 ≤ ((withKp { kpRun with lastHs := 970 } kpRun).ch .a).time
    ∧ ((withKp { kpRun with lastHs := 970 } kpRun).ch .a).xchFault = false := by decide +kernel
def kpDisagree : KpChan := { kpRun with pairs := kpUp.pairs.set 15 { KpPair.init with wasOwn := true, changes := [⟨true, true, 900⟩] } }
theorem witness_kp_faulty : (((withKp kpRun kpDisagree).ch .b).pairs.get 15).disagreeAt = some 900 ∧ ((withKp kpRun kpDisagree).ch .b).func 15 ≠ 0
    ∧ (((withKp kpRun kpDisagree).ch .b).pairs.get 15).faulty = false ∧ (withKp kpRun kpDisagree).kp.vkp = true
    ∧ 900 + ((withKp kpRun kpDisagree).ch .b).disc 15 ≤ ((withKp kpRun kpDisagree).ch .b).time := by decide +kernel
/-- The same with SRD_CH 0, T_KS 100 µs, and port 6 of 1 channel, W 24, RATE 1, FMT two's complement, TCONV 200. -/
def portBytes : List Byte := kpBytes.take 192 ++ [0, 0, 2, 0, 16, 0, 102, 6] ++ [0, 24, 1, 0, 0, 0, 200, 0] ++ List.replicate 12 0
def kpSrd (above : Bool) : KpChan :=
  { kpRun with
    params := some portBytes, own := true, srd := { Srd.init with running := true, octs := 0x80, above := above }
    loops := kpUp.loops.set 7 kpClear }
theorem witness_kp_srd : ((withKp (kpSrd true) kpRun).ch .a).srd.running = true ∧ ((withKp (kpSrd true) kpRun).ch .a).srd.above = true
    ∧ ((withKp (kpSrd true) kpRun).ch .a).srd.octs.getLsbD 7 = true ∧ ((withKp (kpSrd false) kpRun).ch .a).srd.e0 = none
    ∧ ((withKp (kpSrd false) kpRun).ch .a).portCode .a (some [0x10000]) = some 65536 ∧ (withKp (kpSrd false) kpRun).kp.vkp = true
    ∧ ((withKp (kpSrd false) kpRun).ch .a).own = true ∧ ((withKp { kpSrd false with srd := Srd.init } kpRun).ch .a).srd.running = false
    ∧ 0 < srdMagnitude 65536 (((withKp (kpSrd false) kpRun).ch .a).width .a) := by decide +kernel
def kpOut (trip : Bool) (dark : Option Nat) : KpOut :=
  ⟨{ TripCauses.init with pair := trip }, if trip then some 900 else none, .init, false, false, false, !trip, dark, false, 0, 0, 0, 0⟩
def kpOuts (trip : Bool) (dark : Option Nat) : KpChan :=
  { kpRun with outs := (kpUp.outs.set 0 (kpOut trip dark)).set 7 (kpOut trip dark) }
theorem witness_kp_feedback : ((withKp kpRun (kpOuts true none)).ch .b).outEn 7 = true ∧ ((withKp kpRun (kpOuts true none)).ch .b).outEn 0 = true
    ∧ (((withKp kpRun (kpOuts true none)).ch .b).outs.get 7).tripAt = some 900 ∧ (((withKp kpRun (kpOuts true none)).ch .b).outs.get 0).fbTo = false
    ∧ 900 + ((withKp kpRun (kpOuts true none)).ch .b).tFb 7 ≤ ((withKp kpRun (kpOuts true none)).ch .b).time
    ∧ ((withKp kpRun (kpOuts true none)).ch .b).backup 0 = 15 ∧ ((withKp kpRun (kpOuts true none)).ch .b).backup 7 = 0
    ∧ (((withKp kpRun (kpOuts true none)).ch .b).outs.get 7).fbOpen = false := by decide +kernel
theorem witness_kp_dark : (((withKp (kpOuts false none) kpRun).ch .a).outs.get 7).high = true
    ∧ (((withKp (kpOuts false none) kpRun).ch .a).outs.get 7).causes.any = false
    ∧ (((withKp (kpOuts false none) kpRun).ch .a).outs.get 7).dark = none
    ∧ (((withKp (kpOuts false none) kpRun).ch .a).outs.get 7).darkNext ≤ ((withKp (kpOuts false none) kpRun).ch .a).time
    ∧ (((withKp (kpOuts false (some 980)) kpRun).ch .a).outs.get 7).dark = some 980
    ∧ (((withKp (kpOuts false (some 980)) kpRun).ch .a).outs.get 7).darkLow = false
    ∧ 10 * 980 + ((withKp (kpOuts false (some 980)) kpRun).ch .a).tpWid 7 ≤ 10 * ((withKp (kpOuts false (some 980)) kpRun).ch .a).time
    ∧ ((withKp (kpOuts false none) kpRun).ch .a).outEn 7 = true := by decide +kernel
/-- A pulse of 200 µs whose pin has read low since: its end at sample 1,001, and before it. -/
def lowPulse (x : Nat) : State := withKp { kpRun with outs := kpUp.outs.set 7 { kpOut false (some x) with darkLow := true } } kpRun
theorem witness_kp_pulse : (((lowPulse 981).ch .a).outs.get 7).dark = some 981 ∧ (((lowPulse 981).ch .a).outs.get 7).darkLow = true
    ∧ 10 * 981 + ((lowPulse 981).ch .a).tpWid 7 ≤ 10 * ((lowPulse 981).ch .a).time + 10
    ∧ 10 * ((lowPulse 982).ch .a).time + 10 < 10 * 982 + ((lowPulse 982).ch .a).tpWid 7 := by decide +kernel
set_option maxRecDepth 100000 in
theorem witness_kp_parameters : kpBlockOk kpBytes = true := by decide +kernel
def withBlock (k : KpChan) : KpChan := { k with newParams := some kpBytes, newSeen := true }
def delivered : State := withKp (withBlock kpRun) (withBlock kpRun)
set_option maxRecDepth 100000 in
theorem witness_kp_held : kpHeld (delivered.ch .a) (delivered.ch (kpOther .a)) = true := by decide +kernel
theorem witness_kp_apply : delivered.kp.a.newParams = some kpBytes ∧ delivered.kp.b.newParams = some kpBytes ∧ delivered.kp.a.srd.running = false
    ∧ delivered.kp.b.srd.running = false ∧ delivered.kp.a.newSeen = true ∧ delivered.kp.b.newSeen = true ∧ delivered.kp.vkp = true
    ∧ delivered.kp.a.time < delivered.kp.deliveredAt + 100
    ∧ ({ delivered with kp := { delivered.kp with deliveredAt := 900 } }).kp.deliveredAt + 100 ≤ delivered.kp.a.time := by decide +kernel
theorem witness_vkp : up.kp.vkp = false ∧ (up.alive && up.ps.image.isSome) = false := by decide +kernel
/-- Octads 0 and 7 run; loop 7 is enabled on both channels, and 0 on neither. -/
def viewed (run : Bool) : State :=
  { withKp { kpSrd false with srd := { Srd.init with running := run, octs := 0x80 }, loops := (Tab.empty KpLoop.init).set 7 kpClear }
      { kpRun with loops := (Tab.empty KpLoop.init).set 7 kpClear } with
    octs := (up.octs.set 0 running).set 7 running }
theorem witness_kp_view : ∀ b, (viewed b).alive = true ∧ (viewed b).kp.a.running = true ∧ ((viewed b).kp.a.loops.get 0).enabled = false
    ∧ ((viewed b).oct 0).state.active = true ∧ ((viewed b).kp.a.loops.get 7).enabled = true ∧ ((viewed b).kp.b.loops.get 7).enabled = true
    ∧ (viewed b).kp.a.srd.running = b ∧ (viewed b).kp.a.srd.octs.getLsbD 7 = true ∧ ((viewed b).oct 7).state = .running
    ∧ (viewed b).kp.b.srd.running = false := by decide +kernel

/-! ## Energy, sensors, power, BIST, the set and debug -/

theorem witness_energy_epoch : up.clk.started = true ∧ up.epl.epochAt + 400000 ≤ up.now ∧ up.epl.live.get 5 = 0
    ∧ (up.tally 5 3).epl.live.get 5 ≠ 0 := by decide +kernel
/-- 1,024 epochs in which each group measured 25 % above its prediction. -/
def calibrating : State :=
  let e (p : Nat) : Tab Nat := (((Tab.empty 0).set 0 p).set 1 p).set 2 p
  { up with regs := [], epl := { up.epl with epochs := 1024, predE := e 4000, actE := e 5000 } }
theorem witness_calibration : calibrating.canonical ∧ 1024 ≤ calibrating.epl.epochs
    ∧ ∀ g < 3, calibrating.epl.predE.get g ≠ 0 ∧ 12288 ≤ 20480 ∧ 20480 ≤ 20480
      ∧ rndFrac ((calibrating.scaleOf g : Int) * calibrating.epl.actE.get g) (calibrating.epl.predE.get g) = (20480 : Nat) :=
  ⟨⟨⟨by decide +kernel, by decide +kernel⟩, by decide +kernel⟩, by decide +kernel, by decide +kernel⟩
def measured (x : Sensor) : State := { up with tick := 4000000000, sensors := up.sensors.set 75 x }
def sensing : Sensor := { Sensor.init with n1 := 1000, n2 := 2000, c1 := 0, c2 := 1000, gate := some 3999983200, invalid := 2 }
theorem witness_sensor_demand : (measured Sensor.init).alive = true ∧ (measured Sensor.init).sheds 4 = false
    ∧ ((measured Sensor.init).sensors.get 75).schedAt + 400000 * (measured Sensor.init).fld 0x402000 0 10 ≤ (measured Sensor.init).now
    ∧ ((measured { Sensor.init with demand := true }).sensors.get 75).demand = true
    ∧ ((measured { Sensor.init with demand := true }).sensors.get 75).gate = none := by decide +kernel
theorem witness_sensor_gate_apart : ((measured Sensor.init).sensors.get 63).lastGate = none := by decide +kernel
theorem witness_sensor_result : ((measured sensing).sensors.get 75).gate = some 3999983200 ∧ 3999983200 + 16800 ≤ (measured sensing).now
    ∧ ((measured sensing).sensors.get 75).spoiled = false ∧ ((measured sensing).sensors.get 75).codeOf (520 : Nat) = some (-480)
    ∧ ((measured sensing).sensors.get 75).codeOf (2200 : Nat) = some 1200 ∧ ((measured sensing).sensors.get 75).codeOf (2201 : Nat) = some 1201
    ∧ 2 ≤ ((measured sensing).sensors.get 75).invalid ∧ ((measured { sensing with spoiled := true }).sensors.get 75).spoiled = true := by
  decide +kernel
theorem witness_staleness : ((measured { Sensor.init with valid := true }).sensors.get 75).valid = true
    ∧ ((measured { Sensor.init with valid := true }).sensors.get 75).stale = false
    ∧ ((measured { Sensor.init with valid := true }).sensors.get 75).last + 400000 * (measured { Sensor.init with valid := true }).fld 0x402000 10 10
      < (measured { Sensor.init with valid := true }).now := by decide +kernel
def grace (c : BitVec 3) : State :=
  { measured { Sensor.init with crossed := c } with epl := { up.epl with grace := some (4000000000, 75) } }
theorem witness_grace : (grace 2).epl.grace = some (4000000000, 75) ∧ 4000000000 ≤ (grace 2).now ∧ (grace 2).throttled = true
    ∧ (grace 0).throttled = false := by decide +kernel
theorem witness_demand_mask : up.Ready 0 hdr (.thmDemand 0x8000000000000000001) := ready_of (by decide +kernel)

/-- OFF, its tombstones as they were. -/
def offState : State := { State.reset with sys := { Sys.init with dev := .off } }
def inReset : State := { State.reset with sys := { Sys.init with dev := .reset, rails := true } }
def unbootable : State := { inReset with ps := { inReset.ps with fw := .empty FwSlot.init } }
theorem inReset_valid : inReset.fwValid inReset.ps.fwPreferred = true := by
  have h : inReset.askicaOk = true := beq_self_eq_true (shake256 Config.askicaKey)
  simp only [State.fwValid, h]
  decide +kernel
/-- A set stored as generation 9 in the first copy. -/
def storedSet : State :=
  { inReset with bel := { inReset.bel with copies := inReset.bel.copies.set 2 ⟨copyHeader 9 [1, 2, 3], [1, 2, 3]⟩ } }
theorem storedSet_valid : storedSet.fwValid storedSet.ps.fwPreferred = true := by
  have h : storedSet.askicaOk = true := beq_self_eq_true (shake256 Config.askicaKey)
  simp only [State.fwValid, h]
  decide +kernel
theorem witness_stored_set : storedSet.sys.dev = .reset ∧ storedSet.bel.shut = 0 ∧ storedSet.bel.newestCopy .pset = some (false, 9, [1, 2, 3])
    ∧ inReset.bel.shut = 0 ∧ inReset.bel.newestCopy .pset = none ∧ inReset.bel.countErase = none := by decide +kernel
theorem witness_power : inReset.sys.dev = .reset ∧ unbootable.sys.dev = .reset
    ∧ unbootable.fwValid 0 = false ∧ unbootable.fwValid 1 = false ∧ unbootable.bel.shut = 0
    ∧ up.sys.dev ≠ .off ∧ up.sys.dev ≠ .reset ∧ up.ps.commit = none ∧ offState.sys.dev = .off ∧ up.bel.staging = []
    ∧ up.bel.ringSlot < 128 ∧ ({ up with sys := { up.sys with rails := true } }).sys.rails = true := by
  decide +kernel
/-- In the orderly shut-down with its COUNT entry to come, SHUT crossed or not. -/
def shutting (held : Bool) : State :=
  { inReset with
    bel := { inReset.bel with shut := 4 }
    sensors := inReset.sensors.set 75 { Sensor.init with crossed := if held then 4 else 0 } }
theorem witness_shut_step : ∀ b, (shutting b).bel.shut = 3 + 1 ∧ (shutting b).nvmHeld = b ∧ (shutting b).bel.countErase = none
    ∧ (shutting b).bel.countOpen = true := by decide +kernel

/-- Blocks under test, and what was done of the first. -/
def testing (d : DevState) (rest : List Nat) (x : Bist) : State :=
  { up with sys := { up.sys with dev := d, bist := { x with blocks := 0x103F :: rest, busy := true } } }
def once (r : Bool) : Bist := { Bist.init with runs := 1, retried := r }
def requalified : State :=
  let s := testing .idle [] { once false with requalify := true, passes := 1 }
  { s with sys := s.sys.use 0x103F false }
theorem witness_segment : ∀ r, (testing .idle [] (once r)).sys.bist.blocks = 0x103F :: []
    ∧ (testing .idle [0x2000] (once r)).sys.bist.blocks = 0x103F :: [0x2000]
    ∧ (testing .idle [] (once r)).sys.dev ≠ .lockout ∧ (testing .lockout [] (once r)).sys.dev = .lockout ∧ bistTerminal 0x103F = 65536
    ∧ (testing .idle [] (once r)).sys.bist.runs = 1 ∧ (testing .idle [] (once r)).sys.bist.requalify = false
    ∧ (testing .selftest [] { once r with boot := true }).sys.bist.boot = true
    ∧ (testing .idle [] (once r)).sys.bist.retried = r := by decide +kernel
theorem witness_segment_requalified : requalified.sys.bist.requalify = true ∧ requalified.sys.bist.passes = 1
    ∧ requalified.sys.bist.runs = 1 ∧ requalified.sys.usable 0x103F = false := by decide +kernel
theorem witness_segment_timeout : ∀ r, (testing .idle [] (once r)).sys.bist.startAt + bistTimeout 0x103F ≤
    ({ testing .idle [] (once r) with tick := 100000000 }).now := by decide +kernel
def rundownOver : State :=
  { upOcts 7 { running with state := .rundown } with tick := 40000000 * 127 }
theorem witness_rundown_over : (rundownOver.oct 7).state = .rundown
    ∧ (rundownOver.oct 7).rdEntry + 40000000 * rundownOver.ofld 7 4 16 7 < rundownOver.now
    ∧ (rundownOver.faultParams 0x2504).1.code < 2 ∧ rundownOver.flt.table.length < 256 := by decide +kernel
/-- `deblockable` with its octad waiting for WARM B lanes since the given tick. -/
def waitingB (s : State) (since : Nat) : State := { s with octs := s.octs.upd 0 fun o => { o with deb := .waitB .running since } }
theorem witness_b_lanes : ((waitingB deblockable 640000).oct 0).deb = .waitB .running 640000
    ∧ (waitingB deblockable 640000).now ≤ 640000 + 360000 ∧ (waitingB deblockable 640000).deblockErr 0 = some 0
    ∧ (waitingB deblockB 640000).deblockErr 0 = none ∧ 639999 + 360000 < (waitingB deblockB 639999).now := by decide +kernel

def commitOf (keys : Option (Tab KeySlot × KeySlot)) : State :=
  { up with ps := { up.ps with commit := some ⟨false, [1, 2, 3], false, false, image 2, 9, keys, .s⟩ }
            bel := { up.bel with writes := [⟨.pset, true, 9, [1, 2, 3], []⟩] } }
theorem witness_commit : (commitOf none).reaches (commitOf none).fr.epoch = true
    ∧ ({ commitOf none with tick := 5 }).reaches (commitOf none).fr.epoch = false
    ∧ ((commitOf none).bel.writes.find? fun w => w.part == .pset) = some ⟨.pset, true, 9, [1, 2, 3], []⟩
    ∧ (committing true).ps.commit = some (aCommit true) ∧ (aCommit true).locked = true
    ∧ (commitOf none).ps.commit = some ⟨false, [1, 2, 3], false, false, image 2, 9, none, .s⟩
    ∧ (commitOf none).sys.dev ≠ .lockout
    ∧ (commitOf (some (.empty KeySlot.init, KeySlot.init))).ps.commit.isSome = true := by decide +kernel
def nonced : State := { up with tick := 86400 * 400000000, ps := { up.ps with nonce := some (1, 2, 0) } }
theorem witness_nonce : nonced.ps.nonce = some (1, 2, 0) ∧ 0 + nonceTicks ≤ nonced.now := by decide +kernel
/-- A device with a G set asks a grant for debug access. -/
def granted (sc : BitVec 4) (till : Nat) : State := { up with ps := { up.ps with profile := .g, grant := some (sc, till) } }
theorem witness_debug : (granted 1 1000001).debugAllows 0 = true ∧ (granted 2 1000001).debugAllows 1 = true
    ∧ (granted 4 1000001).debugAllows 2 = true ∧ (granted 9 1000001).debugAllows 1 = false ∧ (granted 9 1000001).debugAllows 2 = false
    ∧ (granted 8 1000001).debugAllows 3 = true ∧ (granted 9 1000000).debugAllows 3 = false ∧ up.alive = true
    ∧ (∀ i ∈ [1, 2, 3], (granted 1 1000001).debugAllows i = false)
    ∧ (granted 15 1000000).debugAllows 0 = false ∧ (granted 15 1000000).ps.grant = some (15, 1000000) ∧ 1000000 ≤ up.now := by decide +kernel
theorem witness_token : up.alive = true ∧ up.tokenErr [] ≠ 0 := ⟨by decide +kernel, by simp [State.tokenErr, leAt]⟩
def halted : State := { up with sys := { up.sys with halt := true }, dpws := up.dpws.set 23 { Dpwm.init with carry := 5 } }
theorem witness_release : halted.sys.halt = true ∧ halted.dpws.get 23 ≠ halted.dpws.dflt ∧ halted.fr.dpwHalt = false
    ∧ ({ halted with fr := { halted.fr with dpwHalt := true } }).fr.dpwHalt = true ∧ (0x16FFFFC : Word).toNat < sramBytes := by decide +kernel

/-- A host write taken on the tick on which the device entered LOCKOUT (Table 19-14), and a BIST run that the LOCKOUT abandons. -/
def lockedOut : State :=
  { up with wrote := [(0x110, 8)], regs := putReg 0x110 16 upRegs,
            sys := { up.sys with dev := .lockout, bist := { Bist.init with blocks := [0x1000], busy := true } } }
theorem test_lockout_undoes_the_write_of_its_tick : lockedOut.settleWrites.reg 0x110 = 8
    ∧ (lockedOut.settleWrites.reg 0x108).getLsbD 2 = true ∧ lockedOut.settleWrites.wrote = [] := by decide +kernel
theorem test_lockout_abandons_bist : lockedOut.endAbandoned.sys.bist = Bist.init
    ∧ (lockedOut.readBar0 0x4004).getLsbD 0 = false := by decide +kernel

/-! ## The package (Table 20-14, the counts that the spec gives) -/

theorem test_ball_counts_ground : ballCount (· == .gnd) = 1122 := by decide +kernel
theorem test_ball_counts_supplies : ballCount (· == .supply .vcore) = 504 ∧ ballCount (· == .supply .vser) = 132
    ∧ ballCount (· == .supply .vserh) = 68 ∧ ballCount (· == .supply .vsram) = 56 ∧ ballCount (· == .supply .vkp) = 19
    ∧ ballCount (· == .supply .vio33) = 13 ∧ ballCount (· == .supply .vio18) = 13 ∧ ballCount (· == .supply .vhold) = 1 := by
  decide +kernel
theorem test_ball_counts_signals : ballCount (fun n => match n with | .signal _ => true | _ => false) = 776 := by decide +kernel

end Sys2Proof.Tests
end

section
/-! SUPPORT. FEEDBACK_DEADLINE (chapter 1): what the latch of an octad reads and forms, part by part, and what each part leaves alone.

A reaction to a fault comes between the parts, so that the cells' latches, the octad's and the engine's need a frame through all of them.  The
mean of R64 is formed of a list of cells before the last of these parts; that the list is the same at the end of the command takes an argument
about the table of cells, since no hypothesis says that its keys rise. -/

namespace Sys2Proof.Tab

/-! ### Keys with a place of their own

A table that is not in rising order may list a key twice, and `put` then sets another entry than `look` has read. -/

variable {α : Type}

/-- The entry that `put` finds for a key is there: all before it have smaller keys. -/
def Placed (i : Nat) : List (Nat × α) → Prop
  | [] => False
  | (k, _) :: r => k = i ∨ (k < i ∧ Placed i r)

theorem placed_put_same (i : Nat) (v : α) (l : List (Nat × α)) : Placed i (put i v l) := by
  induction l with
  | nil => exact .inl rfl
  | cons e r ih =>
    obtain ⟨k, w⟩ := e
    unfold put
    split
    · exact .inl rfl
    · split
      · exact .inl rfl
      · exact .inr ⟨by omega, ih⟩

theorem Placed.put {i : Nat} {l : List (Nat × α)} (h : Placed i l) (j : Nat) (v : α) : Placed i (put j v l) := by
  induction l with
  | nil => exact h.elim
  | cons e r ih =>
    obtain ⟨k, w⟩ := e
    unfold Tab.put
    split
    · rename_i hj
      subst hj
      exact h
    · split
      · rcases h with rfl | ⟨hk, hr⟩
        · exact .inr ⟨‹_›, .inl rfl⟩
        · exact .inr ⟨by omega, .inr ⟨hk, hr⟩⟩
      · exact h.imp id fun ⟨hk, hr⟩ => ⟨hk, ih hr⟩

theorem Placed.map {i : Nat} {l : List (Nat × α)} (h : Placed i l) (f : Nat → α → α) :
    Placed i (l.map fun e => (e.1, f e.1 e.2)) := by
  induction l with
  | nil => exact h.elim
  | cons e r ih => exact h.imp id fun ⟨hk, hr⟩ => ⟨hk, ih hr⟩

/-- The listed keys of a kind are the same when a key in its place is set, or one that is not of that kind. -/
theorem filter_put {p : Nat × α → Bool} {i : Nat} {v : α} {l : List (Nat × α)} (d : α) (hv : p (i, v) = p (i, look d l i))
    (hp : Placed i l ∨ p (i, v) = false) : ((put i v l).filter p).map (·.1) = (l.filter p).map (·.1) := by
  induction l with
  | nil => simp [put, hp.resolve_left id]
  | cons e r ih =>
    obtain ⟨k, w⟩ := e
    unfold put
    by_cases hk : i = k
    · subst hk
      have hw : p (i, v) = p (i, w) := by simpa [look] using hv
      simp only [if_true, List.filter_cons, hw]
      split <;> rfl
    · have hk' : ¬k = i := fun h => hk h.symm
      rw [if_neg hk]
      split
      · rcases hp with h | h
        · rcases h with h | h
          · exact absurd h hk'
          · omega
        · simp [List.filter_cons, h]
      · have := ih (by simpa [look, hk'] using hv) (hp.imp (fun h => (h.resolve_left hk').2) id)
        simp only [List.filter_cons]
        split
        · simpa using this
        · exact this

/-- Setting a key changes nothing in the list of the others. -/
theorem filter_put_ne {p : Nat × α → Bool} {q : Nat → Bool} {i : Nat} (hq : q i = false) (v : α) (l : List (Nat × α)) :
    (((put i v l).filter p).map (·.1)).filter q = ((l.filter p).map (·.1)).filter q := by
  induction l with
  | nil =>
    simp only [put, List.filter_cons]
    split <;> simp [hq]
  | cons e r ih =>
    obtain ⟨k, w⟩ := e
    unfold put
    split
    · rename_i hk
      subst hk
      simp only [List.filter_cons]
      split <;> split <;> simp [hq]
    · split
      · rw [List.filter_cons]
        split <;> simp [hq]
      · simp only [List.filter_cons]
        split <;> simp [List.filter_cons, ih]

/-- A listed entry of a kind stays listed when a key is set to a value of the kind that it had. -/
theorem exists_mem_put {P : α → Prop} {i : Nat} {v : α} {l : List (Nat × α)} (d : α) (hv : P v ↔ P (look d l i)) {j : Nat}
    (h : ∃ x, (j, x) ∈ l ∧ P x) : ∃ x, (j, x) ∈ put i v l ∧ P x := by
  obtain ⟨x, hx, hP⟩ := h
  induction l with
  | nil => cases hx
  | cons e r ih =>
    obtain ⟨k, w⟩ := e
    unfold put
    split
    · rename_i hk
      subst hk
      rcases List.mem_cons.mp hx with e | hx
      · obtain ⟨rfl, rfl⟩ := Prod.mk.inj e
        exact ⟨v, .head _, hv.mpr (by simpa [look] using hP)⟩
      · exact ⟨x, .tail _ hx, hP⟩
    · rename_i hk
      have hk' : ¬k = i := fun h => hk h.symm
      split
      · exact ⟨x, .tail _ hx, hP⟩
      · rcases List.mem_cons.mp hx with e | hx
        · exact ⟨x, e ▸ .head _, hP⟩
        · obtain ⟨y, hy, hy'⟩ := ih (by simpa [look, hk'] using hv) hx
          exact ⟨y, .tail _ hy, hy'⟩

theorem mem_of_mem_put {i j : Nat} (h : j ≠ i) {v x : α} {l : List (Nat × α)} (hx : (j, x) ∈ put i v l) : (j, x) ∈ l := by
  induction l with
  | nil => exact absurd (Prod.mk.inj (List.mem_singleton.mp hx)).1 h
  | cons e r ih =>
    obtain ⟨k, w⟩ := e
    unfold put at hx
    split at hx
    · rcases List.mem_cons.mp hx with e | hx
      · exact absurd (Prod.mk.inj e).1 h
      · exact .tail _ hx
    · split at hx
      · rcases List.mem_cons.mp hx with e | hx
        · exact absurd (Prod.mk.inj e).1 h
        · exact hx
      · rcases List.mem_cons.mp hx with e | hx
        · exact e ▸ .head _
        · exact .tail _ (ih hx)

/-- What a function keeps of every entry, it keeps of what a key reads as. -/
theorem look_map_congr {β : Type} (g : α → β) {f : Nat → α → α} (hf : ∀ i c, g (f i c) = g c) (d : α) (l : List (Nat × α)) (i : Nat) :
    g (look d (l.map fun e => (e.1, f e.1 e.2)) i) = g (look d l i) := by
  induction l with
  | nil => rfl
  | cons e r ih =>
    obtain ⟨k, w⟩ := e
    simp only [List.map_cons, look]
    split
    · exact hf k w
    · exact ih

/-- A listed key reads as the function of what it read as. -/
theorem look_map_of_mem {d : α} {f : Nat → α → α} {l : List (Nat × α)} {i : Nat} (h : ∃ x, (i, x) ∈ l) :
    look d (l.map fun e => (e.1, f e.1 e.2)) i = f i (look d l i) := by
  induction l with
  | nil => exact nomatch h
  | cons e r ih =>
    obtain ⟨k, w⟩ := e
    simp only [List.map_cons, look]
    split
    · rename_i hk
      subst hk
      rfl
    · rename_i hk
      obtain ⟨x, hx⟩ := h
      exact ih ⟨x, (List.mem_cons.mp hx).resolve_left fun e => hk (Prod.mk.inj e).1.symm⟩

end Sys2Proof.Tab

namespace Sys2Proof.Machine

/-! ### What the latch has put into the cells -/

/-- A cell with its feedback and latches only. -/
def Cell.image (c : Cell) : Cell :=
  { Cell.init with populated := c.populated, fb := c.fb, v := c.v, stale := c.stale, fault := c.fault, cand := c.cand,
                   vOld := c.vOld, candOld := c.candOld }

/-- A slot is listed as populated. -/
def State.hasCell (s : State) (c : Nat) : Prop := ∃ x, (c, x) ∈ s.cells.ents ∧ x.populated = true

/-- A cell has its place in the table. -/
def State.placed (s : State) (c : Nat) : Prop := Tab.Placed c s.cells.ents

/-- The candidates of an octad (R59), of which the mean of R64 is formed. -/
def State.candCells (s : State) (n : Nat) : List Nat := (s.octCells n).filter fun c => (s.cell c).cand

theorem State.mem_octCells {s : State} {n c : Nat} : c ∈ s.octCells n ↔ c / 512 = n ∧ s.hasCell c := by
  simp only [State.octCells, State.hasCell, List.mem_map, List.mem_filter, decide_eq_true_eq, Prod.exists]
  constructor
  · rintro ⟨k, x, ⟨hx, hn, hp⟩, rfl⟩
    exact ⟨hn, x, hx, hp⟩
  · rintro ⟨hn, x, hx, hp⟩
    exact ⟨c, x, ⟨hx, hn, hp⟩, rfl⟩

theorem State.mem_candCells {s : State} {n c : Nat} : c ∈ s.candCells n ↔ (c / 512 = n ∧ s.hasCell c) ∧ (s.cell c).cand = true := by
  rw [State.candCells, List.mem_filter, State.mem_octCells]

theorem Cell.populated_eq_of_image {c d : Cell} (h : c.image = d.image) : c.populated = d.populated :=
  (congrArg Cell.populated h : c.image.populated = d.image.populated)
theorem Cell.cand_eq_of_image {c d : Cell} (h : c.image = d.image) : c.cand = d.cand :=
  (congrArg Cell.cand h : c.image.cand = d.image.cand)
theorem Cell.v_eq_of_image {c d : Cell} (h : c.image = d.image) : c.v = d.v :=
  (congrArg Cell.v h : c.image.v = d.image.v)
theorem Cell.fb_eq_of_image {c d : Cell} (h : c.image = d.image) : c.fb = d.fb :=
  (congrArg Cell.fb h : c.image.fb = d.image.fb)
theorem Cell.stale_eq_of_image {c d : Cell} (h : c.image = d.image) : c.stale = d.stale :=
  (congrArg Cell.stale h : c.image.stale = d.image.stale)
theorem Cell.fault_eq_of_image {c d : Cell} (h : c.image = d.image) : c.fault = d.fault :=
  (congrArg Cell.fault h : c.image.fault = d.image.fault)
theorem Cell.vOld_eq_of_image {c d : Cell} (h : c.image = d.image) : c.vOld = d.vOld :=
  (congrArg Cell.vOld h : c.image.vOld = d.image.vOld)
theorem Cell.candOld_eq_of_image {c d : Cell} (h : c.image = d.image) : c.candOld = d.candOld :=
  (congrArg Cell.candOld h : c.image.candOld = d.image.candOld)

/-- What becomes of the cells between the latch and the end of the command: their latches stay, those that are populated stay so, a cell that
is retired has its place, and once every candidate has its place the list of candidates stays too. -/
structure CellsKept (s t : State) : Prop where
  image : ∀ c, (t.cell c).image = (s.cell c).image
  has : ∀ c, t.hasCell c ↔ s.hasCell c
  placed : ∀ c, s.placed c → t.placed c
  retired : ∀ c, (t.cell c).retired = (s.cell c).retired ∨ t.placed c
  cands : ∀ n, (∀ c ∈ s.candCells n, s.placed c) → t.candCells n = s.candCells n

namespace CellsKept

theorem of_cells {s t : State} (h : t.cells = s.cells) : CellsKept s t := by
  have hc : ∀ c, t.cell c = s.cell c := fun c => by rw [State.cell, State.cell, h]
  refine ⟨fun c => by rw [hc], fun c => by rw [State.hasCell, State.hasCell, h], fun c => by rw [State.placed, State.placed, h]; exact id,
    fun c => .inl (by rw [hc]), fun n _ => ?_⟩
  simp only [State.candCells, State.octCells, hc, h]

theorem refl (s : State) : CellsKept s s := of_cells rfl

theorem trans {s t u : State} (h : CellsKept s t) (k : CellsKept t u) : CellsKept s u := by
  refine ⟨fun c => (k.image c).trans (h.image c), fun c => (k.has c).trans (h.has c), fun c hc => k.placed c (h.placed c hc), fun c => ?_,
    fun n hn => ?_⟩
  · rcases k.retired c with e | e
    · exact (h.retired c).imp e.trans (k.placed c)
    · exact .inr e
  · have e := h.cands n hn
    exact (k.cands n fun c hc => h.placed c (hn c (e ▸ hc))).trans e

theorem ite {s a b : State} {c : Prop} [Decidable c] (ha : CellsKept s a) (hb : CellsKept s b) :
    CellsKept s (if c then a else b) := by split <;> assumption

theorem forNat {f : Nat → State → State} (h : ∀ i s, CellsKept s (f i s)) (n : Nat) (s : State) : CellsKept s (forNat n f s) :=
  forNat_induct (P := CellsKept s) (fun i u hu => hu.trans (h i u)) n (refl s)

/-- A step on each of some populated cells. -/
theorem foldl {f : State → Nat → State} (h : ∀ u c, u.hasCell c → CellsKept u (f u c)) {l : List Nat} {s : State}
    (hl : ∀ c ∈ l, s.hasCell c) : CellsKept s (l.foldl f s) := by
  induction l generalizing s with
  | nil => exact refl s
  | cons a r ih =>
    have ha := h s a (hl a (.head _))
    exact ha.trans (ih fun c hc => (ha.has c).mpr (hl c (.tail _ hc)))

theorem updCell {s : State} {k : Nat} {f : Cell → Cell} (hf : ∀ c, (f c).image = c.image) (hk : s.hasCell k) :
    CellsKept s (s.updCell k f) := by
  have hi : ∀ c, ((s.updCell k f).cell c).image = (s.cell c).image := fun c => by
    simp only [State.cell, State.updCell, Tab.get_upd]
    split
    · rename_i e; subst e; exact hf _
    · rfl
  have hp : (f (s.cell k)).populated = (s.cell k).populated := Cell.populated_eq_of_image (hf _)
  refine ⟨hi, fun c => ⟨fun hc => ?_, fun hc => ?_⟩, fun c hc => hc.put _ _, fun c => ?_, fun n hn => ?_⟩
  · by_cases e : c = k
    · exact e ▸ hk
    · obtain ⟨x, hx, hx'⟩ := hc
      exact ⟨x, Tab.mem_of_mem_put e hx, hx'⟩
  · exact Tab.exists_mem_put (P := fun x : Cell => x.populated = true) s.cells.dflt (Bool.eq_iff_iff.mp hp) hc
  · by_cases e : c = k
    · exact .inr (e ▸ Tab.placed_put_same ..)
    · exact .inl (congrArg Cell.retired (Tab.get_upd_ne _ e _))
  · have hq : (fun c => ((s.updCell k f).cell c).cand) = fun c => (s.cell c).cand := funext fun c => Cell.cand_eq_of_image (hi c)
    have hv : decide (k / 512 = n ∧ (f (s.cell k)).populated = true) = decide (k / 512 = n ∧ (s.cell k).populated = true) := by rw [hp]
    simp only [State.candCells, hq]
    by_cases hkc : (s.cell k).cand = true
    · have hkn : s.placed k ∨ decide (k / 512 = n ∧ (f (s.cell k)).populated = true) = false := by
        by_cases h : k / 512 = n
        · exact .inl (hn k (State.mem_candCells.mpr ⟨⟨h, hk⟩, hkc⟩))
        · exact .inr (by simp [h])
      exact congrArg (List.filter _) (Tab.filter_put s.cells.dflt hv hkn)
    · exact Tab.filter_put_ne (q := fun c => (s.cell c).cand) (by simpa using hkc) _ _

theorem mapAll {s t : State} {f : Nat → Cell → Cell} (h : t.cells = s.cells.mapAll f) (hf : ∀ i c, (f i c).image = c.image)
    (hr : ∀ i c, (f i c).retired = c.retired) : CellsKept s t := by
  have hc : ∀ c, t.cell c = (s.cells.mapAll f).get c := fun c => by rw [State.cell, h]
  have hi : ∀ c, (t.cell c).image = (s.cell c).image := fun c => by rw [hc]; exact Tab.look_map_congr Cell.image hf ..
  have hp : ∀ i c, (f i c).populated = c.populated := fun i c => Cell.populated_eq_of_image (hf i c)
  refine ⟨hi, fun c => ?_, fun c hc => ?_, fun c => .inl ?_, fun n _ => ?_⟩
  · simp [State.hasCell, h, Tab.mapAll, hp]
  · rw [State.placed, h]; exact hc.map f
  · rw [hc]; exact Tab.look_map_congr Cell.retired hr ..
  · have hq : (fun c => (t.cell c).cand) = fun c => (s.cell c).cand := funext fun c => Cell.cand_eq_of_image (hi c)
    simp only [State.candCells, hq, State.octCells, h, Tab.mapAll, List.filter_map, List.map_map]
    simp [Function.comp_def, hp]

theorem mapOctCells {s : State} {n : Nat} {f : Cell → Cell} (hf : ∀ c, (f c).image = c.image) (hr : ∀ c, (f c).retired = c.retired) :
    CellsKept s (s.mapOctCells n f) := by
  refine mapAll (f := fun i c => if i / 512 = n then f c else c) rfl (fun i c => ?_) fun i c => ?_
  · split
    · exact hf c
    · rfl
  · split
    · exact hr c
    · rfl

/-! ### Through the reaction to a fault -/

/-- The codes whose source is a cell (Table 12-1). -/
abbrev IsCellCode (code : Nat) : Prop := (code / 0x100 = 0x15 ∧ code ≠ 0x1504) ∨ code = 0x2502 ∨ code = 0x2503

/-- A raise keeps the cells when the cell that it names as its source is there. -/
def Raises (again : Nat → Nat → List Byte → State → State) : Prop :=
  ∀ code src data s, (IsCellCode code → s.hasCell src) → CellsKept s (again code src data s)

theorem clearWindows (s : State) (n : Nat) : CellsKept s (s.mapOctCells n Cell.clearWindow) :=
  mapOctCells (fun c => by unfold Cell.clearWindow; split <;> rfl) fun c => by unfold Cell.clearWindow; split <;> rfl

theorem haltSelection (s : State) (n : Nat) : CellsKept s (s.haltSelection n) := by
  have hdiscard (u : State) : CellsKept u (u.discardWindow n) := by
    unfold State.discardWindow
    extract_lets v
    have hv : CellsKept u v := ite (of_cells rfl) (refl u)
    refine hv.trans ((clearWindows v n).trans ?_)
    exact of_cells rfl
  unfold State.haltSelection
  extract_lets u v w
  have h1 : CellsKept s u := mapOctCells (fun _ => rfl) fun _ => rfl
  have h2 : CellsKept v w := mapOctCells (fun _ => rfl) fun _ => rfl
  exact ((h1.trans (hdiscard u)).trans h2).trans (of_cells rfl)

theorem forceSafe (s : State) (p : Nat → Bool) : CellsKept s (s.forceSafe p) :=
  forNat (fun n u => by
    show CellsKept u (if _ then _ else _)
    exact ite (of_cells rfl) (refl u)) _ _

theorem modeLeave (s : State) (e : Nat) (r : Option Nat) : CellsKept s (s.modeLeave e r) := by
  unfold State.modeLeave
  split
  · exact ite (of_cells rfl) (refl s)
  · exact refl s

theorem settleDev (s : State) : CellsKept s s.settleDev := by
  unfold State.settleDev
  exact ite (of_cells rfl) (refl s)

theorem immediateBlock (s : State) (n : Nat) : CellsKept s (s.immediateBlock n) := by
  have h : CellsKept s (s.abortLanes n 0) := forNat (fun _ u => ite (of_cells (t := u.emit _) rfl) (refl u)) _ _
  exact h.trans (of_cells (State.updOct_cells ..))

theorem fenceOctad (s : State) (n : Nat) : CellsKept s (s.fenceOctad n) := by
  unfold State.fenceOctad
  refine ite (refl s) ?_
  dsimp only
  have h1 := (immediateBlock s n).trans (haltSelection _ n)
  generalize (s.immediateBlock n).haltSelection n = u at h1 ⊢
  exact (h1.trans (of_cells (t := u.updOct n fun o => { o with state := .fenced }) rfl)).trans
    ((modeLeave _ n none).trans ((forceSafe _ _).trans (settleDev _)))

theorem enqueue (s : State) (r : Report) : CellsKept s (s.enqueue r) := by
  unfold State.enqueue State.count State.countAt
  exact ite (of_cells rfl) (ite (of_cells rfl) (of_cells rfl))

theorem recordFault (s : State) (fn : Bool) (code : Nat) (cls : FClass) (r : Report) : CellsKept s (s.recordFault fn code cls r) := by
  unfold State.recordFault
  dsimp only
  generalize hu : (if fn = true then s.assertFaultN else s) = u
  have h : CellsKept s u := hu ▸ ite (of_cells rfl) (refl s)
  have hm : CellsKept u (u.mergeFallback code cls) := by
    unfold State.mergeFallback
    split
    · exact refl u
    · exact of_cells rfl
  exact ite (h.trans (enqueue u r)) (ite (h.trans hm) (h.trans (of_cells rfl)))

theorem recordConsequential (s : State) (w : Window) (r : Report) : CellsKept s (s.recordConsequential w r) :=
  (enqueue s r).trans (of_cells rfl)

theorem enterActive (s : State) (code src : Nat) (cls : FClass) (cb : Byte) (fn : Bool) (mask id : Nat) :
    CellsKept s (s.enterActive code src cls cb fn mask id).1 := by
  unfold State.enterActive
  dsimp only
  split
  · exact of_cells rfl
  · split <;> exact of_cells rfl

theorem laneToRetired (s : State) (l : Nat) : CellsKept s (s.laneToRetired l) := by
  have h : CellsKept s (s.abortEye l) := by
    unfold State.abortEye
    exact ite (of_cells rfl) (refl s)
  exact h.trans (of_cells rfl)

theorem retireMark {s : State} {c : Nat} (h : s.hasCell c) : CellsKept s (s.updCell c fun x => { x with retired := true }) :=
  updCell (fun _ => rfl) h

theorem losePathVia {again : Nat → Nat → List Byte → State → State} (ih : Raises again) (t code : Nat) (s : State) :
    CellsKept s (State.losePathVia again t code s) := by
  unfold State.losePathVia
  extract_lets cs
  refine ite (refl s) (ite (ih _ _ _ _ (fun h => absurd h (by decide))) (ite ?_ (refl s)))
  refine foldl (fun u c hc => ?_) fun c hc => (State.mem_octCells.mp (List.mem_of_mem_filter hc)).2
  have h := retireMark hc
  exact h.trans (ih _ _ _ _ fun _ => (h.has c).mpr hc)

theorem retireReaction {again : Nat → Nat → List Byte → State → State} (ih : Raises again) {code src : Nat} (id : Nat) {s : State}
    (hs : IsCellCode code → s.hasCell src) : CellsKept s (s.retireReaction again code src id) := by
  unfold State.retireReaction
  split
  · refine ite (refl s) ?_
    have h1 : CellsKept s (((s.laneToRetired src).windowDone (.lane src)).openWindow (.lane src) id code src (some s.now)) :=
      (laneToRetired s src).trans (of_cells rfl)
    have h2 := h1.trans (ite (c := code = 0x1703) (refl _) (ih 0x1703 src [] _ fun h => absurd h (by decide)))
    exact ite h2 (h2.trans (losePathVia ih _ _ _))
  · split
    · have hc := retireMark (hs ‹_›)
      refine ite (refl s) (ite (ite hc (hc.trans (ih _ _ _ _ fun _ => (hc.has src).mpr (hs ‹_›)))) (ih _ _ _ _ fun h => absurd h (by decide)))
    · exact ite (of_cells rfl) (ite (of_cells rfl) (refl s))

theorem fenceReaction (s : State) (cls : FClass) (mask code src id : Nat) : CellsKept s (s.fenceReaction cls mask code src id) :=
  forNat (fun n u => ite (ite (fenceOctad u n)
    ((fenceOctad u n).trans (of_cells (t := (u.fenceOctad n).openWindow (.fence n) id code src (some u.now)) rfl))) (refl u)) _ _

theorem lockoutReaction (s : State) (code src id : Nat) : CellsKept s (s.lockoutReaction code src id) := by
  unfold State.lockoutReaction
  extract_lets u
  have hu : CellsKept s u := of_cells rfl
  refine (hu.trans ?_).trans (forceSafe _ _)
  exact of_cells rfl

theorem react {again : Nat → Nat → List Byte → State → State} (ih : Raises again) (cls : FClass) (mask : Nat) {code src : Nat} (id : Nat)
    {s u : State} (hu : CellsKept s u) (hs : IsCellCode code → s.hasCell src) : CellsKept s (u.react again cls mask code src id) := by
  unfold State.react
  have h1 := hu.trans (retireReaction ih id fun h => (hu.has src).mpr (hs h))
  have h2 := h1.trans ((fenceReaction _ cls mask code src id).trans
    (of_cells (t := ((u.retireReaction again code src id).fenceReaction cls mask code src id).joinCauses mask) rfl))
  exact ite hu (ite h1 (ite h2 (h2.trans (lockoutReaction _ _ _ _))))

theorem tableFault {again : Nat → Nat → List Byte → State → State} (ih : Raises again) (cls : FClass) (fn : Bool) (cb : Byte)
    (mask code src id : Nat) (s : State) : CellsKept s (s.tableFault again cls fn cb mask code src id) := by
  unfold State.tableFault
  have h := enterActive s code src cls cb fn mask id
  exact ite (ite (h.trans (ih _ _ _ _ fun h => absurd h (by decide))) h) (refl s)

theorem raiseN (fuel : Nat) : ∀ (code src : Nat) (data : List Byte) (p : Option Nat) (s : State), (IsCellCode code → s.hasCell src) →
    CellsKept s (raiseN fuel code src data p s) := by
  induction fuel with
  | zero => intro code src data p s _; exact refl s
  | succ fuel ih =>
    intro code src data p s hs
    have hi : Raises fun c v d u => Machine.raiseN fuel c v d none u := fun c v d u hu => ih c v d none u hu
    have h0 : CellsKept s s.nextReport := of_cells rfl
    unfold Machine.raiseN
    dsimp only
    generalize s.nextReport = u at h0 ⊢
    split
    · exact h0.trans (recordConsequential _ _ _)
    · exact react hi _ _ _ (h0.trans ((recordFault _ _ _ _ _).trans (tableFault hi _ _ _ _ _ _ _ _))) hs

theorem raise {code src : Nat} (data : List Byte) {s : State} (hs : IsCellCode code → s.hasCell src) :
    CellsKept s (s.raise code src data) := raiseN 6 code src data none s hs

theorem raiseInfo (s : State) (code src : Nat) : CellsKept s (s.raiseInfo code src) := by
  have h0 : CellsKept s s.nextReport := of_cells rfl
  unfold State.raiseInfo
  dsimp only
  split
  · exact h0.trans (recordConsequential _ _ _)
  · exact h0.trans (recordFault _ _ _ _ _)

theorem losePath (s : State) (t code : Nat) : CellsKept s (s.losePath t code) := by
  unfold State.losePath
  exact ite (refl s) (losePathVia (fun _ _ _ _ h => raise _ h) t code s)

theorem retireCell {s : State} {c : Nat} (cause : Nat) (h : s.hasCell c) : CellsKept s (s.retireCell c cause) := by
  have hm := retireMark h
  unfold State.retireCell
  exact ite (refl s) (ite (hm.trans (raise _ fun _ => (hm.has c).mpr h)) (raise _ fun h => absurd h (by decide)))

end CellsKept

/-! ### What the latch has put into an octad and its engine -/

/-- An octad with what its latches form and what they go by only. -/
def Octad.view (o : Octad) : Octad :=
  { Octad.init with toLatch := o.toLatch, iLed := o.iLed, iLedPrev := o.iLedPrev, iCode := o.iCode, iPrev := o.iPrev, sign := o.sign,
                    fresh := o.fresh, selIn := o.selIn, selIsign := o.selIsign, halted := o.halted, vbar := o.vbar, tl := o.tl }

/-- An engine with its graph and the start of its sample only. -/
def Engine.view (e : Engine) : Engine :=
  { Engine.init with graph := e.graph, loading := e.loading, running := e.running, sampleFrame := e.sampleFrame, sampleTick := e.sampleTick }

/-- What stands between one part of the latch and the next: latches of cells, octads and engines stay. -/
structure LatchFrame (s t : State) : Prop extends CellsKept s t where
  oct : ∀ n, (t.oct n).view = (s.oct n).view
  eng : ∀ e, (t.eng e).view = (s.eng e).view

/-- The families that a latch is made of. -/
def State.armPart (s : State) : Tab Cell × Tab Octad × Tab Engine := (s.cells, s.octs, s.engs)

theorem RaiseFrame.raiseInfo (s : State) (code src : Nat) : RaiseFrame s (s.raiseInfo code src) := by
  have h0 : RaiseFrame s s.nextReport := setFlt s _
  unfold State.raiseInfo
  dsimp only
  split
  · exact h0.trans (recordConsequential _ _ _)
  · exact h0.trans (recordFault _ _ _ _ _)

namespace LatchFrame

theorem same {s t : State} (h : t.armPart = s.armPart) : LatchFrame s t := by
  obtain ⟨hc, hoe⟩ := Prod.mk.inj h
  obtain ⟨ho, he⟩ := Prod.mk.inj hoe
  exact ⟨.of_cells hc, fun n => by rw [State.oct, State.oct, ho], fun e => by rw [State.eng, State.eng, he]⟩

theorem refl (s : State) : LatchFrame s s := same rfl

theorem trans {s t u : State} (h : LatchFrame s t) (k : LatchFrame t u) : LatchFrame s u :=
  ⟨h.toCellsKept.trans k.toCellsKept, fun n => (k.oct n).trans (h.oct n), fun e => (k.eng e).trans (h.eng e)⟩

theorem ite {s a b : State} {c : Prop} [Decidable c] (ha : LatchFrame s a) (hb : LatchFrame s b) :
    LatchFrame s (if c then a else b) := by split <;> assumption

theorem forNat {f : Nat → State → State} (h : ∀ i s, LatchFrame s (f i s)) (n : Nat) (s : State) : LatchFrame s (forNat n f s) :=
  forNat_induct (P := LatchFrame s) (fun i u hu => hu.trans (h i u)) n (refl s)

theorem foldl {α : Type} {f : State → α → State} (h : ∀ u a, LatchFrame u (f u a)) (l : List α) (s : State) :
    LatchFrame s (l.foldl f s) := by
  induction l generalizing s with
  | nil => exact refl s
  | cons a r ih => exact (h s a).trans (ih _)

/-- A step on each of some populated cells. -/
theorem foldlCells {f : State → Nat → State} (h : ∀ u c, u.hasCell c → LatchFrame u (f u c)) {l : List Nat} {s : State}
    (hl : ∀ c ∈ l, s.hasCell c) : LatchFrame s (l.foldl f s) := by
  induction l generalizing s with
  | nil => exact refl s
  | cons a r ih =>
    have ha := h s a (hl a (.head _))
    exact ha.trans (ih fun c hc => (ha.has c).mpr (hl c (.tail _ hc)))

theorem updCell {s : State} {k : Nat} {f : Cell → Cell} (hf : ∀ c, (f c).image = c.image) (hk : s.hasCell k) :
    LatchFrame s (s.updCell k f) := ⟨.updCell hf hk, fun _ => rfl, fun _ => rfl⟩

theorem mapOctCells {s : State} {n : Nat} {f : Cell → Cell} (hf : ∀ c, (f c).image = c.image) (hr : ∀ c, (f c).retired = c.retired) :
    LatchFrame s (s.mapOctCells n f) := ⟨.mapOctCells hf hr, fun _ => rfl, fun _ => rfl⟩

theorem updOct {s : State} {n : Nat} {f : Octad → Octad} (h : ∀ o, (f o).view = o.view) : LatchFrame s (s.updOct n f) :=
  ⟨.of_cells rfl, fun m => by
    simp only [State.oct, State.updOct, Tab.get_upd]
    split
    · rename_i e; subst e; exact h _
    · rfl, fun _ => rfl⟩

theorem updEng {s : State} {n : Nat} {f : Engine → Engine} (h : ∀ x, (f x).view = x.view) : LatchFrame s (s.updEng n f) :=
  ⟨.of_cells rfl, fun _ => rfl, fun m => by
    simp only [State.eng, State.updEng, Tab.get_upd]
    split
    · rename_i e; subst e; exact h _
    · rfl⟩

theorem of_raise {s t : State} (h : RaiseFrame s t) (k : CellsKept s t) : LatchFrame s t :=
  ⟨k, fun n => (congrArg Octad.view (h.oct n) : (t.oct n).core.view = (s.oct n).core.view),
    fun e => (congrArg Engine.view (h.eng e) : ({ t.eng e with armed := none } : Engine).view = ({ s.eng e with armed := none } : Engine).view)⟩

theorem raise {code src : Nat} (data : List Byte) {s : State} (hs : CellsKept.IsCellCode code → s.hasCell src) :
    LatchFrame s (s.raise code src data) := of_raise (s.raise_frame ..) (.raise data hs)

theorem retireCell {s : State} {c : Nat} (cause : Nat) (h : s.hasCell c) : LatchFrame s (s.retireCell c cause) :=
  of_raise (s.retireCell_frame ..) (.retireCell cause h)

theorem losePath (s : State) (t code : Nat) : LatchFrame s (s.losePath t code) := of_raise (s.losePath_frame ..) (.losePath ..)

theorem ringsOnly {s t : State} (h : RingsOnly s t) : LatchFrame s t := same (by rw [State.armPart, h.cells, h.octs, h.engs]; rfl)

theorem setFld (s : State) (a lo len v : Nat) : LatchFrame s (s.setFld a lo len v) := same rfl
theorem flag (s : State) (a i : Nat) : LatchFrame s (s.flag a i) := same rfl
theorem emit (s : State) (o : Output) : LatchFrame s (s.emit o) := same rfl
theorem updLane (s : State) (l : Nat) (f : Lane → Lane) : LatchFrame s (s.updLane l f) := same rfl
theorem setTiles (s : State) (x : Tab Tile) : LatchFrame s { s with tiles := x } := same rfl

theorem countAt (s : State) (a lo len sat n : Nat) : LatchFrame s (s.countAt a lo len sat n) := by
  unfold State.countAt
  exact ite (setFld ..) ((setFld ..).trans (setFld ..))

theorem count (s : State) (a n : Nat) : LatchFrame s (s.count a n) := countAt ..

/-! ### The feedback of the hubs (R43), which may start a retrain -/

theorem abortEye (s : State) (l : Nat) : LatchFrame s (s.abortEye l) := by
  unfold State.abortEye
  exact ite ((updLane ..).trans (flag ..)) (refl s)

theorem huntLane (s : State) (l : Nat) (p : Proc) : LatchFrame s (s.huntLane l p) :=
  ((abortEye s l).trans (updLane ..)).trans (setFld ..)

theorem startStep (s : State) (l target : Nat) (p : Proc) : LatchFrame s (s.startStep l target p) :=
  ((abortEye s l).trans (updLane ..)).trans (emit ..)

theorem laneWindow (s : State) (l opener src : Nat) : LatchFrame s (s.laneWindow l opener src) := by
  unfold State.laneWindow
  exact ite (refl s) (same rfl)

theorem toActive (s : State) (l : Nat) : LatchFrame s (s.toActive l) := same rfl

theorem speedStep (s : State) (t : Nat) : LatchFrame s (s.speedStep t) := by
  unfold State.speedStep
  exact ite ((updLane ..).trans (startStep ..)) (refl s)

theorem checkTakeover (s : State) (t : Nat) : LatchFrame s (s.checkTakeover t) := by
  unfold State.checkTakeover
  refine ite (refl s) ?_
  dsimp only
  split
  · refine ite ?_ ((laneWindow ..).trans (startStep ..))
    exact (((laneWindow ..).trans (toActive ..)).trans (updLane ..)).trans (speedStep ..)
  · exact (laneWindow ..).trans (updLane ..)
  · exact refl s

theorem endEnum (s : State) (l : Nat) (st : Status) (n : Nat) : LatchFrame s (s.endEnum l st n) := by
  have hf (u : State) : LatchFrame u (u.finishWaiting (.enumerate l) st n) := by
    unfold State.finishWaiting
    extract_lets done hif v
    have hv : LatchFrame u v := same rfl
    exact hv.trans (foldl (fun _ _ => ringsOnly (.complete ..)) done v)
  exact (updLane ..).trans (hf _)

theorem retireLane (s : State) {code : Nat} (hc : ¬CellsKept.IsCellCode code) (l : Nat) : LatchFrame s (s.retireLane l code) := by
  unfold State.retireLane
  exact ite (refl s) (raise _ fun h => absurd h hc)

theorem dropLane (s : State) {code : Nat} (hc : ¬CellsKept.IsCellCode code) (l : Nat) : LatchFrame s (s.dropLane l code) :=
  (((abortEye ..).trans (retireLane _ hc l)).trans (endEnum ..)).trans (checkTakeover ..)

theorem startRetrain (s : State) (l : Nat) : LatchFrame s (s.startRetrain l) := by
  unfold State.startRetrain
  extract_lets id had counted u v w x
  have hu : LatchFrame s u := (countAt ..).trans (updLane ..)
  have hv : LatchFrame u v := (raise [] fun h => absurd h (by decide)).trans (laneWindow ..)
  have hw : LatchFrame v w := ((abortEye ..).trans (huntLane ..)).trans (updLane ..)
  have hx : LatchFrame w x := checkTakeover ..
  have h := ((hu.trans hv).trans hw).trans hx
  exact ite (h.trans (losePath ..)) h

theorem trigger (s : State) (l : Nat) : LatchFrame s (s.trigger l) := by
  have h : LatchFrame s (s.dropLane l 0x1703) := dropLane s (by decide) l
  unfold State.trigger
  exact ite (refl s) (ite (ite h (h.trans (startRetrain ..))) (startRetrain ..))

theorem missedFeedback (s : State) (t : Nat) : LatchFrame s (s.missedFeedback t) := by
  unfold State.missedFeedback
  split
  · exact refl s
  · exact ite ((setTiles ..).trans (trigger ..)) (setTiles ..)

theorem hubFeedback (s : State) (n : Nat) : LatchFrame s (s.hubFeedback n) := by
  refine forNat (fun i u => ?_) _ _
  dsimp only
  refine trans ?_ (setTiles ..)
  exact ite (refl u) (ite (setTiles ..) (missedFeedback ..))

/-! ### The ledger (R89 to R96, R101, R103) -/

theorem capture (s : State) (ring kind : Nat) (record : List Byte) : LatchFrame s (s.capture ring kind record).1 := by
  unfold State.capture
  extract_lets r u n
  have hu : LatchFrame s u := foldl (fun v o => emit v o) (s.slotWrites r (captureImage kind record s.tick.toNat)) s
  clear_value u
  split
  · exact hu.trans (same rfl)
  · exact refl s

theorem writeSnapshot (s : State) (n : Nat) : LatchFrame s (s.writeSnapshot n) := by
  unfold State.writeSnapshot
  dsimp only
  refine (updOct (n := n) (f := fun o => { o with snapReq := false }) fun _ => rfl).trans (foldl (fun u c => ?_) _ _)
  exact ite (capture ..) (count ..)

theorem requestSnapshot (s : State) (n : Nat) : LatchFrame s (s.requestSnapshot n) := by
  unfold State.requestSnapshot
  exact ite (updOct fun _ => rfl) (writeSnapshot ..)

theorem overtakeSnapshot (s : State) (n : Nat) : LatchFrame s (s.overtakeSnapshot n) := by
  unfold State.overtakeSnapshot
  exact ite (count ..) (refl s)

theorem healthCheck {s : State} (n : Nat) {c : Nat} (hc : s.hasCell c) : LatchFrame s (s.healthCheck n c) := by
  have hraise {u v : State} (b : Bool) (code : Nat) (h : LatchFrame u v) (hu : u.hasCell c) :
      LatchFrame u (if b = true then v.raise code c [] else v) :=
    ite (h.trans (raise [] fun _ => (h.has c).mpr hu)) h
  unfold State.healthCheck
  dsimp only
  split
  · exact refl s
  · exact ite (refl s) (hraise _ _ (hraise _ _ (hraise _ _ (hraise _ _ (updCell (fun _ => rfl) hc) hc) hc) hc) hc)

theorem ledgerArithmetic (s : State) (n : Nat) : LatchFrame s (s.ledgerArithmetic n) := by
  unfold State.ledgerArithmetic
  extract_lets u seq v
  have ho : LatchFrame s (s.updOct n fun o => { o with arithPending := false }) := updOct fun _ => rfl
  have hu : LatchFrame s u := ho.trans (overtakeSnapshot ..)
  have hv : LatchFrame u v := foldlCells (fun w c hc => by
    refine ite (refl w) ?_
    extract_lets valid x
    have hx : LatchFrame w x := updCell (fun _ => rfl) hc
    exact ite (hx.trans (healthCheck n ((hx.has c).mpr hc))) hx) fun c hc => (State.mem_octCells.mp hc).2
  exact ite ((hu.trans hv).trans (requestSnapshot ..)) (hu.trans hv)

theorem formEnergy (s : State) (n : Nat) : LatchFrame s (s.formEnergy n) := by
  unfold State.formEnergy
  extract_lets cs m es u sum hi lo
  have hu : LatchFrame s u := ite (flag ..) (refl s)
  exact hu.trans (updOct fun _ => rfl)

theorem startWindow (s : State) (n : Nat) : LatchFrame s (s.startWindow n) := by
  have h : LatchFrame s (s.mapOctCells n Cell.clearWindow) := ⟨.clearWindows s n, fun _ => rfl, fun _ => rfl⟩
  exact h.trans (updOct fun _ => rfl)

theorem ledgerWindowEnd (s : State) (n : Nat) : LatchFrame s (s.ledgerWindowEnd n) := by
  unfold State.ledgerWindowEnd
  refine ite (refl s) ?_
  extract_lets vf ifl u a v
  have hu : LatchFrame s u := mapOctCells (fun c => by dsimp only; split <;> rfl) fun c => by dsimp only; split <;> rfl
  have hv : LatchFrame u v := same rfl
  refine (hu.trans hv).trans ?_
  exact updOct fun _ => rfl

theorem ledgerEndTc (s : State) (n : Nat) : LatchFrame s (s.ledgerEndTc n) := by
  unfold State.ledgerEndTc
  refine ite (mapOctCells (fun c => ?_) fun c => ?_) (refl s)
  · split <;> rfl
  · split <;> rfl

end LatchFrame
theorem Engine.loaded_eq_of_view {x y : Engine} (h : x.view = y.view) : x.loaded = y.loaded :=
  (congrArg Engine.loaded h : x.view.loaded = y.view.loaded)

theorem Engine.graph_eq_of_view {x y : Engine} (h : x.view = y.view) : x.graph = y.graph :=
  (congrArg Engine.graph h : x.view.graph = y.view.graph)

theorem Octad.tl_eq_of_view {o p : Octad} (h : o.view = p.view) : o.tl = p.tl := (congrArg Octad.tl h : o.view.tl = p.view.tl)
theorem Octad.halted_eq_of_view {o p : Octad} (h : o.view = p.view) : o.halted = p.halted :=
  (congrArg Octad.halted h : o.view.halted = p.view.halted)

theorem State.oct_updOct_same (s : State) (n : Nat) (f : Octad → Octad) : (s.updOct n f).oct n = f (s.oct n) :=
  Tab.get_upd_same ..

theorem State.eng_updEng_same (s : State) (e : Nat) (f : Engine → Engine) : (s.updEng e f).eng e = f (s.eng e) :=
  Tab.get_upd_same ..

/-! ### Before the latch (R79, R43) -/

/-- What the latch takes its values from: the cells' feedback, the slots populated, octads and engines. -/
structure InputsKept (s t : State) : Prop where
  image : ∀ c, (t.cell c).image = (s.cell c).image
  has : ∀ c, s.hasCell c → t.hasCell c
  oct : ∀ n, (t.oct n).view = (s.oct n).view
  eng : ∀ e, (t.eng e).view = (s.eng e).view

namespace InputsKept

theorem refl (s : State) : InputsKept s s := ⟨fun _ => rfl, fun _ h => h, fun _ => rfl, fun _ => rfl⟩

theorem trans {s t u : State} (h : InputsKept s t) (k : InputsKept t u) : InputsKept s u :=
  ⟨fun c => (k.image c).trans (h.image c), fun c hc => k.has c (h.has c hc), fun n => (k.oct n).trans (h.oct n),
    fun e => (k.eng e).trans (h.eng e)⟩

theorem of_latchFrame {s t : State} (h : LatchFrame s t) : InputsKept s t := ⟨h.image, fun c => (h.has c).mpr, h.oct, h.eng⟩

theorem addTc (s : State) (c k : Nat) : InputsKept s (s.updCell c fun x => x.addTc k) := by
  refine ⟨fun d => ?_, fun d hd => ?_, fun _ => rfl, fun _ => rfl⟩
  · simp only [State.cell, State.updCell, Tab.get_upd]
    split
    · rename_i e; subst e; rfl
    · rfl
  · exact Tab.exists_mem_put (P := fun x : Cell => x.populated = true) s.cells.dflt (v := (s.cell c).addTc k) Iff.rfl hd

theorem addTcs (l : List Nat) (k : Nat) (s : State) : InputsKept s (l.foldl (fun s c => s.updCell c fun x => x.addTc k) s) := by
  induction l generalizing s with
  | nil => exact refl s
  | cons c r ih => exact (addTc s c k).trans (ih _)

theorem earlyTc (s : State) (n tick : Nat) : InputsKept s (s.earlyTc n tick) := by
  have hcommit : InputsKept s (s.commitTc n) := by
    unfold State.commitTc
    extract_lets p one two u
    exact ((addTcs one 1 s).trans (addTcs two 2 u)).trans (of_latchFrame (LatchFrame.updOct fun _ => rfl))
  unfold State.earlyTc
  dsimp only
  split
  · exact hcommit
  · exact refl s

end InputsKept

/-! ### The latch of the cells' feedback (Table 2-1, R43, R59) -/

/-- Every cell of an octad at its latch. -/
def State.latchCells (s : State) (n : Nat) : State :=
  { s with cells := s.cells.mapAll fun i c => if i / 512 = n then c.latch (s.hasPath (i / 64)) else c }

@[simp] theorem State.latchCells_oct (s : State) (n m : Nat) : (s.latchCells n).oct m = s.oct m := rfl
@[simp] theorem State.latchCells_eng (s : State) (n e : Nat) : (s.latchCells n).eng e = s.eng e := rfl

theorem State.latchCells_cell {s : State} {c : Nat} (h : s.hasCell c) :
    (s.latchCells (c / 512)).cell c = (s.cell c).latch (s.hasPath (c / 64)) := by
  obtain ⟨x, hx, -⟩ := h
  exact (Tab.look_map_of_mem (f := fun i d => if i / 512 = c / 512 then d.latch (s.hasPath (i / 64)) else d) ⟨x, hx⟩).trans (if_pos rfl)

theorem State.latchCells_cell_ne {s : State} {n c : Nat} (h : c / 512 ≠ n) : (s.latchCells n).cell c = s.cell c :=
  (Tab.get_mapAll s.cells (fun i d => if i / 512 = n then d.latch (s.hasPath (i / 64)) else d) c (if_neg h)).trans (if_neg h)

theorem State.latchCells_hasCell {s : State} {n c : Nat} : (s.latchCells n).hasCell c ↔ s.hasCell c := by
  have hp : ∀ (i : Nat) (x : Cell), (if i / 512 = n then x.latch (s.hasPath (i / 64)) else x).populated = x.populated := fun i x => by
    split <;> rfl
  simp [State.latchCells, State.hasCell, Tab.mapAll, hp]

/-- A cell's turn at the retry budget gives it its place, unless it has one. -/
def State.settles (s : State) (c : Nat) : Prop := s.placed c ∨ ((s.cell c).retired = false ∧ (s.cell c).populated = true)

theorem CellsKept.settles {s t : State} (h : CellsKept s t) {c : Nat} (hc : s.settles c) : t.settles c := by
  rcases hc with hc | ⟨hr, hp⟩
  · exact .inl (h.placed c hc)
  · rcases h.retired c with e | e
    · exact .inr ⟨e.trans hr, (Cell.populated_eq_of_image (h.image c)).trans hp⟩
    · exact .inl e

/-- A candidate is populated and not retired (R59). -/
theorem State.latchCells_settles {s : State} {n c : Nat} (h : c ∈ (s.latchCells n).candCells n) : (s.latchCells n).settles c := by
  obtain ⟨⟨rfl, hc⟩, hcand⟩ := State.mem_candCells.mp h
  rw [State.latchCells_cell (State.latchCells_hasCell.mp hc)] at hcand
  simp only [Cell.latch, Cell.isCand, Bool.and_eq_true, Bool.not_eq_true'] at hcand
  obtain ⟨⟨⟨hp, hr⟩, -⟩, -⟩ := hcand
  refine .inr ?_
  rw [State.latchCells_cell (State.latchCells_hasCell.mp hc)]
  exact ⟨hr, hp⟩

/-! ### The retry budget (R387) -/

theorem State.cellBudget_cases {s : State} {c : Nat} (h : s.hasCell c) :
    (s.cellBudget c = s ∧ ¬((s.cell c).retired = false ∧ (s.cell c).populated = true))
      ∨ ∃ f : Cell → Cell, (∀ x, (f x).image = x.image) ∧ LatchFrame (s.updCell c f) (s.cellBudget c) := by
  unfold State.cellBudget
  extract_lets x hit first covered win occ run out u v
  by_cases hx : (x.retired || !x.populated) = true
  · refine .inl ⟨if_pos hx, ?_⟩
    rintro ⟨hr, hp⟩
    simp [x, hr, hp] at hx
  · refine .inr ⟨fun x => { x with sawFault := x.fault != 0, occ := if out then [] else occ, persist := if out then 0 else run },
      fun _ => rfl, ?_⟩
    rw [if_neg hx]
    have hsu : LatchFrame s u := .updCell (fun _ => rfl) h
    have hu : u.hasCell c := (hsu.has c).mpr h
    have hv : LatchFrame u v := .ite (.raise _ fun _ => hu) (.refl u)
    exact .ite (hv.trans (.retireCell _ ((hv.has c).mpr hu))) hv

namespace LatchFrame

theorem cellBudget {s : State} {c : Nat} (h : s.hasCell c) : LatchFrame s (s.cellBudget c) := by
  rcases State.cellBudget_cases h with ⟨e, -⟩ | ⟨f, hf, hk⟩
  · rw [e]; exact refl s
  · exact (updCell hf h).trans hk

theorem cellBudgets {l : List Nat} {s : State} (hl : ∀ c ∈ l, s.hasCell c) : LatchFrame s (l.foldl (fun s c => s.cellBudget c) s) :=
  foldlCells (fun _ _ => cellBudget) hl

end LatchFrame

theorem State.cellBudget_placed {s : State} {c : Nat} (h : s.hasCell c) (hs : s.settles c) : (s.cellBudget c).placed c := by
  rcases State.cellBudget_cases h with ⟨e, hx⟩ | ⟨f, -, hk⟩
  · rw [e]; exact hs.resolve_right hx
  · exact hk.placed c (Tab.placed_put_same ..)

/-- Every cell that can have its place has it after the retry budgets of all. -/
theorem State.cellBudgets_placed {l : List Nat} {s : State} (hl : ∀ c ∈ l, s.hasCell c) {c : Nat} (hc : c ∈ l) (hs : s.settles c) :
    (l.foldl (fun s c => s.cellBudget c) s).placed c := by
  induction l generalizing s with
  | nil => cases hc
  | cons a r ih =>
    have ha := LatchFrame.cellBudget (hl a (.head _))
    have hr : ∀ c ∈ r, (s.cellBudget a).hasCell c := fun c hc => (ha.has c).mpr (hl c (.tail _ hc))
    rcases List.mem_cons.mp hc with rfl | hc
    · exact (LatchFrame.cellBudgets hr).placed c (State.cellBudget_placed (hl c (.head _)) hs)
    · exact ih hr hc (ha.settles hs)

/-! ### The start of the engine's sample (R215, R224, R235, R246) -/

/-- A sample start on its way: cells and octads stand, the engine runs the graph that was loaded. -/
structure SampleBegins (e : Nat) (s t : State) : Prop where
  cells : t.cells = s.cells
  octs : t.octs = s.octs
  graph : (t.eng e).graph = (s.eng e).loaded

namespace SampleBegins

theorem updEng {e : Nat} {s t : State} (h : SampleBegins e s t) {f : Engine → Engine} (hf : ∀ x, (f x).graph = x.graph) :
    SampleBegins e s (t.updEng e f) :=
  ⟨h.cells, h.octs, by rw [State.eng_updEng_same, hf, h.graph]⟩

theorem setReg {e : Nat} {s t : State} (h : SampleBegins e s t) (a : Nat) (w : Word) : SampleBegins e s (t.setReg a w) :=
  ⟨h.cells, h.octs, h.graph⟩

theorem setRegs {e : Nat} {s t : State} (h : SampleBegins e s t) (a : Nat → Nat) (w : Word) (k : Nat) :
    SampleBegins e s (forNat k (fun i u => u.setReg (a i) w) t) :=
  forNat_induct (fun _ _ hu => hu.setReg ..) k h

theorem setProfiles {e : Nat} {s t : State} (h : SampleBegins e s t) (p : Tab Profile) (q : Tab (List SetPoint)) :
    SampleBegins e s { t with profs := p, setQ := q } := ⟨h.cells, h.octs, h.graph⟩

theorem installGraph {s : State} {e : Nat} {g : Graph} (h : (s.eng e).loaded = some g) : SampleBegins e s (s.installGraph e g) := by
  have hu (f : Engine → Engine) (hf : ∀ x, (f x).graph = some g) : SampleBegins e s (s.updEng e f) :=
    ⟨rfl, rfl, by rw [State.eng_updEng_same, hf, h]⟩
  unfold State.installGraph
  dsimp only
  have hw (f : Engine → Engine) (hf : ∀ x, (f x).graph = some g) :=
    (((hu f hf).setRegs (fun i => engBase e + 0x100 + 4 * i) 0 32).setReg (engBase e + 0x38) 0).setReg (engBase e + 0x3C) 0
  split
  · exact setProfiles (hw _ fun _ => rfl) ..
  · exact hw _ fun _ => rfl

theorem sampleSettings (s : State) (e : Nat) (frame : Word) : SampleBegins e s (s.sampleSettings e frame) := by
  unfold State.sampleSettings
  extract_lets u v w
  have hu : SampleBegins e s u := by
    dsimp only [u]
    split
    · rename_i g hg
      exact installGraph (by simp [Engine.loaded, hg])
    · rename_i hg
      exact ⟨rfl, rfl, by simp [Engine.loaded, hg]⟩
  have hv : SampleBegins e s v := by
    dsimp only [v]
    split
    · exact hu.updEng fun _ => rfl
    · exact hu
  have hw : SampleBegins e s w := hv.updEng fun _ => rfl
  split
  · split
    · exact hw.updEng fun _ => rfl
    · exact hw
  · exact hw

end SampleBegins

namespace LatchFrame

theorem setPointUnderrun (s : State) (n : Nat) : LatchFrame s (s.setPointUnderrun n) := by
  have h : LatchFrame s (s.updOct n fun o => { o with underrun := o.underrun.add 32 1 }) := updOct fun _ => rfl
  exact h.trans (of_raise (.raiseInfo ..) (.raiseInfo ..))

theorem latchMbox (s : State) (e c : Nat) (f : Word × Nat) (tick : Nat) (x : GChan) : LatchFrame s (s.latchMbox e c f tick x) := by
  have hcode (k : Nat) (hk : k = 4 ∨ k = 5) : ¬CellsKept.IsCellCode ((if e = 8 then 0x3200 else 0x2200) + k) := by
    rcases hk with rfl | rfl <;> split <;> decide
  unfold State.latchMbox
  extract_lets u m stale twice v lvl w
  have hu : LatchFrame s u := by
    dsimp only [u]
    split
    · exact updEng fun _ => rfl
    · exact ite (setPointUnderrun ..) (refl s)
  have hv : LatchFrame u v := updEng fun _ => rfl
  have hw : LatchFrame v w := ite (raise _ fun h => absurd h (hcode 4 (.inl rfl))) (refl v)
  have h := (hu.trans hv).trans hw
  exact ite (h.trans (raise _ fun h => absurd h (hcode 5 (.inr rfl)))) h

theorem injSample (s : State) (e : Nat) (frame : Word) : LatchFrame s (s.injSample e frame) := by
  have hcode : ¬CellsKept.IsCellCode (if e = 8 then 0x3206 else 0x2206) := by split <;> decide
  unfold State.injSample
  refine trans (forNat (fun g u => ?_) 4 s) (updEng fun _ => rfl)
  extract_lets r v
  have hv : LatchFrame u v := updEng fun _ => rfl
  exact ite (hv.trans ((flag ..).trans (raise _ fun h => absurd h hcode))) hv

end LatchFrame

/-- What the start of a sample leaves and brings about: cells' latches and octads stay; an engine with a graph runs a sample of the frame. -/
theorem State.startSample_spec (s : State) (e : Nat) (f : Word × Nat) (tick : Nat) :
    CellsKept s (s.startSample e f tick) ∧ (∀ n, ((s.startSample e f tick).oct n).view = (s.oct n).view)
      ∧ ((s.eng e).loaded.isSome = true → ((s.startSample e f tick).eng e).running = true
          ∧ ((s.startSample e f tick).eng e).sampleFrame = f.1 ∧ ((s.startSample e f tick).eng e).sampleTick = tick) := by
  unfold State.startSample
  by_cases hl : (s.eng e).loaded.isNone = true
  · rw [if_pos hl]
    exact ⟨.refl s, fun _ => rfl, fun h => by simp_all⟩
  · rw [if_neg hl]
    extract_lets u v
    have hu : (u.eng e).loaded = (s.eng e).loaded := by simp only [u, State.eng_updEng_same]; rfl
    have hset := SampleBegins.sampleSettings u e f.1
    have hinj : LatchFrame (u.sampleSettings e f.1) v := .injSample ..
    have hcells : CellsKept s v := (CellsKept.of_cells (s := s) hset.cells).trans hinj.toCellsKept
    have hoct : ∀ n, (v.oct n).view = (s.oct n).view := fun n => (hinj.oct n).trans (by rw [State.oct, hset.octs]; rfl)
    have hgraph : (v.eng e).graph = (s.eng e).loaded :=
      (Engine.graph_eq_of_view (hinj.eng e)).trans (hset.graph.trans hu)
    split
    · rename_i hg
      rw [← hgraph, hg] at hl
      exact absurd rfl hl
    · rename_i g hg
      extract_lets w
      have hw : LatchFrame v w := .forNat (fun c x => by
        split
        · exact .ite (.latchMbox ..) (.refl x)
        · exact .refl x) 64 v
      refine ⟨(hcells.trans hw.toCellsKept).trans (.of_cells rfl), fun n => (hw.oct n).trans (hoct n), fun _ => ?_⟩
      rw [State.eng_updEng_same]
      exact ⟨rfl, rfl, rfl⟩

/-! ### Current, sign and mean (R58, R64, R67), and the ledger's currents (R90, R91) -/

/-- An octad at the latch of the current i with the mean vbar of its candidates. -/
def Octad.signStep (o : Octad) (i : Int) (vbar : Nat) : Octad :=
  let fresh := o.fresh && o.selIn == 0
  { o with
    fresh := o.fresh && !fresh, iPrev := o.iCode, iCode := i, vbar := vbar,
    sign := nextSign (if fresh then .zero else o.sign) i (if fresh then 0 else o.iCode) o.iDb o.iHys }

/-- An octad at the ledger's part of the latch. -/
def Octad.ledgerStep (o : Octad) : Octad := { o with iLedPrev := o.iLed, iLed := if o.halted then 0 else o.iCode }

theorem Octad.signStep_view {o p : Octad} (h : o.view = p.view) (i : Int) (vbar : Nat) : (o.signStep i vbar).view = (p.signStep i vbar).view :=
  (congrArg (fun q : Octad => (q.signStep i vbar).view) h : (o.view.signStep i vbar).view = (p.view.signStep i vbar).view)

theorem Octad.ledgerStep_view {o p : Octad} (h : o.view = p.view) : o.ledgerStep.view = p.ledgerStep.view :=
  (congrArg (fun q : Octad => q.ledgerStep.view) h : o.view.ledgerStep.view = p.view.ledgerStep.view)

/-- The mean of R64 of an octad. -/
def State.meanOf (s : State) (n : Nat) : Nat :=
  meanCode ((s.candCells n).foldl (fun a c => a + (s.cell c).v) 0) (s.candCells n).length

/-- Once every candidate has its place, the mean stays. -/
theorem State.meanOf_kept {s t : State} (h : CellsKept s t) {n : Nat} (hp : ∀ c ∈ s.candCells n, s.placed c) :
    t.meanOf n = s.meanOf n := by
  have hv : ∀ c, (t.cell c).v = (s.cell c).v := fun c => Cell.v_eq_of_image (h.image c)
  simp only [State.meanOf, h.cands n hp, hv]

theorem State.octLatch_view (s : State) (n : Nat) :
    ((s.octLatch n).oct n).view = ((s.oct n).signStep (s.armCurrent n) (s.meanOf n)).view := by
  unfold State.octLatch
  dsimp only
  rw [State.mapOctCells_oct, State.oct_updOct_same]
  rfl

theorem State.octLatch_cells (s : State) (n : Nat) : CellsKept s (s.octLatch n) := by
  unfold State.octLatch
  extract_lets i cs vbar u o
  have hu : CellsKept s u := .of_cells rfl
  exact hu.trans (.mapOctCells (fun _ => rfl) fun _ => rfl)

theorem Cell.ledgerLatch_image (c : Cell) (start stop : Nat) (i1 i2 : Int) (imin : Nat) (counts undisturbed : Bool) :
    (c.ledgerLatch start stop i1 i2 imin counts undisturbed).image = c.image
      ∧ (c.ledgerLatch start stop i1 i2 imin counts undisturbed).retired = c.retired := by
  unfold Cell.ledgerLatch
  extract_lets tau adv q d rest dv
  have hd : d.image = c.image ∧ d.retired = c.retired := ⟨rfl, rfl⟩
  split
  · exact hd
  · split
    · exact hd
    · split
      · exact hd
      · exact hd

theorem State.ledgerLatch_spec (s : State) (n : Nat) :
    CellsKept s (s.ledgerLatch n) ∧ ((s.ledgerLatch n).oct n).view = (s.oct n).ledgerStep.view
      ∧ ∀ e, ((s.ledgerLatch n).eng e).view = (s.eng e).view := by
  unfold State.ledgerLatch
  extract_lets u o counted v w p x y
  have hv : LatchFrame s v := by
    have hu : LatchFrame s u := (LatchFrame.ledgerWindowEnd s n).trans (.ledgerEndTc ..)
    exact .ite (hu.trans (.startWindow ..)) hu
  have hw : (w.oct n).view = (s.oct n).ledgerStep.view := by
    rw [State.oct_updOct_same]
    exact Octad.ledgerStep_view (hv.oct n)
  have hx : LatchFrame w x := by
    dsimp only [x]
    split
    · exact .mapOctCells (fun _ => (Cell.ledgerLatch_image ..).1) fun _ => (Cell.ledgerLatch_image ..).2
    · exact .refl w
  have hvw : CellsKept v w := .of_cells rfl
  have hy : LatchFrame w (y.formEnergy n) := (hx.trans (.ite (.ledgerArithmetic ..) (.refl x))).trans (.formEnergy ..)
  exact ⟨(hv.toCellsKept.trans hvw).trans hy.toCellsKept, (hy.oct n).trans hw, fun e => (hy.eng e).trans (hv.eng e)⟩

/-! ### The whole latch (R64, R67, R89, R215) -/

/-- The octad's part of the latch: in debug halt no sample starts, and no current is latched (R137, R138). -/
def State.armLatch (s : State) (n : Nat) (f : Word × Nat) (tick : Nat) : State :=
  if (s.oct n).halted then s
  else ((s.startSample n f tick).updOct n fun o => { o with statN := o.nins, statF := o.levelF }).octLatch n

/-- What follows the octad's part: the ledger, TC as it then stands, the tick of the latch. -/
def State.endLatch (s : State) (n epoch : Nat) : State :=
  ((s.ledgerLatch n).mapOctCells n fun c => { c with tcL := c.tc }).updOct n fun o => { o with latchAt := some (frameAt epoch o.tl.tfb) }

/-- What comes before the latch: corrected reads counted, the frame taken from the queue, an early commit of TC, the hubs' feedback. -/
def State.beginLatch (s : State) (n : Nat) (ecc : List TileReads) (tick : Nat) : State :=
  (((ecc.foldl (fun s r => s.countCorrected (8 * n + r.tile.val) r.reads.toNat) s).updOct n fun o => { o with
    toLatch := o.toLatch.tail }).earlyTc n tick).hubFeedback n

/-- The cells' part of the latch: feedback and retry budgets. -/
def State.cellsLatch (s : State) (n : Nat) : State :=
  ((s.latchCells n).octCells n).foldl (fun s c => s.cellBudget c) (s.latchCells n)

/-- Counting corrected reads touches nothing of the latch (R34). -/
theorem State.countCorrecteds_armPart (n : Nat) (l : List TileReads) (s : State) :
    (l.foldl (fun s r => s.countCorrected (8 * n + r.tile.val) r.reads.toNat) s).armPart = s.armPart := by
  induction l generalizing s with
  | nil => rfl
  | cons r l ih => exact ih _

theorem State.beginLatch_kept (s : State) (n : Nat) (ecc : List TileReads) (tick : Nat) :
    InputsKept (s.updOct n fun o => { o with toLatch := o.toLatch.tail }) (s.beginLatch n ecc tick) := by
  have h := State.countCorrecteds_armPart n ecc s
  unfold State.beginLatch
  generalize ecc.foldl (fun s r => s.countCorrected (8 * n + r.tile.val) r.reads.toNat) s = u at h ⊢
  obtain ⟨hc, hoe⟩ := Prod.mk.inj h
  obtain ⟨ho, he⟩ := Prod.mk.inj hoe
  have hu : LatchFrame (s.updOct n fun o => { o with toLatch := o.toLatch.tail })
      (u.updOct n fun o => { o with toLatch := o.toLatch.tail }) :=
    .same (by simp only [State.armPart, State.updOct_cells, State.updOct_octs, State.updOct_engs, hc, ho, he])
  exact ((InputsKept.of_latchFrame hu).trans (.earlyTc ..)).trans (.of_latchFrame (.hubFeedback ..))

theorem State.cellsLatch_kept (s : State) (n : Nat) : LatchFrame (s.latchCells n) (s.cellsLatch n) :=
  .cellBudgets fun _ hc => (State.mem_octCells.mp hc).2

/-- After the retry budgets every candidate has its place. -/
theorem State.cellsLatch_placed {s : State} {n c : Nat} (h : c ∈ (s.cellsLatch n).candCells n) : (s.cellsLatch n).placed c := by
  obtain ⟨⟨hn, hc⟩, hcand⟩ := State.mem_candCells.mp h
  have hk := s.cellsLatch_kept n
  have hc' := (hk.has c).mp hc
  refine State.cellBudgets_placed (fun _ hc => (State.mem_octCells.mp hc).2) (State.mem_octCells.mpr ⟨hn, hc'⟩) ?_
  exact State.latchCells_settles (State.mem_candCells.mpr ⟨⟨hn, hc'⟩, (Cell.cand_eq_of_image (hk.image c)).symm.trans hcand⟩)

/-- The engine runs a sample of the frame. -/
def Engine.sampling (x : Engine) (f : Word × Nat) (tick : Nat) : Prop := x.running = true ∧ x.sampleFrame = f.1 ∧ x.sampleTick = tick

theorem Engine.sampling_of_view {x y : Engine} (h : x.view = y.view) {f : Word × Nat} {tick : Nat} (hy : y.sampling f tick) :
    x.sampling f tick :=
  (congrArg (fun z : Engine => z.sampling f tick) h : x.view.sampling f tick = y.view.sampling f tick).mpr hy

theorem State.armLatch_halted {s : State} {n : Nat} (h : (s.oct n).halted = true) (f : Word × Nat) (tick : Nat) :
    s.armLatch n f tick = s := if_pos h

theorem State.armLatch_cells (s : State) (n : Nat) (f : Word × Nat) (tick : Nat) : CellsKept s (s.armLatch n f tick) := by
  unfold State.armLatch
  refine .ite (.refl s) (((s.startSample_spec n f tick).1.trans ?_).trans (State.octLatch_cells _ n))
  exact .of_cells rfl

/-- Outside debug halt the current and the sign are latched, the mean is that of the candidates, and the engine's sample starts. -/
theorem State.armLatch_running {s : State} {n : Nat} (h : (s.oct n).halted = false) (hp : ∀ c ∈ s.candCells n, s.placed c)
    (f : Word × Nat) (tick : Nat) :
    (∃ i, ((s.armLatch n f tick).oct n).view = ((s.oct n).signStep i ((s.armLatch n f tick).meanOf n)).view)
      ∧ ((s.eng n).loaded.isSome = true → ((s.armLatch n f tick).eng n).sampling f tick) := by
  obtain ⟨hcells, hoct, heng⟩ := s.startSample_spec n f tick
  have hs : s.armLatch n f tick
      = ((s.startSample n f tick).updOct n fun o => { o with statN := o.nins, statF := o.levelF }).octLatch n :=
    if_neg (by simp [h])
  rw [hs]
  generalize hu : (s.startSample n f tick).updOct n (fun o => { o with statN := o.nins, statF := o.levelF }) = u
  have hstat : LatchFrame (s.startSample n f tick) u := hu ▸ .updOct fun _ => rfl
  have hsu : CellsKept s u := hcells.trans hstat.toCellsKept
  have hmean : (u.octLatch n).meanOf n = u.meanOf n :=
    State.meanOf_kept (State.octLatch_cells u n) fun c hc => hsu.placed c (hp c (hsu.cands n hp ▸ hc))
  refine ⟨⟨u.armCurrent n, ?_⟩, fun hl => Engine.sampling_of_view (hstat.eng n) (heng hl)⟩
  rw [hmean, State.octLatch_view]
  exact Octad.signStep_view ((hstat.oct n).trans (hoct n)) ..

/-- What the end of the latch leaves and brings about. -/
theorem State.endLatch_spec (s : State) (n epoch : Nat) :
    CellsKept s (s.endLatch n epoch) ∧ ((s.endLatch n epoch).oct n).view = (s.oct n).ledgerStep.view
      ∧ (∀ e, ((s.endLatch n epoch).eng e).view = (s.eng e).view)
      ∧ ((s.endLatch n epoch).oct n).latchAt = some (frameAt epoch (s.oct n).tl.tfb) := by
  obtain ⟨hcells, hoct, heng⟩ := s.ledgerLatch_spec n
  unfold State.endLatch
  generalize s.ledgerLatch n = u at hcells hoct heng ⊢
  have htc : LatchFrame u (u.mapOctCells n fun c => { c with tcL := c.tc }) := .mapOctCells (fun _ => rfl) fun _ => rfl
  have htl : (u.oct n).tl = (s.oct n).tl := (congrArg Octad.tl hoct : (u.oct n).view.tl = (s.oct n).ledgerStep.view.tl)
  rw [State.oct_updOct_same, ← htl]
  exact ⟨(hcells.trans htc.toCellsKept).trans (.of_cells rfl), (htc.oct n).trans hoct, fun e => (htc.eng e).trans (heng e), rfl⟩

theorem State.mapOctCells_cell {s : State} {c : Nat} (h : s.hasCell c) (f : Cell → Cell) :
    (s.mapOctCells (c / 512) f).cell c = f (s.cell c) := by
  obtain ⟨x, hx, -⟩ := h
  exact (Tab.look_map_of_mem (f := fun i d => if i / 512 = c / 512 then f d else d) ⟨x, hx⟩).trans (if_pos rfl)

/-- TC is latched once the ledger's part is done with it (Tables 2-1 and 2-5). -/
theorem State.endLatch_tcL {s : State} {c : Nat} (h : s.hasCell c) (epoch : Nat) :
    ((s.endLatch (c / 512) epoch).cell c).tcL = ((s.endLatch (c / 512) epoch).cell c).tc := by
  have hc := ((s.ledgerLatch_spec (c / 512)).1.has c).mpr h
  unfold State.endLatch
  generalize s.ledgerLatch (c / 512) = u at hc ⊢
  rw [State.updOct_cell, State.mapOctCells_cell hc]

/-- The whole latch of an octad for a frame (number and epoch). -/
def State.feedbackLatch (s : State) (n : Nat) (ecc : List TileReads) (f : Word × Nat) : State :=
  (((s.beginLatch n ecc (frameAt f.2 (s.oct n).tl.tfb)).cellsLatch n).armLatch n f (frameAt f.2 (s.oct n).tl.tfb)).endLatch n f.2

/-- FEEDBACK_DEADLINE when it is due. -/
theorem execFeedbackDeadline_due {n : Fin 8} {ecc : List TileReads} {k : Word} {e : Nat} {rest : List (Word × Nat)} {s : State}
    (ha : s.alive = true) (hst : (s.oct n).state ≠ .unconfigured) (hq : (s.oct n).toLatch = (k, e) :: rest)
    (hd : frameAt e (s.oct n).tl.tfb ≤ s.now) :
    exec (.feedbackDeadline ⟨n, ecc⟩) s = .next (s.feedbackLatch n ecc (k, e)) := by
  have hgo : ¬(!s.alive || (s.oct n).state == .unconfigured) = true := by simp [ha, hst]
  change execFeedbackDeadline ⟨n, ecc⟩ s = _
  unfold execFeedbackDeadline
  extract_lets m o
  rw [if_neg hgo]
  split
  · rename_i hnil
    exact absurd (hq.symm.trans hnil) (List.cons_ne_nil _ _)
  rename_i f tail hcons
  obtain ⟨rfl, rfl⟩ := List.cons.inj (hq.symm.trans hcons)
  unfold State.whenDue
  rw [if_pos hd]
  rfl

section
variable (s : State) (n : Nat) (ecc : List TileReads) (f : Word × Nat)

/-- From the latch of the cells' feedback to the end of the command. -/
theorem State.feedbackLatch_cells :
    CellsKept ((s.beginLatch n ecc (frameAt f.2 (s.oct n).tl.tfb)).latchCells n) (s.feedbackLatch n ecc f) :=
  ((State.cellsLatch_kept _ n).toCellsKept.trans (State.armLatch_cells ..)).trans (State.endLatch_spec ..).1

/-- What the octad holds when its own part of the latch begins. -/
theorem State.cellsLatch_view (tick : Nat) :
    (((s.beginLatch n ecc tick).cellsLatch n).oct n).view = ({ s.oct n with toLatch := (s.oct n).toLatch.tail } : Octad).view := by
  have h := (s.beginLatch_kept n ecc tick).oct n
  rw [State.oct_updOct_same] at h
  rw [(State.cellsLatch_kept _ n).oct n, State.latchCells_oct, h]

theorem State.cellsLatch_eng (tick e : Nat) : (((s.beginLatch n ecc tick).cellsLatch n).eng e).view = (s.eng e).view := by
  rw [(State.cellsLatch_kept _ n).eng e, State.latchCells_eng, (s.beginLatch_kept n ecc tick).eng e, State.updOct_eng]

/-- In debug halt the ledger's part alone touches the octad. -/
theorem State.feedbackLatch_halted (h : (s.oct n).halted = true) :
    ((s.feedbackLatch n ecc f).oct n).view = ({ s.oct n with toLatch := (s.oct n).toLatch.tail } : Octad).ledgerStep.view := by
  have hv := s.cellsLatch_view n ecc (frameAt f.2 (s.oct n).tl.tfb)
  unfold State.feedbackLatch
  generalize (s.beginLatch n ecc (frameAt f.2 (s.oct n).tl.tfb)).cellsLatch n = u at hv ⊢
  have hu : (u.oct n).halted = true := (Octad.halted_eq_of_view hv).trans h
  rw [State.armLatch_halted hu]
  exact (State.endLatch_spec ..).2.1.trans (Octad.ledgerStep_view hv)

/-- Outside debug halt the current, the sign and the mean are latched, then comes the ledger's part; an engine with a graph runs a sample of
the frame. -/
theorem State.feedbackLatch_running (h : (s.oct n).halted = false) :
    (∃ i, ((s.feedbackLatch n ecc f).oct n).view
        = (({ s.oct n with toLatch := (s.oct n).toLatch.tail } : Octad).signStep i ((s.feedbackLatch n ecc f).meanOf n)).ledgerStep.view)
      ∧ ((s.eng n).loaded.isSome = true → ((s.feedbackLatch n ecc f).eng n).sampling f (frameAt f.2 (s.oct n).tl.tfb)) := by
  have hv := s.cellsLatch_view n ecc (frameAt f.2 (s.oct n).tl.tfb)
  have he := s.cellsLatch_eng n ecc (frameAt f.2 (s.oct n).tl.tfb) n
  have hp : ∀ c ∈ ((s.beginLatch n ecc (frameAt f.2 (s.oct n).tl.tfb)).cellsLatch n).candCells n, _ := fun c => State.cellsLatch_placed
  unfold State.feedbackLatch
  generalize frameAt f.2 (s.oct n).tl.tfb = tick at hv he hp ⊢
  generalize (s.beginLatch n ecc tick).cellsLatch n = u at hv he hp ⊢
  have hu : (u.oct n).halted = false := (Octad.halted_eq_of_view hv).trans h
  obtain ⟨⟨i, hi⟩, hs⟩ := State.armLatch_running hu hp f tick
  obtain ⟨hcells, hoct, heng, -⟩ := State.endLatch_spec (u.armLatch n f tick) n f.2
  have hplaced : ∀ c ∈ (u.armLatch n f tick).candCells n, (u.armLatch n f tick).placed c := fun c hc =>
    (u.armLatch_cells n f tick).placed c (hp c ((u.armLatch_cells n f tick).cands n hp ▸ hc))
  refine ⟨⟨i, ?_⟩, fun hl => Engine.sampling_of_view (heng n) (hs ?_)⟩
  · rw [State.meanOf_kept hcells hplaced]
    exact hoct.trans (Octad.ledgerStep_view (hi.trans (Octad.signStep_view hv ..)))
  · rw [Engine.loaded_eq_of_view he]
    exact hl

theorem State.feedbackLatch_latchAt : ((s.feedbackLatch n ecc f).oct n).latchAt = some (frameAt f.2 (s.oct n).tl.tfb) := by
  have htl : ((s.feedbackLatch n ecc f).oct n).tl = (s.oct n).tl := by
    cases h : (s.oct n).halted
    · obtain ⟨⟨i, hi⟩, -⟩ := s.feedbackLatch_running n ecc f h
      simpa only [Octad.ledgerStep, Octad.signStep] using Octad.tl_eq_of_view hi
    · simpa only [Octad.ledgerStep] using Octad.tl_eq_of_view (s.feedbackLatch_halted n ecc f h)
  unfold State.feedbackLatch at htl ⊢
  generalize ((s.beginLatch n ecc (frameAt f.2 (s.oct n).tl.tfb)).cellsLatch n).armLatch n f (frameAt f.2 (s.oct n).tl.tfb) = u at htl ⊢
  obtain ⟨-, hoct, -, hat⟩ := State.endLatch_spec u n f.2
  rw [hat, ← htl, Octad.tl_eq_of_view hoct]
  rfl

end

/-- A populated cell of the octad has latched its last accepted feedback, stale when the frame brought none (Table 2-1, R43). -/
theorem State.feedbackLatch_cell {s : State} {n c : Nat} (ecc : List TileReads) (f : Word × Nat) (h : c ∈ s.octCells n) :
    ((s.feedbackLatch n ecc f).cell c).v = (s.cell c).fb.v ∧ ((s.feedbackLatch n ecc f).cell c).fault = (s.cell c).fb.fault
      ∧ ((s.feedbackLatch n ecc f).cell c).stale = !(s.cell c).fb.fresh ∧ ((s.feedbackLatch n ecc f).cell c).fb.fresh = false
      ∧ ((s.feedbackLatch n ecc f).cell c).vOld = (s.cell c).v ∧ ((s.feedbackLatch n ecc f).cell c).candOld = (s.cell c).cand
      ∧ ((s.feedbackLatch n ecc f).cell c).tcL = ((s.feedbackLatch n ecc f).cell c).tc := by
  obtain ⟨rfl, hc⟩ := State.mem_octCells.mp h
  have hbegin := s.beginLatch_kept (c / 512) ecc (frameAt f.2 (s.oct (c / 512)).tl.tfb)
  have ht := (s.feedbackLatch_cells (c / 512) ecc f).image c
  have htc : ((s.feedbackLatch (c / 512) ecc f).cell c).tcL = ((s.feedbackLatch (c / 512) ecc f).cell c).tc := by
    refine State.endLatch_tcL (((State.armLatch_cells ..).has c).mpr (((State.cellsLatch_kept ..).has c).mpr ?_)) f.2
    exact State.latchCells_hasCell.mpr (hbegin.has c hc)
  rw [State.latchCells_cell (hbegin.has c hc)] at ht
  have hb := hbegin.image c
  rw [State.updOct_cell] at hb
  generalize s.feedbackLatch (c / 512) ecc f = t at ht htc ⊢
  generalize (s.beginLatch (c / 512) ecc (frameAt f.2 (s.oct (c / 512)).tl.tfb)).cell c = d at ht hb
  have hfb := Cell.fb_eq_of_image hb
  refine ⟨?_, ?_, ?_, ?_, ?_, ?_, htc⟩
  · rw [Cell.v_eq_of_image ht, ← hfb]; rfl
  · rw [Cell.fault_eq_of_image ht, ← hfb]; rfl
  · rw [Cell.stale_eq_of_image ht, ← hfb]; rfl
  · rw [Cell.fb_eq_of_image ht]; rfl
  · rw [Cell.vOld_eq_of_image ht, ← Cell.v_eq_of_image hb]; rfl
  · rw [Cell.candOld_eq_of_image ht, ← Cell.cand_eq_of_image hb]; rfl

/-- The cells of other octads keep their feedback and latches. -/
theorem State.feedbackLatch_cell_ne {s : State} {n c : Nat} (ecc : List TileReads) (f : Word × Nat) (h : c / 512 ≠ n) :
    ((s.feedbackLatch n ecc f).cell c).image = (s.cell c).image := by
  rw [(s.feedbackLatch_cells n ecc f).image c, State.latchCells_cell_ne h, (s.beginLatch_kept n ecc _).image c, State.updOct_cell]

/-- What a view says of the octad. -/
theorem Octad.of_view {o p : Octad} (h : o.view = p.view) :
    o.toLatch = p.toLatch ∧ o.iLedPrev = p.iLedPrev ∧ o.iLed = p.iLed ∧ o.iCode = p.iCode ∧ o.iPrev = p.iPrev ∧ o.sign = p.sign
      ∧ o.fresh = p.fresh ∧ o.vbar = p.vbar := by
  have hview : ∀ q : Octad, q.toLatch = q.view.toLatch ∧ q.iLedPrev = q.view.iLedPrev ∧ q.iLed = q.view.iLed ∧ q.iCode = q.view.iCode
      ∧ q.iPrev = q.view.iPrev ∧ q.sign = q.view.sign ∧ q.fresh = q.view.fresh ∧ q.vbar = q.view.vbar :=
    fun _ => ⟨rfl, rfl, rfl, rfl, rfl, rfl, rfl, rfl⟩
  have ho := hview o
  rw [h] at ho
  exact ho

/-- Settles O32: the latch part by part; once every candidate has its place in the table of cells, the mean formed is that of the candidates at
the end of the command. -/
theorem feedbackLatchTakesTheFrame : Obligations.FeedbackLatchTakesTheFrame := by
  unfold Obligations.FeedbackLatchTakesTheFrame
  intro n ecc k e rest s halive hstate hqueue hdue
  have htail : (s.oct n).toLatch.tail = rest := by rw [hqueue]; rfl
  refine ⟨s.feedbackLatch n ecc (k, e), execFeedbackDeadline_due halive hstate hqueue hdue, ?_⟩
  have hcells := fun c => State.feedbackLatch_cell (s := s) (n := n) (c := c) ecc (k, e)
  have hothers : ∀ c, c / 512 ≠ n.val → _ := fun c hc => State.feedbackLatch_cell_ne (s := s) ecc (k, e) hc
  have hat := s.feedbackLatch_latchAt n ecc (k, e)
  have hhalted := s.feedbackLatch_halted n ecc (k, e)
  have hrunning := s.feedbackLatch_running n ecc (k, e)
  generalize s.feedbackLatch n ecc (k, e) = t at hcells hothers hat hhalted hrunning ⊢
  have hothers' : ∀ c, c / 512 ≠ n.val → (t.cell c).v = (s.cell c).v ∧ (t.cell c).stale = (s.cell c).stale ∧ (t.cell c).fb = (s.cell c).fb :=
    fun c hc => ⟨Cell.v_eq_of_image (hothers c hc), Cell.stale_eq_of_image (hothers c hc), Cell.fb_eq_of_image (hothers c hc)⟩
  cases h : (s.oct n).halted
  case true =>
    obtain ⟨hlatch, hprev, hled, hcode, -, hsign, -, -⟩ := Octad.of_view (hhalted h)
    refine ⟨hlatch.trans htail, hcells, hothers', hprev, hat, fun _ => ⟨hcode, hsign, ?_⟩, (nomatch ·)⟩
    simpa only [Octad.ledgerStep, h, if_true] using hled
  case false =>
    obtain ⟨⟨i, hview⟩, hsample⟩ := hrunning h
    obtain ⟨hlatch, hprev, hled, hcode, hold, hsign, hfresh, hmean⟩ := Octad.of_view hview
    refine ⟨hlatch.trans htail, hcells, hothers', hprev, hat, (nomatch ·), fun _ =>
      ⟨hold, ?_, fun hgoes => ?_, fun hf hsel => ?_, hmean, hsample⟩⟩
    · rw [hled, hcode]
      simp [Octad.ledgerStep, Octad.signStep, h]
    · have hnot : ((s.oct n).fresh && (s.oct n).selIn == 0) = false := by
        rcases hgoes with hf | hsel
        · simp [hf]
        · simp [hsel]
      rw [hfresh, hsign, hcode]
      simp [Octad.ledgerStep, Octad.signStep, hnot, Octad.iDb, Octad.iHys]
    · rw [hfresh, hsign, hcode]
      simp [Octad.ledgerStep, Octad.signStep, hf, hsel, Octad.iDb, Octad.iHys]

end Sys2Proof.Machine
end

section
/-! SUPPORT. DOUBLE_BIT_ERROR in an engine's memory (R244) while several samples are under way: T_ED − T_FB may exceed T_F (R215), so that a
sample starts before the one of the frame before has come to its deadline.  The oldest is abandoned, and the latest runs on. -/

namespace Sys2Proof.Machine

/-! ### What leaves the samples that wait alone -/

theorem RaiseFrame.older_eq {s t : State} (h : RaiseFrame s t) (e : Nat) : (t.eng e).older = (s.eng e).older :=
  (congrArg Engine.older (h.eng e) :)

theorem RaiseFrame.running_eq {s t : State} (h : RaiseFrame s t) (e : Nat) : (t.eng e).running = (s.eng e).running :=
  (congrArg Engine.running (h.eng e) :)

@[simp] theorem State.count_eng (s : State) (a n e : Nat) : (s.count a n).eng e = s.eng e := by
  unfold State.count State.countAt
  dsimp only
  split <;> rfl

theorem State.foldl_emit_eng (l : List Output) (s : State) (e : Nat) : (l.foldl State.emit s).eng e = s.eng e := by
  induction l generalizing s with
  | nil => rfl
  | cons o r ih => exact ih (s.emit o)

theorem State.capture_eng (s : State) (ring kind : Nat) (record : List Byte) (e : Nat) :
    (s.capture ring kind record).1.eng e = s.eng e := by
  unfold State.capture
  extract_lets r u n
  have hu : u.eng e = s.eng e := State.foldl_emit_eng ..
  clear_value u
  split
  · exact hu
  · rfl

theorem State.captureSample_older (s : State) (e : Nat) (g : Graph) (above : Bool) :
    ((s.captureSample e g above).eng e).older = (s.eng e).older := by
  unfold State.captureSample
  extract_lets b x d n sigs mask fl record u r
  have hu : (u.eng e).older = (s.eng e).older := by rw [State.eng_updEng_same]
  split
  · rfl
  · split
    · rw [State.capture_eng, hu]
    · rw [State.count_eng, hu]

theorem State.overrun_older (s : State) (e : Nat) (priv : Bool) : ((s.overrun e priv).eng e).older = (s.eng e).older := by
  unfold State.overrun
  extract_lets lvl u v run
  have hv : (v.eng e).older = (s.eng e).older := by
    rw [(State.raise_frame ..).older_eq, State.count_eng, State.eng_updEng_same]
  split
  · rw [(State.raise_frame ..).older_eq, State.eng_updEng_same, hv]
  · rw [State.eng_updEng_same, hv]

theorem State.lateSample_older (s : State) (e : Nat) (g : Graph) (c : Sched) (tick : Nat) :
    ((s.lateSample e g c tick).eng e).older = (s.eng e).older := by
  unfold State.lateSample
  rw [State.captureSample_older, State.overrun_older]

/-! ### The latest sample runs on -/

/-- While the oldest sample comes to its end, the latest waits last. -/
theorem Engine.oldestFirst_older {x : Engine} {y : Sample} {r : List Sample} (h : x.older = y :: r) :
    x.oldestFirst.older = r ++ [x.sample] := by
  simp only [Engine.oldestFirst, h]

theorem Engine.latestAgain_running {x : Engine} {y : Sample} {r : List Sample} (h : x.older = r ++ [y]) :
    x.latestAgain.running = true := by
  simp only [Engine.latestAgain, h, List.getLast?_concat]

/-- Of several samples under way only the oldest is abandoned. -/
theorem State.abandonSample_running {s : State} {e : Nat} {g : Graph} {x : Sample} {r : List Sample} (hg : (s.eng e).graph = some g)
    (hrun : (s.eng e).running = true) (hold : (s.eng e).older = x :: r) : ((s.abandonSample e).eng e).running = true := by
  simp only [State.abandonSample, hg, hrun, if_true]
  rw [State.eng_updEng_same]
  refine Engine.latestAgain_running (r := r) (y := (s.eng e).sample) ?_
  rw [State.lateSample_older, State.eng_updEng_same, Engine.oldestFirst_older hold]

theorem exec_doubleBitError_octad {n : Fin 8} {addr : Word} {s : State} (ha : s.alive = true) (haddr : addr.toNat < (Mem.octad n).size) :
    exec (.doubleBitError (.octad n) addr) s = .next ((s.abandonSample n).raise 0x2101 n (leBytes 4 addr.toNat)) := by
  have hin : ¬(Mem.octad n).size ≤ addr.toNat := Nat.not_le.mpr haddr
  simp only [exec, execDoubleBitError, ha, hin, Bool.not_true, decide_false, Bool.or_self, Bool.false_eq_true, if_false]

theorem exec_doubleBitError_octad_running {n : Fin 8} {addr : Word} {g : Graph} {x : Sample} {r : List Sample} {s t : State}
    (ha : s.alive = true) (haddr : addr.toNat < (Mem.octad n).size) (hg : (s.eng n).graph = some g) (hrun : (s.eng n).running = true)
    (hold : (s.eng n).older = x :: r) (h : exec (.doubleBitError (.octad n) addr) s = .next t) : (t.eng n).running = true := by
  rw [exec_doubleBitError_octad ha haddr] at h
  cases h
  rw [(State.raise_frame ..).running_eq]
  exact State.abandonSample_running hg hrun hold

/-- The device in IDLE; octad 0's engine runs an empty law, whose sample of frame 101 has started while that of frame 100 is under way. -/
def twoSamplesUnderWay : State :=
  { State.reset with
    sys := { State.reset.sys with dev := .idle }
    engs := State.reset.engs.set 0 { Engine.init with
      graph := some ⟨[], [], [], 0, 0, 0, 0, []⟩, running := true, sampleFrame := 101, sampleTick := 2000,
      older := [⟨100, 1000, 1, [], Tab.empty Inj.init, false, false⟩] } }

/-- Refutes O48: its clause of the double-bit error in octad memory says that the engine runs no more, also while a second sample is under way
(R215); the error abandons the oldest only, and the latest runs on. -/
theorem not_collectorCommandsAct : ¬ Obligations.CollectorCommandsAct := by
  unfold Obligations.CollectorCommandsAct
  rintro ⟨-, -, -, -, -, -, -, hError, -, -⟩
  obtain ⟨t, hexec, hstopped, -⟩ := hError 0 0 _ twoSamplesUnderWay rfl (by decide) rfl rfl
  have hruns : (t.eng 0).running = true := exec_doubleBitError_octad_running (n := 0) rfl (by decide) rfl rfl rfl hexec
  exact absurd (hstopped.symm.trans hruns) Bool.false_ne_true

end Sys2Proof.Machine
end

section
/-! SUPPORT. Kingpost (chapter 13): what its operations do to one channel, and what they leave of it and of the other.

A fault or an ABORT BLOCK comes between the octads and between the outputs; it leaves both channels as they are (R410), so that loops and outputs
are reasoned about as those of a channel alone. -/

namespace Sys2Proof.Machine

theorem get_forTab {α : Type} (n : Nat) (t : Tab α) (f : Nat → α → α) (i : Nat) :
    (forTab n t f).get i = if i < n then f i (t.get i) else t.get i := by
  induction n with
  | zero => rfl
  | succ n ih =>
    have hstep : forTab (n + 1) t f = (forTab n t f).upd n (f n) := by
      simp only [forTab, List.range_succ, List.foldl_append, List.foldl_cons, List.foldl_nil]
    rw [hstep, Tab.get_upd]
    by_cases hi : i = n
    · subst hi
      have hn : (forTab i t f).get i = t.get i := ih.trans (if_neg (Nat.lt_irrefl i))
      rw [if_pos rfl, if_pos (Nat.lt_succ_self i), hn]
    · have hlt : i < n + 1 ↔ i < n := by omega
      rw [if_neg hi, ih]
      simp only [hlt]

/-! ### A channel under an update, a post and an ABORT BLOCK -/

theorem eq_or_eq_kpOther (c d : KpCh) : d = c ∨ d = kpOther c := by cases c <;> cases d <;> simp [kpOther]

section
variable (s : State) (c d : KpCh) (f g : KpChan → KpChan)

@[simp] theorem State.updCh_ch : (s.updCh c f).ch c = f (s.ch c) := by cases c <;> rfl
@[simp] theorem State.updCh_ch_other : (s.updCh c f).ch (kpOther c) = s.ch (kpOther c) := by cases c <;> rfl
@[simp] theorem State.updCh_updCh : (s.updCh c f).updCh c g = s.updCh c fun k => g (f k) := by cases c <;> rfl
@[simp] theorem State.updCh_vkp : (s.updCh c f).kp.vkp = s.kp.vkp := by cases c <;> rfl
theorem State.updCh_congr {s : State} {c : KpCh} {f g : KpChan → KpChan} (h : f (s.ch c) = g (s.ch c)) : s.updCh c f = s.updCh c g :=
  congrArg (s.setCh c) h
theorem State.updCh_eq : s.updCh c f = { s with kp := (s.updCh c f).kp } := by cases c <;> rfl

theorem RaiseFrame.ch_eq {s t : State} (h : RaiseFrame s t) : t.ch d = s.ch d := by
  cases d
  · exact h.kpA_eq
  · exact h.kpB_eq

@[simp] theorem State.post_ch (code src : Nat) : (s.post c code src).ch d = s.ch d := by
  unfold State.post
  split
  · exact (State.raise_frame ..).ch_eq d
  · rfl

@[simp] theorem State.abortLanes_ch (n o : Nat) : (s.abortLanes n o).ch d = s.ch d := (RaiseFrame.abortLanes s n o).ch_eq d

end

/-! ### Loops follow their causes (R418, R419) -/

/-- The loops below m of a channel have followed their causes. -/
structure LoopsDriven (m : Nat) (k k' : KpChan) : Prop where
  causes : ∀ n, (k'.loops.get n).causes = (k.loops.get n).causes
  sbk : ∀ n < m, (k'.loops.get n).sbk = (k'.loops.get n).causes.any
  srd : k.srd.running = false → k'.srd = k.srd

namespace LoopsDriven

theorem stay {m : Nat} {k k' : KpChan} (h : LoopsDriven m k k') (hs : (k'.loops.get m).sbk = (k'.loops.get m).causes.any) :
    LoopsDriven (m + 1) k k' :=
  ⟨h.causes, fun n hn => (Nat.lt_succ_iff_lt_or_eq.mp hn).elim (h.sbk n) fun e => e ▸ hs, h.srd⟩

theorem upd {m : Nat} {k k' : KpChan} {g : KpLoop → KpLoop} {r : Srd} (h : LoopsDriven m k k')
    (hc : (g (k'.loops.get m)).causes = (k'.loops.get m).causes) (hs : (g (k'.loops.get m)).sbk = (k'.loops.get m).causes.any)
    (hr : k'.srd.running = false → r = k'.srd) : LoopsDriven (m + 1) k { k' with loops := k'.loops.upd m g, srd := r } := by
  refine ⟨fun n => ?_, fun n hn => ?_, fun hk => ?_⟩
  · rw [Tab.get_upd, ← h.causes]
    split
    · rename_i e; rw [e, hc]
    · rfl
  · rw [Tab.get_upd]
    split
    · rw [hs, hc]
    · exact h.sbk n (by omega)
  · have hk' := h.srd hk
    exact (hr (hk' ▸ hk)).trans hk'

end LoopsDriven

theorem Srd.drop_stopped {r : Srd} (h : r.running = false) (n : Nat) : r.drop n = r := by
  unfold Srd.drop
  rw [h]
  rfl

theorem State.enterSbk_ch (s : State) (c : KpCh) (n : Nat) :
    (s.enterSbk c n).ch c = { s.ch c with
      loops := (s.ch c).loops.upd n fun x =>
        { x with sbk := true, enabled := false, cmdAt := if x.enabled then (s.ch c).time else x.cmdAt }
      srd := (s.ch c).srd.drop n } := by
  simp only [State.enterSbk, State.post_ch, State.abortLanes_ch, State.updCh_ch]

theorem State.applyLoops_driven (s : State) (c : KpCh) : LoopsDriven 8 (s.ch c) ((s.applyLoops c).ch c) := by
  unfold State.applyLoops
  generalize 8 = m
  induction m with
  | zero => exact ⟨fun _ => rfl, fun _ h => absurd h (Nat.not_lt_zero _), fun _ => rfl⟩
  | succ m ih =>
    unfold forNat
    generalize forNat m _ s = u at ih ⊢
    beta_reduce
    extract_lets x
    by_cases hx : x.causes.any = x.sbk
    · simp only [hx, Bool.and_not_self, Bool.not_and_self, Bool.false_eq_true, if_false]
      exact ih.stay hx.symm
    · cases ha : x.causes.any with
      | true =>
        have hs : x.sbk = false := by simpa [ha] using hx
        simp only [hs, Bool.not_false, Bool.and_self, if_true]
        rw [State.enterSbk_ch]
        exact ih.upd rfl ha.symm fun hr => Srd.drop_stopped hr m
      | false =>
        have hs : x.sbk = true := by simpa [ha] using hx
        simp only [hs, Bool.not_true, Bool.not_false, Bool.and_self, Bool.false_eq_true, if_false, if_true]
        rw [State.post_ch, State.updCh_ch]
        exact ih.upd rfl ha.symm fun _ => rfl

/-! ### Outputs follow their causes (R424, R428) -/

/-- The outputs below m of a channel have followed their causes. -/
structure OutsDriven (m : Nat) (k k' : KpChan) : Prop where
  causes : ∀ n, (k'.outs.get n).causes = (k.outs.get n).causes
  testFail : ∀ n, (k'.outs.get n).testFail = (k.outs.get n).testFail
  trip : ∀ n < m, (k'.outs.get n).tripAt.isSome = (k'.outs.get n).causes.any
  loops : k'.loops = k.loops
  srd : k'.srd = k.srd

namespace OutsDriven

theorem stay {m : Nat} {k k' : KpChan} (h : OutsDriven m k k') (ht : (k'.outs.get m).tripAt.isSome = (k'.outs.get m).causes.any) :
    OutsDriven (m + 1) k k' :=
  { h with trip := fun n hn => (Nat.lt_succ_iff_lt_or_eq.mp hn).elim (h.trip n) fun e => e ▸ ht }

theorem upd {m : Nat} {k k' : KpChan} {g : KpOut → KpOut} (h : OutsDriven m k k')
    (hc : (g (k'.outs.get m)).causes = (k'.outs.get m).causes) (hf : (g (k'.outs.get m)).testFail = (k'.outs.get m).testFail)
    (ht : (g (k'.outs.get m)).tripAt.isSome = (k'.outs.get m).causes.any) :
    OutsDriven (m + 1) k { k' with outs := k'.outs.upd m g } := by
  refine ⟨fun n => ?_, fun n => ?_, fun n hn => ?_, h.loops, h.srd⟩
  · rw [Tab.get_upd, ← h.causes]
    split
    · rename_i e; rw [e, hc]
    · rfl
  · rw [Tab.get_upd, ← h.testFail]
    split
    · rename_i e; rw [e, hf]
    · rfl
  · rw [Tab.get_upd]
    split
    · rw [ht, hc]
    · exact h.trip n (by omega)

end OutsDriven

theorem State.applyOuts_driven (s : State) (c : KpCh) : OutsDriven 8 (s.ch c) ((s.applyOuts c).ch c) := by
  unfold State.applyOuts
  generalize 8 = m
  induction m with
  | zero => exact ⟨fun _ => rfl, fun _ => rfl, fun _ h => absurd h (Nat.not_lt_zero _), rfl, rfl⟩
  | succ m ih =>
    unfold forNat
    generalize forNat m _ s = u at ih ⊢
    beta_reduce
    extract_lets k x
    split
    · rename_i ha
      split
      · rename_i ht
        exact ih.stay (ht.trans ha.symm)
      · rw [State.post_ch, State.updCh_ch]
        exact ih.upd rfl rfl ha.symm
    · rename_i ha
      have ha : x.causes.any = false := by simpa using ha
      split
      · rw [State.updCh_ch]
        exact ih.upd rfl rfl ha.symm
      · rename_i ht
        have ht : x.tripAt.isSome = false := by simpa using fun h => ht (.inl h)
        exact ih.stay (ht.trans ha.symm)

theorem State.applyOuts_ch_other (s : State) (c : KpCh) : (s.applyOuts c).ch (kpOther c) = s.ch (kpOther c) := by
  refine forNat_induct (P := fun u => u.ch (kpOther c) = s.ch (kpOther c)) (fun n u hu => ?_) 8 rfl
  extract_lets k x
  split
  · split
    · exact hu
    · rw [State.post_ch, State.updCh_ch_other, hu]
  · split
    · rw [State.updCh_ch_other, hu]
    · exact hu

/-! ### Present causes latch (R417) -/

theorem KpChan.latchAll_loop (k : KpChan) (n : Nat) :
    k.latchAll.loops.get n
      = if n < 8 then { k.loops.get n with causes := (k.loops.get n).causes.latch (k.sbkPresent n) } else k.loops.get n :=
  get_forTab ..

@[simp] theorem KpChan.latchAll_srd (k : KpChan) : k.latchAll.srd = k.srd := rfl

/-! ### Safe run-down (R421 to R423) -/

theorem KpChan.portCode_none (k : KpChan) (c : KpCh) : k.portCode c none = none := by
  unfold KpChan.portCode
  split <;> rfl

/-- A measurement at or below the ramp's limit before its end lets the run-down go on. -/
theorem State.srdTick_within {s : State} {c : KpCh} {e v : Nat} (he : (s.ch c).srd.e0 = some e)
    (hv : v ≤ e - (s.ch c).srd.seff * ((s.ch c).srd.t0 * (s.ch c).tKs) / 1000 + (s.ch c).bandB)
    (ht : (s.ch c).srd.t0 * (s.ch c).tKs < (s.ch c).srd.tEnd) :
    s.srdTick c (some v) = s.updCh c fun k => { k with srd := { k.srd with t0 := (s.ch c).srd.t0 + 1, above := false } } := by
  unfold State.srdTick
  simp only [he, Option.getD_some, decide_eq_false (Nat.not_lt.mpr hv), Bool.false_and, Bool.false_eq_true, if_false, Nat.not_le.mpr ht]

/-- A missing measurement after one above the ramp or another missing one is the second in a row: the run-down ends (R422). -/
theorem State.srdTick_missing {s : State} {c : KpCh} (h : (s.ch c).srd.above = true) :
    ∃ u : State, s.srdTick c none = u.endSrd c 0x4202 ∧ (u.ch c).srd.octs = (s.ch c).srd.octs := by
  refine ⟨s.updCh c fun k => { k with srd := { k.srd with t0 := (s.ch c).srd.t0 + 1, above := true } }, ?_, by rw [State.updCh_ch]⟩
  unfold State.srdTick
  simp only [h, Bool.and_self, if_true]

/-- A run-down that ends puts its octads in SBK for its cause (R423). -/
theorem State.endSrd_spec (s : State) (c : KpCh) (code : Nat) :
    ((s.endSrd c code).ch c).srd.running = false ∧ ((s.endSrd c code).ch c).srd.ended = true
      ∧ ∀ n < 8, (s.ch c).srd.octs.getLsbD n = true →
        (((s.endSrd c code).ch c).loops.get n).causes.srd = true ∧ (((s.endSrd c code).ch c).loops.get n).sbk = true := by
  unfold State.endSrd
  extract_lets octs u
  have hu : u.ch c = _ := s.updCh_ch c _
  have hloops := u.applyLoops_driven c
  have houts := ((u.applyLoops c).updCh c KpChan.latchAll).applyOuts_driven c
  rw [State.updCh_ch] at houts
  have hstop : (u.ch c).srd.running = false := by rw [hu]
  rw [State.post_ch, houts.srd, houts.loops, KpChan.latchAll_srd, hloops.srd hstop]
  refine ⟨hstop, by rw [hu], fun n hn ho => ?_⟩
  have hsrd : (((u.applyLoops c).ch c).loops.get n).causes.srd = true := by
    rw [hloops.causes, hu, get_forTab, if_pos hn, if_pos ho]
  rw [KpChan.latchAll_loop, if_pos hn]
  refine ⟨hsrd, ?_⟩
  show (((u.applyLoops c).ch c).loops.get n).sbk = true
  rw [hloops.sbk n hn]
  simp [SbkCauses.any, hsrd]

/-- The ramp of a first measurement of magnitude m: it falls by SLOPE, or faster so that it ends within 2 s (R422). -/
def KpChan.ramp (k : KpChan) (m : Nat) : Srd :=
  let seff := max k.slope ((m + 1999) / 2000)
  { k.srd with e0 := some m, t0 := 1, above := false, seff := seff, tEnd := (m * 1000 + seff - 1) / seff }

section
variable {ch : KpCh} {s : State} (hvkp : s.kp.vkp = true)
include hvkp

section
variable {w : Option (List (BitVec 24))} {m : Nat} (hown : (s.ch ch).own = true)
  (hform : ((s.ch ch).portCode ch w).map (fun c => srdMagnitude c ((s.ch ch).width ch)) = some m)
include hown hform

theorem exec_kpSrdMeasurement_still (hrun : (s.ch ch).srd.running = false) :
    exec (.kpSrdMeasurement ch w) s = .next (s.updCh ch fun k => { k with m := m }) := by
  simp [exec, execKpSrdMeasurement, hform, hvkp, hown, hrun]

theorem exec_kpSrdMeasurement_first (hpos : 0 < m) (hrun : (s.ch ch).srd.running = true) (he : (s.ch ch).srd.e0 = none) :
    exec (.kpSrdMeasurement ch w) s = .next (s.updCh ch fun k => { k with m := m, srd := k.ramp m }) := by
  have hend : 0 < ((s.ch ch).ramp m).tEnd := by
    have hseff : 0 < max (s.ch ch).slope ((m + 1999) / 2000) := by omega
    exact Nat.div_pos (by omega) hseff
  simp only [exec, execKpSrdMeasurement, hvkp, hown, and_self, if_true, hform, Option.getD_some, State.updCh_vkp, Bool.not_true,
    State.updCh_ch, hrun, Bool.or_self, Bool.false_eq_true, if_false, he, State.updCh_updCh]
  rw [State.srdTick_within (e := m)]
  · rw [State.updCh_updCh, State.updCh_ch]
    exact congrArg _ (State.updCh_congr rfl)
  · rw [State.updCh_ch]
  · rw [State.updCh_ch, Nat.zero_mul, Nat.mul_zero, Nat.zero_div, Nat.sub_zero]
    exact Nat.le_add_right ..
  · rw [State.updCh_ch, Nat.zero_mul]
    exact hend

end

theorem exec_kpSrdMeasurement_missing (hrun : (s.ch ch).srd.running = true) (habove : (s.ch ch).srd.above = true) :
    ∃ u : State, exec (.kpSrdMeasurement ch none) s = .next (u.endSrd ch 0x4202) ∧ (u.ch ch).srd.octs = (s.ch ch).srd.octs := by
  simp only [exec, execKpSrdMeasurement, KpChan.portCode_none, Option.map_none]
  generalize hu : (if s.kp.vkp = true ∧ (s.ch ch).own = true then s.updCh ch fun k => { k with m := Option.getD none k.m } else s) = u
  have hvkp : u.kp.vkp = true := by rw [← hu]; split <;> simp [hvkp]
  have hsrd : (u.ch ch).srd = (s.ch ch).srd := by rw [← hu]; split <;> simp
  rw [← hsrd] at hrun habove ⊢
  cases (u.ch ch).srd.e0 with
  | none => exact ⟨u, by simp [hvkp, hrun, habove], rfl⟩
  | some e =>
    obtain ⟨v, hv, hocts⟩ := State.srdTick_missing habove
    exact ⟨v, by simp [hvkp, hrun, hv], hocts⟩

end

/-! ### Breaker feedback and dark pulses (R425 to R428) -/

/-- An output that is tripped by a cause of its own, as KP_FB_TIMEOUT and KP_TEST_FAIL trip one. -/
def State.tripOut (s : State) (c : KpCh) (n : Nat) (f : TripCauses → TripCauses) : State :=
  (s.updCh c fun k => { k with outs := k.outs.upd n fun x => { x with causes := f x.causes } }).applyOuts c

section
variable {s : State} {c : KpCh} {n : Nat} {f : TripCauses → TripCauses}

theorem State.tripOut_causes : (((s.tripOut c n f).ch c).outs.get n).causes = f (((s.ch c).outs.get n).causes) := by
  rw [State.tripOut, (State.applyOuts_driven ..).causes, State.updCh_ch, Tab.get_upd_same]

theorem State.tripOut_tripAt (hn : n < 8) (hf : ∀ x, (f x).any = true) : (((s.tripOut c n f).ch c).outs.get n).tripAt.isSome = true := by
  have h := (s.updCh c fun k => { k with outs := k.outs.upd n fun x => { x with causes := f x.causes } }).applyOuts_driven c
  rw [State.tripOut, h.trip n hn, h.causes, State.updCh_ch, Tab.get_upd_same, hf]

theorem State.tripOut_ch_other : (s.tripOut c n f).ch (kpOther c) = s.ch (kpOther c) := by
  rw [State.tripOut, State.applyOuts_ch_other, State.updCh_ch_other]

theorem State.tripOut_testFail (d : KpCh) (m : Nat) :
    (((s.tripOut c n f).ch d).outs.get m).testFail = ((s.ch d).outs.get m).testFail := by
  rcases eq_or_eq_kpOther c d with rfl | rfl
  · rw [State.tripOut, (State.applyOuts_driven ..).testFail, State.updCh_ch, Tab.get_upd]
    split
    · rename_i e; rw [e]
    · rfl
  · rw [State.tripOut_ch_other]

end

/-- One half of an output trips for a failed test. -/
def State.failTest (s : State) (c : KpCh) (n : Nat) : State := s.tripOut c n fun a => { a with test := true }

theorem State.failTest_own (s : State) (c : KpCh) {n : Nat} (hn : n < 8) :
    (((s.failTest c n).ch c).outs.get n).causes.test = true ∧ (((s.failTest c n).ch c).outs.get n).tripAt.isSome = true :=
  ⟨by rw [State.failTest, State.tripOut_causes], State.tripOut_tripAt hn fun _ => by simp [TripCauses.any]⟩

theorem State.failTest_both (s : State) {n : Nat} (hn : n < 8) (c : KpCh) :
    ((((s.failTest .a n).failTest .b n).ch c).outs.get n).causes.test = true
      ∧ ((((s.failTest .a n).failTest .b n).ch c).outs.get n).tripAt.isSome = true := by
  have ha := s.failTest_own .a hn
  generalize s.failTest .a n = u at ha ⊢
  cases c with
  | a =>
    have hkept : (u.failTest .b n).ch .a = u.ch .a := State.tripOut_ch_other (c := .b)
    rwa [hkept]
  | b => exact u.failTest_own .b hn

section
variable {ch : KpCh} {o : Fin 8} {s : State} (hvkp : s.kp.vkp = true)
include hvkp

theorem exec_kpFbTimeout_late {x : Nat} (hen : (s.ch ch).outEn o = true) (htrip : ((s.ch ch).outs.get o).tripAt = some x)
    (hopen : ((s.ch ch).outs.get o).fbOpen = false) (hto : ((s.ch ch).outs.get o).fbTo = false)
    (hdue : x + (s.ch ch).tFb o ≤ (s.ch ch).time) :
    ∃ u : State, (((u.ch ch).outs.get o).fbTo = true)
      ∧ exec (.kpFbTimeout ch o) s
        = .next (if (s.ch ch).backup o = 15 then u else u.tripOut ch ((s.ch ch).backup o) fun a => { a with backup := true }) := by
  refine ⟨(s.updCh ch fun k => { k with outs := k.outs.upd o fun x => { x with fbTo := true, fbOpen := false } }).post ch 0x4402 o,
    by simp, ?_⟩
  simp [exec, execKpFbTimeout, htrip, hopen, hto, hen, hvkp, hdue, State.tripOut]

theorem exec_darkPulseStart_due (hen : (s.ch ch).outEn o = true) (hhigh : ((s.ch ch).outs.get o).high = true)
    (hclear : ((s.ch ch).outs.get o).causes.any = false) (hdark : ((s.ch ch).outs.get o).dark = none)
    (hdue : ((s.ch ch).outs.get o).darkNext ≤ (s.ch ch).time) :
    exec (.darkPulseStart ch o) s = .next (s.updCh ch fun k => { k with outs := k.outs.upd o fun x => { x with
      high := false, dark := some k.time, darkLow := false, cmdAt := k.time, darkNext := k.darkAfter o x } }) := by
  simp [exec, execDarkPulseStart, hen, hvkp, hhigh, hclear, hdark, hdue]

/-- Both halves trip the output (R427). -/
theorem exec_kpTestFail_over {x : Nat} (hdark : ((s.ch ch).outs.get o).dark = some x) (hlow : ((s.ch ch).outs.get o).darkLow = false)
    (hover : 10 * x + (s.ch ch).tpWid o ≤ 10 * (s.ch ch).time) :
    ∃ t, exec (.kpTestFail ch o) s = .next t ∧ ((t.ch ch).outs.get o).testFail = true
      ∧ ∀ c, ((t.ch c).outs.get o).causes.test = true ∧ ((t.ch c).outs.get o).tripAt.isSome = true := by
  let u := s.updCh ch fun k => { k with outs := k.outs.upd o fun x => { x with testFail := true, dark := none } }
  refine ⟨((u.failTest .a o).failTest .b o).post ch 0x4501 o, ?_, ?_, fun c => ?_⟩
  · simp [exec, execKpTestFail, hvkp, hdark, hlow, hover, darkOver, State.failTest, State.tripOut, u]
  · rw [State.post_ch, State.failTest, State.failTest, State.tripOut_testFail, State.tripOut_testFail, State.updCh_ch, Tab.get_upd_same]
  · rw [State.post_ch]
    exact u.failTest_both o.isLt c

end

/-! ### Parameters (R412, R413) -/

theorem exec_kpParamReject_late {s : State} (hvkp : s.kp.vkp = true)
    (hnew : s.kp.a.newParams.isSome = true ∨ s.kp.b.newParams.isSome = true) (ha : s.kp.a.srd.running = false)
    (hb : s.kp.b.srd.running = false) (hdue : s.kp.deliveredAt + 100 ≤ s.kp.a.time) :
    ∃ t, exec .kpParamReject s = .next t ∧ RaiseFrame { s with kp := { s.kp with
      a := { s.kp.a with newParams := none }, b := { s.kp.b with newParams := none }, paramOk := false } } t := by
  have hone : (s.kp.a.newParams.isNone && s.kp.b.newParams.isNone) = false := by
    rcases hnew with h | h <;> simp [← Option.not_isSome, h]
  simp only [exec, execKpParamReject, hvkp, hone, ha, hb, Nat.not_lt.mpr hdue, decide_false, Bool.not_true, Bool.or_self,
    Bool.false_eq_true, if_false]
  refine ⟨_, rfl, ?_⟩
  split
  · exact State.raise_frame ..
  · exact .refl _

theorem RaiseFrame.paramOk_eq {s t : State} (h : RaiseFrame s t) : t.kp.paramOk = s.kp.paramOk :=
  (congrArg (fun u => u.kp.paramOk) h.core : t.core.kp.paramOk = s.core.kp.paramOk)

theorem exec_kpParamApply_held {b : List Byte} {s : State} (hvkp : s.kp.vkp = true) (ha : s.kp.a.newParams = some b)
    (hb : s.kp.b.newParams = some b) (hok : kpBlockOk b = true) (hra : s.kp.a.srd.running = false) (hrb : s.kp.b.srd.running = false)
    (hsa : s.kp.a.newSeen = true) (hsb : s.kp.b.newSeen = true) (hin : s.kp.a.time < s.kp.deliveredAt + 100) :
    ∃ own, exec .kpParamApply s = .next { s with kp := { s.kp with
      a := s.kp.a.takeParams .a own, b := s.kp.b.takeParams .b own, paramOk := true } } :=
  ⟨s.fld 0x304060 30 1 == 1 && s.fld 0x304070 30 1 == 1, by
    simp only [exec, execKpParamApply, hvkp, ha, hb, hok, hra, hrb, hsa, hsb, Nat.not_le.mpr hin, decide_false, Bool.not_true,
      bne_self_eq_false, Bool.or_self, Bool.false_eq_true, if_false]⟩

theorem exec_kpParamApply_waits {s : State}
    (h : s.kp.deliveredAt + 100 ≤ s.kp.a.time ∨ s.kp.a.newSeen = false ∨ s.kp.b.newSeen = false) : exec .kpParamApply s = .next s := by
  simp only [exec, execKpParamApply]
  split
  · rw [if_pos (by rcases h with h | h | h <;> simp [h])]
  · rfl

/-! ### VKP (R431) and the view (R556) -/

/-- A field put at or above bit j leaves the bits below j. -/
theorem putField_mod {w lo len v j : Nat} (h : j ≤ lo) : putField w lo len v % 2 ^ j = w % 2 ^ j := by
  obtain ⟨i, rfl⟩ := Nat.exists_eq_add_of_le h
  have hle : field w (j + i) len * 2 ^ (j + i) ≤ w :=
    (Nat.mul_le_mul_right _ (Nat.mod_le ..)).trans (Nat.div_mul_le_self ..)
  have hbits : ∀ y, y * 2 ^ (j + i) = 2 ^ j * (y * 2 ^ i) := fun y => by rw [Nat.pow_add, Nat.mul_left_comm]
  rw [putField, hbits, hbits, Nat.add_mul_mod_self_left, Nat.sub_mul_mod (hbits _ ▸ hle)]

theorem State.view_kpStat (s : State) (r : RegRef) (h : r.df.name = .kpStat) : s.view r = s.viewKp r := by
  simp [State.view, State.viewDev, State.viewHif, State.viewFlt, State.viewTs, State.viewClk, State.viewBel, State.viewPset, State.viewOct,
    State.viewEng, State.viewLane, h]

theorem regAt_kpStat : (regAt 0x600000).map (·.df.name) = some .kpStat := by decide

/-- The low bits of KP_STAT are the RUN bits of the channels. -/
theorem State.readBar0_kpStat (s : State) :
    (s.readBar0 0x600000).toNat % 2 ^ 2 = bit s.kp.a.running + 2 * bit s.kp.b.running := by
  obtain ⟨r, hr, hname⟩ := Option.map_eq_some_iff.mp regAt_kpStat
  have himg : inImage 0x600000 = false := by decide
  simp only [State.readBar0, himg, hr, State.view_kpStat s r hname, State.viewKp, hname, putView, Bool.false_eq_true, if_false,
    List.foldl_cons, List.foldl_nil, BitVec.toNat_ofNat]
  rw [Nat.mod_mod_of_dvd _ (by decide)]
  simp only [putField_mod, Nat.le_refl, Nat.reduceLeDiff]
  cases s.kp.a.running <;> cases s.kp.b.running <;>
    (simp only [bit, putField, field, Bool.false_eq_true, if_true, if_false]; omega)

theorem getLsbD_eq_testBit_mod {w : Word} {i j : Nat} (h : i < j) : w.getLsbD i = (w.toNat % 2 ^ j).testBit i := by
  simp only [Nat.testBit_mod_two_pow, h, decide_true, Bool.true_and, BitVec.testBit_toNat]

theorem State.readBar0_runA (s : State) : (s.readBar0 0x600000).getLsbD 0 = s.kp.a.running := by
  rw [getLsbD_eq_testBit_mod (show 0 < 2 by decide), State.readBar0_kpStat]
  cases s.kp.a.running <;> cases s.kp.b.running <;> rfl

theorem State.readBar0_runB (s : State) : (s.readBar0 0x600000).getLsbD 1 = s.kp.b.running := by
  rw [getLsbD_eq_testBit_mod (show 1 < 2 by decide), State.readBar0_kpStat]
  cases s.kp.a.running <;> cases s.kp.b.running <;> rfl

/-- A channel whose output stages have fallen to their safe levels without logic action (R431). -/
structure FallenSafe (k k' : KpChan) : Prop where
  running : k'.running = false
  loop : ∀ n < 8, (k'.loops.get n).enabled = false ∧ (k'.loops.get n).causes = (k.loops.get n).causes
  out : ∀ n < 8, (k'.outs.get n).high = false ∧ (k'.outs.get n).causes = (k.outs.get n).causes

theorem exec_vkpOutOfRange (s : State) :
    ∃ a b, exec .vkpOutOfRange s = .next { s with kp := { s.kp with vkp := false, a := a, b := b } }
      ∧ FallenSafe s.kp.a a ∧ FallenSafe s.kp.b b := by
  have hsafe : ∀ k : KpChan, FallenSafe k { k with
      running := false, goodSince := none, loops := forTab 8 k.loops fun _ x => { x with enabled := false },
      outs := forTab 8 k.outs fun _ x => { x with high := false, dark := none } } := fun k =>
    ⟨rfl, fun n hn => by simp only [get_forTab, if_pos hn, and_self], fun n hn => by simp only [get_forTab, if_pos hn, and_self]⟩
  exact ⟨_, _, rfl, hsafe _, hsafe _⟩

theorem exec_vkpInRange_unset {s : State} (hvkp : s.kp.vkp = false) (h : (s.alive && s.ps.image.isSome) = false) :
    exec .vkpInRange s = .next { s with kp := { Kingpost.init with vkp := true }, flt := { s.flt with fallback := false } } := by
  have hdeliver : ∀ (kp : Kingpost) (flt : Collector), ({ s with kp := kp, flt := flt }.alive && s.ps.image.isSome) = false := fun _ _ => h
  simp only [exec, execVkpInRange, hvkp, hdeliver, Bool.false_eq_true, if_false]

/-! ### The main device acts on the view (R420) -/

/-- Octads that a step treats each by its own number come out as that step leaves them. -/
theorem forNat_oct {f : Nat → State → State} (hkp : ∀ n s, (f n s).kp = s.kp) (hne : ∀ n m s, m ≠ n → (f n s).oct m = s.oct m)
    (k : Nat) (s : State) : (forNat k f s).kp = s.kp ∧ (∀ n, k ≤ n → (forNat k f s).oct n = s.oct n)
      ∧ ∀ n < k, ∃ u : State, u.kp = s.kp ∧ u.oct n = s.oct n ∧ (forNat k f s).oct n = (f n u).oct n := by
  induction k with
  | zero => exact ⟨rfl, fun _ _ => rfl, fun _ h => absurd h (Nat.not_lt_zero _)⟩
  | succ k ih =>
    obtain ⟨ihkp, ihabove, ihbelow⟩ := ih
    refine ⟨(hkp _ _).trans ihkp, fun n hn => (hne _ _ _ (by omega)).trans (ihabove n (by omega)), fun n hn => ?_⟩
    rcases Nat.lt_succ_iff_lt_or_eq.mp hn with hn | rfl
    · obtain ⟨u, hu, ho, he⟩ := ihbelow n hn
      exact ⟨u, hu, ho, (hne _ _ _ (by omega)).trans he⟩
    · exact ⟨_, ihkp, ihabove n (Nat.le_refl n), rfl⟩

theorem State.haltSelection_kp (s : State) (n : Nat) : (s.haltSelection n).kp = s.kp := by
  simp only [State.haltSelection, State.discardWindow, State.updOct_kp, State.mapOctCells_kp]
  split
  · rw [State.flag_kp, State.mapOctCells_kp]
  · rw [State.mapOctCells_kp]

theorem State.toBlocked_kp (s : State) (n : Nat) : (s.toBlocked n).kp = s.kp := by
  have hblock : (s.immediateBlock n).kp = s.kp := by
    unfold State.immediateBlock
    rw [(s.abortLanes_spec n 0).1, State.updOct_kp]
  have hsettle : ∀ u : State, u.settleDev.kp = u.kp := fun u => by
    unfold State.settleDev
    split <;> rfl
  unfold State.toBlocked
  dsimp only
  split
  · rw [hsettle, State.updOct_kp, State.haltSelection_kp, hblock]
  · split
    · rw [State.updOct_kp, hblock]
    · exact hblock

theorem State.enterRundown_kp (s : State) (n : Nat) : (s.enterRundown n).kp = s.kp := by
  unfold State.enterRundown
  dsimp only
  split
  · split <;> rfl
  · rfl

theorem State.enterRundown_oct_ne {s : State} {n m : Nat} (h : m ≠ n) : (s.enterRundown n).oct m = s.oct m := by
  have hupd : ∀ f, (s.updOct n f).oct m = s.oct m := fun f => Tab.get_upd_ne _ h _
  unfold State.enterRundown
  dsimp only
  split
  · split
    · exact hupd _
    · exact hupd _
  · rfl

theorem State.enterRundown_running {s : State} {n : Nat} (h : (s.oct n).state = .running) :
    ((s.enterRundown n).oct n).state = .rundown := by
  unfold State.enterRundown
  rw [if_pos (.inr h)]
  dsimp only
  split
  · exact congrArg Octad.state (Tab.get_upd_same ..)
  · exact congrArg Octad.state (Tab.get_upd_same ..)

/-- Whether the safe run-down of either channel covers octad n. -/
def Kingpost.runsDown (k : Kingpost) (n : Nat) : Bool :=
  (k.a.srd.running && k.a.srd.octs.getLsbD n) || (k.b.srd.running && k.b.srd.octs.getLsbD n)

/-- What the main device does with one octad. -/
def State.viewStep (n : Nat) (s : State) : State :=
  if s.loopDisabled n then (if (s.oct n).state.active then s.toBlocked n else s)
  else if s.kp.runsDown n then s.enterRundown n
  else s

theorem exec_kingpostViewAction {s : State} (h : s.alive = true) : exec .kingpostViewAction s = .next (forNat 8 State.viewStep s) := by
  simp only [exec, execKingpostViewAction, h, Bool.not_true, Bool.false_eq_true, if_false]
  rfl

theorem State.viewStep_kp (n : Nat) (s : State) : (s.viewStep n).kp = s.kp := by
  unfold State.viewStep
  split
  · split
    · exact s.toBlocked_kp n
    · rfl
  · split
    · exact s.enterRundown_kp n
    · rfl

theorem State.viewStep_oct_ne (n m : Nat) (s : State) (h : m ≠ n) : (s.viewStep n).oct m = s.oct m := by
  unfold State.viewStep
  split
  · split
    · rename_i ha
      exact (State.toBlocked_oct ha).2 m h
    · rfl
  · split
    · exact State.enterRundown_oct_ne h
    · rfl

theorem State.loopDisabled_congr {s u : State} (h : u.kp = s.kp) (n : Nat) : u.loopDisabled n = s.loopDisabled n := by
  simp only [State.loopDisabled, State.kpDown, h]

section
variable {s : State} {n : Nat} (hn : n < 8)
include hn

/-- Each octad comes out as its own step leaves it, in a state with the same view. -/
theorem State.viewSteps_oct :
    ∃ u : State, u.kp = s.kp ∧ u.oct n = s.oct n ∧ (forNat 8 State.viewStep s).oct n = (u.viewStep n).oct n :=
  (forNat_oct State.viewStep_kp State.viewStep_oct_ne 8 s).2.2 n hn

theorem State.viewSteps_blocks (h : s.loopDisabled n = true) (ha : (s.oct n).state.active = true) :
    ((forNat 8 State.viewStep s).oct n).state = .blocked := by
  obtain ⟨u, hu, ho, he⟩ := State.viewSteps_oct (s := s) hn
  rw [← ho] at ha
  rw [he, State.viewStep, State.loopDisabled_congr hu, if_pos h, if_pos ha]
  exact (State.toBlocked_oct ha).1

theorem State.viewSteps_runsDown (h : s.loopDisabled n = false) (hd : s.kp.runsDown n = true) (hr : (s.oct n).state = .running) :
    ((forNat 8 State.viewStep s).oct n).state = .rundown := by
  obtain ⟨u, hu, ho, he⟩ := State.viewSteps_oct (s := s) hn
  rw [he, State.viewStep, State.loopDisabled_congr hu, h, hu, hd, if_neg Bool.false_ne_true, if_pos rfl]
  exact State.enterRundown_running (ho ▸ hr)

theorem State.viewSteps_idle (h : s.loopDisabled n = false) (hd : s.kp.runsDown n = false) :
    (forNat 8 State.viewStep s).oct n = s.oct n := by
  obtain ⟨u, hu, ho, he⟩ := State.viewSteps_oct (s := s) hn
  rw [he, State.viewStep, State.loopDisabled_congr hu, h, hu, hd, if_neg Bool.false_ne_true, if_neg Bool.false_ne_true, ho]

end

/-! ### The obligation -/

/-- Settles O54, clause by clause: the channels after each command are those that the operations above have driven. -/
theorem kingpostDrivesItsOutputs : Obligations.KingpostDrivesItsOutputs := by
  unfold Obligations.KingpostDrivesItsOutputs
  refine ⟨?_, ?_, ?_, ?_, ?_, ?_, ?_, ?_, ?_, ?_, ?_⟩
  · intro ch ws c m s hvkp hown hcode hm hpos
    have hform : ((s.ch ch).portCode ch (some ws)).map (fun c => srdMagnitude c ((s.ch ch).width ch)) = some m := by rw [hcode, hm]; rfl
    refine ⟨exec_kpSrdMeasurement_still hvkp hown hform, fun hrun he => ⟨_, exec_kpSrdMeasurement_first hvkp hown hform hpos hrun he, ?_⟩⟩
    simp only [State.updCh_ch, State.updCh_ch_other, KpChan.ramp, hrun, true_and]
    exact State.updCh_eq ..
  · intro ch s hvkp hrun habove
    obtain ⟨u, hexec, hocts⟩ := exec_kpSrdMeasurement_missing hvkp hrun habove
    exact ⟨_, hexec, hocts ▸ u.endSrd_spec ch 0x4202⟩
  · intro ch o x s hvkp hen htrip hopen hto hdue
    obtain ⟨u, hlate, hexec⟩ := exec_kpFbTimeout_late hvkp hen htrip hopen hto hdue
    refine ⟨_, hexec, fun hb => by rwa [if_pos hb], fun b hb8 hb => ?_⟩
    rw [if_neg (by omega), hb]
    exact ⟨by rw [State.tripOut_causes], State.tripOut_tripAt hb8 fun _ => by simp [TripCauses.any]⟩
  · intro ch o s hvkp hen hhigh hclear hdark hdue
    refine ⟨_, exec_darkPulseStart_due hvkp hen hhigh hclear hdark hdue, ?_⟩
    simp only [State.updCh_ch, State.updCh_ch_other, Tab.get_upd_same, true_and]
    exact ⟨fun m hm => Tab.get_upd_ne _ hm _, State.updCh_eq ..⟩
  · intro ch o x s hvkp hdark hlow hover
    obtain ⟨t, hexec, hfail, htrip⟩ := exec_kpTestFail_over hvkp hdark hlow hover
    exact ⟨t, hexec, hfail, (htrip .a).1, (htrip .b).1, (htrip .a).2, (htrip .b).2⟩
  · intro b s hvkp ha hb hok hra hrb hsa hsb hin
    obtain ⟨own, hexec⟩ := exec_kpParamApply_held hvkp ha hb hok hra hrb hsa hsb hin
    refine ⟨_, hexec, ?_⟩
    simp only [KpChan.takeParams, ha, hb, and_self]
  · intro s hvkp hnew ha hb hdue
    obtain ⟨t, hexec, hframe⟩ := exec_kpParamReject_late hvkp hnew ha hb hdue
    refine ⟨t, hexec, ?_⟩
    rw [hframe.kpA_eq, hframe.kpB_eq, hframe.paramOk_eq]
    exact ⟨rfl, rfl, rfl, rfl, rfl⟩
  · exact fun s => exec_kpParamApply_waits
  · intro s
    obtain ⟨a, b, hexec, ha, hb⟩ := exec_vkpOutOfRange s
    refine ⟨_, hexec, rfl, ha.running, hb.running, fun n hn => ?_, fun n ch => ⟨?_, rfl⟩, ?_, ?_, rfl⟩
    · obtain ⟨hla, hca⟩ := ha.loop n hn
      obtain ⟨hlb, hcb⟩ := hb.loop n hn
      obtain ⟨hoa, hta⟩ := ha.out n hn
      obtain ⟨hob, htb⟩ := hb.out n hn
      exact ⟨hla, hlb, hoa, hob, hca, hcb, hta, htb⟩
    · simp only [State.loopDisabled, State.kpDown, ha.running, hb.running, Bool.not_false, Bool.and_self, Bool.true_or]
    · rw [State.readBar0_runA]
      exact ha.running
    · rw [State.readBar0_runB]
      exact hb.running
  · exact fun s => exec_vkpInRange_unset
  · intro s halive hrun
    have hboth : ∀ {n}, (s.kp.a.loops.get n).enabled = true → (s.kp.b.loops.get n).enabled = true → s.loopDisabled n = false :=
      fun ha hb => by rcases hrun with h | h <;> simp [State.loopDisabled, State.kpDown, h, ha, hb]
    refine ⟨_, exec_kingpostViewAction halive, fun n hn hoff hact => ?_, fun n hn ha hb hsrd hocts hst => ?_,
      fun n hn ha hb hsa hsb => ?_, (forNat_oct State.viewStep_kp State.viewStep_oct_ne 8 s).1⟩
    · exact State.viewSteps_blocks hn (by simp [State.loopDisabled, hoff]) hact
    · exact State.viewSteps_runsDown hn (hboth ha hb) (by simp [Kingpost.runsDown, hsrd, hocts]) hst
    · rw [State.viewSteps_idle hn (hboth ha hb) (by simp [Kingpost.runsDown, hsa, hsb])]

end Sys2Proof.Machine
end

section
/-! SUPPORT. Hop points (R465): N + F/2^24 counted in steps of 2^-24, so that what the rule says of the ratio and of the frequency, which are
rationals, is what the model says of natural numbers. -/

namespace Sys2Proof.Machine

/-- The ratio N + F/2^24 in steps of 2^-24. -/
def hopSteps (n f : Nat) : Nat := n * 2 ^ 24 + f

theorem hopRatio_eq_steps (n f : Nat) : (n + f / 2 ^ 24 : Rat) = hopSteps n f / 2 ^ 24 := by
  rw [hopSteps, Nat.cast_add, Nat.cast_mul, Nat.cast_pow, Nat.cast_ofNat, add_div, mul_div_cancel_right₀ _ (by norm_num)]

theorem hopValid_iff_steps (n f p : Nat) :
    hopValid n f p = true ↔ 128 * 2 ^ 24 ≤ hopSteps n f ∧ hopSteps n f ≤ 160 * 2 ^ 24 ∧ p % 2 = 0 ∧ 8 ≤ p ∧ p ≤ 40
      ∧ (hopSteps n f = 4 * p * 2 ^ 24 ∨ 104 * p * 2 ^ 24 ≤ 25 * hopSteps n f ∧ hopSteps n f ≤ 16 * p * 2 ^ 24) := by
  simp only [hopValid, hopSteps, Bool.and_eq_true, Bool.or_eq_true, decide_eq_true_eq, beq_iff_eq, and_assoc]

/-! ### A ratio of `k` steps, and the frequency 25 MHz × `k` / 2^24 / `p`, against whole numbers -/

theorem le_hopRatio_iff (a k : Nat) : (a : Rat) ≤ k / 2 ^ 24 ↔ a * 2 ^ 24 ≤ k := by
  rw [le_div_iff₀ (by positivity)]
  exact_mod_cast Iff.rfl

theorem hopRatio_le_iff (k b : Nat) : (k / 2 ^ 24 : Rat) ≤ b ↔ k ≤ b * 2 ^ 24 := by
  rw [div_le_iff₀ (by positivity)]
  exact_mod_cast Iff.rfl

theorem hopFreq_eq_div (k p : Nat) : 25 * (k / 2 ^ 24 : Rat) / p = (25 * k : Nat) / (p * 2 ^ 24 : Nat) := by
  push_cast
  ring

section
variable {p : Nat} (hp : 0 < p)
include hp

theorem hopFreq_denom_pos : (0 : Rat) < (p * 2 ^ 24 : Nat) := Nat.cast_pos.2 (Nat.mul_pos hp (by decide))

theorem le_hopFreq_iff (a k : Nat) : (a : Rat) ≤ 25 * (k / 2 ^ 24) / p ↔ a * (p * 2 ^ 24) ≤ 25 * k := by
  rw [hopFreq_eq_div, le_div_iff₀ (hopFreq_denom_pos hp), ← Nat.cast_mul, Nat.cast_le]

theorem hopFreq_le_iff (k b : Nat) : 25 * (k / 2 ^ 24 : Rat) / p ≤ b ↔ 25 * k ≤ b * (p * 2 ^ 24) := by
  rw [hopFreq_eq_div, div_le_iff₀ (hopFreq_denom_pos hp), ← Nat.cast_mul, Nat.cast_le]

/-- 100 MHz, or 104 MHz to 400 MHz. -/
theorem hopFreq_allowed_iff (k : Nat) :
    (25 * (k / 2 ^ 24 : Rat) / p = 100 ∨ 104 ≤ 25 * (k / 2 ^ 24 : Rat) / p ∧ 25 * (k / 2 ^ 24 : Rat) / p ≤ 400)
      ↔ k = 4 * p * 2 ^ 24 ∨ 104 * p * 2 ^ 24 ≤ 25 * k ∧ k ≤ 16 * p * 2 ^ 24 := by
  have hge100 := le_hopFreq_iff hp 100 k
  have hle100 := hopFreq_le_iff hp k 100
  have hge104 := le_hopFreq_iff hp 104 k
  have hle400 := hopFreq_le_iff hp k 400
  push_cast at hge100 hle100 hge104 hle400
  rw [le_antisymm_iff, hge100, hle100, hge104, hle400]
  omega

end

/-! ### What R465 says of a point, and how long a core cycle lasts -/

theorem hopValid_iff {n f p : Nat} {m : Rat} (hm : m = n + f / 2 ^ 24) :
    hopValid n f p = true ↔ 128 ≤ m ∧ m ≤ 160 ∧ p % 2 = 0 ∧ 8 ≤ p ∧ p ≤ 40
      ∧ (25 * m / p = 100 ∨ 104 ≤ 25 * m / p ∧ 25 * m / p ≤ 400) := by
  have hlow := le_hopRatio_iff 128 (hopSteps n f)
  have hhigh := hopRatio_le_iff (hopSteps n f) 160
  push_cast at hlow hhigh
  rw [hopValid_iff_steps, hm, hopRatio_eq_steps, hlow, hhigh]
  refine and_congr_right fun _ => and_congr_right fun _ => and_congr_right fun _ => and_congr_right fun h8 => and_congr_right fun _ => ?_
  exact (hopFreq_allowed_iff (by omega) _).symm

theorem State.corePeriod_of_pll {s : State} (h : s.clk.bypassCore = none) :
    s.corePeriod = (16 * s.hopP s.clk.point * 2 ^ 24, max 1 (hopSteps (s.hopN s.clk.point) (s.hopF s.clk.point))) := by
  rw [State.corePeriod, h]
  rfl

/-- A tick is 2.5 ns: a cycle at f MHz lasts 400 / f of them. -/
theorem State.corePeriod_ticks {s : State} {m : Rat} (h : s.clk.bypassCore = none)
    (hm : m = s.hopN s.clk.point + s.hopF s.clk.point / 2 ^ 24) (hpos : 0 < m) :
    (s.corePeriod.1 : Rat) / s.corePeriod.2 = 400 / (25 * m / s.hopP s.clk.point) := by
  rw [hopRatio_eq_steps] at hm
  have hsteps : 0 < hopSteps (s.hopN s.clk.point) (s.hopF s.clk.point) := by
    rw [hm] at hpos
    exact_mod_cast (div_pos_iff_of_pos_right (by positivity)).1 hpos
  rw [State.corePeriod_of_pll h, max_eq_right hsteps, hm]
  push_cast
  field_simp
  ring

/-- Settles O50: the ratio and the frequency, counted in steps of 2^-24, lie where the model's natural numbers do. -/
theorem hopPointsRunAtTheirFrequency : Obligations.HopPointsRunAtTheirFrequency := by
  unfold Obligations.HopPointsRunAtTheirFrequency
  rintro p m f s - hm rfl
  exact ⟨hopValid_iff hm, fun hpll hpoint hpos => by subst hpoint; exact State.corePeriod_ticks hpll hm hpos⟩

end Sys2Proof.Machine
end

section
/-! SUPPORT. The plan of the next epoch (R492 to R495), its fault and the snapshots put off: they leave alone what the epoch just ended has
brought about. -/

namespace Sys2Proof.Machine

/-- The words that the energy epoch reports: EPL_EPOCH, the energy of one cell-frame, EPL_CF (R490). -/
abbrev EpochReg (a : Nat) : Prop := a = 0x401010 ∨ a = 0x401018 ∨ a = 0x40101C

/-- The words that the epoch reports stay as they are. -/
structure EpochRegsKept (s t : State) : Prop where
  reg : ∀ a, EpochReg a → t.reg a = s.reg a

namespace EpochRegsKept

theorem of_regs {s t : State} (h : t.regs = s.regs) : EpochRegsKept s t :=
  ⟨fun a _ => by rw [State.reg, State.reg, h]⟩

theorem refl (s : State) : EpochRegsKept s s := of_regs rfl

theorem trans {s t u : State} (h : EpochRegsKept s t) (k : EpochRegsKept t u) : EpochRegsKept s u :=
  ⟨fun a ha => (k.reg a ha).trans (h.reg a ha)⟩

theorem ite {s a b : State} {c : Prop} [Decidable c] (ha : EpochRegsKept s a) (hb : EpochRegsKept s b) :
    EpochRegsKept s (if c then a else b) := by split <;> assumption

theorem forNat {f : Nat → State → State} (h : ∀ i s, EpochRegsKept s (f i s)) (n : Nat) (s : State) : EpochRegsKept s (forNat n f s) :=
  forNat_induct (P := EpochRegsKept s) (fun i u hu => hu.trans (h i u)) n (refl s)

theorem foldl {α : Type} {f : State → α → State} (h : ∀ u a, EpochRegsKept u (f u a)) (l : List α) (s : State) :
    EpochRegsKept s (l.foldl f s) := by
  induction l generalizing s with
  | nil => exact refl s
  | cons a r ih => exact (h s a).trans (ih _)

/-! ### Writes of other words -/

theorem setReg (s : State) {b : Nat} (hb : ¬EpochReg b) (w : Word) : EpochRegsKept s (s.setReg b w) :=
  ⟨fun a ha => s.reg_setReg_ne (fun e : a = b => hb (e ▸ ha)) w⟩

theorem setFld (s : State) {b : Nat} (hb : ¬EpochReg b) (lo len v : Nat) : EpochRegsKept s (s.setFld b lo len v) := setReg s hb _

theorem flag (s : State) {b : Nat} (hb : ¬EpochReg b) (i : Nat) : EpochRegsKept s (s.flag b i) :=
  (setFld s hb i 1 1).trans (of_regs rfl)

theorem count (s : State) {b : Nat} (hb : ¬EpochReg b) (n : Nat) : EpochRegsKept s (s.count b n) := by
  unfold State.count State.countAt
  exact ite (setFld s hb ..) ((setFld s hb ..).trans (setFld _ hb ..))

theorem not_octad {n o : Nat} : ¬EpochReg (octBase n + o) := by simp only [octBase]; omega

theorem not_lane {l o : Nat} : ¬EpochReg (laneBase l + o) := by simp only [laneBase, tileBase, octBase]; omega

/-! ### Through the reaction to a fault -/

/-- A raise keeps the words when its code is one of 16 bits (Table 12-1). -/
def Raises (again : Nat → Nat → List Byte → State → State) : Prop :=
  ∀ code src data s, code < 0x10000 → EpochRegsKept s (again code src data s)

theorem abortEye (s : State) (l : Nat) : EpochRegsKept s (s.abortEye l) := by
  unfold State.abortEye
  refine ite ?_ (refl s)
  exact (of_regs (State.updLane_regs ..)).trans (flag _ not_lane 3)

theorem haltSelection (s : State) (n : Nat) : EpochRegsKept s (s.haltSelection n) := by
  have hdiscard (u : State) : EpochRegsKept u (u.discardWindow n) := by
    unfold State.discardWindow
    extract_lets v
    have hv : EpochRegsKept u v := ite (flag u not_octad 1) (refl u)
    exact hv.trans (of_regs rfl)
  unfold State.haltSelection
  extract_lets u v w
  have hu : EpochRegsKept s u := of_regs rfl
  exact (hu.trans (hdiscard u)).trans (of_regs rfl)

theorem forceSafe (s : State) (p : Nat → Bool) : EpochRegsKept s (s.forceSafe p) :=
  forNat (fun n u => by
    show EpochRegsKept u (if _ then _ else _)
    exact ite (of_regs rfl) (refl u)) _ _

theorem modeLeave (s : State) (e : Nat) (r : Option Nat) : EpochRegsKept s (s.modeLeave e r) := by
  unfold State.modeLeave
  split
  · exact ite (of_regs rfl) (refl s)
  · exact refl s

theorem settleDev (s : State) : EpochRegsKept s s.settleDev := by
  unfold State.settleDev
  exact ite (of_regs rfl) (refl s)

theorem immediateBlock (s : State) (n : Nat) : EpochRegsKept s (s.immediateBlock n) := by
  have h : EpochRegsKept s (s.abortLanes n 0) := forNat (fun _ u => ite (of_regs (t := u.emit _) rfl) (refl u)) _ _
  exact h.trans (of_regs (State.updOct_regs ..))

theorem fenceOctad (s : State) (n : Nat) : EpochRegsKept s (s.fenceOctad n) := by
  unfold State.fenceOctad
  refine ite (refl s) ?_
  have h := (immediateBlock s n).trans (haltSelection _ n)
  dsimp only
  have hf := h.trans (of_regs (State.updOct_regs _ n fun o => { o with state := .fenced }))
  generalize ((s.immediateBlock n).haltSelection n).updOct n _ = u at hf ⊢
  exact hf.trans ((modeLeave u n none).trans ((forceSafe _ _).trans (settleDev _)))

theorem enqueue (s : State) {r : Report} (h : r.level < 16) : EpochRegsKept s (s.enqueue r) := by
  unfold State.enqueue
  have hb : ¬EpochReg (0x200008 + 4 * r.level) := by simp only [EpochReg]; omega
  refine ite (of_regs rfl) (trans ?_ (count _ hb 1))
  exact of_regs rfl

theorem recordConsequential (s : State) (w : Window) {r : Report} (h : r.level < 16) : EpochRegsKept s (s.recordConsequential w r) :=
  (enqueue s h).trans (of_regs rfl)

theorem recordFault (s : State) (fn : Bool) (code : Nat) (cls : FClass) {r : Report} (h : r.level < 16) :
    EpochRegsKept s (s.recordFault fn code cls r) := by
  have hmerge (u : State) : EpochRegsKept u (u.mergeFallback code cls) := by
    unfold State.mergeFallback
    split
    · exact refl u
    · exact of_regs rfl
  unfold State.recordFault
  extract_lets u
  have hu : EpochRegsKept s u := ite (of_regs rfl) (refl s)
  exact ite (hu.trans (enqueue u h)) (ite (hu.trans (hmerge u)) (hu.trans (of_regs rfl)))

theorem enterActive (s : State) (code src : Nat) (cls : FClass) (cb : Byte) (fn : Bool) (mask id : Nat) :
    EpochRegsKept s (s.enterActive code src cls cb fn mask id).1 := by
  unfold State.enterActive
  dsimp only
  split
  · exact of_regs rfl
  · split <;> exact of_regs rfl

theorem losePathVia {again : Nat → Nat → List Byte → State → State} (ih : Raises again) (t code : Nat) (s : State) :
    EpochRegsKept s (State.losePathVia again t code s) := by
  unfold State.losePathVia
  refine ite (refl s) (ite (ih _ _ _ _ (by decide)) (ite ?_ (refl s)))
  exact foldl (fun u c => (of_regs (State.updCell_regs ..)).trans (ih _ _ _ _ (by decide))) _ _

theorem retireReaction {again : Nat → Nat → List Byte → State → State} (ih : Raises again) (code src id : Nat) (s : State) :
    EpochRegsKept s (s.retireReaction again code src id) := by
  unfold State.retireReaction
  split
  · refine ite (refl s) ?_
    have h1 : EpochRegsKept s (((s.laneToRetired src).windowDone (.lane src)).openWindow (.lane src) id code src (some s.now)) :=
      (abortEye s src).trans (of_regs rfl)
    have h2 := h1.trans (ite (c := code = 0x1703) (refl _) (ih 0x1703 src [] _ (by decide)))
    exact ite h2 (h2.trans (losePathVia ih _ _ _))
  · refine ite (ite (refl s) (ite ?_ (ih _ _ _ _ (by decide)))) (ite (of_regs rfl) (ite (of_regs rfl) (refl s)))
    exact ite (of_regs rfl) ((of_regs (State.updCell_regs ..)).trans (ih _ _ _ _ (by decide)))

theorem fenceReaction (s : State) (cls : FClass) (mask code src id : Nat) : EpochRegsKept s (s.fenceReaction cls mask code src id) :=
  forNat (fun n u => ite (ite (fenceOctad u n)
    ((fenceOctad u n).trans (of_regs (t := (u.fenceOctad n).openWindow (.fence n) id code src (some u.now)) rfl))) (refl u)) _ _

theorem react {again : Nat → Nat → List Byte → State → State} (ih : Raises again) (cls : FClass) (mask code src id : Nat) (s : State) :
    EpochRegsKept s (s.react again cls mask code src id) := by
  have h1 := retireReaction ih code src id s
  have h2 := h1.trans ((fenceReaction _ cls mask code src id).trans
    (of_regs (t := ((s.retireReaction again code src id).fenceReaction cls mask code src id).joinCauses mask) rfl))
  have hlock (u : State) : EpochRegsKept u (u.lockoutReaction code src id) := by
    unfold State.lockoutReaction
    extract_lets v
    refine trans ?_ (forceSafe _ _)
    exact of_regs rfl
  exact ite (refl s) (ite h1 (ite h2 (h2.trans (hlock _))))

theorem tableFault {again : Nat → Nat → List Byte → State → State} (ih : Raises again) (cls : FClass) (fn : Bool) (cb : Byte)
    (mask code src id : Nat) (s : State) : EpochRegsKept s (s.tableFault again cls fn cb mask code src id) := by
  have h := enterActive s code src cls cb fn mask id
  exact ite (ite (h.trans (ih _ _ _ _ (by decide))) h) (refl s)

theorem raiseN (fuel : Nat) : ∀ (code src : Nat) (data : List Byte) (p : Option Nat) (s : State), code < 0x10000 →
    EpochRegsKept s (raiseN fuel code src data p s) := by
  induction fuel with
  | zero => intro code src data p s _; exact refl s
  | succ fuel ih =>
    intro code src data p s hc
    have hlevel : levelOf code < 16 := by simp only [levelOf]; omega
    have hagain : Raises fun c v d u => Machine.raiseN fuel c v d none u := fun c v d u hu => ih c v d none u hu
    have h0 : EpochRegsKept s s.nextReport := of_regs rfl
    unfold Machine.raiseN
    dsimp only
    generalize s.nextReport = u at h0 ⊢
    split
    · exact h0.trans (recordConsequential _ _ hlevel)
    · exact h0.trans ((recordFault _ _ _ _ hlevel).trans ((tableFault hagain _ _ _ _ _ _ _ _).trans (react hagain _ _ _ _ _ _)))

theorem raise (s : State) {code : Nat} (hc : code < 0x10000) (src : Nat) (data : List Byte) : EpochRegsKept s (s.raise code src data) :=
  raiseN 6 code src data none s hc

end EpochRegsKept

/-! ### What the plan of the next epoch leaves alone -/

/-- What the plan, its fault and the snapshots leave alone: the set in force, time, both channels of Kingpost, the carry and the counts. -/
def State.besidePlan (s : State) :=
  (s.kp.a, s.kp.b, s.ps.image, s.ps.keys, s.ps.seq, s.time, s.staging, s.epl.carry, s.epl.counts, s.epl.epochs, s.epl.epochAt)

/-- The plan leaves the epoch's results alone. -/
structure PlanFrame (s t : State) : Prop extends EpochRegsKept s t where
  beside : t.besidePlan = s.besidePlan

namespace PlanFrame

theorem same {s t : State} (hr : t.regs = s.regs) (h : t.besidePlan = s.besidePlan) : PlanFrame s t := ⟨.of_regs hr, h⟩

theorem refl (s : State) : PlanFrame s s := same rfl rfl

theorem trans {s t u : State} (h : PlanFrame s t) (k : PlanFrame t u) : PlanFrame s u :=
  ⟨h.toEpochRegsKept.trans k.toEpochRegsKept, k.beside.trans h.beside⟩

theorem ite {s a b : State} {c : Prop} [Decidable c] (ha : PlanFrame s a) (hb : PlanFrame s b) :
    PlanFrame s (if c then a else b) := by split <;> assumption

theorem forNat {f : Nat → State → State} (h : ∀ i s, PlanFrame s (f i s)) (n : Nat) (s : State) : PlanFrame s (forNat n f s) :=
  forNat_induct (P := PlanFrame s) (fun i u hu => hu.trans (h i u)) n (refl s)

theorem foldl {α : Type} {f : State → α → State} (h : ∀ u a, PlanFrame u (f u a)) (l : List α) (s : State) :
    PlanFrame s (l.foldl f s) := by
  induction l generalizing s with
  | nil => exact refl s
  | cons a r ih => exact (h s a).trans (ih _)

theorem setReg (s : State) {b : Nat} (hb : ¬EpochReg b) (w : Word) : PlanFrame s (s.setReg b w) := ⟨.setReg s hb w, rfl⟩

/-- A change of the plan's own state. -/
theorem setEpl (s : State) {e : Epl} (hcarry : e.carry = s.epl.carry) (hcounts : e.counts = s.epl.counts) (hepochs : e.epochs = s.epl.epochs)
    (hat : e.epochAt = s.epl.epochAt) : PlanFrame s { s with epl := e } :=
  same rfl (by simp only [State.besidePlan, hcarry, hcounts, hepochs, hat])

theorem raise (s : State) {code : Nat} (hc : code < 0x10000) (src : Nat) (data : List Byte) : PlanFrame s (s.raise code src data) :=
  ⟨.raise s hc src data, (congrArg State.besidePlan (s.raise_frame code src data).core :
    (s.raise code src data).core.besidePlan = s.core.besidePlan)⟩

theorem updLane (s : State) (l : Nat) (f : Lane → Lane) : PlanFrame s (s.updLane l f) := same rfl rfl
theorem emit (s : State) (o : Output) : PlanFrame s (s.emit o) := same rfl rfl

theorem abortEye (s : State) (l : Nat) : PlanFrame s (s.abortEye l) := by
  refine ⟨.abortEye s l, ?_⟩
  unfold State.abortEye
  split <;> rfl

theorem count (s : State) {b : Nat} (hb : ¬EpochReg b) (n : Nat) : PlanFrame s (s.count b n) := by
  refine ⟨.count s hb n, ?_⟩
  unfold State.count State.countAt
  dsimp only
  split <;> rfl

/-! ### Lanes -/

theorem startStep (s : State) (l target : Nat) (p : Proc) : PlanFrame s (s.startStep l target p) :=
  ((abortEye s l).trans (updLane ..)).trans (emit ..)

theorem laneWindow (s : State) (l opener src : Nat) : PlanFrame s (s.laneWindow l opener src) := by
  unfold State.laneWindow
  exact ite (refl s) (same rfl rfl)

theorem toActive (s : State) (l : Nat) : PlanFrame s (s.toActive l) := same rfl rfl

theorem speedStep (s : State) (t : Nat) : PlanFrame s (s.speedStep t) := by
  unfold State.speedStep
  exact ite ((updLane ..).trans (startStep ..)) (refl s)

theorem checkTakeover (s : State) (t : Nat) : PlanFrame s (s.checkTakeover t) := by
  unfold State.checkTakeover
  refine ite (refl s) ?_
  dsimp only
  split
  · refine (laneWindow ..).trans (ite ?_ (startStep ..))
    exact ((toActive ..).trans (updLane ..)).trans (speedStep ..)
  · exact (laneWindow ..).trans (updLane ..)
  · exact refl s

theorem changeSpeed (s : State) (t v : Nat) : PlanFrame s (s.changeSpeed t v) := by
  unfold State.changeSpeed
  exact ite (refl s) ((updLane ..).trans (checkTakeover ..))

theorem planLane (s : State) (t : Nat) : PlanFrame s (s.planLane t) := by
  unfold State.planLane
  refine ite (refl s) ?_
  dsimp only
  split
  · exact refl s
  · refine ite (changeSpeed ..) (ite (ite (changeSpeed ..) (refl s)) ?_)
    split
    · exact changeSpeed ..
    · exact refl s

theorem makeDormant (s : State) (l : Nat) : PlanFrame s (s.makeDormant l) := by
  unfold State.makeDormant
  exact ite (refl s) ((updLane ..).trans (emit ..))

theorem wakeLane (s : State) (l : Nat) : PlanFrame s (s.wakeLane l) := by
  unfold State.wakeLane
  exact ite (refl s) (updLane ..)

/-! ### The steps of the plan -/

theorem countEpoch (s : State) : PlanFrame s s.countEpoch := by
  unfold State.countEpoch
  extract_lets e u
  have hu : PlanFrame s u := setEpl s rfl rfl rfl rfl
  exact hu.trans (forNat (fun _ v => ite (updLane ..) (ite (refl v) (updLane ..))) _ _)

theorem planSettings (s : State) : PlanFrame s s.planSettings := by
  unfold State.planSettings
  have h : PlanFrame s s.planClock := setEpl s rfl rfl rfl rfl
  exact h.trans (forNat (fun t u => planLane u t) _ _)

theorem shedLanes (l : Nat) : ∀ (s : State) (above : Int), PlanFrame s (s.shedLanes above l).1 := by
  induction l with
  | zero => exact fun s _ => refl s
  | succ l ih =>
    intro s above
    unfold State.shedLanes
    dsimp only
    split
    · have he : (s.makeDormant l).epl = s.epl := by
        unfold State.makeDormant
        dsimp only
        split <;> rfl
      have hdorm : PlanFrame (s.makeDormant l) { s.makeDormant l with epl := { s.epl with dorm := true } } :=
        setEpl _ (by rw [he]) (by rw [he]) (by rw [he]) (by rw [he])
      exact ((makeDormant s l).trans hdorm).trans (ih _ _)
    · exact ih _ _

theorem policyWake (s : State) : PlanFrame s s.policyWake :=
  forNat (fun l u => by dsimp only; exact ite (wakeLane u l) (refl u)) _ _

theorem wakeLanes (s : State) (room : Int) : PlanFrame s (s.wakeLanes room) := by
  unfold State.wakeLanes
  dsimp only
  split
  · exact setEpl s rfl rfl rfl rfl
  · have hrun : PlanFrame s { s with epl := { s.epl with fitRun := s.epl.fitRun + 1 } } := setEpl s rfl rfl rfl rfl
    exact ite (ite (hrun.trans (wakeLane ..)) hrun) (setEpl s rfl rfl rfl rfl)

theorem planLanes (s : State) (allow : Int) (rest : Nat) : PlanFrame s (s.planLanes allow rest).1 := by
  unfold State.planLanes
  split
  · exact refl s
  · split
    · exact shedLanes ..
    · exact wakeLanes ..

theorem planWork (s : State) (allow : Int) : PlanFrame s (s.planWork allow) := by
  unfold State.planWork
  extract_lets p above fresh u q v
  have hu : PlanFrame s u := setEpl s rfl rfl rfl rfl
  have hq : PlanFrame u q.1 := (policyWake u).trans (planLanes ..)
  have hv : PlanFrame q.1 v := setReg _ (by decide) _
  have h := (hu.trans hq).trans hv
  exact ite (h.trans (raise v (by decide) ..)) h

/-! ### The snapshots put off -/

theorem capture (s : State) (ring kind : Nat) (record : List Byte) : PlanFrame s (s.capture ring kind record).1 := by
  unfold State.capture
  extract_lets r u n
  have hu : PlanFrame s u := foldl (fun v o => emit v o) _ s
  clear_value u
  split
  · exact hu.trans (same rfl rfl)
  · exact refl s

theorem writeSnapshot (s : State) (n : Nat) : PlanFrame s (s.writeSnapshot n) := by
  unfold State.writeSnapshot
  dsimp only
  have ho : PlanFrame s (s.updOct n fun o => { o with snapReq := false }) := same rfl rfl
  exact ho.trans (foldl (fun u c => ite (capture ..) (count u EpochRegsKept.not_octad 1)) _ _)

theorem writeSnapshots (s : State) :
    PlanFrame s (Machine.forNat 8 (fun n u => if (u.oct n).snapReq && !u.sheds 3 then u.writeSnapshot n else u) s) :=
  forNat (fun n u => ite (writeSnapshot u n) (refl u)) 8 s

end PlanFrame

end Sys2Proof.Machine
end

section
/-! SUPPORT. The energy epoch (R490) and the calibration (R489): what they do in any state, what follows in a canonical one, and a state that
is not canonical. -/

namespace Sys2Proof.Machine

theorem State.reg_setReg_same {s : State} (h : regsCanonical s.regs) (a : Nat) (w : Word) : (s.setReg a w).reg a = w :=
  lookReg_putReg_same (List.pairwise_map.mpr h.1)

theorem regsCanonical_putReg {l : List (Nat × Word)} (h : regsCanonical l) (a : Nat) (w : Word) : regsCanonical (putReg a w l) := by
  refine ⟨pairwise_putReg h.1, fun e he => ?_⟩
  rcases mem_putReg he with ⟨rfl, hw⟩ | he
  · exact hw
  · exact h.2 e he

/-- The energy of an epoch: that of the measured rails, and that of the counted events of group OTHER. -/
def State.epochEnergy (s : State) (cs : List Nat) (core sram ser : BitVec 64) : Nat :=
  pj * core.toNat + pj * sram.toNat + pj * ser.toNat + s.groupEnergy cs 3

/-- The carry after an epoch (R490). -/
def State.nextCarry (s : State) (act : Nat) : Int :=
  clampI (-s.bucketEnergy) s.bucketEnergy (s.epl.carry + s.budgetEnergy - act)

theorem State.bucketEnergy_congr {s u : State} (h : u.reg 0x401000 = s.reg 0x401000) : u.bucketEnergy = s.bucketEnergy := by
  simp only [State.bucketEnergy, State.fld, h]

theorem State.budgetEnergy_congr {s u : State} (h : u.reg 0x401000 = s.reg 0x401000) : u.budgetEnergy = s.budgetEnergy := by
  simp only [State.budgetEnergy, State.fld, h]

/-- The words that an epoch reports, written: its energy, its cell-frames, the energy of one. -/
def State.reportEpoch (s : State) (act cf : Nat) : State :=
  ((s.setReg 0x401010 (BitVec.ofNat 32 (min (act / (1000 * pj)) 0xFFFFFFFF))).setReg 0x40101C (BitVec.ofNat 32 cf)).setReg 0x401018
    (BitVec.ofNat 32 (if cf = 0 then 0xFFFFFFFF else min (act / pj / cf) 0xFFFFFFFF))

/-- What the epoch does in any state; the words that it reports read as its writes left them. -/
theorem exec_energyEpoch_due {counts : List (BitVec 32)} {core sram ser : BitVec 64} {cs : List Nat} {act : Nat} {s : State}
    (hstart : s.clk.started = true) (hdue : s.epl.epochAt + 400000 ≤ s.now)
    (hcs : cs = s.epochCounts (s.now / 400000 * 400000) (counts.map (·.toNat)).sum) (hact : act = s.epochEnergy cs core sram ser) :
    ∃ t, exec (.energyEpoch counts core sram ser) s = .next t
      ∧ t.besidePlan = (s.kp.a, s.kp.b, s.ps.image, s.ps.keys, s.ps.seq, s.time, s.staging,
          s.nextCarry act, cs, s.epl.epochs + 1, s.now / 400000 * 400000)
      ∧ ∀ a, EpochReg a → t.reg a = (s.reportEpoch act (cs.getD 5 0)).reg a := by
  have hsum : sumList (counts.map (·.toNat)) = (counts.map (·.toNat)).sum := List.sum_eq_foldl.symm
  have hexec : exec (.energyEpoch counts core sram ser) s = execEnergyEpoch counts core sram ser s := rfl
  subst hcs hact
  rw [hexec, execEnergyEpoch, hstart, Bool.not_true, if_neg Bool.false_ne_true, State.whenDue, if_pos hdue, hsum]
  extract_lets endAt cs meas act cf v w b x e y z
  have hset : w.reg 0x401000 = s.reg 0x401000 := by
    rw [State.reg_setReg_ne _ (by decide), State.reg_setReg_ne _ (by decide), State.reg_setReg_ne _ (by decide)]
  have hb : b = s.nextCarry act := by
    simp only [b, State.bucketEnergy_congr hset, State.budgetEnergy_congr hset]
    rfl
  have hplan : PlanFrame y z := ((PlanFrame.countEpoch y).trans (.planSettings _)).trans (.planWork _ _)
  have hy : y.besidePlan = (s.kp.a, s.kp.b, s.ps.image, s.ps.keys, s.ps.seq, s.time, s.staging, b, cs, s.epl.epochs + 1, endAt) := rfl
  have hxy : EpochRegsKept x y := .of_regs rfl
  clear_value y z
  have hframe := hplan.trans (.writeSnapshots z)
  exact ⟨_, rfl, hframe.beside.trans (hb ▸ hy), fun a ha =>
    ((hframe.reg a ha).trans (hxy.reg a ha)).trans (State.reg_setReg_ne _ (by rcases ha with rfl | rfl | rfl <;> decide) _)⟩

/-! ### On a canonical state -/

section
variable {s : State} {act cf : Nat} (hs : regsCanonical s.regs)
include hs

theorem State.reportEpoch_cellFrames : (s.reportEpoch act cf).reg 0x40101C = BitVec.ofNat 32 cf := by
  rw [State.reportEpoch, State.reg_setReg_ne _ (by decide), State.reg_setReg_same (regsCanonical_putReg hs ..)]

/-- An energy below 2^32 pJ is reported in nanojoules. -/
theorem State.reportEpoch_energy (hact : act / pj < 2 ^ 32) :
    (s.reportEpoch act cf).reg 0x401010 = BitVec.ofNat 32 (act / (1000 * pj)) := by
  have hle : act / (1000 * pj) ≤ act / pj := Nat.div_le_div_left (Nat.le_mul_of_pos_left _ (by decide)) (by decide)
  rw [State.reportEpoch, State.reg_setReg_ne _ (by decide), State.reg_setReg_ne _ (by decide), State.reg_setReg_same hs,
    min_eq_left (by omega)]

theorem State.reportEpoch_energyOfOne :
    (s.reportEpoch act cf).reg 0x401018 = BitVec.ofNat 32 (if cf = 0 then 0xFFFFFFFF else min (act / pj / cf) 0xFFFFFFFF) :=
  State.reg_setReg_same (regsCanonical_putReg (regsCanonical_putReg hs ..) ..) ..

theorem State.reportEpoch_energyOfOne_lt (hact : act / pj < 2 ^ 32) (hcf : cf ≠ 0) :
    (s.reportEpoch act cf).reg 0x401018 = BitVec.ofNat 32 (act / (cf * pj)) := by
  have hle : act / pj / cf ≤ act / pj := Nat.div_le_self ..
  rw [State.reportEpoch_energyOfOne hs, if_neg hcf, min_eq_left (by omega), Nat.div_div_eq_div_mul, Nat.mul_comm]

end

/-- The activities that the device counts as they happen (R487). -/
theorem State.epochCounts_own (s : State) {endAt eth i : Nat} (hi : i < 21) (hown : i ∉ [4, 6, 7, 8, 9, 10, 11, 12]) :
    (s.epochCounts endAt eth).getD i 0 = s.epl.live.get i := by
  simp only [List.mem_cons, List.not_mem_nil, or_false, not_or] at hown
  simp only [State.epochCounts, List.getD, List.getElem?_map, List.getElem?_range hi, Option.map_some, Option.getD_some]
  split <;> simp_all

/-- The clause of the epoch, on a canonical state. -/
theorem energyEpoch_of_canonical (counts : List (BitVec 32)) (core sram ser : BitVec 64) (cs : List Nat) (s : State) (hs : s.canonical)
    (hstart : s.clk.started = true) (hdue : s.epl.epochAt + 400000 ≤ s.now)
    (hcs : cs = s.epochCounts (s.now / 400000 * 400000) (counts.map (·.toNat)).sum) :
    ∃ t, exec (.energyEpoch counts core sram ser) s = .next t
      ∧ t.epl.carry = clampI (-s.bucketEnergy) s.bucketEnergy (s.epl.carry + s.budgetEnergy
          - ((pj * core.toNat + pj * sram.toNat + pj * ser.toNat + s.groupEnergy cs 3 : Nat) : Int))
      ∧ t.epl.counts = cs ∧ t.epl.epochs = s.epl.epochs + 1 ∧ t.epl.epochAt = s.now / 400000 * 400000
      ∧ (∀ i < 21, i ∉ [4, 6, 7, 8, 9, 10, 11, 12] → cs.getD i 0 = s.epl.live.get i)
      ∧ t.kp.a = s.kp.a ∧ t.kp.b = s.kp.b ∧ t.ps.image = s.ps.image ∧ t.ps.keys = s.ps.keys ∧ t.ps.seq = s.ps.seq
      ∧ t.time = s.time ∧ t.staging = s.staging
      ∧ (∀ x n : Nat, n = s.epl.live.get 5 → t.reg 0x40101C = BitVec.ofNat 32 n ∧ (n = 0 → t.reg 0x401018 = 0xFFFFFFFF)
          ∧ (x = pj * core.toNat + pj * sram.toNat + pj * ser.toNat + s.groupEnergy cs 3 → x < 2 ^ 32 * pj →
              t.reg 0x401010 = BitVec.ofNat 32 (x / (1000 * pj))
              ∧ (n ≠ 0 → t.reg 0x401018 = BitVec.ofNat 32 (x / (n * pj))))) := by
  obtain ⟨t, hexec, hbeside, hreg⟩ := exec_energyEpoch_due (core := core) (sram := sram) (ser := ser) hstart hdue hcs rfl
  simp only [State.besidePlan, Prod.mk.injEq] at hbeside
  obtain ⟨ha, hb, himage, hkeys, hseq, htime, hstaging, hcarry, hcounts, hepochs, hat⟩ := hbeside
  have hown (i : Nat) (hi : i < 21) (h : i ∉ [4, 6, 7, 8, 9, 10, 11, 12]) : cs.getD i 0 = s.epl.live.get i := by
    rw [hcs]
    exact s.epochCounts_own hi h
  rw [hown 5 (by decide) (by decide)] at hreg
  refine ⟨t, hexec, hcarry, hcounts, hepochs, hat, hown, ha, hb, himage, hkeys, hseq, htime, hstaging, ?_⟩
  rintro x n rfl
  refine ⟨(hreg _ (.inr (.inr rfl))).trans (State.reportEpoch_cellFrames hs.1), fun h0 => ?_, ?_⟩
  · rw [hreg _ (.inr (.inl rfl)), State.reportEpoch_energyOfOne hs.1, if_pos h0]
    rfl
  · rintro rfl hx
    have hpj : s.epochEnergy cs core sram ser / pj < 2 ^ 32 := Nat.div_lt_of_lt_mul (by rwa [Nat.mul_comm])
    exact ⟨(hreg _ (.inl rfl)).trans (State.reportEpoch_energy hs.1 hpj),
      fun hn => (hreg _ (.inr (.inl rfl))).trans (State.reportEpoch_energyOfOne_lt hs.1 hpj hn)⟩

/-! ### The calibration (R489) -/

/-- The correction of one group's scale. -/
def State.calibrateGroup (s : State) (g : Nat) : State :=
  let p := s.epl.predE.get g
  let q := if p = 0 then (s.freeNat % 65536 : Int) else rndFrac ((s.scaleOf g : Int) * s.epl.actE.get g) p
  let s := if p = 0 then s.freeNext else s
  let c := clampI 12288 20480 q
  let s := s.setFld (0x401020 + 4 * g) 0 16 c.toNat
  if c = q then s else s.raise 0x3702 g []

theorem exec_eplCalibration_due {s : State} (h : 1024 ≤ s.epl.epochs) :
    exec .eplCalibration s = .next (let t := (List.range 3).foldl State.calibrateGroup s
      { t with epl := { t.epl with epochs := 0, predE := .empty 0, actE := .empty 0 } }) :=
  congrArg Host.Outcome.next (if_neg (Nat.not_lt.mpr h))

/-- A quotient of 0.75 to 1.25 is taken as it is. -/
theorem State.calibrateGroup_within {s : State} {g q : Nat} (hp : s.epl.predE.get g ≠ 0) (hlow : 12288 ≤ q) (hhigh : q ≤ 20480)
    (hq : rndFrac ((s.scaleOf g : Int) * s.epl.actE.get g) (s.epl.predE.get g) = q) :
    s.calibrateGroup g = s.setFld (0x401020 + 4 * g) 0 16 q := by
  have hc : clampI 12288 20480 q = q := by
    rw [clampI, if_neg (by omega), if_neg (by omega)]
  simp only [State.calibrateGroup, if_neg hp, hq, hc, if_true, Int.toNat_natCast]

theorem State.scaleOf_setFld_same {s : State} (hs : regsCanonical s.regs) {g v : Nat} (hv : v < 2 ^ 16) :
    (s.setFld (0x401020 + 4 * g) 0 16 v).scaleOf g = v := by
  rw [State.scaleOf, State.fld, State.setFld, State.reg_setReg_same hs, BitVec.toNat_ofNat]
  simp only [field, putField]
  omega

theorem State.scaleOf_setFld_ne {s : State} {g k v : Nat} (h : k ≠ g) : (s.setFld (0x401020 + 4 * g) 0 16 v).scaleOf k = s.scaleOf k := by
  rw [State.scaleOf, State.fld, State.reg_setFld_ne s (by omega)]
  rfl

/-- The first `m` groups have been calibrated, to the scales `q`. -/
structure State.Calibrated (s : State) (q : Nat → Nat) (m : Nat) (t : State) : Prop where
  canonical : regsCanonical t.regs
  frame : t = { s with regs := t.regs }
  reg : ∀ a, (∀ g < m, a ≠ 0x401020 + 4 * g) → t.reg a = s.reg a
  scale : ∀ g, t.scaleOf g = if g < m then q g else s.scaleOf g

/-- One more group, whose quotient is within 0.75 to 1.25. -/
theorem State.Calibrated.next {s t : State} {q : Nat → Nat} {m : Nat} (h : s.Calibrated q m t) (hp : s.epl.predE.get m ≠ 0)
    (hlow : 12288 ≤ q m) (hhigh : q m ≤ 20480)
    (hq : rndFrac ((s.scaleOf m : Int) * s.epl.actE.get m) (s.epl.predE.get m) = q m) : s.Calibrated q (m + 1) (t.calibrateGroup m) := by
  have hepl : t.epl = s.epl := by rw [h.frame]
  have hscale : t.scaleOf m = s.scaleOf m := (h.scale m).trans (if_neg (Nat.lt_irrefl m))
  rw [State.calibrateGroup_within (hepl ▸ hp) hlow hhigh (by rw [hepl, hscale]; exact hq)]
  refine ⟨regsCanonical_putReg h.canonical .., ?_, fun a ha => ?_, fun g => ?_⟩
  · conv_lhs => rw [State.setFld, State.setReg, h.frame]
    rfl
  · exact (State.reg_setFld_ne _ (ha m (Nat.lt_succ_self m)) ..).trans (h.reg a fun g hg => ha g (by omega))
  · by_cases hg : g = m
    · subst hg
      rw [State.scaleOf_setFld_same h.canonical (by omega), if_pos (Nat.lt_succ_self g)]
    · have hlt : g < m + 1 ↔ g < m := by omega
      simp only [State.scaleOf_setFld_ne hg, h.scale g, hlt]

/-- The clause of the calibration. -/
theorem eplCalibration_of_canonical (s : State) (q : Nat → Nat) (hs : s.canonical) (hdue : 1024 ≤ s.epl.epochs)
    (hq : ∀ g < 3, s.epl.predE.get g ≠ 0 ∧ 12288 ≤ q g ∧ q g ≤ 20480
      ∧ rndFrac ((s.scaleOf g : Int) * s.epl.actE.get g) (s.epl.predE.get g) = q g) :
    ∃ t, exec .eplCalibration s = .next t ∧ (∀ g < 3, t.scaleOf g = q g)
      ∧ (∀ a, a ≠ 0x401020 → a ≠ 0x401024 → a ≠ 0x401028 → t.reg a = s.reg a)
      ∧ t = { s with regs := t.regs, epl := { s.epl with epochs := 0, predE := .empty 0, actE := .empty 0 } } := by
  have hstep (m : Nat) (hm : m < 3) (t : State) (h : s.Calibrated q m t) : s.Calibrated q (m + 1) (t.calibrateGroup m) := by
    obtain ⟨hp, hlow, hhigh, hqm⟩ := hq m hm
    exact h.next hp hlow hhigh hqm
  have h0 : s.Calibrated q 0 s := ⟨hs.1, rfl, fun _ _ => rfl, fun g => (if_neg (Nat.not_lt_zero g)).symm⟩
  have h3 : s.Calibrated q 3 ((List.range 3).foldl State.calibrateGroup s) :=
    hstep 2 (by decide) _ (hstep 1 (by decide) _ (hstep 0 (by decide) _ h0))
  rw [exec_eplCalibration_due hdue]
  generalize (List.range 3).foldl State.calibrateGroup s = t at h3
  refine ⟨_, rfl, fun g hg => (h3.scale g).trans (if_pos hg), fun a ha0 ha1 ha2 => h3.reg a fun g hg => ?_, ?_⟩
  · have : g = 0 ∨ g = 1 ∨ g = 2 := by omega
    rcases this with rfl | rfl | rfl <;> assumption
  · dsimp only
    rw [h3.frame]

/-! ### On a state that is not canonical -/

/-- The time PLL has locked and the first epoch is over, without a cell-frame.  EPL_CF stands twice in the list of register words, which it does in
no canonical state: a write of its reset word takes the first entry away, and the register reads as the second. -/
def cellFramesListedTwice : State :=
  { State.reset with
    tick := 400000, clk := { State.reset.clk with started := true }, regs := [(0x40101C, 1), (0x40101C, 1)] }

theorem reportEpoch_cellFramesListedTwice (act : Nat) : (cellFramesListedTwice.reportEpoch act 0).reg 0x40101C = 1 := by
  have hreset : BitVec.ofNat 32 0 = resetWord 0x40101C := by decide +kernel
  have hput (w : Word) : lookReg 0x40101C (putReg 0x40101C (BitVec.ofNat 32 0) (putReg 0x401010 w [(0x40101C, 1), (0x40101C, 1)])) = 1 := by
    by_cases hw : w = resetWord 0x401010 <;> simp [putReg, lookReg, hw, hreset]
  rw [State.reportEpoch, State.reg_setReg_ne _ (by decide)]
  exact hput _

/-- Refutes O55: its clause of the epoch says what EPL_CF reads as without asking, as its clause of the calibration does, that the registers
be canonical.  With that asked of both they hold: `energyEpoch_of_canonical`, `eplCalibration_of_canonical`. -/
theorem not_energyEpochCarriesItsBudget : ¬ Obligations.EnergyEpochCarriesItsBudget := by
  unfold Obligations.EnergyEpochCarriesItsBudget
  rintro ⟨hEpoch, -⟩
  obtain ⟨t, hexec, -, hreg⟩ := exec_energyEpoch_due (counts := List.replicate 16 0) (core := 0) (sram := 0) (ser := 0) (s := cellFramesListedTwice)
    rfl (by decide) rfl rfl
  have hstale : t.reg 0x40101C = 1 := (hreg _ (.inr (.inr rfl))).trans (reportEpoch_cellFramesListedTwice _)
  obtain ⟨u, huexec, -, -, -, -, -, -, -, -, -, -, -, -, hwords⟩ :=
    hEpoch (List.replicate 16 0) 0 0 0 _ cellFramesListedTwice rfl (by decide) rfl
  obtain rfl : t = u := Host.Outcome.next.inj (hexec.symm.trans huexec)
  obtain ⟨hcf, -⟩ := hwords 0 0 (by decide)
  exact absurd (hcf.symm.trans hstale) (by decide)

end Sys2Proof.Machine
end

section
/-! SUPPORT. What every command keeps: the queue, the canonical forms of registers and staging area, and, but for the commands that own them,
Kingpost and the tick count (R410, R112).  One lemma for each operation of the model, in the order of the model's files: after it `Kept` holds where
it held before.  The obligations on every command and on every step follow. -/

namespace Sys2Proof.Machine

-- Hundreds of short proofs: each on a thread of its own they would ask for more stacks than the memory limit leaves.
set_option Elab.async false

/-- What every command keeps: the queue and the canonical forms; with `kp` also Kingpost but for the fall-back collector's record (R410, R396), with
`time` also the tick count, and that it runs (R112). -/
structure Kept (kp time : Bool) (s t : State) : Prop where
  pending : t.pending = s.pending
  regs : regsCanonical s.regs → regsCanonical t.regs
  staging : Memory.wf s.staging = true → Memory.wf t.staging = true
  kingpost : kp = true → t.kp = { s.kp with fallRec := t.kp.fallRec, fallFirst := t.kp.fallFirst, fallDirty := t.kp.fallDirty }
  ticks : time = true → t.tick = s.tick ∧ (s.clk.started = true → t.clk.started = true)

/-- The fields of which `Kept` speaks. -/
abbrev State.keptPart (s : State) := (s.pending, s.regs, s.staging, s.kp, s.tick, s.clk.started)

namespace Kept
variable {k m : Bool} {s u t : State}

protected theorem rfl : Kept k m s s := ⟨rfl, id, id, fun _ => rfl, fun _ => ⟨rfl, id⟩⟩

theorem trans (h : Kept k m s u) (g : Kept k m u t) : Kept k m s t where
  pending := g.pending.trans h.pending
  regs := g.regs ∘ h.regs
  staging := g.staging ∘ h.staging
  kingpost hk := by rw [g.kingpost hk, h.kingpost hk]
  ticks hm := ⟨(g.ticks hm).1.trans (h.ticks hm).1, (g.ticks hm).2 ∘ (h.ticks hm).2⟩

theorem same (h : Kept k m s u) (e : t.keptPart = u.keptPart := by with_reducible rfl) : Kept k m s t := by
  simp only [State.keptPart, Prod.mk.injEq] at e
  obtain ⟨hp, hr, hs, hk, ht, hc⟩ := e
  exact h.trans ⟨hp, by rw [hr]; exact id, by rw [hs]; exact id, fun _ => by rw [hk], fun _ => ⟨ht, by rw [hc]; exact id⟩⟩

theorem setReg (h : Kept k m s u) {a : Nat} {w : Word} : Kept k m s (u.setReg a w) :=
  h.trans ⟨rfl, fun hr => regsCanonical_putReg hr a w, id, fun _ => rfl, fun _ => ⟨rfl, id⟩⟩

theorem setFall (h : Kept k m s u) {r : Option Record} {w : Word} {d : Bool} :
    Kept k m s { u with kp := { u.kp with fallRec := r, fallFirst := w, fallDirty := d } } :=
  h.trans ⟨rfl, id, id, fun _ => rfl, fun _ => ⟨rfl, id⟩⟩

theorem setKp (h : Kept false m s u) {x : Kingpost} : Kept false m s { u with kp := x } :=
  h.trans ⟨rfl, id, id, fun hk => (Bool.false_ne_true hk).elim, fun _ => ⟨rfl, id⟩⟩

theorem setClk (h : Kept k m s u) {x : Clk} (hx : u.clk.started = true → x.started = true) : Kept k m s { u with clk := x } :=
  h.trans ⟨rfl, id, id, fun _ => rfl, fun _ => ⟨rfl, hx⟩⟩

theorem ite {c : Prop} [Decidable c] {a b : State} (ha : Kept k m s a) (hb : Kept k m s b) : Kept k m s (if c then a else b) := by
  split <;> assumption

theorem forNat {f : Nat → State → State} {n : Nat} (h : Kept k m s u) (hf : ∀ i v, Kept k m s v → Kept k m s (f i v)) :
    Kept k m s (forNat n f u) := by
  induction n with
  | zero => exact h
  | succ n ih => exact hf _ _ ih

theorem foldl {α : Type} {f : State → α → State} {l : List α} (h : Kept k m s u) (hf : ∀ v a, Kept k m s v → Kept k m s (f v a)) :
    Kept k m s (l.foldl f u) := by
  induction l generalizing u with
  | nil => exact h
  | cons a l ih => exact ih (hf _ _ h)

theorem foldlFst {α β : Type} {f : State × β → α → State × β} {l : List α} {x : State × β} (h : Kept k m s x.1)
    (hf : ∀ v a, Kept k m s v.1 → Kept k m s (f v a).1) : Kept k m s (l.foldl f x).1 := by
  induction l generalizing x with
  | nil => exact h
  | cons a l ih => exact ih (hf _ _ h)

theorem whenDue {f : State → State} {due : Nat} (h : Kept k m s u) (hf : Kept k m s u → Kept k m s (f u)) :
    Kept k m s (u.whenDue due f) := by
  unfold State.whenDue
  exact .ite (hf h) h

end Kept

/-- The outcome is a next state, and that keeps what `Kept` says. -/
def AnswersKept (k m : Bool) (s : State) (o : Host.Outcome State Fault Refusal) : Prop := ∃ t, o = .next t ∧ Kept k m s t

theorem Kept.next {k m : Bool} {s t : State} (h : Kept k m s t) : AnswersKept k m s (.next t) := ⟨t, rfl, h⟩

namespace Kept
variable {k m : Bool} {s u : State}

/-! ### Shared operations -/

theorem setFld {a lo len v : ℕ} (h : Kept k m s u) : Kept k m s (u.setFld a lo len v) := by
  unfold State.setFld
  exact h.setReg

theorem flag {a i : ℕ} (h : Kept k m s u) : Kept k m s (u.flag a i) := by
  unfold State.flag
  extract_lets v1
  have h2 : Kept k m s v1 := h.setFld
  exact h2.same

theorem countAt {a lo len sat n : ℕ} (h : Kept k m s u) : Kept k m s (u.countAt a lo len sat n) := by
  unfold State.countAt
  extract_lets v1
  exact Kept.ite h.setFld h.setFld.setFld

theorem count {a n : ℕ} (h : Kept k m s u) : Kept k m s (u.count a n) := by
  unfold State.count
  exact h.countAt

theorem freeNext (h : Kept k m s u) : Kept k m s u.freeNext := by
  unfold State.freeNext
  exact h.same

theorem emit {o : Output} (h : Kept k m s u) : Kept k m s (u.emit o) := by
  unfold State.emit
  exact h.same

/-! ### Engines (chapter 7) -/

theorem advance {n : ℕ} (h : Kept k false s u) : Kept k false s (u.advance n) := by
  unfold State.advance
  exact h.trans ⟨rfl, id, id, fun _ => rfl, fun hm => (Bool.false_ne_true hm).elim⟩

/-! ### Shared operations -/

theorem measureRho (h : Kept k m s u) : Kept k m s u.measureRho := by
  exact h.trans ⟨rfl, id, id, fun _ => rfl, fun _ => ⟨rfl, id⟩⟩

theorem keepRho (h : Kept k m s u) : Kept k m s u.keepRho := by
  unfold State.keepRho
  exact Kept.ite h.measureRho h

theorem idleTick (h : Kept k false s u) : Kept k false s u.idleTick := by
  unfold State.idleTick
  refine Kept.ite h.same ?_
  split
  · exact h.advance.keepRho
  · extract_lets a1 x2
    exact h.same.advance

theorem setOct {n : ℕ} {o : Octad} (h : Kept k m s u) : Kept k m s (u.setOct n o) := by
  unfold State.setOct
  exact h.same

theorem updOct {n : ℕ} {f : Octad → Octad} (h : Kept k m s u) : Kept k m s (u.updOct n f) := by
  unfold State.updOct
  exact h.same

theorem setLane {l : ℕ} {x : Lane} (h : Kept k m s u) : Kept k m s (u.setLane l x) := by
  unfold State.setLane
  exact h.same

theorem updLane {l : ℕ} {f : Lane → Lane} (h : Kept k m s u) : Kept k m s (u.updLane l f) := by
  unfold State.updLane
  exact h.same

theorem updCell {c : ℕ} {f : Cell → Cell} (h : Kept k m s u) : Kept k m s (u.updCell c f) := by
  unfold State.updCell
  exact h.same

theorem setEng {e : ℕ} {x : Engine} (h : Kept k m s u) : Kept k m s (u.setEng e x) := by
  unfold State.setEng
  exact h.same

theorem updEng {e : ℕ} {f : Engine → Engine} (h : Kept k m s u) : Kept k m s (u.updEng e f) := by
  unfold State.updEng
  exact h.same

theorem updRing {r : ℕ} {f : Ring → Ring} (h : Kept k m s u) : Kept k m s (u.updRing r f) := by
  unfold State.updRing
  exact h.same

theorem tally {i n : ℕ} (h : Kept k m s u) : Kept k m s (u.tally i n) := by
  unfold State.tally
  exact h.same

theorem mapOctCells {n : ℕ} {f : Cell → Cell} (h : Kept k m s u) : Kept k m s (u.mapOctCells n f) := by
  unfold State.mapOctCells
  exact h.same

theorem abortEye {l : ℕ} (h : Kept k m s u) : Kept k m s (u.abortEye l) := by
  unfold State.abortEye
  exact Kept.ite h.updLane.flag h

theorem lanesOff {ls : List ℕ} (h : Kept k m s u) : Kept k m s (u.lanesOff ls) := by
  unfold State.lanesOff
  exact h.foldl (fun _ _ h1 => h1.abortEye.updLane)

theorem huntLane {l : ℕ} {p : Proc} (h : Kept k m s u) : Kept k m s (u.huntLane l p) := by
  unfold State.huntLane
  exact h.abortEye.updLane.setFld

theorem startLanes (h : Kept k m s u) : Kept k m s u.startLanes := by
  unfold State.startLanes
  exact h.forNat (fun _ _ h1 => Kept.ite h1.huntLane h1)

theorem abortLanes {n origin : ℕ} (h : Kept k m s u) : Kept k m s (u.abortLanes n origin) := by
  unfold State.abortLanes
  exact h.forNat (fun _ _ h1 => Kept.ite h1.emit h1)

theorem immediateBlock {n : ℕ} (h : Kept k m s u) : Kept k m s (u.immediateBlock n) := by
  unfold State.immediateBlock
  exact h.abortLanes.updOct

theorem discardWindow {n : ℕ} (h : Kept k m s u) : Kept k m s (u.discardWindow n) := by
  unfold State.discardWindow
  extract_lets v1
  have h2 : Kept k m s v1 := Kept.ite h.flag h
  exact h2.mapOctCells.updOct

theorem haltSelection {n : ℕ} (h : Kept k m s u) : Kept k m s (u.haltSelection n) := by
  unfold State.haltSelection
  extract_lets v1 v2 v3
  have h4 : Kept k m s v1 := h.mapOctCells
  have h5 : Kept k m s v2 := h4.discardWindow
  have h6 : Kept k m s v3 := h5.mapOctCells
  exact h6.updOct

theorem forceSafe {p : ℕ → Bool} (h : Kept k m s u) : Kept k m s (u.forceSafe p) := by
  unfold State.forceSafe
  exact h.forNat (fun _ _ h1 => Kept.ite h1.same h1)

theorem settleDev (h : Kept k m s u) : Kept k m s u.settleDev := by
  unfold State.settleDev
  refine Kept.ite ?_ ?_
  · extract_lets r1 x2
    exact h.same
  · exact h

theorem toBlocked {n : ℕ} (h : Kept k m s u) : Kept k m s (u.toBlocked n) := by
  unfold State.toBlocked
  extract_lets v1
  have h2 : Kept k m s v1 := h.immediateBlock
  exact Kept.ite h2.haltSelection.updOct.settleDev (Kept.ite h2.updOct h2)

theorem modeLeave {e : ℕ} {reason : Option ℕ} (h : Kept k m s u) : Kept k m s (u.modeLeave e reason) := by
  unfold State.modeLeave
  split
  · extract_lets out1 b2 v3
    have h4 : Kept k m s v3 := h.updEng
    exact Kept.ite h4.same h
  · exact h

theorem fenceOctad {n : ℕ} (h : Kept k m s u) : Kept k m s (u.fenceOctad n) := by
  unfold State.fenceOctad
  refine Kept.ite h ?_
  extract_lets v1 v2
  have h3 : Kept k m s v1 := h.immediateBlock.haltSelection
  have h4 : Kept k m s v2 := h3.updOct.modeLeave
  exact h4.forceSafe.settleDev

theorem enterRundown {n : ℕ} (h : Kept k m s u) : Kept k m s (u.enterRundown n) := by
  unfold State.enterRundown
  refine Kept.ite ?_ ?_
  · extract_lets v1 m2
    have h3 : Kept k m s v1 := h.updOct
    exact Kept.ite h3.updEng h3
  · exact h

theorem assertFaultN (h : Kept k m s u) : Kept k m s u.assertFaultN := by
  unfold State.assertFaultN
  exact h.same

theorem openWindow {k' : WinKind} {opener code src : ℕ} {done : Option ℕ} (h : Kept k m s u) : Kept k m s (u.openWindow k' opener code src done) := by
  unfold State.openWindow
  exact h.same

theorem windowDone {k' : WinKind} (h : Kept k m s u) : Kept k m s (u.windowDone k') := by
  unfold State.windowDone
  exact h.same

theorem enqueue {r : Report} (h : Kept k m s u) : Kept k m s (u.enqueue r) := by
  unfold State.enqueue
  extract_lets q1 x2
  exact Kept.ite h.same h.same.count

theorem enterActive {code src : ℕ} {cls : FClass} {cb : Byte} {faultN : Bool} {mask id : ℕ} (h : Kept k m s u) :
    Kept k m s (u.enterActive code src cls cb faultN mask id).1 := by
  unfold State.enterActive
  extract_lets c1 u2 x3
  split
  · dsimp only
    exact h.same
  · split
    · dsimp only
      exact h.same
    · dsimp only
      exact h.same

theorem mergeFallback {code : ℕ} {cls : FClass} (h : Kept k m s u) : Kept k m s (u.mergeFallback code cls) := by
  unfold State.mergeFallback
  split
  · exact h
  · exact h.setFall

theorem laneToRetired {l : ℕ} (h : Kept k m s u) : Kept k m s (u.laneToRetired l) := by
  unfold State.laneToRetired
  exact h.abortEye.updLane

theorem losePathVia {again : ℕ → ℕ → List Byte → State → State} {t' code : ℕ} (h :
    Kept k m s u) (hagain : ∀ a0 a1 a2 v, Kept k m s v → Kept k m s (again a0 a1 a2 v)) : Kept k m s (State.losePathVia again t' code u) := by
  unfold State.losePathVia
  extract_lets cs1
  exact Kept.ite h (Kept.ite (hagain _ _ _ _ h) (Kept.ite (h.foldl (fun _ _ h2 => hagain _ _ _ _ h2.updCell)) h))

theorem retireReaction {again : ℕ → ℕ → List Byte → State → State} {code src id : ℕ} (h :
    Kept k m s u) (hagain : ∀ a0 a1 a2 v, Kept k m s v → Kept k m s (again a0 a1 a2 v)) : Kept k m s (State.retireReaction again code src id u) := by
  unfold State.retireReaction
  refine Kept.ite ?_ ?_
  · refine Kept.ite h ?_
    extract_lets t1 had2 v3 v4
    have h5 : Kept k m s v3 := h.laneToRetired.windowDone.openWindow
    have h6 : Kept k m s v4 := Kept.ite h5 (hagain _ _ _ _ h5)
    exact Kept.ite h6 (h6.losePathVia (fun _ _ _ _ h7 => hagain _ _ _ _ h7))
  · refine Kept.ite ?_ ?_
    · refine Kept.ite h ?_
      refine Kept.ite ?_ ?_
      · extract_lets v8
        have h9 : Kept k m s v8 := h.updCell
        exact Kept.ite h9 (hagain _ _ _ _ h9)
      · exact hagain _ _ _ _ h
    · exact Kept.ite h.same (Kept.ite h.same h)

theorem fenceReaction {cls : FClass} {mask code src id : ℕ} (h : Kept k m s u) : Kept k m s (State.fenceReaction cls mask code src id u) := by
  unfold State.fenceReaction
  exact h.forNat (fun _ _ h1 => Kept.ite (Kept.ite h1.fenceOctad h1.fenceOctad.openWindow) h1)

theorem coverFences {id : ℕ} (h : Kept k m s u) : Kept k m s (u.coverFences id) := by
  unfold State.coverFences
  extract_lets hit1 hits2 x3
  exact h.same

theorem lockoutReaction {code src id : ℕ} (h : Kept k m s u) : Kept k m s (State.lockoutReaction code src id u) := by
  unfold State.lockoutReaction
  extract_lets v1 x2 x3 x4
  have h5 : Kept k m s v1 := h.openWindow.coverFences
  exact h5.same.forceSafe

theorem recordConsequential {w : Window} {r : Report} (h : Kept k m s u) : Kept k m s (u.recordConsequential w r) := by
  unfold State.recordConsequential
  extract_lets v1 x2
  have h3 : Kept k m s v1 := h.enqueue
  exact h3.same

theorem recordFault {fn : Bool} {code : ℕ} {cls : FClass} {r : Report} (h : Kept k m s u) : Kept k m s (u.recordFault fn code cls r) := by
  unfold State.recordFault
  extract_lets v
  have hv : Kept k m s v := .ite h.assertFaultN h
  exact .ite hv.enqueue (.ite hv.mergeFallback hv.setFall)

theorem joinCauses {mask : ℕ} (h : Kept k m s u) : Kept k m s (u.joinCauses mask) := by
  unfold State.joinCauses
  exact h.same

theorem react {again : ℕ → ℕ → List Byte → State → State} {cls : FClass} {mask code src id : ℕ} (h :
    Kept k m s u) (hagain : ∀ a0 a1 a2 v, Kept k m s v → Kept k m s (again a0 a1 a2 v)) : Kept k m s (State.react again cls mask code src id u) := by
  unfold State.react
  refine Kept.ite h ?_
  extract_lets v1 v2
  have h3 : Kept k m s v1 := h.retireReaction (fun _ _ _ _ h4 => hagain _ _ _ _ h4)
  have h5 : Kept k m s v2 := h3.fenceReaction.joinCauses
  exact Kept.ite h3 (Kept.ite h5 h5.lockoutReaction)

theorem tableFault {again : ℕ → ℕ → List Byte → State → State} {cls : FClass} {fn : Bool} {cb : Byte} {mask code src id : ℕ} (h :
    Kept k m s u) (hagain : ∀ a0 a1 a2 v, Kept k m s v → Kept k m s (again a0 a1 a2 v)) : Kept k m s (State.tableFault again cls fn cb mask code src
    id u) := by
  unfold State.tableFault
  refine Kept.ite ?_ ?_
  · extract_lets e1
    have h2 : Kept k m s e1.1 := h.enterActive
    exact Kept.ite (hagain _ _ _ _ h2) h2
  · exact h

theorem nextReport (h : Kept k m s u) : Kept k m s u.nextReport := by
  unfold State.nextReport
  exact h.same

theorem raiseN {fuel code src : ℕ} {data : List Byte} {persisted : Option ℕ} (h : Kept k m s u) :
    Kept k m s (raiseN fuel code src data persisted u) := by
  induction fuel generalizing code src data persisted u with
  | zero => exact h
  | succ fuel ih =>
    unfold Machine.raiseN
    extract_lets p mask id r v again
    have hv : Kept k m s v := h.nextReport
    split
    · exact hv.recordConsequential
    · exact (hv.recordFault.tableFault fun _ _ _ _ h => ih h).react fun _ _ _ _ h => ih h

theorem raise {code src : ℕ} {data : List Byte} (h : Kept k m s u) : Kept k m s (u.raise code src data) := by
  unfold State.raise
  exact h.raiseN

theorem raiseRecorded {code src : ℕ} (h : Kept k m s u) : Kept k m s (u.raiseRecorded code src) := by
  unfold State.raiseRecorded
  extract_lets p1 id2 r3
  exact h.nextReport.recordFault.tableFault (fun _ _ _ _ h4 => h4.raise)

theorem raiseInfo {code src : ℕ} (h : Kept k m s u) : Kept k m s (u.raiseInfo code src) := by
  unfold State.raiseInfo
  extract_lets r1 v2
  have h3 : Kept k m s v2 := h.nextReport
  split
  · exact h3.recordConsequential
  · exact h3.recordFault

theorem setPointUnderrun {n : ℕ} (h : Kept k m s u) : Kept k m s (u.setPointUnderrun n) := by
  unfold State.setPointUnderrun
  exact h.updOct.raiseInfo

theorem retireCell {c cause : ℕ} (h : Kept k m s u) : Kept k m s (u.retireCell c cause) := by
  unfold State.retireCell
  exact Kept.ite h (Kept.ite h.updCell.raise h.raise)

theorem retireLane {l code : ℕ} (h : Kept k m s u) : Kept k m s (u.retireLane l code) := by
  unfold State.retireLane
  exact Kept.ite h h.raise

theorem losePath {t' code : ℕ} (h : Kept k m s u) : Kept k m s (u.losePath t' code) := by
  unfold State.losePath
  exact Kept.ite h (h.losePathVia (fun _ _ _ _ h1 => h1.raise))

/-! ### Flags -/

theorem cfgErr {r : RegRef} (h : Kept k m s u) : Kept k m s (u.cfgErr r) := by
  unfold State.cfgErr
  exact h.flag

theorem accErr {e : AccErr} (h : Kept k m s u) : Kept k m s (u.accErr e) := by
  unfold State.accErr
  exact h.flag

theorem putRwp {e : List Byte} (h : Kept k m s u) : Kept k m s (u.putRwp e) := by
  unfold State.putRwp
  extract_lets a1
  split
  · exact h
  · exact h.foldl (fun _ _ h2 => h2.setFld)

theorem loadShadow {here : ℕ → Bool} (h : Kept k m s u) : Kept k m s (u.loadShadow here) := by
  unfold State.loadShadow
  extract_lets v1
  have h2 : Kept k m s v1 := h.foldl (fun _ _ h3 => Kept.ite h3.setReg h3)
  exact h2.foldl (fun _ _ h4 => Kept.ite h4.putRwp h4)

theorem loadRwp (h : Kept k m s u) : Kept k m s u.loadRwp := by
  unfold State.loadRwp
  exact h.loadShadow

theorem loadCollector (h : Kept k m s u) : Kept k m s u.loadCollector := by
  unfold State.loadCollector
  exact h.loadShadow

/-! ### Partitions of the NVM -/

theorem writePart {p : Part} {gen : ℕ} {content : List Byte} (h : Kept k m s u) : Kept k m s (u.writePart p gen content) := by
  unfold State.writePart
  extract_lets b1 t2
  exact Kept.ite h.same h.same

theorem saveTable {p : Part} (h : Kept k m s u) : Kept k m s (u.saveTable p) := by
  unfold State.saveTable
  exact h.writePart

theorem putCopy {w : PartWrite} (h : Kept k m s u) : Kept k m s (u.putCopy w) := by
  unfold State.putCopy
  extract_lets c1 x2 b3 v4
  have h5 : Kept k m s v4 := h.tally
  exact h5.same

theorem finishWrite {p : Part} (h : Kept k m s u) : Kept k m s (u.finishWrite p) := by
  unfold State.finishWrite
  split
  · exact h.putCopy
  · exact h

theorem dropWrite {p : Part} (h : Kept k m s u) : Kept k m s (u.dropWrite p) := by
  unfold State.dropWrite
  split
  · extract_lets x1 b2
    exact h.same
  · exact h

theorem loadCells (h : Kept k m s u) : Kept k m s u.loadCells := by
  unfold State.loadCells
  extract_lets c01 cs2 cells3 cells4 cells5
  exact h.same

theorem loadUse (h : Kept k m s u) : Kept k m s u.loadUse := by
  unfold State.loadUse
  split
  · exact h.same
  · exact h

theorem loadSpares (h : Kept k m s u) : Kept k m s u.loadSpares := by
  unfold State.loadSpares
  extract_lets es1 x2
  exact h.same

/-! ### Rings -/

theorem putCompletion {r : ℕ} {st : Status} {opcode : ℕ} {tag index : BitVec 16} {irq : Bool} {frame : Word} {result : ℕ} (h : Kept k m s u) :
    Kept k m s (u.putCompletion r st opcode tag index irq frame result) := by
  unfold State.putCompletion
  extract_lets c1 x2 v3 v4
  have h5 : Kept k m s v3 := h.updRing
  have h6 : Kept k m s v4 := h5.emit
  exact Kept.ite h5 h6.updRing

theorem complete {d : Desc} {st : Status} {frame : Word} {result : ℕ} (h : Kept k m s u) : Kept k m s (u.complete d st frame result) := by
  unfold State.complete
  exact h.putCompletion

theorem completeNow {d : Desc} {st : Status} {result : ℕ} (h : Kept k m s u) : Kept k m s (u.completeNow d st result) := by
  unfold State.completeNow
  exact h.complete

theorem capture {ring kind : ℕ} {record : List Byte} (h : Kept k m s u) : Kept k m s (u.capture ring kind record).1 := by
  unfold State.capture
  extract_lets r1 v2 n3
  have h4 : Kept k m s v2 := h.foldl (fun _ _ h5 => h5.emit)
  split
  · dsimp only
    exact h4.tally.tally.updRing
  · exact h

theorem postEvent {cls : Byte} {code src : BitVec 16} {seq tick : Word} (h : Kept k m s u) : Kept k m s (u.postEvent cls code src seq tick) := by
  unfold State.postEvent
  exact Kept.ite h.emit.updRing h

/-! ### Selection (chapter 2) -/

theorem trimStep {n : ℕ} {p : SelPlan} (h : Kept k m s u) : Kept k m s (u.trimStep n p) := by
  unfold State.trimStep
  refine Kept.ite h ?_
  split
  · exact h.flag
  · extract_lets r1 e2 v3 v4 v5 a6
    have h7 : Kept k m s v3 := h.updOct
    have h8 : Kept k m s v4 := Kept.ite h7.count h7
    have h9 : Kept k m s v5 := Kept.ite h8.count h8
    exact Kept.ite h9 h9.updCell

theorem commitTc {n : ℕ} (h : Kept k m s u) : Kept k m s (u.commitTc n) := by
  unfold State.commitTc
  extract_lets p1 one2 two3 v4
  have h5 : Kept k m s v4 := h.foldl (fun _ _ h6 => h6.updCell)
  exact (h5.foldl (fun _ _ h7 => h7.updCell)).updOct

theorem selectFrame {n : ℕ} (h : Kept k m s u) : Kept k m s (u.selectFrame n) := by
  unfold State.selectFrame
  extract_lets p1 v2 lk3 ex4 v5 v6 v7 v8 v9 v10
  have h11 : Kept k m s v2 := Kept.ite h h.commitTc
  have h12 : Kept k m s v5 := h11.mapOctCells
  have h13 : Kept k m s v6 := h12.foldl (fun _ _ h14 => h14.updCell)
  have h15 : Kept k m s v7 := h13.foldl (fun _ _ h16 => h16.updCell)
  have h17 : Kept k m s v8 := h15.foldl (fun _ _ h18 => h18.updCell)
  have h19 : Kept k m s v9 := h17.foldl (fun _ _ h20 => h20.updCell)
  have h21 : Kept k m s v10 := h19.trimStep
  exact h21.updOct

theorem execSelectionComplete {n : Fin 8} (h : Kept k m s u) : AnswersKept k m s (execSelectionComplete n u) := by
  unfold Machine.execSelectionComplete
  extract_lets o1
  exact Kept.next (Kept.ite h (Kept.ite h (Kept.ite h.selectFrame (Kept.ite h.updOct h))))

theorem execSelWdog {n : Fin 8} (h : Kept k m s u) : AnswersKept k m s (execSelWdog n u) := by
  unfold Machine.execSelWdog
  extract_lets o1 v2 id3
  have h4 : Kept k m s v2 := h.updOct
  exact Kept.next (Kept.ite h (Kept.ite h (Kept.ite h.updOct h4.raise.openWindow)))

/-! ### The ledger (chapter 3) -/

theorem startWindow {n : ℕ} (h : Kept k m s u) : Kept k m s (u.startWindow n) := by
  unfold State.startWindow
  exact h.mapOctCells.updOct

theorem ledgerWindowEnd {n : ℕ} (h : Kept k m s u) : Kept k m s (u.ledgerWindowEnd n) := by
  unfold State.ledgerWindowEnd
  extract_lets o1 vf2 ifl3 v4 a5 v6
  have h7 : Kept k m s v4 := h.mapOctCells
  have h8 : Kept k m s v6 := h7.setReg
  exact Kept.ite h h8.updOct

theorem ledgerEndTc {n : ℕ} (h : Kept k m s u) : Kept k m s (u.ledgerEndTc n) := by
  unfold State.ledgerEndTc
  exact Kept.ite h.mapOctCells h

theorem execLedgerWindowEnd {n : Fin 8} (h : Kept k m s u) : AnswersKept k m s (execLedgerWindowEnd n u) := by
  unfold Machine.execLedgerWindowEnd
  exact Kept.next h.ledgerWindowEnd

theorem formEnergy {n : ℕ} (h : Kept k m s u) : Kept k m s (u.formEnergy n) := by
  unfold State.formEnergy
  extract_lets cs1 m2 es3 v4 sum5 hi6 lo7
  have h8 : Kept k m s v4 := Kept.ite h.flag h
  exact h8.updOct

theorem writeSnapshot {n : ℕ} (h : Kept k m s u) : Kept k m s (u.writeSnapshot n) := by
  unfold State.writeSnapshot
  extract_lets v1
  have h2 : Kept k m s v1 := h.updOct
  refine h2.foldl ?_
  intro _ _ h3
  extract_lets r4
  have h5 : Kept k m s r4.1 := h3.capture
  exact Kept.ite h5 h3.count

theorem requestSnapshot {n : ℕ} (h : Kept k m s u) : Kept k m s (u.requestSnapshot n) := by
  unfold State.requestSnapshot
  exact Kept.ite h.updOct h.writeSnapshot

theorem overtakeSnapshot {n : ℕ} (h : Kept k m s u) : Kept k m s (u.overtakeSnapshot n) := by
  unfold State.overtakeSnapshot
  exact Kept.ite h.count h

theorem healthCheck {n c : ℕ} (h : Kept k m s u) : Kept k m s (u.healthCheck n c) := by
  unfold State.healthCheck
  extract_lets x1 hys2
  split
  · exact h
  · refine Kept.ite h ?_
    extract_lets f3 a4 b5 v6 v7 v8 v9
    have h10 : Kept k m s v6 := h.updCell
    have h11 : Kept k m s v7 := Kept.ite h10.raise h10
    have h12 : Kept k m s v8 := Kept.ite h11.raise h11
    have h13 : Kept k m s v9 := Kept.ite h12.raise h12
    exact Kept.ite h13.raise h13

theorem ledgerArithmetic {n : ℕ} (h : Kept k m s u) : Kept k m s (u.ledgerArithmetic n) := by
  unfold State.ledgerArithmetic
  extract_lets v1 seq2 v3
  have h4 : Kept k m s v1 := h.updOct.overtakeSnapshot
  have h5 : Kept k m s v3 := by
    refine h4.foldl ?_
    intro _ _ h6
    refine Kept.ite h6 ?_
    extract_lets valid7 v8
    have h9 : Kept k m s v8 := h6.updCell
    exact Kept.ite h9.healthCheck h9
  exact Kept.ite h5.requestSnapshot h5

theorem execLedgerArithmeticComplete {n : Fin 8} (h : Kept k m s u) : AnswersKept k m s (execLedgerArithmeticComplete n u) := by
  unfold Machine.execLedgerArithmeticComplete
  extract_lets o1
  refine Kept.next ?_
  refine Kept.ite h ?_
  split
  · exact h
  · exact h.whenDue (fun h2 => h.ledgerArithmetic)

theorem doC0Write {c : ℕ} {v : Word} (h : Kept k m s u) : Kept k m s (u.doC0Write c v).1 := by
  unfold State.doC0Write
  extract_lets x1
  split
  · exact h
  · dsimp only
    exact h.updCell.saveTable.raise

theorem doC0Clear {c : ℕ} (h : Kept k m s u) : Kept k m s (u.doC0Clear c).1 := by
  unfold State.doC0Clear
  extract_lets x1
  split
  · exact h
  · dsimp only
    exact h.updCell.saveTable.raise

theorem doC0Adopt {n : ℕ} (h : Kept k m s u) : Kept k m s (u.doC0Adopt n).1 := by
  unfold State.doC0Adopt
  extract_lets cs1 v2
  have h3 : Kept k m s v2 := Kept.ite h h.saveTable
  dsimp only
  refine h3.foldl ?_
  intro _ _ h4
  extract_lets w5
  exact h4.updCell.raise

theorem execCsaveSave (h : Kept k m s u) : AnswersKept k m s (execCsaveSave u) := by
  unfold Machine.execCsaveSave
  refine Kept.next ?_
  refine h.whenDue ?_
  intro h1
  refine Kept.ite h ?_
  extract_lets v2 x3
  have h4 : Kept k m s v2 := h.saveTable
  exact h4.same

/-! ### Transmitters -/

theorem queueOutput {o : Output} (h : Kept k m s u) : Kept k m s (u.queueOutput o) := by
  unfold State.queueOutput
  split
  · exact Kept.ite h.updLane h
  · exact Kept.ite h.updLane h
  · exact h

theorem queueOutputs (h : Kept k m s u) : Kept k m s u.queueOutputs := by
  unfold State.queueOutputs
  extract_lets v1
  have h2 : Kept k m s v1 := h.foldl (fun _ _ h3 => h3.queueOutput)
  exact h2.same

theorem turnLane {l : ℕ} (h : Kept k m s u) : Kept k m s (u.turnLane l) := by
  unfold State.turnLane
  extract_lets x1
  exact Kept.ite h.abortEye.updLane h

theorem sendBlock {l : ℕ} {i : TxItem} {x : Lane} (h : Kept k m s u) : Kept k m s (u.sendBlock l i x) := by
  unfold State.sendBlock
  extract_lets r1 is2
  exact h.setLane.emit

theorem txTick {l : ℕ} (h : Kept k m s u) : Kept k m s (u.txTick l) := by
  unfold State.txTick
  extract_lets x1 n2 acc3 u4 dep5 v6 x7
  have h8 : Kept k m s v6 := Kept.ite h.tally h
  exact Kept.ite h (Kept.ite h.updLane h8.sendBlock.turnLane)

theorem transmit (h : Kept k m s u) : Kept k m s u.transmit := by
  unfold State.transmit
  refine Kept.ite ?_ ?_
  · extract_lets v1 v2
    have h3 : Kept k m s v1 := h.queueOutputs
    have h4 : Kept k m s v2 := h3.foldl (fun _ _ h5 => h5.txTick)
    exact h4.same
  · exact h

theorem sendAborts (h : Kept k m s u) : Kept k m s u.sendAborts := by
  unfold State.sendAborts
  extract_lets v1 v2
  have h3 : Kept k m s v1 := h.queueOutputs
  have h4 : Kept k m s v2 := by
    refine h3.foldl ?_
    intro _ _ h5
    split
    · exact Kept.ite h5.sendBlock h5
    · exact h5
  exact h4.same

/-! ### Truss frames (chapter 6) -/

theorem malformed {l : ℕ} (h : Kept k m s u) : Kept k m s (u.malformed l) := by
  unfold State.malformed
  exact h.count.raise

theorem crcError {l : ℕ} (h : Kept k m s u) : Kept k m s (u.crcError l) := by
  unfold State.crcError
  exact h.count.raise

theorem breakFrame {l : ℕ} (h : Kept k m s u) : Kept k m s (u.breakFrame l) := by
  unfold State.breakFrame
  exact Kept.ite h.updLane.malformed h

theorem clearTlock {l : ℕ} (h : Kept k m s u) : Kept k m s (u.clearTlock l) := by
  unfold State.clearTlock
  extract_lets x1 v2
  have h3 : Kept k m s v2 := h.updLane
  exact Kept.ite h3.raise h3

theorem grantCredit {l : ℕ} (h : Kept k m s u) : Kept k m s (u.grantCredit l) := by
  unfold State.grantCredit
  extract_lets a1 x2 n3 g4
  exact Kept.ite h (Kept.ite h h.updLane.emit)

theorem execCreditRefresh {l : Fin 128} (h : Kept k m s u) : AnswersKept k m s (execCreditRefresh l u) := by
  unfold Machine.execCreditRefresh
  extract_lets x1
  exact Kept.next (Kept.ite h.emit h)

theorem packEntry {n : ℕ} {f : Word × ℕ} {c l : ℕ} {a : Action} (h : Kept k m s u) : Kept k m s (u.packEntry n f c l a).1 := by
  unfold State.packEntry
  split
  · exact h
  · split
    · exact h
    · dsimp only
      exact h.count.raise

theorem dispatchHub {n : ℕ} {f : Word × ℕ} {t' l : ℕ} {selected : Bool} (h : Kept k m s u) : Kept k m s (u.dispatchHub n f t' l selected) := by
  unfold State.dispatchHub
  extract_lets cs j r v
  have hr : Kept k m s r.1 := h.foldlFst (x := (u, ([] : List Block))) fun _ _ h => h.packEntry.updCell
  exact .ite h hr.tally.emit.grantCredit

theorem completeDispatched {k' : Word} {done : List (Waiting × Status)} (h : Kept k m s u) : Kept k m s (u.completeDispatched k' done) := by
  unfold State.completeDispatched
  extract_lets x1 v2
  have h3 : Kept k m s v2 := h.same
  refine h3.foldl ?_
  intro _ _ h4
  split
  · exact h4.complete
  · exact h4.completeNow

theorem addCycle {n : ℕ} (h : Kept k m s u) : Kept k m s (u.addCycle n) := by
  unfold State.addCycle
  exact h.updOct

theorem afterDispatch {n : ℕ} {f : Word × ℕ} {selected late : Bool} (h : Kept k m s u) : Kept k m s (u.afterDispatch n f selected late) := by
  unfold State.afterDispatch
  extract_lets v1
  have h2 : Kept k m s v1 := Kept.ite h.mapOctCells.addCycle (Kept.ite h.mapOctCells h)
  exact h2.updOct

theorem execCommandDispatch {n : Fin 8} (h : Kept k m s u) : AnswersKept k m s (execCommandDispatch n u) := by
  unfold Machine.execCommandDispatch
  extract_lets o1
  refine Kept.next ?_
  refine Kept.ite h ?_
  split
  · exact h
  · refine h.whenDue ?_
    intro h2
    extract_lets late3 selected4 done5 v6 v7 slow8 data9 v10
    have h11 : Kept k m s v6 := by
      refine h.forNat ?_
      intro _ _ h12
      split
      · exact h12.dispatchHub
      · exact h12
    have h13 : Kept k m s v7 := h11.completeDispatched.afterDispatch
    have h14 : Kept k m s v10 := h13.updOct.flag.raise
    exact Kept.ite h13 (Kept.ite h14.updOct.raise h14)

theorem takeEntry {l : ℕ} {e : FbEntry} (h : Kept k m s u) : Kept k m s (u.takeEntry l e) := by
  unfold State.takeEntry
  extract_lets c1 sampled2
  exact Kept.ite h.updCell h.malformed

theorem feedbackFrame {l : ℕ} {f : RawFrame} (h : Kept k m s u) : Kept k m s (u.feedbackFrame l f) := by
  unfold State.feedbackFrame
  extract_lets n1 o2 tag3 es4 known5 v6 v7 v8
  have h9 : Kept k m s v6 := h.foldl (fun _ _ h10 => h10.takeEntry)
  have h11 : Kept k m s v7 := h9.same
  have h12 : Kept k m s v8 := Kept.ite h11.clearTlock h11
  refine Kept.ite h ?_
  refine Kept.ite h.crcError ?_
  refine Kept.ite h.malformed ?_
  split
  · exact Kept.ite (Kept.ite h12.raise h12) (Kept.ite h h.malformed)
  · exact h.malformed

theorem execFeedbackFrame {l : Fin 128} {f : RawFrame} (h : Kept k m s u) : AnswersKept k m s (execFeedbackFrame l f u) := by
  unfold Machine.execFeedbackFrame
  exact Kept.next h.breakFrame.feedbackFrame

theorem captureLost {l : ℕ} (h : Kept k m s u) : Kept k m s (u.captureLost l) := by
  unfold State.captureLost
  exact h.updLane

theorem captureFrame {l : ℕ} {f : RawFrame} (h : Kept k m s u) : Kept k m s (u.captureFrame l f) := by
  unfold State.captureFrame
  extract_lets a1 v2 r3
  have h4 : Kept k m s v2 := h.updLane
  have h5 : Kept k m s r3.1 := h4.capture
  exact Kept.ite h (Kept.ite h.crcError (Kept.ite h.malformed (Kept.ite h.count.raise (Kept.ite h5 h4.captureLost))))

theorem execCaptureFrame {l : Fin 128} {f : RawFrame} (h : Kept k m s u) : AnswersKept k m s (execCaptureFrame l f u) := by
  unfold Machine.execCaptureFrame
  exact Kept.next h.breakFrame.captureFrame

theorem execMark {l : Fin 128} (h : Kept k m s u) : AnswersKept k m s (execMark l u) := by
  unfold Machine.execMark
  extract_lets x1 un2 q3
  refine Kept.next ?_
  refine Kept.ite h ?_
  refine h.whenDue ?_
  intro h4
  extract_lets v5 v6
  have h7 : Kept k m s v5 := h.updLane
  have h8 : Kept k m s v6 := h7.emit
  exact Kept.ite h8.clearTlock h8

theorem echo {l : ℕ} {b : Block} {t4 : BitVec 48} (h : Kept k m s u) : Kept k m s (u.echo l b t4) := by
  unfold State.echo
  extract_lets x1 a2 r3 t24 p5 still6
  split
  · exact h
  · refine Kept.ite h ?_
    refine Kept.ite h.updLane ?_
    extract_lets trip7 df8 e9 good10 bad11 big12 v13 v14 v15
    have h16 : Kept k m s v13 := h.updLane
    have h17 : Kept k m s v14 := Kept.ite h16.clearTlock h16
    have h18 : Kept k m s v15 := h17.clearTlock.updLane
    exact Kept.ite h17 (Kept.ite h18.emit h17.emit)

theorem execEcho {l : Fin 128} {b : Block} {t4 : BitVec 48} (h : Kept k m s u) : AnswersKept k m s (execEcho l b t4 u) := by
  unfold Machine.execEcho
  exact Kept.next h.breakFrame.echo

theorem abortIn {l : ℕ} {b : Block} (h : Kept k m s u) : Kept k m s (u.abortIn l b) := by
  unfold State.abortIn
  extract_lets v1
  have h2 : Kept k m s v1 := h.updLane
  exact Kept.ite h2 h2.malformed

theorem execAbort {l : Fin 128} {b : Block} (h : Kept k m s u) : AnswersKept k m s (execAbort l b u) := by
  unfold Machine.execAbort
  exact Kept.next h.abortIn

/-! ### Belfry (chapter 17) -/

theorem belfryAccept {r : Record} {mergeable : Bool} (h : Kept k m s u) : Kept k m s (u.belfryAccept r mergeable) := by
  unfold State.belfryAccept
  extract_lets b1
  split
  · extract_lets m2 b3
    exact Kept.ite h.same h.same
  · exact Kept.ite h.same.count h.same

theorem writeNote {n : Note} (h : Kept k m s u) : Kept k m s (u.writeNote n) := by
  unfold State.writeNote
  extract_lets b1 v2
  have h3 : Kept k m s v2 := h.tally
  exact h3.same

theorem settleNewest (h : Kept k m s u) : Kept k m s u.settleNewest := by
  unfold State.settleNewest
  split
  · exact Kept.ite h.writeNote h
  · exact h

theorem storeRecord {r : Record} {mergeable : Bool} (h : Kept k m s u) : Kept k m s (u.storeRecord r mergeable) := by
  unfold State.storeRecord
  extract_lets merges1
  exact (Kept.ite h h.settleNewest).belfryAccept

theorem accept {r : Report} (h : Kept k m s u) : Kept k m s (u.accept r) := by
  unfold State.accept
  extract_lets q1 cls2 cb3 data4 seqOf5 f6 v7 v8
  have h9 : Kept k m s v7 := h.same
  have h10 : Kept k m s v8 := Kept.ite h9.postEvent h9
  exact h10.storeRecord

theorem raiseNow {code src : ℕ} {data : List Byte} (h : Kept k m s u) : Kept k m s (u.raiseNow code src data) := by
  unfold State.raiseNow
  extract_lets old1 x2 v3 mine4 more5 x6 v7
  have h8 : Kept k m s v3 := h.same.raise
  have h9 : Kept k m s v7 := h8.same.foldl (fun _ _ h10 => h10.enqueue)
  exact h9.foldl (fun _ _ h11 => h11.accept)

theorem insertLost (h : Kept k m s u) : Kept k m s u.insertLost := by
  unfold State.insertLost
  extract_lets b1
  exact Kept.ite h h.same.raiseNow

theorem writeTomb {reason sector : ℕ} (h : Kept k m s u) : Kept k m s (u.writeTomb reason sector) := by
  unfold State.writeTomb
  exact Kept.ite h h.same

theorem becomeReadOnly {sector : ℕ} (h : Kept k m s u) : Kept k m s (u.becomeReadOnly sector) := by
  unfold State.becomeReadOnly
  extract_lets x1 v2
  have h3 : Kept k m s v2 := h.same.saveTable
  exact h3.writeTomb.raise

theorem retireSector {logical : ℕ} (h : Kept k m s u) : Kept k m s (u.retireSector logical) := by
  unfold State.retireSector
  extract_lets b1 p2 sp3 c4 v5 sp6
  have h7 : Kept k m s v5 := h.tally
  exact Kept.ite (Kept.ite h7.same.saveTable.raiseNow h.becomeReadOnly) (Kept.ite h.same.saveTable.raise h.same.raise)

theorem verifyFail {logical : ℕ} (h : Kept k m s u) : Kept k m s (u.verifyFail logical) := by
  unfold State.verifyFail
  extract_lets p1 cls2 acts3 v4
  have h5 : Kept k m s v4 := h.raise
  exact Kept.ite h5.retireSector h5

theorem failOnce {logical n : ℕ} (h : Kept k m s u) : Kept k m s (u.failOnce logical n) := by
  unfold State.failOnce
  extract_lets p1 v2
  have h3 : Kept k m s v2 := h.verifyFail
  exact Kept.ite h3.retireSector h3

theorem eraseFails {logical n : ℕ} (h : Kept k m s u) : Kept k m s (u.eraseFails logical n) := by
  induction n with
  | zero => exact h
  | succ n ih => exact .ite ih ih.failOnce

theorem restage {r : Record} (h : Kept k m s u) : Kept k m s (u.restage r) := by
  unfold State.restage
  exact h.same

theorem attempt {r : Record} {n j : ℕ} (h : Kept k m s u) : Kept k m s (State.attempt r n j u) := by
  induction n generalizing j u with
  | zero => exact .ite h.tally.same h.restage
  | succ n ih =>
    unfold State.attempt
    extract_lets sec p x v
    have hv : Kept k m s v := h.tally.same.failOnce
    exact .ite h.restage (.ite hv.restage (ih hv.same))

theorem writeRecord {fails : ℕ} (h : Kept k m s u) : Kept k m s (u.writeRecord fails) := by
  unfold State.writeRecord
  split
  · exact h
  · exact Kept.ite h h.same.attempt

theorem endFlush (h : Kept k m s u) : Kept k m s u.endFlush := by
  unfold State.endFlush
  exact h.same

theorem execRecordWrite {fails : Fin 4} (h : Kept k m s u) : AnswersKept k m s (execRecordWrite fails u) := by
  unfold Machine.execRecordWrite
  exact Kept.next (Kept.ite h h.writeRecord.insertLost.endFlush)

theorem flushStaging {n : ℕ} (h : Kept k m s u) : Kept k m s (State.flushStaging n u) := by
  induction n generalizing u with
  | zero => exact h
  | succ n ih => exact .ite h (ih h.writeRecord)

theorem noteAttempt {x : Note} {n j : ℕ} (h : Kept k m s u) : Kept k m s (State.noteAttempt x n j u) := by
  induction n generalizing j u with
  | zero => exact .ite h.writeNote h
  | succ n ih =>
    unfold State.noteAttempt
    extract_lets sec p x v
    have hv : Kept k m s v := h.tally.same.failOnce
    exact .ite h (.ite hv (ih hv))

theorem execNoteWrite {seq : Word} {fails : Fin 4} (h : Kept k m s u) : AnswersKept k m s (execNoteWrite seq fails u) := by
  unfold Machine.execNoteWrite
  extract_lets b1 due2
  refine Kept.next ?_
  split
  · exact h
  · exact Kept.ite h (h.whenDue (fun h3 => h.noteAttempt))

theorem abortErase (h : Kept k m s u) : Kept k m s u.abortErase := by
  unfold State.abortErase
  extract_lets b1 on2
  exact h.same

theorem writeCount (h : Kept k m s u) : Kept k m s u.writeCount := by
  unfold State.writeCount
  extract_lets sat1 x2 b3 v4
  have h5 : Kept k m s v4 := h.tally
  exact Kept.ite h5.same h.same

theorem execCountEntry (h : Kept k m s u) : AnswersKept k m s (execCountEntry u) := by
  unfold Machine.execCountEntry
  exact Kept.next (h.whenDue (fun h1 => Kept.ite h h.writeCount))

theorem thaw (h : Kept k m s u) : Kept k m s u.thaw := by
  unfold State.thaw
  exact h.same.flushStaging.insertLost.endFlush

theorem doBelFreeze (h : Kept k m s u) : Kept k m s u.doBelFreeze.1 := by
  unfold State.doBelFreeze
  split
  · exact h
  · split
    · dsimp only
      exact h.same
    · dsimp only
      exact h.same

theorem doBelfryThaw (h : Kept k m s u) : Kept k m s u.doBelfryThaw.1 := by
  unfold State.doBelfryThaw
  extract_lets x1 v2
  have h3 : Kept k m s v2 := h.same
  dsimp only
  split
  · exact h3.thaw
  · exact h3

theorem execBelThaw (h : Kept k m s u) : AnswersKept k m s (execBelThaw u) := by
  unfold Machine.execBelThaw
  refine Kept.next ?_
  split
  · exact h.whenDue (fun h1 => h.same.thaw)
  · exact h

theorem tellThaw (h : Kept k m s u) : Kept k m s u.tellThaw := by
  unfold State.tellThaw
  split
  · exact h.same.raise
  · exact h

theorem doBelRead {addr : BitVec 64} {area first count : ℕ} (h : Kept k m s u) : Kept k m s (u.doBelRead addr area first count).1 := by
  unfold State.doBelRead
  extract_lets l1
  split
  · exact h
  · dsimp only
    exact h.emit

theorem clearTombs (h : Kept k m s u) : Kept k m s u.clearTombs := by
  unfold State.clearTombs
  exact h.same

/-! ### Faults (chapter 12) -/

theorem acceptHead {level : ℕ} (h : Kept k m s u) : Kept k m s (u.acceptHead level) := by
  unfold State.acceptHead
  split
  · exact h
  · exact Kept.ite h h.same.accept

theorem insertDrop {level : ℕ} (h : Kept k m s u) : Kept k m s (u.insertDrop level) := by
  unfold State.insertDrop
  extract_lets d1 x2
  exact Kept.ite h h.same.raise

theorem execFaultReport (h : Kept k m s u) : AnswersKept k m s (execFaultReport u) := by
  unfold Machine.execFaultReport
  refine Kept.next ?_
  refine Kept.ite h ?_
  extract_lets x1 v2
  have h3 : Kept k m s v2 := h.same.insertLost
  exact (h3.forNat (fun _ _ h4 => h4.acceptHead)).forNat (fun _ _ h5 => h5.insertDrop)

theorem raisePersisted {opener : ℕ} {h' : BitVec 16 × BitVec 16 × List Byte} (h : Kept k m s u) : Kept k m s (u.raisePersisted opener h') := by
  unfold State.raisePersisted
  extract_lets code1 src2 v3
  have h4 : Kept k m s v3 := h.raiseN
  exact Kept.ite (Kept.ite h4.updCell (Kept.ite h4.same h4)) h

theorem execConsWindowClose (h : Kept k m s u) : AnswersKept k m s (execConsWindowClose u) := by
  unfold Machine.execConsWindowClose
  extract_lets above1 gone2 x3 v4
  have h5 : Kept k m s v4 := h.same
  exact Kept.next (h5.foldl (fun _ _ h6 => h6.foldl (fun _ _ h7 => h7.raisePersisted)))

theorem execFaultNHoldEnd (h : Kept k m s u) : AnswersKept k m s (execFaultNHoldEnd u) := by
  unfold Machine.execFaultNHoldEnd
  exact Kept.next (Kept.ite h.same h)

theorem doFaultRelease (h : Kept k m s u) : Kept k m s u.doFaultRelease.1 := by
  unfold State.doFaultRelease
  split
  · exact h
  · split
    · exact h
    · split
      · dsimp only
        exact h.same
      · dsimp only
        exact h.same

theorem leaveLockout (h : Kept k m s u) : Kept k m s u.leaveLockout := by
  unfold State.leaveLockout
  exact h.same.windowDone

theorem removeEntries {gone : List Active} (h : Kept k m s u) : Kept k m s (u.removeEntries gone) := by
  unfold State.removeEntries
  extract_lets back rest was lock freed x f v1 y v2 v3
  have h1 : Kept k m s v1 := h.same
  have h2 : Kept k m s v2 := .ite h1.setFall h1
  have h3 : Kept k m s v3 := h2.forNat fun _ _ h => .ite h.updOct h
  exact .ite h3.leaveLockout h3

theorem clearFull (h : Kept k m s u) : Kept k m s u.clearFull := by
  unfold State.clearFull
  refine Kept.ite h ?_
  extract_lets x1 v2 v3
  have h4 : Kept k m s v2 := h.same
  have h5 : Kept k m s v3 := h4.forNat (fun _ _ h6 => Kept.ite h6.updOct h6)
  exact Kept.ite h5.leaveLockout h5

theorem doFaultClear {code src : BitVec 16} (h : Kept k m s u) : Kept k m s (u.doFaultClear code src).1 := by
  unfold State.doFaultClear
  extract_lets hit1 tries2 holds3 can4 v5 v6
  have h7 : Kept k m s v5 := Kept.ite h.loadCollector.freeNext h
  have h8 : Kept k m s v6 := h7.removeEntries
  split
  · dsimp only
    exact Kept.ite h7.clearFull h7
  · split
    · exact h7
    · dsimp only
      exact Kept.ite h8.clearFull h8

theorem takeCharge {code src : ℕ} (h : Kept k m s u) : Kept k m s (u.takeCharge code src) := by
  unfold State.takeCharge
  exact .ite h.raise (h.setFall.same : Kept k m s { u with flt := _, kp := _ }).raise

theorem execFltSelf (h : Kept k m s u) : AnswersKept k m s (execFltSelf u) := by
  unfold Machine.execFltSelf
  exact Kept.next (Kept.ite h.takeCharge h)

theorem execFltStall {level : Fin 4} (h : Kept k m s u) : AnswersKept k m s (execFltStall level u) := by
  unfold Machine.execFltStall
  refine Kept.next ?_
  split
  · exact h
  · exact Kept.ite h (h.whenDue (fun h1 => h.takeCharge))

theorem execFallbackRecordCopy (h : Kept k m s u) : AnswersKept k m s (execFallbackRecordCopy u) := by
  unfold Machine.execFallbackRecordCopy
  refine Kept.next ?_
  split
  · exact h
  · extract_lets q first f0 r x y v1 v2
    have h1 : Kept k m s v1 := (h.setFall (r := some r) (w := f0) (d := false)).same
    have h2 : Kept k m s v2 := h1.storeRecord
    exact .ite h (.ite h2.postEvent h2)

/-! ### The host interface (chapter 11) -/

theorem haltRing {r : ℕ} (h : Kept k m s u) : Kept k m s (u.haltRing r) := by
  unfold State.haltRing
  exact h.updRing.flag.raise

theorem takeProducer {r : ℕ} {i : BitVec 16} (h : Kept k m s u) : Kept k m s (u.takeProducer r i) := by
  unfold State.takeProducer
  exact Kept.ite h (Kept.ite h.haltRing h.updRing)

theorem takeConsumer {r : ℕ} {i : BitVec 16} (h : Kept k m s u) : Kept k m s (u.takeConsumer r i) := by
  unfold State.takeConsumer
  exact Kept.ite h (Kept.ite h.haltRing h.updRing)

theorem takeIndices {p : List Word} (h : Kept k m s u) : Kept k m s (u.takeIndices p) := by
  unfold State.takeIndices
  extract_lets x1 v2 v3
  have h4 : Kept k m s v2 := h.forNat (fun _ _ h5 => h5.takeProducer.takeConsumer)
  have h6 : Kept k m s v3 := h4.forNat (fun _ _ h7 => h7.takeConsumer)
  exact h6.takeConsumer

theorem takeGen {g : Word} (h : Kept k m s u) : Kept k m s (u.takeGen g) := by
  unfold State.takeGen
  extract_lets changed1 x2 v3 fresh4 x5
  have h6 : Kept k m s v3 := h.same
  refine Kept.ite h6 ?_
  refine Kept.ite h6.same.setFld.raise ?_
  split
  · exact Kept.ite h6.same h6
  · exact h6

theorem issueRead {k' : ReadKind} {addr : BitVec 64} {len : ℕ} (h : Kept k m s u) : Kept k m s (u.issueRead k' addr len) := by
  unfold State.issueRead
  exact Kept.ite h.emit h

theorem countTimeout {c : ReadEnd} {a : ℕ} (h : Kept k m s u) : Kept k m s (u.countTimeout c a) := by
  unfold State.countTimeout
  exact Kept.ite h.count h

theorem fetchRead {r : Fin 10} {sweep n : ℕ} (h : Kept k m s u) : Kept k m s (u.fetchRead r sweep n) := by
  unfold State.fetchRead
  refine Kept.ite h ?_
  extract_lets x1 i2 v3
  have h4 : Kept k m s v3 := h.updRing.updRing
  exact h4.issueRead

theorem fetchRing {r : Fin 10} {sweep : ℕ} (h : Kept k m s u) : Kept k m s (u.fetchRing r sweep) := by
  unfold State.fetchRing
  extract_lets n1 x2 m3
  exact h.fetchRead.fetchRead

theorem fetchAll {sweep : ℕ} (h : Kept k m s u) : Kept k m s (u.fetchAll sweep) := by
  unfold State.fetchAll
  exact h.foldl (fun _ _ h1 => h1.fetchRing)

theorem sendVector {v : ℕ} (h : Kept k m s u) : Kept k m s (u.sendVector v) := by
  unfold State.sendVector
  exact Kept.ite h (Kept.ite h.same h.emit)

theorem sendPending (h : Kept k m s u) : Kept k m s u.sendPending := by
  unfold State.sendPending
  exact h.forNat (fun _ _ h1 => Kept.ite h1.same.sendVector h1)

theorem writeHalf (h : Kept k m s u) : Kept k m s u.writeHalf := by
  unfold State.writeHalf
  extract_lets w1 vs2 x3 v4 v5
  have h6 : Kept k m s v4 := h.same.emit
  have h7 : Kept k m s v5 := h6.forNat (fun _ _ h8 => Kept.ite h8.sendVector h8)
  exact Kept.ite h h7.same

theorem sweepDone {sweep : ℕ} (h : Kept k m s u) : Kept k m s (u.sweepDone sweep) := by
  unfold State.sweepDone
  exact Kept.ite h h.writeHalf

theorem issueSweep (h : Kept k m s u) : Kept k m s u.issueSweep := by
  unfold State.issueSweep
  refine Kept.ite ?_ ?_
  · extract_lets w1 x2
    exact h.same.issueRead
  · exact h

theorem failFetch {r n : ℕ} (h : Kept k m s u) : Kept k m s (u.failFetch r n) := by
  induction n generalizing u with
  | zero => exact h
  | succ n ih => exact ih h.putCompletion.updRing

theorem readFor {r : Fin 10} {d : Desc} (h : Kept k m s u) : Kept k m s (u.readFor r d) := by
  unfold State.readFor
  split
  · exact h.foldl (fun _ _ h1 => h1.issueRead)
  · exact h

theorem issueBuffer {r : ℕ} {h' : r < 10} (h : Kept k m s u) : Kept k m s (u.issueBuffer r h') := by
  unfold State.issueBuffer
  split
  · exact h
  · exact h.updRing.readFor

theorem sweepFailed {c : ReadEnd} (h : Kept k m s u) : Kept k m s (u.sweepFailed c) := by
  unfold State.sweepFailed
  split
  · exact h
  · refine Kept.ite h ?_
    extract_lets v1 x2
    have h3 : Kept k m s v1 := h.countTimeout
    exact Kept.ite h3.same.issueRead h3.same.raise

theorem execDoorbellSweep {page : List Word} (h : Kept k m s u) : AnswersKept k m s (execDoorbellSweep page u) := by
  unfold Machine.execDoorbellSweep
  refine Kept.next ?_
  refine Kept.ite h ?_
  extract_lets v1 x2
  have h3 : Kept k m s v1 := h.issueSweep
  split
  · exact h3
  · refine Kept.ite h3.sweepFailed ?_
    extract_lets v4
    have h5 : Kept k m s v4 := h3.same
    exact h5.takeIndices.takeGen.fetchAll.sweepDone

theorem fetchFailed {r : Fin 10} {n : ℕ} {c : ReadEnd} (h : Kept k m s u) : Kept k m s (u.fetchFailed r n c) := by
  unfold State.fetchFailed
  split
  · exact h
  · refine Kept.ite h ?_
    extract_lets v1
    have h2 : Kept k m s v1 := h.countTimeout
    exact Kept.ite h2.updRing.issueRead h2.updRing.failFetch.raise.sweepDone

theorem bufferFailed {r : Fin 10} {c : ReadEnd} (h : Kept k m s u) : Kept k m s (u.bufferFailed r c) := by
  unfold State.bufferFailed
  split
  · exact h
  · refine Kept.ite h ?_
    extract_lets v1
    have h2 : Kept k m s v1 := h.countTimeout
    exact Kept.ite h2.updRing.readFor h2.updRing.complete.issueBuffer.raise

theorem execReadTimeout {r : FailedRead} (h : Kept k m s u) : AnswersKept k m s (execReadTimeout r u) := by
  unfold Machine.execReadTimeout
  refine Kept.next ?_
  split
  · exact h.sweepFailed
  · exact h.fetchFailed
  · exact h.bufferFailed

theorem execHostLost (h : Kept k m s u) : AnswersKept k m s (execHostLost u) := by
  unfold Machine.execHostLost
  refine Kept.next ?_
  split
  · exact h
  · refine Kept.ite h ?_
    extract_lets pol1 x2 v3 v4
    have h5 : Kept k m s v3 := h.same.setFld
    have h6 : Kept k m s v4 := Kept.ite (h5.forNat (fun _ _ h7 => h7.enterRundown)) h5
    exact h6.raise

theorem resetHif (h : Kept k m s u) : Kept k m s u.resetHif := by
  unfold State.resetHif
  exact h.trans ⟨rfl, fun hr => ⟨hr.1.filter _, fun e he => hr.2 e (List.mem_of_mem_filter he)⟩, fun _ => rfl, fun _ => rfl, fun _ => ⟨rfl, id⟩⟩

theorem execPerstN (h : Kept k m s u) : AnswersKept k m s (execPerstN u) := by
  unfold Machine.execPerstN
  extract_lets v1
  have h2 : Kept k m s v1 := h.resetHif
  exact Kept.next h2.openWindow

theorem execPerstNRelease (h : Kept k m s u) : AnswersKept k m s (execPerstNRelease u) := by
  unfold Machine.execPerstNRelease
  exact Kept.next h.same

theorem execPcieLinkUp {speed width : BitVec 3} (h : Kept k m s u) : AnswersKept k m s (execPcieLinkUp speed width u) := by
  unfold Machine.execPcieLinkUp
  exact Kept.next (Kept.ite h h.same.windowDone)

theorem execPcieLinkDown (h : Kept k m s u) : AnswersKept k m s (execPcieLinkDown u) := by
  unfold Machine.execPcieLinkDown
  refine Kept.next ?_
  refine Kept.ite h ?_
  extract_lets id1 x2 v3
  have h4 : Kept k m s v3 := h.same.raise
  exact h4.openWindow

theorem execD3hot (h : Kept k m s u) : AnswersKept k m s (execD3hot u) := by
  unfold Machine.execD3hot
  exact Kept.next (Kept.ite h h.same)

theorem hifStarted (h : Kept k m s u) : Kept k m s u.hifStarted := by
  unfold State.hifStarted
  exact h.same

theorem ringStarted {r : ℕ} (h : Kept k m s u) : Kept k m s (u.ringStarted r) := by
  unfold State.ringStarted
  exact h.updRing

theorem ringStopped {r : ℕ} (h : Kept k m s u) : Kept k m s (u.ringStopped r) := by
  unfold State.ringStopped
  extract_lets n1 v2
  have h3 : Kept k m s v2 := h.updRing
  exact Kept.ite h3.updRing h3

theorem bar2Write {ofs : ℕ} {v : Word} {be : BitVec 4} (h : Kept k m s u) : Kept k m s (u.bar2Write ofs v be) := by
  unfold State.bar2Write
  exact Kept.ite h.same.sendPending h

theorem msixControl {v : Word} (h : Kept k m s u) : Kept k m s (u.msixControl v) := by
  unfold State.msixControl
  exact h.same.sendPending

theorem powerState {v : Word} (h : Kept k m s u) : Kept k m s (u.powerState v) := by
  unfold State.powerState
  exact Kept.ite h.same (Kept.ite h.same h)

/-! ### Protection set and firmware (chapter 14) -/

theorem doPsetNonce {b : Buf} (h : Kept k m s u) : Kept k m s (u.doPsetNonce b).1 := by
  unfold State.doPsetNonce
  extract_lets n1 q2 v3 x4 v5
  have h6 : Kept k m s v3 := h.freeNext
  have h7 : Kept k m s v5 := h6.same
  dsimp only
  exact h7.emit

theorem execNonceExpiry (h : Kept k m s u) : AnswersKept k m s (execNonceExpiry u) := by
  unfold Machine.execNonceExpiry
  refine Kept.next ?_
  split
  · exact h
  · exact h.whenDue (fun h1 => h.same)

theorem tellReject {err : ℕ} (h : Kept k m s u) : Kept k m s (u.tellReject err) := by
  unfold State.tellReject
  exact h.raise

theorem rejectCommit {err : ℕ} (h : Kept k m s u) : Kept k m s (u.rejectCommit err) := by
  unfold State.rejectCommit
  refine Kept.tellReject ?_
  extract_lets v1 x2
  have h3 : Kept k m s v1 := h.dropWrite
  exact h3.same

theorem rejectEarly {ring code : ℕ} {st : Status} (h : Kept k m s u) : Kept k m s (u.rejectEarly ring code st) := by
  unfold State.rejectEarly
  exact Kept.ite h.tellReject h

theorem startCommit {kind imglen : ℕ} (h : Kept k m s u) : Kept k m s (u.startCommit kind imglen).1 := by
  unfold State.startCommit
  split
  · dsimp only
    exact h.tellReject
  · split
    · extract_lets x1 v2
      have h3 : Kept k m s v2 := Kept.ite h.same h
      dsimp only
      exact h3.rejectCommit
    · dsimp only
      exact h.same.writePart

theorem configureOctads (h : Kept k m s u) : Kept k m s u.configureOctads := by
  unfold State.configureOctads
  exact (h.forNat (fun _ _ h1 => Kept.ite (Kept.ite h1.updOct h1) (Kept.ite h1.haltSelection.updOct h1))).startLanes

theorem deliverKingpost (h : Kept false m s u) : Kept false m s u.deliverKingpost := h.setKp

theorem applySet {c : Commit} (h : Kept false m s u) : Kept false m s (u.applySet c) := by
  unfold State.applySet
  extract_lets x1 v2 v3
  have h4 : Kept false m s v2 := h.same
  have h5 : Kept false m s v3 := h4.loadRwp.configureOctads.deliverKingpost
  exact h5.raise

theorem applyKeys {c : Commit} {k' : Tab KeySlot × KeySlot} (h : Kept k m s u) : Kept k m s (u.applyKeys c k') := by
  unfold State.applyKeys
  exact h.same.raise

theorem finishWaiting {k' : WaitKind} {st : Status} {result : ℕ} (h : Kept k m s u) : Kept k m s (u.finishWaiting k' st result) := by
  unfold State.finishWaiting
  extract_lets done1 x2 v3
  have h4 : Kept k m s v3 := h.same
  exact h4.foldl (fun _ _ h5 => h5.completeNow)

theorem execPsetApplied {verified : Bool} (h : Kept false m s u) : AnswersKept false m s (execPsetApplied verified u) := by
  unfold Machine.execPsetApplied
  refine Kept.next ?_
  split
  · exact h
  · extract_lets f1 otp2 v3 v4 v5 v6
    have h7 : Kept false m s v3 := h.freeNext
    have h8 : Kept false m s v4 := Kept.ite h7.raise h7
    have h9 : Kept false m s v5 := (Kept.ite h7 h).finishWrite
    have h10 : Kept false m s v6 := by
      unfold v6
      split
      · exact h9.applyKeys
      · exact h9.applySet
    exact Kept.ite h (Kept.ite h7.rejectCommit.finishWaiting (Kept.ite h8.rejectCommit.finishWaiting h10.finishWaiting))

theorem shutCommit (h : Kept k m s u) : Kept k m s u.shutCommit := by
  unfold State.shutCommit
  split
  · exact h
  · refine Kept.ite h ?_
    extract_lets f1 v2 x3
    have h4 : Kept k m s v2 := h.freeNext
    exact Kept.ite h4.same h4.rejectCommit.finishWaiting

theorem doAttest {b : Buf} {challenge : BitVec 64} (h : Kept k m s u) : Kept k m s (u.doAttest b challenge).1 := by
  unfold State.doAttest
  split
  · dsimp only
    exact h.emit
  · split
    · dsimp only
      exact h.emit
    · exact h

theorem doFwInstall {slot imglen : ℕ} (h : Kept k m s u) : Kept k m s (u.doFwInstall slot imglen).1 := by
  unfold State.doFwInstall
  extract_lets img1
  split
  · exact h
  · split
    · exact h
    · split
      · exact h
      · split
        · exact h
        · split
          · exact h
          · dsimp only
            exact h.writePart

theorem select {ir : Byte} (h : Kept k m s u) : Kept k m s (u.select ir) := by
  unfold State.select
  exact h.same

theorem execJtagChallenge (h : Kept k m s u) : AnswersKept k m s (execJtagChallenge u) := by
  unfold Machine.execJtagChallenge
  refine Kept.next ?_
  refine Kept.ite h ?_
  extract_lets v1 n2 v3 x4
  have h5 : Kept k m s v1 := h.select
  have h6 : Kept k m s v3 := h5.freeNext
  exact h6.same.emit

theorem execJtagToken {t' : List Byte} (h : Kept k m s u) : AnswersKept k m s (execJtagToken t' u) := by
  unfold Machine.execJtagToken
  refine Kept.next ?_
  refine Kept.ite h ?_
  extract_lets err1 v2 x3 p4 scope5
  have h6 : Kept k m s v2 := h.select.emit
  exact Kept.ite h6.same.raise h6.same.raise

theorem execJtagMemoryAccess {addr : Word} {write : JtagAccess} (h : Kept k m s u) : AnswersKept k m s (execJtagMemoryAccess addr write u) := by
  unfold Machine.execJtagMemoryAccess
  refine Kept.next ?_
  refine Kept.ite h ?_
  extract_lets v1 x2
  have h3 : Kept k m s v1 := h.select
  split
  · exact Kept.ite h3 h3.emit
  · exact Kept.ite h3 h3.same
  · exact Kept.ite h3 h3.same
  · exact h3.emit
  · exact h3.emit

/-! ### The ends of writes and erases -/

theorem spoilSlot {w : PartWrite} (h : Kept k m s u) : Kept k m s (u.spoilSlot w) := by
  unfold State.spoilSlot
  split
  · exact h.same
  · exact h

theorem endWrite {w : PartWrite} (h : Kept k m s u) : Kept k m s (u.endWrite w) := by
  unfold State.endWrite
  extract_lets c1 x2
  split
  · exact h
  · exact h.same.putCopy.writePart
  · exact h.same.putCopy.writePart
  · exact h.same.putCopy.finishWaiting
  · exact h.putCopy
  · exact h.putCopy
  · exact h.putCopy
  · exact h.putCopy

theorem loseWrites {before : Belfry} (h : Kept k m s u) : Kept k m s (u.loseWrites before) := by
  unfold State.loseWrites
  extract_lets gone1 v2
  have h3 : Kept k m s v2 := Kept.ite h.rejectCommit.finishWaiting h
  exact Kept.ite h3.finishWaiting h3

theorem settleFreeze (h : Kept k m s u) : Kept k m s u.settleFreeze := by
  unfold State.settleFreeze
  exact Kept.ite h h.same.finishWaiting

theorem eraseEnds {sector : ℕ} (h : Kept k m s u) : Kept k m s (u.eraseEnds sector) := by
  unfold State.eraseEnds
  extract_lets mine1 v2
  have h3 : Kept k m s v2 := h.same.foldl (fun _ _ h4 => h4.spoilSlot)
  exact (h3.foldl (fun _ _ h5 => h5.endWrite)).settleFreeze

theorem execSectorErase {sector : Fin 512} {fails : Fin 4} (h : Kept k m s u) : AnswersKept k m s (execSectorErase sector fails u) := by
  unfold Machine.execSectorErase
  exact Kept.next (Kept.ite h h.eraseFails.loseWrites.eraseEnds)

theorem shutNvm (h : Kept k m s u) : Kept k m s u.shutNvm := by
  unfold State.shutNvm
  exact h.abortErase.settleFreeze.shutCommit

/-! ### Clocks (chapter 15) -/

theorem setPll {p : Pll} {x : PllSt} (h : Kept k m s u) : Kept k m s (u.setPll p x) := by
  unfold State.setPll
  split
  · exact h.same
  · exact h.same
  · exact h.same

theorem updPll {p : Pll} {f : PllSt → PllSt} (h : Kept k m s u) : Kept k m s (u.updPll p f) := by
  unfold State.updPll
  exact h.setPll

theorem enterIdle (h : Kept k m s u) : Kept k m s u.enterIdle := by
  unfold State.enterIdle
  extract_lets ms1 v2 x3 v4
  have h5 : Kept k m s v2 := h.freeNext
  have h6 : Kept k m s v4 := h5.same
  exact h6.setFld.configureOctads

theorem nextBootPoint (h : Kept k m s u) : Kept k m s u.nextBootPoint := by
  unfold State.nextBootPoint
  split
  · exact h.same
  · exact h

theorem searchFailed {p : Pll} (h : Kept k m s u) : Kept k m s (u.searchFailed p) := by
  unfold State.searchFailed
  extract_lets n1 v2 v3 x4
  have h5 : Kept k m s v2 := h.updPll
  have h6 : Kept k m s v3 := h5.updPll
  refine Kept.ite h5 ?_
  split
  · exact Kept.ite h6.same.raiseRecorded h6.raise
  · exact h6.setFld.raise.nextBootPoint
  · extract_lets v7
    have h8 : Kept k m s v7 := h6.raise.lanesOff
    exact h8.losePath.losePath

theorem searchFound {p : Pll} {band : BitVec 5} (h : Kept k m s u) : Kept k m s (u.searchFound p band) := by
  unfold State.searchFound
  extract_lets v1 v2 x3 x4
  have h5 : Kept k m s v1 := h.updPll
  have h6 : Kept k m s v2 := h5.setFld.setFld
  split
  · exact Kept.ite h6.same h6
  · exact h5

theorem execBandSearchComplete {p : Pll} {band : Option (BitVec 5)} (h : Kept k m s u) : AnswersKept k m s (execBandSearchComplete p band u) := by
  unfold Machine.execBandSearchComplete
  refine Kept.next ?_
  refine Kept.ite h ?_
  refine h.whenDue ?_
  intro h1
  split
  · exact h.searchFound
  · exact h.searchFailed

theorem execLockDeclared {p : Pll} (h : Kept k m s u) : AnswersKept k m s (execLockDeclared p u) := by
  unfold Machine.execLockDeclared
  extract_lets x ready
  refine Kept.next (.ite h (h.whenDue fun h => ?_))
  extract_lets v
  have hv : Kept k m s v := h.updPll
  cases p with
  | time => exact .ite hv (hv.setClk fun _ => rfl)
  | core => exact hv.nextBootPoint
  | quad q => exact hv

theorem clockTurn (h : Kept k m s u) : Kept k m s u.clockTurn := by
  unfold State.clockTurn
  exact h.same

theorem endBypass (h : Kept k m s u) : Kept k m s u.endBypass := by
  unfold State.endBypass
  split
  · exact h
  · extract_lets n1 v2 x3 v4
    have h5 : Kept k m s v2 := h.clockTurn
    have h6 : Kept k m s v4 := h5.same
    exact Kept.ite h6 h6.setFld.setFld

theorem endBoot (h : Kept k m s u) : Kept k m s u.endBoot := by
  unfold State.endBoot
  split
  · exact h
  · extract_lets x1 v2
    have h3 : Kept k m s v2 := h.same
    exact Kept.ite h3.enterIdle h3

theorem startRelock (h : Kept k m s u) : Kept k m s u.startRelock := by
  unfold State.startRelock
  extract_lets v1 x2 x3
  have h4 : Kept k m s v1 := Kept.ite h.measureRho h
  exact h4.same

theorem execSettlingWaitEnd {p : Pll} (h : Kept k m s u) : AnswersKept k m s (execSettlingWaitEnd p u) := by
  unfold Machine.execSettlingWaitEnd
  refine Kept.next ?_
  refine Kept.ite h ?_
  refine h.whenDue ?_
  intro h1
  extract_lets v2 x3 v4 x5 v6 x7 x8 v9
  have h10 : Kept k m s v2 := h.updPll
  have h11 : Kept k m s v4 := h10.endBypass.endBoot
  have h12 : Kept k m s v6 := h11.same
  have h13 : Kept k m s v9 := by
    unfold v9
    split
    · exact h12.same.count
    · exact h12
  split
  · exact h10.same.windowDone
  · exact Kept.ite h13.startRelock h13
  · exact h10.windowDone.startLanes

theorem execRelockTimeout {p : Pll} (h : Kept k m s u) : AnswersKept k m s (execRelockTimeout p u) := by
  unfold Machine.execRelockTimeout
  extract_lets x1
  refine Kept.next ?_
  refine Kept.ite h ?_
  refine h.whenDue ?_
  intro h2
  extract_lets v3
  have h4 : Kept k m s v3 := h.updPll
  split
  · exact h4.raise
  · exact h4.raise
  · exact h4

theorem toBypass {st : PllState} (h : Kept k m s u) : Kept k m s (u.toBypass st) := by
  unfold State.toBypass
  extract_lets v1 x2 v3 x4 x5
  have h6 : Kept k m s v1 := h.clockTurn
  have h7 : Kept k m s v3 := Kept.ite h h6.same
  exact h7.same

theorem execClkCoreUnlock (h : Kept k m s u) : AnswersKept k m s (execClkCoreUnlock u) := by
  unfold Machine.execClkCoreUnlock
  refine Kept.next ?_
  refine Kept.ite h ?_
  refine Kept.ite h.toBypass ?_
  extract_lets st1 v2 x3 x4
  have h5 : Kept k m s v2 := h.toBypass
  exact h5.same.raise

theorem phaseJump (h : Kept k m s u) : Kept k m s u.phaseJump := by
  unfold State.phaseJump
  refine Kept.ite h ?_
  extract_lets id1 v2 v3 x4 x5
  have h6 : Kept k m s v2 := h.raise.count
  have h7 : Kept k m s v3 := h6.openWindow
  exact Kept.ite h7.same h7.startRelock

theorem switchTo {b : Bool} (h : Kept k m s u) : Kept k m s (u.switchTo b) := by
  unfold State.switchTo
  exact h.same.count.raise.phaseJump

theorem chooseRef (h : Kept k m s u) : Kept k m s u.chooseRef := by
  unfold State.chooseRef
  extract_lets pref pick was x
  clear_value pick
  split
  · cases pick with
    | none => exact h
    | some b => exact .ite h.same.phaseJump h.same
  · exact .ite h.switchTo h

theorem execClkRefLoss {b : Bool} (h : Kept k m s u) : AnswersKept k m s (execClkRefLoss b u) := by
  unfold Machine.execClkRefLoss
  extract_lets x c v1 v2 y c' z v3
  have h1 : Kept k m s v1 := h.setClk (by cases b <;> exact id)
  have h2 : Kept k m s v2 := h1.raise
  have h3 : Kept k m s v3 := h2.setClk (by split <;> exact id)
  exact Kept.next (.ite h (.ite h2 (.ite h2.switchTo (.ite h3.raise h3))))

theorem execRefQualified {b : Bool} (h : Kept k m s u) : AnswersKept k m s (execRefQualified b u) := by
  unfold Machine.execRefQualified
  refine Kept.next (.ite h (h.whenDue fun h => ?_))
  exact (h.setClk (by cases b <;> exact id)).chooseRef

theorem execClkPhaseJump (h : Kept k m s u) : AnswersKept k m s (execClkPhaseJump u) := by
  unfold Machine.execClkPhaseJump
  exact Kept.next (Kept.ite h.phaseJump h)

/-! ### Startup, power and BIST (chapter 18) -/

theorem startSegment {b : ℕ} (h : Kept k m s u) : Kept k m s (u.startSegment b) := by
  unfold State.startSegment
  extract_lets x1 x2 v3 v4 hubs5 v6 v7
  have h8 : Kept k m s v3 := h.same
  have h9 : Kept k m s v4 := h8.foldl (fun _ _ h10 => Kept.ite h10 h10.huntLane)
  have h11 : Kept k m s v6 := h9.same
  have h12 : Kept k m s v7 := Kept.ite (h11.forNat (fun _ _ h13 => Kept.ite h13.discardWindow.updOct h13)) (Kept.ite (h11.forNat (fun _ _ h14 =>
    Kept.ite h14.updEng h14)) h11)
  exact h12.openWindow

theorem startBlock (h : Kept k m s u) : Kept k m s u.startBlock := by
  unfold State.startBlock
  split
  · exact h
  · exact h.startSegment

theorem bistAbandon {b : ℕ} (h : Kept k m s u) : Kept k m s (u.bistAbandon b) := by
  unfold State.bistAbandon
  exact h.same.windowDone.finishWaiting

theorem endAbandoned (h : Kept k m s u) : Kept k m s u.endAbandoned := by
  unfold State.endAbandoned
  split
  · exact Kept.ite h.bistAbandon h
  · exact h

theorem endBlock {b : ℕ} (h : Kept k m s u) : Kept k m s (u.endBlock b) := by
  unfold State.endBlock
  refine Kept.ite h.bistAbandon ?_
  extract_lets v1 y2 rest3 x4 v5 x6
  have h7 : Kept k m s v1 := h.windowDone
  have h8 : Kept k m s v5 := h7.same
  exact Kept.ite h8.startBlock (Kept.ite h8.same h8.finishWaiting)

theorem markUnusable {b : ℕ} (h : Kept k m s u) : Kept k m s (u.markUnusable b) := by
  unfold State.markUnusable
  extract_lets v1 v2
  have h3 : Kept k m s v1 := h.same.saveTable.raise
  have h4 : Kept k m s v2 := h3.lanesOff
  exact h4.foldl (fun _ _ h5 => h5.losePath)

theorem segIncomplete {b : ℕ} {counter : Word} (h : Kept k m s u) : Kept k m s (u.segIncomplete b counter) := by
  unfold State.segIncomplete
  extract_lets v1 y2 x3 v4
  have h5 : Kept k m s v1 := h.raise
  have h6 : Kept k m s v4 := h5.same
  exact Kept.ite h6.markUnusable.endBlock (Kept.ite h6.bistAbandon h6.startSegment)

theorem segFail {b : ℕ} {ball : BitVec 16} (h : Kept k m s u) : Kept k m s (u.segFail b ball) := by
  unfold State.segFail
  extract_lets v1 y2 x3 v4
  have h5 : Kept k m s v1 := h.raise
  have h6 : Kept k m s v4 := h5.same
  exact h6.markUnusable.endBlock

theorem segPass {b : ℕ} (h : Kept k m s u) : Kept k m s (u.segPass b) := by
  unfold State.segPass
  extract_lets y1 x2 v3 v4
  have h5 : Kept k m s v3 := h.same
  have h6 : Kept k m s v4 := h5.same.saveTable.raise
  exact Kept.ite h5.startSegment (Kept.ite h6.lanesOff.startLanes.endBlock (Kept.ite h5.lanesOff.startLanes.endBlock h5.endBlock))

theorem execBistSegmentEnd {counter : Word} {ok : Bool} {ball : BitVec 16} (h : Kept k m s u) :
    AnswersKept k m s (execBistSegmentEnd counter ok ball u) := by
  unfold Machine.execBistSegmentEnd
  refine Kept.next ?_
  split
  · exact h
  · exact Kept.ite h.bistAbandon (Kept.ite h.segIncomplete (Kept.ite h.segPass h.segFail))

theorem execBistSegmentTimeout {counter : Word} (h : Kept k m s u) : AnswersKept k m s (execBistSegmentTimeout counter u) := by
  unfold Machine.execBistSegmentTimeout
  refine Kept.next ?_
  split
  · exact h
  · exact Kept.ite h.bistAbandon (h.whenDue (fun h1 => h.segIncomplete))

theorem startBist {b : ℕ} {requalify : Bool} (h : Kept k m s u) : Kept k m s (u.startBist b requalify).1 := by
  unfold State.startBist
  extract_lets still1 x2 y3 x4
  split
  · exact h
  · split
    · exact h
    · split
      · exact h
      · split
        · exact h
        · dsimp only
          exact h.same.startBlock

theorem resetMain (h : Kept k false s u) : Kept k false s u.resetMain := by
  unfold State.resetMain
  extract_lets x1 x2 x3 x4 x5 x6 v
  have hv : Kept k false s v := Kept.loadUse (.loadSpares (h.trans
    ⟨rfl, fun _ => ⟨.nil, fun _ => nofun⟩, fun _ => rfl, fun _ => rfl, fun hm => (Bool.false_ne_true hm).elim⟩))
  exact hv.same

theorem bootFirmware (h : Kept k m s u) : Kept k m s u.bootFirmware := by
  unfold State.bootFirmware
  extract_lets a1 b2 p3 p4 x5
  exact Kept.ite h.same (Kept.ite h.same.raise h.same)

theorem mountNvm (h : Kept k m s u) : Kept k m s u.mountNvm := by
  unfold State.mountNvm
  extract_lets b1 top2 torn3 x4 v5
  have h6 : Kept k m s v5 := h.same.loadCells
  refine h6.foldl ?_
  intro _ _ h7
  split
  · exact h7.same.raise
  · exact h7

theorem loadSet (h : Kept false m s u) : Kept false m s u.loadSet := by
  unfold State.loadSet
  extract_lets lost
  have hlost {v : State} (h : Kept false m s v) : Kept false m s (lost v) := .ite h h.raise
  split
  · exact hlost h
  · split
    · exact hlost h.same
    · exact (h.same.same : Kept false m s { u with ps := _ }).loadRwp.deliverKingpost

theorem bootRecord (h : Kept k m s u) : Kept k m s u.bootRecord := by
  unfold State.bootRecord
  extract_lets old1 pcc2 x3 b4 v5 tombs6 v7
  have h8 : Kept k m s v5 := h.same.writeCount
  have h9 : Kept k m s v7 := h8.raise
  exact Kept.ite h9 h9.raise

theorem bootNext (h : Kept k m s u) : Kept k m s u.bootNext := by
  unfold State.bootNext
  exact Kept.ite h (Kept.ite h.same.startBlock h.same)

theorem shutStep (h : Kept k m s u) : Kept k m s u.shutStep := by
  unfold State.shutStep
  extract_lets n x v y
  have hv : Kept k m s v := by
    unfold v
    clear_value n
    split
    · exact h.same.writeCount
    · exact h.finishWrite.thaw
    · exact h.foldl fun _ _ h => .ite h.writeNote h
    · exact h.saveTable.finishWrite
  exact .ite h (.ite h.same hv.same)

theorem finishShut (h : Kept k m s u) : Kept k m s u.finishShut := by
  unfold State.finishShut
  exact h.shutStep.shutStep.shutStep.shutStep

theorem execPwrgoodAsserted {testEn : Bool} (h : Kept false false s u) : AnswersKept false false s (execPwrgoodAsserted testEn u) := by
  unfold Machine.execPwrgoodAsserted
  refine Kept.next (.ite h ?_)
  extract_lets v1 x v2 y v3 v4 v5 z v6
  have h1 : Kept false false s v1 := h.finishShut.resetMain
  have h2 : Kept false false s v2 := h1.same
  have h3 : Kept false false s v3 := h2.same
  have h4 : Kept false false s v4 := h3.bootFirmware
  have h5 : Kept false false s v5 := h4.mountNvm.loadSet.bootRecord
  have h6 : Kept false false s v6 := h5.same
  exact .ite h2.same (.ite h4 h6.bootNext)

theorem cutCommit (h : Kept k m s u) : Kept k m s u.cutCommit := by
  unfold State.cutCommit
  split
  · exact h
  · extract_lets f1 v2 x3 v4 pick5 v6 x7
    have h8 : Kept k m s v2 := h.freeNext
    have h9 : Kept k m s v4 := h8.same
    have h10 : Kept k m s v6 := h9.finishWrite
    refine Kept.ite h9.dropWrite ?_
    split
    · exact h10.same
    · exact h10

theorem startShutdown (h : Kept k m s u) : Kept k m s u.startShutdown := by
  unfold State.startShutdown
  refine Kept.ite h ?_
  extract_lets x1 v2
  have h3 : Kept k m s v2 := h.same
  exact Kept.ite h3.writeTomb h3

theorem cutNvm (h : Kept k m s u) : Kept k m s u.cutNvm := by
  unfold State.cutNvm
  extract_lets f1 v2 v3 v4
  have h5 : Kept k m s v2 := h.freeNext
  have h6 : Kept k m s v3 := Kept.ite h5.same h5
  have h7 : Kept k m s v4 := by
    unfold v4
    split
    · exact Kept.ite h6.same h6
    · exact h6
  exact Kept.ite h7.same h7

theorem stopMain (h : Kept k m s u) : Kept k m s u.stopMain := by
  unfold State.stopMain
  extract_lets v1 v2
  have h1 : Kept k m s v1 := h.forNat fun _ _ h => h.haltSelection.updOct
  have h2 : Kept k m s v2 := h1.cutCommit.forceSafe
  exact h2.same

theorem execPwrgoodDeasserted (h : Kept k m s u) : AnswersKept k m s (execPwrgoodDeasserted u) := by
  unfold Machine.execPwrgoodDeasserted
  refine Kept.next (.ite h.same ?_)
  extract_lets v1 v2
  have h1 : Kept k m s v1 := h.forNat fun _ _ h => .ite h.immediateBlock h
  have h2 : Kept k m s v2 := h1.sendAborts.startShutdown.stopMain
  exact h2.same

theorem execRailsInRange (h : Kept k m s u) : AnswersKept k m s (execRailsInRange u) := by
  unfold Machine.execRailsInRange
  refine Kept.next ?_
  extract_lets x1 v2 f3 v4 x5 x6
  have h7 : Kept k m s v2 := h.same
  have h8 : Kept k m s v4 := h7.freeNext
  exact Kept.ite h8.same h7

theorem execMainRailsLost (h : Kept k false s u) : AnswersKept k false s (execMainRailsLost u) := by
  unfold Machine.execMainRailsLost
  refine Kept.next ?_
  extract_lets v
  have hv : Kept k false s v := h.cutNvm.stopMain.resetMain
  exact hv.same

/-! ### Kingpost (chapter 13) -/

theorem setCh {c : KpCh} {x : KpChan} (h : Kept false m s u) : Kept false m s (u.setCh c x) := by
  cases c <;> exact h.setKp

theorem updCh {c : KpCh} {f : KpChan → KpChan} (h : Kept false m s u) : Kept false m s (u.updCh c f) := by
  unfold State.updCh
  exact h.setCh

theorem post {c : KpCh} {code src : ℕ} (h : Kept k m s u) : Kept k m s (u.post c code src) := by
  unfold State.post
  exact Kept.ite h.raise h

theorem holdParams (h : Kept false m s u) : Kept false m s u.holdParams := .ite h.setKp h

theorem execKpInputSample {ch : KpCh} {sin : BitVec 16} {sfb blk sout : Byte} (h : Kept false m s u) :
    AnswersKept false m s (execKpInputSample ch sin sfb blk sout u) := by
  unfold Machine.execKpInputSample
  refine Kept.next ?_
  refine Kept.ite h ?_
  extract_lets k1 now2 v3 v4
  have h5 : Kept false m s v3 := h.setCh
  have h6 : Kept false m s v4 := h5.holdParams
  exact h6.forNat (fun _ _ h7 => Kept.ite h7.updCh.post h7)

theorem enterSbk {ch : KpCh} {n : ℕ} (h : Kept false m s u) : Kept false m s (u.enterSbk ch n) := by
  unfold State.enterSbk
  extract_lets v1
  have h2 : Kept false m s v1 := h.updCh
  exact h2.abortLanes.post

theorem applyLoops {ch : KpCh} (h : Kept false m s u) : Kept false m s (u.applyLoops ch) := by
  unfold State.applyLoops
  refine h.forNat ?_
  intro _ _ h1
  extract_lets x2
  exact Kept.ite h1.enterSbk (Kept.ite h1.updCh.post h1)

theorem applyOuts {ch : KpCh} (h : Kept false m s u) : Kept false m s (u.applyOuts ch) := by
  unfold State.applyOuts
  refine h.forNat ?_
  intro _ _ h1
  extract_lets k2 x3
  exact Kept.ite (Kept.ite h1 h1.updCh.post) (Kept.ite h1.updCh h1)

theorem execKpEvaluationCycle {ch : KpCh} (h : Kept false m s u) : AnswersKept false m s (execKpEvaluationCycle ch u) := by
  unfold Machine.execKpEvaluationCycle
  refine Kept.next ?_
  refine Kept.ite h ?_
  extract_lets k01 k12 e3 fresh4 v5 x6 v7 v8 v9
  have h10 : Kept false m s v5 := h.setCh.foldl (fun _ _ h11 => h11.post)
  have h12 : Kept false m s v7 := by
    unfold v7
    split
    · exact h10.updCh.post
    · exact h10
  have h13 : Kept false m s v8 := h12.updCh
  have h14 : Kept false m s v9 := h13.foldl (fun _ _ h15 => h15.updCh)
  exact h14.applyLoops.applyOuts

theorem execKpInFaulty {ch : KpCh} {pair : Fin 16} (h : Kept false m s u) : AnswersKept false m s (execKpInFaulty ch pair u) := by
  unfold Machine.execKpInFaulty
  extract_lets k1 x2
  refine Kept.next ?_
  split
  · exact h
  · exact Kept.ite h h.updCh.post

theorem xchTrouble {ch : KpCh} {code : ℕ} (h : Kept false m s u) : Kept false m s (u.xchTrouble ch code) := by
  unfold State.xchTrouble
  extract_lets v1 v2 v3
  have h4 : Kept false m s v1 := h.updCh
  have h5 : Kept false m s v2 := h4.updCh.updCh
  have h6 : Kept false m s v3 := h5.updCh
  exact h6.applyLoops.updCh.applyOuts.post

theorem settleRun (h : Kept false m s u) : Kept false m s u.settleRun := by
  unfold State.settleRun
  extract_lets good1
  exact Kept.ite h.updCh.updCh h

theorem execKpHandshake {ch : KpCh} {count : BitVec 16} (h : Kept false m s u) : AnswersKept false m s (execKpHandshake ch count u) := by
  unfold Machine.execKpHandshake
  refine Kept.next ?_
  refine Kept.ite h ?_
  extract_lets o1 n2 good3 v4
  have h5 : Kept false m s v4 := h.updCh
  exact Kept.ite h5.updCh.xchTrouble h5.settleRun

theorem execKpXchTimeout {ch : KpCh} (h : Kept false m s u) : AnswersKept false m s (execKpXchTimeout ch u) := by
  unfold Machine.execKpXchTimeout
  exact Kept.next (Kept.ite h h.updCh.xchTrouble)

theorem endSrd {ch : KpCh} {code : ℕ} (h : Kept false m s u) : Kept false m s (u.endSrd ch code) := by
  unfold State.endSrd
  extract_lets octs1 v2
  have h3 : Kept false m s v2 := h.updCh
  exact h3.applyLoops.updCh.applyOuts.post

theorem srdTick {ch : KpCh} {m' : Option ℕ} (h : Kept false m s u) : Kept false m s (u.srdTick ch m') := by
  unfold State.srdTick
  extract_lets k1 r2 t3 e4 above5 v6
  have h7 : Kept false m s v6 := h.updCh
  exact Kept.ite h7.endSrd (Kept.ite h7.endSrd h7)

theorem execKpSrdMeasurement {ch : KpCh} {words : Option (List (BitVec 24))} (h : Kept false m s u) :
    AnswersKept false m s (execKpSrdMeasurement ch words u) := by
  unfold Machine.execKpSrdMeasurement
  extract_lets m1 v2 k3
  have h4 : Kept false m s v2 := Kept.ite h.updCh h
  refine Kept.next ?_
  refine Kept.ite h4 ?_
  split
  · exact h4.srdTick
  · exact Kept.ite h4.endSrd h4.updCh
  · extract_lets seff5
    exact h4.updCh.srdTick

theorem execKpFbTimeout {ch : KpCh} {out : Fin 8} (h : Kept false m s u) : AnswersKept false m s (execKpFbTimeout ch out u) := by
  unfold Machine.execKpFbTimeout
  extract_lets k1 x2 again3 b4 v5 v6
  have h7 : Kept false m s v5 := h.updCh
  have h8 : Kept false m s v6 := h7.post
  refine Kept.next ?_
  split
  · exact h
  · extract_lets late9
    exact Kept.ite h (Kept.ite h8 h8.updCh.applyOuts)

theorem execDarkPulseStart {ch : KpCh} {out : Fin 8} (h : Kept false m s u) : AnswersKept false m s (execDarkPulseStart ch out u) := by
  unfold Machine.execDarkPulseStart
  extract_lets k1 x2
  exact Kept.next (Kept.ite h h.updCh)

theorem execKpTestFail {ch : KpCh} {out : Fin 8} (h : Kept false m s u) : AnswersKept false m s (execKpTestFail ch out u) := by
  unfold Machine.execKpTestFail
  extract_lets x y fail v
  have hfail {w : State} {c : KpCh} (h : Kept false m s w) : Kept false m s (fail w c) := h.updCh.applyOuts
  have hv : Kept false m s v := h.updCh
  exact Kept.next (.ite h (.ite (hfail (hfail hv)).post (.ite h.updCh.post h)))

theorem execKpParamApply (h : Kept false m s u) : AnswersKept false m s (execKpParamApply u) := by
  unfold Machine.execKpParamApply
  refine Kept.next ?_
  split
  · exact .ite h h.setKp
  · exact h

theorem execKpParamReject (h : Kept false m s u) : AnswersKept false m s (execKpParamReject u) := by
  unfold Machine.execKpParamReject
  extract_lets x y z v
  have hv : Kept false m s v := h.setKp
  exact Kept.next (.ite h (.ite hv.raise hv))

theorem execVkpOutOfRange (h : Kept false m s u) : AnswersKept false m s (execVkpOutOfRange u) := h.setKp.next

theorem execVkpInRange (h : Kept false m s u) : AnswersKept false m s (execVkpInRange u) := by
  unfold Machine.execVkpInRange
  extract_lets x y v
  have hv : Kept false m s v := (h.setKp (x := { Kingpost.init with vkp := true })).same
  exact Kept.next (.ite h (.ite hv.deliverKingpost hv))

theorem execKingpostViewAction (h : Kept k m s u) : AnswersKept k m s (execKingpostViewAction u) := by
  unfold Machine.execKingpostViewAction
  exact Kept.next (Kept.ite h (h.forNat (fun _ _ h1 => Kept.ite (Kept.ite h1.toBlocked h1) (Kept.ite h1.enterRundown h1))))

/-! ### Edges and trips (chapter 4) -/

theorem dpwSource {n : ℕ} {d : Dpwm} (h : Kept k m s u) : Kept k m s (u.dpwSource n d) := by
  unfold State.dpwSource
  exact h.setFld

theorem dpwPeriod {n : ℕ} {d : Dpwm} {start j : ℕ} (h : Kept k m s u) : Kept k m s (u.dpwPeriod n d start j) := by
  unfold State.dpwPeriod
  extract_lets e1 h2 q3 r4 w5 a6 rise7 fall8 v9 v10
  have h11 : Kept k m s v9 := Kept.ite h.count h
  have h12 : Kept k m s v10 := Kept.ite h11.flag h11
  exact h12.same

theorem execDpwmPeriodStart {o : Fin 24} (h : Kept k m s u) : AnswersKept k m s (execDpwmPeriodStart o u) := by
  unfold Machine.execDpwmPeriodStart
  extract_lets d1 z2 start3 d4 d5 z6 on7 j8 v9
  have h10 : Kept k m s v9 := Kept.ite h.dpwSource h
  exact Kept.next (Kept.ite h (Kept.ite h10.same (Kept.ite h10.same h10.dpwPeriod)))

theorem execDpwmEdge {o : Fin 24} (h : Kept k m s u) : AnswersKept k m s (execDpwmEdge o u) := by
  unfold Machine.execDpwmEdge
  extract_lets d1
  refine Kept.next ?_
  refine Kept.ite h ?_
  split
  · exact h.whenDue (fun h2 => h.same)
  · exact h.whenDue (fun h3 => h.same)
  · exact h

theorem tripAct {m' : ℕ} (h : Kept k m s u) : Kept k m s (u.tripAct m') := by
  unfold State.tripAct
  extract_lets map1 octs2 v3 v4
  have h5 : Kept k m s v3 := h.forceSafe
  have h6 : Kept k m s v4 := h5.forNat (fun _ _ h7 => Kept.ite h7.toBlocked h7)
  exact h6.raise

theorem execTripIn {m' : Fin 16} {level : Bool} (h : Kept k m s u) : AnswersKept k m s (execTripIn m' level u) := by
  unfold Machine.execTripIn
  refine Kept.next ?_
  refine Kept.ite h ?_
  extract_lets t1 t2
  exact Kept.ite h.same.tripAct h.same

theorem doTripClear {mask : ℕ} (h : Kept k m s u) : Kept k m s (u.doTripClear mask).1 := by
  unfold State.doTripClear
  extract_lets named1 bad2
  split
  · dsimp only
    exact h.foldl (fun _ _ h3 => h3.same)
  · dsimp only
    exact h.foldl (fun _ _ h4 => h4.flag.raise)

theorem execDebugHalt (h : Kept k m s u) : AnswersKept k m s (execDebugHalt u) := by
  unfold Machine.execDebugHalt
  exact Kept.next (Kept.ite h (h.same.forNat (fun _ _ h1 => h1.modeLeave)))

theorem haltOutputs (h : Kept k m s u) : Kept k m s u.haltOutputs := by
  unfold State.haltOutputs
  refine Kept.ite h ?_
  extract_lets v1 v2 x3
  have h4 : Kept k m s v1 := h.forNat (fun _ _ h5 => h5.same)
  have h6 : Kept k m s v2 := h4.updEng
  exact h6.same

theorem execDebugRelease (h : Kept k m s u) : AnswersKept k m s (execDebugRelease u) := by
  unfold Machine.execDebugRelease
  exact Kept.next (Kept.ite h h.same)

theorem execDebugGrantExpiry (h : Kept k m s u) : AnswersKept k m s (execDebugGrantExpiry u) := by
  unfold Machine.execDebugGrantExpiry
  refine Kept.next ?_
  split
  · exact h
  · exact h.whenDue (fun h1 => h.same)

/-! ### Engines (chapter 7) -/

theorem putMbox {e c : ℕ} {w : Word} {tick : ℕ} (h : Kept k m s u) : Kept k m s (u.putMbox e c w tick) := by
  unfold State.putMbox
  exact h.updEng

theorem limitFlag {e c : ℕ} (h : Kept k m s u) : Kept k m s (u.limitFlag e c) := by
  unfold State.limitFlag
  exact h.flag

theorem feed {typ index tick : ℕ} {f : ℕ → GChan → Word × Bool} (h : Kept k m s u) : Kept k m s (u.feed typ index tick f) := by
  unfold State.feed
  refine h.forNat ?_
  intro _ _ h1
  split
  · exact h1
  · refine h1.forNat ?_
    intro _ _ h2
    split
    · refine Kept.ite ?_ ?_
      · extract_lets r3 v4
        have h5 : Kept k m s v4 := h2.putMbox
        exact Kept.ite h5.limitFlag h5
      · exact h2
    · exact h2

theorem latchMbox {e c : ℕ} {f : Word × ℕ} {tick : ℕ} {x : GChan} (h : Kept k m s u) : Kept k m s (u.latchMbox e c f tick x) := by
  unfold State.latchMbox
  extract_lets v1 m2 stale3 twice4 v5 lvl6 v7
  have h8 : Kept k m s v1 := by
    unfold v1
    split
    · exact h.putMbox
    · exact Kept.ite h.setPointUnderrun h
  have h9 : Kept k m s v5 := h8.updEng
  have h10 : Kept k m s v7 := Kept.ite h9.raise h9
  exact Kept.ite h10.raise h10

theorem installGraph {e : ℕ} {g : Graph} (h : Kept k m s u) : Kept k m s (u.installGraph e g) := by
  unfold State.installGraph
  extract_lets x y v1 b v2 v3
  have h1 : Kept k m s v1 := h.updEng
  have h2 : Kept k m s v2 := h1.forNat fun _ _ h => h.setReg
  have h3 : Kept k m s v3 := h2.setReg.setReg
  exact .ite h3.same h3

theorem sampleSettings {e : ℕ} {frame : Word} (h : Kept k m s u) : Kept k m s (u.sampleSettings e frame) := by
  unfold State.sampleSettings
  extract_lets v1 v2 v3
  have h4 : Kept k m s v1 := by
    unfold v1
    split
    · exact h.installGraph
    · exact h
  have h5 : Kept k m s v2 := by
    unfold v2
    split
    · exact h4.updEng
    · exact h4
  have h6 : Kept k m s v3 := h5.updEng
  split
  · exact Kept.ite h6.updEng h6
  · exact h6

theorem injSample {e : ℕ} {frame : Word} (h : Kept k m s u) : Kept k m s (u.injSample e frame) := by
  unfold State.injSample
  extract_lets v1
  have h2 : Kept k m s v1 := by
    refine h.forNat ?_
    intro _ _ h3
    extract_lets r4 v5
    have h6 : Kept k m s v5 := h3.updEng
    exact Kept.ite h6.flag.raise h6
  exact h2.updEng

theorem startSample {e : ℕ} {f : Word × ℕ} {tick : ℕ} (h : Kept k m s u) : Kept k m s (u.startSample e f tick) := by
  unfold State.startSample
  refine Kept.ite h ?_
  extract_lets v1 v2
  have h3 : Kept k m s v1 := h.updEng
  have h4 : Kept k m s v2 := h3.sampleSettings.injSample
  split
  · exact h4
  · extract_lets v5
    have h6 : Kept k m s v5 := by
      refine h4.forNat ?_
      intro _ _ h7
      split
      · exact Kept.ite h7.latchMbox h7
      · exact h7
    exact h6.updEng

theorem captureSample {e : ℕ} {g : Graph} {above : Bool} (h : Kept k m s u) : Kept k m s (u.captureSample e g above) := by
  unfold State.captureSample
  extract_lets b1 x2 d3 n4 sigs5 mask6 fl7 x8 v9 r10
  have h11 : Kept k m s v9 := h.updEng
  have h12 : Kept k m s r10.1 := h11.capture
  exact Kept.ite h (Kept.ite h12 h11.count)

theorem overrun {e : ℕ} {priv : Bool} (h : Kept k m s u) : Kept k m s (u.overrun e priv) := by
  unfold State.overrun
  extract_lets lvl1 v2 v3 run4
  have h5 : Kept k m s v2 := h.updEng.count
  have h6 : Kept k m s v3 := h5.raise
  exact Kept.ite h6.updEng.raise h6.updEng

theorem profileCommit {g : Graph} {vals : Tab (List Word)} {e : Engine} (h : Kept k m s u) : Kept k m s (u.profileCommit g vals e) := by
  unfold State.profileCommit
  refine h.forNat ?_
  intro _ _ h1
  split
  · refine Kept.ite ?_ ?_
    · extract_lets p2 x3 v4 p5 num6 r7
      have h8 : Kept k m s v4 := Kept.ite h1.flag h1
      exact h8.same
    · exact h1
  · exact h1

theorem commitSample {e : ℕ} {g : Graph} {tick : ℕ} (h : Kept k m s u) : Kept k m s (u.commitSample e g tick) := by
  unfold State.commitSample
  extract_lets x1 pos2 inc3 r4 c5 sp6 v7 b8 v9 v10 v11
  have h12 : Kept k m s v7 := h.setEng
  have h13 : Kept k m s v9 := h12.foldl (fun _ _ h14 => h14.flag)
  have h15 : Kept k m s v10 := h13.foldl (fun _ _ h16 => h16.limitFlag)
  have h17 : Kept k m s v11 := Kept.ite h15.count h15
  exact Kept.ite h17.profileCommit h17

theorem countCorrected {m' reads : ℕ} (h : Kept k m s u) : Kept k m s (u.countCorrected m' reads) := by
  unfold State.countCorrected
  exact h.same

theorem lateSample {e : ℕ} {g : Graph} {c : Sched} {tick : ℕ} (h : Kept k m s u) : Kept k m s (u.lateSample e g c tick) := by
  unfold State.lateSample
  extract_lets p41
  exact h.overrun.captureSample

theorem countReads {e : ℕ} {reads : List BlockReads} {other : BitVec 16} (h : Kept k m s u) : Kept k m s (u.countReads e reads other) := by
  unfold State.countReads
  exact h.countCorrected

theorem engineDeadline {e : ℕ} {reads : List BlockReads} {tick : ℕ} (h : Kept k m s u) : Kept k m s (u.engineDeadline e reads tick) := by
  unfold State.engineDeadline
  extract_lets x1
  split
  · exact h
  · refine Kept.ite h ?_
    extract_lets c2
    exact Kept.ite h.commitSample.captureSample h.lateSample

theorem abandonSample {e : ℕ} (h : Kept k m s u) : Kept k m s (u.abandonSample e) := by
  unfold State.abandonSample
  split
  · exact Kept.ite h.updEng.lateSample.updEng h
  · exact h

theorem execDoubleBitError {m' : Mem} {addr : Word} (h : Kept k m s u) : AnswersKept k m s (execDoubleBitError m' addr u) := by
  unfold Machine.execDoubleBitError
  refine Kept.next ?_
  refine Kept.ite h ?_
  split
  · exact h.raise
  · exact h.abandonSample.raise
  · exact h.abandonSample.raise

/-! ### Loads -/

theorem doLawLoad {e imglen : ℕ} (h : Kept k m s u) : Kept k m s (u.doLawLoad e imglen).1 := by
  unfold State.doLawLoad
  extract_lets img1 code2 l3 priv4 g5 v6 x7
  have h8 : Kept k m s v6 := h.updEng
  split
  · dsimp only
    exact h.updEng
  · dsimp only
    exact Kept.ite h8.same h8

theorem doModeLoad {e imglen : ℕ} (h : Kept k m s u) : Kept k m s (u.doModeLoad e imglen).1 := by
  unfold State.doModeLoad
  extract_lets img1 code2
  split
  · dsimp only
    exact h.updEng
  · dsimp only
    exact h.updEng

theorem doMboxWrite {e : ℕ} {ws : List (Byte × Word)} (h : Kept k m s u) : Kept k m s (u.doMboxWrite e ws).1 := by
  unfold State.doMboxWrite
  split
  · exact h
  · split
    · dsimp only
      exact h.foldl (fun _ _ h1 => h1.putMbox)
    · exact h

theorem doCoefWrite {e first : ℕ} {data : List Byte} (h : Kept k m s u) : Kept k m s (u.doCoefWrite e first data).1 := by
  unfold State.doCoefWrite
  split
  · exact h
  · extract_lets ws1
    dsimp only
    exact h.updEng

theorem doCoefSwap {e : ℕ} {late : Bool} (h : Kept k m s u) : Kept k m s (u.doCoefSwap e late).1 := by
  unfold State.doCoefSwap
  extract_lets x1
  split
  · exact h
  · split
    · exact h
    · dsimp only
      exact h.updEng

theorem doInjStart {e : ℕ} {p : InjParams} {late : Bool} (h : Kept k m s u) : Kept k m s (u.doInjStart e p late).1 := by
  unfold State.doInjStart
  extract_lets x1 j2 portOk3 x4
  split
  · exact h
  · split
    · exact h
    · dsimp only
      exact h.updEng

theorem doInjStop {e mask : ℕ} (h : Kept k m s u) : Kept k m s (u.doInjStop e mask).1 := by
  unfold State.doInjStop
  dsimp only
  exact h.forNat (fun _ _ h1 => Kept.ite h1.updEng h1)

theorem putSetPoint {c : ℕ} {frame value : Word} (h : Kept k m s u) : Kept k m s (u.putSetPoint c frame value) := by
  unfold State.putSetPoint
  exact h.same

theorem profileStep {g : Graph} {i : ℕ} {b : GBlock} (h : Kept k m s u) : Kept k m s (u.profileStep g i b) := by
  unfold State.profileStep
  extract_lets e p c hz vs as_ js rw' ra flag v1 pr x v2 p' n r v3
  have hflag {w : State} {f : Bool} (h : Kept k m s w) : Kept k m s (flag w f) := .ite h.flag h
  have h1 : Kept k m s v1 := hflag h
  have h3 : Kept k m s v3 := (hflag h1).same
  refine .ite h1 (h3.forNat fun _ _ h => ?_)
  split
  · exact .ite (h.foldl fun _ _ h => h.putSetPoint) h
  · exact h

theorem queueStep (h : Kept k m s u) : Kept k m s u.queueStep := by
  unfold State.queueStep
  extract_lets e1
  split
  · exact h
  · extract_lets v2
    have h3 : Kept k m s v2 := by
      refine h.forNat ?_
      intro _ _ h4
      split
      · exact Kept.ite h4.profileStep h4
      · exact h4
    exact Kept.ite h3 (h3.forNat (fun _ _ h5 => Kept.ite h5.putSetPoint h5))

/-! ### Network time (chapter 10) -/

theorem updTrig {n : ℕ} {f : Trig → Trig} (h : Kept k m s u) : Kept k m s (u.updTrig n f) := by
  unfold State.updTrig
  exact h.same

theorem trgWritten {n : ℕ} (h : Kept k m s u) : Kept k m s (u.trgWritten n) := by
  unfold State.trgWritten
  exact Kept.ite h.updTrig (Kept.ite h h.updTrig)

theorem trgRegrid (h : Kept k m s u) : Kept k m s u.trgRegrid := by
  unfold State.trgRegrid
  refine h.forNat ?_
  intro _ _ h1
  split
  · exact Kept.ite h1 h1.updTrig
  · exact h1

theorem trgStep (h : Kept k m s u) : Kept k m s u.trgStep := by
  unfold State.trgStep
  refine h.forNat ?_
  intro _ _ h1
  split
  · extract_lets v2
    have h3 : Kept k m s v2 := h1.updTrig
    exact Kept.ite h3.raise h3
  · exact h1

theorem stepTime {v : ℤ} (h : Kept k m s u) : Kept k m s (u.stepTime v) := by
  unfold State.stepTime
  extract_lets x v1 v2
  have h1 : Kept k m s v1 := h.same
  have h2 : Kept k m s v2 := h1.trgStep
  exact h2.same

theorem spOccurrence {n : ℕ} (h : Kept k m s u) : Kept k m s (u.spOccurrence n) := by
  unfold State.spOccurrence
  extract_lets new1 v2 occ3 v4
  have h5 : Kept k m s v2 := h.count.raise
  have h6 : Kept k m s v4 := h5.same
  exact Kept.ite h6.raise h6

theorem fire {n t' : ℕ} (h : Kept k m s u) : Kept k m s (u.fire n t') := by
  unfold State.fire
  extract_lets x1 v2 p3 v4 on5
  have h6 : Kept k m s v2 := h.updTrig
  have h7 : Kept k m s v4 := Kept.ite h6.spOccurrence h6
  exact Kept.ite h.spOccurrence (Kept.ite h6 h7.same)

theorem execTriggerFiring {n : Fin 8} (h : Kept k m s u) : AnswersKept k m s (execTriggerFiring n u) := by
  unfold Machine.execTriggerFiring
  extract_lets x1 k2
  refine Kept.next ?_
  refine Kept.ite (Kept.ite (h.whenDue (fun h3 => h.fire)) h) ?_
  refine Kept.ite h ?_
  split
  · exact h.whenDue (fun h4 => h.fire.updTrig)
  · exact Kept.ite h.fire.updTrig h
  · exact h

theorem execConvstEnd {n : Fin 8} (h : Kept k m s u) : AnswersKept k m s (execConvstEnd n u) := by
  unfold Machine.execConvstEnd
  extract_lets x1
  exact Kept.next (Kept.ite (h.whenDue (fun h2 => h.updTrig)) h)

theorem execSamplePortClockStart {n : Fin 8} (h : Kept k m s u) : AnswersKept k m s (execSamplePortClockStart n u) := by
  unfold Machine.execSamplePortClockStart
  extract_lets p1
  refine Kept.next ?_
  split
  · exact Kept.ite h (h.whenDue (fun h2 => h.same))
  · exact h

theorem execSamplePortFrame {n : Fin 8} {words : List (BitVec 24)} (h : Kept k m s u) : AnswersKept k m s (execSamplePortFrame n words u) := by
  unfold Machine.execSamplePortFrame
  extract_lets p1 a2 w3 nch4
  refine Kept.next ?_
  split
  · refine Kept.ite h ?_
    refine h.whenDue ?_
    intro h5
    extract_lets v6
    have h7 : Kept k m s v6 := h.same
    exact Kept.ite h7 (h7.forNat (fun _ _ h8 => h8.feed))
  · exact h

theorem execTimestampCapture {i : Fin 8} {x : PinEdge} (h : Kept k m s u) : AnswersKept k m s (execTimestampCapture i x u) := by
  unfold Machine.execTimestampCapture
  extract_lets rising1 held2 edge3 m4 x5 v6 r7
  have h8 : Kept k m s v6 := h.same
  have h9 : Kept k m s r7.1 := h8.capture
  exact Kept.next (Kept.ite h (Kept.ite h8 (Kept.ite h9 h8.count)))

theorem svAccept {st : ℕ} {a : AsduMsg} (h : Kept k m s u) : Kept k m s (u.svAccept st a) := by
  unfold State.svAccept
  extract_lets b1 x2 rate3 d4 v5 t6 v7 v8
  have h9 : Kept k m s v5 := Kept.ite h.countAt h
  have h10 : Kept k m s v7 := Kept.ite h9.freeNext h9
  have h11 : Kept k m s v8 := h10.same
  refine Kept.ite h ?_
  refine h11.forNat ?_
  intro _ _ h12
  split
  · exact Kept.ite h12 h12.feed
  · exact h12

theorem execAsdu {port : Fin 2} {a : AsduMsg} (h : Kept k m s u) : AnswersKept k m s (execAsdu port a u) := by
  unfold Machine.execAsdu
  exact Kept.next (Kept.ite h (h.forNat (fun _ _ h1 => Kept.ite h1 (Kept.ite h1.flag h1.svAccept))))

theorem execSvLost {st : Fin 32} (h : Kept k m s u) : AnswersKept k m s (execSvLost st u) := by
  unfold Machine.execSvLost
  extract_lets x1 b2
  refine Kept.next ?_
  refine Kept.ite h ?_
  refine h.whenDue ?_
  intro h3
  extract_lets new4 occ5 v6
  have h7 : Kept k m s v6 := h.same.raise
  exact Kept.ite h7.raise h7

theorem servoUpdate {theta ts : ℤ} (h : Kept k m s u) : Kept k m s (u.servoUpdate theta ts) := by
  unfold State.servoUpdate
  refine Kept.ite h ?_
  extract_lets i1 y2 x3
  exact h.same

theorem toServo {v : Servo} (h : Kept k m s u) : Kept k m s (u.toServo v) := by
  unfold State.toServo
  extract_lets v1 x2
  have h3 : Kept k m s v1 := Kept.ite h.setReg h
  exact h3.same

theorem enterSlew {ta tb ts : ℤ} (h : Kept k m s u) : Kept k m s (u.enterSlew ta tb ts) := by
  unfold State.enterSlew
  extract_lets i1 x2 v3 sl4 x5
  have h6 : Kept k m s v3 := h.same.toServo
  exact h6.same.raise

theorem enterSplit (h : Kept k m s u) : Kept k m s u.enterSplit := by
  unfold State.enterSplit
  extract_lets v1 x2
  have h3 : Kept k m s v1 := h.toServo
  exact h3.same.raise

theorem classify {ta tb ts : ℤ} (h : Kept k m s u) : Kept k m s (u.classify ta tb ts) := by
  unfold State.classify
  refine Kept.ite ?_ ?_
  · extract_lets x1 v2
    have h3 : Kept k m s v2 := h.same
    exact Kept.ite h3 h3.enterSplit
  · extract_lets x4 v5 x6 v7 x8 v9
    have h10 : Kept k m s v5 := h.same
    have h11 : Kept k m s v7 := h10.toServo
    have h12 : Kept k m s v9 := h11.same
    exact Kept.ite h10.same.enterSlew (Kept.ite h12.servoUpdate h12)

theorem servoSample {theta ts : ℤ} (h : Kept k m s u) : Kept k m s (u.servoSample theta ts) := by
  unfold State.servoSample
  extract_lets t v keep w1 x1 w2 x2 w3 x3 sl
  have hv : Kept k m s v := h.same
  have hkeep {w : State} (h : Kept k m s w) : Kept k m s (keep w) := h.same
  have h1 : Kept k m s w1 := hv.stepTime
  have h2 : Kept k m s w2 := h1.same
  have h3 : Kept k m s w3 := hv.toServo
  split
  · split
    · exact hkeep hv
    · exact .ite h2.toServo.raise hv.classify
  · refine .ite hv.same.servoUpdate ?_
    split
    · exact (hkeep hv).count
    · exact hv.classify
  · exact .ite h3.same.servoUpdate (.ite (hkeep hv).enterSplit (hkeep hv.same))
  · split
    · exact hkeep hv
    · exact hv.classify

theorem syncComplete {t2 t1 c : ℤ} (h : Kept k m s u) : Kept k m s (u.syncComplete t2 t1 c) := by
  unfold State.syncComplete
  extract_lets x1 t2 v3 ts4 x5 v6
  have h7 : Kept k m s v3 := h.same
  have h8 : Kept k m s v6 := h7.same
  split
  · exact Kept.ite h8.servoSample h7
  · exact h7

theorem execSync {port : Fin 2} {m' : PtpMsg} (h : Kept k m s u) : AnswersKept k m s (execSync port m' u) := by
  unfold Machine.execSync
  refine Kept.next ?_
  refine Kept.ite h ?_
  extract_lets t21 x2 v3 x4
  have h5 : Kept k m s v3 := h.same
  exact Kept.ite h5.same h5.syncComplete

theorem execFollowUp {port : Fin 2} {m' : PtpMsg} (h : Kept k m s u) : AnswersKept k m s (execFollowUp port m' u) := by
  unfold Machine.execFollowUp
  refine Kept.next ?_
  refine Kept.ite h ?_
  split
  · refine Kept.ite ?_ ?_
    · extract_lets x1 v2
      have h3 : Kept k m s v2 := h.same
      exact Kept.ite h3.syncComplete h3
    · exact h
  · exact h

theorem delaySample {x : ℤ} (h : Kept k m s u) : Kept k m s (u.delaySample x) := by
  unfold State.delaySample
  extract_lets t1 d2
  exact h.same

theorem execDelayResp {port : Fin 2} {m' : PtpMsg} (h : Kept k m s u) : AnswersKept k m s (execDelayResp port m' u) := by
  unfold Machine.execDelayResp
  refine Kept.next ?_
  refine Kept.ite h ?_
  extract_lets x1 v2 x3
  have h4 : Kept k m s v2 := h.same
  split
  · exact Kept.ite h4.same.delaySample h4
  · exact h4

theorem execPdelayReq {port : Fin 2} {m' : PtpMsg} (h : Kept k m s u) : AnswersKept k m s (execPdelayReq port m' u) := by
  unfold Machine.execPdelayReq
  refine Kept.next ?_
  refine Kept.ite h ?_
  extract_lets t21 t32
  exact Kept.ite h.emit h.emit.emit

theorem execPdelayResp {port : Fin 2} {m' : PtpMsg} (h : Kept k m s u) : AnswersKept k m s (execPdelayResp port m' u) := by
  unfold Machine.execPdelayResp
  refine Kept.next ?_
  refine Kept.ite h ?_
  split
  · refine Kept.ite ?_ ?_
    · extract_lets x1 v2
      have h3 : Kept k m s v2 := h.same
      exact Kept.ite h3.delaySample h3
    · exact h
  · exact h

theorem selectMaster (h : Kept k m s u) : Kept k m s u.selectMaster := by
  unfold State.selectMaster
  split
  · exact h.same
  · extract_lets new1 x2
    exact h.same

theorem execAnnounce {port : Fin 2} {m' : AnnounceMsg} (h : Kept k m s u) : AnswersKept k m s (execAnnounce port m' u) := by
  unfold Machine.execAnnounce
  refine Kept.next ?_
  refine Kept.ite h ?_
  extract_lets ms1 x2
  exact h.same.selectMaster

theorem enterHoldover (h : Kept k m s u) : Kept k m s u.enterHoldover := by
  unfold State.enterHoldover
  refine Kept.ite ?_ ?_
  · extract_lets v1 x2
    have h3 : Kept k m s v1 := h.toServo
    exact h3.same.raise
  · exact h

theorem execAnnounceTimeout (h : Kept k m s u) : AnswersKept k m s (execAnnounceTimeout u) := by
  unfold Machine.execAnnounceTimeout
  refine Kept.next ?_
  split
  · refine Kept.ite h ?_
    refine h.whenDue ?_
    intro h1
    extract_lets v2
    have h3 : Kept k m s v2 := h.selectMaster
    exact Kept.ite h3 h3.enterHoldover
  · exact h

theorem execSyncTimeout (h : Kept k m s u) : AnswersKept k m s (execSyncTimeout u) := by
  unfold Machine.execSyncTimeout
  refine Kept.next ?_
  split
  · exact Kept.ite (h.whenDue (fun h1 => h.enterHoldover)) h
  · exact h

theorem execDelayReqSend {port : Fin 2} (h : Kept k m s u) : AnswersKept k m s (execDelayReqSend port u) := by
  unfold Machine.execDelayReqSend
  refine Kept.next ?_
  refine Kept.ite h ?_
  refine h.whenDue ?_
  intro h1
  extract_lets q2 x3
  exact Kept.ite h.same.emit (Kept.ite h.same.emit h)

theorem doTimeStep (h : Kept k m s u) : Kept k m s u.doTimeStep.1 := by
  unfold State.doTimeStep
  extract_lets v1 v2 x
  have h1 : Kept k m s v1 := h.stepTime
  have h2 : Kept k m s v2 := h1.toServo
  split
  · dsimp only
    exact h2.same.raise
  · exact h

/-! ### Lanes (chapter 5) -/

theorem sendCapability {l : ℕ} (h : Kept k m s u) : Kept k m s (u.sendCapability l) := by
  unfold State.sendCapability
  exact h.emit

theorem sendLinkCmd {l op arg : ℕ} {seq : Byte} (h : Kept k m s u) : Kept k m s (u.sendLinkCmd l op arg seq) := by
  unfold State.sendLinkCmd
  exact h.emit

theorem startStep {l target : ℕ} {p : Proc} (h : Kept k m s u) : Kept k m s (u.startStep l target p) := by
  unfold State.startStep
  extract_lets v1
  have h2 : Kept k m s v1 := h.abortEye.updLane
  exact h2.sendLinkCmd

theorem laneWindow {l opener src : ℕ} (h : Kept k m s u) : Kept k m s (u.laneWindow l opener src) := by
  unfold State.laneWindow
  exact Kept.ite h h.openWindow

theorem toActive {l : ℕ} (h : Kept k m s u) : Kept k m s (u.toActive l) := by
  unfold State.toActive
  extract_lets v1
  have h2 : Kept k m s v1 := h.updLane
  exact h2.same.windowDone

theorem speedStep {t' : ℕ} (h : Kept k m s u) : Kept k m s (u.speedStep t') := by
  unfold State.speedStep
  extract_lets p1
  exact Kept.ite h.updLane.startStep h

theorem checkTakeover {t' : ℕ} (h : Kept k m s u) : Kept k m s (u.checkTakeover t') := by
  unfold State.checkTakeover
  extract_lets b1 x2 opener3 v4
  have h5 : Kept k m s v4 := h.laneWindow
  refine Kept.ite h ?_
  split
  · exact Kept.ite h5.toActive.updLane.speedStep h5.startStep
  · exact h5.updLane
  · exact h

theorem toWarm {l : ℕ} (h : Kept k m s u) : Kept k m s (u.toWarm l) := by
  unfold State.toWarm
  extract_lets v1
  have h2 : Kept k m s v1 := h.updLane.windowDone
  exact h2.checkTakeover

theorem stepDown {l : ℕ} (h : Kept k m s u) : Kept k m s (u.stepDown l) := by
  unfold State.stepDown
  exact Kept.ite h.toWarm h.updLane.startStep

theorem takenOver {l : ℕ} (h : Kept k m s u) : Kept k m s (u.takenOver l) := by
  unfold State.takenOver
  extract_lets t1 v2
  have h3 : Kept k m s v2 := h.toActive
  exact Kept.ite h3.stepDown h3.updLane.speedStep

theorem takeTraffic {t' : ℕ} (h : Kept k m s u) : Kept k m s (u.takeTraffic t') := by
  unfold State.takeTraffic
  extract_lets p1 b2 v3
  have h4 : Kept k m s v3 := h.updLane
  exact Kept.ite (Kept.ite h4.stepDown h4) h

theorem endEnum {l : ℕ} {st : Status} {n : ℕ} (h : Kept k m s u) : Kept k m s (u.endEnum l st n) := by
  unfold State.endEnum
  exact h.updLane.finishWaiting

theorem dropLane {l code : ℕ} (h : Kept k m s u) : Kept k m s (u.dropLane l code) := by
  unfold State.dropLane
  exact h.abortEye.retireLane.endEnum.checkTakeover

theorem startRetrain {l : ℕ} (h : Kept k m s u) : Kept k m s (u.startRetrain l) := by
  unfold State.startRetrain
  extract_lets id1 had2 counted3 v4 v5 v6 v7
  have h8 : Kept k m s v4 := h.countAt.updLane
  have h9 : Kept k m s v5 := h8.raise.laneWindow
  have h10 : Kept k m s v6 := h9.abortEye.huntLane.updLane
  have h11 : Kept k m s v7 := h10.checkTakeover
  exact Kept.ite h11.losePath h11

theorem trigger {l : ℕ} (h : Kept k m s u) : Kept k m s (u.trigger l) := by
  unfold State.trigger
  extract_lets x1 v2
  have h3 : Kept k m s v2 := h.dropLane
  exact Kept.ite h (Kept.ite (Kept.ite h3 h3.startRetrain) h.startRetrain)

theorem missedFeedback {t' : ℕ} (h : Kept k m s u) : Kept k m s (u.missedFeedback t') := by
  unfold State.missedFeedback
  split
  · exact h
  · extract_lets n1
    exact Kept.ite h.same.trigger h.same

theorem sendAux {l : ℕ} (h : Kept k m s u) : Kept k m s (u.sendAux l) := by
  unfold State.sendAux
  exact h.updLane.emit

theorem settleLane {l : ℕ} (h : Kept k m s u) : Kept k m s (u.settleLane l) := by
  unfold State.settleLane
  extract_lets x1 v2
  have h3 : Kept k m s v2 := h.updLane
  exact Kept.ite h3.dropLane h3.sendAux

theorem raiseEnumChecks {l : ℕ} (h : Kept k m s u) : Kept k m s (u.raiseEnumChecks l) := by
  unfold State.raiseEnumChecks
  exact h.foldl (fun _ _ h1 => Kept.ite h1.raise h1)

theorem populate {t' : ℕ} {cs : List Block} (h : Kept k m s u) : Kept k m s (u.populate t' cs) := by
  unfold State.populate
  extract_lets v1
  have h2 : Kept k m s v1 := h.same
  exact h2.foldl (fun _ _ h3 => h3.updCell)

theorem recordHub {t' : ℕ} {serial : Word} {h' : Block} {cs : List Block} (h : Kept k m s u) : Kept k m s (u.recordHub t' serial h' cs) := by
  unfold State.recordHub
  extract_lets a1 pop2 v3 v4 v5
  have h6 : Kept k m s v3 := h.setReg.setReg
  have h7 : Kept k m s v4 := h6.setReg
  have h8 : Kept k m s v5 := h7.setReg.setReg
  exact h8.same.populate

theorem enumerated {l : ℕ} (h : Kept k m s u) : Kept k m s (u.enumerated l) := by
  unfold State.enumerated
  exact Kept.ite h (Kept.ite (Kept.ite h.toActive.updLane h.toActive) h.stepDown)

theorem enumFrame {l : ℕ} {f : RawFrame} (h : Kept k m s u) : Kept k m s (u.enumFrame l f) := by
  unfold State.enumFrame
  extract_lets t1 n2 cs3 v4 v5
  have h6 : Kept k m s v4 := h.recordHub
  have h7 : Kept k m s v5 := h6.raiseEnumChecks
  exact Kept.ite h (Kept.ite h.crcError (Kept.ite h.malformed (Kept.ite h (Kept.ite h.dropLane h7.endEnum.enumerated))))

theorem execEnumFrame {l : Fin 128} {f : RawFrame} (h : Kept k m s u) : AnswersKept k m s (execEnumFrame l f u) := by
  unfold Machine.execEnumFrame
  exact Kept.next h.breakFrame.enumFrame

theorem execEnumTimeout {l : Fin 128} (h : Kept k m s u) : AnswersKept k m s (execEnumTimeout l u) := by
  unfold Machine.execEnumTimeout
  refine Kept.next ?_
  split
  · exact h
  · exact h.whenDue (fun h1 => Kept.ite h.endEnum (Kept.ite h.sendAux h.dropLane))

theorem doEnumerate {tile lane : ℕ} (h : Kept k m s u) : Kept k m s (u.doEnumerate tile lane).1 := by
  unfold State.doEnumerate
  extract_lets l1 x2
  split
  · exact h
  · split
    · exact h
    · dsimp only
      exact h.updLane.sendAux

theorem exchanged {l : ℕ} (h : Kept k m s u) : Kept k m s (u.exchanged l) := by
  unfold State.exchanged
  extract_lets x1 top2
  exact Kept.ite (Kept.ite (Kept.ite h.takenOver h.startStep) h.toWarm) (Kept.ite (Kept.ite h.settleLane h.startStep) (Kept.ite h.settleLane
    h.startStep))

theorem capabilityIn {l : ℕ} {b0 : Block} (h : Kept k m s u) : Kept k m s (u.capabilityIn l b0) := by
  unfold State.capabilityIn
  extract_lets x1 b2 v3 n4 ack5 v6 v7
  have h8 : Kept k m s v6 := h.updLane
  have h9 : Kept k m s v7 := Kept.ite h8.sendCapability h8
  exact Kept.ite h (Kept.ite h.flag.dropLane (Kept.ite h.flag.dropLane (Kept.ite h9.setReg.exchanged h9)))

theorem execCapability {l : Fin 128} {b : Block} (h : Kept k m s u) : AnswersKept k m s (execCapability l b u) := by
  unfold Machine.execCapability
  exact Kept.next h.breakFrame.capabilityIn

theorem gateFail {l : ℕ} (h : Kept k m s u) : Kept k m s (u.gateFail l) := by
  unfold State.gateFail
  extract_lets x1
  exact h.raise.startStep

theorem gatesPass {l : ℕ} (h : Kept k m s u) : Kept k m s (u.gatesPass l) := by
  unfold State.gatesPass
  extract_lets x1
  exact Kept.ite h.startStep h.settleLane

theorem execQualPointDone {l : Fin 128} {disagreements : Word} (h : Kept k m s u) : AnswersKept k m s (execQualPointDone l disagreements u) := by
  unfold Machine.execQualPointDone
  extract_lets x1
  exact Kept.next (Kept.ite h (Kept.ite h.gateFail (Kept.ite h.updLane h.updLane.sendLinkCmd)))

theorem reportIn {l : ℕ} {b : Block} (h : Kept k m s u) : Kept k m s (u.reportIn l b) := by
  unfold State.reportIn
  extract_lets x1
  exact Kept.ite h (Kept.ite h.gatesPass h.gateFail)

theorem execReportRsp {l : Fin 128} {b : Block} (h : Kept k m s u) : AnswersKept k m s (execReportRsp l b u) := by
  unfold Machine.execReportRsp
  exact Kept.next h.breakFrame.reportIn

theorem linkAckIn {l : ℕ} {b : Block} (h : Kept k m s u) : Kept k m s (u.linkAckIn l b) := by
  unfold State.linkAckIn
  extract_lets x1 v2
  have h3 : Kept k m s v2 := h.forNat (fun _ _ h4 => h4.emit)
  exact Kept.ite h (Kept.ite h3.updLane (Kept.ite h.abortEye.updLane h))

theorem execLinkCmdAck {l : Fin 128} {b : Block} (h : Kept k m s u) : AnswersKept k m s (execLinkCmdAck l b u) := by
  unfold Machine.execLinkCmdAck
  exact Kept.next h.breakFrame.linkAckIn

theorem retrainDown {l : ℕ} (h : Kept k m s u) : Kept k m s (u.retrainDown l) := by
  unfold State.retrainDown
  extract_lets x1
  exact Kept.ite h.trigger (Kept.ite h.settleLane h.startStep)

theorem returned {l : ℕ} (h : Kept k m s u) : Kept k m s (u.returned l) := by
  unfold State.returned
  exact Kept.ite h.retrainDown h.settleLane

theorem stepLocked {l : ℕ} (h : Kept k m s u) : Kept k m s (u.stepLocked l) := by
  unfold State.stepLocked
  extract_lets x1
  refine Kept.ite h.returned ?_
  split
  · exact h.takenOver
  · exact h.toActive
  · exact h.toWarm
  · exact h.settleLane
  · exact Kept.ite h.settleLane h.updLane

theorem gotLock {l a : ℕ} (h : Kept k m s u) : Kept k m s (u.gotLock l a) := by
  unfold State.gotLock
  extract_lets x1 v2
  have h3 : Kept k m s v2 := h.updLane
  split
  · exact h3.updLane.sendCapability
  · exact h3.sendCapability
  · exact h3.stepLocked
  · exact h3

theorem lostLock {l : ℕ} (h : Kept k m s u) : Kept k m s (u.lostLock l) := by
  unfold State.lostLock
  exact h.updLane.raise.trigger

theorem execTHunt {l : Fin 128} (h : Kept k m s u) : AnswersKept k m s (execTHunt l u) := by
  unfold Machine.execTHunt
  exact Kept.next (Kept.ite (h.whenDue (fun h1 => h.trigger)) h)

theorem execTCapx {l : Fin 128} (h : Kept k m s u) : AnswersKept k m s (execTCapx l u) := by
  unfold Machine.execTCapx
  exact Kept.next (Kept.ite (h.whenDue (fun h1 => h.trigger)) h)

theorem stepUnacked {l : ℕ} (h : Kept k m s u) : Kept k m s (u.stepUnacked l) := by
  unfold State.stepUnacked
  extract_lets x1 v2
  have h3 : Kept k m s v2 := h.raise
  split
  · exact h3.settleLane
  · exact h3.retrainDown
  · exact h3.trigger

theorem execTAck {l : Fin 128} (h : Kept k m s u) : AnswersKept k m s (execTAck l u) := by
  unfold Machine.execTAck
  extract_lets x1
  exact Kept.next (Kept.ite h (h.whenDue (fun h2 => Kept.ite h.updLane.sendLinkCmd h.stepUnacked)))

theorem execTStep {l : Fin 128} (h : Kept k m s u) : AnswersKept k m s (execTStep l u) := by
  unfold Machine.execTStep
  extract_lets x1
  refine Kept.next ?_
  refine Kept.ite h ?_
  refine h.whenDue ?_
  intro h2
  refine Kept.ite h.trigger ?_
  extract_lets v3
  have h4 : Kept k m s v3 := h.raise
  exact Kept.ite h4.abortEye.updLane h4.trigger

theorem execTRt {l : Fin 128} (h : Kept k m s u) : AnswersKept k m s (execTRt l u) := by
  unfold Machine.execTRt
  refine Kept.next ?_
  split
  · exact h
  · exact h.whenDue (fun h1 => h.trigger)

theorem execLaneWake {l : Fin 128} (h : Kept k m s u) : AnswersKept k m s (execLaneWake l u) := by
  unfold Machine.execLaneWake
  refine Kept.next ?_
  split
  · exact h
  · exact h.whenDue (fun h1 => h.updLane.raise.trigger)

theorem makeDormant {l : ℕ} (h : Kept k m s u) : Kept k m s (u.makeDormant l) := by
  unfold State.makeDormant
  extract_lets x1
  exact Kept.ite h h.updLane.sendLinkCmd

theorem wakeLane {l : ℕ} (h : Kept k m s u) : Kept k m s (u.wakeLane l) := by
  unfold State.wakeLane
  exact Kept.ite h h.updLane

theorem laneEnWritten {l : ℕ} (h : Kept k m s u) : Kept k m s (u.laneEnWritten l) := by
  unfold State.laneEnWritten
  exact Kept.ite h.startLanes (Kept.ite h h.abortEye.lanesOff.windowDone.endEnum)

theorem startEye {l : ℕ} (h : Kept k m s u) : Kept k m s (u.startEye l) := by
  unfold State.startEye
  exact Kept.ite h h.updLane

theorem execEyeScanPoint {l : Fin 128} {count : Word} {lockLost : Bool} (h : Kept k m s u) :
    AnswersKept k m s (execEyeScanPoint l count lockLost u) := by
  unfold Machine.execEyeScanPoint
  extract_lets x1
  refine Kept.next ?_
  split
  · exact h
  · refine Kept.ite h ?_
    extract_lets r2 v3
    have h4 : Kept k m s r2.1 := h.capture
    have h5 : Kept k m s v3 := (Kept.ite h4 h.captureLost).tally
    exact Kept.ite h5.updLane h5.updLane.flag

theorem execQuadPllUnlock {q : Fin 32} (h : Kept k m s u) : AnswersKept k m s (execQuadPllUnlock q u) := by
  unfold Machine.execQuadPllUnlock
  refine Kept.next ?_
  refine Kept.ite h ?_
  extract_lets x1 v2 v3
  have h4 : Kept k m s v2 := h.same
  have h5 : Kept k m s v3 := h4.openWindow
  refine h5.forNat ?_
  intro _ _ h6
  extract_lets l7
  exact Kept.ite h6.lostLock h6

/-! ### Receivers -/

theorem endFrame {l : ℕ} {o : OpenFrame} {b : Block} (h : Kept k m s u) : Kept k m s (u.endFrame l o b) := by
  unfold State.endFrame
  extract_lets v1 f2
  have h3 : Kept k m s v1 := h.updLane
  refine Kept.ite h3.crcError ?_
  split
  · exact h3.feedbackFrame
  · exact h3.captureFrame
  · exact h3.enumFrame
  · exact Kept.ite h3.malformed h3.crcError

theorem controlBlock {l : ℕ} {b : Block} {t4 : BitVec 48} (h : Kept k m s u) : Kept k m s (u.controlBlock l b t4) := by
  unfold State.controlBlock
  split
  · exact h.echo
  · exact h.capabilityIn
  · exact Kept.ite h.linkAckIn (Kept.ite h.reportIn h)
  · exact h

theorem takeBlock {l : ℕ} {isData : Bool} {b : Block} {t4 : BitVec 48} (h : Kept k m s u) : Kept k m s (u.takeBlock l isData b t4) := by
  unfold State.takeBlock
  extract_lets c1
  split
  · exact h.malformed
  · exact h.updLane
  · refine Kept.ite h ?_
    refine Kept.ite h.breakFrame.updLane ?_
    refine Kept.ite ?_ ?_
    · split
      · exact h.endFrame
      · exact h.malformed
    · exact Kept.ite h.abortIn (Kept.ite h.breakFrame.controlBlock h.malformed)

theorem execMalformedBlock {l : Fin 128} {isData : Bool} {b : Block} (h : Kept k m s u) : AnswersKept k m s (execMalformedBlock l isData b u) := by
  unfold Machine.execMalformedBlock
  exact Kept.next h.takeBlock

theorem badHeaders {l n : ℕ} (h : Kept k m s u) : Kept k m s (u.badHeaders l n) := by
  unfold State.badHeaders
  exact Kept.ite h h.count

theorem huntPiece {l : ℕ} {w : BitVec 66} (h : Kept k m s u) : Kept k m s (u.huntPiece l w) := by
  unfold State.huntPiece
  extract_lets x1 cs2 v3
  have h4 : Kept k m s v3 := h.badHeaders.updLane
  split
  · exact h4.gotLock
  · exact h4

theorem elastic {l : ℕ} {filler : Bool} {reads : ℕ} (h : Kept k m s u) : Kept k m s (u.elastic l filler reads) := by
  unfold State.elastic
  extract_lets a1 e2 v3 v4 v5 v6
  have h7 : Kept k m s v3 := Kept.ite h h.countAt
  have h8 : Kept k m s v4 := Kept.ite h7 h7.countAt
  have h9 : Kept k m s v5 := h8.updLane
  have h10 : Kept k m s v6 := Kept.ite h9.countAt h9.countAt
  exact Kept.ite h10.raise h8.updLane

theorem lockedPiece {l : ℕ} {w : BitVec 66} {reads : ℕ} (h : Kept k m s u) : Kept k m s (u.lockedPiece l w reads) := by
  unfold State.lockedPiece
  extract_lets x1 blk2 hdr3 bad4 win5 d6 v7 b8 v9
  have h10 : Kept k m s v7 := h.badHeaders.updLane
  have h11 : Kept k m s v9 := h10.elastic
  exact Kept.ite h10.lostLock (Kept.ite h11 h11.takeBlock)

theorem receive {l : ℕ} {r : RxWord} (h : Kept k m s u) : Kept k m s (u.receive l r) := by
  unfold State.receive
  extract_lets w1
  exact Kept.ite h.lockedPiece (Kept.ite h.huntPiece h)

theorem receiveUntil {p : Lane → Bool} {l : ℕ} {ws : List RxWord} (h : Kept k m s u) : Kept k m s (State.receiveUntil p l ws u) := by
  induction ws generalizing u with
  | nil => exact h
  | cons w ws ih => exact .ite h.receive (ih h.receive)

theorem execBlockLock {l : Fin 128} {ws : List RxWord} (h : Kept k m s u) : AnswersKept k m s (execBlockLock l ws u) := by
  unfold Machine.execBlockLock
  exact Kept.next (Kept.ite h h.receiveUntil)

theorem execLaneLockLoss {l : Fin 128} {ws : List RxWord} (h : Kept k m s u) : AnswersKept k m s (execLaneLockLoss l ws u) := by
  unfold Machine.execLaneLockLoss
  exact Kept.next (Kept.ite h.receiveUntil h)

theorem execLaneElastic {l : Fin 128} {ws : List RxWord} (h : Kept k m s u) : AnswersKept k m s (execLaneElastic l ws u) := by
  unfold Machine.execLaneElastic
  exact Kept.next (Kept.ite (h.foldl (fun _ _ h1 => Kept.ite h1.receive h1)) h)

/-! ### Mode changes (chapter 9) -/

theorem modeEnd {r : ModeReq} {st : Status} {frame : Word} (h : Kept k m s u) : Kept k m s (u.modeEnd r st frame) := by
  unfold State.modeEnd
  extract_lets result1 v2 done3 x4 v5
  have h6 : Kept k m s v2 := h.forNat (fun _ _ h7 => Kept.ite h7.updEng h7)
  have h8 : Kept k m s v5 := h6.same
  exact h8.foldl (fun _ _ h9 => h9.complete)

theorem armUnits {r : ModeReq} (h : Kept k m s u) : Kept k m s (u.armUnits r).1 := by
  refine h.foldlFst (x := (u, r)) fun v e h => ?_
  extract_lets v1 r1 b
  split
  · exact h
  · split
    · exact h
    · split
      · exact h
      · exact h.updEng

theorem modeEvaluate {r : ModeReq} (h : Kept k m s u) : Kept k m s (u.modeEvaluate r) := by
  unfold State.modeEvaluate
  extract_lets ahead1 l2 v3 r4 ka5 ke6 a7 v8
  have h9 : Kept k m s v3 := h.forNat (fun _ _ h10 => Kept.ite h10.updEng h10)
  have h11 : Kept k m s a7.1 := h9.armUnits
  have h12 : Kept k m s v8 := h11
  exact Kept.ite h9.modeEnd (Kept.ite h9.modeEnd (Kept.ite h9.modeEnd.raise h11.same))

theorem modeArm (h : Kept k m s u) : Kept k m s u.modeArm := by
  unfold State.modeArm
  split
  · exact h
  · exact Kept.ite h (Kept.ite h.modeEvaluate (Kept.ite (Kept.ite h.same h.modeEvaluate) h))

theorem enterMode {r : ModeReq} {e : ℕ} (h : Kept k m s u) : Kept k m s (u.enterMode r e) := by
  unfold State.enterMode
  exact h.updEng

theorem execModeDecision (h : Kept k m s u) : AnswersKept k m s (execModeDecision u) := by
  unfold Machine.execModeDecision
  refine Kept.next ?_
  split
  · exact h
  · refine Kept.ite h ?_
    extract_lets armed1 v2 v3
    have h4 : Kept k m s v2 := h.foldl (fun _ _ h5 => h5.enterMode)
    have h6 : Kept k m s v3 := h4.forNat (fun _ _ h7 => Kept.ite h7.flag h7)
    exact Kept.ite h.modeEnd.raise h6.same

theorem modeCommitted {e : ℕ} (h : Kept k m s u) : Kept k m s (u.modeCommitted e) := by
  unfold State.modeCommitted
  split
  · exact h
  · refine Kept.ite ?_ ?_
    · extract_lets v1 t2
      have h3 : Kept k m s v1 := h.updEng
      exact Kept.ite h3.modeEnd h3.same
    · exact h

theorem doModeChange {h' : Hdr} {p : ModeParams} (h : Kept k m s u) : Kept k m s (u.doModeChange h' p).1 := by
  unfold State.doModeChange
  split
  · exact h
  · dsimp only
    exact h.same

/-! ### Energy and sensors (chapter 16) -/

theorem changeSpeed {t' v : ℕ} (h : Kept k m s u) : Kept k m s (u.changeSpeed t' v) := by
  unfold State.changeSpeed
  exact Kept.ite h h.updLane.checkTakeover

theorem planLane {t' : ℕ} (h : Kept k m s u) : Kept k m s (u.planLane t') := by
  unfold State.planLane
  extract_lets x1 runs2
  refine Kept.ite h ?_
  split
  · exact h
  · refine Kept.ite h.changeSpeed ?_
    refine Kept.ite (Kept.ite h.changeSpeed h) ?_
    split
    · exact h.changeSpeed
    · exact h

theorem execHop {point : Fin 8} (h : Kept k m s u) : AnswersKept k m s (execHop point u) := by
  unfold Machine.execHop
  exact Kept.next (Kept.ite h.same.toBypass h)

theorem execSearchHop {point : Fin 8} (h : Kept k m s u) : AnswersKept k m s (execSearchHop point u) := by
  unfold Machine.execSearchHop
  refine Kept.next ?_
  refine Kept.ite ?_ ?_
  · extract_lets x1 v2 x3 x4
    have h5 : Kept k m s v2 := h.same.toBypass
    exact h5.same
  · exact h

theorem planClock (h : Kept k m s u) : Kept k m s u.planClock := by
  unfold State.planClock
  extract_lets b1 want2 x3
  exact h.same

theorem countEpoch (h : Kept k m s u) : Kept k m s u.countEpoch := by
  unfold State.countEpoch
  extract_lets x1 v2
  have h3 : Kept k m s v2 := h.same
  exact h3.forNat (fun _ _ h4 => Kept.ite h4.updLane (Kept.ite h4 h4.updLane))

theorem planSettings (h : Kept k m s u) : Kept k m s u.planSettings := by
  unfold State.planSettings
  exact h.planClock.forNat (fun _ _ h1 => h1.planLane)

theorem shedLanes {above : ℤ} {l : ℕ} (h : Kept k m s u) : Kept k m s (u.shedLanes above l).1 := by
  induction l generalizing above u with
  | zero => exact h
  | succ l ih =>
    unfold State.shedLanes
    extract_lets d x
    split
    · exact ih h.makeDormant.same
    · exact ih h

theorem policyWake (h : Kept k m s u) : Kept k m s u.policyWake := by
  unfold State.policyWake
  refine h.forNat ?_
  intro _ _ h1
  extract_lets bkp2
  exact Kept.ite h1.wakeLane h1

theorem wakeLanes {room : ℤ} (h : Kept k m s u) : Kept k m s (u.wakeLanes room) := by
  unfold State.wakeLanes
  extract_lets dormant x n v
  have hv : Kept k m s v := h.same
  clear_value dormant
  cases dormant with
  | nil => exact h.same
  | cons l ls => exact .ite (.ite hv.wakeLane hv) h.same

theorem planLanes {allow : ℤ} {rest : ℕ} (h : Kept k m s u) : Kept k m s (u.planLanes allow rest).1 := by
  unfold State.planLanes
  split
  · exact h
  · split
    · extract_lets q1
      have h2 : Kept k m s q1.1 := h.shedLanes
      exact h2
    · dsimp only
      exact h.wakeLanes

theorem planWork {allow : ℤ} (h : Kept k m s u) : Kept k m s (u.planWork allow) := by
  unfold State.planWork
  extract_lets p1 above2 fresh3 v4 q5 v6
  have h7 : Kept k m s v4 := h.same
  have h8 : Kept k m s q5.1 := h7.policyWake.planLanes
  have h9 : Kept k m s v6 := h8.setReg
  exact Kept.ite h9.raise h9

theorem execEnergyEpoch {counts : List (BitVec 32)} {core sram ser : BitVec 64} (h : Kept k m s u) :
    AnswersKept k m s (execEnergyEpoch counts core sram ser u) := by
  unfold Machine.execEnergyEpoch
  refine Kept.next ?_
  refine Kept.ite h ?_
  refine h.whenDue ?_
  intro h1
  extract_lets endAt2 cs3 meas4 act5 cf6 v7 v8 b9 v10 x11 v12 v13
  have h14 : Kept k m s v7 := h.setReg
  have h15 : Kept k m s v8 := h14.setReg.setReg
  have h16 : Kept k m s v10 := h15.setReg
  have h17 : Kept k m s v12 := h16.same
  have h18 : Kept k m s v13 := h17.countEpoch.planSettings.planWork
  exact h18.forNat (fun _ _ h19 => Kept.ite h19.writeSnapshot h19)

theorem execEplCalibration (h : Kept k m s u) : AnswersKept k m s (execEplCalibration u) := by
  unfold Machine.execEplCalibration
  refine Kept.next (.ite h ?_)
  extract_lets v
  have hv : Kept k m s v := h.foldl fun w g h => by
    extract_lets p q w1 c w2
    have h1 : Kept k m s w1 := .ite h.freeNext h
    have h2 : Kept k m s w2 := h1.setFld
    exact .ite h2 h2.raise
  exact hv.same

theorem updSensor {i : ℕ} {f : Sensor → Sensor} (h : Kept k m s u) : Kept k m s (u.updSensor i f) := by
  unfold State.updSensor
  exact h.same

theorem doThmDemand {mask : ℕ} (h : Kept k m s u) : Kept k m s (u.doThmDemand mask).1 := by
  unfold State.doThmDemand
  dsimp only
  exact h.forNat (fun _ _ h1 => Kept.ite h1.updSensor h1)

theorem execScheduledDemand {i : Fin 76} (h : Kept k m s u) : AnswersKept k m s (execScheduledDemand i u) := by
  unfold Machine.execScheduledDemand
  exact Kept.next (Kept.ite h (h.whenDue (fun h1 => h.updSensor)))

theorem execSensorGateStart {i : Fin 76} (h : Kept k m s u) : AnswersKept k m s (execSensorGateStart i u) := by
  unfold Machine.execSensorGateStart
  extract_lets x1
  exact Kept.next (Kept.ite h (h.whenDue (fun h2 => h.updSensor)))

theorem crossing {i j : ℕ} (h : Kept k m s u) : Kept k m s (u.crossing i j) := by
  unfold State.crossing
  extract_lets src1 v2 x3
  have h4 : Kept k m s v2 := h.raise
  split
  · exact h.raise
  · exact Kept.ite h4 h4.same
  · exact h.shutNvm.raise

theorem judge {i j : ℕ} {exceeds back : Bool} (h : Kept k m s u) : Kept k m s (u.judge i j exceeds back) := by
  unfold State.judge
  extract_lets r1 v2 v3
  have h4 : Kept k m s v2 := h.updSensor
  have h5 : Kept k m s v3 := Kept.ite h4.crossing h4
  exact Kept.ite h5.raise h5

theorem judgeAll {i : ℕ} {c : ℤ} {m' : ℕ} (h : Kept k m s u) : Kept k m s (u.judgeAll i c m') := by
  unfold State.judgeAll
  refine Kept.ite ?_ ?_
  · refine h.foldl ?_
    intro _ _ h1
    extract_lets x2
    exact h1.judge
  · extract_lets y3 dc4 dt5 h6
    refine Kept.ite h ?_
    refine h.foldl ?_
    intro _ _ h7
    extract_lets r8
    exact h7.judge

theorem throttleEnd (h : Kept k m s u) : Kept k m s u.throttleEnd := by
  unfold State.throttleEnd
  refine Kept.ite h ?_
  extract_lets x1 v2 x3
  have h4 : Kept k m s v2 := h.same
  exact Kept.ite h4.same.raise h4

theorem validReading {i : ℕ} {c : ℤ} {m' : ℕ} (h : Kept k m s u) : Kept k m s (u.validReading i c m') := by
  unfold State.validReading
  extract_lets v1 v2
  have h3 : Kept k m s v1 := h.updSensor
  have h4 : Kept k m s v2 := h3.judgeAll
  exact h4.updSensor.throttleEnd

theorem invalidReading {i : ℕ} (h : Kept k m s u) : Kept k m s (u.invalidReading i) := by
  unfold State.invalidReading
  extract_lets n1 v2
  have h3 : Kept k m s v2 := h.updSensor
  exact Kept.ite h3.raise h3

theorem execSensorResult {i : Fin 76} {count : Word} (h : Kept k m s u) : AnswersKept k m s (execSensorResult i count u) := by
  unfold Machine.execSensorResult
  extract_lets x1
  refine Kept.next ?_
  split
  · exact h
  · refine h.whenDue ?_
    intro h2
    extract_lets v3
    have h4 : Kept k m s v3 := h.updSensor
    refine Kept.ite h4.updSensor ?_
    split
    · exact Kept.ite h4.validReading h4.invalidReading
    · exact h4.invalidReading

theorem execStalenessTimeout {i : Fin 76} (h : Kept k m s u) : AnswersKept k m s (execStalenessTimeout i u) := by
  unfold Machine.execStalenessTimeout
  extract_lets x1
  exact Kept.next (Kept.ite h (h.whenDue (fun h2 => h.updSensor.raise)))

theorem execGraceTimeEnd (h : Kept k m s u) : AnswersKept k m s (execGraceTimeEnd u) := by
  unfold Machine.execGraceTimeEnd
  refine Kept.next ?_
  split
  · exact h
  · refine h.whenDue ?_
    intro h1
    extract_lets x2 v3 x4 v5
    have h6 : Kept k m s v3 := h.same
    have h7 : Kept k m s v5 := h6.same
    exact Kept.ite h7.raise.planSettings h6

/-! ### Octad descriptors -/

theorem showRefusal {n code : ℕ} (h : Kept k m s u) : Kept k m s (u.showRefusal n code) := by
  unfold State.showRefusal
  extract_lets v1
  have h2 : Kept k m s v1 := h.updOct
  refine Kept.ite ?_ ?_
  · refine h2.forNat ?_
    intro _ _ h3
    extract_lets t4
    exact Kept.ite h3 h3.raiseEnumChecks
  · exact h2

theorem refuseDeblock {n code : ℕ} (h : Kept k m s u) : Kept k m s (u.refuseDeblock n code) := by
  unfold State.refuseDeblock
  exact h.updOct.showRefusal.finishWaiting

theorem c0Unset {n : ℕ} (h : Kept k m s u) : Kept k m s (u.c0Unset n) := by
  unfold State.c0Unset
  extract_lets cs
  cases cs with
  | nil => exact h
  | cons c cs => exact h.raise

theorem deblockEnter {n : ℕ} {target : OctState} (h : Kept k m s u) : Kept k m s (u.deblockEnter n target) := by
  unfold State.deblockEnter
  extract_lets v1 v2
  have h3 : Kept k m s v1 := h.mapOctCells
  have h4 : Kept k m s v2 := h3.updOct
  exact h4.c0Unset.settleDev

theorem deblockAt {n : ℕ} {target : OctState} (h : Kept k m s u) : Kept k m s (u.deblockAt n target) := by
  unfold State.deblockAt
  refine Kept.ite h.refuseDeblock ?_
  split
  · exact h.deblockEnter
  · exact h.refuseDeblock
  · exact h.refuseDeblock

theorem doDeblock {n : ℕ} {target : Byte} (h : Kept k m s u) : Kept k m s (u.doDeblock n target).1 := by
  unfold State.doDeblock
  extract_lets o1 t2 taken3 v4 v5
  have h6 : Kept k m s v4 := h.updOct
  have h7 : Kept k m s v5 := h.foldl (fun _ _ h8 => h8.wakeLane)
  split
  · split
    · dsimp only
      exact h.showRefusal
    · dsimp only
      exact h.updOct
  · split
    · exact h
    · split
      · dsimp only
        exact Kept.ite h6.deblockEnter h6
      · dsimp only
        exact h.showRefusal
      · dsimp only
        exact h7.updOct

theorem execDeblockBLanesWarm {n : Fin 8} (h : Kept k m s u) : AnswersKept k m s (execDeblockBLanesWarm n u) := by
  unfold Machine.execDeblockBLanesWarm
  refine Kept.next ?_
  split
  · refine Kept.ite h.refuseDeblock ?_
    split
    · exact h
    · exact h.updOct
    · exact h.refuseDeblock
  · exact h

theorem doBlock {n : ℕ} (h : Kept k m s u) : Kept k m s (u.doBlock n).1 := by
  unfold State.doBlock
  dsimp only
  exact h.toBlocked

theorem doRundown {n : ℕ} (h : Kept k m s u) : Kept k m s (u.doRundown n).1 := by
  unfold State.doRundown
  split
  · dsimp only
    exact h.enterRundown
  · exact h

theorem execOctRdTimeout {n : Fin 8} (h : Kept k m s u) : AnswersKept k m s (execOctRdTimeout n u) := by
  unfold Machine.execOctRdTimeout
  exact Kept.next (Kept.ite h (h.whenDue (fun h1 => h.raise.toBlocked)))

theorem doCellQuery {n c : ℕ} (h : Kept k m s u) : Kept k m s (u.doCellQuery n c).1 := by
  unfold State.doCellQuery
  split
  · exact h
  · exact h

theorem doCellRetire {c : ℕ} (h : Kept k m s u) : Kept k m s (u.doCellRetire c).1 := by
  unfold State.doCellRetire
  extract_lets fence1
  dsimp only
  exact h.retireCell

theorem doSnapshot {n : ℕ} (h : Kept k m s u) : Kept k m s (u.doSnapshot n).1 := by
  unfold State.doSnapshot
  dsimp only
  exact h.requestSnapshot

/-! ### Frames (chapter 1) -/

theorem hubFeedback {n : ℕ} (h : Kept k m s u) : Kept k m s (u.hubFeedback n) := by
  unfold State.hubFeedback
  refine h.forNat ?_
  intro _ _ h1
  extract_lets t2 v3
  have h4 : Kept k m s v3 := Kept.ite h1 (Kept.ite h1.same h1.missedFeedback)
  exact h4.same

theorem cellBudget {c : ℕ} (h : Kept k m s u) : Kept k m s (u.cellBudget c) := by
  unfold State.cellBudget
  extract_lets x1 hit2 first3 covered4 win5 occ6 run7 out8 v9 v10
  have h11 : Kept k m s v9 := h.updCell
  have h12 : Kept k m s v10 := Kept.ite h11.raise h11
  exact Kept.ite h (Kept.ite h12.retireCell h12)

theorem octLatch {n : ℕ} (h : Kept k m s u) : Kept k m s (u.octLatch n) := by
  unfold State.octLatch
  extract_lets i1 cs2 vbar3 v4 o5
  have h6 : Kept k m s v4 := h.updOct
  exact h6.mapOctCells

theorem earlyTc {n tick : ℕ} (h : Kept k m s u) : Kept k m s (u.earlyTc n tick) := by
  unfold State.earlyTc
  extract_lets o1
  exact Kept.ite h.commitTc h

theorem ledgerLatch {n : ℕ} (h : Kept k m s u) : Kept k m s (u.ledgerLatch n) := by
  unfold State.ledgerLatch
  extract_lets v1 o2 counted3 v4 v5 o6 v7 v8
  have h9 : Kept k m s v1 := h.ledgerWindowEnd.ledgerEndTc
  have h10 : Kept k m s v4 := Kept.ite h9.startWindow h9
  have h11 : Kept k m s v5 := h10.updOct
  have h12 : Kept k m s v7 := by
    unfold v7
    split
    · exact h11.mapOctCells
    · exact h11
  have h13 : Kept k m s v8 := Kept.ite h12.ledgerArithmetic h12
  exact h13.formEnergy

theorem execFeedbackDeadline {x : OctLatch} (h : Kept k m s u) : AnswersKept k m s (execFeedbackDeadline x u) := by
  unfold Machine.execFeedbackDeadline
  extract_lets n o
  refine Kept.next (.ite h ?_)
  split
  · exact h
  · refine h.whenDue fun h => ?_
    extract_lets v1 v2 v3 v4 v5 v6
    have h1 : Kept k m s v1 := h.foldl fun _ _ h => h.countCorrected
    have h2 : Kept k m s v2 := h1.updOct.earlyTc
    have h3 : Kept k m s v3 := h2.hubFeedback
    have h4 : Kept k m s v4 := h3.same
    have h5 : Kept k m s v5 := h4.foldl fun _ _ h => h.cellBudget
    have h6 : Kept k m s v6 := .ite h5 h5.startSample.updOct.octLatch
    exact h6.ledgerLatch.mapOctCells.updOct

theorem cycleLatch {n : ℕ} (h : Kept k m s u) : Kept k m s (u.cycleLatch n) := by
  unfold State.cycleLatch
  extract_lets o1 neg2 a3 v4
  have h5 : Kept k m s v4 := Kept.ite h.setReg.setReg.setReg.setReg.updOct h
  exact h5.updOct

theorem rundownEnd {n : ℕ} {before : BF} (h : Kept k m s u) : Kept k m s (u.rundownEnd n before) := by
  unfold State.rundownEnd
  extract_lets after1
  exact Kept.ite h.toBlocked h

theorem selectionStart {n : ℕ} {f : Word × ℕ} (h : Kept k m s u) : Kept k m s (u.selectionStart n f) := by
  unfold State.selectionStart
  extract_lets o1 v2 p3 v4 v5
  have h6 : Kept k m s v2 := h.mapOctCells.updOct
  have h7 : Kept k m s v4 := h6.updOct
  have h8 : Kept k m s v5 := Kept.ite h7.flag h7
  exact Kept.ite (Kept.ite h8.flag h8) h

theorem octadDeadline {n : ℕ} {reads : List BlockReads} (h : Kept k m s u) : Kept k m s (u.octadDeadline n reads) := by
  unfold State.octadDeadline
  extract_lets o1
  refine Kept.ite h ?_
  split
  · exact h
  · refine h.whenDue ?_
    intro h2
    extract_lets tick3 v4 ran5 rd6 v7 v8
    have h9 : Kept k m s v4 := h.updOct.updEng
    have h10 : Kept k m s v7 := h9.engineDeadline
    have h11 : Kept k m s v8 := Kept.ite h10.modeCommitted.rundownEnd h10
    exact h11.cycleLatch.updEng.selectionStart

theorem execEngineDeadline {n : Fin 8} {reads : List BlockReads} {other : BitVec 16} (h : Kept k m s u) :
    AnswersKept k m s (execEngineDeadline n reads other u) := by
  unfold Machine.execEngineDeadline
  exact Kept.next (Kept.ite h h.countReads.octadDeadline)

theorem beginFrame {n : ℕ} {f : Word × ℕ} (h : Kept k m s u) : Kept k m s (u.beginFrame n f) := by
  unfold State.beginFrame
  extract_lets halt1 v2
  have h3 : Kept k m s v2 := Kept.ite h.updEng h
  exact h3.updOct

theorem execOctadEpoch {n : Fin 8} (h : Kept k m s u) : AnswersKept k m s (execOctadEpoch n u) := by
  unfold Machine.execOctadEpoch
  extract_lets o1 e2
  refine Kept.next ?_
  refine Kept.ite h ?_
  refine h.whenDue ?_
  intro h3
  extract_lets v4 v5
  have h6 : Kept k m s v4 := h.beginFrame
  have h7 : Kept k m s v5 := h6.forNat (fun _ _ h8 => h8.takeTraffic.checkTakeover)
  split
  · exact Kept.ite h7.deblockAt (Kept.ite h7 h7.updOct)
  · exact Kept.ite h7.refuseDeblock h7
  · exact h7

theorem epochError (h : Kept k m s u) : Kept k m s u.epochError := by
  unfold State.epochError
  extract_lets d1
  exact h.setReg

theorem stationCount (h : Kept k m s u) : Kept k m s u.stationCount := by
  unfold State.stationCount
  extract_lets m1 x2
  exact Kept.ite h.same h.same

theorem stationEnd {reads : List BlockReads} (h : Kept k m s u) : Kept k m s (u.stationEnd reads) := by
  unfold State.stationEnd
  extract_lets tick1 v2
  have h3 : Kept k m s v2 := h.engineDeadline
  exact Kept.ite h3.modeCommitted h3

theorem stationBefore {tick : ℕ} (h : Kept k m s u) : Kept k m s (u.stationBefore tick) := by
  unfold State.stationBefore
  exact Kept.ite h.stationEnd h

theorem baseFrame (h : Kept k m s u) : Kept k m s u.baseFrame := by
  unfold State.baseFrame
  exact h.stationCount.queueStep.modeArm.epochError.haltOutputs

theorem execBaseFrameBoundary (h : Kept k m s u) : AnswersKept k m s (execBaseFrameBoundary u) := by
  unfold Machine.execBaseFrameBoundary
  refine Kept.next ?_
  refine Kept.ite h ?_
  refine h.whenDue ?_
  intro h1
  extract_lets m2 v3 x4
  have h5 : Kept k m s v3 := h.stationBefore
  exact h5.same.baseFrame

theorem execTimelineTakesEffect (h : Kept k m s u) : AnswersKept k m s (execTimelineTakesEffect u) := by
  unfold Machine.execTimelineTakesEffect
  extract_lets dev v
  have hdev {w : State} (h : Kept k m s w) : Kept k m s (dev w) := by
    refine Kept.forNat (u := { w with fr := _ }) h.same fun _ _ h => h.updOct
  have hv : Kept k m s v := .ite (hdev h).trgRegrid h
  exact (Kept.ite h (hv.forNat fun _ _ h => .ite h.updOct h)).next

theorem execStationSampleStart (h : Kept k m s u) : AnswersKept k m s (execStationSampleStart u) := by
  unfold Machine.execStationSampleStart
  refine Kept.next ?_
  split
  · exact h
  · refine Kept.ite h ?_
    refine h.whenDue ?_
    intro h1
    extract_lets v2 x3
    have h4 : Kept k m s v2 := h.stationBefore
    exact h4.same.startSample

theorem execStationDeadline {reads : List BlockReads} {other : BitVec 16} (h : Kept k m s u) :
    AnswersKept k m s (execStationDeadline reads other u) := by
  unfold Machine.execStationDeadline
  refine Kept.next ?_
  refine Kept.ite h ?_
  extract_lets v1
  have h2 : Kept k m s v1 := h.countReads
  exact Kept.ite (h2.whenDue (fun h3 => h2.stationEnd)) h2

theorem renumber {d : Word} (h : Kept k m s u) : Kept k m s (u.renumber d) := by
  unfold State.renumber
  exact h.same

theorem execFrameOrigin (h : Kept k m s u) : AnswersKept k m s (execFrameOrigin u) := by
  unfold Machine.execFrameOrigin
  refine Kept.next ?_
  refine Kept.ite h ?_
  extract_lets v1 x2 x3 v4
  have h5 : Kept k m s v1 := h.stationBefore.renumber
  have h6 : Kept k m s v4 := h5.same
  exact h6.trgRegrid.baseFrame

/-! ### Descriptors -/

theorem finish {d : Desc} {late : Bool} {r : State × Status × ℕ} (h : Kept k m s r.1) : Kept k m s (finish d late r) := by
  unfold Machine.finish
  exact h.completeNow

theorem finishOrWait {d : Desc} {late : Bool} {kind : WaitKind} {r : State × Option Status} (h : Kept k m s r.1) :
    Kept k m s (finishOrWait d late kind r) := by
  unfold Machine.finishOrWait
  split
  · exact h.finish
  · extract_lets v1 x2
    have h3 : Kept k m s v1 := h
    exact h.same

theorem readBuffer {d : Desc} {late : Bool} (h : Kept k m s u) : Kept k m s (u.readBuffer d late) := by
  unfold State.readBuffer
  split
  · extract_lets first1 v2
    have h3 : Kept k m s v2 := h.updRing
    exact Kept.ite h3.issueBuffer h3
  · exact h

theorem carryOut {d : Desc} {late : Bool} (h : Kept k m s u) : Kept k m s (u.carryOut d late) := by
  unfold State.carryOut
  extract_lets n1 e2
  split
  · exact h.finish
  · exact h.doDeblock.finishOrWait
  · exact h.doBlock.finish
  · exact h.doRundown.finish
  · exact h.doMboxWrite.finish
  · split
    · exact h.finish
    · exact h.readBuffer
  · exact h.doCoefSwap.finish
  · exact h.doInjStart.finish
  · exact h.doInjStop.finish
  · exact h.doCellQuery.finishOrWait
  · exact h.doCellRetire.finish
  · exact h.doSnapshot.finish
  · exact h.readBuffer
  · exact h.doLawLoad.finish
  · exact h.doModeLoad.finish
  · exact h.doModeChange.finishOrWait
  · exact h.doTripClear.finish
  · exact h.doTimeStep.finish
  · exact h.doEnumerate.finishOrWait
  · exact h.doC0Write.finish
  · exact h.doC0Clear.finish
  · exact h.doC0Adopt.finish
  · exact h.doFaultClear.finish
  · exact h.doFaultRelease.finish
  · exact h.doThmDemand.finish
  · exact h.doBelRead.finish
  · exact h.doBelFreeze.finishOrWait
  · exact h.doBelfryThaw.finish
  · exact h.startBist.finishOrWait
  · exact h.startBist.finishOrWait
  · exact h.doPsetNonce.finish
  · exact h.startCommit.finishOrWait
  · exact h.startCommit.finishOrWait
  · exact h.doAttest.finish
  · exact h.doFwInstall.finishOrWait

theorem turnAway {d : Desc} {st : Status} (h : Kept k m s u) : Kept k m s (u.turnAway d st) := by
  unfold State.turnAway
  exact h.complete.rejectEarly

theorem perform {d : Desc} {late : Bool} (h : Kept k m s u) : Kept k m s (u.perform d late) := by
  unfold State.perform
  extract_lets code1
  exact Kept.ite h.turnAway h.carryOut

theorem drainRing {r n : ℕ} (h : Kept k m s u) : Kept k m s (u.drainRing r n) := by
  induction n generalizing u with
  | zero => exact h
  | succ n ih =>
    unfold State.drainRing
    split
    · exact h
    · exact .ite h (ih h.updRing.perform)

theorem drain {r : ℕ} (h : Kept k m s u) : Kept k m s (u.drain r) := by
  unfold State.drain
  exact h.drainRing

theorem tallyTime (h : Kept k m s u) : Kept k m s u.tallyTime := by
  unfold State.tallyTime
  extract_lets n1
  exact Kept.ite h ((Kept.ite h h.tally).tally)

theorem unstart {r : RegRef} (h : Kept k m s u) : Kept k m s (u.unstart r) := by
  unfold State.unstart
  split
  · exact h.same
  · exact h.same
  · exact h.same
  · exact h.same
  · exact h.trgWritten
  · exact h.trgWritten
  · exact h.trgWritten
  · exact h.trgWritten
  · exact h.trgWritten
  · exact h.chooseRef
  · exact h.laneEnWritten
  · exact h.updLane
  · exact h.same
  · exact h

theorem settleWrites (h : Kept k m s u) : Kept k m s u.settleWrites := by
  unfold State.settleWrites
  extract_lets w1 v2
  have h3 : Kept k m s v2 := h.same
  refine Kept.ite h3 ?_
  refine h3.foldl ?_
  intro _ _ h4
  extract_lets v5
  have h6 : Kept k m s v5 := h4.setReg.accErr
  split
  · exact h6.unstart
  · exact h6

theorem idle (h : Kept k false s u) : Kept k false s u.idle := by
  unfold State.idle
  extract_lets v1 v2
  have h3 : Kept k false s v1 := h.settleWrites.endAbandoned.shutStep.tellThaw.idleTick.tallyTime
  have h4 : Kept k false s v2 := h3.forNat (fun _ _ h5 => h5.transmit)
  exact h4.issueSweep.forNat (fun _ _ h6 => h6.drain)

theorem activateOr {d : Desc} (h : Kept k m s u) : Kept k m s (u.activateOr d) := by
  unfold State.activateOr
  split
  · rename_i t ht
    unfold State.activate at ht
    dsimp only at ht
    repeat' split at ht
    all_goals cases ht
    exacts [h, h.turnAway, h.turnAway, h.perform]
  · exact h.updRing

theorem intake {d : Desc} (h : Kept k m s u) : Kept k m s (u.intake d) := by
  unfold State.intake
  split
  · exact h.turnAway
  · refine Kept.ite h.updRing.drain ?_
    refine Kept.ite h.turnAway ?_
    split
    · exact h.perform
    · exact Kept.ite h.activateOr h.updRing

theorem submit {r : ℕ} {h' : Hdr} {b : Body} (h : Kept k m s u) : Kept k m s (u.submit r h' b) := by
  unfold State.submit
  refine Kept.ite h ?_
  extract_lets d1 v2
  have h3 : Kept k m s v2 := h.updRing
  exact h3.updRing.intake

theorem takeAll {r : ℕ} {ws : List (BitVec 256)} (h : Kept k m s u) : Kept k m s (u.takeAll r ws) := by
  induction ws generalizing u with
  | nil => exact h
  | cons w ws ih =>
    unfold State.takeAll
    extract_lets i q v1 v2
    have h1 : Kept k m s v1 := h.updRing
    refine ih ?_
    unfold v2
    split
    · exact h1.putCompletion.rejectEarly
    · exact h1.intake

theorem execDescriptorFetch {ring : Fin 10} {raw : List (BitVec 256)} (h : Kept k m s u) : AnswersKept k m s (execDescriptorFetch ring raw u) := by
  unfold Machine.execDescriptorFetch
  refine Kept.next ?_
  split
  · exact h
  · exact Kept.ite h (Kept.ite h.fetchFailed h.updRing.takeAll.sweepDone)

theorem activateRing {r : ℕ} (h : Kept k m s u) : Kept k m s (u.activateRing r) := by
  unfold State.activateRing
  extract_lets ds1 v2
  have h3 : Kept k m s v2 := h.updRing
  exact h3.foldl (fun _ _ h4 => h4.activateOr)

theorem execDescriptorActivation (h : Kept k m s u) : AnswersKept k m s (execDescriptorActivation u) := by
  unfold Machine.execDescriptorActivation
  refine Kept.next (.ite h ?_)
  extract_lets v
  have hv : Kept k m s v := h.forNat fun _ _ h => h.activateRing
  exact Kept.forNat (u := { v with fr := _ }) hv.same fun _ _ h => h.drain

theorem applyBuffer {d : Desc} {late : Bool} {data : List Byte} (h : Kept k m s u) : Kept k m s (u.applyBuffer d late data) := by
  unfold State.applyBuffer
  refine .ite h.complete ?_
  split
  · refine Kept.finish ?_
    exact h.trans ⟨rfl, id, Memory.wf_memWriteList, fun _ => rfl, fun _ => ⟨rfl, id⟩⟩
  · exact h.doCoefWrite.finish
  · exact h

theorem execBufferRead {ring : Fin 10} {data : List Byte} (h : Kept k m s u) : AnswersKept k m s (execBufferRead ring data u) := by
  unfold Machine.execBufferRead
  refine Kept.next ?_
  split
  · exact h
  · refine Kept.ite h ?_
    refine Kept.ite h.bufferFailed ?_
    extract_lets v1
    have h2 : Kept k m s v1 := h.updRing.applyBuffer
    exact h2.issueBuffer.drain

theorem execNop {ring : Fin 10} {h' : Hdr} (h : Kept k m s u) : AnswersKept k m s (execNop ring h' u) := by
  unfold Machine.execNop
  exact Kept.next h.submit

theorem execDeblock {n : Fin 8} {h' : Hdr} {target : Byte} (h : Kept k m s u) : AnswersKept k m s (execDeblock n h' target u) := by
  unfold Machine.execDeblock
  exact Kept.next h.submit

theorem execBlock {n : Fin 8} {h' : Hdr} (h : Kept k m s u) : AnswersKept k m s (execBlock n h' u) := by
  unfold Machine.execBlock
  exact Kept.next h.submit

theorem execRundown {n : Fin 8} {h' : Hdr} (h : Kept k m s u) : AnswersKept k m s (execRundown n h' u) := by
  unfold Machine.execRundown
  exact Kept.next h.submit

theorem execMboxWrite {e : Fin 9} {h' : Hdr} {writes : List (Byte × Word)} (h : Kept k m s u) : AnswersKept k m s (execMboxWrite e h' writes u) := by
  unfold Machine.execMboxWrite
  exact Kept.next h.submit

theorem execCoefWrite {e : Fin 9} {h' : Hdr} {b : Buf} {first : BitVec 16} (h : Kept k m s u) : AnswersKept k m s (execCoefWrite e h' b first u) := by
  unfold Machine.execCoefWrite
  exact Kept.next h.submit

theorem execCoefSwap {e : Fin 9} {h' : Hdr} (h : Kept k m s u) : AnswersKept k m s (execCoefSwap e h' u) := by
  unfold Machine.execCoefSwap
  exact Kept.next h.submit

theorem execInjStart {e : Fin 9} {h' : Hdr} {p : InjParams} (h : Kept k m s u) : AnswersKept k m s (execInjStart e h' p u) := by
  unfold Machine.execInjStart
  exact Kept.next h.submit

theorem execInjStop {e : Fin 9} {h' : Hdr} {mask : BitVec 4} (h : Kept k m s u) : AnswersKept k m s (execInjStop e h' mask u) := by
  unfold Machine.execInjStop
  exact Kept.next h.submit

theorem execCellQuery {n : Fin 8} {h' : Hdr} {cell selector : BitVec 16} (h : Kept k m s u) :
    AnswersKept k m s (execCellQuery n h' cell selector u) := by
  unfold Machine.execCellQuery
  exact Kept.next h.submit

theorem execCellRetire {n : Fin 8} {h' : Hdr} {cell : BitVec 16} (h : Kept k m s u) : AnswersKept k m s (execCellRetire n h' cell u) := by
  unfold Machine.execCellRetire
  exact Kept.next h.submit

theorem execLdgSnapshot {n : Fin 8} {h' : Hdr} (h : Kept k m s u) : AnswersKept k m s (execLdgSnapshot n h' u) := by
  unfold Machine.execLdgSnapshot
  exact Kept.next h.submit

theorem execImgStage {h' : Hdr} {b : Buf} {ofs : Word} (h : Kept k m s u) : AnswersKept k m s (execImgStage h' b ofs u) := by
  unfold Machine.execImgStage
  exact Kept.next h.submit

theorem execLawLoad {h' : Hdr} {eng : Byte} {imglen : Word} (h : Kept k m s u) : AnswersKept k m s (execLawLoad h' eng imglen u) := by
  unfold Machine.execLawLoad
  exact Kept.next h.submit

theorem execModeLoad {h' : Hdr} {eng : Byte} {imglen : Word} (h : Kept k m s u) : AnswersKept k m s (execModeLoad h' eng imglen u) := by
  unfold Machine.execModeLoad
  exact Kept.next h.submit

theorem execModeChange {h' : Hdr} {p : ModeParams} (h : Kept k m s u) : AnswersKept k m s (execModeChange h' p u) := by
  unfold Machine.execModeChange
  exact Kept.next h.submit

theorem execTripClear {h' : Hdr} {mask : BitVec 16} (h : Kept k m s u) : AnswersKept k m s (execTripClear h' mask u) := by
  unfold Machine.execTripClear
  exact Kept.next h.submit

theorem execTimeStep {h' : Hdr} (h : Kept k m s u) : AnswersKept k m s (execTimeStep h' u) := by
  unfold Machine.execTimeStep
  exact Kept.next h.submit

theorem execEnumerate {h' : Hdr} {tile lane : Byte} (h : Kept k m s u) : AnswersKept k m s (execEnumerate h' tile lane u) := by
  unfold Machine.execEnumerate
  exact Kept.next h.submit

theorem execC0Write {h' : Hdr} {cell : BitVec 16} {c0 : Word} (h : Kept k m s u) : AnswersKept k m s (execC0Write h' cell c0 u) := by
  unfold Machine.execC0Write
  exact Kept.next h.submit

theorem execC0Clear {h' : Hdr} {cell : BitVec 16} (h : Kept k m s u) : AnswersKept k m s (execC0Clear h' cell u) := by
  unfold Machine.execC0Clear
  exact Kept.next h.submit

theorem execC0Adopt {h' : Hdr} {octad : Byte} (h : Kept k m s u) : AnswersKept k m s (execC0Adopt h' octad u) := by
  unfold Machine.execC0Adopt
  exact Kept.next h.submit

theorem execFaultClear {h' : Hdr} {code source : BitVec 16} (h : Kept k m s u) : AnswersKept k m s (execFaultClear h' code source u) := by
  unfold Machine.execFaultClear
  exact Kept.next h.submit

theorem execFaultRelease {h' : Hdr} (h : Kept k m s u) : AnswersKept k m s (execFaultRelease h' u) := by
  unfold Machine.execFaultRelease
  exact Kept.next h.submit

theorem execThmDemand {h' : Hdr} {mask : BitVec 80} (h : Kept k m s u) : AnswersKept k m s (execThmDemand h' mask u) := by
  unfold Machine.execThmDemand
  exact Kept.next h.submit

theorem execBelRead {h' : Hdr} {b : Buf} {area : Byte} {first count : BitVec 16} (h : Kept k m s u) :
    AnswersKept k m s (execBelRead h' b area first count u) := by
  unfold Machine.execBelRead
  exact Kept.next h.submit

theorem execBelFreeze {h' : Hdr} (h : Kept k m s u) : AnswersKept k m s (execBelFreeze h' u) := by
  unfold Machine.execBelFreeze
  exact Kept.next h.submit

theorem execBelfryThaw {h' : Hdr} (h : Kept k m s u) : AnswersKept k m s (execBelfryThaw h' u) := by
  unfold Machine.execBelfryThaw
  exact Kept.next h.submit

theorem execBistRun {h' : Hdr} {blk : BitVec 16} (h : Kept k m s u) : AnswersKept k m s (execBistRun h' blk u) := by
  unfold Machine.execBistRun
  exact Kept.next h.submit

theorem execBistRequalify {h' : Hdr} {blk : BitVec 16} (h : Kept k m s u) : AnswersKept k m s (execBistRequalify h' blk u) := by
  unfold Machine.execBistRequalify
  exact Kept.next h.submit

theorem execPsetNonce {h' : Hdr} {b : Buf} (h : Kept k m s u) : AnswersKept k m s (execPsetNonce h' b u) := by
  unfold Machine.execPsetNonce
  exact Kept.next h.submit

theorem execPsetCommit {h' : Hdr} {imglen : Word} (h : Kept k m s u) : AnswersKept k m s (execPsetCommit h' imglen u) := by
  unfold Machine.execPsetCommit
  exact Kept.next h.submit

theorem execKeyChange {h' : Hdr} {imglen : Word} (h : Kept k m s u) : AnswersKept k m s (execKeyChange h' imglen u) := by
  unfold Machine.execKeyChange
  exact Kept.next h.submit

theorem execAttest {h' : Hdr} {b : Buf} {challenge : BitVec 64} (h : Kept k m s u) : AnswersKept k m s (execAttest h' b challenge u) := by
  unfold Machine.execAttest
  exact Kept.next h.submit

theorem execFwInstall {h' : Hdr} {slot : Byte} {imglen : Word} (h : Kept k m s u) : AnswersKept k m s (execFwInstall h' slot imglen u) := by
  unfold Machine.execFwInstall
  exact Kept.next h.submit

/-! ### Register writes (chapter 19) -/

theorem lockedOut {r : RegRef} (h : Kept k m s u) : Kept k m s (u.lockedOut r) := by
  unfold State.lockedOut
  exact Kept.ite h.flag h.cfgErr

theorem clearBand {p : ℕ} {old w : Word} (h : Kept k m s u) : Kept k m s (u.clearBand p old w) := by
  unfold State.clearBand
  exact Kept.ite h h.setFld

theorem dpwWritten {n reg : ℕ} {w : Word} (h : Kept k m s u) : Kept k m s (u.dpwWritten n reg w) := by
  unfold State.dpwWritten
  exact h.same

theorem afterWrite {r : RegRef} {old w v : Word} (h : Kept k m s u) : Kept k m s (u.afterWrite r old w v) := by
  unfold State.afterWrite
  split
  · exact Kept.ite h.hifStarted h
  · exact Kept.ite h.ringStarted (Kept.ite h.ringStopped h)
  · exact h.trgWritten
  · exact h.trgWritten
  · exact h.trgWritten
  · exact h.trgWritten
  · exact h.trgWritten
  · exact h.dpwWritten
  · exact h.dpwWritten
  · exact h.dpwWritten
  · exact h.dpwWritten
  · exact h.chooseRef
  · exact h.clearBand
  · exact Kept.ite h.clearBand h
  · exact h.laneEnWritten
  · exact Kept.ite h.startEye h
  · exact h.same.setReg
  · exact h.discardWindow
  · exact Kept.ite h.same h
  · exact Kept.ite h.same h
  · exact Kept.ite h.same h
  · exact Kept.ite h.clearTombs h
  · exact h

theorem takeWrite {r : RegRef} {v : Word} (h : Kept k m s u) : Kept k m s (u.takeWrite r v) := by
  unfold State.takeWrite
  extract_lets old1 w2
  exact Kept.ite h (Kept.ite h.cfgErr (Kept.ite h.lockedOut h.same.setReg.afterWrite))

theorem hostWrite {ofs : ℕ} {v : Word} {be : BitVec 4} (h : Kept k m s u) : Kept k m s (u.hostWrite ofs v be) := by
  unfold State.hostWrite
  refine Kept.ite h ?_
  refine Kept.ite h.accErr ?_
  refine Kept.ite h.accErr ?_
  refine Kept.ite h.accErr ?_
  split
  · exact Kept.ite h h.accErr
  · exact h.takeWrite

theorem execRegisterWrite {at_ : HostAddr} {value : Word} {be : BitVec 4} (h : Kept k m s u) :
    AnswersKept k m s (execRegisterWrite at_ value be u) := by
  unfold Machine.execRegisterWrite
  refine Kept.next ?_
  split
  · exact h.hostWrite
  · exact Kept.ite h.bar2Write h
  · exact Kept.ite h.msixControl h
  · exact Kept.ite h.powerState h

theorem execHostInterfaceEnable {ctrl : Word} (h : Kept k m s u) : AnswersKept k m s (execHostInterfaceEnable ctrl u) := by
  unfold Machine.execHostInterfaceEnable
  exact Kept.next h.hostWrite

theorem execRingEnable {r : Fin 37} {cfg : Word} (h : Kept k m s u) : AnswersKept k m s (execRingEnable r cfg u) := by
  unfold Machine.execRingEnable
  exact Kept.next h.hostWrite

theorem execRingDisable {r : Fin 37} (h : Kept k m s u) : AnswersKept k m s (execRingDisable r u) := by
  unfold Machine.execRingDisable
  exact Kept.next h.hostWrite

theorem execOriginArm (h : Kept k m s u) : AnswersKept k m s (execOriginArm u) := by
  unfold Machine.execOriginArm
  exact Kept.next h.hostWrite

theorem execEyeScanStart {l : Fin 128} (h : Kept k m s u) : AnswersKept k m s (execEyeScanStart l u) := by
  unfold Machine.execEyeScanStart
  exact Kept.next h.hostWrite

theorem execTombClr (h : Kept k m s u) : AnswersKept k m s (execTombClr u) := by
  unfold Machine.execTombClr
  exact Kept.next h.hostWrite

theorem execLaneEnable {l : Fin 128} (h : Kept k m s u) : AnswersKept k m s (execLaneEnable l u) := by
  unfold Machine.execLaneEnable
  exact Kept.next h.hostWrite

theorem execLaneDisable {l : Fin 128} (h : Kept k m s u) : AnswersKept k m s (execLaneDisable l u) := by
  unfold Machine.execLaneDisable
  exact Kept.next h.hostWrite

theorem execTsTime0Read (h : Kept k m s u) : AnswersKept k m s (execTsTime0Read u) := by
  unfold Machine.execTsTime0Read
  exact Kept.next (Kept.ite h h.same)

end Kept

/-! ### Every command, every step -/

/-- Every command answers a next state; Kingpost changes by the commands of `writesKingpost` only, the tick count by those of `resetsMain`. -/
theorem exec_kept (c : Instr) (s : State) : AnswersKept (!writesKingpost c) (!resetsMain c) s (exec c s) := by
  cases c
  exacts [Kept.execNop .rfl, Kept.execDeblock .rfl, Kept.execBlock .rfl, Kept.execRundown .rfl, Kept.execMboxWrite .rfl, Kept.execCoefWrite .rfl,
    Kept.execCoefSwap .rfl, Kept.execInjStart .rfl, Kept.execInjStop .rfl, Kept.execCellQuery .rfl, Kept.execCellRetire .rfl,
    Kept.execLdgSnapshot .rfl, Kept.execImgStage .rfl, Kept.execLawLoad .rfl, Kept.execModeLoad .rfl, Kept.execModeChange .rfl,
    Kept.execTripClear .rfl, Kept.execTimeStep .rfl, Kept.execEnumerate .rfl, Kept.execC0Write .rfl, Kept.execC0Clear .rfl, Kept.execC0Adopt .rfl,
    Kept.execFaultClear .rfl, Kept.execFaultRelease .rfl, Kept.execThmDemand .rfl, Kept.execBelRead .rfl, Kept.execBelFreeze .rfl,
    Kept.execBelfryThaw .rfl, Kept.execBistRun .rfl, Kept.execBistRequalify .rfl, Kept.execPsetNonce .rfl, Kept.execPsetCommit .rfl,
    Kept.execKeyChange .rfl, Kept.execAttest .rfl, Kept.execFwInstall .rfl, Kept.execDescriptorActivation .rfl, Kept.execDoorbellSweep .rfl,
    Kept.execDescriptorFetch .rfl, Kept.execBufferRead .rfl, Kept.execReadTimeout .rfl, Kept.execHostLost .rfl, Kept.execPerstN .rfl,
    Kept.execPcieLinkDown .rfl, Kept.execD3hot .rfl, Kept.execHostInterfaceEnable .rfl, Kept.execRingEnable .rfl, Kept.execRingDisable .rfl,
    Kept.execRegisterWrite .rfl, Kept.execTsTime0Read .rfl, Kept.execOriginArm .rfl, Kept.execFrameOrigin .rfl, Kept.execEyeScanStart .rfl,
    Kept.execTombClr .rfl, Kept.execLaneEnable .rfl, Kept.execLaneDisable .rfl, Kept.execTimelineTakesEffect .rfl, Kept.execFeedbackDeadline .rfl,
    Kept.execEngineDeadline .rfl, Kept.execSelectionComplete .rfl, Kept.execSelWdog .rfl, Kept.execCommandDispatch .rfl,
    Kept.execBaseFrameBoundary .rfl, Kept.execModeDecision .rfl, Kept.execStationSampleStart .rfl, Kept.execStationDeadline .rfl,
    Kept.execDpwmPeriodStart .rfl, Kept.execDpwmEdge .rfl, Kept.execLedgerWindowEnd .rfl, Kept.execLedgerArithmeticComplete .rfl,
    Kept.execCsaveSave .rfl, Kept.execFeedbackFrame .rfl, Kept.execCaptureFrame .rfl, Kept.execEnumFrame .rfl, Kept.execEnumTimeout .rfl,
    Kept.execAbort .rfl, Kept.execCapability .rfl, Kept.execLinkCmdAck .rfl, Kept.execReportRsp .rfl, Kept.execQualPointDone .rfl,
    Kept.execEyeScanPoint .rfl, Kept.execBlockLock .rfl, Kept.execLaneLockLoss .rfl, Kept.execLaneElastic .rfl, Kept.execTHunt .rfl,
    Kept.execTCapx .rfl, Kept.execTAck .rfl, Kept.execTStep .rfl, Kept.execTRt .rfl, Kept.execLaneWake .rfl, Kept.execMark .rfl, Kept.execEcho .rfl,
    Kept.execCreditRefresh .rfl, Kept.execTripIn .rfl, Kept.execTimestampCapture .rfl, Kept.execTriggerFiring .rfl, Kept.execConvstEnd .rfl,
    Kept.execSamplePortClockStart .rfl, Kept.execSamplePortFrame .rfl, Kept.execSync .rfl, Kept.execFollowUp .rfl, Kept.execDelayResp .rfl,
    Kept.execPdelayReq .rfl, Kept.execPdelayResp .rfl, Kept.execAnnounce .rfl, Kept.execDelayReqSend .rfl, Kept.execAnnounceTimeout .rfl,
    Kept.execSyncTimeout .rfl, Kept.execAsdu .rfl, Kept.execSvLost .rfl, Kept.execFaultReport .rfl, Kept.execConsWindowClose .rfl,
    Kept.execFaultNHoldEnd .rfl, Kept.execFltStall .rfl, Kept.execFltSelf .rfl, Kept.execFallbackRecordCopy .rfl, Kept.execDoubleBitError .rfl,
    Kept.execKpInputSample .rfl, Kept.execKpEvaluationCycle .rfl, Kept.execKpHandshake .rfl, Kept.execKpXchTimeout .rfl, Kept.execKpInFaulty .rfl,
    Kept.execKpSrdMeasurement .rfl, Kept.execKpFbTimeout .rfl, Kept.execDarkPulseStart .rfl, Kept.execKpTestFail .rfl, Kept.execKpParamApply .rfl,
    Kept.execKpParamReject .rfl, Kept.execVkpOutOfRange .rfl, Kept.execKingpostViewAction .rfl, Kept.execHop .rfl, Kept.execSearchHop .rfl,
    Kept.execLockDeclared .rfl, Kept.execSettlingWaitEnd .rfl, Kept.execBandSearchComplete .rfl, Kept.execRelockTimeout .rfl,
    Kept.execClkCoreUnlock .rfl, Kept.execClkRefLoss .rfl, Kept.execRefQualified .rfl, Kept.execClkPhaseJump .rfl, Kept.execQuadPllUnlock .rfl,
    Kept.execEnergyEpoch .rfl, Kept.execEplCalibration .rfl, Kept.execScheduledDemand .rfl, Kept.execSensorGateStart .rfl,
    Kept.execSensorResult .rfl, Kept.execStalenessTimeout .rfl, Kept.execGraceTimeEnd .rfl, Kept.execRecordWrite .rfl, Kept.execNoteWrite .rfl,
    Kept.execSectorErase .rfl, Kept.execCountEntry .rfl, Kept.execBelThaw .rfl, Kept.execRailsInRange .rfl, Kept.execPwrgoodAsserted .rfl,
    Kept.execPwrgoodDeasserted .rfl, Kept.execBistSegmentEnd .rfl, Kept.execBistSegmentTimeout .rfl, Kept.execOctRdTimeout .rfl,
    Kept.execDeblockBLanesWarm .rfl, Kept.execPsetApplied .rfl, Kept.execNonceExpiry .rfl, Kept.execJtagChallenge .rfl, Kept.execJtagToken .rfl,
    Kept.execJtagMemoryAccess .rfl, Kept.execDebugGrantExpiry .rfl, Kept.execDebugHalt .rfl, Kept.execDebugRelease .rfl, Kept.execVkpInRange .rfl,
    Kept.execMainRailsLost .rfl, Kept.execPerstNRelease .rfl, Kept.execPcieLinkUp .rfl, Kept.execOctadEpoch .rfl, Kept.execMalformedBlock .rfl]

/-- Settles O3: every operation leaves the queue as it is. -/
theorem commandsAnswerAndLeaveTheQueue : Obligations.CommandsAnswerAndLeaveTheQueue := by
  unfold Obligations.CommandsAnswerAndLeaveTheQueue
  intro c s
  obtain ⟨t, ht, hk⟩ := exec_kept c s
  exact ⟨t, ht, hk.pending⟩

/-- Settles O4: no operation but those of its own commands writes Kingpost or the tick count. -/
theorem onlyTheirOwnChangeKingpostAndTicks : Obligations.OnlyTheirOwnChangeKingpostAndTicks := by
  unfold Obligations.OnlyTheirOwnChangeKingpostAndTicks
  refine ⟨fun c s t hc ht => ?_, fun c s t hc ht => ?_⟩
  all_goals
    obtain ⟨t', ht', hk⟩ := exec_kept c s
    obtain rfl : t' = t := Host.Outcome.next.inj (ht'.symm.trans ht)
  · exact hk.kingpost (by rw [hc]; rfl)
  · exact hk.ticks (by rw [hc]; rfl)

/-- Settles O6: a command keeps the canonical forms, and so does an idle tick. -/
theorem stepKeepsCanonical : Obligations.StepKeepsCanonical := by
  unfold Obligations.StepKeepsCanonical
  intro s t hs ht
  unfold step at ht
  split at ht
  · obtain rfl : s.idle = t := Host.Outcome.next.inj ht
    have hk : Kept true false s s.idle := Kept.idle .rfl
    exact ⟨hk.regs hs.1, hk.staging hs.2⟩
  · rename_i c q _
    obtain ⟨t', ht', hk⟩ := exec_kept c (s.withPending q)
    obtain rfl : t' = t := Host.Outcome.next.inj (ht'.symm.trans ht)
    exact ⟨hk.regs hs.1, hk.staging hs.2⟩

end Sys2Proof.Machine
end
section
/-! SUPPORT. An idle step that undoes a write of CLK_CTRL in LOCKOUT (R344) puts the timebase on the bypass oscillator before it counts its cycle. -/

namespace Sys2Proof.Machine

/-- LOCKOUT on the tick of a write of CLK_CTRL that had asked for reference A: before it the register asked for B, with the automatic return. -/
def ctrlWriteUndone : State :=
  { State.reset with
    tick := 1000000, wrote := [(0x400000, 3)], sys := { Sys.init with dev := .lockout }
    clk := { Clk.init with started := true, bypassTime := none, rho := 67276637, active := some false, qualA := true, qualB := true } }

/-- The tick count of an idle step is that of its clock: what transmits, runs and is issued after it counts none. -/
theorem idle_tick (s : State) : s.idle.tick = s.settleWrites.endAbandoned.shutStep.tellThaw.idleTick.tick := by
  unfold State.idle
  extract_lets v w
  have hv : v.tick = s.settleWrites.endAbandoned.shutStep.tellThaw.idleTick.tick := ((Kept.tallyTime (k := true) (m := true) .rfl).ticks rfl).1
  have hw : Kept true true v w := Kept.forNat .rfl fun _ _ h => h.transmit
  have ht : Kept true true v (forNat 10 (fun r s => s.drain r) w.issueSweep) := Kept.forNat hw.issueSweep fun _ _ h => h.drain
  exact (ht.ticks rfl).1.trans hv

/-- The undone write brings reference B back, whose phase jump relocks the time PLL (R485): this idle step already counts ⌊ρ⌋ ticks. -/
theorem ctrlWriteUndone_idle_tick : ctrlWriteUndone.idle.tick = 1000004 := by
  rw [idle_tick]
  decide +kernel

/-- Refutes O2: the count of the step follows the oscillator that the undone write leaves, not the one that ran before the step. -/
theorem not_idleStepCountsOneTick : ¬ Obligations.IdleStepCountsOneTick := by
  unfold Obligations.IdleStepCountsOneTick
  intro h
  obtain ⟨t, ht, -, -, htick, -⟩ := h ctrlWriteUndone rfl
  obtain rfl : ctrlWriteUndone.idle = t := Host.Outcome.next.inj ht
  exact absurd (ctrlWriteUndone_idle_tick.symm.trans (htick rfl rfl)) (by decide)

end Sys2Proof.Machine
end
section
/-! SUPPORT. The front command of the queue, the reset state, the checks of a descriptor. -/

namespace Sys2Proof.Machine

/-- Settles O1: with a command at the front `step` is `exec`. -/
theorem stepRunsFrontCommand : Obligations.StepRunsFrontCommand := by
  unfold Obligations.StepRunsFrontCommand
  intro c q s hs
  exact ⟨by rw [step, hs], rfl⟩

/-- An offset outside of the image window that no table defines reads zero (R557). -/
theorem readBar0_of_no_register {a : Nat} {s : State} (ha : regAt a = none) (hi : inImage a = false) : s.readBar0 a = 0 := by
  simp [State.readBar0, ha, hi]

/-- Settles O5: the reset lists are empty, and the words that the reset registers show are evaluated. -/
theorem resetIsCanonicalAndReadsAsStated : Obligations.ResetIsCanonicalAndReadsAsStated := by
  unfold Obligations.ResetIsCanonicalAndReadsAsStated
  refine ⟨⟨⟨⟨.nil, by simp [State.reset]⟩, by decide⟩, rfl, rfl, rfl⟩, fun a s ha hi => readBar0_of_no_register ha hi, ?_⟩
  decide +kernel

/-! ### The checks of R357 -/

section
variable {r : Nat} {h : Hdr} {b : Body} {s : State}

/-- A descriptor that no buffer belongs to is neither empty nor too long. -/
theorem bodyFits_of_no_buffer (hb : bodyBuf b = none) : bodyFits b = true := by
  cases b <;> simp [bodyBuf, bodyFits] at hb ⊢

theorem descCheck_of_bad_opcode (ho : opOnRing (bodyCode b) r = false) : s.descCheck r h b = some .badOpcode := by
  simp [State.descCheck, ho]

theorem descCheck_of_ill_formed (ho : opOnRing (bodyCode b) r = true) (hw : descWell r h b = false) : s.descCheck r h b = some .refused := by
  simp [State.descCheck, ho, hw]

theorem descCheck_of_empty_buffer {u : Buf} (hu : bodyBuf b = some u) (ho : opOnRing (bodyCode b) r = true) (hw : descWell r h b = true)
    (hl : u.len = 0) : s.descCheck r h b = some .lenZero := by
  simp [State.descCheck, ho, hw, hu, hl]

theorem descCheck_of_short_buffer {u : Buf} (hu : bodyBuf b = some u) (ho : opOnRing (bodyCode b) r = true) (hw : descWell r h b = true)
    (hl : u.len ≠ 0) (hs : u.buflen.toNat < u.len.toNat) : s.descCheck r h b = some .lenOver := by
  simpa [State.descCheck, ho, hw, hu, hs] using hl

theorem descCheck_of_beyond_staging {a : Buf} {ofs : Word} (ho : opOnRing (bodyCode (.imgStage a ofs)) r = true)
    (hw : descWell r h (.imgStage a ofs) = true) (hl : a.len ≠ 0) (hs : 131072 < ofs.toNat + a.len.toNat) :
    s.descCheck r h (.imgStage a ofs) = some .lenOver := by
  have hf : bodyFits (.imgStage a ofs) = false := decide_eq_false (by omega)
  simpa [State.descCheck, ho, hw, hf, bodyBuf] using hl

theorem descCheck_of_far_frame {ka : Word} (hk : h.act = some ka) (hb : bodyBuf b = none) (ho : opOnRing (bodyCode b) r = true)
    (hw : descWell r h b = true) (hd : 65535 < frameDiff ka s.nextBoundary) : s.descCheck r h b = some .refused := by
  simp [State.descCheck, ho, hw, hb, bodyFits_of_no_buffer hb, hk, hd]

theorem descCheck_of_lockout (hl : s.sys.dev = .lockout) (ha : s.lockoutAllows (bodyCode b) = false) (hk : h.act = none)
    (hb : bodyBuf b = none) (ho : opOnRing (bodyCode b) r = true) (hw : descWell r h b = true) : s.descCheck r h b = some .state := by
  simp [State.descCheck, ho, hw, hb, bodyFits_of_no_buffer hb, hk, hl, ha]

end

/-- Settles O8: one lemma for each check, in their order. -/
theorem checksSetTheirStatus : Obligations.ChecksSetTheirStatus := by
  unfold Obligations.ChecksSetTheirStatus
  refine fun r h b s => ⟨descCheck_of_bad_opcode, descCheck_of_ill_formed, fun u hu ho hw => ⟨descCheck_of_empty_buffer hu ho hw,
    descCheck_of_short_buffer hu ho hw, ?_⟩, fun ka hk hb ho hw => descCheck_of_far_frame hk hb ho hw,
    fun hl ha hk hb ho hw => descCheck_of_lockout hl ha hk hb ho hw⟩
  rintro a ofs rfl hl hs
  exact descCheck_of_beyond_staging ho hw hl hs

end Sys2Proof.Machine
end
section
/-! SUPPORT. A reaction map may raise the fixed class of PSET_REJECT (R384): then a PSET_COMMIT that fails a check fences an octad. -/

namespace Sys2Proof.Machine

/-- A protection set with a reaction map of one entry: PSET_REJECT is a FENCE of octad 0. -/
def rejectFencesImage : List Byte := List.replicate 32 0 ++ [3, 0, 8, 0, 0x01, 0x39, 3, 0, 1, 0, 0, 0]

/-- Ring 0 and its completion ring of 16 entries in use, lane 0 in block lock, octad 0 running, the set above in force. -/
def rejectFences : State :=
  { State.reset with
    regs := putReg (rcfgAddr 10) 9 (putReg (rcfgAddr 0) 9 (putReg 0x100000 0xC809 []))
    sys := { Sys.init with dev := .idle }, hif := { Hif.init with inReset := false, linkUp := true }
    octs := State.reset.octs.set 0 { Octad.init with state := .running }
    lanes := State.reset.lanes.set 0 { Lane.init with lock := true }
    ps := { State.reset.ps with image := some rejectFencesImage } }

theorem rejectFences_hypotheses : rejectFences.canTake 0 = true ∧ (rejectFences.ring 10).halt = false
    ∧ rejectFences.descCheck 0 ⟨false, 7, none⟩ (.psetCommit 0) = some .refused := by decide +kernel

/-- Beside the completion a BLOCK leaves for the hub of the fenced octad. -/
theorem rejectFences_outputs : (rejectFences.submit 0 ⟨false, 7, none⟩ (.psetCommit 0)).out.length = 2 := by decide +kernel

/-- Refutes O7: a PSET_COMMIT of LEN 0 is refused, and the FENCE that the reaction map gives PSET_REJECT sends more than its completion. -/
theorem not_failedCheckCompletesWithoutEffect : ¬ Obligations.FailedCheckCompletesWithoutEffect := by
  unfold Obligations.FailedCheckCompletesWithoutEffect
  intro h
  obtain ⟨hc, hh, hd⟩ := rejectFences_hypotheses
  obtain ⟨t, ht, -, -, -, hlen, -⟩ := h (.psetCommit ⟨false, 7, none⟩ 0) 0 ⟨false, 7, none⟩ (.psetCommit 0) rejectFences .refused rfl hc hh hd
  obtain rfl : rejectFences.submit 0 ⟨false, 7, none⟩ (.psetCommit 0) = t := Host.Outcome.next.inj ht
  exact absurd (rejectFences_outputs.symm.trans hlen) (by decide)

end Sys2Proof.Machine
end
section
/-! SUPPORT. Descriptors that wait, are turned away or judged at a boundary: what `submit` comes to for each. -/

namespace Sys2Proof.Machine

/-- Every descriptor command is submitted on its ring. -/
theorem exec_of_descriptorOf {c : Instr} {r : Nat} {h : Hdr} {b : Body} (hd : descriptorOf c = some (r, h, b)) (s : State) :
    exec c s = .next (s.submit r h b) := by
  cases c <;> cases hd <;> rfl

theorem octRing_lt (n : Fin 8) : octRing n < 10 := by
  unfold octRing
  omega

theorem engRing_lt (e : Fin 9) : engRing e < 10 := by
  unfold engRing
  split <;> omega

theorem descriptorOf_ring_lt {c : Instr} {r : Nat} {h : Hdr} {b : Body} (hd : descriptorOf c = some (r, h, b)) : r < 10 := by
  cases c <;> cases hd <;> simp [octRing_lt, engRing_lt]

/-- The state in which a descriptor of a ring has been read and its completion entry reserved. -/
def State.entered (s : State) (r : Nat) : State :=
  (s.updRing r fun x => { x with dev := x.dev + 1 }).updRing (10 + r) fun x => { x with reserved := x.reserved + 1 }

section
variable {s : State} {r : Nat} {h : Hdr} {b : Body}

theorem State.submit_of_canTake (ht : s.canTake r = true) : s.submit r h b = (s.entered r).intake (s.descOf r h b) := by
  unfold State.submit
  rw [ht]
  rfl

theorem State.submit_of_not_canTake (ht : s.canTake r = false) : s.submit r h b = s := by
  simp [State.submit, ht]

theorem State.entered_eq : s.entered r = { s with rings := (s.entered r).rings } := rfl

theorem State.entered_ring_self : (s.entered r).ring r = { s.ring r with dev := (s.ring r).dev + 1 } := by
  simp [State.entered, State.ring, State.updRing, Tab.get_upd]

theorem State.entered_ring_comp :
    (s.entered r).ring (10 + r) = { s.ring (10 + r) with reserved := (s.ring (10 + r)).reserved + 1 } := by
  simp [State.entered, State.ring, State.updRing, Tab.get_upd]

theorem State.entered_pendCount : (s.entered r).pendCount r = s.pendCount r := by
  unfold State.pendCount
  rw [State.entered_ring_self]
  rfl

theorem State.entered_activated : (s.entered r).activated = s.activated := rfl

/-- Only an opcode that Table 11-6 lets be timed passes the checks with ACT set. -/
theorem State.opAct_of_checked {ka : Word} (hc : s.descCheck r h b = none) (hk : h.act = some ka) : opAct (bodyCode b) = true := by
  by_contra hn
  have hw : descWell r h b = false := by simp [descWell, hk, hn]
  cases ho : opOnRing (bodyCode b) r with
  | false => cases (descCheck_of_bad_opcode ho).symm.trans hc
  | true => cases (descCheck_of_ill_formed ho hw).symm.trans hc

theorem State.turnAway_eq {d : Desc} {st : Status} (hc : bodyCode d.body ≠ 0x31) : s.turnAway d st = s.complete d st 0 0 := by
  simp [State.turnAway, State.rejectEarly, hc]

/-- What becomes of a timed descriptor other than a MODE_CHANGE that passes its checks (R360). -/
theorem State.intake_timed {d : Desc} {ka : Word} (hb : ∀ p, d.body ≠ .modeChange p) (hc : s.descCheck d.ring d.hdr d.body = none)
    (hk : d.hdr.act = some ka) :
    s.intake d = if 256 ≤ s.pendCount d.ring then s.turnAway d .busy
      else if s.activated then s.activateOr d else s.updRing d.ring fun x => { x with pend := x.pend ++ [d] } := by
  unfold State.intake
  rw [hc]
  simp only [hk, Option.isNone_some, Bool.false_eq_true, if_false]

/-- A timed descriptor whose frame lies ahead waits on at its boundary. -/
theorem State.activateOr_ahead {d : Desc} {ka : Word} (hk : d.hdr.act = some ka) (hl : frameDiff s.fr.k ka < 0)
    (hn : -65535 ≤ frameDiff s.fr.k ka) : s.activateOr d = s.updRing d.ring fun x => { x with pend := x.pend ++ [d] } := by
  simp only [State.activateOr, State.activate, hk, if_neg (Int.not_lt.mpr hn), if_pos hl]

/-- One more than two frames late is missed. -/
theorem State.activateOr_missed {d : Desc} {ka : Word} (hk : d.hdr.act = some ka) (hl : 2 < frameDiff s.fr.k ka) :
    s.activateOr d = s.turnAway d .missed := by
  simp only [State.activateOr, State.activate, hk, if_pos hl]
  rw [if_neg (by omega), if_neg (by omega)]

/-- One in its frame, or at most two late, is carried out. -/
theorem State.activateOr_due {d : Desc} {ka : Word} (hk : d.hdr.act = some ka) (hl : 0 ≤ frameDiff s.fr.k ka)
    (hu : frameDiff s.fr.k ka ≤ 2) : s.activateOr d = s.perform d (decide (0 < frameDiff s.fr.k ka)) := by
  simp only [State.activateOr, State.activate, hk]
  rw [if_neg (by omega), if_neg (by omega), if_neg (by omega)]

/-- A completion of a descriptor just read: it is the last to leave, its ring's pending list stays, and nothing but rings and output changes. -/
theorem State.entered_complete {st : Status} {frame : Word} {res : Nat} (hr : r < 10) (ht : s.canTake r = true)
    (hh : (s.ring (10 + r)).halt = false) :
    s.answered ((s.entered r).complete (s.descOf r h b) st frame res) r h b st frame res
      ∧ (((s.entered r).complete (s.descOf r h b) st frame res).ring r).pend = (s.ring r).pend
      ∧ RingsOnly s ((s.entered r).complete (s.descOf r h b) st frame res) := by
  refine ⟨State.complete_answered hr (State.ringEn_of_canTake ht) ?_ ?_ fun _ _ => rfl, ?_, ?_⟩
  · rw [State.entered_ring_comp]; exact hh
  · rw [State.entered_ring_comp]
  · rw [State.complete_rings (by simp only [State.descOf]; omega), State.entered_ring_self]
  · exact RingsOnly.trans State.entered_eq (RingsOnly.complete ..)

/-- A descriptor that passes its checks is carried out when its turn comes at once. -/
theorem State.perform_of_checked {d : Desc} {late : Bool} (hc : s.descCheck r d.hdr d.body = none) : s.perform d late = s.carryOut d late := by
  refine if_neg fun hg => ?_
  unfold State.descCheck at hc
  simp only [hg, if_true] at hc
  repeat' split at hc
  all_goals cases hc

theorem State.perform_nop {d : Desc} {late : Bool} (hb : d.body = .nop) (hc : s.descCheck r d.hdr .nop = none) :
    s.perform d late = s.complete d (if late then .late else .ok) s.fr.k 0 := by
  rw [State.perform_of_checked (r := r) (by rw [hb]; exact hc), State.carryOut, hb]
  cases late <;> rfl

end

/-- Settles O9: a timed descriptor takes one of the ways of `intake_timed`; what its ring cannot take changes nothing. -/
theorem timedAndUntakenDescriptorsWait : Obligations.TimedAndUntakenDescriptorsWait := by
  unfold Obligations.TimedAndUntakenDescriptorsWait
  refine ⟨fun c r h b s ka hd hb ht hh hc hk => ⟨_, exec_of_descriptorOf hd s, ?_⟩, fun c r h b s hd ht => ?_⟩
  · have hr := descriptorOf_ring_lt hd
    have hin := State.intake_timed (s := s.entered r) (d := s.descOf r h b) hb hc hk
    have hn : bodyCode b ≠ 0x31 := fun e => by cases e ▸ State.opAct_of_checked hc hk
    have hend : ∀ st, s.answered ((s.entered r).turnAway (s.descOf r h b) st) r h b st 0 0
        ∧ (((s.entered r).turnAway (s.descOf r h b) st).ring r).pend = (s.ring r).pend
        ∧ RingsOnly s ((s.entered r).turnAway (s.descOf r h b) st) := fun st => by
      rw [State.turnAway_eq (by exact hn)]
      exact State.entered_complete hr ht hh
    have hwait : ((((s.entered r).updRing r fun x => { x with pend := x.pend ++ [s.descOf r h b] }).ring r).pend
        = (s.ring r).pend ++ [s.descOf r h b]) := by
      show ((s.entered r).rings.upd r _ |>.get r).pend = _
      rw [Tab.get_upd_same]
      rw [show (s.entered r).rings.get r = _ from State.entered_ring_self]
    rw [State.submit_of_canTake ht, hin]
    have hp : (s.entered r).pendCount (s.descOf r h b).ring = s.pendCount r := State.entered_pendCount
    rw [hp, State.entered_activated]
    refine ⟨fun hl ha => ?_, fun hl ha h0 h1 => ?_, fun hf => ?_, fun hl ha h2 => ?_, fun he hl ha h0 h2 => ?_⟩
    · rw [if_neg (by omega), if_neg (by exact ne_true_of_eq_false ha)]
      exact ⟨hwait, rfl⟩
    · rw [if_neg (by omega), if_pos ha, State.activateOr_ahead (s := s.entered r) hk h0 h1]
      exact ⟨hwait, rfl⟩
    · rw [if_pos hf]
      obtain ⟨ha, hp, ho⟩ := hend .busy
      exact ⟨ha, hp, fun _ => ho⟩
    · rw [if_neg (by omega), if_pos ha, State.activateOr_missed (s := s.entered r) hk h2]
      obtain ⟨ha, hp, ho⟩ := hend .missed
      exact ⟨ha, hp, fun _ => ho⟩
    · subst he
      rw [if_neg (by omega), if_pos ha, State.activateOr_due (s := s.entered r) hk h0 h2, State.perform_nop (s := s.entered r)
          (d := s.descOf r h .nop) (r := r) rfl hc]
      have hst : (if decide (0 < frameDiff (s.entered r).fr.k ka) = true then Status.late else .ok)
          = if frameDiff s.fr.k ka = 0 then .ok else .late := by
        show (if decide (0 < frameDiff s.fr.k ka) = true then Status.late else .ok) = _
        rcases h0.eq_or_lt with e | e
        · simp [← e]
        · simp [e, e.ne']
      rw [hst]
      obtain ⟨ha, -, ho⟩ := State.entered_complete (h := h) (b := .nop) (st := if frameDiff s.fr.k ka = 0 then .ok else .late)
        (frame := s.fr.k) (res := 0) hr ht hh
      exact ⟨ha, ho⟩
  · rw [exec_of_descriptorOf hd, State.submit_of_not_canTake ht]

end Sys2Proof.Machine
end
section
/-! SUPPORT. NOP, BLOCK and RUNDOWN (Table 11-6, R544). -/

namespace Sys2Proof.Machine

section
variable {s : State} {n : Nat}

/-- The run-down of a Charging or Running octad (R544). -/
theorem State.enterRundown_eq (h : (s.oct n).state = .charging ∨ (s.oct n).state = .running) :
    s.enterRundown n = { s with
      octs := s.octs.upd n fun o => { o with state := .rundown, rdEntry := s.now }
      engs := if s.ofld n 4 7 1 = 1 ∧ s.ofld n 4 8 3 < (s.eng n).modes.length then
          s.engs.upd n fun e => { e with pending := e.pending ++
            [⟨s.ofld n 4 8 3, e.sampleFrame + 1, ((e.modes[s.ofld n 4 8 3]?).map (·.ns)).getD 0⟩] }
        else s.engs } := by
  unfold State.enterRundown
  rw [if_pos h]
  split <;> rename_i hm
  · rw [if_pos (by exact hm)]
    rfl
  · rw [if_neg (by exact hm)]
    rfl

theorem State.enterRundown_reg (h : (s.oct n).state = .charging ∨ (s.oct n).state = .running) (a : Nat) : (s.enterRundown n).reg a = s.reg a := by
  rw [State.enterRundown_eq h]
  rfl

theorem State.enterRundown_fr (h : (s.oct n).state = .charging ∨ (s.oct n).state = .running) : (s.enterRundown n).fr = s.fr := by
  rw [State.enterRundown_eq h]

end

/-- Settles O10: each descriptor is carried out at once, with its effect on the octad. -/
theorem nopBlockAndRundownComplete : Obligations.NopBlockAndRundownComplete := by
  unfold Obligations.NopBlockAndRundownComplete
  refine ⟨fun ring h s hr => ⟨_, rfl, ?_⟩, fun n h s hr ha => ⟨_, rfl, ?_⟩, fun n h s hr hs => ⟨_, rfl, ?_⟩,
    fun n h s hr hc hn => ⟨_, rfl, ?_⟩⟩
  · exact hr.completesTo s (st := .ok) (res := 0) ring.isLt (by simp) (fun _ => rfl) (fun _ _ => rfl) rfl (by decide)
  · obtain ⟨hans, hf, rg, hro, hpre⟩ := hr.completesRaise s (fun u => u.toBlocked n) (st := .ok) (res := 0) (octRing_lt n) (by simp)
      (fun _ => rfl) (fun _ => RaiseFrame.toBlocked _ _) (fun _ _ => rfl) rfl (by decide)
    obtain ⟨hst, hoth⟩ := State.toBlocked_oct (s := { s with rings := rg }) ha
    refine ⟨?_, hans, fun i hi hl => hpre.subset (State.toBlocked_aborts hi hl), fun m hm => ?_, hf⟩
    · exact (congrArg Octad.state (hro.oct n)).trans hst
    · exact (hro.oct m).trans (hoth m hm)
  · have h := hr.completesTo (s.enterRundown n) (st := .ok) (res := 0) (octRing_lt n) (by simp)
      (fun rg => by
        show finish _ false (({ s with rings := rg } : State).doRundown n) = _
        rw [State.doRundown, if_pos (by exact hs), State.enterRundown_eq (s := { s with rings := rg }) hs, State.enterRundown_eq hs]
        rfl)
      (fun a _ => State.enterRundown_reg hs a) (by rw [State.enterRundown_fr hs]) (by decide)
    rwa [State.enterRundown_eq hs] at h
  · exact hr.completesTo s (st := .state) (res := 0) (octRing_lt n) (by simp)
      (fun rg => by
        show finish _ false (({ s with rings := rg } : State).doRundown n) = _
        rw [State.doRundown, if_neg (by rintro (h | h) <;> contradiction)]) (fun _ _ => rfl) rfl (by decide)

end Sys2Proof.Machine
end
section
/-! SUPPORT. DEBLOCK: what it does on each way through Table 18-6. -/

namespace Sys2Proof.Machine

/-- The state that TARGET names (R540). -/
def deblockTarget (target : Byte) : OctState := if target = 1 then .charging else .running

theorem RaiseFrame.dberr_eq {s t : State} (h : RaiseFrame s t) (n : Nat) : (t.oct n).dberr = (s.oct n).dberr :=
  (congrArg Octad.dberr (h.oct n) : (t.oct n).core.dberr = (s.oct n).core.dberr)

theorem RaiseFrame.raiseEnumChecks (s : State) (l : Nat) : RaiseFrame s (s.raiseEnumChecks l) :=
  RaiseFrame.foldl (fun s _ => .ite (s.raise_frame ..) (.refl s)) _ _

/-- A refusal shows its code in DBERR; check 0x0A raises the failed checks of the hubs. -/
theorem RaiseFrame.showRefusal (s : State) (n code : Nat) :
    RaiseFrame (s.updOct n fun o => { o with dberr := BitVec.ofNat 8 code }) (s.showRefusal n code) :=
  .ite (.forNat (fun _ s => .ite (.refl s) (.raiseEnumChecks ..)) _ _) (.refl _)

theorem State.showRefusal_eq {s : State} {n code : Nat} (h : code ≠ 0x0A) :
    s.showRefusal n code = s.updOct n fun o => { o with dberr := BitVec.ofNat 8 code } := if_neg h

theorem RaiseFrame.c0Unset (s : State) (n : Nat) : RaiseFrame s (s.c0Unset n) := by
  unfold State.c0Unset
  dsimp only
  split
  · exact .refl s
  · exact s.raise_frame ..

/-- A release brings the octad to its target, but where what it raises fences or blocks it; its first selection is two frames away. -/
theorem State.deblockEnter_oct (s : State) (n : Nat) (t : OctState) :
    ((s.deblockEnter n t).oct n).selIn = 2
      ∧ (((s.deblockEnter n t).oct n).state = t ∨ ((s.deblockEnter n t).oct n).state = .fenced ∨ ((s.deblockEnter n t).oct n).state = .blocked)
      ∧ (s.deblockEnter n t).hif = s.hif := by
  unfold State.deblockEnter
  extract_lets u v
  have hv : v.oct n = _ := State.oct_updOct_same u n _
  have hf : RaiseFrame v (v.c0Unset n).settleDev := (RaiseFrame.c0Unset v n).trans (.settleDev _)
  refine ⟨?_, ?_, hf.hif_eq⟩
  · have hc := congrArg Octad.selIn (hf.oct n)
    rw [hv] at hc
    exact hc
  · have hs := hf.state n
    rw [hv] at hs
    exact hs.imp_right (Or.imp_right And.left)

theorem State.foldl_wakeLane_eq (l : List Nat) (s : State) :
    l.foldl (fun s i => s.wakeLane i) s = { s with lanes := (l.foldl (fun s i => s.wakeLane i) s).lanes } := by
  induction l generalizing s with
  | nil => rfl
  | cons i l ih =>
    have hw : s.wakeLane i = { s with lanes := (s.wakeLane i).lanes } := by
      unfold State.wakeLane
      split <;> rfl
    rw [List.foldl_cons, ih (s.wakeLane i)]
    generalize ((l.foldl (fun s i => s.wakeLane i) (s.wakeLane i))).lanes = x
    rw [hw]

section
variable {s : State} {n : Nat} {target : Byte}

theorem State.doDeblock_release (hs : (s.oct n).state = .charging) (ht : target = 2) (hl : s.loopDisabled n = false) :
    s.doDeblock n target = (s.updOct n fun o => { o with state := .running }, some .ok) := by
  simp [State.doDeblock, hs, ht, hl]

theorem State.doDeblock_release_refused (hs : (s.oct n).state = .charging) (ht : target = 2) (hl : s.loopDisabled n = true) :
    s.doDeblock n target = (s.showRefusal n 0x0C, some .state) := by
  simp [State.doDeblock, hs, ht, hl]

variable (hs : (s.oct n).state = .blocked) (hd : (s.oct n).deb = .none) (hb : s.bistOn n = false) (hh : s.sys.halt = false)
include hs hd hb hh

theorem State.doDeblock_refused {c : Nat} (he : s.deblockErr n = some (c + 1)) :
    s.doDeblock n target = (s.showRefusal n (c + 1), some .state) := by
  simp [State.doDeblock, hs, hd, hb, hh, he]

theorem State.doDeblock_waits (he : s.deblockErr n = none) :
    s.doDeblock n target = (((s.neededB n).foldl (fun s l => s.wakeLane l) s).updOct n fun o =>
      { o with deb := .waitB (deblockTarget target) ((s.neededB n).foldl (fun s l => s.wakeLane l) s).now }, none) := by
  simp [State.doDeblock, hs, hd, hb, hh, he, deblockTarget]

theorem State.doDeblock_armed (he : s.deblockErr n = some 0) (hk : ∀ e ∈ (s.oct n).epochs.head?, e < s.fr.epoch) :
    s.doDeblock n target = (s.updOct n fun o => { o with deb := .armed (deblockTarget target) s.fr.k }, none) := by
  unfold State.doDeblock
  cases hep : (s.oct n).epochs with
  | nil => simp [hs, hd, hb, hh, he, hep, deblockTarget]
  | cons e l =>
    have hlt : e < s.fr.epoch := hk e (by rw [hep]; exact rfl)
    simp [hs, hd, hb, hh, he, hep, deblockTarget, hlt]

theorem State.doDeblock_taken {e : Nat} (he : s.deblockErr n = some 0) (hep : (s.oct n).epochs.head? = some e) (hk : s.fr.epoch ≤ e) :
    s.doDeblock n target = ((s.updOct n fun o => { o with deb := .armed (deblockTarget target) s.fr.k }).deblockEnter n (deblockTarget target),
      none) := by
  unfold State.doDeblock
  cases hl : (s.oct n).epochs with
  | nil => rw [hl] at hep; cases hep
  | cons e' l =>
    rw [hl] at hep
    obtain rfl : e' = e := Option.some.inj hep
    simp [hs, hd, hb, hh, he, hl, deblockTarget, hk]

variable {d : Desc}

/-- A DEBLOCK whose frame has begun already releases the octad at once, and waits for the dispatch. -/
theorem State.deblock_taken {e : Nat} (he : s.deblockErr n = some 0) (hep : (s.oct n).epochs.head? = some e) (hk : s.fr.epoch ≤ e) :
    ((finishOrWait d false (.dispatch n) (s.doDeblock n target)).oct n).selIn = 2
      ∧ (((finishOrWait d false (.dispatch n) (s.doDeblock n target)).oct n).state = deblockTarget target
          ∨ ((finishOrWait d false (.dispatch n) (s.doDeblock n target)).oct n).state = .fenced
          ∨ ((finishOrWait d false (.dispatch n) (s.doDeblock n target)).oct n).state = .blocked)
      ∧ (finishOrWait d false (.dispatch n) (s.doDeblock n target)).hif.waiting = s.hif.waiting ++ [⟨d, .dispatch n, false⟩] := by
  rw [State.doDeblock_taken hs hd hb hh he hep hk]
  obtain ⟨hi, hst, hf⟩ := State.deblockEnter_oct (s.updOct n fun o => { o with deb := .armed (deblockTarget target) s.fr.k }) n
    (deblockTarget target)
  exact ⟨hi, hst, congrArg (fun x : Hif => x.waiting ++ [⟨d, .dispatch n, false⟩]) hf⟩

/-- One that needs B lanes waits for them. -/
theorem State.deblock_waits (he : s.deblockErr n = none) :
    ((finishOrWait d false (.dispatch n) (s.doDeblock n target)).oct n).deb = .waitB (deblockTarget target) s.now
      ∧ (finishOrWait d false (.dispatch n) (s.doDeblock n target)).hif.waiting = s.hif.waiting ++ [⟨d, .dispatch n, false⟩] := by
  rw [State.doDeblock_waits hs hd hb hh he, State.foldl_wakeLane_eq]
  exact ⟨congrArg Octad.deb (State.oct_updOct_same _ n _), rfl⟩

end

/-- The descriptor of a DEBLOCK on octad n's ring. -/
theorem State.carryOut_deblock (s : State) (n : Nat) (d : Desc) {target : Byte} (hn : d.ring = octRing n) (hb : d.body = .deblock target) :
    s.carryOut d false = finishOrWait d false (.dispatch n) (s.doDeblock n target) := by
  obtain ⟨r, i, h, b⟩ := d
  obtain rfl : r = octRing n := hn
  obtain rfl : b = .deblock target := hb
  rfl

/-- Settles O11: one way of `doDeblock` for each clause. -/
theorem deblockChecksAndArms : Obligations.DeblockChecksAndArms := by
  unfold Obligations.DeblockChecksAndArms
  intro n h target s hr
  have hbody : ∀ p, Body.deblock target ≠ .modeChange p := by simp
  have hcarry : ∀ rg, ({ s with rings := rg } : State).carryOut (s.descOf (octRing n) h (.deblock target)) false = _ :=
    fun rg => State.carryOut_deblock _ n _ rfl rfl
  refine ⟨fun hs hd hb hh he hk => ⟨_, rfl, ?_⟩, fun e hs hd hb hh he hep hk => ⟨_, rfl, ?_⟩, fun hs hd hb hh he => ⟨_, rfl, ?_⟩,
    fun c hs hd hb hh he => ⟨_, rfl, ?_⟩, fun hs ht hl => ⟨_, rfl, ?_⟩, fun hs ht hl => ⟨_, rfl, ?_⟩⟩
  · exact hr.waits (v := { s with
      octs := s.octs.upd n fun o => { o with deb := .armed (deblockTarget target) s.fr.k }
      hif := { s.hif with waiting := s.hif.waiting ++ [⟨s.descOf (octRing n) h (.deblock target), .dispatch n, false⟩] } }) hbody
      fun rg => (hcarry rg).trans (by rw [State.doDeblock_armed (s := { s with rings := rg }) hs hd hb hh he hk]; rfl)
  · rw [State.submit_carried hr hbody, State.carryOut_deblock _ n _ rfl rfl, State.taken_eq]
    generalize (s.taken (octRing n) h (.deblock target)).rings = rg
    exact State.deblock_taken (s := { s with rings := rg }) hs hd hb hh he hep hk
  · rw [State.submit_carried hr hbody, State.carryOut_deblock _ n _ rfl rfl, State.taken_eq]
    generalize (s.taken (octRing n) h (.deblock target)).rings = rg
    exact State.deblock_waits (s := { s with rings := rg }) hs hd hb hh he
  · obtain ⟨hans, hf, -⟩ := hr.completesRaise (s.updOct n fun o => { o with dberr := BitVec.ofNat 8 (c + 1) })
      (fun u => u.showRefusal n (c + 1)) (st := .state) (res := 0) (octRing_lt n) hbody
      (fun rg => (hcarry rg).trans (by rw [State.doDeblock_refused (s := { s with rings := rg }) hs hd hb hh he]; rfl))
      (fun rg => RaiseFrame.showRefusal { s with rings := rg } n (c + 1)) (fun _ _ => rfl) rfl (by decide)
    refine ⟨hans, ?_, fun hc => ?_, hf⟩
    · exact (hf.dberr_eq n).trans (congrArg Octad.dberr (State.oct_updOct_same s n fun o => { o with dberr := BitVec.ofNat 8 (c + 1) }))
    · exact (hr.completesTo (s.updOct n fun o => { o with dberr := BitVec.ofNat 8 (c + 1) }) (st := .state) (res := 0) (octRing_lt n) hbody
        (fun rg => (hcarry rg).trans (by
          rw [State.doDeblock_refused (s := { s with rings := rg }) hs hd hb hh he, State.showRefusal_eq hc]; rfl))
        (fun _ _ => rfl) rfl (by decide)).2
  · exact hr.completesTo (s.updOct n fun o => { o with dberr := 0x0C }) (st := .state) (res := 0) (octRing_lt n) hbody
      (fun rg => (hcarry rg).trans (by
        rw [State.doDeblock_release_refused (s := { s with rings := rg }) hs ht hl, State.showRefusal_eq (by decide)]; rfl))
      (fun _ _ => rfl) rfl (by decide)
  · exact hr.completesTo (s.updOct n fun o => { o with state := .running }) (st := .ok) (res := 0) (octRing_lt n) hbody
      (fun rg => (hcarry rg).trans (by rw [State.doDeblock_release (s := { s with rings := rg }) hs ht hl]; rfl))
      (fun _ _ => rfl) rfl (by decide)

end Sys2Proof.Machine
end
section
/-! SUPPORT. LDG_SNAPSHOT, CELL_QUERY and CELL_RETIRE: what a snapshot writes does not depend on the descriptor rings. -/

namespace Sys2Proof.Machine

theorem State.foldl_emit_eq (l : List Output) (s : State) : l.foldl State.emit s = { s with out := s.out ++ l } := by
  induction l generalizing s with
  | nil => simp
  | cons o l ih => rw [List.foldl_cons, ih]; simp [State.emit]

/-- A count reads and writes the registers alone. -/
theorem State.count_acts (a n : Nat) : ∃ f : List (Nat × Word) → List (Nat × Word), ∀ s : State, s.count a n = { s with regs := f s.regs } := by
  refine ⟨fun l => (({ State.reset with regs := l } : State).count a n).regs, fun s => ?_⟩
  unfold State.count State.countAt
  have hfld : ({ State.reset with regs := s.regs } : State).fld a 0 31 = s.fld a 0 31 := rfl
  dsimp only
  rw [hfld]
  split <;> rfl

/-- A completion that its ring takes adds its one entry. -/
theorem State.complete_out_eq {s : State} {d : Desc} (hh : (s.ring (10 + d.ring)).halt = false) (he : s.ringEn (10 + d.ring) = true)
    (st : Status) (f : Word) (res : Nat) : ∃ o, (s.complete d st f res).out = s.out ++ [o] := by
  unfold State.complete State.putCompletion
  dsimp only
  rw [hh, show (s.updRing (10 + d.ring) fun y => { y with reserved := y.reserved - 1 }).ringEn (10 + d.ring) = true from he]
  exact ⟨_, rfl⟩

/-- Two states that differ in the rings of descriptors and completions at most. -/
structure SameCaptureRings (s u : State) : Prop where
  rest : u = { s with rings := u.rings }
  ring : ∀ q, 20 ≤ q → u.ring q = s.ring q

/-- What captures write: registers of the octad, the plan's tallies, the capture rings, records sent to the host. -/
structure CaptureFrame (s t : State) : Prop where
  rest : t = { s with regs := t.regs, epl := t.epl, out := t.out, rings := t.rings }
  reg : ∀ a, a < 0x200000 → t.reg a = s.reg a
  out : s.out <+: t.out
  ring : ∀ q, q < 20 → t.ring q = s.ring q

namespace CaptureFrame

theorem refl (s : State) : CaptureFrame s s := ⟨rfl, fun _ _ => rfl, List.prefix_rfl, fun _ _ => rfl⟩

theorem trans {s t u : State} (h : CaptureFrame s t) (k : CaptureFrame t u) : CaptureFrame s u :=
  ⟨by rw [k.rest, h.rest], fun a ha => (k.reg a ha).trans (h.reg a ha), h.out.trans k.out, fun q hq => (k.ring q hq).trans (h.ring q hq)⟩

theorem foldl {α : Type} {f : State → α → State} (h : ∀ s a, CaptureFrame s (f s a)) (l : List α) (s : State) :
    CaptureFrame s (l.foldl f s) := by
  induction l generalizing s with
  | nil => exact refl s
  | cons a l ih => exact (h s a).trans (ih _)

theorem count (s : State) {a : Nat} (ha : 0x200000 ≤ a) (n : Nat) : CaptureFrame s (s.count a n) := by
  have hreg : ∀ b, b < 0x200000 → (s.count a n).reg b = s.reg b := (RaiseFrame.count ha).reg
  obtain ⟨f, hf⟩ := State.count_acts a n
  rw [hf] at hreg ⊢
  exact ⟨rfl, hreg, List.prefix_rfl, fun _ _ => rfl⟩

theorem capture (s : State) (r k : Nat) (l : List Byte) : CaptureFrame s (s.capture r k l).1 := by
  unfold State.capture
  dsimp only
  split
  · rw [State.foldl_emit_eq]
    refine ⟨rfl, fun _ _ => rfl, List.prefix_append .., fun q hq => ?_⟩
    show Tab.get (s.rings.upd (20 + r) _) q = _
    rw [Tab.get_upd_ne _ (by omega)]
    rfl
  · exact refl s

end CaptureFrame

namespace SameCaptureRings
variable {s u : State}

theorem ringsOnly (h : SameCaptureRings s u) : RingsOnly s u := by
  have ho : u.out = s.out := by rw [h.rest]
  unfold RingsOnly
  rw [ho]
  exact h.rest

theorem captureRoom (h : SameCaptureRings s u) (r n : Nat) : u.captureRoom r n = s.captureRoom r n := by
  have hr := h.ring (20 + r) (by omega)
  have he := h.rest
  generalize u.rings = rg at he
  subst he
  unfold State.captureRoom
  dsimp only
  rw [hr]
  rfl

theorem capture (h : SameCaptureRings s u) (r k : Nat) (l : List Byte) :
    SameCaptureRings (s.capture r k l).1 (u.capture r k l).1 ∧ (u.capture r k l).2 = (s.capture r k l).2 := by
  have hroom := h.captureRoom r l.length
  have hr := h.ring
  have he := h.rest
  generalize u.rings = rg at he
  subst he
  unfold State.capture
  dsimp only
  rw [hroom]
  split
  · rw [State.foldl_emit_eq, State.foldl_emit_eq]
    refine ⟨⟨?_, fun q hq => ?_⟩, rfl⟩
    · unfold State.slotWrites
      rw [hr (20 + r) (by omega)]
      rfl
    · show Tab.get (rg.upd (20 + r) _) q = Tab.get (s.rings.upd (20 + r) _) q
      have hq' : rg.get q = s.rings.get q := hr q hq
      have h20 : rg.get (20 + r) = s.rings.get (20 + r) := hr (20 + r) (by omega)
      simp only [Tab.get_upd, hq', h20]
  · exact ⟨h, rfl⟩

theorem count (h : SameCaptureRings s u) (a n : Nat) : SameCaptureRings (s.count a n) (u.count a n) := by
  have hr := h.ring
  have he := h.rest
  generalize u.rings = rg at he
  subst he
  obtain ⟨f, hf⟩ := State.count_acts a n
  rw [hf, hf]
  exact ⟨rfl, hr⟩

end SameCaptureRings

/-- The record of one cell in a snapshot of octad n, or the count of one that finds no room (R109). -/
def State.snapCell (n : Nat) (s : State) (c : Nat) : State :=
  let r := s.capture (s.ofld n 0x240C 16 4) 0x02 (s.snapRecord n c)
  if r.2 then r.1 else s.count (octBase n + 0x241C) 1

theorem State.writeSnapshot_eq (s : State) (n : Nat) :
    s.writeSnapshot n = (s.octCells n).foldl (State.snapCell n) (s.updOct n fun o => { o with snapReq := false }) := rfl

theorem CaptureFrame.snapCell (n : Nat) (s : State) (c : Nat) : CaptureFrame s (s.snapCell n c) := by
  unfold State.snapCell
  dsimp only
  split
  · exact .capture ..
  · exact .count s (by simp only [octBase]; omega) 1

theorem CaptureFrame.writeSnapshot (s : State) (n : Nat) :
    CaptureFrame (s.updOct n fun o => { o with snapReq := false }) (s.writeSnapshot n) :=
  .foldl (CaptureFrame.snapCell n) _ _

namespace SameCaptureRings
variable {s u : State}

theorem snapCell (h : SameCaptureRings s u) (n c : Nat) : SameCaptureRings (s.snapCell n c) (u.snapCell n c) := by
  have hargs : u.ofld n 0x240C 16 4 = s.ofld n 0x240C 16 4 ∧ u.snapRecord n c = s.snapRecord n c := by
    rw [h.rest]
    exact ⟨rfl, rfl⟩
  obtain ⟨hc, hb⟩ := h.capture (s.ofld n 0x240C 16 4) 0x02 (s.snapRecord n c)
  unfold State.snapCell
  dsimp only
  rw [hargs.1, hargs.2, hb]
  split
  · exact hc
  · exact h.count ..

theorem foldl_snapCell (n : Nat) (l : List Nat) (h : SameCaptureRings s u) :
    SameCaptureRings (l.foldl (State.snapCell n) s) (l.foldl (State.snapCell n) u) := by
  induction l generalizing s u with
  | nil => exact h
  | cons c l ih => exact ih (h.snapCell n c)

theorem writeSnapshot (h : SameCaptureRings s u) (n : Nat) : SameCaptureRings (s.writeSnapshot n) (u.writeSnapshot n) := by
  have hu : SameCaptureRings (s.updOct n fun o => { o with snapReq := false }) (u.updOct n fun o => { o with snapReq := false }) := by
    refine ⟨?_, h.ring⟩
    rw [h.rest]
    rfl
  have hl : u.octCells n = s.octCells n := by
    rw [h.rest]
    rfl
  rw [State.writeSnapshot_eq, State.writeSnapshot_eq, hl]
  exact hu.foldl_snapCell n _

end SameCaptureRings

/-- Taking a descriptor leaves the capture rings. -/
theorem SameCaptureRings.taken (s : State) {r : Nat} (hr : r < 10) (h : Hdr) (b : Body) : SameCaptureRings s (s.taken r h b) := by
  refine ⟨s.taken_eq r h b, fun q hq => ?_⟩
  have h1 : q ≠ r := by omega
  have h2 : q ≠ 10 + r := by omega
  simp [State.taken, State.ring, State.updRing, Tab.get_upd, h1, h2]

/-- A snapshot that is not shed: its records have left, then its completion. -/
theorem State.Ready.snapshot {s : State} {n : Nat} {h : Hdr} (hr : s.Ready (octRing n) h .ldgSnapshot) (hn : n < 8)
    (hs : s.sheds 3 = false) :
    s.answered (s.submit (octRing n) h .ldgSnapshot) (octRing n) h .ldgSnapshot .ok s.fr.k 0
      ∧ (∃ o, (s.submit (octRing n) h .ldgSnapshot).out = (s.writeSnapshot n).out ++ [o])
      ∧ RingsOnly (s.writeSnapshot n) (s.submit (octRing n) h .ldgSnapshot) := by
  have hlt : octRing n < 10 := by simp only [octRing]; omega
  generalize ht : s.taken (octRing n) h .ldgSnapshot = t
  have hts : SameCaptureRings s t := ht ▸ .taken s hlt h .ldgSnapshot
  have hfin : s.submit (octRing n) h .ldgSnapshot
      = finish (s.descOf (octRing n) h .ldgSnapshot) false (t.writeSnapshot n, .ok, 0) := by
    rw [State.submit_carried hr (by simp), ht]
    show finish _ false (t.requestSnapshot n, .ok, 0) = _
    rw [State.requestSnapshot, show t.sheds 3 = false by rw [hts.rest]; exact hs]
    rfl
  have hsame := hts.writeSnapshot n
  have hframe := CaptureFrame.writeSnapshot t n
  have hcomp : (t.writeSnapshot n).ring (10 + octRing n) = (s.taken (octRing n) h .ldgSnapshot).ring (10 + octRing n) := by
    rw [hframe.ring _ (by omega), ht]
    rfl
  have hreg : ∀ a, a < 0x200000 → (t.writeSnapshot n).reg a = s.reg a := fun a ha => by
    rw [hframe.reg a ha, hts.rest]
    rfl
  have hfr : (t.writeSnapshot n).fr = s.fr := by
    rw [hframe.rest, hts.rest]
    rfl
  rw [hfin]
  refine ⟨?_, ?_, ?_⟩
  · have := finish_answered (st := .ok) (st' := .ok) (res := 0) (late := false) hr hlt hcomp hreg (by simp)
    simpa [hfr] using this
  · have ha : rcfgAddr (10 + octRing n) < 0x200000 := by simp only [rcfgAddr]; omega
    have hen : (t.writeSnapshot n).ringEn (10 + octRing n) = true := by
      simpa only [State.ringEn, State.fld, hreg _ ha] using State.ringEn_of_canTake hr.takes
    have hhalt : ((t.writeSnapshot n).ring (10 + octRing n)).halt = false := by
      rw [hcomp, State.taken_ring_comp]
      exact hr.runs
    rw [show (s.writeSnapshot n).out = (t.writeSnapshot n).out by rw [hsame.rest]]
    exact State.complete_out_eq (s := t.writeSnapshot n) (d := s.descOf (octRing n) h .ldgSnapshot) hhalt hen .ok _ 0
  · exact RingsOnly.finish hsame.ringsOnly

theorem State.retireCell_eq_self {s : State} {c cause : Nat} (h : (s.cell c).populated = false ∨ (s.cell c).retired = true) :
    s.retireCell c cause = s :=
  if_pos (by rcases h with h | h <;> simp [h])

/-- A populated cell that its octad can spare is retired (R60). -/
theorem State.retireCell_retired {s : State} {c cause : Nat} (hp : (s.cell c).populated = true) (hr : (s.cell c).retired = false)
    (hk : s.keepsNmin (c / 512) [c] = true) : ((s.retireCell c cause).cell c).retired = true := by
  unfold State.retireCell
  rw [if_neg (by simp [hp, hr]), if_pos hk]
  refine (State.raise_frame ..).retired c ?_
  simp [State.cell, State.updCell]

theorem State.doCellQuery_asks {s : State} {n c : Nat} (hc : (s.oct n).state ≠ .unconfigured) (hp : (s.cell c).populated = true)
    (hl : (s.servingLane (c / 64)).isSome = true) : s.doCellQuery n c = (s, none) :=
  if_neg (by simp [hc, hp, Option.isSome_iff_ne_none.mp hl])

theorem State.doCellQuery_refused {s : State} {n c : Nat}
    (h : (s.oct n).state = .unconfigured ∨ (s.cell c).populated = false ∨ s.servingLane (c / 64) = none) :
    s.doCellQuery n c = (s, some .state) :=
  if_pos (by simpa using h)

/-- Settles O12: a snapshot does not read the rings of its own descriptor, the rest is one case of the operation each. -/
theorem snapshotQueryAndRetirement : Obligations.SnapshotQueryAndRetirement := by
  unfold Obligations.SnapshotQueryAndRetirement
  refine ⟨⟨fun n h s hr hs => ⟨_, rfl, ?_⟩, fun n h s hr hs => ⟨_, rfl, ?_⟩⟩,
    ⟨fun n h cell sel s hr hc hp hl => ⟨_, rfl, ?_⟩, fun n h cell sel s hr hc => ⟨_, rfl, ?_⟩⟩,
    ⟨fun n h cell s hr hp hn => ⟨_, rfl, ?_⟩, fun n h cell s hr hc => ⟨_, rfl, ?_⟩⟩⟩
  · exact hr.completesTo (s.updOct n fun o => { o with snapReq := true }) (st := .ok) (res := 0) (octRing_lt n) (by simp)
      (fun rg => by
        show finish _ false (({ s with rings := rg } : State).requestSnapshot n, .ok, 0) = _
        rw [State.requestSnapshot, if_pos (by exact hs)]
        rfl) (fun _ _ => rfl) rfl (by decide)
  · obtain ⟨hans, ⟨o, ho⟩, hro⟩ := hr.snapshot n.isLt hs
    have hw := CaptureFrame.writeSnapshot s n
    obtain ⟨l, hl⟩ : s.out <+: (s.writeSnapshot n).out := hw.out
    refine ⟨hans, ⟨l, hl.symm, ?_, ?_⟩, ?_⟩
    · rw [hl, ho]
      exact List.prefix_append ..
    · rw [ho, ← hl]
      simp [Nat.add_assoc]
    · refine Eq.trans hro ?_
      conv_lhs => rw [hw.rest]
      rfl
  · exact hr.waits (v := { s with hif := { s.hif with waiting :=
      s.hif.waiting ++ [⟨s.descOf (octRing n) h (.cellQuery cell sel), .query n cell.toNat, false⟩] } }) (by simp)
      fun rg => by
        show finishOrWait _ false _ (({ s with rings := rg } : State).doCellQuery n cell.toNat) = _
        rw [State.doCellQuery_asks (s := { s with rings := rg }) hc hp hl]
        rfl
  · exact hr.completesTo s (st := .state) (res := 0) (octRing_lt n) (by simp)
      (fun rg => by
        show finishOrWait _ false _ (({ s with rings := rg } : State).doCellQuery n cell.toNat) = _
        rw [State.doCellQuery_refused (s := { s with rings := rg }) hc]
        rfl) (fun _ _ => rfl) rfl (by decide)
  · obtain ⟨hans, hf, rg, hro, -⟩ := hr.completesRaise s (fun u => u.retireCell cell.toNat 0) (st := .ok)
      (res := bit (!s.keepsNmin (cell.toNat / 512) [cell.toNat])) (octRing_lt n) (by simp)
      (fun rg => by
        show finish _ false (({ s with rings := rg } : State).doCellRetire cell.toNat) = _
        rw [State.doCellRetire, show ({ s with rings := rg } : State).cell cell.toNat = s.cell cell.toNat from rfl, hp, hn]
        rfl)
      (fun _ => State.retireCell_frame ..) (fun _ _ => rfl) rfl (by decide)
    refine ⟨hf, fun hk => ⟨?_, ?_⟩, fun hk => ?_⟩
    · rw [hro.cell]
      exact State.retireCell_retired (s := { s with rings := rg }) hp hn hk
    · rw [hk] at hans
      exact hans
    · rw [hk] at hans
      exact hans
  · exact hr.completesTo s (st := .ok) (res := 0) (octRing_lt n) (by simp)
      (fun rg => by
        show finish _ false (({ s with rings := rg } : State).doCellRetire cell.toNat) = _
        rw [State.doCellRetire, State.retireCell_eq_self (s := { s with rings := rg }) hc,
          show ({ s with rings := rg } : State).cell cell.toNat = s.cell cell.toNat from rfl]
        rcases hc with hc | hc <;> rw [hc] <;> simp [bit]) (fun _ _ => rfl) rfl (by decide)

end Sys2Proof.Machine
end
section
/-! SUPPORT. MBOX_WRITE, COEF_SWAP, INJ_START and INJ_STOP, each on one engine. -/

namespace Sys2Proof.Machine

theorem ringEngine_engRing (e : Fin 9) : ringEngine (engRing e) = e := by
  revert e
  decide

section
variable {s : State} {e : Nat}

/-- What the mailboxes of an engine hold after an MBOX_WRITE. -/
def Engine.mboxWrites (x : Engine) (now : Nat) (ws : List (Byte × Word)) : Engine :=
  ws.foldl (fun x w => { x with mbox := x.mbox.upd w.1.toNat fun m => { m with value := w.2, tick := now, got := true } }) x

/-- The mailboxes of an MBOX_WRITE written one after the other at one tick. -/
def State.putMboxes (s : State) (e now : Nat) (ws : List (Byte × Word)) : State :=
  ws.foldl (fun s w => s.putMbox e w.1.toNat w.2 now) s

theorem State.foldl_putMbox_eq (s : State) (e : Nat) (ws : List (Byte × Word)) :
    ws.foldl (fun s w => s.putMbox e w.1.toNat w.2 s.now) s = s.putMboxes e s.now ws := by
  induction ws generalizing s with
  | nil => rfl
  | cons w ws ih => exact ih _

/-- The mailboxes written one after the other are one update of their engine. -/
theorem State.putMboxes_engs (ws : List (Byte × Word)) (now : Nat) (s : State) :
    (∀ f, (s.putMboxes e now ws).eng f = if f = e then (s.eng e).mboxWrites now ws else s.eng f)
      ∧ s.putMboxes e now ws = { s with engs := (s.putMboxes e now ws).engs } := by
  induction ws generalizing s with
  | nil =>
    refine ⟨fun f => ?_, rfl⟩
    split
    · rename_i h; subst h; rfl
    · rfl
  | cons w ws ih =>
    obtain ⟨hf, hs⟩ := ih (s.putMbox e w.1.toNat w.2 now)
    have hput : ∀ f, (s.putMbox e w.1.toNat w.2 now).eng f = if f = e then (s.eng e).mboxWrites now [w] else s.eng f := fun f =>
      Tab.get_upd ..
    refine ⟨fun f => ?_, hs⟩
    rw [show s.putMboxes e now (w :: ws) = (s.putMbox e w.1.toNat w.2 now).putMboxes e now ws from rfl, hf, hput, hput, if_pos rfl]
    split
    · rfl
    · rfl

/-- An operation that neither reads nor writes the rings. -/
def RingFree (f : State → State) : Prop := ∀ (s : State) (rg : Tab Ring), f { s with rings := rg } = { f s with rings := rg }

theorem RingFree.foldl {α : Type} {f : State → α → State} (h : ∀ a, RingFree fun s => f s a) (l : List α) : RingFree fun s => l.foldl f s := by
  induction l with
  | nil => exact fun _ _ => rfl
  | cons a l ih =>
    intro s rg
    exact (congrArg (fun u => l.foldl f u) (h a s rg)).trans (ih (f s a) rg)

theorem RingFree.forNat {f : Nat → State → State} (h : ∀ i, RingFree (f i)) (n : Nat) : RingFree (forNat n f) := by
  induction n with
  | zero => exact fun _ _ => rfl
  | succ n ih =>
    intro s rg
    show f n (Machine.forNat n f { s with rings := rg }) = _
    rw [ih s rg]
    exact h n _ rg

theorem RingFree.putMboxes (e now : Nat) (ws : List (Byte × Word)) : RingFree fun s => s.putMboxes e now ws :=
  RingFree.foldl (fun _ _ _ => rfl) ws

theorem State.doMboxWrite_ok {ws : List (Byte × Word)} {g : Graph} (hg : (s.eng e).graph = some g)
    (hw : ∀ w ∈ ws, ∃ x, g.chans[w.1.toNat]? = some x ∧ x.kind = 1 ∧ x.src = 7) :
    s.doMboxWrite e ws = (s.putMboxes e s.now ws, .ok, 0) := by
  unfold State.doMboxWrite
  rw [hg]
  dsimp only
  rw [if_pos]
  · rw [State.foldl_putMbox_eq]
  · refine List.all_eq_true.mpr fun w hm => ?_
    obtain ⟨x, hx, hk, hs⟩ := hw w hm
    simp [hx, hk, hs]

theorem State.doMboxWrite_refused {ws : List (Byte × Word)} {g : Graph} (hg : (s.eng e).graph = some g)
    (hw : ∃ w ∈ ws, ∀ x, g.chans[w.1.toNat]? = some x → x.src ≠ 7) : s.doMboxWrite e ws = (s, .refused, 0) := by
  unfold State.doMboxWrite
  rw [hg]
  refine if_neg fun hall => ?_
  obtain ⟨w, hm, hx⟩ := hw
  have := List.all_eq_true.mp hall w hm
  cases hc : g.chans[w.1.toNat]? with
  | none => simp [hc] at this
  | some x => simp [hc, hx x hc] at this

theorem State.doCoefSwap_ok (hg : (s.eng e).graph.isSome = true) (hw : (s.eng e).swap = none) :
    s.doCoefSwap e false = (s.updEng e fun x => { x with swap := some (some s.fr.k) }, .ok, 0) := by
  simp [State.doCoefSwap, Option.isSome_iff_ne_none.mp hg, hw, State.actFrame]

theorem State.doCoefSwap_busy (hg : (s.eng e).graph.isSome = true) (hw : (s.eng e).swap ≠ none) :
    s.doCoefSwap e false = (s, .busy, 0) := by
  simp [State.doCoefSwap, Option.isSome_iff_ne_none.mp hg, Option.isSome_iff_ne_none.mpr hw]

section
variable {p : InjParams} {g : Graph} {b : GBlock} (hg : (s.eng e).graph = some g) (hb : g.blocks[p.block.toNat]? = some b)
  (hp : b.pipe ≠ 4) (hk : refKind (b.ins.getD p.port.toNat 0xC000) ≠ 3) (hz : p.kind = 3 → p.phi.toNat % 2 ^ prbsOrder p ≠ 0)
include hg hb hp hk hz

theorem State.doInjStart_ok (ha : ((s.eng e).inj.get p.gen.toNat).active = false) (hn : ((s.eng e).inj.get p.gen.toNat).pend = false) :
    s.doInjStart e p false = (s.updEng e fun x =>
      { x with inj := x.inj.set p.gen.toNat { Inj.init with pend := true, p := p, frame := some s.fr.k } }, .ok, 0) := by
  simpa [State.doInjStart, hg, hb, hp, ha, hn, State.actFrame] using ⟨hk, hz⟩

theorem State.doInjStart_busy (ha : ((s.eng e).inj.get p.gen.toNat).active = true) : s.doInjStart e p false = (s, .busy, 0) := by
  simpa [State.doInjStart, hg, hb, hp, ha] using ⟨hk, hz⟩

end

/-- One generator of an engine marked to stop, if it runs or is to run. -/
def State.stopInj (mask e g : Nat) (s : State) : State :=
  if mask / 2 ^ g % 2 = 1 then
    s.updEng e fun x => { x with inj := x.inj.upd g fun j => { j with stopping := j.active || j.pend } }
  else s

theorem State.doInjStop_eq (mask : Nat) : s.doInjStop e mask = (forNat 4 (State.stopInj mask e) s, .ok, 0) := rfl

theorem RingFree.stopInj (mask e g : Nat) : RingFree (State.stopInj mask e g) := fun s rg => by
  unfold State.stopInj
  split <;> rfl

/-- INJ_STOP marks the generators of the mask below k; nothing else changes. -/
theorem State.forNat_stopInj (mask k : Nat) :
    (∀ g, ((forNat k (State.stopInj mask e) s).eng e).inj.get g = if g < k ∧ mask / 2 ^ g % 2 = 1 then
        { (s.eng e).inj.get g with stopping := ((s.eng e).inj.get g).active || ((s.eng e).inj.get g).pend } else (s.eng e).inj.get g)
      ∧ (∀ f, f ≠ e → (forNat k (State.stopInj mask e) s).eng f = s.eng f)
      ∧ forNat k (State.stopInj mask e) s = { s with engs := (forNat k (State.stopInj mask e) s).engs } := by
  induction k with
  | zero => exact ⟨fun g => by simp [forNat], fun f _ => rfl, rfl⟩
  | succ k ih =>
    obtain ⟨hg, hf, hs⟩ := ih
    show (∀ g, ((State.stopInj mask e k (forNat k (State.stopInj mask e) s)).eng e).inj.get g = _) ∧ (∀ f, f ≠ e →
      (State.stopInj mask e k (forNat k (State.stopInj mask e) s)).eng f = s.eng f) ∧ State.stopInj mask e k (forNat k (State.stopInj mask e) s) =
        { s with engs := (State.stopInj mask e k (forNat k (State.stopInj mask e) s)).engs }
    generalize forNat k (State.stopInj mask e) s = u at hg hf hs
    unfold State.stopInj
    split
    · rename_i hm
      refine ⟨fun g => ?_, fun f hfe => ?_, ?_⟩
      · rw [State.eng_updEng_same]
        show (((u.eng e).inj).upd k _).get g = _
        rw [Tab.get_upd, hg, hg]
        by_cases hk : g = k
        · subst hk
          simp [hm]
        · have hlt : g < k + 1 ↔ g < k := by omega
          simp only [if_neg hk, hlt]
      · exact (Tab.get_upd_ne _ hfe _).trans (hf f hfe)
      · rw [hs]
        rfl
    · rename_i hm
      refine ⟨fun g => ?_, hf, hs⟩
      rw [hg]
      by_cases hk : g = k
      · subst hk
        simp [hm]
      · have hlt : g < k + 1 ↔ g < k := by omega
        simp only [hlt]

end

/-- Settles O13: each descriptor acts on its ring's engine alone. -/
theorem mailboxesSwapAndInjections : Obligations.MailboxesSwapAndInjections := by
  unfold Obligations.MailboxesSwapAndInjections
  refine ⟨⟨fun e h ws g s hr hg hw => ⟨_, rfl, ?_⟩, fun e h ws g s hr hg hw => ⟨_, rfl, ?_⟩⟩,
    fun e h s hr hg => ⟨_, rfl, fun hw => ?_, fun hw => ?_⟩, fun e h p g b s hr hg hb hp hk hz => ⟨_, rfl, fun ha hn => ?_, fun ha => ?_⟩,
    fun e h m s hr => ⟨_, rfl, ?_⟩⟩
  · obtain ⟨hf, hs⟩ := State.putMboxes_engs (e := e) ws s.now s
    obtain ⟨hans, ht⟩ := hr.completesTo (s.putMboxes e s.now ws) (st := .ok) (res := 0) (engRing_lt e)
      (by simp)
      (fun rg => by
        show finish _ false (({ s with rings := rg } : State).doMboxWrite (ringEngine (engRing e)) ws) = _
        rw [ringEngine_engRing, State.doMboxWrite_ok (s := { s with rings := rg }) hg hw]
        exact congrArg (fun u => finish _ false (u, .ok, 0)) (RingFree.putMboxes e s.now ws s rg))
      (fun _ _ => by rw [hs]; rfl) (by rw [hs]) (by decide)
    have he : ∀ f, (s.submit (engRing e) h (.mboxWrite ws)).eng f = (s.putMboxes e s.now ws).eng f :=
      fun f => by rw [ht]; rfl
    refine ⟨hans, ?_, fun f hfe => ?_, ?_⟩
    · rw [he, hf, if_pos rfl]
      rfl
    · rw [he, hf, if_neg hfe]
    · rw [hs] at ht
      rw [ht]
  · exact hr.completesTo s (st := .refused) (res := 0) (engRing_lt e) (by simp)
      (fun rg => by
        show finish _ false (({ s with rings := rg } : State).doMboxWrite (ringEngine (engRing e)) ws) = _
        rw [State.doMboxWrite_refused (s := { s with rings := rg }) (by rw [ringEngine_engRing]; exact hg) hw])
      (fun _ _ => rfl) rfl (by decide)
  · exact hr.completesTo (s.updEng e fun x => { x with swap := some (some s.fr.k) }) (st := .ok) (res := 0) (engRing_lt e) (by simp)
      (fun rg => by
        show finish _ false (({ s with rings := rg } : State).doCoefSwap (ringEngine (engRing e)) false) = _
        rw [ringEngine_engRing, State.doCoefSwap_ok (s := { s with rings := rg }) hg hw]
        rfl) (fun _ _ => rfl) rfl (by decide)
  · exact hr.completesTo s (st := .busy) (res := 0) (engRing_lt e) (by simp)
      (fun rg => by
        show finish _ false (({ s with rings := rg } : State).doCoefSwap (ringEngine (engRing e)) false) = _
        rw [ringEngine_engRing, State.doCoefSwap_busy (s := { s with rings := rg }) hg hw])
      (fun _ _ => rfl) rfl (by decide)
  · exact hr.completesTo (s.updEng e fun x =>
        { x with inj := x.inj.set p.gen.toNat { Inj.init with pend := true, p := p, frame := some s.fr.k } })
      (st := .ok) (res := 0) (engRing_lt e) (by simp)
      (fun rg => by
        show finish _ false (({ s with rings := rg } : State).doInjStart (ringEngine (engRing e)) p false) = _
        rw [ringEngine_engRing, State.doInjStart_ok (s := { s with rings := rg }) hg hb hp hk hz ha hn]
        rfl) (fun _ _ => rfl) rfl (by decide)
  · exact hr.completesTo s (st := .busy) (res := 0) (engRing_lt e) (by simp)
      (fun rg => by
        show finish _ false (({ s with rings := rg } : State).doInjStart (ringEngine (engRing e)) p false) = _
        rw [ringEngine_engRing, State.doInjStart_busy (s := { s with rings := rg }) hg hb hp hk hz ha])
      (fun _ _ => rfl) rfl (by decide)
  · obtain ⟨hg, hf, hs⟩ := State.forNat_stopInj (s := s) (e := e) m.toNat 4
    obtain ⟨hans, ht⟩ := hr.completesTo (forNat 4 (State.stopInj m.toNat e) s) (st := .ok) (res := 0) (engRing_lt e) (by simp)
      (fun rg => by
        show finish _ false (({ s with rings := rg } : State).doInjStop (ringEngine (engRing e)) m.toNat) = _
        rw [ringEngine_engRing, State.doInjStop_eq, RingFree.forNat (RingFree.stopInj m.toNat e) 4 s rg])
      (fun _ _ => by rw [hs]; rfl) (by rw [hs]) (by decide)
    have he : ∀ f, (s.submit (engRing e) h (.injStop m)).eng f = (forNat 4 (State.stopInj m.toNat e) s).eng f :=
      fun f => by rw [ht]; rfl
    refine ⟨hans, fun g hg4 => ?_, fun f hfe => ?_, ?_⟩
    · rw [he, hg]
      simp [hg4]
    · rw [he, hf f hfe]
    · rw [hs] at ht
      rw [ht]

end Sys2Proof.Machine
end
section
/-! SUPPORT. In buffers: a buffer alone on its ring is asked of the host at once; the data of an IMG_STAGE buffer enters the staging area. -/

namespace Sys2Proof.Machine

/-- The requests of a buffer of n bytes at an address (Table 11-1). -/
def bufferReads (r : Fin 10) (addr : BitVec 64) (n : Nat) : List Output :=
  (List.range ((n + 4095) / 4096)).map fun i => .hostRead (.buffer r) (addr + BitVec.ofNat 64 (4096 * i)) (min 4096 (n - 4096 * i))

theorem State.foldl_issueRead_eq {α : Type} (k : α → ReadKind) (a : α → BitVec 64) (n : α → Nat) (l : List α) {s : State}
    (h : s.hostReach = true) :
    l.foldl (fun s i => s.issueRead (k i) (a i) (n i)) s = { s with out := s.out ++ l.map fun i => .hostRead (k i) (a i) (n i) } := by
  induction l generalizing s with
  | nil => simp
  | cons i l ih =>
    have hi : s.issueRead (k i) (a i) (n i) = s.emit (.hostRead (k i) (a i) (n i)) := if_pos h
    rw [List.foldl_cons, hi, ih (by exact h)]
    simp [State.emit]

theorem State.readFor_eq {s : State} {r : Fin 10} {d : Desc} {b : Buf} (hb : bodyBuf d.body = some b) (h : s.hostReach = true) :
    s.readFor r d = { s with out := s.out ++ bufferReads r b.addr b.len.toNat } := by
  unfold State.readFor
  rw [hb]
  exact State.foldl_issueRead_eq _ _ _ _ h

/-- A buffer that is the first of its ring: its requests leave at once. -/
theorem State.readBuffer_spec {s : State} {r : Fin 10} {d : Desc} {late : Bool} {b : Buf} (hr : d.ring = r) (hq : (s.ring r).buf = [])
    (hb : bodyBuf d.body = some b) (h : s.hostReach = true) :
    (s.readBuffer d late).out = s.out ++ bufferReads r b.addr b.len.toNat ∧ ((s.readBuffer d late).ring r).buf = [(d, late)]
      ∧ RingsOnly s (s.readBuffer d late) := by
  obtain ⟨ring, i, hd, body⟩ := d
  obtain rfl : ring = r := hr
  have hbuf : ((s.updRing r fun x => { x with buf := x.buf ++ [(⟨r, i, hd, body⟩, late)] }).ring r).buf = [(⟨r, i, hd, body⟩, late)] := by
    show (Tab.get (s.rings.upd r _) r).buf = _
    rw [Tab.get_upd_same]
    exact congrArg (· ++ [((⟨r, i, hd, body⟩ : Desc), late)]) hq
  have hread : s.readBuffer ⟨r, i, hd, body⟩ late
      = ((s.updRing r fun x => { x with buf := x.buf ++ [(⟨r, i, hd, body⟩, late)] }).updRing r fun x =>
        { x with bufTries := 0, bufAt := s.hifNow }).readFor r ⟨r, i, hd, body⟩ := by
    unfold State.readBuffer State.issueBuffer
    dsimp only
    rw [dif_pos r.isLt, hq, hbuf]
    rfl
  rw [hread, State.readFor_eq hb (by exact h)]
  refine ⟨rfl, ?_, rfl⟩
  show (Tab.get ((s.rings.upd r _).upd r _) r).buf = _
  rw [Tab.get_upd_same]
  exact hbuf

/-- A ready descriptor whose buffer is to be read from the host. -/
theorem State.Ready.readsBuffer {s : State} {r : Fin 10} {h : Hdr} {b : Body} {u : Buf} (hr : s.Ready r h b)
    (hm : ∀ p, b ≠ .modeChange p) (hu : bodyBuf b = some u) (hq : (s.ring r).buf = [])
    (hc : ∀ rg, ({ s with rings := rg } : State).carryOut (s.descOf r h b) false
      = ({ s with rings := rg } : State).readBuffer (s.descOf r h b) false) :
    (s.submit r h b).out = s.out ++ bufferReads r u.addr u.len.toNat ∧ ((s.submit r h b).ring r).buf = [(s.descOf r h b, false)]
      ∧ RingsOnly s (s.submit r h b) := by
  have hbuf : ((s.taken r h b).ring r).buf = [] := by
    have : ((s.taken r h b).ring r).buf = (s.ring r).buf := by simp [State.taken, State.ring, State.updRing, Tab.get_upd]
    rw [this, hq]
  have hreach : s.hostReach = true := by
    have := hr.takes
    simp only [State.canTake, Bool.and_eq_true] at this
    exact this.1.1.1.1.2
  rw [State.submit_carried hr hm]
  have hro := RingsOnly.taken s r h b
  have hout : (s.taken r h b).out = s.out := by rw [State.taken_eq]
  have hcarry : (s.taken r h b).carryOut (s.descOf r h b) false = (s.taken r h b).readBuffer (s.descOf r h b) false := by
    rw [State.taken_eq]
    exact hc _
  have hreach' : (s.taken r h b).hostReach = true := by
    rw [State.taken_eq]
    exact hreach
  generalize s.taken r h b = t at *
  obtain ⟨ho, hb, hs⟩ := State.readBuffer_spec (s := t) (d := s.descOf r h b) (late := false) rfl hbuf hu hreach'
  rw [hcarry]
  exact ⟨hout ▸ ho, hb, hro.trans hs⟩

/-- A completion that its ring takes is the last to leave. -/
theorem State.complete_getLast {s u : State} {d : Desc} (hd : d.ring < 10) (hh : (u.ring (10 + d.ring)).halt = false)
    (he : u.ringEn (10 + d.ring) = true) (hcnt : (u.ring (10 + d.ring)).count17 = (s.ring (10 + d.ring)).count17)
    (hreg : ∀ a, a < 0x200000 → u.reg a = s.reg a) (st : Status) (f : Word) (res : Nat) :
    (u.complete d st f res).out.getLast? = some (s.completionOut (10 + d.ring) st (bodyCode d.body) d.hdr.tag d.index f res) := by
  unfold State.complete State.putCompletion
  dsimp only
  rw [hh, show (u.updRing (10 + d.ring) fun y => { y with reserved := y.reserved - 1 }).ringEn (10 + d.ring) = true from he]
  refine (List.getLast?_concat ..).trans (congrArg some
    (State.completionOut_congr (u := u.updRing (10 + d.ring) _) (c := 10 + d.ring) (by omega) ?_ hreg ..))
  exact (congrArg Ring.count17 (Tab.get_upd_same u.rings (10 + d.ring) fun y => { y with reserved := y.reserved - 1 })).trans hcnt

/-- The state in which a buffer of ring 0 has been taken and its bytes staged. -/
def State.staged (s : State) (ofs : Nat) (data : List Byte) : State :=
  { s.updRing 0 fun x => { x with buf := [] } with staging := memWriteList ofs data s.staging }

theorem State.staged_ring (s : State) (ofs : Nat) (data : List Byte) {q : Nat} (hq : q ≠ 0) : (s.staged ofs data).ring q = s.ring q :=
  Tab.get_upd_ne _ hq _

theorem State.staged_eq (s : State) (ofs : Nat) (data : List Byte) :
    s.staged ofs data = { s with staging := memWriteList ofs data s.staging, rings := (s.staged ofs data).rings } := rfl

/-- The bytes of a whole IMG_STAGE buffer that came in time: they enter the staging area, and the descriptor completes. -/
theorem State.imgStage_arrives {s : State} {d : Desc} {b : Buf} {ofs : Word} {data : List Byte} (hq : (s.ring 0).buf = [(d, false)])
    (hb : d.body = .imgStage b ofs) (hd : d.ring = 0) (hl : b.len.toNat = data.length) (hreach : s.hostReach = true)
    (htime : s.inCplTime (s.ring 0).bufAt = true) (hdev : s.sys.dev ≠ .lockout) (hun : (s.ring 0).untimed = []) :
    exec (.bufferRead 0 data) s = .next ((s.staged ofs.toNat data).complete d .ok s.fr.k 0) := by
  generalize hv : s.staged ofs.toNat data = v
  have hring : (v.complete d .ok s.fr.k 0).ring 0 = { s.ring 0 with buf := [] } := by
    refine (State.complete_rings (by rw [hd]; decide)).trans ?_
    rw [← hv]
    exact Tab.get_upd_same ..
  have happly : (s.updRing 0 fun x => { x with buf := [] }).applyBuffer d false data = v.complete d .ok s.fr.k 0 := by
    unfold State.applyBuffer
    rw [if_neg (by exact hdev), hb, ← hv]
    rfl
  have hissue : (v.complete d .ok s.fr.k 0).issueBuffer 0 (by decide) = v.complete d .ok s.fr.k 0 := by
    unfold State.issueBuffer
    rw [hring]
  have hdrain : (v.complete d .ok s.fr.k 0).drain 0 = v.complete d .ok s.fr.k 0 := by
    unfold State.drain
    rw [hring, show ({ s.ring 0 with buf := [] } : Ring).untimed = [] from hun]
    rfl
  show execBufferRead 0 data s = _
  unfold execBufferRead
  have hq0 : (s.ring (0 : Fin 10)).buf = [(d, false)] := hq
  have htime0 : s.inCplTime (s.ring (0 : Fin 10)).bufAt = true := htime
  rw [hq0]
  dsimp only
  rw [hb, hreach, htime0]
  simp only [bodyBuf, hl, bne_self_eq_false, Bool.not_true, Bool.or_self, Bool.false_eq_true, if_false]
  exact congrArg Host.Outcome.next ((congrArg (fun u : State => (u.issueBuffer 0 (by decide)).drain 0) happly).trans
    ((congrArg (fun u : State => u.drain 0) hissue).trans hdrain))

/-- Settles O14: a buffer's requests leave as it becomes the first of its ring; its data is written at its offset. -/
theorem inBuffersAreReadAndStaged : Obligations.InBuffersAreReadAndStaged := by
  unfold Obligations.InBuffersAreReadAndStaged
  refine ⟨⟨fun e h b f s hr he hq => ?_, fun h b ofs s hr hq => ?_⟩,
    fun d b ofs data s hq hb hd hl hlen hreach htime hdev hun hwf hen hh => ?_⟩
  · obtain ⟨ho, hbuf, hro⟩ := State.Ready.readsBuffer (r := ⟨engRing e, engRing_lt e⟩) hr (by simp) rfl hq fun rg => by
      show (match ({ s with rings := rg } : State).coefWriteErr (ringEngine (engRing e)) b.len.toNat f.toNat with
        | some st => finish _ false ({ s with rings := rg }, st, 0)
        | none => _) = _
      rw [ringEngine_engRing, show ({ s with rings := rg } : State).coefWriteErr e b.len.toNat f.toNat = none from he]
    exact ⟨_, _, rfl, rfl, ho, hbuf, hro⟩
  · obtain ⟨ho, hbuf, hro⟩ := State.Ready.readsBuffer (r := 0) hr (by simp) rfl hq fun rg => rfl
    exact ⟨_, rfl, ho, hbuf, hro⟩
  · refine ⟨_, State.imgStage_arrives hq hb hd hl hreach htime hdev hun, fun i hi => ?_, fun a ha => ?_, ?_, ?_⟩
    · rw [(RingsOnly.complete ..).staging]
      exact memRead_memWriteList_in hwf hi hlen
    · rw [(RingsOnly.complete ..).staging]
      exact memRead_memWriteList_out ha
    · have hlast := State.complete_getLast (s := s) (u := s.staged ofs.toNat data) (d := d) (by rw [hd]; decide)
        (by rw [hd, State.staged_ring _ _ _ (by decide)]; exact hh) (by rw [hd]; exact hen)
        (by rw [hd, State.staged_ring _ _ _ (by decide)]) (fun _ _ => rfl) .ok s.fr.k 0
      rw [hlast, hd, hb]
      rfl
    · have hro := RingsOnly.complete (s.staged ofs.toNat data) d .ok s.fr.k 0
      rw [hro.staging]
      exact hro

end Sys2Proof.Machine
end
section
/-! SUPPORT. LAW_LOAD and MODE_LOAD: the image is judged where it is staged. -/

namespace Sys2Proof.Machine

/-- The graph that an accepted law image describes (Table 7-5). -/
def State.lawGraph (s : State) (e : Nat) (img : List Byte) : Graph :=
  ⟨(lawImg img).blocks, (lawImg img).chans, (lawImg img).coefs, (lawImg img).wp, (lawImg img).ws, (lawImg img).fin,
    BitVec.ofNat 32 (leAt img 60 4), (lawImg img).blocks.map fun b => (lawImg img).intWord (s.privOf e).2 b 0⟩

/-- The engine with an accepted law on its way; the station engine starts its count again (R224). -/
def State.lawAccepted (s : State) (e : Nat) (g : Graph) : State :=
  let s := s.updEng e fun x => { x with loading := some g, modeLoading := none }
  if e = 8 then { s with fr := { s.fr with stationCount := 0, stationDue := none } } else s

theorem State.lawAccepted_eq (s : State) (e : Nat) (g : Graph) :
    s.lawAccepted e g = { s with
      engs := s.engs.upd e fun x => { x with loading := some g, modeLoading := none }
      fr := if e = 8 then { s.fr with stationCount := 0, stationDue := none } else s.fr } := by
  unfold State.lawAccepted
  dsimp only
  split <;> rfl

theorem lawStatus_ne {code : Nat} : lawStatus code ≠ .ok ∧ lawStatus code ≠ .late := by
  unfold lawStatus
  split
  · decide
  · split <;> decide

section
variable {s : State} {e len : Nat}

theorem State.doLawLoad_refused (h : s.lawErr e (memReadList 0 len s.staging) ≠ 0) :
    s.doLawLoad e len = (s.updEng e fun x => { x with loaderr := BitVec.ofNat 8 (s.lawErr e (memReadList 0 len s.staging)) },
      lawStatus (s.lawErr e (memReadList 0 len s.staging)), s.lawErr e (memReadList 0 len s.staging)) :=
  if_pos h

theorem State.doLawLoad_accepted (h : s.lawErr e (memReadList 0 len s.staging) = 0) :
    s.doLawLoad e len = (s.lawAccepted e (s.lawGraph e (memReadList 0 len s.staging)), .ok, 0) :=
  if_neg (not_not.mpr h)

theorem State.doModeLoad_refused (h : s.modeErr e (memReadList 0 len s.staging) ≠ 0) :
    s.doModeLoad e len = (s.updEng e fun x => { x with mloaderr := BitVec.ofNat 8 (s.modeErr e (memReadList 0 len s.staging)) },
      if s.modeErr e (memReadList 0 len s.staging) = 0x0A then .state else .refused, s.modeErr e (memReadList 0 len s.staging)) :=
  if_pos h

theorem State.doModeLoad_accepted (h : s.modeErr e (memReadList 0 len s.staging) = 0) :
    s.doModeLoad e len = (s.updEng e fun x => { x with modeLoading := some ((modeImgs (memReadList 0 len s.staging)).map modeOf) }, .ok, 0) :=
  if_neg (not_not.mpr h)

end

/-- Settles O15: the first failed check, or the image kept for the next sample start. -/
theorem loadsAreJudgedAndKept : Obligations.LoadsAreJudgedAndKept := by
  unfold Obligations.LoadsAreJudgedAndKept
  refine ⟨fun h e len s hr => ⟨_, rfl, fun he => ?_, fun he => ?_⟩, fun h e len s hr => ⟨_, rfl, fun he => ?_, fun he => ?_⟩⟩
  · have hc := hr.completesTo
      (s.updEng e.toNat fun x => { x with loaderr := BitVec.ofNat 8 (s.lawErr e.toNat (memReadList 0 len.toNat s.staging)) })
      (st := lawStatus (s.lawErr e.toNat (memReadList 0 len.toNat s.staging))) (res := s.lawErr e.toNat (memReadList 0 len.toNat s.staging))
      (by decide) (by simp)
      (fun rg => by
        show finish _ false (({ s with rings := rg } : State).doLawLoad e.toNat len.toNat) = _
        rw [State.doLawLoad_refused (s := { s with rings := rg }) he]
        rfl) (fun _ _ => rfl) rfl lawStatus_ne.2
    rwa [if_neg lawStatus_ne.1] at hc
  · obtain ⟨hans, ht⟩ := hr.completesTo (s.lawAccepted e.toNat (s.lawGraph e.toNat (memReadList 0 len.toNat s.staging)))
      (st := .ok) (res := 0) (by decide) (by simp)
      (fun rg => by
        show finish _ false (({ s with rings := rg } : State).doLawLoad e.toNat len.toNat) = _
        rw [State.doLawLoad_accepted (s := { s with rings := rg }) he, State.lawAccepted_eq, State.lawAccepted_eq]
        rfl) (fun _ _ => by rw [State.lawAccepted_eq]; rfl) (by rw [State.lawAccepted_eq]; dsimp only; split <;> rfl) (by decide)
    rw [State.lawAccepted_eq] at ht
    have hfr : (if e.toNat = 8 then { s.fr with stationCount := 0, stationDue := none } else s.fr)
        = if e = 8 then { s.fr with stationCount := 0, stationDue := none } else s.fr := by
      have : e.toNat = 8 ↔ e = 8 := ⟨fun h => BitVec.eq_of_toNat_eq h, fun h => h ▸ rfl⟩
      simp only [this]
    rw [hfr] at ht
    have heng : (s.submit 0 h (.lawLoad e len)).engs = _ := congrArg State.engs ht
    refine ⟨hans, ⟨s.lawGraph e.toNat (memReadList 0 len.toNat s.staging), ?_, rfl, rfl, rfl⟩, fun f hf => ?_, ?_, ?_⟩
    · rw [State.eng, heng]
      exact Tab.get_upd_same ..
    · rw [State.eng, heng]
      exact Tab.get_upd_ne _ hf _
    · rw [ht]
    · rw [ht]
  · have hst : (if s.modeErr e.toNat (memReadList 0 len.toNat s.staging) = 0x0A then Status.state else .refused) ≠ .ok
        ∧ (if s.modeErr e.toNat (memReadList 0 len.toNat s.staging) = 0x0A then Status.state else .refused) ≠ .late := by
      split <;> decide
    have hc := hr.completesTo
      (s.updEng e.toNat fun x => { x with mloaderr := BitVec.ofNat 8 (s.modeErr e.toNat (memReadList 0 len.toNat s.staging)) })
      (st := if s.modeErr e.toNat (memReadList 0 len.toNat s.staging) = 0x0A then .state else .refused)
      (res := s.modeErr e.toNat (memReadList 0 len.toNat s.staging)) (by decide) (by simp)
      (fun rg => by
        show finish _ false (({ s with rings := rg } : State).doModeLoad e.toNat len.toNat) = _
        rw [State.doModeLoad_refused (s := { s with rings := rg }) he]
        rfl) (fun _ _ => rfl) rfl hst.2
    rwa [if_neg hst.1] at hc
  · exact hr.completesTo
      (s.updEng e.toNat fun x => { x with modeLoading := some ((modeImgs (memReadList 0 len.toNat s.staging)).map modeOf) })
      (st := .ok) (res := 0) (by decide) (by simp)
      (fun rg => by
        show finish _ false (({ s with rings := rg } : State).doModeLoad e.toNat len.toNat) = _
        rw [State.doModeLoad_accepted (s := { s with rings := rg }) he]
        rfl) (fun _ _ => rfl) rfl (by decide)

end Sys2Proof.Machine
end
section
/-! SUPPORT. MODE_CHANGE: it waits for its turn, is kept as the one request, or is busy. -/

namespace Sys2Proof.Machine

/-- While an untimed descriptor of the ring is in execution none starts (R359). -/
theorem State.drain_of_busy {u : State} {r : Nat} (hb : u.ringBusy r = true) : u.drain r = u := by
  unfold State.drain
  cases (u.ring r).untimed.length with
  | zero => rfl
  | succ n =>
    unfold State.drainRing
    split
    · rfl
    · rw [hb]
      rfl

/-- The one untimed descriptor of an idle ring starts. -/
theorem State.drain_single {u : State} {r : Nat} {d : Desc} (hu : (u.ring r).untimed = [d]) (hb : u.ringBusy r = false)
    (hm : u.mayStart d.body = true) : u.drain r = (u.updRing r fun x => { x with untimed := [] }).perform d false := by
  unfold State.drain
  rw [hu]
  unfold State.drainRing
  rw [hu]
  dsimp only
  rw [hb, hm]
  rfl

theorem State.updRing_rest {s u : State} (h : u = { s with rings := u.rings }) (r : Nat) (f : Ring → Ring) :
    u.updRing r f = { s with rings := (u.updRing r f).rings } := by
  generalize u.rings = rg at h
  subst h
  rfl

section
variable {s : State} {h : Hdr} {p : ModeParams}

/-- A MODE_CHANGE whose turn has come. -/
theorem State.perform_modeChange {u : State} (hu : u = { s with rings := u.rings }) (hc : s.descCheck 0 h (.modeChange p) = none) :
    u.perform (s.descOf 0 h (.modeChange p)) false
      = finishOrWait (s.descOf 0 h (.modeChange p)) false .modeChange (({ s with rings := u.rings } : State).doModeChange h p) := by
  rw [← hu]
  exact State.perform_of_checked (r := 0) (by rw [hu]; exact hc)

/-- Where a MODE_CHANGE that its ring takes goes: an untimed one behind the others of its ring, one with ACT to its turn (R297, R359). -/
theorem State.submit_modeChange (ht : s.canTake 0 = true) (hc : s.descCheck 0 h (.modeChange p) = none) :
    (h.act = none → s.ringBusy 0 = true → s.submit 0 h (.modeChange p)
        = (s.entered 0).updRing 0 fun x => { x with untimed := x.untimed ++ [s.descOf 0 h (.modeChange p)] })
      ∧ ((h.act = none ∧ (s.ring 0).untimed = [] ∧ s.ringBusy 0 = false) ∨ (h.act ≠ none ∧ s.pendCount 0 < 256) →
        ∃ rg, s.submit 0 h (.modeChange p) = finishOrWait (s.descOf 0 h (.modeChange p)) false .modeChange
            (({ s with rings := rg } : State).doModeChange h p)
          ∧ rg.get 10 = { s.ring 10 with reserved := (s.ring 10).reserved + 1 }) := by
  rw [State.submit_of_canTake ht]
  generalize hd : s.descOf 0 h (.modeChange p) = d
  obtain ⟨hbody, hhdr, hring⟩ : d.body = .modeChange p ∧ d.hdr = h ∧ d.ring = 0 := by subst hd; exact ⟨rfl, rfl, rfl⟩
  have hchk : (s.entered 0).descCheck d.ring d.hdr d.body = none := by rw [hbody, hhdr, hring]; exact hc
  have hcomp : ∀ f g : Ring → Ring, ((((s.entered 0).updRing 0 f).updRing 0 g).ring 10) = { s.ring 10 with reserved := (s.ring 10).reserved + 1 } :=
    fun f g => by simp [State.entered, State.ring, State.updRing, Tab.get_upd]
  have hintake : h.act = none → (s.entered 0).intake d = ((s.entered 0).updRing 0 fun x => { x with untimed := x.untimed ++ [d] }).drain 0 :=
    fun ha => by
      unfold State.intake
      rw [hchk, hhdr, hring, ha]
      rfl
  have hbusy : ((s.entered 0).updRing 0 fun x => { x with untimed := x.untimed ++ [d] }).ringBusy 0 = s.ringBusy 0 := by
    simp [State.ringBusy, State.entered, State.ring, State.updRing, Tab.get_upd]
  refine ⟨fun ha hb => ?_, ?_⟩
  · rw [hintake ha, State.drain_of_busy (by rw [hbusy]; exact hb)]
  · rintro (⟨ha, hun, hb⟩ | ⟨ha, hn⟩)
    · have hone : (((s.entered 0).updRing 0 fun x => { x with untimed := x.untimed ++ [d] }).ring 0).untimed = [d] := by
        simp [State.entered, State.ring, State.updRing, Tab.get_upd, show (s.rings.get 0).untimed = [] from hun]
      rw [hintake ha, State.drain_single hone (by rw [hbusy]; exact hb) (by rw [hbody]; rfl)]
      have hx := hcomp (fun x => { x with untimed := x.untimed ++ [d] }) fun x => { x with untimed := [] }
      have hrest := State.updRing_rest (State.updRing_rest (State.entered_eq (s := s) (r := 0)) 0 fun x => { x with untimed := x.untimed ++ [d] }) 0
        fun x => { x with untimed := [] }
      generalize ((s.entered 0).updRing 0 fun x => { x with untimed := x.untimed ++ [d] }).updRing 0 (fun x => { x with untimed := [] }) = u
        at hx hrest ⊢
      exact ⟨u.rings, hd ▸ State.perform_modeChange hrest hc, hx⟩
    · refine ⟨(s.entered 0).rings, ?_, State.entered_ring_comp⟩
      have hin : (s.entered 0).intake d = (s.entered 0).perform d false := by
        obtain ⟨ka, hk⟩ := Option.ne_none_iff_exists'.mp ha
        unfold State.intake
        rw [hchk, hhdr, hk, hring, hbody, State.entered_pendCount]
        simp only [Option.isNone_some, Bool.false_eq_true, if_false, if_neg (Nat.not_le.mpr hn)]
      rw [hin]
      exact hd ▸ State.perform_modeChange State.entered_eq hc

theorem State.doModeChange_busy (hq : s.modeReq ≠ none) : s.doModeChange h p = (s, some .busy) :=
  if_pos (Option.isSome_iff_ne_none.mpr hq)

/-- The request of a MODE_CHANGE as it is accepted (R297). -/
def modeRequest (h : Hdr) (p : ModeParams) : ModeReq :=
  { p := p, act := h.act, ka := 0, ke := 0, late := false, armed := false, decided := false, excl := 0, notArm := 0, reasons := [],
    todo := 0, redo := false }

theorem State.doModeChange_kept (hq : s.modeReq = none) : s.doModeChange h p = ({ s with modeReq := some (modeRequest h p) }, none) := by
  unfold State.doModeChange
  rw [hq]
  rfl

end

/-- Settles O16: the ways of `submit_modeChange`, and the one request of the device. -/
theorem modeChangeIsKeptOrBusy : Obligations.ModeChangeIsKeptOrBusy := by
  unfold Obligations.ModeChangeIsKeptOrBusy
  intro h p s ht hh hc
  obtain ⟨hwait, hgo⟩ := State.submit_modeChange ht hc
  refine ⟨_, rfl, fun ha hb => ?_, fun hq hway => ?_, fun hq hway => ?_⟩
  · rw [hwait ha hb]
    refine ⟨?_, rfl⟩
    show (Tab.get ((s.entered 0).rings.upd 0 _) 0).untimed = _
    rw [Tab.get_upd_same, show (s.entered 0).rings.get 0 = _ from State.entered_ring_self]
  · obtain ⟨rg, hs, -⟩ := hgo hway
    rw [hs, State.doModeChange_kept (s := { s with rings := rg }) hq]
    exact ⟨⟨_, rfl, rfl, rfl, rfl, rfl⟩, rfl⟩
  · obtain ⟨rg, hs, hcomp⟩ := hgo hway
    rw [hs, State.doModeChange_busy (s := { s with rings := rg }) hq]
    have hring : ({ s with rings := rg } : State).ring 10 = { s.ring 10 with reserved := (s.ring 10).reserved + 1 } := hcomp
    refine ⟨State.complete_answered (s := s) (u := { s with rings := rg }) (r := 0) (by decide) (State.ringEn_of_canTake ht) ?_ ?_
      (fun _ _ => rfl), RingsOnly.complete { s with rings := rg } ..⟩
    · rw [hring]
      exact hh
    · rw [hring]

end Sys2Proof.Machine
end
section
/-! SUPPORT. TRIP_CLEAR and TIME_STEP. -/

namespace Sys2Proof.Machine

/-- A ready descriptor whose effect f leaves the rings and the host interface's registers, whatever else it changes. -/
theorem State.Ready.completesBy {s : State} (f : State → State) {r : Nat} {h : Hdr} {b : Body} {st : Status} {res : Nat}
    (hr : s.Ready r h b) (hr10 : r < 10) (hb : ∀ p, b ≠ .modeChange p)
    (hc : ∀ rg, ({ s with rings := rg } : State).carryOut (s.descOf r h b) false
      = finish (s.descOf r h b) false (f { s with rings := rg }, st, res))
    (hring : ∀ rg, (f { s with rings := rg }).rings = rg) (hreg : ∀ rg a, a < 0x200000 → (f { s with rings := rg }).reg a = s.reg a)
    (hk : ∀ rg, (f { s with rings := rg }).fr.k = s.fr.k) (hst : st ≠ .late) :
    s.answered (s.submit r h b) r h b st (if st = .ok then s.fr.k else 0) res
      ∧ ∃ rg, RingsOnly (f { s with rings := rg }) (s.submit r h b) ∧ (f { s with rings := rg }).out <+: (s.submit r h b).out := by
  rw [State.submit_carried hr hb, State.taken_eq, hc]
  generalize hrg : (s.taken r h b).rings = rg
  refine ⟨?_, rg, RingsOnly.finish (RingsOnly.refl _), finish_out _ _ (f { s with rings := rg }, st, res)⟩
  have := finish_answered (s := s) (u := f { s with rings := rg }) (st := st) (st' := st) (res := res) (late := false) hr hr10
    (by simp only [State.ring, hring, hrg]) (hreg rg) (by simp)
  simpa [hst, hk] using this

/-! ### Trip latches (R135) -/

/-- The named latches that are set. -/
def State.namedTrips (s : State) (mask : Nat) : List Nat := (List.range 16).filter fun m => bitOf mask m && (s.trips.get m).latch

theorem State.mem_namedTrips {s : State} {mask m : Nat} :
    m ∈ s.namedTrips mask ↔ m < 16 ∧ bitOf mask m = true ∧ (s.trips.get m).latch = true := by
  simp [State.namedTrips]

/-- The latches of a list cleared at one tick. -/
def State.clearTrips (s : State) (l : List Nat) : State :=
  l.foldl (fun s m => { s with trips := s.trips.upd m fun t => { t with latch := false } }) s

theorem State.clearTrips_trips (s : State) (l : List Nat) (m : Nat) :
    (s.clearTrips l).trips.get m = if m ∈ l then { s.trips.get m with latch := false } else s.trips.get m := by
  induction l generalizing s with
  | nil => rfl
  | cons k l ih =>
    refine (ih { s with trips := s.trips.upd k fun t => { t with latch := false } }).trans ?_
    by_cases hk : m = k
    · subst hk
      simp
    · simp [Tab.get_upd_ne _ hk, hk]

theorem RingFree.clearTrips (l : List Nat) : RingFree fun s => s.clearTrips l := RingFree.foldl (fun _ _ _ => rfl) l

theorem State.clearTrips_eq (s : State) (l : List Nat) : s.clearTrips l = { s with trips := (s.clearTrips l).trips } := by
  induction l generalizing s with
  | nil => rfl
  | cons m l ih => exact ih _

/-- Each named latch whose input has not been inactive for its filter time is told. -/
def State.tellTrips (s : State) (l : List Nat) : State := l.foldl (fun s m => (s.flag 0x308480 (16 + m)).raise 0x3410 m []) s

theorem RaiseFrame.tellTrips (s : State) (l : List Nat) : RaiseFrame s (s.tellTrips l) :=
  .foldl (fun s _ => (RaiseFrame.flag (by decide)).trans (State.raise_frame ..)) l s

section
variable {s : State} {mask : Nat}

theorem State.doTripClear_ok (h : ∀ m < 16, bitOf mask m = true → (s.trips.get m).latch = true → s.tripIdle m = true) :
    s.doTripClear mask = (s.clearTrips (s.namedTrips mask), .ok, 0) := by
  refine if_pos (List.isEmpty_iff.mpr (List.filter_eq_nil_iff.mpr fun m hm => ?_))
  obtain ⟨hlt, hb, hl⟩ := State.mem_namedTrips.mp hm
  simp [h m hlt hb hl]

theorem State.doTripClear_refused (h : ∃ m < 16, bitOf mask m = true ∧ (s.trips.get m).latch = true ∧ s.tripIdle m = false) :
    s.doTripClear mask = (s.tellTrips ((s.namedTrips mask).filter fun m => !s.tripIdle m), .refused, 0) := by
  obtain ⟨m, hlt, hb, hl, hi⟩ := h
  refine if_neg fun he => ?_
  exact absurd (List.filter_eq_nil_iff.mp (List.isEmpty_iff.mp he) m (State.mem_namedTrips.mpr ⟨hlt, hb, hl⟩)) (by simp [hi])

end

/-! ### A step of device time (R321) -/

/-- A frame goes on over a change of device time and of the trigger units. -/
theorem RaiseFrame.setTrigs {s t : State} (h : RaiseFrame s t) (x : Tab Trig) : RaiseFrame { s with trigs := x } { t with trigs := x } :=
  ⟨congrArg (fun y : State => { y with trigs := x }) h.core, h.reg, h.cell, h.oct, h.eng, h.out, h.retired, h.state, h.lane⟩

/-- The trigger units look for their next firing; one stepped over is told (R329). -/
theorem State.trgStep_frame (s : State) : RaiseFrame { s with trigs := s.trgStep.trigs } s.trgStep := by
  unfold State.trgStep
  refine forNat_induct (P := fun u => RaiseFrame { s with trigs := u.trigs } u) (fun n u hu => ?_) 8 (.refl s)
  split
  · dsimp only
    generalize hx : (u.updTrig n fun x => { x with next := some (.time (firstInstance (u.trgT0 n) (u.trgPer n) u.time.dt)) }) = v
    have hv : v = { u with trigs := v.trigs } := by
      rw [← hx]
      rfl
    have hf : RaiseFrame { s with trigs := v.trigs } v := by
      have := hu.setTrigs v.trigs
      rwa [← hv] at this
    split
    · have hr := State.raise_frame v 0x3305 n []
      rw [hr.trigs_eq]
      exact hf.trans hr
    · exact hf
  · exact hu

theorem RaiseFrame.setTime {s t : State} (h : RaiseFrame s t) (x : TimeSt) : RaiseFrame { s with time := x } { t with time := x } :=
  ⟨congrArg (fun y : State => { y with time := x }) h.core, h.reg, h.cell, h.oct, h.eng, h.out, h.retired, h.state, h.lane⟩

/-- Device time steps: beside it and the trigger units only what a fault may change. -/
theorem State.stepTime_frame (s : State) (v : Int) :
    RaiseFrame { s with time := { s.time with dt := ((s.time.dt : Int) + v * 2 ^ 40).toNat }, trigs := (s.stepTime v).trigs } (s.stepTime v) := by
  have hb := State.trgStep_frame { s with time := { s.time with dt := ((s.time.dt : Int) + v * 2 ^ 40).toNat } }
  unfold State.stepTime
  dsimp only at hb ⊢
  generalize ({ s with time := { s.time with dt := ((s.time.dt : Int) + v * 2 ^ 40).toNat } } : State).trgStep = b at hb ⊢
  exact hb.trans (.setModeReq b _)

theorem State.stepTime_time (s : State) (v : Int) : (s.stepTime v).time = { s.time with dt := ((s.time.dt : Int) + v * 2 ^ 40).toNat } :=
  (State.stepTime_frame s v).time_eq

theorem State.toServo_eq {s : State} {v : Servo} (h : s.time.servo ≠ .holdover) :
    s.toServo v = { s with time := { s.time with servo := v, everLocked := s.time.everLocked || v == .locked } } := by
  unfold State.toServo
  rw [if_neg h]

theorem State.doTimeStep_steps {s : State} (ha : s.allStill = true) (hs : s.time.servo = .split) :
    s.doTimeStep = (s.doTimeStep.1, .ok, 0) ∧ s.doTimeStep.1.time.servo = .locked
      ∧ s.doTimeStep.1.time.dt = ((s.time.dt : Int) - s.time.theta * 2 ^ 40).toNat
      ∧ RaiseFrame { s with time := s.doTimeStep.1.time, trigs := s.doTimeStep.1.trigs } s.doTimeStep.1 := by
  have hf := State.stepTime_frame s (-s.time.theta)
  have ht := State.stepTime_time s (-s.time.theta)
  unfold State.doTimeStep
  rw [ha, hs]
  dsimp only [Bool.true_and, beq_self_eq_true, if_true]
  generalize s.stepTime (-s.time.theta) = u at hf ht ⊢
  have hne : u.time.servo ≠ .holdover := by
    rw [ht]
    intro h
    exact absurd (hs.symm.trans h) (by decide)
  rw [State.toServo_eq hne]
  have hr := State.raise_frame ({ u with time := { u.time with
    servo := .locked, everLocked := u.time.everLocked || Servo.locked == .locked, rate := appliedRate (Ex.ofInt u.time.freq),
        prev := none } }) 0x3304 0 []
  refine ⟨rfl, ?_, ?_, ?_⟩
  · exact congrArg TimeSt.servo hr.time_eq
  · refine (congrArg TimeSt.dt hr.time_eq).trans ((congrArg TimeSt.dt ht).trans ?_)
    rw [Int.neg_mul]
    rfl
  · have hx := (hf.setTime { u.time with
      servo := .locked, everLocked := u.time.everLocked || Servo.locked == .locked, rate := appliedRate (Ex.ofInt u.time.freq),
          prev := none }).trans hr
    have h1 := hr.time_eq
    have h2 := hr.trigs_eq
    generalize State.raise _ 0x3304 0 [] = v at hr hx h1 h2 ⊢
    show RaiseFrame { s with time := v.time, trigs := v.trigs } v
    rw [h1, h2]
    exact hx

theorem State.doTimeStep_refused {s : State} (h : s.allStill = false ∨ s.time.servo ≠ .split) : s.doTimeStep = (s, .state, 0) :=
  if_neg (by rcases h with h | h <;> simp [h])

/-- Settles O17: all named latches clear or none does, and device time steps or stays. -/
theorem tripClearAndTimeStepAreGuarded : Obligations.TripClearAndTimeStepAreGuarded := by
  unfold Obligations.TripClearAndTimeStepAreGuarded
  refine ⟨fun h mask s hr => ⟨_, rfl, fun ha => ?_, fun hb => ?_⟩, fun h s hr => ⟨_, rfl, fun ha hs => ?_, fun hn => ?_⟩⟩
  · obtain ⟨hans, ht⟩ := hr.completesTo (s.clearTrips (s.namedTrips mask.toNat)) (st := .ok) (res := 0) (by decide) (by simp)
      (fun rg => by
        show finish _ false (({ s with rings := rg } : State).doTripClear mask.toNat) = _
        rw [State.doTripClear_ok (s := { s with rings := rg }) ha]
        exact congrArg (fun u => finish _ false (u, .ok, 0)) (RingFree.clearTrips _ s rg))
      (fun _ _ => by rw [State.clearTrips_eq]; rfl) (by rw [State.clearTrips_eq]) (by decide)
    refine ⟨hans, fun m => ?_, ?_⟩
    · rw [show (s.submit 0 h (.tripClear mask)).trips = _ from congrArg State.trips ht, State.clearTrips_trips]
      by_cases hm : m < 16 ∧ bitOf mask.toNat m = true
      · rw [if_pos hm]
        by_cases hl : (s.trips.get m).latch = true
        · rw [if_pos (State.mem_namedTrips.mpr ⟨hm.1, hm.2, hl⟩)]
        · rw [if_neg fun h => hl (State.mem_namedTrips.mp h).2.2]
          simp only [Bool.not_eq_true] at hl
          rw [← hl]
      · rw [if_neg hm, if_neg fun h => hm ⟨(State.mem_namedTrips.mp h).1, (State.mem_namedTrips.mp h).2.1⟩]
    · rw [State.clearTrips_eq] at ht
      rw [ht]
  · obtain ⟨hans, hf, -⟩ := hr.completesRaise s (fun u => u.tellTrips ((s.namedTrips mask.toNat).filter fun m => !s.tripIdle m))
      (st := .refused) (res := 0) (by decide) (by simp)
      (fun rg => by
        show finish _ false (({ s with rings := rg } : State).doTripClear mask.toNat) = _
        rw [State.doTripClear_refused (s := { s with rings := rg }) hb]
        rfl) (fun _ => RaiseFrame.tellTrips ..) (fun _ _ => rfl) rfl (by decide)
    exact ⟨hans, hf.trips_eq, hf⟩
  · obtain ⟨hans, rg, hro, hpre⟩ := hr.completesBy (fun u => u.doTimeStep.1) (st := .ok) (res := 0) (by decide) (by simp)
      (fun rg => by
        show finish _ false (({ s with rings := rg } : State).doTimeStep) = _
        rw [(State.doTimeStep_steps (s := { s with rings := rg }) ha hs).1])
      (fun rg => (State.doTimeStep_steps (s := { s with rings := rg }) ha hs).2.2.2.rings_eq)
      (fun rg => (State.doTimeStep_steps (s := { s with rings := rg }) ha hs).2.2.2.reg)
      (fun rg => by rw [(State.doTimeStep_steps (s := { s with rings := rg }) ha hs).2.2.2.fr_eq]) (by decide)
    obtain ⟨-, hservo, hdt, hf⟩ := State.doTimeStep_steps (s := { s with rings := rg }) ha hs
    generalize ({ s with rings := rg } : State).doTimeStep.1 = u at hro hpre hservo hdt hf
    have hft := hf.ringsOnly hro hpre
    refine ⟨hans, by rw [hro.time]; exact hservo, by rw [hro.time]; exact hdt, hft.tick_eq, ?_⟩
    have htr : (s.submit 0 h .timeStep).trigs = u.trigs := by rw [hro]
    rw [hro.time, htr]
    exact hft
  · exact hr.completesTo s (st := .state) (res := 0) (by decide) (by simp)
      (fun rg => by
        show finish _ false (({ s with rings := rg } : State).doTimeStep) = _
        rw [State.doTimeStep_refused (s := { s with rings := rg }) hn]) (fun _ _ => rfl) rfl (by decide)

end Sys2Proof.Machine
end
section
/-! SUPPORT. ENUMERATE. -/

namespace Sys2Proof.Machine

section
variable {s : State} {tile lane : Nat}

/-- The device's query of a hub (R205). -/
def State.askHub (s : State) (l : Nat) : State := (s.updLane l fun x => { x with aux := 0 }).sendAux l

theorem State.askHub_lane (s : State) (l m : Nat) :
    (s.askHub l).lane m = if m = l then { s.lane l with aux := 1, auxAt := some s.now } else s.lane m := by
  simp only [State.askHub, State.sendAux, State.lane, State.emit, State.updLane, Tab.get_upd]
  split <;> rfl

theorem State.askHub_eq (s : State) (l : Nat) : s.askHub l = { s with lanes := (s.askHub l).lanes, out := (s.askHub l).out } := rfl

theorem State.doEnumerate_asks (hs : (s.lane (2 * tile + lane)).state = .active ∨ (s.lane (2 * tile + lane)).state = .warm)
    (ha : (s.lane (2 * tile + lane)).auxAt = none) : s.doEnumerate tile lane = (s.askHub (2 * tile + lane), none) := by
  unfold State.doEnumerate
  dsimp only
  rw [if_neg (by rcases hs with h | h <;> simp [h]), ha]
  rfl

theorem State.doEnumerate_refused (ha : (s.lane (2 * tile + lane)).state ≠ .active) (hw : (s.lane (2 * tile + lane)).state ≠ .warm) :
    s.doEnumerate tile lane = (s, some .state) :=
  if_pos ⟨ha, hw⟩

end

/-- Settles O18: the query leaves on that lane and the descriptor waits, or the lane's state refuses it. -/
theorem enumerateAsksTheHub : Obligations.EnumerateAsksTheHub := by
  unfold Obligations.EnumerateAsksTheHub
  intro h tile lane s hr
  refine ⟨_, rfl, fun hs ha => ?_, fun ha hw => ?_⟩
  · rw [hr.waits (v := { s.askHub (2 * tile.toNat + lane.toNat) with hif := { s.hif with waiting := s.hif.waiting
      ++ [⟨s.descOf 0 h (.enumerate tile lane), .enumerate (2 * tile.toNat + lane.toNat), false⟩] } }) (by simp) fun rg => by
        show finishOrWait _ false _ (({ s with rings := rg } : State).doEnumerate tile.toNat lane.toNat) = _
        rw [State.doEnumerate_asks (s := { s with rings := rg }) hs ha]
        rfl]
    have hl := fun m => State.askHub_lane s (2 * tile.toNat + lane.toNat) m
    refine ⟨?_, ?_, ⟨_, rfl⟩, rfl, fun l hne => ?_, rfl⟩
    · exact congrArg Lane.auxAt ((hl _).trans (if_pos rfl))
    · exact congrArg Lane.aux ((hl _).trans (if_pos rfl))
    · exact (hl l).trans (if_neg hne)
  · exact hr.completesTo s (st := .state) (res := 0) (by decide) (by simp)
      (fun rg => by
        show finishOrWait _ false _ (({ s with rings := rg } : State).doEnumerate tile.toNat lane.toNat) = _
        rw [State.doEnumerate_refused (s := { s with rings := rg }) ha hw]
        rfl) (fun _ _ => rfl) rfl (by decide)

end Sys2Proof.Machine
end
section
/-! SUPPORT. C0_WRITE, C0_CLEAR and C0_ADOPT. -/

namespace Sys2Proof.Machine

/-- A saved partition has a write under way or waiting (R98). -/
theorem State.saveTable_write (s : State) (p : Part) : ∃ w ∈ (s.saveTable p).bel.writes, w.part = p := by
  unfold State.saveTable State.writePart
  dsimp only
  split
  · rename_i h
    obtain ⟨w, hw, hp⟩ := List.any_eq_true.mp h
    have hp : w.part = p := by simpa using hp
    exact ⟨_, List.mem_map.mpr ⟨w, hw, if_pos hp⟩, hp⟩
  · exact ⟨_, List.mem_append_right _ (List.mem_singleton.mpr rfl), rfl⟩

/-- Saving a partition changes the memory's bookkeeping alone, and depends on nothing else. -/
theorem State.saveTable_acts (p : Part) : ∃ f : Belfry → Belfry, ∀ s : State, s.saveTable p = { s with bel := f s.bel } := by
  refine ⟨fun b => (({ State.reset with bel := b } : State).saveTable p).bel, fun s => ?_⟩
  unfold State.saveTable State.writePart
  dsimp only
  split <;> rfl

section
variable {s : State} {c : Nat}

/-- The cell with its reference capacitance, and the write of the partition due. -/
def State.withC0 (s : State) (c : Nat) (f : Cell → Cell) : State :=
  { s with cells := s.cells.upd c f, bel := (s.saveTable .c0).bel }

theorem State.saveTable_updCell (s : State) (c : Nat) (f : Cell → Cell) : (s.updCell c f).saveTable .c0 = s.withC0 c f := by
  obtain ⟨g, hg⟩ := State.saveTable_acts .c0
  unfold State.withC0
  rw [hg, hg]
  rfl

theorem State.withC0_cell_same (s : State) (c : Nat) (f : Cell → Cell) : (s.withC0 c f).cell c = f (s.cell c) := Tab.get_upd_same ..

theorem State.withC0_cell_ne (s : State) {c d : Nat} (h : d ≠ c) (f : Cell → Cell) : (s.withC0 c f).cell d = s.cell d := Tab.get_upd_ne _ h _

/-- What a frame from such a state says of every cell. -/
theorem RaiseFrame.withC0_cell {t : State} {f : Cell → Cell} {rg : Tab Ring} (h : RaiseFrame { s.withC0 c f with rings := rg } t) :
    ((t.cell c).c0 = (f (s.cell c)).c0 ∧ (t.cell c).smooth = (f (s.cell c)).smooth)
      ∧ ∀ d, d ≠ c → (t.cell d).c0 = (s.cell d).c0 ∧ (t.cell d).smooth = (s.cell d).smooth := by
  have hsame := s.withC0_cell_same c f
  refine ⟨⟨(h.c0_eq c).trans (congrArg Cell.c0 hsame), (h.smooth_eq c).trans (congrArg Cell.smooth hsame)⟩, fun d hd => ?_⟩
  have hne := s.withC0_cell_ne hd f
  exact ⟨(h.c0_eq d).trans (congrArg Cell.c0 hne), (h.smooth_eq d).trans (congrArg Cell.smooth hne)⟩

theorem State.withC0_rings (rg : Tab Ring) (f : Cell → Cell) : ({ s with rings := rg } : State).withC0 c f = { s.withC0 c f with rings := rg } := by
  obtain ⟨g, hg⟩ := State.saveTable_acts .c0
  unfold State.withC0
  rw [hg, hg]

theorem RaiseFrame.withC0_raise (rg : Tab Ring) (f : Cell → Cell) (code src : Nat) (data : List Byte) :
    RaiseFrame { s.withC0 c f with rings := rg } ((({ s with rings := rg } : State).withC0 c f).raise code src data) := by
  have hu := State.withC0_rings (s := s) (c := c) rg f
  generalize ({ s with rings := rg } : State).withC0 c f = u at hu ⊢
  rw [← hu]
  exact u.raise_frame code src data

theorem State.doC0Write_ok {v : Word} (h : (s.cell c).c0 = 0xFFFFFFFF) :
    s.doC0Write c v = ((s.withC0 c fun x => { x with c0 := v }).raise 0x1505 c (c0Data (s.cell c).c0 v), .ok, 0) := by
  unfold State.doC0Write
  rw [if_neg (not_not.mpr h), State.saveTable_updCell]

theorem State.doC0Write_refused {v : Word} (h : (s.cell c).c0 ≠ 0xFFFFFFFF) : s.doC0Write c v = (s, .state, 0) := if_pos h

/-- What C0_CLEAR makes of a cell (R100). -/
def Cell.c0Clear (x : Cell) : Cell := { x with c0 := 0xFFFFFFFF, smooth := none, validWins := 0, c0Cleared := true }

theorem State.doC0Clear_ok (hr : (s.cell c).retired = true) (hs : (s.oct (c / 512)).state.still = true) :
    s.doC0Clear c = ((s.withC0 c Cell.c0Clear).raise 0x1506 c (c0Data (s.cell c).c0 0xFFFFFFFF), .ok, 0) := by
  unfold State.doC0Clear
  rw [if_neg (by simp [hr, hs])]
  exact congrArg (fun u => (u.raise 0x1506 c (c0Data (s.cell c).c0 0xFFFFFFFF), Status.ok, 0)) (State.saveTable_updCell s c Cell.c0Clear)

theorem State.doC0Clear_refused (h : (s.cell c).retired = false ∨ (s.oct (c / 512)).state.still = false) : s.doC0Clear c = (s, .state, 0) :=
  if_pos (by rcases h with h | h <;> simp [h])

end

/-! ### Adoption -/

/-- The cells of an octad that C0_ADOPT takes: C0 unset, and 64 valid windows after the initialising one (R98). -/
def State.adoptable (s : State) (n : Nat) : List Nat :=
  (s.octCells n).filter fun c => (s.cell c).c0 == 0xFFFFFFFF && (s.cell c).smooth.isSome && decide (64 ≤ (s.cell c).validWins)

theorem State.cell_updCell (s : State) (c d : Nat) (f : Cell → Cell) : (s.updCell c f).cell d = if d = c then f (s.cell c) else s.cell d :=
  Tab.get_upd ..

/-- One cell adopts its smoothed value. -/
def State.adoptCell (s : State) (c : Nat) : State :=
  (s.updCell c fun x => { x with c0 := (s.cell c).smooth.getD 0, notice := .init, retireTh := .init }).raise 0x1507 c
    (c0Data 0xFFFFFFFF ((s.cell c).smooth.getD 0))

/-- The state in which the write of the partition is due, if a cell adopts. -/
def State.adoptSaved (s : State) (n : Nat) : State := if (s.adoptable n).isEmpty then s else s.saveTable .c0

theorem State.doC0Adopt_eq (s : State) (n : Nat) :
    s.doC0Adopt n = ((s.adoptable n).foldl State.adoptCell (s.adoptSaved n), .ok, (s.adoptable n).length) := rfl

/-- What an adoption leaves beside C0: smoothed values, the memory's bookkeeping, rings, the host's registers, the frame. -/
structure AdoptFrame (s t : State) : Prop where
  smooth : ∀ c, (t.cell c).smooth = (s.cell c).smooth
  bel : t.bel = s.bel
  rings : t.rings = s.rings
  reg : ∀ a, a < 0x200000 → t.reg a = s.reg a
  fr : t.fr = s.fr

theorem AdoptFrame.trans {s t u : State} (h : AdoptFrame s t) (k : AdoptFrame t u) : AdoptFrame s u :=
  ⟨fun c => (k.smooth c).trans (h.smooth c), k.bel.trans h.bel, k.rings.trans h.rings, fun a ha => (k.reg a ha).trans (h.reg a ha),
    k.fr.trans h.fr⟩

theorem State.adoptCell_frame (s : State) (c : Nat) : AdoptFrame s (s.adoptCell c) := by
  have hr : RaiseFrame _ (s.adoptCell c) := State.raise_frame _ _ _ _
  refine ⟨fun d => (hr.smooth_eq d).trans ?_, hr.bel_eq, hr.rings_eq, hr.reg, hr.fr_eq⟩
  rw [State.cell_updCell]
  split
  · rename_i h
    rw [h]
  · rfl

theorem State.adoptCell_c0 (s : State) (c d : Nat) :
    ((s.adoptCell c).cell d).c0 = if d = c then (s.cell c).smooth.getD 0 else (s.cell d).c0 := by
  have hr : RaiseFrame _ (s.adoptCell c) := State.raise_frame _ _ _ _
  rw [hr.c0_eq d, State.cell_updCell]
  split <;> rfl

theorem State.adoptCells_spec (l : List Nat) (s : State) :
    AdoptFrame s (l.foldl State.adoptCell s)
      ∧ ∀ d, ((l.foldl State.adoptCell s).cell d).c0 = if d ∈ l then (s.cell d).smooth.getD 0 else (s.cell d).c0 := by
  induction l generalizing s with
  | nil => exact ⟨⟨fun _ => rfl, rfl, rfl, fun _ _ => rfl, rfl⟩, fun _ => rfl⟩
  | cons c l ih =>
    obtain ⟨hf, hc⟩ := ih (s.adoptCell c)
    refine ⟨(s.adoptCell_frame c).trans hf, fun d => ?_⟩
    rw [List.foldl_cons, hc d, (s.adoptCell_frame c).smooth d, State.adoptCell_c0]
    by_cases hl : d ∈ l
    · simp [hl]
    · by_cases hd : d = c
      · subst hd
        simp
      · simp [hl, hd]

/-- What C0_ADOPT does. -/
theorem State.doC0Adopt_spec (s : State) (n : Nat) :
    (s.doC0Adopt n).1.rings = s.rings ∧ (∀ a, a < 0x200000 → (s.doC0Adopt n).1.reg a = s.reg a) ∧ (s.doC0Adopt n).1.fr = s.fr
      ∧ (∀ d, ((s.doC0Adopt n).1.cell d).c0 = if d ∈ s.adoptable n then (s.cell d).smooth.getD 0 else (s.cell d).c0)
      ∧ (s.adoptable n ≠ [] → ∃ w ∈ (s.doC0Adopt n).1.bel.writes, w.part = .c0) := by
  rw [State.doC0Adopt_eq]
  obtain ⟨hf, hc⟩ := State.adoptCells_spec (s.adoptable n) (s.adoptSaved n)
  obtain ⟨g, hg⟩ := State.saveTable_acts .c0
  have hsave : s.adoptSaved n = { s with bel := (s.adoptSaved n).bel } := by
    unfold State.adoptSaved
    split
    · rfl
    · rw [hg]
  have hbel : s.adoptable n ≠ [] → (s.adoptSaved n).bel = (s.saveTable .c0).bel := fun he => by
    unfold State.adoptSaved
    rw [if_neg (by simpa using he)]
  generalize s.adoptSaved n = u at hf hc hsave hbel ⊢
  generalize hb : u.bel = b at hsave hbel
  subst hsave
  exact ⟨hf.rings, hf.reg, hf.fr, hc, fun he => by rw [hf.bel, hbel he]; exact s.saveTable_write .c0⟩

/-- Settles O19: C0 is written where its condition holds, and the partition's write is due. -/
theorem referenceCapacitanceCommands : Obligations.ReferenceCapacitanceCommands := by
  unfold Obligations.ReferenceCapacitanceCommands
  refine ⟨fun h c v s hr => ⟨_, rfl, fun hc => ?_, fun hc => ?_⟩, fun h c s hr => ⟨_, rfl, fun hc hs => ?_, fun hc => ?_⟩,
    fun h o s hr => ⟨_, rfl, ?_⟩⟩
  · obtain ⟨hans, hf, -⟩ := hr.completesRaise (s.withC0 c.toNat fun x => { x with c0 := v })
      (fun u => (u.withC0 c.toNat fun x => { x with c0 := v }).raise 0x1505 c.toNat (c0Data (s.cell c.toNat).c0 v)) (st := .ok) (res := 0)
      (by decide) (by simp)
      (fun rg => by
        show finish _ false (({ s with rings := rg } : State).doC0Write c.toNat v) = _
        rw [State.doC0Write_ok (s := { s with rings := rg }) hc]
        rfl) (fun rg => RaiseFrame.withC0_raise rg ..) (fun _ _ => rfl) rfl (by decide)
    obtain ⟨⟨h0, -⟩, hoth⟩ := hf.withC0_cell
    refine ⟨hans, h0, fun d hd => (hoth d hd).1, ?_, hf⟩
    rw [hf.bel_eq]
    exact s.saveTable_write .c0
  · exact hr.completesTo s (st := .state) (res := 0) (by decide) (by simp)
      (fun rg => by
        show finish _ false (({ s with rings := rg } : State).doC0Write c.toNat v) = _
        rw [State.doC0Write_refused (s := { s with rings := rg }) hc]) (fun _ _ => rfl) rfl (by decide)
  · obtain ⟨hans, hf, -⟩ := hr.completesRaise (s.withC0 c.toNat Cell.c0Clear)
      (fun u => (u.withC0 c.toNat Cell.c0Clear).raise 0x1506 c.toNat (c0Data (s.cell c.toNat).c0 0xFFFFFFFF)) (st := .ok) (res := 0)
      (by decide) (by simp)
      (fun rg => by
        show finish _ false (({ s with rings := rg } : State).doC0Clear c.toNat) = _
        rw [State.doC0Clear_ok (s := { s with rings := rg }) hc hs]
        rfl) (fun rg => RaiseFrame.withC0_raise rg ..) (fun _ _ => rfl) rfl (by decide)
    obtain ⟨⟨h0, hsm⟩, hoth⟩ := hf.withC0_cell
    refine ⟨hans, h0, hsm, ?_, hoth⟩
    rw [hf.bel_eq]
    exact s.saveTable_write .c0
  · exact hr.completesTo s (st := .state) (res := 0) (by decide) (by simp)
      (fun rg => by
        show finish _ false (({ s with rings := rg } : State).doC0Clear c.toNat) = _
        rw [State.doC0Clear_refused (s := { s with rings := rg }) hc]) (fun _ _ => rfl) rfl (by decide)
  · obtain ⟨hans, rg, hro, -⟩ := hr.completesBy (fun u => (u.doC0Adopt o.toNat).1) (st := .ok) (res := (s.adoptable o.toNat).length)
      (by decide) (by simp) (fun _ => rfl) (fun rg => (State.doC0Adopt_spec _ _).1) (fun rg => (State.doC0Adopt_spec _ _).2.1)
      (fun rg => by rw [(State.doC0Adopt_spec _ _).2.2.1]) (by decide)
    obtain ⟨-, -, -, hc, hw⟩ := State.doC0Adopt_spec { s with rings := rg } o.toNat
    refine ⟨fun c => ?_, ?_, fun hex => ?_⟩
    · rw [hro.cell, hc c]
      have hmem : c ∈ ({ s with rings := rg } : State).adoptable o.toNat ↔ c ∈ s.octCells o.toNat ∧ (s.cell c).c0 = 0xFFFFFFFF
          ∧ (s.cell c).smooth.isSome = true ∧ 64 ≤ (s.cell c).validWins := by
        show c ∈ s.adoptable o.toNat ↔ _
        simp [State.adoptable, and_assoc]
      simp only [hmem]
      rfl
    · rw [List.countP_eq_length_filter]
      exact hans
    · obtain ⟨c, hm, h0, hs, h64⟩ := hex
      rw [hro.bel]
      refine hw (List.ne_nil_of_mem (a := c) ?_)
      show c ∈ s.adoptable o.toNat
      simp [State.adoptable, hm, h0, hs, h64]

end Sys2Proof.Machine
end
section
/-! SUPPORT. FAULT_CLEAR and FAULT_RELEASE (R397 to R403). -/

namespace Sys2Proof.Machine

/-- A step that writes registers outside of the host interface's, and nothing else. -/
structure RegsFrame (s t : State) : Prop where
  rest : t = { s with regs := t.regs }
  reg : ∀ a, a < 0x200000 → t.reg a = s.reg a

theorem resetRwp_fst (e : Nat × Word) : (resetRwp e).1 = e.1 := by
  unfold resetRwp
  split <;> rfl

namespace RegsFrame

theorem refl (s : State) : RegsFrame s s := ⟨rfl, fun _ _ => rfl⟩

theorem trans {s t u : State} (h : RegsFrame s t) (k : RegsFrame t u) : RegsFrame s u :=
  ⟨by rw [k.rest, h.rest], fun a ha => (k.reg a ha).trans (h.reg a ha)⟩

theorem foldl {α : Type} {f : State → α → State} (h : ∀ s a, RegsFrame s (f s a)) (l : List α) (s : State) : RegsFrame s (l.foldl f s) := by
  induction l generalizing s with
  | nil => exact refl s
  | cons a l ih => exact (h s a).trans (ih _)

theorem setReg (s : State) {a : Nat} (ha : 0x200000 ≤ a) (w : Word) : RegsFrame s (s.setReg a w) :=
  ⟨rfl, fun b hb => s.reg_setReg_ne (by omega) w⟩

theorem setFld (s : State) {a : Nat} (ha : 0x200000 ≤ a) (lo len v : Nat) : RegsFrame s (s.setFld a lo len v) := setReg s ha _

/-- The main collector's registers lie in block 2. -/
theorem loadCollector (s : State) : RegsFrame s s.loadCollector := by
  have hblock : ∀ a, inBlock a 2 = true → 0x200000 ≤ a := fun a ha => by
    have : a / 0x100000 = 2 := by simpa [inBlock] using ha
    omega
  unfold State.loadCollector State.loadShadow
  refine (foldl (fun u e => ?_) _ _).trans (foldl (fun u e => ?_) _ _)
  · split
    · exact setReg u (by rw [resetRwp_fst]; exact hblock _ ‹_›) _
    · exact refl u
  · split
    · unfold State.putRwp
      dsimp only
      split
      · exact refl u
      · exact foldl (fun v f => setFld v (hblock _ ‹_›) ..) _ _
    · exact refl u

end RegsFrame

theorem RingFree.loadCollector : RingFree State.loadCollector := fun s rg => by
  unfold State.loadCollector State.loadShadow
  have h1 := RingFree.foldl (f := fun s e => if inBlock e.1 2 then s.setReg (resetRwp e).1 (resetRwp e).2 else s)
    (fun e s rg => by dsimp only; split <;> rfl) s.regs s rg
  dsimp only at h1 ⊢
  rw [h1]
  refine RingFree.foldl (f := fun s e => if inBlock (leAt e 0 4) 2 then s.putRwp e else s) (fun e s rg => ?_) _ _ rg
  dsimp only
  split
  · unfold State.putRwp
    dsimp only
    split
    · rfl
    · exact RingFree.foldl (fun _ _ _ => rfl) _ s rg
  · rfl

/-! ### Octads that leave Fenced -/

/-- A loop that releases the fenced octads that p names, p read from the collector. -/
theorem State.unfence_spec {f : Nat → State → State} {p : Collector → Nat → Bool}
    (hf : ∀ n s, f n s = if (s.oct n).state = .fenced ∧ p s.flt n = true then s.updOct n fun o => { o with state := .blocked } else s)
    (k : Nat) (s : State) :
    forNat k f s = { s with octs := (forNat k f s).octs }
      ∧ ∀ n, (forNat k f s).oct n
        = if n < k ∧ (s.oct n).state = .fenced ∧ p s.flt n = true then { s.oct n with state := .blocked } else s.oct n := by
  induction k with
  | zero => exact ⟨rfl, fun n => by simp [forNat]⟩
  | succ k ih =>
    obtain ⟨hs, ho⟩ := ih
    have hstep : forNat (k + 1) f s = f k (forNat k f s) := rfl
    rw [hstep, hf]
    generalize forNat k f s = u at hs ho
    have hflt : u.flt = s.flt := by rw [hs]
    have hk : u.oct k = s.oct k := by rw [ho, if_neg (by omega)]
    rw [hk, hflt]
    by_cases hc : (s.oct k).state = .fenced ∧ p s.flt k = true
    · rw [if_pos hc]
      refine ⟨by rw [hs]; rfl, fun n => ?_⟩
      by_cases hn : n = k
      · subst hn
        rw [State.oct_updOct_same, hk, if_pos ⟨by omega, hc⟩]
      · have hlt : n < k + 1 ↔ n < k := by omega
        simp only [hlt]
        exact (Tab.get_upd_ne _ hn _).trans (ho n)
    · rw [if_neg hc]
      refine ⟨hs, fun n => ?_⟩
      rw [ho n]
      by_cases hn : n = k
      · subst hn
        rw [if_neg (by omega), if_neg fun h => hc h.2]
      · have hlt : n < k + 1 ↔ n < k := by omega
        simp only [hlt]

/-- The device out of LOCKOUT: its entries and the fall-back collection stay. -/
theorem State.leaveLockout_spec (s : State) :
    s.leaveLockout = { s with sys := s.leaveLockout.sys, flt := s.leaveLockout.flt }
      ∧ s.leaveLockout.flt.table = s.flt.table ∧ s.leaveLockout.flt.fallback = s.flt.fallback := ⟨rfl, rfl, rfl⟩

/-- What FAULT_CLEAR may change beside the collector's registers. -/
structure ClearFrame (s t : State) : Prop where
  rest : t = { s with kp := t.kp, flt := t.flt, octs := t.octs, sys := t.sys }
  kpA : t.kp.a = s.kp.a
  kpB : t.kp.b = s.kp.b

theorem ClearFrame.trans {s t u : State} (h : ClearFrame s t) (k : ClearFrame t u) : ClearFrame s u :=
  ⟨by rw [k.rest, h.rest], k.kpA.trans h.kpA, k.kpB.trans h.kpB⟩

/-- An octad that some entry of the table still fences stays as it is; one that has left Fenced does not come back. -/
theorem State.clearFull_spec (s : State) :
    ClearFrame s s.clearFull ∧ s.clearFull.kp = s.kp ∧ s.clearFull.flt.table = s.flt.table ∧ s.clearFull.flt.fallback = s.flt.fallback
      ∧ (∀ n, (∃ a ∈ s.flt.table, a.fenced.getLsbD n = true) → s.clearFull.oct n = s.oct n)
      ∧ ∀ n, (s.oct n).state = .blocked → s.clearFull.oct n = s.oct n := by
  unfold State.clearFull
  split
  · exact ⟨⟨rfl, rfl, rfl⟩, rfl, rfl, rfl, fun _ _ => rfl, fun _ _ => rfl⟩
  · obtain ⟨hu, ho⟩ := State.unfence_spec (f := fun n s => if (s.oct n).state = .fenced ∧ !s.flt.table.any (fun a => a.fenced.getLsbD n) then
        s.updOct n fun o => { o with state := .blocked } else s) (p := fun c n => !c.table.any fun a => a.fenced.getLsbD n)
      (fun _ _ => rfl) 8 { s with flt := { s.flt with tblFull := false } }
    dsimp only at hu ho ⊢
    generalize forNat 8 _ _ = u at hu ho ⊢
    have hentry : ∀ n, (∃ a ∈ s.flt.table, a.fenced.getLsbD n = true) → u.oct n = s.oct n := fun n ⟨a, hm, ha⟩ => by
      rw [ho n, if_neg (by simp only [Bool.not_eq_true', List.any_eq_false]; rintro ⟨-, -, h⟩; exact h a hm ha)]
      rfl
    have hblocked : ∀ n, (s.oct n).state = .blocked → u.oct n = s.oct n := fun n hb => by
      rw [ho n, if_neg (fun h => absurd (hb.symm.trans h.2.1) (by decide))]
      rfl
    have hkeep : ClearFrame s u ∧ u.kp = s.kp ∧ u.flt.table = s.flt.table ∧ u.flt.fallback = s.flt.fallback := by
      rw [hu]
      exact ⟨⟨rfl, rfl, rfl⟩, rfl, rfl, rfl⟩
    obtain ⟨hc, hkp, ht, hf⟩ := hkeep
    split
    · refine ⟨⟨?_, hc.kpA, hc.kpB⟩, hkp, ht, hf, hentry, hblocked⟩
      rw [State.leaveLockout_spec u |>.1, hu]
    · exact ⟨hc, hkp, ht, hf, hentry, hblocked⟩

/-- The entries that stay. -/
def State.keptEntries (s : State) (gone : List Active) : List Active := s.flt.table.filter fun a => !gone.contains a

/-- Octads that only the removed entries fenced. -/
def State.freedBy (s : State) (gone : List Active) (n : Nat) : Bool :=
  gone.any (fun a => a.fenced.getLsbD n) && !(s.keptEntries gone).any fun a => a.fenced.getLsbD n

/-- Entries removed: the table keeps the others, collection returns when the fall-back record's is among them (R397), and an octad that only
removed entries fenced is Blocked. -/
theorem State.removeEntries_spec (s : State) (gone : List Active) :
    ClearFrame s (s.removeEntries gone)
      ∧ (s.removeEntries gone).flt.table = s.keptEntries gone
      ∧ (gone.any s.isFallbackEntry = false → (s.removeEntries gone).kp = s.kp ∧ (s.removeEntries gone).flt.fallback = s.flt.fallback)
      ∧ (gone.any s.isFallbackEntry = true → (s.removeEntries gone).flt.fallback = false ∧ (s.removeEntries gone).kp.fallRec = none)
      ∧ ∀ n, (s.removeEntries gone).oct n
        = if n < 8 ∧ (s.oct n).state = .fenced ∧ s.freedBy gone n = true then { s.oct n with state := .blocked } else s.oct n := by
  unfold State.removeEntries
  extract_lets back rest was lock freed old f u kp v w
  have hv : ClearFrame s v ∧ v.octs = s.octs ∧ v.flt.table = rest ∧ (back = false → v.kp = s.kp ∧ v.flt.fallback = s.flt.fallback)
      ∧ (back = true → v.flt.fallback = false ∧ v.kp.fallRec = none) := by
    unfold v kp u f
    clear_value back
    cases back with
    | true => exact ⟨⟨rfl, rfl, rfl⟩, rfl, rfl, fun h => absurd h (by decide), fun _ => ⟨rfl, rfl⟩⟩
    | false => exact ⟨⟨rfl, rfl, rfl⟩, rfl, rfl, fun _ => ⟨rfl, rfl⟩, fun h => absurd h (by decide)⟩
  obtain ⟨hw, hwo⟩ : w = { v with octs := w.octs } ∧ ∀ n, w.oct n
      = if n < 8 ∧ (v.oct n).state = .fenced ∧ freed n = true then { v.oct n with state := .blocked } else v.oct n :=
    State.unfence_spec (p := fun _ => freed) (fun _ _ => rfl) 8 v
  clear_value w v
  obtain ⟨hc, ho, ht, hno, hback⟩ := hv
  have hoct : ∀ n, v.oct n = s.oct n := fun n => by rw [State.oct, ho]; rfl
  simp only [hoct] at hwo
  have hkeep : ClearFrame s w ∧ w.flt = v.flt ∧ w.kp = v.kp := by
    generalize w.octs = x at hw
    rw [hw]
    exact ⟨hc.trans ⟨rfl, rfl, rfl⟩, rfl, rfl⟩
  obtain ⟨hcw, hflt, hkp⟩ := hkeep
  rw [← hflt] at ht hno hback
  rw [← hkp] at hno hback
  split
  · exact ⟨hcw.trans ⟨rfl, rfl, rfl⟩, ht, hno, hback, hwo⟩
  · exact ⟨hcw, ht, hno, hback, hwo⟩

/-! ### FAULT_CLEAR -/

/-- The entries that a FAULT_CLEAR names. -/
def State.namedEntries (s : State) (code src : BitVec 16) : List Active :=
  s.flt.table.filter fun a => (code == 0 || a.code == code) && (src == 0xFFFF || a.src == src)

/-- The named entries that it removes. -/
def State.removable (s : State) (code src : BitVec 16) : List Active :=
  (s.namedEntries code src).filter fun a => s.clearable a && (Config.parityHolds s.free || !s.isFallbackEntry a)

/-- Whether the main collector's registers are rewritten from the shadow (R397). -/
def State.rewrites (s : State) (code src : BitVec 16) : Bool := (s.namedEntries code src).any fun a => s.clearable a && s.isFallbackEntry a

def State.rewritten (s : State) (code src : BitVec 16) : State := if s.rewrites code src then s.loadCollector.freeNext else s

/-- The table's overflow ends with a FAULT_CLEAR of every entry (R403). -/
def State.endOverflow (s : State) (code src : BitVec 16) : State := if code = 0 ∧ src = 0xFFFF then s.clearFull else s

theorem State.doFaultClear_eq (s : State) (code src : BitVec 16) :
    s.doFaultClear code src
      = if (s.namedEntries code src).isEmpty then ((s.rewritten code src).endOverflow code src, .ok, 0)
        else if (s.removable code src).isEmpty then (s.rewritten code src, .state, 0)
        else (((s.rewritten code src).removeEntries (s.removable code src)).endOverflow code src, .ok, (s.removable code src).length) := rfl

/-- What FAULT_CLEAR leaves in the state u. -/
structure FaultCleared (s : State) (code src : BitVec 16) (u : State) : Prop where
  rest : u = { s with regs := u.regs, free := u.free, kp := u.kp, flt := u.flt, octs := u.octs, sys := u.sys }
  kpA : u.kp.a = s.kp.a
  kpB : u.kp.b = s.kp.b
  reg : ∀ a, a < 0x200000 → u.reg a = s.reg a
  plain : (∀ a ∈ s.namedEntries code src, s.isFallbackEntry a = false) →
    u.regs = s.regs ∧ u.free = s.free ∧ u.kp = s.kp ∧ u.flt.fallback = s.flt.fallback
  back : (∃ a ∈ s.removable code src, s.isFallbackEntry a = true) →
    u.flt.fallback = false ∧ u.kp.fallRec = none ∧ u.regs = s.loadCollector.regs
  table : s.removable code src ≠ [] → u.flt.table = s.keptEntries (s.removable code src)
  blocked : s.removable code src ≠ [] → ∀ n < 8, (s.oct n).state = .fenced → s.freedBy (s.removable code src) n = true →
    (u.oct n).state = .blocked
  fenced : s.removable code src ≠ [] → ∀ n < 8, (∃ a ∈ s.keptEntries (s.removable code src), a.fenced.getLsbD n = true) → u.oct n = s.oct n
  refused : s.namedEntries code src ≠ [] → s.removable code src = [] → (∀ a ∈ s.namedEntries code src, s.isFallbackEntry a = false) → u = s

section
variable {s : State} {code src : BitVec 16}

theorem State.rewrites_of_plain (h : ∀ a ∈ s.namedEntries code src, s.isFallbackEntry a = false) : s.rewrites code src = false := by
  simp only [State.rewrites, List.any_eq_false, Bool.and_eq_true, not_and]
  exact fun a ha _ => by simp [h a ha]

theorem State.rewrites_of_back (h : ∃ a ∈ s.removable code src, s.isFallbackEntry a = true) : s.rewrites code src = true := by
  obtain ⟨a, ha, hf⟩ := h
  obtain ⟨hm, hc⟩ := List.mem_filter.mp ha
  simp only [Bool.and_eq_true] at hc
  exact List.any_eq_true.mpr ⟨a, hm, by simp [hc.1, hf]⟩

/-- The rewriting touches registers and the count of free values alone. -/
theorem State.rewritten_spec (s : State) (code src : BitVec 16) :
    ∃ rs fr, s.rewritten code src = { s with regs := rs, free := fr } ∧ (∀ a, a < 0x200000 → (s.rewritten code src).reg a = s.reg a)
      ∧ (s.rewrites code src = false → rs = s.regs ∧ fr = s.free) ∧ (s.rewrites code src = true → rs = s.loadCollector.regs) := by
  unfold State.rewritten
  split
  · rename_i h
    have hf := RegsFrame.loadCollector s
    refine ⟨s.loadCollector.regs, s.loadCollector.free + 1, ?_, hf.reg, fun hn => absurd (h.symm.trans hn) (by decide), fun _ => rfl⟩
    have := hf.rest
    generalize s.loadCollector = u at this
    rw [this]
    rfl
  · rename_i h
    exact ⟨s.regs, s.free, rfl, fun _ _ => rfl, fun _ => ⟨rfl, rfl⟩, fun hn => absurd hn h⟩

theorem State.endOverflow_spec (s : State) (code src : BitVec 16) :
    ClearFrame s (s.endOverflow code src) ∧ (s.endOverflow code src).kp = s.kp ∧ (s.endOverflow code src).flt.table = s.flt.table
      ∧ (s.endOverflow code src).flt.fallback = s.flt.fallback
      ∧ (∀ n, (∃ a ∈ s.flt.table, a.fenced.getLsbD n = true) → (s.endOverflow code src).oct n = s.oct n)
      ∧ ∀ n, (s.oct n).state = .blocked → (s.endOverflow code src).oct n = s.oct n := by
  unfold State.endOverflow
  split
  · exact s.clearFull_spec
  · exact ⟨⟨rfl, rfl, rfl⟩, rfl, rfl, rfl, fun _ _ => rfl, fun _ _ => rfl⟩

theorem ClearFrame.reg {s t : State} (h : ClearFrame s t) (a : Nat) : t.reg a = s.reg a := by rw [h.rest]; rfl

/-- What holds of the state after the rewriting and a step of the clear's own. -/
theorem ClearFrame.afterRewriting {u : State} (h : ClearFrame (s.rewritten code src) u) :
    u = { s with regs := u.regs, free := u.free, kp := u.kp, flt := u.flt, octs := u.octs, sys := u.sys }
      ∧ u.kp.a = s.kp.a ∧ u.kp.b = s.kp.b ∧ (∀ a, a < 0x200000 → u.reg a = s.reg a)
      ∧ ((∀ a ∈ s.namedEntries code src, s.isFallbackEntry a = false) → u.regs = s.regs ∧ u.free = s.free)
      ∧ ((∃ a ∈ s.removable code src, s.isFallbackEntry a = true) → u.regs = s.loadCollector.regs) := by
  obtain ⟨rs, fr, hs, hreg, hno, hyes⟩ := s.rewritten_spec code src
  have hr := fun a (ha : a < 0x200000) => (h.reg a).trans (hreg a ha)
  obtain ⟨hrest, hA, hB⟩ := h
  rw [hs] at hrest hA hB
  have hregs : u.regs = rs ∧ u.free = fr := by rw [hrest]; exact ⟨rfl, rfl⟩
  rw [← hregs.1, ← hregs.2] at hno
  rw [← hregs.1] at hyes
  refine ⟨?_, hA, hB, hr, fun hp => hno (State.rewrites_of_plain hp), fun hb => hyes (State.rewrites_of_back hb)⟩
  rw [hrest]

theorem State.rewritten_rest (s : State) (code src : BitVec 16) :
    (s.rewritten code src).kp = s.kp ∧ (s.rewritten code src).flt = s.flt ∧ (s.rewritten code src).octs = s.octs
      ∧ (s.rewritten code src).isFallbackEntry = s.isFallbackEntry := by
  obtain ⟨rs, fr, hs, -⟩ := s.rewritten_spec code src
  rw [hs]
  exact ⟨rfl, rfl, rfl, rfl⟩

theorem FaultCleared.of_none (hn : s.removable code src = []) {u : State} (h : ClearFrame (s.rewritten code src) u)
    (hkp : u.kp = s.kp) (hfb : u.flt.fallback = s.flt.fallback)
    (hs : s.namedEntries code src ≠ [] → u = s.rewritten code src) : FaultCleared s code src u := by
  obtain ⟨hrest, hA, hB, hreg, hplain, hback⟩ := h.afterRewriting
  refine ⟨hrest, hA, hB, hreg, fun hp => ⟨(hplain hp).1, (hplain hp).2, hkp, hfb⟩, fun ⟨a, ha, _⟩ => ?_, fun hc => absurd hn hc,
    fun hc => absurd hn hc, fun hc => absurd hn hc, fun hne _ hp => ?_⟩
  · rw [hn] at ha
    exact absurd ha List.not_mem_nil
  · rw [hs hne, State.rewritten, State.rewrites_of_plain hp]
    rfl

theorem FaultCleared.of_removed (hn : s.removable code src ≠ []) :
    FaultCleared s code src (((s.rewritten code src).removeEntries (s.removable code src)).endOverflow code src) := by
  obtain ⟨hkp0, hflt0, hoct0, hfb0⟩ := s.rewritten_rest code src
  have hkept : (s.rewritten code src).keptEntries = s.keptEntries := by unfold State.keptEntries; rw [hflt0]
  have hfreed : (s.rewritten code src).freedBy = s.freedBy := by unfold State.freedBy; rw [hkept]
  have hoctn : ∀ n, (s.rewritten code src).oct n = s.oct n := fun n => by unfold State.oct; rw [hoct0]
  obtain ⟨hc, ht, hno, hback, ho⟩ := (s.rewritten code src).removeEntries_spec (s.removable code src)
  rw [hkept] at ht
  rw [hfb0, hkp0, hflt0] at hno
  rw [hfb0] at hback
  simp only [hoctn, hfreed] at ho
  generalize hu : (s.rewritten code src).removeEntries (s.removable code src) = u at hc ht hno hback ho ⊢
  obtain ⟨hc', hkp', ht', hf', hent, hblk⟩ := u.endOverflow_spec code src
  generalize u.endOverflow code src = w at hc' hkp' ht' hf' hent hblk ⊢
  obtain ⟨hrest, hA, hB, hreg, hplain, hbk⟩ := (hc.trans hc').afterRewriting
  rw [← hkp', ← hf'] at hno hback
  rw [← ht'] at ht
  refine ⟨hrest, hA, hB, hreg, fun hp => ?_, fun hb => ?_, fun _ => ht, fun _ n hn8 hfen hfr => ?_, fun _ n hn8 ⟨a, ha, hfn⟩ => ?_,
    fun _ hnil => absurd hnil hn⟩
  · have hnone : (s.removable code src).any s.isFallbackEntry = false := by
      simp only [List.any_eq_false]
      exact fun a ha => by simp [hp a (List.mem_of_mem_filter ha)]
    exact ⟨(hplain hp).1, (hplain hp).2, hno hnone⟩
  · obtain ⟨h1, h2⟩ := hback (List.any_eq_true.mpr hb)
    exact ⟨h1, h2, hbk hb⟩
  · have hb := ho n
    rw [if_pos ⟨hn8, hfen, hfr⟩] at hb
    have hb' : (u.oct n).state = .blocked := by rw [hb]
    rw [hblk n hb', hb']
  · have hnf : s.freedBy (s.removable code src) n = false := by
      simp only [State.freedBy, Bool.and_eq_false_iff, Bool.not_eq_false', List.any_eq_true]
      exact .inr ⟨a, ha, hfn⟩
    rw [hent n ⟨a, by rw [← ht', ht]; exact ha, hfn⟩, ho n, hnf, if_neg (by simp)]

theorem State.doFaultClear_spec (s : State) (code src : BitVec 16) : FaultCleared s code src (s.doFaultClear code src).1 := by
  rw [State.doFaultClear_eq]
  obtain ⟨hkp0, hflt0, -, -⟩ := s.rewritten_rest code src
  split
  · rename_i hh
    obtain ⟨hc, hkp, -, hf, -⟩ := (s.rewritten code src).endOverflow_spec code src
    have hnil := List.isEmpty_iff.mp hh
    exact FaultCleared.of_none (by rw [State.removable, hnil]; rfl) hc (hkp.trans hkp0) (hf.trans (by rw [hflt0])) (fun hne => absurd hnil hne)
  · split
    · rename_i hc
      exact FaultCleared.of_none (List.isEmpty_iff.mp hc) ⟨rfl, rfl, rfl⟩ hkp0 (by rw [hflt0]) (fun _ => rfl)
    · rename_i hc
      exact FaultCleared.of_removed (fun hn => hc (List.isEmpty_iff.mpr hn))

/-- The status and the count of entries removed. -/
theorem State.doFaultClear_answer (s : State) (code src : BitVec 16) :
    (s.doFaultClear code src).2
      = if (s.namedEntries code src).isEmpty then (.ok, 0)
        else if (s.removable code src).isEmpty then (.state, 0) else (.ok, (s.removable code src).length) := by
  rw [State.doFaultClear_eq]
  split
  · rfl
  · split <;> rfl

end

/-! ### FAULT_RELEASE -/

section
variable {s : State}

theorem State.doFaultRelease_refused (h : s.flt.table.any (·.faultN) = true) : s.doFaultRelease = (s, .state, 0) := by
  unfold State.doFaultRelease
  rw [if_pos (by simp [h])]

/-- FAULT_N let go: at once once its hold has passed, otherwise when it ends (R399). -/
def State.faultNFreed (s : State) : State :=
  { s with flt := if s.flt.holdUntil ≤ s.now then { s.flt with faultN := false, released := false } else { s.flt with released := true } }

theorem State.doFaultRelease_ok (h : s.flt.table.any (·.faultN) = false) (hf : s.flt.tblFull = false) (hd : s.sys.dev ≠ .lockout)
    (hn : s.flt.faultN = true) : s.doFaultRelease = (s.faultNFreed, .ok, 0) := by
  unfold State.doFaultRelease State.faultNFreed
  rw [if_neg (by simp [h, hf, hd]), if_neg (by simp [hn])]
  split <;> rfl

end

/-- FAULT_CLEAR of a ready descriptor: its completion, and what it leaves. -/
theorem submit_faultClear {h : Hdr} {code src : BitVec 16} {s : State} (hr : s.Ready 0 h (.faultClear code src)) :
    s.answered (s.submit 0 h (.faultClear code src)) 0 h (.faultClear code src) (s.doFaultClear code src).2.1
        (if (s.doFaultClear code src).2.1 = .ok then s.fr.k else 0) (s.doFaultClear code src).2.2
      ∧ ∃ rg, RingsOnly ({ s with rings := rg } : State) { s with rings := (s.submit 0 h (.faultClear code src)).rings }
        ∧ RingsOnly (({ s with rings := rg } : State).doFaultClear code src).1 (s.submit 0 h (.faultClear code src)) := by
  have hst : (s.doFaultClear code src).2.1 ≠ .late := by
    rw [State.doFaultClear_answer]
    split
    · decide
    · split <;> simp
  obtain ⟨hans, rg, hro, -⟩ := hr.completesBy (fun u => (u.doFaultClear code src).1) (st := (s.doFaultClear code src).2.1)
    (res := (s.doFaultClear code src).2.2) (by decide) (by simp)
    (fun rg => by
      show finish _ false (({ s with rings := rg } : State).doFaultClear code src) = _
      have h2 := State.doFaultClear_answer ({ s with rings := rg } : State) code src
      have h1 := State.doFaultClear_answer s code src
      have : (({ s with rings := rg } : State).doFaultClear code src).2 = (s.doFaultClear code src).2 := h2.trans h1.symm
      rw [← this])
    (fun rg => by rw [(({ s with rings := rg } : State).doFaultClear_spec code src).rest])
    (fun rg => (({ s with rings := rg } : State).doFaultClear_spec code src).reg)
    (fun rg => by rw [(({ s with rings := rg } : State).doFaultClear_spec code src).rest]) hst
  exact ⟨hans, rg, rfl, hro⟩

/-- Settles O20: the clear is split by what it names and what it may remove; the release by what holds FAULT_N. -/
theorem faultClearAndRelease : Obligations.FaultClearAndRelease := by
  unfold Obligations.FaultClearAndRelease
  refine ⟨fun h code src s hr => ⟨_, rfl, ?_⟩, fun h s hr => ⟨_, rfl, fun ha => ?_, fun ha hf hd hn => ?_⟩⟩
  · obtain ⟨hans, rg, -, hro⟩ := submit_faultClear hr
    have hload := RingFree.loadCollector s rg
    obtain ⟨hrest, hA, hB, -, hplain, hback, htable, hblocked, hfenced, hrefused⟩ := ({ s with rings := rg } : State).doFaultClear_spec code src
    rw [State.doFaultClear_answer] at hans
    generalize (({ s with rings := rg } : State).doFaultClear code src).1 = u at hro hrest hA hB hplain hback htable hblocked hfenced hrefused
    generalize s.submit 0 h (.faultClear code src) = t at hans hro ⊢
    have heq : t.regs = u.regs ∧ t.free = u.free ∧ t.kp = u.kp ∧ t.flt = u.flt ∧ t.octs = u.octs := by
      rw [hro]
      exact ⟨rfl, rfl, rfl, rfl, rfl⟩
    obtain ⟨hregs, hfree, hkp, hflt, hocts⟩ := heq
    have hoct : ∀ n, t.oct n = u.oct n := fun n => by unfold State.oct; rw [hocts]
    refine ⟨?_, by rw [hkp]; exact hA, by rw [hkp]; exact hB, fun hit can hhit hcan => ?_⟩
    · rw [hro, hrest]
    · change hit = s.namedEntries code src at hhit
      rw [hhit] at hcan
      change can = s.removable code src at hcan
      subst hhit hcan
      rw [hregs, hfree, hkp, hflt]
      refine ⟨hplain, fun hb => ?_, fun hne => ⟨htable hne, ?_, ?_, ?_⟩, fun hnil => ?_, fun hne hnil => ⟨?_, fun hp => ?_⟩⟩
      · obtain ⟨h1, h2, h3⟩ := hback hb
        refine ⟨h1, h2, h3.trans ?_⟩
        rw [hload]
      · have hnn : (s.namedEntries code src).isEmpty = false := by
          cases hcase : s.namedEntries code src with
          | nil => exact absurd (by rw [State.removable, hcase]; rfl) hne
          | cons a l => rfl
        rwa [hnn, if_neg (by decide), if_neg (fun hc => hne (List.isEmpty_iff.mp hc))] at hans
      · intro n hn8 hfen hex hall
        rw [hoct]
        refine hblocked hne n hn8 hfen ?_
        rw [htable hne] at hall
        simp only [State.freedBy, Bool.and_eq_true, List.any_eq_true, Bool.not_eq_true', List.any_eq_false]
        exact ⟨hex, fun a ha => by simp [hall a ha]⟩
      · intro n hn8 hex
        rw [htable hne] at hex
        exact (hoct n).trans (hfenced hne n hn8 hex)
      · rwa [hnil] at hans
      · have hnn : ¬ (s.namedEntries code src).isEmpty = true := fun hc => hne (List.isEmpty_iff.mp hc)
        rwa [if_neg hnn, hnil] at hans
      · have := hrefused hne hnil hp
        rw [hro, this]
  · exact hr.completesTo s (st := .state) (res := 0) (by decide) (by simp)
      (fun rg => by
        show finish _ false (({ s with rings := rg } : State).doFaultRelease) = _
        rw [State.doFaultRelease_refused (s := { s with rings := rg }) ha]) (fun _ _ => rfl) rfl (by decide)
  · exact hr.completesTo s.faultNFreed (st := .ok) (res := 0) (by decide) (by simp)
      (fun rg => by
        show finish _ false (({ s with rings := rg } : State).doFaultRelease) = _
        rw [State.doFaultRelease_ok (s := { s with rings := rg }) ha hf hd hn]
        rfl) (fun _ _ => rfl) rfl (by decide)

end Sys2Proof.Machine
end
section
/-! SUPPORT. BEL_READ, BEL_FREEZE and BELFRY_THAW; what storing records leaves alone. -/

namespace Sys2Proof.Machine

/-- A ready descriptor whose effect f leaves its completion ring and the host interface's registers, whatever else it changes. -/
theorem State.Ready.completesOn {s : State} (f : State → State) {r : Nat} {h : Hdr} {b : Body} {st : Status} {res : Nat}
    (hr : s.Ready r h b) (hr10 : r < 10) (hb : ∀ p, b ≠ .modeChange p)
    (hc : ∀ rg, ({ s with rings := rg } : State).carryOut (s.descOf r h b) false
      = finish (s.descOf r h b) false (f { s with rings := rg }, st, res))
    (hring : ∀ rg, (f { s with rings := rg }).ring (10 + r) = rg.get (10 + r))
    (hreg : ∀ rg a, a < 0x200000 → (f { s with rings := rg }).reg a = s.reg a)
    (hk : ∀ rg, (f { s with rings := rg }).fr.k = s.fr.k) (hst : st ≠ .late) :
    s.answered (s.submit r h b) r h b st (if st = .ok then s.fr.k else 0) res
      ∧ ∃ rg, RingsOnly (f { s with rings := rg }) (s.submit r h b) ∧ (f { s with rings := rg }).out <+: (s.submit r h b).out := by
  rw [State.submit_carried hr hb, State.taken_eq, hc]
  generalize hrg : (s.taken r h b).rings = rg
  refine ⟨?_, rg, RingsOnly.finish (RingsOnly.refl _), finish_out _ _ (f { s with rings := rg }, st, res)⟩
  have := finish_answered (s := s) (u := f { s with rings := rg }) (st := st) (st' := st) (res := res) (late := false) hr hr10
    (by rw [hring, ← hrg]; rfl) (hreg rg) (by simp)
  simpa [hst, hk] using this

/-! ### What storing a record leaves alone -/

theorem RaiseFrame.setSpare {s t : State} (h : RaiseFrame s t) (rg : Tab Ring) (b : Belfry) (e : Epl) :
    RaiseFrame { s with rings := rg, bel := b, epl := e } { t with rings := rg, bel := b, epl := e } :=
  ⟨congrArg (fun y : State => { y with rings := rg, bel := b, epl := e }) h.core, h.reg, h.cell, h.oct, h.eng, h.out, h.retired, h.state, h.lane⟩

/-- A step that stores records: what a fault may change changes, beside the memory's bookkeeping, its energy and the event ring; a freeze and its end
stay. -/
structure StoreFrame (s t : State) : Prop where
  frame : RaiseFrame { s with rings := t.rings, bel := t.bel, epl := t.epl } t
  ring : ∀ r, r < 36 → t.ring r = s.ring r
  frozen : t.bel.frozen = s.bel.frozen
  thawAt : t.bel.thawAt = s.bel.thawAt

namespace StoreFrame
variable {s t : State}

theorem trans {u : State} (h : StoreFrame s t) (k : StoreFrame t u) : StoreFrame s u :=
  ⟨(h.frame.setSpare u.rings u.bel u.epl).trans k.frame, fun r hr => (k.ring r hr).trans (h.ring r hr), k.frozen.trans h.frozen,
    k.thawAt.trans h.thawAt⟩

/-- Bookkeeping and energy alone. -/
theorem spare (b : Belfry) (e : Epl) (hf : b.frozen = s.bel.frozen) (ht : b.thawAt = s.bel.thawAt) :
    StoreFrame s { s with bel := b, epl := e } := ⟨RaiseFrame.of_eq rfl rfl rfl rfl rfl rfl rfl, fun _ _ => rfl, hf, ht⟩

theorem refl (s : State) : StoreFrame s s := spare _ _ rfl rfl

theorem of_raise (h : RaiseFrame s t) : StoreFrame s t := by
  have hr := h.rings_eq
  have hb := h.bel_eq
  have he : t.epl = s.epl := show t.core.epl = s.core.epl by rw [h.core]
  refine ⟨?_, fun r _ => by rw [State.ring, hr, State.ring], by rw [hb], by rw [hb]⟩
  rw [hr, hb, he]
  exact h

theorem foldl {α : Type} {f : State → α → State} (h : ∀ u a, StoreFrame u (f u a)) (l : List α) (s : State) : StoreFrame s (l.foldl f s) := by
  induction l generalizing s with
  | nil => exact refl s
  | cons a l ih => exact (h s a).trans (ih _)

end StoreFrame

theorem Belfry.ringAdvance_keeps (b : Belfry) : b.ringAdvance.frozen = b.frozen ∧ b.ringAdvance.thawAt = b.thawAt := by
  unfold Belfry.ringAdvance
  split <;> exact ⟨rfl, rfl⟩

theorem Belfry.push_keeps (b : Belfry) (x : Slot) : (b.push x).frozen = b.frozen ∧ (b.push x).thawAt = b.thawAt := by
  unfold Belfry.push
  split <;> exact ⟨rfl, rfl⟩

theorem Belfry.putRecord_keeps (b : Belfry) (r : Record) : (b.putRecord r).frozen = b.frozen ∧ (b.putRecord r).thawAt = b.thawAt := by
  obtain ⟨h1, h2⟩ := (b.push (.record r)).ringAdvance_keeps
  obtain ⟨k1, k2⟩ := b.push_keeps (.record r)
  exact ⟨h1.trans k1, h2.trans k2⟩

theorem Belfry.noteAtEnd_keeps (b : Belfry) (bs : List Byte) : (b.noteAtEnd bs).frozen = b.frozen ∧ (b.noteAtEnd bs).thawAt = b.thawAt :=
  ⟨rfl, rfl⟩

theorem Belfry.noteAdvance_keeps (b : Belfry) (k : Nat) : (b.noteAdvance k).frozen = b.frozen ∧ (b.noteAdvance k).thawAt = b.thawAt := by
  unfold Belfry.noteAdvance
  split
  · exact ⟨rfl, rfl⟩
  · rename_i hc
    clear hc
    dsimp only
    generalize List.filter _ _ = l
    induction l generalizing b with
    | nil => exact ⟨rfl, rfl⟩
    | cons e l ih => exact ih (b.noteAtEnd _)

theorem State.writeNote_frame (s : State) (n : Note) : StoreFrame s (s.writeNote n) :=
  StoreFrame.spare _ _ (Belfry.noteAdvance_keeps _ _).1 (Belfry.noteAdvance_keeps _ _).2

theorem State.settleNewest_frame (s : State) : StoreFrame s s.settleNewest := by
  unfold State.settleNewest
  split
  · split
    · exact s.writeNote_frame _
    · exact .refl s
  · exact .refl s

theorem Belfry.dueNote_keeps (b : Belfry) (r : Record) : (b.dueNote r).frozen = b.frozen ∧ (b.dueNote r).thawAt = b.thawAt := by
  unfold Belfry.dueNote
  dsimp only
  split <;> exact ⟨rfl, rfl⟩

theorem State.belfryAccept_frame (s : State) (r : Record) (m : Bool) : StoreFrame s (s.belfryAccept r m) := by
  unfold State.belfryAccept
  dsimp only
  split
  · split
    · refine StoreFrame.spare _ _ ?_ ?_
      · split
        · exact (Belfry.dueNote_keeps _ _).1
        · rfl
      · split
        · exact (Belfry.dueNote_keeps _ _).2
        · rfl
    · exact StoreFrame.spare _ _ rfl rfl
  · split
    · exact StoreFrame.trans (StoreFrame.spare (s := s) { s.bel with
          lost := s.bel.lost.add 31 1, lostSince := satAdd 32 s.bel.lostSince 1 } s.epl rfl rfl)
        (StoreFrame.of_raise (RaiseFrame.count (by decide)))
    · exact StoreFrame.spare _ _ rfl rfl

theorem State.storeRecord_frame (s : State) (r : Record) (m : Bool) : StoreFrame s (s.storeRecord r m) := by
  unfold State.storeRecord
  dsimp only
  split
  · exact s.belfryAccept_frame r m
  · exact s.settleNewest_frame.trans (State.belfryAccept_frame _ r m)

theorem State.postEvent_frame (s : State) (cls : Byte) (code src : BitVec 16) (seq tick : Word) :
    StoreFrame s (s.postEvent cls code src seq tick) := by
  unfold State.postEvent
  split
  · refine ⟨?_, fun r hr => Tab.get_upd_ne _ (by omega) _, rfl, rfl⟩
    exact RaiseFrame.emit _ _
  · exact .refl s

theorem State.accept_frame (s : State) (r : Report) : StoreFrame s (s.accept r) := by
  unfold State.accept
  dsimp only
  generalize hf : ({ s.flt with seq := _, seqOf := _, table := _ } : Collector) = f
  have h1 : StoreFrame s { s with flt := f } := .of_raise (RaiseFrame.setFlt s f)
  refine StoreFrame.trans (t := if r.evt then _ else _) (h1.trans ?_) (State.storeRecord_frame _ _ _)
  split
  · exact State.postEvent_frame _ _ _ _ _ _
  · exact .refl _

theorem State.raiseNow_frame (s : State) (code src : Nat) (data : List Byte) : StoreFrame s (s.raiseNow code src data) := by
  unfold State.raiseNow
  dsimp only
  refine StoreFrame.trans ?_ (StoreFrame.foldl (fun u r => u.accept_frame r) _ _)
  refine StoreFrame.of_raise (RaiseFrame.trans ?_ (RaiseFrame.foldl (fun u r => RaiseFrame.enqueue u r) _ _))
  exact ((RaiseFrame.setFlt s _).trans (State.raise_frame _ _ _ _)).trans (RaiseFrame.setFlt _ _)

theorem State.insertLost_frame (s : State) : StoreFrame s s.insertLost := by
  unfold State.insertLost
  dsimp only
  split
  · exact .refl s
  · exact StoreFrame.trans (StoreFrame.spare (s := s) { s.bel with lostSince := 0 } s.epl rfl rfl) (State.raiseNow_frame _ _ _ _)

theorem State.endFlush_frame (s : State) : StoreFrame s s.endFlush := StoreFrame.spare _ _ rfl rfl

/-- A record written at the first attempt. -/
theorem State.writeRecord_zero_frame (s : State) : StoreFrame s (s.writeRecord 0) := by
  unfold State.writeRecord
  split
  · exact .refl s
  · split
    · exact .refl s
    · unfold State.attempt
      split
      · exact StoreFrame.spare _ _ (Belfry.putRecord_keeps _ _).1 (Belfry.putRecord_keeps _ _).2
      · exact StoreFrame.spare _ _ rfl rfl

theorem State.flushStaging_frame (k : Nat) (s : State) : StoreFrame s (State.flushStaging k s) := by
  induction k generalizing s with
  | zero => exact .refl s
  | succ k ih =>
    unfold State.flushStaging
    split
    · exact .refl s
    · exact s.writeRecord_zero_frame.trans (ih _)

/-- A thaw ends the freeze. -/
theorem State.thaw_frame (s : State) :
    StoreFrame { s with bel := { s.bel with frozen := none, flush := true } } s.thaw := by
  unfold State.thaw
  have h := Belfry.ringAdvance_keeps { s.bel with frozen := none, flush := true }
  have h1 : StoreFrame { s with bel := { s.bel with frozen := none, flush := true } }
    { s with bel := ({ s.bel with frozen := none, flush := true } : Belfry).ringAdvance } := StoreFrame.spare _ _ h.1 h.2
  exact ((h1.trans (State.flushStaging_frame _ _)).trans (State.insertLost_frame _)).trans (State.endFlush_frame _)

/-! ### The three commands -/

section
variable {s : State}

theorem State.doBelRead_ok {addr : BitVec 64} {a f c : Nat} (h : f + c ≤ (s.bel.held a).length) :
    s.doBelRead addr a f c = (s.emit (.hostWrite addr ((((s.bel.held a).drop f).take c).flatMap recordBytes)), .ok, 0) := by
  unfold State.doBelRead
  exact if_neg (by omega)

theorem State.doBelRead_refused {addr : BitVec 64} {a f c : Nat} (h : (s.bel.held a).length < f + c) : s.doBelRead addr a f c = (s, .refused, 0) :=
  if_pos h

theorem State.doBelFreeze_frozen (h : s.bel.frozen.isSome = true) : s.doBelFreeze = (s, some .ok) := if_pos h

theorem State.doBelFreeze_waits (hf : s.bel.frozen = none) (h : s.bel.erasing.isSome = true ∨ s.bel.noteErase.isSome = true) :
    s.doBelFreeze = ({ s with bel := { s.bel with freezing := true } }, none) := by
  unfold State.doBelFreeze Belfry.erasesNow
  rw [if_neg (by simp [hf]), if_pos (by rcases h with h | h <;> simp [h])]

theorem State.doBelFreeze_now (hf : s.bel.frozen = none) (he : s.bel.erasing = none) (hn : s.bel.noteErase = none) :
    s.doBelFreeze = ({ s with bel := { s.bel with frozen := some s.now } }, some .ok) := by
  unfold State.doBelFreeze Belfry.erasesNow
  rw [if_neg (by simp [hf]), if_neg (by simp [he, hn])]

theorem State.doBelfryThaw_idle (h : s.bel.frozen = none) : s.doBelfryThaw.1 = { s with bel := { s.bel with thawAt := none } } := by
  unfold State.doBelfryThaw
  dsimp only
  rw [h]

theorem State.doBelfryThaw_frame (s : State) :
    ∃ b : Belfry, b.frozen = none ∧ b.thawAt = none ∧ StoreFrame { s with bel := b } s.doBelfryThaw.1 := by
  unfold State.doBelfryThaw
  dsimp only
  split
  · exact ⟨_, rfl, rfl, State.thaw_frame { s with bel := { s.bel with thawAt := none } }⟩
  · rename_i h
    exact ⟨{ s.bel with thawAt := none }, h, rfl, .refl _⟩

end

/-- Settles O21: each command by its cases; a thaw by what storing records leaves alone. -/
theorem belfryReadFreezeAndThaw : Obligations.BelfryReadFreezeAndThaw := by
  unfold Obligations.BelfryReadFreezeAndThaw
  refine ⟨fun h b a f c s hr => ⟨_, rfl, ?_⟩, fun h s hr => ⟨_, rfl, fun hf he hn => ?_, fun hf he => ?_, fun hf => ?_⟩, fun h s hr => ⟨_, rfl, ?_⟩⟩
  · by_cases hl : f.toNat + c.toNat ≤ (s.bel.held a.toNat).length
    · obtain ⟨hans, heq⟩ := hr.completesTo
        (s.emit (.hostWrite b.addr ((((s.bel.held a.toNat).drop f.toNat).take c.toNat).flatMap recordBytes))) (st := .ok) (res := 0) (by decide)
        (by simp) (fun rg => by
          show finish _ false (({ s with rings := rg } : State).doBelRead b.addr a.toNat f.toNat c.toNat) = _
          rw [State.doBelRead_ok (s := { s with rings := rg }) hl]
          rfl) (fun _ _ => rfl) rfl (by decide)
      obtain ⟨-, rg, -, hpre⟩ := hr.completesBy
        (fun u => u.emit (.hostWrite b.addr ((((s.bel.held a.toNat).drop f.toNat).take c.toNat).flatMap recordBytes))) (st := .ok) (res := 0)
        (by decide) (by simp) (fun rg => by
          show finish _ false (({ s with rings := rg } : State).doBelRead b.addr a.toNat f.toNat c.toNat) = _
          rw [State.doBelRead_ok (s := { s with rings := rg }) hl]) (fun _ => rfl) (fun _ _ _ => rfl) (fun _ => rfl) (by decide)
      exact ⟨heq, fun _ => ⟨hans, hpre.subset (List.mem_append_right _ (List.mem_singleton.mpr rfl))⟩, fun hn => absurd hl (by omega)⟩
    · obtain ⟨hans, heq⟩ := hr.completesTo s (st := .refused) (res := 0) (by decide) (by simp)
        (fun rg => by
          show finish _ false (({ s with rings := rg } : State).doBelRead b.addr a.toNat f.toNat c.toNat) = _
          rw [State.doBelRead_refused (s := { s with rings := rg }) (Nat.lt_of_not_le hl)]) (fun _ _ => rfl) rfl (by decide)
      exact ⟨heq, fun hl' => absurd hl' hl, fun _ => hans⟩
  · exact hr.completesTo { s with bel := { s.bel with frozen := some s.now } } (st := .ok) (res := 0) (by decide) (by simp)
      (fun rg => by
        show finishOrWait _ false _ (({ s with rings := rg } : State).doBelFreeze) = _
        rw [State.doBelFreeze_now (s := { s with rings := rg }) hf he hn]
        rfl) (fun _ _ => rfl) rfl (by decide)
  · exact hr.waits { s with
        bel := { s.bel with freezing := true }
        hif := { s.hif with waiting := s.hif.waiting ++ [⟨s.descOf 0 h .belFreeze, .freeze, false⟩] } } (by simp)
      (fun rg => by
        show finishOrWait _ false _ (({ s with rings := rg } : State).doBelFreeze) = _
        rw [State.doBelFreeze_waits (s := { s with rings := rg }) hf he]
        rfl)
  · exact hr.completesTo s (st := .ok) (res := 0) (by decide) (by simp)
      (fun rg => by
        show finishOrWait _ false _ (({ s with rings := rg } : State).doBelFreeze) = _
        rw [State.doBelFreeze_frozen (s := { s with rings := rg }) hf]
        rfl) (fun _ _ => rfl) rfl (by decide)
  · have hf := fun rg => ({ s with rings := rg } : State).doBelfryThaw_frame
    obtain ⟨hans, rg, hro, hpre⟩ := hr.completesOn (fun u => u.doBelfryThaw.1) (st := .ok) (res := 0) (by decide) (by simp) (fun rg => rfl)
      (fun rg => by
        obtain ⟨b, -, -, hb⟩ := hf rg
        exact hb.ring _ (by decide))
      (fun rg => by
        obtain ⟨b, -, -, hb⟩ := hf rg
        exact hb.frame.reg)
      (fun rg => by
        obtain ⟨b, -, -, hb⟩ := hf rg
        rw [hb.frame.fr_eq]) (by decide)
    obtain ⟨b, hbf, hbt, hframe⟩ := hf rg
    have hidle := State.doBelfryThaw_idle (s := { s with rings := rg })
    generalize ({ s with rings := rg } : State).doBelfryThaw.1 = u at hro hpre hframe hidle
    generalize s.submit 0 h .belfryThaw = t at hans hro hpre ⊢
    have hbel : t.bel = u.bel ∧ t.epl = u.epl := by rw [hro]; exact ⟨rfl, rfl⟩
    rw [hbel.1, hbel.2]
    refine ⟨hans, hframe.frozen.trans hbf, hframe.thawAt.trans hbt, ?_, fun hn => ?_⟩
    · exact RaiseFrame.ringsOnly (hframe.frame.setSpare u.rings u.bel u.epl) hro hpre
    · rw [hro, hidle hn]

end Sys2Proof.Machine
end
section
/-! SUPPORT. BIST_RUN and BIST_REQUALIFY: what the start of a segment touches (R549). -/

namespace Sys2Proof.Machine

/-- What a segment may destroy as it starts: registers, lanes, cells, octads, engines and the collector. -/
def SegmentFrame (s t : State) : Prop :=
  t = { s with regs := t.regs, hotAt := t.hotAt, hot := t.hot, lanes := t.lanes, cells := t.cells, octs := t.octs, engs := t.engs, flt := t.flt }

namespace SegmentFrame
variable {s t u : State}

theorem refl (s : State) : SegmentFrame s s := rfl

theorem trans (h : SegmentFrame s t) (k : SegmentFrame t u) : SegmentFrame s u := by
  unfold SegmentFrame at *
  rw [k, h]

theorem foldl {α : Type} {f : State → α → State} (h : ∀ s a, SegmentFrame s (f s a)) (l : List α) (s : State) : SegmentFrame s (l.foldl f s) := by
  induction l generalizing s with
  | nil => exact refl s
  | cons a l ih => exact (h s a).trans (ih _)

theorem forNat {f : Nat → State → State} (h : ∀ n s, SegmentFrame s (f n s)) (k : Nat) (s : State) : SegmentFrame s (Machine.forNat k f s) := by
  induction k with
  | zero => exact refl s
  | succ k ih => exact ih.trans (h k _)

theorem ite {c : Prop} [Decidable c] (ht : SegmentFrame s t) (hu : SegmentFrame s u) : SegmentFrame s (if c then t else u) := by
  split <;> assumption

theorem flag (s : State) (a i : Nat) : SegmentFrame s (s.flag a i) := rfl

theorem updEng (s : State) (e : Nat) (f : Engine → Engine) : SegmentFrame s (s.updEng e f) := rfl

theorem huntLane (s : State) (l : Nat) (p : Proc) : SegmentFrame s (s.huntLane l p) := by
  have h : SegmentFrame s (s.abortEye l) := by
    unfold State.abortEye
    exact ite (t := (s.updLane l fun x => { x with eye := none }).flag (laneBase l + 0x1C) 3) rfl rfl
  unfold State.huntLane
  generalize s.abortEye l = u at h ⊢
  exact h.trans rfl

theorem discardWindow (s : State) (n : Nat) : SegmentFrame s (s.discardWindow n) := by
  unfold State.discardWindow
  dsimp only
  split <;> rfl

end SegmentFrame

/-- The segment of a block starts: its time is noted. -/
theorem State.startSegment_frame (s : State) (b : Nat) :
    SegmentFrame { s with sys := { s.sys with bist := { s.sys.bist with startAt := s.now } } } (s.startSegment b) := by
  unfold State.startSegment
  extract_lets x0 x1 s1 s2 hubs s3 s4
  have h2 : SegmentFrame s1 s2 := SegmentFrame.foldl (fun u l => SegmentFrame.ite (.refl u) (SegmentFrame.huntLane u l .bringup)) _ _
  have h3 : SegmentFrame s2 s3 := rfl
  have h4 : SegmentFrame s3 s4 := by
    unfold s4
    refine SegmentFrame.ite (SegmentFrame.forNat (fun n u => SegmentFrame.ite ?_ (.refl u)) _ _)
      (SegmentFrame.ite (SegmentFrame.forNat (fun e u => SegmentFrame.ite (SegmentFrame.updEng u e _) (.refl u)) _ _) (.refl _))
    exact (SegmentFrame.discardWindow u n).trans rfl
  exact ((h2.trans h3).trans h4).trans rfl

section
variable {s : State} {b : Nat} {q : Bool}

/-- The groups that run only at boot (R547). -/
theorem State.startBist_boot (h : b = 0x4009 ∨ b = 0x400A) : s.startBist b q = (s, some .refused) := if_pos h

/-- The record of a run of one block. -/
def bistOf (b : Nat) (q : Bool) : Bist :=
  { Bist.init with blocks := [b], runs := if q then 2 else 1, requalify := q, busy := true }

/-- The conditions of R550 for a block outside the groups of boot and the port that Kingpost may own. -/
structure State.BistMayRun (s : State) (b : Nat) : Prop where
  row : b ≠ 0x4009 ∧ b ≠ 0x400A ∧ b ≠ 0x4006
  dev : s.sys.dev = .idle ∨ s.sys.dev = .run
  still : ∀ n < 8, s.bistOctads b / 2 ^ n % 2 = 1 → (s.oct n).state.still = true ∨ (s.oct n).state = .fenced
  idle : s.sys.bist.busy = false
  cool : s.epl.enforce = false

theorem State.startBist_runs (h : s.BistMayRun b) :
    s.startBist b q = (({ s with sys := { s.sys with bist := bistOf b q } } : State).startSegment b, none) := by
  obtain ⟨⟨h9, hA, h6⟩, hdev, hstill, hidle, hcool⟩ := h
  have hall : ((List.range 8).all fun n => s.bistOctads b / 2 ^ n % 2 == 0 || (s.oct n).state.still || (s.oct n).state == .fenced) = true := by
    refine List.all_eq_true.mpr fun n hn => ?_
    have hn8 := List.mem_range.mp hn
    rcases Nat.mod_two_eq_zero_or_one (s.bistOctads b / 2 ^ n) with h0 | h1
    · simp [h0]
    · rcases hstill n hn8 h1 with h | h <;> simp [h]
  unfold State.startBist
  dsimp only
  rw [if_neg (by omega), if_neg (by rcases hdev with h | h <;> simp [hall, h]), if_neg (by simp [hidle, hcool]), if_neg (fun h => h6 h.1)]
  rfl

end

/-- A block that may run starts; its descriptor waits. -/
theorem State.Ready.startsBist {s : State} {h : Hdr} {body : Body} {b : Nat} {q : Bool} (hr : s.Ready 0 h body) (hb : ∀ p, body ≠ .modeChange p)
    (hc : ∀ u : State, u.carryOut (s.descOf 0 h body) false = finishOrWait (s.descOf 0 h body) false .bist (u.startBist b q))
    (hrun : s.BistMayRun b) {t : State} (ht : t = s.submit 0 h body) :
    t.sys.bist = { bistOf b q with startAt := s.now } ∧ t.hif.waiting = s.hif.waiting ++ [⟨s.descOf 0 h body, .bist, false⟩]
      ∧ t.sys.dev = s.sys.dev ∧ t.staging = s.staging ∧ t.bel = s.bel ∧ t.ps = s.ps ∧ t.kp = s.kp ∧ t.time = s.time := by
  rw [State.submit_carried hr hb, State.taken_eq, hc] at ht
  generalize (s.taken 0 h body).rings = rg at ht
  have hrun' : ({ s with rings := rg } : State).BistMayRun b := ⟨hrun.row, hrun.dev, hrun.still, hrun.idle, hrun.cool⟩
  rw [State.startBist_runs hrun'] at ht
  have hf := State.startSegment_frame { s with rings := rg, sys := { s.sys with bist := bistOf b q } } b
  generalize State.startSegment _ b = u at ht hf
  unfold SegmentFrame at hf
  rw [ht]
  unfold finishOrWait
  dsimp only
  rw [hf]
  exact ⟨rfl, rfl, rfl, rfl, rfl, rfl, rfl, rfl⟩

/-- Settles O22: a block of the boot groups is refused, one that meets the conditions of R550 starts its segment. -/
theorem bistStartsItsBlock : Obligations.BistStartsItsBlock := by
  unfold Obligations.BistStartsItsBlock
  have hne : ∀ {b : BitVec 16} {k : Nat} (hk : k < 65536), b ≠ BitVec.ofNat 16 k → b.toNat ≠ k := fun hk h hb =>
    h (BitVec.eq_of_toNat_eq (by rw [hb, BitVec.toNat_ofNat, Nat.mod_eq_of_lt hk]))
  refine ⟨fun h b s hr => ⟨_, rfl, fun hboot => ?_, fun h9 hA h6 hdev hstill hidle hcool => ?_⟩,
    fun h b s hr h9 hA h6 hdev hstill hidle hcool => ⟨_, rfl, ?_⟩⟩
  · have hb : b.toNat = 0x4009 ∨ b.toNat = 0x400A := hboot.imp (fun h => by rw [h]; rfl) (fun h => by rw [h]; rfl)
    exact hr.completesTo s (st := .refused) (res := 0) (by decide) (by simp)
      (fun rg => by
        show finishOrWait _ false _ (({ s with rings := rg } : State).startBist b.toNat false) = _
        rw [State.startBist_boot hb]
        rfl) (fun _ _ => rfl) rfl (by decide)
  · exact hr.startsBist (q := false) (by simp) (fun u => rfl)
      ⟨⟨hne (by decide) h9, hne (by decide) hA, hne (by decide) h6⟩, hdev, hstill, hidle, hcool⟩ rfl
  · exact hr.startsBist (q := true) (by simp) (fun u => rfl)
      ⟨⟨hne (by decide) h9, hne (by decide) hA, hne (by decide) h6⟩, hdev, hstill, hidle, hcool⟩ rfl

end Sys2Proof.Machine
end
section
/-! SUPPORT. PSET_NONCE, PSET_COMMIT and KEY_CHANGE. -/

namespace Sys2Proof.Machine

/-- A write of a partition changes the memory's bookkeeping alone, and depends on nothing else. -/
theorem State.writePart_acts (p : Part) (g : Nat) (content : List Byte) :
    ∃ f : Belfry → Belfry, ∀ s : State, s.writePart p g content = { s with bel := f s.bel } := by
  refine ⟨fun b => (({ State.reset with bel := b } : State).writePart p g content).bel, fun s => ?_⟩
  unfold State.writePart
  dsimp only
  split <;> rfl

theorem State.dropWrite_acts (p : Part) : ∃ f : Belfry → Belfry, ∀ s : State, s.dropWrite p = { s with bel := f s.bel } := by
  refine ⟨fun b => (({ State.reset with bel := b } : State).dropWrite p).bel, fun s => ?_⟩
  unfold State.dropWrite
  dsimp only
  split <;> rfl

/-- With no commit going on a fault leaves the protection set as it is. -/
theorem RaiseFrame.ps_eq {s t : State} (h : RaiseFrame s t) (hc : s.ps.commit = none) : t.ps = s.ps := by
  have hps : t.core.ps = s.core.ps := by rw [h.core]
  have hcommit : t.ps.commit = none := by
    have : t.core.ps.commit = s.core.ps.commit := by rw [hps]
    simpa [State.core, hc] using this
  have hcore : ∀ u : State, u.ps.commit = none → u.core.ps = u.ps := fun u hu => by
    have h1 : u.core.ps = { u.ps with commit := none } := by simp [State.core, hu]
    rw [h1, ← hu]
  rw [← hcore t hcommit, ← hcore s hc, hps]

/-- The steps of a commit answer REFUSED, STATE or AUTH_FAIL where they fail. -/
def StepsAnswer (x : Except (Nat × Status × Bool) Commit) : Prop :=
  ∀ err st used, x = .error (err, st, used) → st = .refused ∨ st = .state ∨ st = .authFail

namespace StepsAnswer

theorem ok (c : Commit) : StepsAnswer (.ok c) := fun _ _ _ h => absurd h (by simp)

theorem refused (err : Nat) (used : Bool) : StepsAnswer (.error (err, .refused, used)) := fun _ _ _ h => by
  cases h
  exact .inl rfl

theorem state (err : Nat) (used : Bool) : StepsAnswer (.error (err, .state, used)) := fun _ _ _ h => by
  cases h
  exact .inr (.inl rfl)

theorem authFail (err : Nat) (used : Bool) : StepsAnswer (.error (err, .authFail, used)) := fun _ _ _ h => by
  cases h
  exact .inr (.inr rfl)

theorem ite {c : Prop} [Decidable c] {x y : Except (Nat × Status × Bool) Commit} (hx : StepsAnswer x) (hy : StepsAnswer y) :
    StepsAnswer (if c then x else y) := by
  split <;> assumption

end StepsAnswer

/-- The steps of Table 14-7. -/
theorem State.commitSteps_answer (s : State) (kind : Nat) (req : List Byte) : StepsAnswer (s.commitSteps kind req) := by
  unfold State.commitSteps
  refine .ite (.refused _ _) ?_
  split
  · exact .state _ _
  · refine .ite (.state _ _) (.ite (.authFail _ _) (.ite (.authFail _ _) (.ite (.authFail _ _) (.ite (.authFail _ _) (.ite (.authFail _ _) ?_)))))
    refine .ite (.ite (.refused _ _) (.ite (.state _ _) (.ite (.state _ _) (.ok _)))) ?_
    split
    · exact .refused _ _
    · exact .ite (.state _ _) (.ok _)

section
variable {s : State} {kind len : Nat}

/-- A second commit while one goes on (log entry 112). -/
theorem State.startCommit_busy (h : s.ps.commit.isSome = true) : s.startCommit kind len = (s.tellReject 0, some .busy) := if_pos h

/-- All steps passed: the nonce is used up and the request's write goes on. -/
theorem State.startCommit_ok {c : Commit} (hn : s.ps.commit = none) (h : s.commitSteps kind (memReadList 0 len s.staging) = .ok c) :
    s.startCommit kind len
      = ({ s with ps := { s.ps with nonce := none, commit := some c }, bel := (s.writePart .pset c.seq.toNat c.request).bel }, none) := by
  unfold State.startCommit
  rw [if_neg (by simp [hn]), h]
  obtain ⟨f, hf⟩ := State.writePart_acts .pset c.seq.toNat c.request
  dsimp only
  rw [hf, hf]

theorem State.tellReject_frame (s : State) (err : Nat) : RaiseFrame s (s.tellReject err) := State.raise_frame _ _ _ _

/-- The protection set after a step that failed. -/
def State.psRejected (s : State) (err : Nat) (used : Bool) : Pset :=
  { s.ps with nonce := if used then none else s.ps.nonce, err := BitVec.ofNat 8 err, commit := none }

/-- What a failed step changes beside the fault that tells it. -/
def State.stepFailed (s : State) (err : Nat) (used : Bool) : State :=
  { s with ps := s.psRejected err used, bel := (s.dropWrite .pset).bel }

theorem State.startCommit_error {err : Nat} {st : Status} {used : Bool} (hn : s.ps.commit = none)
    (h : s.commitSteps kind (memReadList 0 len s.staging) = .error (err, st, used)) :
    s.startCommit kind len = ((s.stepFailed err used).tellReject err, some st) := by
  unfold State.startCommit
  rw [if_neg (by simp [hn]), h]
  have hused : (if used then ({ s with ps := { s.ps with nonce := none } } : State) else s)
      = { s with ps := { s.ps with nonce := if used then none else s.ps.nonce } } := by cases used <;> rfl
  dsimp only
  rw [hused]
  obtain ⟨f, hf⟩ := State.dropWrite_acts .pset
  refine Prod.ext (congrArg (State.tellReject · err) ?_) rfl
  unfold State.stepFailed State.psRejected
  rw [hf, hf]

theorem State.stepFailed_rings (rg : Tab Ring) (err : Nat) (used : Bool) :
    ({ s with rings := rg } : State).stepFailed err used = { s.stepFailed err used with rings := rg } := by
  obtain ⟨f, hf⟩ := State.dropWrite_acts .pset
  unfold State.stepFailed
  rw [hf, hf]
  rfl

theorem State.stepFailed_told (err : Nat) (used : Bool) (rg : Tab Ring) :
    RaiseFrame { s.stepFailed err used with rings := rg } ((({ s with rings := rg } : State).stepFailed err used).tellReject err) := by
  have hu := State.stepFailed_rings (s := s) rg err used
  generalize ({ s with rings := rg } : State).stepFailed err used = u at hu ⊢
  rw [← hu]
  exact u.tellReject_frame err

theorem finishOrWait_some (d : Desc) (late : Bool) (kind : WaitKind) (s : State) (st : Status) :
    finishOrWait d late kind (s, some st) = finish d late (s, st, 0) := rfl

end

/-- What a signed request answers: the commit goes on, or the first step that failed is told. -/
theorem State.Ready.startsCommit {s : State} {h : Hdr} {b : Body} {kind len : Nat} (hr : s.Ready 0 h b) (hb : ∀ p, b ≠ .modeChange p)
    (hc : ∀ u : State, u.carryOut (s.descOf 0 h b) false = finishOrWait (s.descOf 0 h b) false .pset (u.startCommit kind len))
    (hn : s.ps.commit = none) {t : State} (ht : t = s.submit 0 h b) :
    match s.commitSteps kind (memReadList 0 len s.staging) with
    | .ok c => t = { s with
          ps := { s.ps with nonce := none, commit := some c }
          bel := (s.writePart .pset c.seq.toNat c.request).bel
          hif := { s.hif with waiting := s.hif.waiting ++ [⟨s.descOf 0 h b, .pset, false⟩] }
          rings := t.rings }
    | .error (err, st, used) =>
      t.ps = { s.ps with nonce := if used then none else s.ps.nonce, err := BitVec.ofNat 8 err, commit := none }
      ∧ (st = .refused ∨ st = .state ∨ st = .authFail → s.answered t 0 h b st 0 0)
      ∧ RaiseFrame { s with rings := t.rings, ps := t.ps, bel := (s.dropWrite .pset).bel } t := by
  subst ht
  have hrg : ∀ rg, ({ s with rings := rg } : State).commitSteps kind (memReadList 0 len s.staging)
      = s.commitSteps kind (memReadList 0 len s.staging) := fun _ => rfl
  generalize hx : s.commitSteps kind (memReadList 0 len s.staging) = x at hrg
  match x with
  | .ok c =>
    obtain ⟨f, hf⟩ := State.writePart_acts .pset c.seq.toNat c.request
    dsimp only
    rw [hf]
    exact hr.waits { s with
        ps := { s.ps with nonce := none, commit := some c }
        bel := f s.bel
        hif := { s.hif with waiting := s.hif.waiting ++ [⟨s.descOf 0 h b, .pset, false⟩] } } hb
      (fun rg => by
        rw [hc, State.startCommit_ok (s := { s with rings := rg }) hn (hrg rg), hf]
        rfl)
  | .error (err, st, used) =>
    have hst := s.commitSteps_answer kind _ err st used hx
    have hok : st ≠ .ok := by rcases hst with h | h | h <;> rw [h] <;> decide
    have hlate : st ≠ .late := by rcases hst with h | h | h <;> rw [h] <;> decide
    obtain ⟨hans, hframe, -⟩ := hr.completesRaise (st := st) (res := 0) (s.stepFailed err used) (fun u => (u.stepFailed err used).tellReject err)
      (by decide) hb (fun rg => by
        have hstart := State.startCommit_error (s := { s with rings := rg }) hn (hrg rg)
        rw [hc, hstart]
        exact finishOrWait_some ..) (State.stepFailed_told err used) (fun _ _ => rfl) rfl hlate
    rw [if_neg hok] at hans
    have hps := hframe.ps_eq rfl
    refine ⟨hps, fun _ => hans, ?_⟩
    rw [hps]
    exact hframe

/-- A nonce drawn for the next sequence number and given to the host. -/
def State.nonceDrawn (s : State) (addr : BitVec 64) : State :=
  { s with
    free := s.free + 1
    ps := { s.ps with nonce := some (Config.random128 s.free, nextSeq s.ps.seq, s.now) }
    out := s.out ++ [.hostWrite addr (leBytes 16 (Config.random128 s.free).toNat ++ leBytes 4 (nextSeq s.ps.seq).toNat)] }

theorem State.doPsetNonce_eq (s : State) (b : Buf) : s.doPsetNonce b = (s.nonceDrawn b.addr, .ok, 0) := rfl

/-- A PSET_NONCE of another length is refused by its form (check 2 of R357). -/
theorem descCheck_psetNonce {s : State} {h : Hdr} {b : Buf} (hl : b.len ≠ 20) : s.descCheck 0 h (.psetNonce b) = some .refused :=
  descCheck_of_ill_formed rfl (by simp only [descWell, bodyRanges, beq_eq_false_iff_ne.mpr hl, Bool.false_and])

/-- Settles O23: the nonce is drawn or refused by its form; the two signed requests share `startsCommit`. -/
theorem nonceAndCommitSteps : Obligations.NonceAndCommitSteps := by
  unfold Obligations.NonceAndCommitSteps
  refine ⟨⟨fun h b s hr => ⟨_, rfl, ?_⟩, fun h b s htake hhalt hl => ⟨_, rfl, ?_⟩⟩, fun h len s hr hn => ⟨_, rfl, ?_⟩,
    fun h len c b s hcb hr hbusy => ?_, fun h len s hr hn => ⟨_, rfl, ?_⟩⟩
  · obtain ⟨hans, heq⟩ := hr.completesTo (s.nonceDrawn b.addr) (st := .ok) (res := 0) (by decide) (by simp) (fun rg => rfl) (fun _ _ => rfl) rfl
      (by decide)
    obtain ⟨-, rg, -, hpre⟩ := hr.completesBy (fun u => u.nonceDrawn b.addr) (st := .ok) (res := 0) (by decide) (by simp) (fun rg => rfl)
      (fun _ => rfl) (fun _ _ _ => rfl) (fun _ => rfl) (by decide)
    generalize s.submit 0 h (.psetNonce b) = t at hans heq hpre
    have hps : t.ps = (s.nonceDrawn b.addr).ps := by rw [heq]
    refine ⟨hans, hps, hpre.subset (List.mem_append_right _ (List.mem_singleton.mpr rfl)), ?_⟩
    rw [hps]
    exact heq
  · rw [State.submit_of_canTake htake]
    have hin : (s.entered 0).intake (s.descOf 0 h (.psetNonce b)) = (s.entered 0).complete (s.descOf 0 h (.psetNonce b)) .refused 0 0 := by
      unfold State.intake
      rw [show (s.entered 0).descCheck (s.descOf 0 h (.psetNonce b)).ring (s.descOf 0 h (.psetNonce b)).hdr (s.descOf 0 h (.psetNonce b)).body
        = some .refused from descCheck_psetNonce hl]
      exact State.turnAway_eq (show bodyCode (.psetNonce b) ≠ 0x31 from by simp [bodyCode])
    rw [hin]
    obtain ⟨hans, -, hro⟩ := State.entered_complete (s := s) (r := 0) (h := h) (b := .psetNonce b) (st := .refused) (frame := 0) (res := 0)
      (by decide) htake hhalt
    exact ⟨hans, hro⟩
  · exact hr.startsCommit (by simp) (fun _ => rfl) hn rfl
  · have hdone : ∀ kind, (∀ u : State, u.carryOut (s.descOf 0 h b) false = finishOrWait (s.descOf 0 h b) false .pset (u.startCommit kind len.toNat)) →
        (∀ p, b ≠ .modeChange p) → s.answered (s.submit 0 h b) 0 h b .busy 0 0 ∧ (s.submit 0 h b).bel = s.bel
          ∧ RaiseFrame { s with rings := (s.submit 0 h b).rings } (s.submit 0 h b) := fun kind hc hb => by
      obtain ⟨hans, hframe, -⟩ := hr.completesRaise s (fun u => u.tellReject 0) (st := .busy) (res := 0) (by decide) hb
        (fun rg => by rw [hc, State.startCommit_busy (s := { s with rings := rg }) hbusy]; rfl) (fun rg => State.tellReject_frame _ _)
        (fun _ _ => rfl) rfl (by decide)
      exact ⟨hans, hframe.bel_eq, hframe⟩
    rcases hcb with ⟨rfl, rfl⟩ | ⟨rfl, rfl⟩
    · exact ⟨_, rfl, hdone 1 (fun _ => rfl) (by simp)⟩
    · exact ⟨_, rfl, hdone 2 (fun _ => rfl) (by simp)⟩
  · exact hr.startsCommit (by simp) (fun _ => rfl) hn rfl

end Sys2Proof.Machine
end
section
/-! SUPPORT. ATTEST and FW_INSTALL. -/

namespace Sys2Proof.Machine

/-- A ready descriptor that is answered at once, with no other effect, adds its completion alone to what leaves the block. -/
theorem State.Ready.answer_length {s : State} {r : Nat} {h : Hdr} {b : Body} {st : Status} {res : Nat} (hr : s.Ready r h b)
    (hb : ∀ p, b ≠ .modeChange p)
    (hc : ∀ rg, ({ s with rings := rg } : State).carryOut (s.descOf r h b) false
      = finish (s.descOf r h b) false ({ s with rings := rg }, st, res)) : (s.submit r h b).out.length = s.out.length + 1 := by
  rw [State.submit_carried hr hb, State.taken_eq, hc]
  have hhalt : ((s.taken r h b).ring (10 + r)).halt = false := by
    rw [State.taken_ring_comp]
    exact hr.runs
  have hen := State.ringEn_of_canTake hr.takes
  generalize hrg : (s.taken r h b).rings = rg
  rw [State.ring, hrg] at hhalt
  obtain ⟨o, ho⟩ := State.complete_out_eq (s := { s with rings := rg }) (d := s.descOf r h b) hhalt hen st
      (if st = .ok ∨ st = .late then s.fr.k else 0) res
  have hfin : finish (s.descOf r h b) false ({ s with rings := rg }, st, res)
      = ({ s with rings := rg } : State).complete (s.descOf r h b) st (if st = .ok ∨ st = .late then s.fr.k else 0) res := by
    simp [finish, State.completeNow]
  rw [hfin, ho, List.length_append]
  rfl

theorem State.writePart_write (s : State) (p : Part) (g : Nat) (content : List Byte) :
    ∃ w ∈ (s.writePart p g content).bel.writes, w.part = p ∧ w.content = content := by
  unfold State.writePart
  dsimp only
  split
  · rename_i h
    obtain ⟨w, hw, hp⟩ := List.any_eq_true.mp h
    have hp : w.part = p := by simpa using hp
    exact ⟨_, List.mem_map.mpr ⟨w, hw, if_pos hp⟩, hp, rfl⟩
  · exact ⟨_, List.mem_append_right _ (List.mem_singleton.mpr rfl), rfl, rfl⟩

section
variable {s : State} {b : Buf} {ch : BitVec 64}

theorem State.doAttest_quote (h : b.len = 1440) : s.doAttest b ch = (s.emit (.hostWrite b.addr (s.quote ch)), .ok, 0) := if_pos h

theorem State.doAttest_certificate (h : b.len = 4540) :
    s.doAttest b ch = (s.emit (.hostWrite b.addr (s.quote ch ++ s.certificate)), .ok, 0) := by
  unfold State.doAttest
  rw [if_neg (by rw [h]; decide), if_pos h]

theorem State.doAttest_refused (h : b.len ≠ 1440) (h' : b.len ≠ 4540) : s.doAttest b ch = (s, .refused, 0) := by
  unfold State.doAttest
  rw [if_neg h, if_neg h']

end

/-- An ATTEST that writes bytes to its buffer. -/
theorem State.Ready.attests {s : State} {h : Hdr} {b : Buf} {ch : BitVec 64} {bs : State → List Byte} (hr : s.Ready 0 h (.attest b ch))
    (hc : ∀ u : State, u.doAttest b ch = (u.emit (.hostWrite b.addr (bs u)), .ok, 0)) (hbs : ∀ rg, bs { s with rings := rg } = bs s) :
    s.answered (s.submit 0 h (.attest b ch)) 0 h (.attest b ch) .ok s.fr.k 0
      ∧ .hostWrite b.addr (bs s) ∈ (s.submit 0 h (.attest b ch)).out
      ∧ s.submit 0 h (.attest b ch) = { s with out := (s.submit 0 h (.attest b ch)).out, rings := (s.submit 0 h (.attest b ch)).rings } := by
  obtain ⟨hans, rg, hro, hpre⟩ := hr.completesBy (fun u => u.emit (.hostWrite b.addr (bs u))) (st := .ok) (res := 0) (by decide) (by simp)
    (fun rg => by
      show finish _ false (({ s with rings := rg } : State).doAttest b ch) = _
      rw [hc]) (fun _ => rfl) (fun _ _ _ => rfl) (fun _ => rfl) (by decide)
  refine ⟨hans, hpre.subset (List.mem_append_right _ ?_), hro.trans rfl⟩
  rw [hbs]
  exact List.mem_singleton.mpr rfl

/-! ### FW_INSTALL -/

section
variable {s : State} {slot len : Nat} {img : List Byte} {own : Bool}

/-- The owner's flag of a well-formed image is byte 3. -/
theorem fwShape_own (h : fwShape img = some own) : own = (leAt img 3 1 == 1) := by
  unfold fwShape at h
  dsimp only at h
  rw [Option.ite_none_left_eq_some] at h
  exact (Option.some.inj h.2).symm

theorem State.doFwInstall_running (h : s.ps.fwRunning = some slot) : s.doFwInstall slot len = (s, some .state) := if_pos h

theorem State.doFwInstall_malformed (h : s.ps.fwRunning ≠ some slot) (hs : fwShape (memReadList 0 len s.staging) = none) :
    s.doFwInstall slot len = (s, some .refused) := by
  unfold State.doFwInstall
  dsimp only
  rw [if_neg h, hs]

theorem State.doFwInstall_unsigned (h : s.ps.fwRunning ≠ some slot) (hs : fwShape (memReadList 0 len s.staging) = some own)
    (hg : s.fwSigned (memReadList 0 len s.staging) = false) : s.doFwInstall slot len = (s, some .authFail) := by
  unfold State.doFwInstall
  dsimp only
  rw [if_neg h, hs]
  dsimp only
  rw [if_pos (by rw [hg]; rfl)]

theorem State.doFwInstall_old (h : s.ps.fwRunning ≠ some slot) (hs : fwShape (memReadList 0 len s.staging) = some own)
    (hg : s.fwSigned (memReadList 0 len s.staging) = true) (hf : leAt (memReadList 0 len s.staging) 12 1 < s.ps.svnFloor) :
    s.doFwInstall slot len = (s, some .refused) := by
  unfold State.doFwInstall
  dsimp only
  rw [if_neg h, hs]
  dsimp only
  rw [if_neg (by rw [hg]; simp), if_pos hf]

theorem State.doFwInstall_ok (h : s.ps.fwRunning ≠ some slot) (hs : fwShape (memReadList 0 len s.staging) = some own)
    (hg : s.fwSigned (memReadList 0 len s.staging) = true) (hf : s.ps.svnFloor ≤ leAt (memReadList 0 len s.staging) 12 1)
    (hn : s.nvmHeld = false) :
    s.doFwInstall slot len = (s.writePart (if slot = 0 then .fw0 else .fw1) 1 (memReadList 0 len s.staging), none) := by
  unfold State.doFwInstall
  dsimp only
  rw [if_neg h, hs]
  dsimp only
  rw [if_neg (by rw [hg]; simp), if_neg (by omega), if_neg (by simp [hn])]

/-- An image that Askica's key, and the owner's where its slot is ACTIVE, have signed. -/
theorem State.fwSigned_of (hs : fwShape img = some own) (hk : shake256 Config.askicaKey = s.ps.askicaDigest)
    (hv : Config.falconVerify Config.askicaKey (shake512 (img.take (64 + leAt img 4 4))) (slice img (64 + leAt img 4 4) 1280) = true)
    (ho : s.ps.owner.state = .active → own = true
      ∧ Config.falconVerify (slice img (64 + leAt img 4 4 + 1280) 1793) (shake512 (img.take (64 + leAt img 4 4)))
        (slice img (64 + leAt img 4 4 + 1280 + 1793) 1280) = true
      ∧ shake256 (slice img (64 + leAt img 4 4 + 1280) 1793) = s.ps.owner.digest) : s.fwSigned img = true := by
  unfold State.fwSigned State.askicaOk
  dsimp only
  rw [hv, hk, beq_self_eq_true, Bool.true_and, Bool.true_and]
  cases hst : s.ps.owner.state != .active with
  | true => rfl
  | false =>
    obtain ⟨hown, hver, hdig⟩ := ho (by simpa using hst)
    have hfl : (leAt img 3 1 == 1) = true := (fwShape_own hs).symm.trans hown
    simp only [fwOwnerOk, fwOwnerKey, hfl, hver, hdig, beq_self_eq_true, Bool.and_self, Bool.or_true]

theorem State.fwSigned_of_bad_signature
    (hv : Config.falconVerify Config.askicaKey (shake512 (img.take (64 + leAt img 4 4))) (slice img (64 + leAt img 4 4) 1280) = false) :
    s.fwSigned img = false := by
  unfold State.fwSigned
  dsimp only
  rw [hv, Bool.and_false, Bool.false_and]

theorem State.fwSigned_of_bad_key (hk : shake256 Config.askicaKey ≠ s.ps.askicaDigest) : s.fwSigned img = false := by
  unfold State.fwSigned State.askicaOk
  dsimp only
  rw [beq_eq_false_iff_ne.mpr hk, Bool.false_and, Bool.false_and]

theorem State.fwSigned_of_no_owner (hs : fwShape img = some false) (ho : s.ps.owner.state = .active) : s.fwSigned img = false := by
  unfold State.fwSigned fwOwnerOk
  dsimp only
  rw [← fwShape_own hs, ho]
  simp

end

/-- An FW_INSTALL that is answered at once, with no effect. -/
theorem State.Ready.fwAnswers {s : State} {h : Hdr} {sl : Byte} {len : Word} {st : Status} (hr : s.Ready 0 h (.fwInstall sl len))
    (hd : ∀ rg, ({ s with rings := rg } : State).doFwInstall sl.toNat len.toNat = ({ s with rings := rg }, some st)) (hst : st ≠ .late)
    (hok : st ≠ .ok) : s.answered (s.submit 0 h (.fwInstall sl len)) 0 h (.fwInstall sl len) st 0 0
      ∧ s.submit 0 h (.fwInstall sl len)
        = { s with out := (s.submit 0 h (.fwInstall sl len)).out, rings := (s.submit 0 h (.fwInstall sl len)).rings } := by
  have := hr.completesTo s (st := st) (res := 0) (by decide) (by simp)
    (fun rg => by
      show finishOrWait _ false _ (({ s with rings := rg } : State).doFwInstall sl.toNat len.toNat) = _
      rw [hd]
      exact finishOrWait_some ..) (fun _ _ => rfl) rfl hst
  rwa [if_neg hok] at this

/-- Settles O24: ATTEST by the three lengths, FW_INSTALL by the first of its checks that fails. -/
theorem attestAndFirmwareInstall : Obligations.AttestAndFirmwareInstall := by
  unfold Obligations.AttestAndFirmwareInstall
  refine ⟨fun h b ch s hr => ⟨_, rfl, ?_⟩, fun h sl len img own s hr himg hrun hshape hk hv ho => ⟨_, rfl, fun hf hn => ?_, fun hf => ?_⟩,
    fun h sl len s hr => ⟨_, rfl, fun hrun => ?_, fun hrun hs => ?_, fun own hrun hs hv => ?_, fun own hrun hs hk => ?_, fun hrun hs ho => ?_⟩⟩
  · have hquote := fun hl : b.len = 1440 => hr.attests (bs := fun u => u.quote ch) (fun u => State.doAttest_quote hl) (fun _ => rfl)
    have hcert := fun hl : b.len = 4540 => hr.attests (bs := fun u => u.quote ch ++ u.certificate) (fun u => State.doAttest_certificate hl)
      (fun _ => rfl)
    have hno := fun (hl : b.len ≠ 1440) (hl' : b.len ≠ 4540) rg => show
        finish (s.descOf 0 h (.attest b ch)) false (({ s with rings := rg } : State).doAttest b ch)
          = finish (s.descOf 0 h (.attest b ch)) false ({ s with rings := rg }, .refused, 0) by rw [State.doAttest_refused hl hl']
    have hrefused := fun (hl : b.len ≠ 1440) (hl' : b.len ≠ 4540) => hr.completesTo s (st := .refused) (res := 0) (by decide) (by simp)
      (hno hl hl') (fun _ _ => rfl) rfl (by decide)
    refine ⟨?_, fun hl => ⟨(hquote hl).1, (hquote hl).2.1⟩, fun hl => ⟨(hcert hl).1, (hcert hl).2.1⟩,
      fun hl hl' => ⟨(hrefused hl hl').1, hr.answer_length (by simp) (hno hl hl')⟩⟩
    by_cases hl : b.len = 1440
    · exact (hquote hl).2.2
    · by_cases hl' : b.len = 4540
      · exact (hcert hl').2.2
      · exact (hrefused hl hl').2
  · subst himg
    have hsl : (if sl.toNat = 0 then Part.fw0 else .fw1) = if sl = 0 then .fw0 else .fw1 := by
      congr 1
      exact propext ⟨fun hz => BitVec.eq_of_toNat_eq hz, fun hz => by rw [hz]; rfl⟩
    obtain ⟨f, hfw⟩ := State.writePart_acts (if sl = 0 then .fw0 else .fw1) 1 (memReadList 0 len.toNat s.staging)
    have heq := hr.waits { s with
        bel := (s.writePart (if sl = 0 then .fw0 else .fw1) 1 (memReadList 0 len.toNat s.staging)).bel
        hif := { s.hif with waiting := s.hif.waiting ++ [⟨s.descOf 0 h (.fwInstall sl len), .fw, false⟩] } } (by simp)
      (fun rg => by
        show finishOrWait _ false _ (({ s with rings := rg } : State).doFwInstall sl.toNat len.toNat) = _
        rw [State.doFwInstall_ok (s := { s with rings := rg }) hrun hshape (State.fwSigned_of hshape hk hv ho) hf hn, hsl]
        rw [hfw, hfw]
        rfl)
    refine ⟨heq, ?_⟩
    rw [heq]
    exact s.writePart_write _ _ _
  · subst himg
    exact hr.fwAnswers (fun rg => State.doFwInstall_old (s := { s with rings := rg }) hrun hshape (State.fwSigned_of hshape hk hv ho) hf)
      (by decide) (by decide)
  · exact hr.fwAnswers (fun rg => State.doFwInstall_running (s := { s with rings := rg }) hrun) (by decide) (by decide)
  · exact hr.fwAnswers (fun rg => State.doFwInstall_malformed (s := { s with rings := rg }) hrun hs) (by decide) (by decide)
  · exact hr.fwAnswers (fun rg => State.doFwInstall_unsigned (s := { s with rings := rg }) hrun hs (State.fwSigned_of_bad_signature hv))
      (by decide) (by decide)
  · exact hr.fwAnswers (fun rg => State.doFwInstall_unsigned (s := { s with rings := rg }) hrun hs (State.fwSigned_of_bad_key hk))
      (by decide) (by decide)
  · exact hr.fwAnswers (fun rg => State.doFwInstall_unsigned (s := { s with rings := rg }) hrun hs (State.fwSigned_of_no_owner hs ho))
      (by decide) (by decide)

end Sys2Proof.Machine
end
section
/-! SUPPORT. The bits of a word that one field is put into; the steps of a register write (R558) that ignore it. -/

namespace Sys2Proof.Machine

/-! ### Fields by their bits -/

theorem field_testBit (w lo len j : Nat) : (field w lo len).testBit j = (decide (j < len) && w.testBit (lo + j)) := by
  rw [field, Nat.testBit_mod_two_pow, Nat.testBit_div_two_pow, Nat.add_comm]

/-- A field put: its bits are the value's, the others stay. -/
theorem putField_testBit (w lo len v j : Nat) :
    (putField w lo len v).testBit j = if lo ≤ j ∧ j < lo + len then v.testBit (j - lo) else w.testBit j := by
  have hw : w = 2 ^ lo * (2 ^ len * (w / 2 ^ (lo + len)) + field w lo len) + w % 2 ^ lo := by
    rw [Nat.pow_add, ← Nat.div_div_eq_div_mul, field, Nat.div_add_mod, Nat.div_add_mod]
  have hlo : w % 2 ^ lo < 2 ^ lo := Nat.mod_lt _ (Nat.two_pow_pos lo)
  have hlen : ∀ x, x % 2 ^ len < 2 ^ len := fun x => Nat.mod_lt _ (Nat.two_pow_pos len)
  have hput : putField w lo len v = 2 ^ lo * (2 ^ len * (w / 2 ^ (lo + len)) + v % 2 ^ len) + w % 2 ^ lo := by
    generalize hq : 2 ^ len * (w / 2 ^ (lo + len)) = q at hw ⊢
    generalize hf : field w lo len = f at hw
    rw [putField, hf]
    rw [Nat.mul_add] at hw ⊢
    rw [Nat.mul_comm f, Nat.mul_comm (v % 2 ^ len)]
    omega
  have hold : w.testBit j = (2 ^ lo * (2 ^ len * (w / 2 ^ (lo + len)) + field w lo len) + w % 2 ^ lo).testBit j := by rw [← hw]
  rw [hput, hold, Nat.testBit_two_pow_mul_add _ hlo, Nat.testBit_two_pow_mul_add _ hlo, Nat.testBit_two_pow_mul_add _ (hlen v),
    Nat.testBit_two_pow_mul_add _ (show field w lo len < 2 ^ len from hlen _), Nat.testBit_mod_two_pow]
  by_cases hj : j < lo
  · simp [hj, Nat.not_le.mpr hj]
  · by_cases hl : j - lo < len
    · have : lo ≤ j ∧ j < lo + len := by omega
      simp [hj, hl, this]
    · have : ¬ (lo ≤ j ∧ j < lo + len) := by omega
      simp [hj, hl, this]

/-- One bit set. -/
theorem putField_one (w : Word) (i : Nat) : BitVec.ofNat 32 (putField w.toNat i 1 1) = w ||| BitVec.twoPow 32 i := by
  refine BitVec.eq_of_getLsbD_eq fun j hj => ?_
  rw [BitVec.getLsbD_ofNat, putField_testBit, BitVec.getLsbD_or, BitVec.getLsbD_twoPow]
  by_cases hji : i = j
  · subst hji
    simp [hj]
  · have : ¬ (i ≤ j ∧ j < i + 1) := by omega
    rw [if_neg this]
    simp [hj, hji, BitVec.testBit_toNat]

theorem fieldOf_bit (w : Word) (i : Nat) : fieldOf w i 1 = bit (w.getLsbD i) := by
  rw [fieldOf, field, ← BitVec.testBit_toNat, Nat.testBit_eq_decide_div_mod_eq]
  rcases Nat.mod_two_eq_zero_or_one (w.toNat / 2 ^ i) with h | h <;> simp [h, bit]

/-! ### One flag -/

/-- A flag that hardware sets. -/
theorem State.flag_flagged {s : State} (h : s.canonical) (a : Nat) (i : Nat) : s.flagged (s.flag a i) a i := by
  refine ⟨?_, fun b hb => s.reg_flag_ne hb i, rfl⟩
  rw [← putField_one]
  exact State.reg_setReg_same h.1 a _

theorem State.cfgErr_flagged {s : State} (h : s.canonical) (r : RegRef) : s.flagged (s.cfgErr r) (cfgErrAt r).1 (cfgErrAt r).2 :=
  s.flag_flagged h _ _

theorem State.accErr_flagged {s : State} (h : s.canonical) (e : AccErr) : s.flagged (s.accErr e) 0x108 e.bit :=
  s.flag_flagged h _ _

/-! ### The steps of a host write -/

section
variable {s : State} {ofs : Nat} {v : Word} {be : BitVec 4}

theorem State.hostWrite_lockout (hr : s.hostReach = true) (h : s.sys.dev = .lockout) : s.hostWrite ofs v be = s.accErr .locked := by
  unfold State.hostWrite
  rw [if_neg (by simp [hr]), if_pos h]

theorem State.hostWrite_before_idle (hr : s.hostReach = true) (h : s.sys.dev = .boot ∨ s.sys.dev = .selftest) (hb : inBlock ofs 1 = false) :
    s.hostWrite ofs v be = s.accErr .locked := by
  unfold State.hostWrite
  rw [if_neg (by simp [hr]), if_neg (by rcases h with h | h <;> rw [h] <;> decide),
    if_pos (by rcases h with h | h <;> rw [h, hb] <;> decide)]

theorem State.hostWrite_size (hr : s.hostReach = true) (h : s.sys.dev = .idle ∨ s.sys.dev = .run) (hb : be ≠ 15) :
    s.hostWrite ofs v be = s.accErr .size := by
  unfold State.hostWrite
  rw [if_neg (by simp [hr]), if_neg (by rcases h with h | h <;> rw [h] <;> decide), if_neg (by rcases h with h | h <;> simp [h]), if_pos hb]

theorem State.hostWrite_undefined (hr : s.hostReach = true) (h : s.sys.dev = .idle ∨ s.sys.dev = .run) (hf : regAt ofs = none) :
    s.hostWrite ofs v 15 = if inImage ofs then s else s.accErr .undef := by
  unfold State.hostWrite
  rw [if_neg (by simp [hr]), if_neg (by rcases h with h | h <;> rw [h] <;> decide), if_neg (by rcases h with h | h <;> simp [h]),
    if_neg (by decide), hf]

theorem State.hostWrite_found {r : RegRef} (hr : s.hostReach = true) (h : s.sys.dev = .idle ∨ s.sys.dev = .run) (hf : regAt ofs = some r) :
    s.hostWrite ofs v 15 = s.takeWrite r v := by
  unfold State.hostWrite
  rw [if_neg (by simp [hr]), if_neg (by rcases h with h | h <;> rw [h] <;> decide), if_neg (by rcases h with h | h <;> simp [h]),
    if_neg (by decide), hf]

theorem State.takeWrite_driven {r : RegRef} (hk : s.kingpostDrives r = true) : s.takeWrite r v = s := by
  unfold State.takeWrite
  dsimp only
  rw [if_pos hk]

theorem State.takeWrite_range {r : RegRef} (hk : s.kingpostDrives r = false) (h : ∃ f ∈ r.df.fields, Fld.inRange f v = false) :
    s.takeWrite r v = s.cfgErr r := by
  have hall : r.df.fields.all (Fld.inRange · v) = false := by
    obtain ⟨f, hf, hv⟩ := h
    exact List.all_eq_false.mpr ⟨f, hf, by simp [hv]⟩
  unfold State.takeWrite
  dsimp only
  rw [if_neg (by simp [hk]), if_pos (by simp [hall])]

theorem State.takeWrite_locked {r : RegRef} (hk : s.kingpostDrives r = false) (h : ∀ f ∈ r.df.fields, Fld.inRange f v = true)
    (hr : s.rangeOk r (s.takenWord r v) = true) (hl : s.lockOk r v (s.takenWord r v) = false) : s.takeWrite r v = s.lockedOut r := by
  have hall : r.df.fields.all (Fld.inRange · v) = true := List.all_eq_true.mpr h
  unfold State.takenWord at hr hl
  unfold State.takeWrite
  dsimp only
  rw [if_neg (by simp [hk]), if_neg (by simp [hall, hr]), if_pos (by simp [hl])]

end

/-- A unit's register whose lock (Table 19-13) holds. -/
def State.LockHolds (s : State) (r : RegRef) (v : Word) : Prop :=
  (r.df.name = .octCtype ∧ (s.oct r.own).state.still = false) ∨ (r.df.name = .tilCtmap ∧ (s.oct (r.own / 8)).state.still = false)
    ∨ (r.df.name = .lnkAsym ∧ (s.oct (r.own / 16)).state.still = false)
    ∨ ((r.df.name = .hifDblo ∨ r.df.name = .hifDbhi) ∧ s.hifEn = true)
    ∨ ((r.df.name = .hifRbaselo ∨ r.df.name = .hifRbasehi) ∧ s.ringEn r.idx = true)
    ∨ (r.df.name = .clkHop ∧ s.pointBusy r.idx = true)
    ∨ (r.df.name = .tsOrgctl ∧ v.getLsbD 0 = true ∧ (s.allStill = false ∨ s.writtenOrigin ≤ s.time.dt))

theorem State.LockHolds.refuses {s : State} {r : RegRef} {v : Word} (h : s.LockHolds r v) (w : Word) :
    s.kingpostDrives r = false ∧ s.lockOk r v w = false := by
  unfold State.kingpostDrives State.lockOk
  rcases h with ⟨hn, hs⟩ | ⟨hn, hs⟩ | ⟨hn, hs⟩ | ⟨hn | hn, hs⟩ | ⟨hn | hn, hs⟩ | ⟨hn, hs⟩ | ⟨hn, hv, hs⟩ <;> simp only [hn]
  case inr.inr.inr.inr.inr.inr =>
    refine ⟨trivial, ?_⟩
    rw [fieldOf_bit, hv]
    rcases hs with hs | hs
    · simp [hs, bit]
    · simp [Nat.not_lt.mpr hs, bit]
  all_goals simp [hs]

theorem State.lockedOut_flagged {s : State} (h : s.canonical) (r : RegRef) :
    if r.df.name = .tsOrgctl then s.flagged (s.lockedOut r) 0x300068 2 else s.flagged (s.lockedOut r) (cfgErrAt r).1 (cfgErrAt r).2 := by
  unfold State.lockedOut
  split
  · exact s.flag_flagged h _ _
  · exact s.cfgErr_flagged h r

/-- Settles O25: one lemma per step of R558, and the flag of each in a canonical state. -/
theorem registerWriteStopsAtItsFirstFailedStep : Obligations.RegisterWriteStopsAtItsFirstFailedStep := by
  unfold Obligations.RegisterWriteStopsAtItsFirstFailedStep
  refine ⟨fun ofs v be s hs hr => ⟨s.hostWrite ofs.toNat v be, rfl, fun h => ?_, fun h hb => ?_, fun h hbe => ?_, fun h hbe hf hi => ?_,
    fun h hbe hf hi => ?_, fun r h hbe hf hk hv => ?_, fun r h hbe hf hk => ?_⟩,
    fun ofs v r s hs hr h hf hv hrange hlock => ⟨s.hostWrite ofs.toNat v 15, rfl, ?_⟩⟩
  · rw [State.hostWrite_lockout hr h]
    exact s.accErr_flagged hs .locked
  · rw [State.hostWrite_before_idle hr h hb]
    exact s.accErr_flagged hs .locked
  · rw [State.hostWrite_size hr h hbe]
    exact s.accErr_flagged hs .size
  · subst hbe
    rw [State.hostWrite_undefined hr h hf, if_neg (by simp [hi])]
    exact s.accErr_flagged hs .undef
  · subst hbe
    rw [State.hostWrite_undefined hr h hf, if_pos hi]
  · subst hbe
    rw [State.hostWrite_found hr h hf, State.takeWrite_range hk hv]
    exact s.cfgErr_flagged hs r
  · subst hbe
    rw [State.hostWrite_found hr h hf, State.takeWrite_driven hk]
  · obtain ⟨hk, hl⟩ := State.LockHolds.refuses (s := s) (r := r) (v := v) hlock (s.takenWord r v)
    rw [State.hostWrite_found hr h hf, State.takeWrite_locked hk hv hrange hl]
    exact s.lockedOut_flagged hs r

end Sys2Proof.Machine
end
section
/-! SUPPORT. The registers that a fault and its reaction may write; every other word stays. -/

namespace Sys2Proof.Machine

/-- The words that a fault or its reaction writes: the window flags of an octad, the eye scan of a lane, the drop counters of the queues. -/
def FaultReg (a : Nat) : Prop := (∃ n, a = octBase n + 0x2414) ∨ (∃ l, a = laneBase l + 0x1C) ∨ ∃ k < 16, a = 0x200008 + 4 * k

/-- Only words of W change. -/
structure RegsWithin (W : Nat → Prop) (s t : State) : Prop where
  reg : ∀ a, ¬W a → t.reg a = s.reg a

namespace RegsWithin
variable {W V : Nat → Prop} {s t u : State}

theorem same (h : t.regs = s.regs) : RegsWithin W s t := ⟨fun a _ => by rw [State.reg, State.reg, h]⟩

theorem refl (s : State) : RegsWithin W s s := same rfl

theorem trans (h : RegsWithin W s t) (k : RegsWithin W t u) : RegsWithin W s u :=
  ⟨fun a ha => (k.reg a ha).trans (h.reg a ha)⟩

theorem mono (hV : ∀ a, W a → V a) (h : RegsWithin W s t) : RegsWithin V s t :=
  ⟨fun a ha => h.reg a fun hw => ha (hV a hw)⟩

theorem ite {c : Prop} [Decidable c] (ht : RegsWithin W s t) (hu : RegsWithin W s u) : RegsWithin W s (if c then t else u) := by
  split <;> assumption

theorem forNat {f : Nat → State → State} (h : ∀ i s, RegsWithin W s (f i s)) (n : Nat) (s : State) : RegsWithin W s (Machine.forNat n f s) :=
  forNat_induct (P := RegsWithin W s) (fun i u hu => hu.trans (h i u)) n (refl s)

theorem foldl {α : Type} {f : State → α → State} (h : ∀ u a, RegsWithin W u (f u a)) (l : List α) (s : State) :
    RegsWithin W s (l.foldl f s) := by
  induction l generalizing s with
  | nil => exact refl s
  | cons a r ih => exact (h s a).trans (ih _)

theorem setReg (s : State) {b : Nat} (hb : W b) (w : Word) : RegsWithin W s (s.setReg b w) :=
  ⟨fun a ha => s.reg_setReg_ne (fun e : a = b => ha (e ▸ hb)) w⟩

theorem setFld (s : State) {b : Nat} (hb : W b) (lo len v : Nat) : RegsWithin W s (s.setFld b lo len v) := setReg s hb _

theorem flag (s : State) {b : Nat} (hb : W b) (i : Nat) : RegsWithin W s (s.flag b i) := (setFld s hb i 1 1).trans (same rfl)

theorem count (s : State) {b : Nat} (hb : W b) (n : Nat) : RegsWithin W s (s.count b n) := by
  unfold State.count State.countAt
  exact ite (setFld s hb ..) ((setFld s hb ..).trans (setFld _ hb ..))

end RegsWithin

theorem FaultReg.octad (n : Nat) : FaultReg (octBase n + 0x2414) := .inl ⟨n, rfl⟩
theorem FaultReg.lane (l : Nat) : FaultReg (laneBase l + 0x1C) := .inr (.inl ⟨l, rfl⟩)
theorem FaultReg.drop {k : Nat} (h : k < 16) : FaultReg (0x200008 + 4 * k) := .inr (.inr ⟨k, h, rfl⟩)

/-- Words outside of blocks 2 and 8 to 15 are none of a fault's. -/
theorem FaultReg.bounds {a : Nat} (h : FaultReg a) : (0x200008 ≤ a ∧ a < 0x200048) ∨ 0x800000 ≤ a := by
  rcases h with ⟨n, rfl⟩ | ⟨l, rfl⟩ | ⟨k, hk, rfl⟩
  · exact .inr (by simp only [octBase]; omega)
  · exact .inr (by simp only [laneBase, tileBase, octBase]; omega)
  · exact .inl (by omega)

namespace RegsWithin

/-! ### Through the reaction -/

theorem abortEye (s : State) (l : Nat) : RegsWithin FaultReg s (s.abortEye l) := by
  unfold State.abortEye
  refine ite ?_ (refl s)
  have h : RegsWithin FaultReg s (s.updLane l fun x => { x with eye := none }) := same rfl
  exact h.trans (flag _ (.lane l) 3)

theorem discardWindow (s : State) (n : Nat) : RegsWithin FaultReg s (s.discardWindow n) := by
  unfold State.discardWindow
  extract_lets v
  have hv : RegsWithin FaultReg s v := ite (flag s (.octad n) 1) (refl s)
  exact hv.trans (same rfl)

theorem haltSelection (s : State) (n : Nat) : RegsWithin FaultReg s (s.haltSelection n) := by
  unfold State.haltSelection
  extract_lets u v w
  exact ((same rfl : RegsWithin FaultReg s u).trans (discardWindow u n)).trans (same rfl)

theorem forceSafe (s : State) (p : Nat → Bool) : RegsWithin W s (s.forceSafe p) :=
  forNat (fun n u => by
    show RegsWithin W u (if _ then _ else _)
    exact ite (same rfl) (refl u)) _ _

theorem modeLeave (s : State) (e : Nat) (r : Option Nat) : RegsWithin W s (s.modeLeave e r) := by
  unfold State.modeLeave
  split
  · exact ite (same rfl) (refl s)
  · exact refl s

theorem immediateBlock (s : State) (n : Nat) : RegsWithin W s (s.immediateBlock n) := by
  have h : RegsWithin W s (s.abortLanes n 0) := forNat (fun _ u => ite (same (t := u.emit _) rfl) (refl u)) _ _
  exact h.trans (same (State.updOct_regs ..))

theorem settleDev (s : State) : RegsWithin W s s.settleDev := by
  unfold State.settleDev
  exact ite (same rfl) (refl s)

theorem fenceOctad (s : State) (n : Nat) : RegsWithin FaultReg s (s.fenceOctad n) := by
  unfold State.fenceOctad
  refine ite (refl s) ?_
  have h := (immediateBlock s n).trans (haltSelection _ n)
  dsimp only
  generalize (s.immediateBlock n).haltSelection n = u at h ⊢
  have hf := h.trans (same (State.updOct_regs u n fun o => { o with state := .fenced }))
  generalize u.updOct n _ = v at hf ⊢
  exact hf.trans ((modeLeave v n none).trans ((forceSafe _ _).trans (settleDev _)))

theorem enqueue (s : State) {r : Report} (h : r.level < 16) : RegsWithin FaultReg s (s.enqueue r) := by
  unfold State.enqueue
  refine ite (same rfl) (trans ?_ (count _ (.drop h) 1))
  exact same rfl

theorem recordFault (s : State) (fn : Bool) (code : Nat) (cls : FClass) {r : Report} (h : r.level < 16) :
    RegsWithin FaultReg s (s.recordFault fn code cls r) := by
  have hmerge (u : State) : RegsWithin FaultReg u (u.mergeFallback code cls) := by
    unfold State.mergeFallback
    split
    · exact refl u
    · exact same rfl
  unfold State.recordFault
  extract_lets u
  have hu : RegsWithin FaultReg s u := ite (same rfl) (refl s)
  exact ite (hu.trans (enqueue u h)) (ite (hu.trans (hmerge u)) (hu.trans (same rfl)))

theorem enterActive (s : State) (code src : Nat) (cls : FClass) (cb : Byte) (fn : Bool) (mask id : Nat) :
    RegsWithin W s (s.enterActive code src cls cb fn mask id).1 := by
  unfold State.enterActive
  dsimp only
  split
  · exact same rfl
  · split <;> exact same rfl

/-- A fault of a code of 16 bits (Table 12-1), raised in the course of another. -/
def Again (again : Nat → Nat → List Byte → State → State) : Prop :=
  ∀ code src data s, code < 0x10000 → RegsWithin FaultReg s (again code src data s)

section
variable {again : Nat → Nat → List Byte → State → State}

theorem losePathVia (ih : Again again) (t code : Nat) (s : State) : RegsWithin FaultReg s (State.losePathVia again t code s) := by
  unfold State.losePathVia
  refine ite (refl s) (ite (ih _ _ _ _ (by decide)) (ite ?_ (refl s)))
  exact foldl (fun u c => (same (State.updCell_regs ..)).trans (ih _ _ _ _ (by decide))) _ _

theorem retireReaction (ih : Again again) (code src id : Nat) (s : State) : RegsWithin FaultReg s (s.retireReaction again code src id) := by
  unfold State.retireReaction
  split
  · refine ite (refl s) ?_
    have h1 : RegsWithin FaultReg s (((s.laneToRetired src).windowDone (.lane src)).openWindow (.lane src) id code src (some s.now)) :=
      (abortEye s src).trans (same rfl)
    have h2 := h1.trans (ite (c := code = 0x1703) (refl _) (ih 0x1703 src [] _ (by decide)))
    exact ite h2 (h2.trans (losePathVia ih _ _ _))
  · refine ite (ite (refl s) (ite ?_ (ih _ _ _ _ (by decide)))) (ite (same rfl) (ite (same rfl) (refl s)))
    exact ite (same rfl) ((same (State.updCell_regs ..)).trans (ih _ _ _ _ (by decide)))

theorem fenceReaction (s : State) (cls : FClass) (mask code src id : Nat) : RegsWithin FaultReg s (s.fenceReaction cls mask code src id) :=
  forNat (fun n u => ite (ite (fenceOctad u n)
    ((fenceOctad u n).trans (same (t := (u.fenceOctad n).openWindow (.fence n) id code src (some u.now)) rfl))) (refl u)) _ _

theorem react (ih : Again again) (cls : FClass) (mask code src id : Nat) (s : State) :
    RegsWithin FaultReg s (s.react again cls mask code src id) := by
  have h1 := retireReaction ih code src id s
  have h2 := h1.trans ((fenceReaction _ cls mask code src id).trans
    (same (t := ((s.retireReaction again code src id).fenceReaction cls mask code src id).joinCauses mask) rfl))
  have hlock (u : State) : RegsWithin FaultReg u (u.lockoutReaction code src id) := by
    unfold State.lockoutReaction
    extract_lets v
    refine trans ?_ (forceSafe _ _)
    exact same rfl
  exact ite (refl s) (ite h1 (ite h2 (h2.trans (hlock _))))

theorem tableFault (ih : Again again) (cls : FClass) (fn : Bool) (cb : Byte) (mask code src id : Nat) (s : State) :
    RegsWithin FaultReg s (s.tableFault again cls fn cb mask code src id) := by
  have h : RegsWithin FaultReg s _ := enterActive s code src cls cb fn mask id
  exact ite (ite (h.trans (ih _ _ _ _ (by decide))) h) (refl s)

end

theorem raiseN (fuel : Nat) : ∀ (code src : Nat) (data : List Byte) (p : Option Nat) (s : State), code < 0x10000 →
    RegsWithin FaultReg s (Machine.raiseN fuel code src data p s) := by
  induction fuel with
  | zero => intro code src data p s _; exact refl s
  | succ fuel ih =>
    intro code src data p s hc
    have hlevel : levelOf code < 16 := by simp only [levelOf]; omega
    have hagain : Again fun c v d u => Machine.raiseN fuel c v d none u := fun c v d u hu => ih c v d none u hu
    have h0 : RegsWithin FaultReg s s.nextReport := same rfl
    unfold Machine.raiseN
    dsimp only
    generalize s.nextReport = u at h0 ⊢
    split
    · exact h0.trans ((enqueue _ hlevel).trans (same rfl))
    · exact h0.trans ((recordFault _ _ _ _ hlevel).trans ((tableFault hagain _ _ _ _ _ _ _ _).trans (react hagain _ _ _ _ _ _)))

end RegsWithin

/-- A fault and its reaction write none but their own words. -/
theorem State.raise_regs (s : State) {code : Nat} (hc : code < 0x10000) (src : Nat) (data : List Byte) :
    RegsWithin FaultReg s (s.raise code src data) := RegsWithin.raiseN 6 code src data none s hc

end Sys2Proof.Machine
end
section
/-! SUPPORT. The register tables, the word that a write gives (R558, steps 5 and 8) and what its row of its own leaves of it. -/

namespace Sys2Proof.Machine

/-! ### Where the registers lie -/

/-- r is one of the registers of a row of T, in a block at base. -/
structure InTable (r : RegRef) (base : Nat) (T : List RegDef) : Prop where
  row : r.df ∈ T
  place : r.addr = base + r.df.off + r.idx * r.df.stride
  idx : r.idx < r.df.count

theorem findIn_spec {own base o : Nat} {T : List RegDef} {r : RegRef} (h : findIn own base o T = some r) :
    InTable r base T ∧ r.addr = base + o ∧ r.own = own := by
  induction T with
  | nil => exact absurd h (by simp [findIn])
  | cons d T ih =>
    unfold findIn at h
    split at h
    · rename_i hc
      obtain ⟨hle, hmod, hlt⟩ := hc
      cases h
      have hdiv := Nat.div_add_mod (o - d.off) d.stride
      rw [hmod, Nat.add_zero, Nat.mul_comm] at hdiv
      exact ⟨⟨List.mem_cons_self, by dsimp only; omega, hlt⟩, rfl, rfl⟩
    · obtain ⟨⟨hrow, hplace, hidx⟩, ha, ho⟩ := ih h
      exact ⟨⟨List.mem_cons_of_mem _ hrow, hplace, hidx⟩, ha, ho⟩

/-- The tables of the blocks that stand once, with their bases. -/
def deviceTables : List (Nat × List RegDef) :=
  [(0, devRegs), (0x100000, hifRegs), (0x200000, fltRegs), (0x300000, tsRegs), (0x400000, clkRegs), (0x500000, belRegs), (0x600000, kpvRegs),
    (0x700000, pstRegs)]

/-- A register lies in one of the tables, in its block. -/
def RegPlaced (r : RegRef) : Prop :=
  (∃ p ∈ deviceTables, InTable r p.1 p.2) ∨ (∃ e < 9, InTable r (engBase e) engRegs) ∨ (∃ n < 8, InTable r (octBase n) octRegs ∧ r.own = n)
    ∨ (∃ g < 64, InTable r (tileBase g) tilRegs) ∨ ∃ l < 128, InTable r (laneBase l) lnkRegs ∧ r.own = l

/-- A register found in a table of a block that stands once. -/
theorem placed_of_device {a b : Nat} {T : List RegDef} {r : RegRef} (hm : (b, T) ∈ deviceTables) (hf : findIn 0 b (a % 0x100000) T = some r)
    (hb : b + a % 0x100000 = a) : r.addr = a ∧ RegPlaced r := by
  obtain ⟨hin, ha, -⟩ := findIn_spec hf
  exact ⟨ha.trans hb, .inl ⟨_, hm, hin⟩⟩

/-- The tiles of an octad and their lanes. -/
theorem placed_of_tile {g t : Nat} {r : RegRef} (hg : g < 64)
    (h : (if 0x200 ≤ t ∧ t < 0x280 then findIn (2 * g + (t - 0x200) / 0x40) (tileBase g + t / 0x40 * 0x40) (t % 0x40) lnkRegs
      else findIn g (tileBase g) t tilRegs) = some r) : r.addr = tileBase g + t ∧ RegPlaced r := by
  split at h
  · obtain ⟨hin, ha, ho⟩ := findIn_spec h
    have hlane : tileBase g + t / 0x40 * 0x40 = laneBase (2 * g + (t - 0x200) / 0x40) := by
      rw [laneBase, show (2 * g + (t - 0x200) / 0x40) / 2 = g by omega]
      omega
    exact ⟨by omega, .inr (.inr (.inr (.inr ⟨_, by omega, hlane ▸ hin, ho⟩)))⟩
  · obtain ⟨hin, ha, -⟩ := findIn_spec h
    exact ⟨ha, .inr (.inr (.inr (.inl ⟨g, hg, hin⟩)))⟩

theorem regAt_spec {a : Nat} {r : RegRef} (h : regAt a = some r) : r.addr = a ∧ RegPlaced r := by
  have hdiv := Nat.div_add_mod a 0x100000
  unfold regAt at h
  dsimp only at h
  generalize hq : a / 0x100000 = q at h hdiv
  generalize ho : a % 0x100000 = o at h hdiv
  by_cases h0 : q = 0
  · rw [if_pos h0] at h
    by_cases hs : 0x8000 ≤ o
    · rw [if_pos hs] at h
      obtain ⟨hin, ha, -⟩ := findIn_spec h
      exact ⟨by omega, .inr (.inl ⟨8, by decide, hin⟩)⟩
    · rw [if_neg hs, ← ho] at h
      exact placed_of_device (by decide) h (by omega)
  rw [if_neg h0] at h
  by_cases h1 : q = 1
  · rw [if_pos h1, ← ho] at h
    exact placed_of_device (by decide) h (by omega)
  rw [if_neg h1] at h
  by_cases h2 : q = 2
  · rw [if_pos h2, ← ho] at h
    exact placed_of_device (by decide) h (by omega)
  rw [if_neg h2] at h
  by_cases h3 : q = 3
  · rw [if_pos h3, ← ho] at h
    exact placed_of_device (by decide) h (by omega)
  rw [if_neg h3] at h
  by_cases h4 : q = 4
  · rw [if_pos h4, ← ho] at h
    exact placed_of_device (by decide) h (by omega)
  rw [if_neg h4] at h
  by_cases h5 : q = 5
  · rw [if_pos h5, ← ho] at h
    exact placed_of_device (by decide) h (by omega)
  rw [if_neg h5] at h
  by_cases h6 : q = 6
  · rw [if_pos h6, ← ho] at h
    exact placed_of_device (by decide) h (by omega)
  rw [if_neg h6] at h
  by_cases h7 : q = 7
  · rw [if_pos h7, ← ho] at h
    exact placed_of_device (by decide) h (by omega)
  rw [if_neg h7] at h
  by_cases h16 : q < 16
  · rw [if_pos h16] at h
    by_cases hoct : o < 0x3000
    · rw [if_pos hoct] at h
      obtain ⟨hin, ha, hown⟩ := findIn_spec h
      exact ⟨by rw [ha, octBase]; omega, .inr (.inr (.inl ⟨q - 8, by omega, hin, hown⟩))⟩
    rw [if_neg hoct] at h
    by_cases heng : o < 0x8000
    · rw [if_pos heng] at h
      cases hf : findIn (q - 8) (engBase (q - 8)) (o - 0x3000) engRegs with
      | none =>
        rw [hf] at h
        exact absurd h (by simp)
      | some p =>
        rw [hf] at h
        dsimp only at h
        rw [Option.ite_none_left_eq_some] at h
        cases h.2
        obtain ⟨hin, ha, -⟩ := findIn_spec hf
        refine ⟨?_, .inr (.inl ⟨q - 8, by omega, hin⟩)⟩
        rw [ha, engBase, if_neg (by omega), octBase]
        omega
    rw [if_neg heng] at h
    by_cases htile : o < 0x10000
    · rw [if_pos htile] at h
      obtain ⟨ha, hp⟩ := placed_of_tile (by omega) h
      refine ⟨?_, hp⟩
      rw [ha]
      simp only [tileBase, octBase]
      omega
    · rw [if_neg htile] at h
      exact absurd h (by simp)
  · rw [if_neg h16] at h
    exact absurd h (by simp)

end Sys2Proof.Machine
end
section
/-! SUPPORT. A register write that passes every step (R558, steps 5 and 8): the word that it gives, bit by bit. -/

namespace Sys2Proof.Machine

/-! ### Names and places -/

theorem RegPlaced.device {r : RegRef} (h : RegPlaced r) (hn : ∀ d ∈ engRegs ++ octRegs ++ tilRegs ++ lnkRegs, d.name ≠ r.df.name) :
    ∃ p ∈ deviceTables, InTable r p.1 p.2 := by
  rcases h with h | ⟨_, _, h⟩ | ⟨_, _, h, _⟩ | ⟨_, _, h⟩ | ⟨_, _, h, _⟩
  · exact h
  all_goals exact absurd rfl (hn r.df (by simp [h.row]))

theorem RegPlaced.octad {r : RegRef} (h : RegPlaced r)
    (hn : ∀ d ∈ deviceTables.flatMap (·.2) ++ engRegs ++ tilRegs ++ lnkRegs, d.name ≠ r.df.name) :
    ∃ n < 8, InTable r (octBase n) octRegs ∧ r.own = n := by
  rcases h with ⟨p, hp, h⟩ | ⟨_, _, h⟩ | h | ⟨_, _, h⟩ | ⟨_, _, h, _⟩
  · have : r.df ∈ deviceTables.flatMap (·.2) := List.mem_flatMap.mpr ⟨p, hp, h.row⟩
    exact absurd rfl (hn r.df (by simp [this]))
  · exact absurd rfl (hn r.df (by simp [h.row]))
  · exact h
  all_goals exact absurd rfl (hn r.df (by simp [h.row]))

theorem RegPlaced.lane {r : RegRef} (h : RegPlaced r)
    (hn : ∀ d ∈ deviceTables.flatMap (·.2) ++ engRegs ++ octRegs ++ tilRegs, d.name ≠ r.df.name) :
    ∃ l < 128, InTable r (laneBase l) lnkRegs ∧ r.own = l := by
  rcases h with ⟨p, hp, h⟩ | ⟨_, _, h⟩ | ⟨_, _, h, _⟩ | ⟨_, _, h⟩ | h
  · have : r.df ∈ deviceTables.flatMap (·.2) := List.mem_flatMap.mpr ⟨p, hp, h.row⟩
    exact absurd rfl (hn r.df (by simp [this]))
  all_goals first | exact h | exact absurd rfl (hn r.df (by simp [h.row]))

theorem addr_clkCtrl {r : RegRef} (h : RegPlaced r) (hn : r.df.name = .clkCtrl) : r.addr = 0x400000 := by
  obtain ⟨p, hp, hrow, hplace, hidx⟩ := h.device (by rw [hn]; decide +kernel)
  have hd : ∀ p ∈ deviceTables, ∀ d ∈ p.2, d.name = .clkCtrl → p.1 + d.off = 0x400000 ∧ d.count = 1 := by decide +kernel
  obtain ⟨hoff, hcount⟩ := hd p hp _ hrow hn
  rw [hplace, hoff, show r.idx = 0 by omega, Nat.zero_mul]

theorem addr_eplCtrl {r : RegRef} (h : RegPlaced r) (hn : r.df.name = .eplCtrl) : r.addr = 0x401000 := by
  obtain ⟨p, hp, hrow, hplace, hidx⟩ := h.device (by rw [hn]; decide +kernel)
  have hd : ∀ p ∈ deviceTables, ∀ d ∈ p.2, d.name = .eplCtrl → p.1 + d.off = 0x401000 ∧ d.count = 1 := by decide +kernel
  obtain ⟨hoff, hcount⟩ := hd p hp _ hrow hn
  rw [hplace, hoff, show r.idx = 0 by omega, Nat.zero_mul]

theorem addr_clkHop {r : RegRef} (h : RegPlaced r) (hn : r.df.name = .clkHop) : r.addr = hopAddr r.idx := by
  obtain ⟨p, hp, hrow, hplace, -⟩ := h.device (by rw [hn]; decide +kernel)
  have hd : ∀ p ∈ deviceTables, ∀ d ∈ p.2, d.name = .clkHop → p.1 + d.off = 0x400010 ∧ d.stride = 8 := by decide +kernel
  obtain ⟨hoff, hstride⟩ := hd p hp _ hrow hn
  rw [hplace, hoff, hstride, hopAddr]
  omega

theorem addr_ldgScale {r : RegRef} (h : RegPlaced r) (hn : r.df.name = .ldgScale) : ∃ n < 8, r.addr = octBase n + 0x2408 ∧ r.own = n := by
  obtain ⟨n, hlt, ⟨hrow, hplace, hidx⟩, hown⟩ := h.octad (by rw [hn]; decide +kernel)
  have hd : ∀ d ∈ octRegs, d.name = .ldgScale → d.off = 0x2408 ∧ d.count = 1 := by decide +kernel
  obtain ⟨hoff, hcount⟩ := hd _ hrow hn
  refine ⟨n, hlt, ?_, hown⟩
  rw [hplace, hoff, show r.idx = 0 by omega, Nat.zero_mul, Nat.add_zero]

theorem addr_lnkCfg {r : RegRef} (h : RegPlaced r) (hn : r.df.name = .lnkCfg) : ∃ l < 128, r.addr = laneBase l ∧ r.own = l := by
  obtain ⟨l, hlt, ⟨hrow, hplace, hidx⟩, hown⟩ := h.lane (by rw [hn]; decide +kernel)
  have hd : ∀ d ∈ lnkRegs, d.name = .lnkCfg → d.off = 0 ∧ d.count = 1 := by decide +kernel
  obtain ⟨hoff, hcount⟩ := hd _ hrow hn
  refine ⟨l, hlt, ?_, hown⟩
  rw [hplace, hoff, show r.idx = 0 by omega, Nat.zero_mul, Nat.add_zero]

/-- The fields of a row lie in its word and apart from each other. -/
def fieldsApart (fs : List Fld) : Bool := decide (fs.Pairwise fun f g => f.lo + f.len ≤ g.lo) && fs.all fun f => decide (f.lo + f.len ≤ 32)

theorem fieldsApart_of_placed {r : RegRef} (h : RegPlaced r) : fieldsApart r.df.fields = true := by
  have hdev : ∀ p ∈ deviceTables, ∀ d ∈ p.2, fieldsApart d.fields = true := by decide +kernel
  have hrest : ∀ d ∈ engRegs ++ octRegs ++ tilRegs ++ lnkRegs, fieldsApart d.fields = true := by decide +kernel
  rcases h with ⟨p, hp, h⟩ | ⟨_, _, h⟩ | ⟨_, _, h, _⟩ | ⟨_, _, h⟩ | ⟨_, _, h, _⟩
  · exact hdev p hp _ h.row
  all_goals exact hrest _ (by simp [h.row])

/-! ### The word that a write gives -/

/-- What a write makes of a bit, by the access of its field (R558, step 8; Table 19-14). -/
def takeBit (acc : Acc) (hot old v : Bool) : Bool :=
  match acc with
  | .rw => v
  | .w1c => old && !(v && !hot)
  | _ => old

theorem Fld.mask_bit (f : Fld) {i : Nat} (hi : i < 32) : f.mask.getLsbD i = decide (f.lo ≤ i ∧ i < f.lo + f.len) := by
  rw [Fld.mask, BitVec.getLsbD_ofNat, Nat.testBit_mul_two_pow, Nat.testBit_two_pow_sub_one]
  simp only [hi, decide_true, Bool.true_and, ← Bool.decide_and, decide_eq_decide]
  omega

/-- One field of a write. -/
def takeField (f : Fld) (hot v w : Word) : Word :=
  match f.acc with
  | .rw => (w &&& ~~~f.mask) ||| (v &&& f.mask)
  | .w1c => w &&& ~~~(v &&& f.mask &&& ~~~hot)
  | _ => w

theorem takeWord_cons (f : Fld) (fs : List Fld) (hot old v : Word) : takeWord (f :: fs) hot old v = takeWord fs hot (takeField f hot v old) v := rfl

theorem takeField_bit (f : Fld) (hot v w : Word) {i : Nat} (hi : i < 32) :
    (takeField f hot v w).getLsbD i
      = if f.lo ≤ i ∧ i < f.lo + f.len then takeBit f.acc (hot.getLsbD i) (w.getLsbD i) (v.getLsbD i) else w.getLsbD i := by
  have hm := f.mask_bit hi
  unfold takeField takeBit
  by_cases hc : f.lo ≤ i ∧ i < f.lo + f.len
  · rw [decide_eq_true hc] at hm
    rw [if_pos hc]
    cases f.acc <;> simp only [BitVec.getLsbD_or, BitVec.getLsbD_and, BitVec.getLsbD_not, hm, hi, decide_true, Bool.true_and, Bool.and_true,
      Bool.not_true, Bool.and_false, Bool.false_or]
  · rw [decide_eq_false hc] at hm
    rw [if_neg hc]
    cases f.acc <;> simp only [BitVec.getLsbD_or, BitVec.getLsbD_and, BitVec.getLsbD_not, hm, hi, decide_true, Bool.true_and, Bool.and_true,
      Bool.not_false, Bool.and_false, Bool.false_and, Bool.or_false]

theorem takeWord_bit_none {fs : List Fld} {i : Nat} (hi : i < 32) (h : ∀ f ∈ fs, ¬(f.lo ≤ i ∧ i < f.lo + f.len)) (hot old v : Word) :
    (takeWord fs hot old v).getLsbD i = old.getLsbD i := by
  induction fs generalizing old with
  | nil => rfl
  | cons f fs ih =>
    rw [takeWord_cons, ih (fun g hg => h g (List.mem_cons_of_mem _ hg)), takeField_bit _ _ _ _ hi, if_neg (h f List.mem_cons_self)]

/-- A bit of a field, where the fields lie apart. -/
theorem takeWord_bit {fs : List Fld} (ha : fs.Pairwise fun f g => f.lo + f.len ≤ g.lo) {f : Fld} (hf : f ∈ fs) {i : Nat} (hi : i < 32)
    (hb : f.lo ≤ i ∧ i < f.lo + f.len) (hot old v : Word) :
    (takeWord fs hot old v).getLsbD i = takeBit f.acc (hot.getLsbD i) (old.getLsbD i) (v.getLsbD i) := by
  induction fs generalizing old with
  | nil => exact absurd hf List.not_mem_nil
  | cons g fs ih =>
    obtain ⟨hg, ha⟩ := List.pairwise_cons.mp ha
    rw [takeWord_cons]
    rcases List.mem_cons.mp hf with rfl | hf
    · rw [takeWord_bit_none hi fun k hk hki => absurd (hg k hk) (by have := hki.1; have := hb.2; omega), takeField_bit _ _ _ _ hi, if_pos hb]
    · rw [ih ha hf, takeField_bit _ _ _ _ hi, if_neg fun hgi => absurd (hg f hf) (by have := hb.1; omega)]

/-- Fields with the same bits are the same. -/
theorem field_congr {x y : Word} {lo len : Nat} (h : ∀ i, lo ≤ i → i < lo + len → x.getLsbD i = y.getLsbD i) :
    field x.toNat lo len = field y.toNat lo len := by
  refine Nat.eq_of_testBit_eq fun j => ?_
  rw [field_testBit, field_testBit]
  by_cases hj : j < len
  · rw [BitVec.testBit_toNat, BitVec.testBit_toNat, h _ (Nat.le_add_right ..) (by omega)]
  · simp [hj]

end Sys2Proof.Machine
end
section
/-! SUPPORT. What the rows of their own leave of a written register. -/

namespace Sys2Proof.Machine

theorem State.trgWritten_regs (s : State) (n : Nat) : (s.trgWritten n).regs = s.regs := by
  unfold State.trgWritten
  split
  · rfl
  · split <;> rfl

theorem State.startEye_regs (s : State) (l : Nat) : (s.startEye l).regs = s.regs := by
  unfold State.startEye
  split <;> rfl

theorem State.ringStopped_regs (s : State) (r : Nat) : (s.ringStopped r).regs = s.regs := by
  unfold State.ringStopped
  dsimp only
  split <;> rfl

/-- The registers whose row of its own may write words. -/
def RegName.writesWords : RegName → Bool
  | .clkCtrl | .clkHop | .clkHopcfg | .lnkCfg | .eplCtrl | .ldgScale => true
  | _ => false

theorem State.afterWrite_regs {s : State} {r : RegRef} (h : r.df.name.writesWords = false) (old w v : Word) :
    (s.afterWrite r old w v).regs = s.regs := by
  have hno : ∀ {n : RegName}, n.writesWords = true → r.df.name ≠ n := fun hw hn => by
    rw [hn, hw] at h
    exact absurd h (by decide)
  unfold State.afterWrite
  split
  case h_1 | h_19 | h_20 | h_21 | h_22 => split <;> rfl
  case h_2 =>
    split
    · rfl
    · split
      · exact State.ringStopped_regs ..
      · rfl
  case h_3 | h_4 | h_5 | h_6 | h_7 => exact State.trgWritten_regs ..
  case h_8 | h_9 | h_10 | h_11 | h_23 => rfl
  case h_12 | h_13 | h_14 | h_15 | h_17 | h_18 => exact absurd ‹_› (hno rfl)
  case h_16 =>
    split
    · exact State.startEye_regs ..
    · rfl

/-- A register without a row of its own starts nothing. -/
theorem State.afterWrite_of_not_starts {s : State} {r : RegRef} (h : r.df.name.starts = false) (old w v : Word) :
    s.afterWrite r old w v = s := by
  have hno : ∀ {n : RegName}, n.starts = true → r.df.name ≠ n := fun hw hn => by
    rw [hn, hw] at h
    exact absurd h (by decide)
  unfold State.afterWrite
  split
  case h_23 => rfl
  all_goals exact absurd ‹_› (hno rfl)

/-- Words that the choice of a reference writes: the counts of CLK_CTRL's block, and a fault's. -/
def RefReg (a : Nat) : Prop := FaultReg a ∨ a = 0x40005C ∨ a = 0x400060

theorem State.startRelock_regs (s : State) : s.startRelock.regs = s.regs := by
  unfold State.startRelock
  dsimp only
  split <;> rfl

theorem State.phaseJump_within (s : State) : RegsWithin RefReg s s.phaseJump := by
  unfold State.phaseJump
  split
  · exact .refl s
  · have hr : RegsWithin RefReg s (s.raise 0x3604 0 []) := (s.raise_regs (by decide) 0 []).mono fun _ h => .inl h
    have hc := hr.trans (.count _ (.inr (.inr rfl)) 1)
    dsimp only
    generalize (s.raise 0x3604 0 []).count 0x400060 1 = u at hc ⊢
    have ho : RegsWithin RefReg s (u.openWindow .timePll s.flt.nextId 0x3604 0 none) := hc.trans (.same rfl)
    exact .ite (ho.trans (.same rfl)) (ho.trans (.same (State.startRelock_regs _)))

theorem State.switchTo_within (s : State) (b : Bool) : RegsWithin RefReg s (s.switchTo b) := by
  have hs : RegsWithin RefReg s { s with clk := { s.clk with active := some b } } := .same rfl
  have hc := hs.trans (.count _ (.inr (.inl rfl)) 1)
  have hr := hc.trans ((State.raise_regs _ (code := 0x3602) (by decide) (bit b) []).mono fun _ h => .inl h)
  exact hr.trans (State.phaseJump_within _)

theorem State.chooseRef_within (s : State) : RegsWithin RefReg s s.chooseRef := by
  unfold State.chooseRef
  dsimp only
  split
  · split
    · exact .refl s
    · split
      · exact RegsWithin.trans (t := { s with clk := { s.clk with active := some _ } }) (.same rfl) (State.phaseJump_within _)
      · exact .same rfl
  · split
    · exact s.switchTo_within _
    · exact .refl s

/-- Words that training or powering a lane writes: LNK_HUBCAP, and a fault's. -/
def LaneReg (a : Nat) : Prop := FaultReg a ∨ ∃ l, a = laneBase l + 0xC

theorem State.huntLane_within (s : State) (l : Nat) (p : Proc) : RegsWithin LaneReg s (s.huntLane l p) := by
  have h : RegsWithin LaneReg s (s.abortEye l) := (RegsWithin.abortEye s l).mono fun _ h => .inl h
  unfold State.huntLane
  generalize s.abortEye l = u at h ⊢
  have hu : RegsWithin LaneReg s (u.updLane l fun x => { x.hunting s.now p with maxSpd := s.fld (laneBase l) 1 2, delayValid := false }) :=
    h.trans (.same rfl)
  exact hu.trans (.setFld _ (.inr ⟨l, rfl⟩) 8 1 0)

theorem State.startLanes_within (s : State) : RegsWithin LaneReg s s.startLanes :=
  .forNat (fun l u => .ite (u.huntLane_within l .bringup) (.refl u)) 128 s

theorem State.lanesOff_within (s : State) (ls : List Nat) : RegsWithin LaneReg s (s.lanesOff ls) :=
  RegsWithin.foldl (f := fun s l => (s.abortEye l).updLane l fun x => x.powerDown .off)
    (fun u l => ((RegsWithin.abortEye u l).mono fun _ h => Or.inl h).trans (.same rfl)) ls s

theorem State.finishWaiting_regs (s : State) (k : WaitKind) (st : Status) (n : Nat) : (s.finishWaiting k st n).regs = s.regs := by
  unfold State.finishWaiting
  dsimp only
  have hfold : ∀ (l : List Waiting) (u : State), (l.foldl (fun s w => s.completeNow w.d (if st = .ok ∧ w.late then .late else st) n) u).regs =
      u.regs := by
    intro l
    induction l with
    | nil => exact fun _ => rfl
    | cons w l ih =>
      intro u
      rw [List.foldl_cons, ih]
      have h : RingsOnly u (u.completeNow w.d (if st = .ok ∧ w.late then .late else st) n) := RingsOnly.complete ..
      rw [h]
  exact hfold _ _

theorem State.laneEnWritten_within (s : State) (l : Nat) : RegsWithin LaneReg s (s.laneEnWritten l) := by
  unfold State.laneEnWritten
  refine .ite s.startLanes_within (.ite (.refl s) ?_)
  have h : RegsWithin LaneReg s (((s.abortEye l).lanesOff [l]).windowDone (.lane l)) :=
    (((RegsWithin.abortEye s l).mono fun _ h => .inl h).trans (State.lanesOff_within _ _)).trans (.same rfl)
  exact h.trans (.same (State.finishWaiting_regs ..))

theorem RegName.writesWords_iff {n : RegName} :
    n.writesWords = true ↔ n = .clkCtrl ∨ n = .clkHop ∨ n = .clkHopcfg ∨ n = .lnkCfg ∨ n = .eplCtrl ∨ n = .ldgScale := by
  cases n <;> decide

/-- A cleared band flag leaves every other bit of the word. -/
theorem State.clearBand_bit {s : State} (hc : regsCanonical s.regs) (a p : Nat) (old w : Word) {j : Nat} (hj : j ≠ 13) :
    ((s.clearBand p old w).reg a).getLsbD j = (s.reg a).getLsbD j := by
  unfold State.clearBand
  split
  · rfl
  · by_cases ha : a = hopAddr p + 4
    · subst ha
      have hbit : ¬(13 ≤ j ∧ j < 13 + 1) := by omega
      rw [State.setFld, State.reg_setReg_same hc, BitVec.getLsbD_ofNat, putField_testBit, if_neg hbit, BitVec.testBit_toNat]
      by_cases h32 : j < 32
      · simp [h32]
      · simp [h32, BitVec.getLsbD_of_ge _ _ (Nat.le_of_not_lt h32)]
    · rw [State.reg_setFld_ne _ ha]

/-- A register with a row of its own keeps the word that was written, but for CLK_HOPCFG's band flag (R469). -/
theorem State.afterWrite_bit {s : State} {r : RegRef} (hc : regsCanonical s.regs) (hp : RegPlaced r) (old w v : Word) {j : Nat}
    (hj : r.df.name = .clkHopcfg → j ≠ 13) : ((s.afterWrite r old w v).reg r.addr).getLsbD j = (s.reg r.addr).getLsbD j := by
  have hkeep : ∀ {W : Nat → Prop}, RegsWithin W s (s.afterWrite r old w v) → ¬W r.addr →
      ((s.afterWrite r old w v).reg r.addr).getLsbD j = (s.reg r.addr).getLsbD j := fun hw hn => by rw [hw.reg _ hn]
  cases hww : r.df.name.writesWords with
  | false => exact hkeep (W := fun _ => False) (.same (State.afterWrite_regs hww old w v)) id
  | true =>
    have hafter {n : RegName} (hn : r.df.name = n) : s.afterWrite r old w v = ({ s with } : State).afterWrite
        { r with df := { r.df with name := n } } old w v := by
      rw [← hn]
    rcases RegName.writesWords_iff.mp hww with hn | hn | hn | hn | hn | hn
    · refine hkeep (W := RefReg) (hafter hn ▸ s.chooseRef_within) fun hw => ?_
      rw [addr_clkCtrl hp hn] at hw
      rcases hw with hf | h | h
      · exact absurd hf.bounds (by omega)
      all_goals omega
    · refine hkeep (W := fun a => a = hopAddr r.idx + 4) (hafter hn ▸ ?_) (by rw [addr_clkHop hp hn]; omega)
      exact RegsWithin.ite (.refl s) (RegsWithin.setFld (W := fun a => a = hopAddr r.idx + 4) s rfl 13 1 0)
    · rw [hafter hn]
      unfold State.afterWrite
      dsimp only
      split
      · exact State.clearBand_bit hc _ _ old w (hj hn)
      · rfl
    · obtain ⟨l, hl, ha, -⟩ := addr_lnkCfg hp hn
      refine hkeep (W := LaneReg) (hafter hn ▸ s.laneEnWritten_within r.own) fun hw => ?_
      rw [ha] at hw
      simp only [LaneReg, FaultReg, laneBase, tileBase, octBase] at hw
      rcases hw with (⟨n, h⟩ | ⟨n, h⟩ | ⟨k, hk, h⟩) | ⟨m, h⟩ <;> omega
    · refine hkeep (W := fun a => a = 0x40100C) (hafter hn ▸ ?_) (by rw [addr_eplCtrl hp hn]; decide)
      have hs : RegsWithin (fun a => a = 0x40100C) s { s with epl := { s.epl with carry := 0 } } := .same rfl
      exact hs.trans (RegsWithin.setReg (W := fun a => a = 0x40100C) (b := 0x40100C) _ rfl 0)
    · obtain ⟨n, hl, ha, -⟩ := addr_ldgScale hp hn
      refine hkeep (W := FaultReg) (hafter hn ▸ RegsWithin.discardWindow s r.own) fun hw => ?_
      rw [ha] at hw
      simp only [FaultReg, laneBase, tileBase, octBase] at hw
      rcases hw with ⟨n, h⟩ | ⟨n, h⟩ | ⟨k, hk, h⟩ <;> omega

end Sys2Proof.Machine
end
section
/-! SUPPORT. A taken register write (R558). -/

namespace Sys2Proof.Machine

section
variable {s : State} {a : Nat} {v : Word} {r : RegRef}

/-- The state in which the word has been written, before the row of its own. -/
def State.wordWritten (s : State) (r : RegRef) (v : Word) : State :=
  ({ s with wrote := (r.addr, s.reg r.addr) :: s.wrote } : State).setReg r.addr (s.takenWord r v)

theorem State.WriteTaken.addr (h : s.WriteTaken a v r) : r.addr = a := (regAt_spec h.found).1

theorem State.WriteTaken.placed (h : s.WriteTaken a v r) : RegPlaced r := (regAt_spec h.found).2

theorem State.WriteTaken.hostWrite (h : s.WriteTaken a v r) :
    s.hostWrite a v 15 = (s.wordWritten r v).afterWrite r (s.reg r.addr) (s.takenWord r v) v := by
  rw [State.hostWrite_found h.reach h.dev h.found]
  have hs := h.span
  have hl := h.lock
  unfold State.takenWord at hs hl
  unfold State.takeWrite
  dsimp only
  rw [if_neg (by simp [h.free]), if_neg (by simp [h.range, hs]), if_neg (by simp [hl])]
  rfl

theorem State.wordWritten_canonical (hc : regsCanonical s.regs) : regsCanonical (s.wordWritten r v).regs := regsCanonical_putReg hc _ _

theorem State.wordWritten_reg (hc : regsCanonical s.regs) : (s.wordWritten r v).reg r.addr = s.takenWord r v :=
  State.reg_setReg_same (s := { s with wrote := (r.addr, s.reg r.addr) :: s.wrote }) hc _ _

theorem State.wordWritten_reg_ne {b : Nat} (hb : b ≠ r.addr) : (s.wordWritten r v).reg b = s.reg b :=
  State.reg_setReg_ne { s with wrote := (r.addr, s.reg r.addr) :: s.wrote } hb _

/-- Every bit of a field after a taken write (R558, step 8), the band flag of CLK_HOPCFG apart. -/
theorem State.WriteTaken.bit (h : s.WriteTaken a v r) (hc : regsCanonical s.regs) {f : Fld} (hf : f ∈ r.df.fields) {i : Nat}
    (hi : f.lo ≤ i ∧ i < f.lo + f.len) (h13 : r.df.name = .clkHopcfg → i ≠ 13) :
    ((s.hostWrite a v 15).reg a).getLsbD i = takeBit f.acc ((s.hotMask a).getLsbD i) ((s.reg a).getLsbD i) (v.getLsbD i) := by
  have hap := fieldsApart_of_placed h.placed
  simp only [fieldsApart, Bool.and_eq_true, decide_eq_true_eq, List.all_eq_true] at hap
  have hlt : i < 32 := Nat.lt_of_lt_of_le hi.2 (hap.2 f hf)
  rw [h.hostWrite, ← h.addr, State.afterWrite_bit (State.wordWritten_canonical hc) h.placed _ _ _ h13, State.wordWritten_reg hc]
  exact takeWord_bit hap.1 hf hlt hi _ _ _

/-- CLK_HOPCFG holds its band flag in no field that a write may change. -/
theorem hopcfg_band_apart (h : RegPlaced r) (hn : r.df.name = .clkHopcfg) {f : Fld} (hf : f ∈ r.df.fields) (ha : f.acc = .rw ∨ f.acc = .w1c)
    {i : Nat} (hi : f.lo ≤ i ∧ i < f.lo + f.len) : i ≠ 13 := by
  obtain ⟨p, hp, hrow, -⟩ := h.device (by rw [hn]; decide +kernel)
  have hd : ∀ p ∈ deviceTables, ∀ d ∈ p.2, d.name = .clkHopcfg → ∀ f ∈ d.fields, f.acc = .rw ∨ f.acc = .w1c → f.lo + f.len ≤ 13 := by
    decide +kernel
  have := hd p hp _ hrow hn f hf ha
  omega

end

/-- The flags that hardware has set on this tick. -/
theorem State.hotMask_flag {s : State} (h : s.clk.started = true) (a : Nat) {i : Nat} (hi : i < 32) :
    ((s.flag a i).hotMask a).getLsbD i = true := by
  have hkeep : ∀ (l : List (Nat × Nat)) (m : Word), m.getLsbD i = true →
      (l.foldl (fun m e => if e.1 = a then m ||| BitVec.ofNat 32 (2 ^ e.2) else m) m).getLsbD i = true := by
    intro l
    induction l with
    | nil => exact fun _ hm => hm
    | cons e l ih =>
      intro m hm
      refine ih _ ?_
      dsimp only
      split
      · rw [BitVec.getLsbD_or, hm, Bool.true_or]
      · exact hm
  unfold State.hotMask
  have hst : (s.flag a i).clk.started = true := h
  have htick : ((s.flag a i).hotAt == (s.flag a i).tick) = true := beq_self_eq_true _
  have hhot : (s.flag a i).hot = (a, i) :: (if s.hotAt = s.tick then s.hot else []) := rfl
  rw [hst, htick, Bool.and_self, if_pos rfl, hhot, List.foldl_cons]
  refine hkeep _ _ ?_
  rw [if_pos rfl, BitVec.getLsbD_or, BitVec.getLsbD_ofNat, Nat.testBit_two_pow_self]
  simp [hi]

/-- Settles O26: the word bit by bit, and no row of its own touches its fields. -/
theorem takenWriteReplacesItsFields : Obligations.TakenWriteReplacesItsFields := by
  unfold Obligations.TakenWriteReplacesItsFields
  refine ⟨fun ofs v r s hs hw => ⟨s.hostWrite ofs.toNat v 15, rfl, fun f hf ha => ?_, fun f hf ha i hlo hhi => ?_, fun f hf hrw hw1c hn => ?_,
    fun hn => ?_⟩, fun ofs v r i s hs hst hi hw hn hf => ⟨(s.flag ofs.toNat i).hostWrite ofs.toNat v 15, rfl, ?_⟩⟩
  · refine field_congr fun i hlo hhi => ?_
    rw [hw.bit hs.1 hf ⟨hlo, hhi⟩ fun h => hopcfg_band_apart hw.placed h hf (.inl ha) ⟨hlo, hhi⟩, ha]
    rfl
  · rw [hw.bit hs.1 hf ⟨hlo, hhi⟩ fun h => hopcfg_band_apart hw.placed h hf (.inr ha) ⟨hlo, hhi⟩, ha]
    rfl
  · refine field_congr fun i hlo hhi => ?_
    rw [hw.bit hs.1 hf ⟨hlo, hhi⟩ fun h => absurd h hn]
    cases hacc : f.acc with
    | rw => exact absurd hacc hrw
    | w1c => exact absurd hacc hw1c
    | _ => rfl
  · have hnone : s.hostWrite ofs.toNat v 15 = s.wordWritten r v := by
      rw [hw.hostWrite]
      exact State.afterWrite_of_not_starts hn ..
    rw [hnone]
    exact ⟨rfl, fun b hb => State.wordWritten_reg_ne (hw.addr ▸ hb)⟩
  · obtain ⟨f, hf, hacc, hlo, hhi⟩ := hf
    have hfc : regsCanonical (s.flag ofs.toNat i).regs := regsCanonical_putReg hs.1 _ _
    rw [hw.bit hfc hf ⟨hlo, hhi⟩ fun h => hopcfg_band_apart hw.placed h hf (.inr hacc) ⟨hlo, hhi⟩, hacc, State.hotMask_flag hst _ hi]
    have hset : ((s.flag ofs.toNat i).reg ofs.toNat).getLsbD i = true := by
      rw [(s.flag_flagged hs ofs.toNat i).1, BitVec.getLsbD_or, BitVec.getLsbD_twoPow]
      simp [hi]
    rw [hset]
    simp [takeBit]

end Sys2Proof.Machine
end
section
/-! SUPPORT. The register writes with a row of their own. -/

namespace Sys2Proof.Machine

/-! ### The rows by their offsets -/

/-- The name of a register, the unit it belongs to, its index and its lowest field. -/
def RegRef.row (r : RegRef) : RegName × Nat × Nat × Option Fld := (r.df.name, r.own, r.idx, r.df.fields.head?)

/-- The enable bit of a unit. -/
def enField : Fld := ⟨.rw, 0, 1, 0, 1⟩

theorem row_of {a : Nat} {r : RegRef} {x : RegName × Nat × Nat × Option Fld} (hr : regAt a = some r) (h : (regAt a).map RegRef.row = some x) :
    r.row = x := by
  rw [hr] at h
  exact Option.some.inj h

theorem row_hifCtrl : (regAt 0x100000).map RegRef.row = some (.hifCtrl, 0, 0, some enField) := by decide +kernel
theorem row_ring : ∀ g : Fin 37, (regAt (rcfgAddr g)).map RegRef.row = some (.hifRcfg, 0, g.val, some enField) := by decide +kernel
theorem row_lane : ∀ l : Fin 128, (regAt (laneBase l)).map RegRef.row = some (.lnkCfg, l.val, 0, some enField) := by decide +kernel
theorem row_orgctl : (regAt 0x300068).map (·.df.name) = some .tsOrgctl := by decide +kernel
theorem row_belCtrl : (regAt 0x500000).map (·.df.name) = some .belCtrl := by decide +kernel
theorem row_eyectl : ∀ l : Fin 128, (regAt (laneBase l + 0x1C)).map (fun r => (r.df.name, r.own)) = some (.lnkEyectl, l.val) := by decide +kernel

section
variable {s : State} {a : Nat} {v : Word} {r : RegRef}

/-- A written enable bit. -/
theorem State.WriteTaken.en (h : s.WriteTaken a v r) (hf : r.df.fields.head? = some enField) : (s.takenWord r v).getLsbD 0 = v.getLsbD 0 := by
  have hap := fieldsApart_of_placed h.placed
  simp only [fieldsApart, Bool.and_eq_true, decide_eq_true_eq] at hap
  rw [State.takenWord, takeWord_bit hap.1 (List.mem_of_head? hf) (by decide) (by decide)]
  rfl

theorem fieldOf_zero (w : Word) : fieldOf w 0 1 = bit (w.getLsbD 0) := fieldOf_bit w 0

theorem fld_en (s : State) (a : Nat) : s.fld a 0 1 = bit ((s.reg a).getLsbD 0) := fieldOf_bit _ 0

theorem bit_eq_one (b : Bool) : (bit b == 1) = b := by cases b <;> rfl

/-- The word with the row of its own, by its name. -/
theorem State.WriteTaken.after (h : s.WriteTaken a v r) {t : State} (hn : ∀ old w, (s.wordWritten r v).afterWrite r old w v = t) :
    s.hostWrite a v 15 = t := by rw [h.hostWrite, hn]

end

/-! ### The host interface and its rings -/

section
variable {s : State} {v : Word} {r : RegRef}

theorem enRises_of (hold : s.hifEn = false) {w : Word} (hw : w.getLsbD 0 = true) : enRises (s.reg 0x100000) w = true := by
  rw [State.hifEn, fld_en, bit_eq_one] at hold
  rw [enRises, fieldOf_zero, fieldOf_zero, hold, hw]
  rfl

/-- HIF_CTRL with EN = 1. -/
theorem State.WriteTaken.hifEnable (h : s.WriteTaken 0x100000 v r) (hv : v.getLsbD 0 = true) (he : s.hifEn = false) :
    s.hostWrite 0x100000 v 15 = (s.wordWritten r v).hifStarted ∧ (s.takenWord r v).getLsbD 0 = true := by
  obtain ⟨hn, -, -, hf⟩ : r.df.name = .hifCtrl ∧ _ ∧ _ ∧ r.df.fields.head? = some enField := by simpa [RegRef.row] using row_of h.found row_hifCtrl
  have hw := (h.en hf).trans hv
  refine ⟨?_, hw⟩
  rw [h.hostWrite, State.afterWrite, hn, h.addr]
  exact if_pos (enRises_of he hw)

/-- A ring's EN rising (R347). -/
theorem State.WriteTaken.ringEnable {g : Fin 37} (h : s.WriteTaken (rcfgAddr g) v r) (hv : v.getLsbD 0 = true) (he : s.ringEn g = false) :
    s.hostWrite (rcfgAddr g) v 15 = (s.wordWritten r v).ringStarted g ∧ (s.takenWord r v).getLsbD 0 = true := by
  obtain ⟨hn, -, hi, hf⟩ : r.df.name = .hifRcfg ∧ _ ∧ r.idx = g.val ∧ r.df.fields.head? = some enField := by
    simpa [RegRef.row] using row_of h.found (row_ring g)
  have hw := (h.en hf).trans hv
  refine ⟨?_, hw⟩
  rw [State.ringEn, fld_en, bit_eq_one] at he
  rw [h.hostWrite, State.afterWrite, hn, h.addr, hi]
  exact if_pos (by rw [enRises, fieldOf_zero, fieldOf_zero, he, hw]; rfl)

/-- A ring's EN falling. -/
theorem State.WriteTaken.ringDisable {g : Fin 37} (h : s.WriteTaken (rcfgAddr g) v r) (hv : v.getLsbD 0 = false) (he : s.ringEn g = true) :
    s.hostWrite (rcfgAddr g) v 15 = (s.wordWritten r v).ringStopped g ∧ (s.takenWord r v).getLsbD 0 = false := by
  obtain ⟨hn, -, hi, hf⟩ : r.df.name = .hifRcfg ∧ _ ∧ r.idx = g.val ∧ r.df.fields.head? = some enField := by
    simpa [RegRef.row] using row_of h.found (row_ring g)
  have hw := (h.en hf).trans hv
  refine ⟨?_, hw⟩
  rw [State.ringEn, fld_en, bit_eq_one] at he
  rw [h.hostWrite, State.afterWrite, hn, h.addr, hi]
  dsimp only
  rw [if_neg (by rw [enRises, fieldOf_zero, fieldOf_zero, he, hw]; decide), if_pos (by rw [enFalls, fieldOf_zero, fieldOf_zero, he, hw]; rfl)]

/-- The enable bit of a unit after its word has been written. -/
theorem State.wordWritten_en (hc : regsCanonical s.regs) : (s.wordWritten r v).fld r.addr 0 1 = bit ((s.takenWord r v).getLsbD 0) := by
  rw [fld_en, State.wordWritten_reg hc]

theorem State.wordWritten_fld_ne {b : Nat} (hb : b ≠ r.addr) (lo len : Nat) : (s.wordWritten r v).fld b lo len = s.fld b lo len := by
  rw [State.fld, State.wordWritten_reg_ne hb, State.fld]

theorem rcfgAddr_inj {p q : Nat} (h : p ≠ q) : rcfgAddr p ≠ rcfgAddr q := by
  unfold rcfgAddr
  omega

theorem State.ringStopped_spec (s : State) (g : Nat) :
    ((s.ringStopped g).ring g).halt = false ∧ ((s.ringStopped g).ring g).fetches = []
      ∧ (g < 10 → ((s.ringStopped g).ring (10 + g)).reserved = (s.ring (10 + g)).reserved - (s.ring g).fetching)
      ∧ (∀ q, q ≠ g → q ≠ 10 + g → (s.ringStopped g).ring q = s.ring q)
      ∧ s.ringStopped g = { s with rings := (s.ringStopped g).rings } := by
  unfold State.ringStopped
  dsimp only
  split
  · simp only [State.ring, State.updRing, Tab.get_upd]
    refine ⟨by simp, by simp, fun _ => by simp, fun q hq hq' => by simp [hq, hq'], trivial⟩
  · simp only [State.ring, State.updRing, Tab.get_upd]
    refine ⟨by simp, by simp, fun h => absurd h ‹_›, fun q hq _ => by simp [hq], trivial⟩

end

end Sys2Proof.Machine
end
section
/-! SUPPORT. Lanes turned on and off by LNK_CFG (R155), and the writes that start a unit. -/

namespace Sys2Proof.Machine

/-! ### Training the lanes -/

/-- A lane's training may start: it is off, enabled, usable, of a configured octad, with its quad's PLL locked. -/
def State.mayTrain (s : State) (l : Nat) : Prop :=
  (s.lane l).state = .off ∧ s.fld (laneBase l) 0 1 = 1 ∧ s.laneUsable l ∧ (s.oct (l / 16)).state ≠ .unconfigured
    ∧ (s.clk.quads.get (l / 4)).state = .locked

/-- One lane of the loop over the started quads. -/
def State.trainLane (l : Nat) (s : State) : State :=
  if (s.lane l).state = .off ∧ s.fld (laneBase l) 0 1 = 1 ∧ s.laneUsable l ∧ (s.oct (l / 16)).state ≠ .unconfigured
      ∧ (s.clk.quads.get (l / 4)).state = .locked then
    s.huntLane l .bringup
  else s

theorem State.trainLane_trains {s : State} {l : Nat} (h : s.mayTrain l) : s.trainLane l = s.huntLane l .bringup := if_pos h

theorem State.startLanes_eq (s : State) : s.startLanes = forNat 128 State.trainLane s := rfl

/-- What training other lanes leaves. -/
structure OtherLanes (l : Nat) (s u : State) : Prop where
  rest : u = { s with regs := u.regs, hotAt := u.hotAt, hot := u.hot, lanes := u.lanes }
  lane : u.lane l = s.lane l
  regs : RegsWithin LaneReg s u

theorem OtherLanes.refl (l : Nat) (s : State) : OtherLanes l s s := ⟨rfl, rfl, .refl s⟩

theorem OtherLanes.trans {l : Nat} {s t u : State} (h : OtherLanes l s t) (k : OtherLanes l t u) : OtherLanes l s u :=
  ⟨by rw [k.rest, h.rest], k.lane.trans h.lane, h.regs.trans k.regs⟩

theorem State.abortEye_spec (s : State) (m : Nat) :
    s.abortEye m = { s with regs := (s.abortEye m).regs, hotAt := (s.abortEye m).hotAt, hot := (s.abortEye m).hot, lanes := (s.abortEye m).lanes }
      ∧ ∀ l, (s.abortEye m).lane l = if l = m then { s.lane m with eye := none } else s.lane l := by
  unfold State.abortEye
  split
  · exact ⟨rfl, fun l => Tab.get_upd ..⟩
  · rename_i h
    refine ⟨rfl, fun l => ?_⟩
    split
    · subst l
      have he : (s.lane m).eye = none := by simpa using h
      rw [← he]
    · rfl

theorem State.huntLane_spec (s : State) (m : Nat) (p : Proc) :
    s.huntLane m p = { s with
        regs := (s.huntLane m p).regs, hotAt := (s.huntLane m p).hotAt, hot := (s.huntLane m p).hot, lanes := (s.huntLane m p).lanes }
      ∧ ((s.huntLane m p).lane m).state = .hunt ∧ ((s.huntLane m p).lane m).huntAt = s.now ∧ ∀ l, l ≠ m → (s.huntLane m p).lane l = s.lane l := by
  obtain ⟨hr, hl⟩ := s.abortEye_spec m
  unfold State.huntLane
  generalize s.abortEye m = u at hr hl ⊢
  refine ⟨?_, ?_, ?_, fun l hne => ?_⟩
  · rw [hr]
    rfl
  · exact congrArg Lane.state (Tab.get_upd_same ..)
  · exact congrArg Lane.huntAt (Tab.get_upd_same ..)
  · exact (Tab.get_upd_ne _ hne _).trans ((hl l).trans (if_neg hne))

theorem State.trainLane_other {l m : Nat} (h : l ≠ m) (s : State) : OtherLanes l s (s.trainLane m) := by
  unfold State.trainLane
  split
  · obtain ⟨hr, -, -, hl⟩ := s.huntLane_spec m .bringup
    exact ⟨hr, hl l h, s.huntLane_within m .bringup⟩
  · exact .refl l s

theorem laneBase_not_laneReg (l : Nat) : ¬LaneReg (laneBase l) := by
  simp only [LaneReg, FaultReg, laneBase, tileBase, octBase]
  rintro ((⟨n, h⟩ | ⟨n, h⟩ | ⟨k, hk, h⟩) | ⟨m, h⟩) <;> omega

theorem OtherLanes.mayTrain {l : Nat} {s u : State} (h : OtherLanes l s u) (hm : s.mayTrain l) : u.mayTrain l := by
  obtain ⟨hoff, hen, hus, hoct, hq⟩ := hm
  obtain ⟨hr, hl, hw⟩ := h
  have hf : u.fld (laneBase l) 0 1 = 1 := by rw [State.fld, hw.reg _ (laneBase_not_laneReg l)]; exact hen
  refine ⟨by rw [hl]; exact hoff, hf, ?_, ?_, ?_⟩
  all_goals rw [hr]; assumption

/-- The loop trains every lane that may train. -/
theorem State.startLanes_hunts {s : State} {l : Nat} (hl : l < 128) (hm : s.mayTrain l) :
    (s.startLanes.lane l).state = .hunt ∧ (s.startLanes.lane l).huntAt = s.now := by
  have hloop : ∀ k, if k ≤ l then OtherLanes l s (forNat k State.trainLane s)
      else ((forNat k State.trainLane s).lane l).state = .hunt ∧ ((forNat k State.trainLane s).lane l).huntAt = s.now := by
    intro k
    induction k with
    | zero => exact OtherLanes.refl l s
    | succ k ih =>
      have hstep : forNat (k + 1) State.trainLane s = (forNat k State.trainLane s).trainLane k := rfl
      rw [hstep]
      rcases Nat.lt_trichotomy k l with hlt | heq | hgt
      · rw [if_pos (by omega)] at ih
        rw [if_pos (by omega)]
        exact ih.trans (State.trainLane_other (by omega) _)
      · subst heq
        rw [if_pos (Nat.le_refl k)] at ih
        rw [if_neg (by omega)]
        have hk := ih.mayTrain hm
        have hnow : (forNat k State.trainLane s).now = s.now := by rw [ih.rest]; rfl
        rw [← hnow]
        generalize forNat k State.trainLane s = u at hk
        obtain ⟨-, h1, h2, -⟩ := u.huntLane_spec k .bringup
        rw [State.trainLane_trains hk]
        exact ⟨h1, h2⟩
      · rw [if_neg (by omega)] at ih
        rw [if_neg (by omega), (State.trainLane_other (by omega) _).lane]
        exact ih
  have := hloop 128
  rwa [if_neg (by omega)] at this

/-! ### Turning a lane off -/

theorem State.finishWaiting_lanes (s : State) (k : WaitKind) (st : Status) (n : Nat) : (s.finishWaiting k st n).lanes = s.lanes := by
  unfold State.finishWaiting
  dsimp only
  have hfold : ∀ (l : List Waiting) (u : State),
      (l.foldl (fun s w => s.completeNow w.d (if st = .ok ∧ w.late then .late else st) n) u).lanes = u.lanes := by
    intro l
    induction l with
    | nil => exact fun _ => rfl
    | cons w l ih =>
      intro u
      rw [List.foldl_cons, ih]
      have h : RingsOnly u (u.completeNow w.d (if st = .ok ∧ w.late then .late else st) n) := RingsOnly.complete ..
      rw [h]
  exact hfold _ _

/-- A lane that is powered and loses its enable bit is turned off. -/
theorem State.laneEnWritten_off {s : State} {l : Nat} (hen : s.fld (laneBase l) 0 1 = 0) (hr : (s.lane l).state ≠ .retired)
    (ho : (s.lane l).state ≠ .off) :
    ((s.laneEnWritten l).lane l).state = .off ∧ ((s.laneEnWritten l).lane l).lock = false
      ∧ ∀ m, m ≠ l → ((s.laneEnWritten l).lane m).state = (s.lane m).state := by
  unfold State.laneEnWritten
  rw [if_neg (by rw [hen]; decide), if_neg (by simp [hr, ho])]
  obtain ⟨-, hl⟩ := s.abortEye_spec l
  generalize s.abortEye l = u at hl
  have hoff : u.lanesOff [l] = (u.abortEye l).updLane l fun x => x.powerDown .off := rfl
  obtain ⟨-, hl'⟩ := u.abortEye_spec l
  rw [hoff]
  generalize u.abortEye l = w at hl'
  have hend : ∀ m, ((((w.updLane l fun x => x.powerDown .off).windowDone (.lane l)).endEnum l .timeout 0).lane m)
      = if m = l then { (w.lane l).powerDown .off with auxAt := none, aux := 0 } else w.lane m := fun m => by
    rw [State.endEnum, State.lane, State.finishWaiting_lanes]
    change ((w.lanes.upd l _).upd l _).get m = _
    rw [Tab.get_upd, Tab.get_upd, Tab.get_upd]
    split
    · rw [if_pos rfl]
      rfl
    · rfl
  refine ⟨by rw [hend, if_pos rfl]; rfl, by rw [hend, if_pos rfl]; rfl, fun m hm => ?_⟩
  rw [hend, if_neg hm, hl', if_neg hm, hl, if_neg hm]

section
variable {s : State} {v : Word} {r : RegRef} {l : Fin 128}

/-- A write of LNK_CFG goes on to its lane. -/
theorem State.WriteTaken.laneWrite (h : s.WriteTaken (laneBase l) v r) (hc : regsCanonical s.regs) :
    s.hostWrite (laneBase l) v 15 = (s.wordWritten r v).laneEnWritten l ∧ (s.wordWritten r v).fld (laneBase l) 0 1 = Sys2Proof.bit (v.getLsbD 0)
      ∧ (s.hostWrite (laneBase l) v 15).fld (laneBase l) 0 1 = Sys2Proof.bit (v.getLsbD 0) := by
  obtain ⟨hn, ho, -, hf⟩ : r.df.name = .lnkCfg ∧ r.own = l.val ∧ _ ∧ r.df.fields.head? = some enField := by
    simpa [RegRef.row] using row_of h.found (row_lane l)
  have heq : s.hostWrite (laneBase l) v 15 = (s.wordWritten r v).laneEnWritten l := by
    rw [h.hostWrite, State.afterWrite, hn, ho]
  have hen : (s.wordWritten r v).fld (laneBase l) 0 1 = Sys2Proof.bit (v.getLsbD 0) := by
    have := State.wordWritten_en (s := s) (v := v) (r := r) hc
    rwa [h.addr, h.en hf] at this
  refine ⟨heq, hen, ?_⟩
  rw [heq, State.fld, ((s.wordWritten r v).laneEnWritten_within l).reg _ (laneBase_not_laneReg l)]
  exact hen

end

/-! ### The MSI-X table -/

/-- With no vector pending nothing is sent. -/
theorem State.sendPending_none {s : State} (h : s.hif.pba = 0) : s.sendPending = s := by
  unfold State.sendPending
  refine forNat_induct (P := fun u => u = s) (fun i u hu => ?_) 64 rfl
  subst hu
  exact if_neg (by simp [h])

/-- Settles O27: each write is taken, and its row of its own follows from the name at its offset. -/
theorem registerRowsStartTheirUnits : Obligations.RegisterRowsStartTheirUnits := by
  unfold Obligations.RegisterRowsStartTheirUnits
  refine ⟨fun ctrl r s hw hs he => ⟨s.hostWrite 0x100000 (ctrl ||| 1) 15, rfl, ?_⟩, fun g cfg r s hw hs he => ⟨s.hostWrite _ (cfg ||| 1) 15, rfl, ?_⟩,
    fun g r s hw hs he => ⟨s.hostWrite _ _ 15, rfl, ?_⟩, fun r s hw => ⟨s.hostWrite _ _ 15, rfl, ?_⟩, fun r s hw => ⟨s.hostWrite _ _ 15, rfl, ?_⟩,
    fun l r s hw => ⟨s.hostWrite _ _ 15, rfl, ?_⟩, fun l r s hw hs => ⟨s.hostWrite _ _ 15, rfl, ?_⟩,
    fun l r s hw hs hret hoff => ⟨s.hostWrite _ _ 15, rfl, ?_⟩, fun ofs v s hlink hreset => ⟨fun hv => ?_, fun hv => ?_⟩,
    fun i v s hr hp => ?_, fun s hr => ?_⟩
  · obtain ⟨heq, hbit⟩ := hw.hifEnable (by simp) he
    have ha := hw.addr
    have hen := State.wordWritten_en (s := s) (v := ctrl ||| 1) (r := r) hs.1
    rw [ha, hbit] at hen
    have hlost := State.wordWritten_fld_ne (s := s) (v := ctrl ||| 1) (r := r) (b := 0x10000C) (by rw [ha]; decide) 0 14
    rw [heq]
    refine ⟨?_, rfl, fun h1 h2 h3 => ?_, rfl⟩
    · show ((s.wordWritten r (ctrl ||| 1)).fld 0x100000 0 1 == 1) = true
      rw [hen]
      rfl
    · show (if ((s.hif.lostTimer.isNone && !s.hif.lost && !s.hif.sweeping) = true) then
          some ((s.wordWritten r (ctrl ||| 1)).hifNow + (s.wordWritten r (ctrl ||| 1)).hostLostTicks) else s.hif.lostTimer) = _
      rw [State.hostLostTicks, hlost, h1, h2, h3]
      rfl
  · obtain ⟨heq, hbit⟩ := hw.ringEnable (by simp) he
    have hen := State.wordWritten_en (s := s) (v := cfg ||| 1) (r := r) hs.1
    rw [hw.addr, hbit] at hen
    rw [heq]
    refine ⟨?_, ?_, ?_, fun q hq => ⟨Tab.get_upd_ne _ hq _, ?_⟩, rfl⟩
    · show ((s.wordWritten r (cfg ||| 1)).fld (rcfgAddr g) 0 1 == 1) = true
      rw [hen]
      rfl
    · exact congrArg Ring.dev (Tab.get_upd_same ..)
    · exact congrArg Ring.host (Tab.get_upd_same ..)
    · show ((s.wordWritten r (cfg ||| 1)).fld (rcfgAddr q) 0 1 == 1) = s.ringEn q
      rw [State.wordWritten_fld_ne (by rw [hw.addr]; exact rcfgAddr_inj hq)]
      rfl
  · obtain ⟨heq, hbit⟩ := hw.ringDisable (by simp) he
    have hen := State.wordWritten_en (s := s) (v := s.reg (rcfgAddr g) &&& ~~~1) (r := r) hs.1
    rw [hw.addr, hbit] at hen
    obtain ⟨h1, h2, h3, h4, h5⟩ := (s.wordWritten r (s.reg (rcfgAddr g) &&& ~~~1)).ringStopped_spec g
    have hringEn : ∀ q, ((s.wordWritten r (s.reg (rcfgAddr g) &&& ~~~1)).ringStopped g).ringEn q
        = (s.wordWritten r (s.reg (rcfgAddr g) &&& ~~~1)).ringEn q := fun q => by rw [h5]; rfl
    rw [heq]
    refine ⟨?_, h1, h2, h3, fun q hq => ⟨?_, h4 q hq⟩, ?_⟩
    · rw [hringEn, State.ringEn, hen]
      rfl
    · rw [hringEn, State.ringEn, State.wordWritten_fld_ne (by rw [hw.addr]; exact rcfgAddr_inj hq), State.ringEn]
    · rw [h5]
      rfl
  · have hn : r.df.name = .tsOrgctl := by
      have := row_orgctl
      rw [hw.found] at this
      exact Option.some.inj this
    have horg : (s.wordWritten r 1).writtenOrigin = s.writtenOrigin := by
      unfold State.writtenOrigin
      rw [State.wordWritten_reg_ne (by rw [hw.addr]; decide), State.wordWritten_reg_ne (by rw [hw.addr]; decide)]
      rfl
    rw [hw.hostWrite, State.afterWrite, hn]
    dsimp only
    rw [if_pos (by decide), horg]
    rfl
  · have hn : r.df.name = .belCtrl := by
      have := row_belCtrl
      rw [hw.found] at this
      exact Option.some.inj this
    rw [hw.hostWrite, State.afterWrite, hn]
    dsimp only
    rw [if_pos (by decide)]
    rfl
  · have hrow : (r.df.name, r.own) = (.lnkEyectl, l.val) := by
      have := row_eyectl l
      rw [hw.found] at this
      exact Option.some.inj this
    obtain ⟨hn, ho⟩ := Prod.mk.inj hrow
    rw [hw.hostWrite, State.afterWrite, hn, ho]
    dsimp only
    rw [if_pos (by rw [fieldOf_zero]; simp [bit])]
    unfold State.startEye
    split
    · rename_i heye
      obtain ⟨k, hk⟩ := Option.isSome_iff_exists.mp heye
      refine ⟨?_, fun _ _ => rfl, rfl⟩
      rw [hk]
      exact congrArg some (by rw [show (s.lane l).eye = some k from hk]; rfl)
    · rename_i heye
      have hnone : (s.lane l).eye = none := Option.not_isSome_iff_eq_none.mp heye
      refine ⟨?_, fun m hm => Tab.get_upd_ne _ hm _, rfl⟩
      rw [hnone]
      exact congrArg Lane.eye (Tab.get_upd_same ..)
  · obtain ⟨heq, hen, hfld⟩ := hw.laneWrite hs.1
    have hbit : (s.reg (laneBase l) ||| 1).getLsbD 0 = true := by simp
    rw [hbit] at hen hfld
    refine ⟨hfld, fun hoff hus hoct hq => ?_⟩
    rw [heq, State.laneEnWritten, if_pos (show _ = 1 from hen)]
    exact State.startLanes_hunts l.isLt ⟨hoff, hen, hus, hoct, hq⟩
  · obtain ⟨heq, hen, hfld⟩ := hw.laneWrite hs.1
    have hbit : (s.reg (laneBase l) &&& ~~~1).getLsbD 0 = false := by simp
    rw [hbit] at hen hfld
    obtain ⟨h1, h2, h3⟩ := State.laneEnWritten_off (s := s.wordWritten r _) hen hret hoff
    refine ⟨hfld, ?_⟩
    rw [heq]
    exact ⟨h1, h2, h3⟩
  · have h3 : field v.toNat 0 2 = 3 := by simpa [field] using hv
    simp [exec, execRegisterWrite, hlink, hreset, State.powerState, h3]
  · have h0 : field v.toNat 0 2 = 0 := by simpa [field] using hv
    simp [exec, execRegisterWrite, hlink, hreset, State.powerState, h0]
  · have hofs : (BitVec.ofNat 24 (16 * i.val + 12)).toNat = 16 * i + 12 := by
      rw [BitVec.toNat_ofNat, Nat.mod_eq_of_lt (by omega)]
    have hidx : (16 * i.val + 12) / 16 = i.val ∧ (16 * i.val + 12) % 16 / 4 = 3 := by omega
    have hrow : 16 * i.val + 12 < 0x400 ∧ (16 * i.val + 12) % 4 = 0 ∧ (15 : BitVec 4) = 15 := ⟨by omega, by omega, rfl⟩
    have hexec : exec (.registerWrite ⟨.bar2, BitVec.ofNat 24 (16 * i.val + 12)⟩ v 15) s
        = .next { s with hif := { s.hif with msixTab := s.hif.msixTab.upd i fun e => { e with mask := v.getLsbD 0 } } } := by
      simp only [exec, execRegisterWrite, hr, if_true, hofs]
      rw [State.bar2Write, if_pos hrow, hidx.1, hidx.2]
      exact congrArg Host.Outcome.next (State.sendPending_none hp)
    exact ⟨_, hexec, congrArg MsixEntry.mask (Tab.get_upd_same ..), fun j hj => Tab.get_upd_ne _ hj _, rfl⟩
  · simp [exec, execTsTime0Read, hr]

end Sys2Proof.Machine
end
section
/-! SUPPORT. The doorbell page: indices taken, GEN, reads of descriptors, the device half (R349 to R354). -/

namespace Sys2Proof.Machine

/-! ### The device half and its interrupts (R352, R355) -/

/-- What a sweep's end may change: what has left the block, the marks of the rings, the pending vectors and the page as it was written. -/
structure HalfFrame (s t : State) : Prop where
  rest : t = { s with out := t.out, rings := t.rings, hif := { s.hif with doorbell := t.hif.doorbell, pba := t.hif.pba } }
  out : s.out <+: t.out
  ring : ∀ r, { t.ring r with irqDue := false, gained := false } = { s.ring r with irqDue := false, gained := false }

namespace HalfFrame
variable {s t u : State}

theorem refl (s : State) : HalfFrame s s := ⟨rfl, List.prefix_rfl, fun _ => rfl⟩

theorem trans (h : HalfFrame s t) (k : HalfFrame t u) : HalfFrame s u :=
  ⟨by rw [k.rest, h.rest], h.out.trans k.out, fun r => (k.ring r).trans (h.ring r)⟩

theorem host (h : HalfFrame s t) (r : Nat) : (t.ring r).host = (s.ring r).host := (congrArg Ring.host (h.ring r) :)
theorem dev (h : HalfFrame s t) (r : Nat) : (t.ring r).dev = (s.ring r).dev := (congrArg Ring.dev (h.ring r) :)
theorem halt (h : HalfFrame s t) (r : Nat) : (t.ring r).halt = (s.ring r).halt := (congrArg Ring.halt (h.ring r) :)
theorem fetches (h : HalfFrame s t) (r : Nat) : (t.ring r).fetches = (s.ring r).fetches := (congrArg Ring.fetches (h.ring r) :)

theorem sweepOpen (h : HalfFrame s t) (k : Nat) : t.sweepOpen k = s.sweepOpen k := by
  unfold State.sweepOpen
  simp only [h.fetches]

theorem deviceHalf (h : HalfFrame s t) : t.deviceHalf = s.deviceHalf := by
  unfold State.deviceHalf
  simp only [h.dev]
  rw [h.rest]

end HalfFrame

theorem State.sendVector_frame (s : State) (v : Nat) : HalfFrame s (s.sendVector v) ∧ (s.sendVector v).hif.doorbell = s.hif.doorbell := by
  unfold State.sendVector
  split
  · exact ⟨.refl s, rfl⟩
  · split
    · exact ⟨⟨rfl, List.prefix_rfl, fun _ => rfl⟩, rfl⟩
    · exact ⟨⟨rfl, ⟨_, rfl⟩, fun _ => rfl⟩, rfl⟩

theorem State.writeHalf_spec (s : State) : HalfFrame s s.writeHalf ∧ s.writeHalf.hif.doorbell = s.deviceHalf := by
  unfold State.writeHalf
  dsimp only
  split
  · rename_i h
    exact ⟨.refl s, h.symm⟩
  · generalize List.filterMap _ _ = vs
    generalize hu : State.emit _ _ = u
    have h0 : HalfFrame s u ∧ u.hif.doorbell = s.deviceHalf := by
      subst hu
      exact ⟨⟨rfl, ⟨_, rfl⟩, fun _ => rfl⟩, rfl⟩
    have hloop := forNat_induct (P := fun w => HalfFrame u w ∧ w.hif.doorbell = u.hif.doorbell)
      (f := fun v s => if vs.contains v then s.sendVector v else s) (fun v w hw => by
        split
        · obtain ⟨h1, h2⟩ := w.sendVector_frame v
          exact ⟨hw.1.trans h1, h2.trans hw.2⟩
        · exact hw) 64 ⟨.refl u, rfl⟩
    generalize forNat 64 _ u = w at hloop ⊢
    obtain ⟨h1, h2⟩ := hloop
    have hw := h0.1.trans h1
    refine ⟨⟨?_, hw.out, fun r => ?_⟩, h2.trans h0.2⟩
    · rw [hw.rest]
    · exact (Tab.look_map_congr (fun x : Ring => ({ x with irqDue := false, gained := false } : Ring))
        (f := fun _ x => { x with irqDue := false, gained := false }) (fun _ _ => rfl) ..).trans (hw.ring r)

/-- The end of a sweep: once its last read of descriptors is over the device half is written (R352). -/
theorem State.sweepDone_spec (s : State) (k : Nat) :
    HalfFrame s (s.sweepDone k) ∧ ((s.sweepDone k).sweepOpen k = false → (s.sweepDone k).hif.doorbell = (s.sweepDone k).deviceHalf) := by
  unfold State.sweepDone
  split
  · rename_i h
    exact ⟨.refl s, fun hn => absurd (h.symm.trans hn) (by decide)⟩
  · obtain ⟨hf, hd⟩ := s.writeHalf_spec
    exact ⟨hf, fun _ => hd.trans hf.deviceHalf.symm⟩

/-! ### Indices (R354) -/

/-- Words that an index out of range writes: the OVF flag of its ring, and a fault's. -/
def RingReg (a : Nat) : Prop := FaultReg a ∨ ∃ r, a = rcfgAddr r + 4

/-- What taking an index may change. -/
structure IndexFrame (s t : State) : Prop where
  hif : t.hif = s.hif
  time : t.hifNow = s.hifNow
  out : s.out <+: t.out
  regs : RegsWithin RingReg s t

namespace IndexFrame
variable {s t u : State}

theorem refl (s : State) : IndexFrame s s := ⟨rfl, rfl, List.prefix_rfl, .refl s⟩

theorem trans (h : IndexFrame s t) (k : IndexFrame t u) : IndexFrame s u :=
  ⟨k.hif.trans h.hif, k.time.trans h.time, h.out.trans k.out, h.regs.trans k.regs⟩

theorem updRing (s : State) (r : Nat) (f : Ring → Ring) : IndexFrame s (s.updRing r f) := ⟨rfl, rfl, List.prefix_rfl, .same rfl⟩

theorem fld (h : IndexFrame s t) {a : Nat} (ha : ¬RingReg a) (lo len : Nat) : t.fld a lo len = s.fld a lo len := by
  rw [State.fld, h.regs.reg a ha, State.fld]

end IndexFrame

theorem rcfgAddr_not_ringReg (r : Nat) (hr : r < 37) : ¬RingReg (rcfgAddr r) := by
  rintro (h | ⟨q, h⟩)
  · have := h.bounds
    unfold rcfgAddr at this
    omega
  · unfold rcfgAddr at h
    omega

theorem not_ringReg_of_lt {a : Nat} (ha : a < 0x10010C) : ¬RingReg a := by
  rintro (h | ⟨q, h⟩)
  · have := h.bounds
    omega
  · unfold rcfgAddr at h
    omega

theorem State.haltRing_spec (s : State) (r : Nat) :
    IndexFrame s (s.haltRing r) ∧ (s.haltRing r).rings = s.rings.upd r fun x => { x with halt := true } := by
  unfold State.haltRing
  generalize hu : (s.updRing r fun x => { x with halt := true }).flag (rcfgAddr r + 4) 1 = u
  have h1 : IndexFrame s u ∧ u.rings = s.rings.upd r fun x => { x with halt := true } := by
    have hring : RegsWithin RingReg s (s.updRing r fun x => { x with halt := true }) := .same rfl
    have hflag := hring.trans (.flag _ (Or.inr ⟨r, rfl⟩) 1)
    subst hu
    exact ⟨⟨rfl, rfl, List.prefix_rfl, hflag⟩, rfl⟩
  have hr := u.raise_frame 0x3505 r []
  have hw := (u.raise_regs (code := 0x3505) (by decide) r []).mono (V := RingReg) fun _ h => .inl h
  have h2 : IndexFrame u (u.raise 0x3505 r []) := ⟨hr.hif_eq, by rw [State.hifNow, hr.now_eq, hr.clk_eq, State.hifNow], hr.out, hw⟩
  exact ⟨h1.1.trans h2, hr.rings_eq.trans h1.2⟩

/-- A producer index as its ring takes it. -/
def State.takenRing (s : State) (r : Nat) (i : BitVec 16) : Ring :=
  if !s.ringEn r || (s.ring r).halt then s.ring r
  else if s.ringSize r - 1 < (i - (s.ring r).dev).toNat then { s.ring r with halt := true }
  else { s.ring r with host := i }

theorem State.takeProducer_spec (s : State) (r : Nat) (i : BitVec 16) :
    IndexFrame s (s.takeProducer r i) ∧ (s.takeProducer r i).ring r = s.takenRing r i ∧ ∀ q, q ≠ r → (s.takeProducer r i).ring q = s.ring q := by
  unfold State.takeProducer State.takenRing
  split
  · exact ⟨.refl s, rfl, fun _ _ => rfl⟩
  · split
    · obtain ⟨h1, h2⟩ := s.haltRing_spec r
      refine ⟨h1, ?_, fun q hq => ?_⟩
      · rw [State.ring, h2, Tab.get_upd_same]
        rfl
      · rw [State.ring, h2, Tab.get_upd_ne _ hq]
        rfl
    · exact ⟨.updRing s r _, Tab.get_upd_same .., fun q hq => Tab.get_upd_ne _ hq _⟩

theorem State.takeConsumer_spec (s : State) (r : Nat) (i : BitVec 16) :
    IndexFrame s (s.takeConsumer r i) ∧ ∀ q, q ≠ r → (s.takeConsumer r i).ring q = s.ring q := by
  unfold State.takeConsumer
  split
  · exact ⟨.refl s, fun _ _ => rfl⟩
  · split
    · obtain ⟨h1, h2⟩ := s.haltRing_spec r
      refine ⟨h1, fun q hq => ?_⟩
      rw [State.ring, h2, Tab.get_upd_ne _ hq]
      rfl
    · exact ⟨.updRing s r _, fun q hq => Tab.get_upd_ne _ hq _⟩

/-- What a ring takes depends on its own words and state alone. -/
theorem State.takenRing_congr {s u : State} (h : IndexFrame s u) {r : Nat} (hr : r < 37) (hring : u.ring r = s.ring r) (i : BitVec 16) :
    u.takenRing r i = s.takenRing r i := by
  have hn := rcfgAddr_not_ringReg r hr
  unfold State.takenRing State.ringEn State.ringSize
  rw [hring, h.fld hn, h.fld hn]

/-- The producer indices of a page, each as its ring takes it. -/
theorem State.takeIndices_spec (s : State) (p : List Word) :
    IndexFrame s (s.takeIndices p) ∧ ∀ r < 10, (s.takeIndices p).ring r = s.takenRing r (loHalf (p.getD r 0)) := by
  have hloop : ∀ k ≤ 10, IndexFrame s (forNat k (fun w s => (s.takeProducer w (loHalf (p.getD w 0))).takeConsumer (10 + w) (hiHalf (p.getD w 0))) s)
      ∧ ∀ r < 10, (forNat k (fun w s => (s.takeProducer w (loHalf (p.getD w 0))).takeConsumer (10 + w) (hiHalf (p.getD w 0))) s).ring r
        = if r < k then s.takenRing r (loHalf (p.getD r 0)) else s.ring r := by
    intro k
    induction k with
    | zero => exact fun _ => ⟨.refl s, fun r _ => rfl⟩
    | succ k ih =>
      intro hk
      obtain ⟨hf, hr⟩ := ih (by omega)
      have hstep : ∀ f : Nat → State → State, forNat (k + 1) f s = f k (forNat k f s) := fun _ => rfl
      rw [hstep]
      generalize forNat k _ s = u at hf hr
      obtain ⟨p1, p2, p3⟩ := u.takeProducer_spec k (loHalf (p.getD k 0))
      generalize u.takeProducer k (loHalf (p.getD k 0)) = v at p1 p2 p3
      obtain ⟨c1, c2⟩ := v.takeConsumer_spec (10 + k) (hiHalf (p.getD k 0))
      refine ⟨(hf.trans p1).trans c1, fun r hlt => ?_⟩
      rw [c2 r (by omega)]
      by_cases hrk : r = k
      · subst hrk
        rw [p2, if_pos (by omega), State.takenRing_congr hf (by omega) (by rw [hr r hlt, if_neg (by omega)])]
      · rw [p3 r hrk, hr r hlt]
        have : r < k + 1 ↔ r < k := by omega
        simp only [this]
  obtain ⟨hf, hr⟩ := hloop 10 (by decide)
  unfold State.takeIndices
  dsimp only
  generalize forNat 10 _ s = u at hf hr
  have hrest := forNat_induct (P := fun w => IndexFrame u w ∧ ∀ r < 10, w.ring r = u.ring r)
    (f := fun i s => s.takeConsumer (20 + i) (loHalf (p.getD (10 + i) 0))) (fun i w hw => by
      obtain ⟨c1, c2⟩ := w.takeConsumer_spec (20 + i) (loHalf (p.getD (10 + i) 0))
      exact ⟨hw.1.trans c1, fun r hlt => (c2 r (by omega)).trans (hw.2 r hlt)⟩) 16 ⟨.refl u, fun _ _ => rfl⟩
  generalize forNat 16 _ u = w at hrest
  obtain ⟨c1, c2⟩ := w.takeConsumer_spec 36 (loHalf (p.getD 26 0))
  refine ⟨(hf.trans hrest.1).trans c1, fun r hlt => ?_⟩
  rw [c2 r (by omega), hrest.2 r hlt, hr r hlt, if_pos hlt]

end Sys2Proof.Machine
end
section
/-! SUPPORT. A doorbell sweep (R349 to R354, R368). -/

namespace Sys2Proof.Machine

/-! ### Reads of descriptors (R353) -/

/-- Reads that are issued: rings and what has left the block; indices and halts stay, and a halted ring reads nothing. -/
structure FetchFrame (s t : State) : Prop where
  rest : RingsOnly s t
  out : s.out <+: t.out
  host : ∀ r, (t.ring r).host = (s.ring r).host
  halt : ∀ r, (t.ring r).halt = (s.ring r).halt
  halted : ∀ r, (s.ring r).halt = true → (t.ring r).fetches = (s.ring r).fetches

namespace FetchFrame
variable {s t u : State}

theorem refl (s : State) : FetchFrame s s := ⟨.refl s, List.prefix_rfl, fun _ => rfl, fun _ => rfl, fun _ _ => rfl⟩

theorem trans (h : FetchFrame s t) (k : FetchFrame t u) : FetchFrame s u :=
  ⟨h.rest.trans k.rest, h.out.trans k.out, fun r => (k.host r).trans (h.host r), fun r => (k.halt r).trans (h.halt r),
    fun r hr => (k.halted r ((h.halt r).trans hr)).trans (h.halted r hr)⟩

theorem foldl {α : Type} {f : State → α → State} (h : ∀ s a, FetchFrame s (f s a)) (l : List α) (s : State) : FetchFrame s (l.foldl f s) := by
  induction l generalizing s with
  | nil => exact refl s
  | cons a l ih => exact (h s a).trans (ih _)

end FetchFrame

theorem State.issueRead_frame (s : State) (k : ReadKind) (addr : BitVec 64) (len : Nat) :
    s.issueRead k addr len = { s with out := (s.issueRead k addr len).out } ∧ s.out <+: (s.issueRead k addr len).out := by
  unfold State.issueRead
  split
  · exact ⟨rfl, ⟨_, rfl⟩⟩
  · exact ⟨rfl, List.prefix_rfl⟩

theorem State.fetchRead_frame (s : State) (r : Fin 10) (sweep n : Nat) (h : (s.ring r).halt = true → n = 0) :
    FetchFrame s (s.fetchRead r sweep n) := by
  unfold State.fetchRead
  split
  · exact .refl s
  · rename_i hn
    dsimp only
    generalize hu : State.updRing _ (10 + r.val) _ = u
    generalize u.entryAddr r _ = addr
    obtain ⟨h1, h2⟩ := u.issueRead_frame (.fetch r (BitVec.ofNat 8 n)) addr (32 * n)
    have hring : ∀ q, (u.ring q).host = (s.ring q).host ∧ (u.ring q).halt = (s.ring q).halt ∧
        (q ≠ r.val → (u.ring q).fetches = (s.ring q).fetches) := by
      intro q
      subst hu
      simp only [State.ring, State.updRing, Tab.get_upd]
      by_cases hq : q = 10 + r.val
      · subst hq
        simp
      · by_cases hr : q = r.val
        · subst hr
          simp
        · simp [hq, hr]
    have hs : RingsOnly s u := by subst hu; rfl
    have hout : u.out = s.out := by subst hu; rfl
    have hri : ∀ q, (u.issueRead (.fetch r (BitVec.ofNat 8 n)) addr (32 * n)).ring q = u.ring q := fun q => by rw [h1]; rfl
    refine ⟨hs.trans ?_, hout ▸ h2, fun q => ?_, fun q => ?_, fun q hq => ?_⟩
    · rw [h1]
      rfl
    · rw [hri, (hring q).1]
    · rw [hri, (hring q).2.1]
    · rw [hri]
      exact (hring q).2.2 fun hqr => hn (h (hqr ▸ hq))

theorem State.fetchRing_frame (s : State) (r : Fin 10) (sweep : Nat) : FetchFrame s (s.fetchRing r sweep) := by
  have hzero : (s.ring r).halt = true → s.fetchCount r = 0 := fun h => by
    unfold State.fetchCount
    dsimp only
    rw [if_pos (by simp [h])]
  unfold State.fetchRing
  dsimp only
  generalize hn : s.fetchCount r = n at hzero
  generalize hm : min n _ = m
  have h1 := s.fetchRead_frame r sweep m fun h => by rw [← hm, hzero h, Nat.zero_min]
  exact h1.trans (State.fetchRead_frame _ r sweep (n - m) fun h => by rw [hzero ((h1.halt r).symm.trans h), Nat.zero_sub])

theorem State.fetchAll_frame (s : State) (sweep : Nat) : FetchFrame s (s.fetchAll sweep) :=
  FetchFrame.foldl (fun u r => u.fetchRing_frame r sweep) _ _

/-! ### GEN (R368, R369) -/

/-- What taking GEN changes: the host interface's record of it and of the host-lost timer. -/
structure GenFrame (s t : State) (g : Word) : Prop where
  gen : t.hif.gen = g ∧ t.hif.genSeen = true
  sweeps : t.hif.sweeps = s.hif.sweeps ∧ t.hif.sweepAt = s.hif.sweepAt
  rings : t.rings = s.rings
  out : s.out <+: t.out
  back : s.hif.genSeen = true → g ≠ s.hif.gen → s.hif.lost = true →
    t.hif.lost = false ∧ t.hif.lostTimer = some (s.hifNow + s.hostLostTicks)
  timer : ∀ x, s.hif.genSeen = true → g ≠ s.hif.gen → s.hif.lost = false → s.hif.lostTimer = some x → s.hifNow ≤ x →
    t.hif.lostTimer = some (s.hifNow + s.hostLostTicks)

theorem State.takeGen_frame (s : State) (g : Word) : GenFrame s (s.takeGen g) g := by
  unfold State.takeGen
  dsimp only
  split
  · rename_i hc
    have hno : s.hif.genSeen = true → g ≠ s.hif.gen → False := fun hs hg => by
      rw [hs, bne_iff_ne.mpr hg] at hc
      exact absurd hc (by decide)
    exact ⟨⟨rfl, rfl⟩, ⟨rfl, rfl⟩, rfl, List.prefix_rfl, fun hs hg => (hno hs hg).elim, fun _ hs hg => (hno hs hg).elim⟩
  · split
    · rename_i hl
      generalize hu : State.setFld _ 0x100010 0 1 0 = u
      have hr := u.raise_frame 0x3504 0 []
      have hh : u.hif = { s.hif with gen := g, genSeen := true, lost := false, lostTimer := some (s.hifNow + s.hostLostTicks) } := by
        subst hu
        rfl
      have hrest : u.rings = s.rings ∧ u.out = s.out := by subst hu; exact ⟨rfl, rfl⟩
      have hhif := hr.hif_eq.trans hh
      have hrings := hr.rings_eq.trans hrest.1
      have hout := hr.out
      generalize u.raise 0x3504 0 [] = w at hhif hrings hout
      refine ⟨by rw [hhif]; exact ⟨rfl, rfl⟩, by rw [hhif]; exact ⟨rfl, rfl⟩, hrings, hrest.2 ▸ hout, fun _ _ _ => ?_,
        fun _ _ _ hn => absurd (hl.symm.trans hn) (by decide)⟩
      rw [hhif]
      exact ⟨rfl, rfl⟩
    · rename_i hl
      have hlost : s.hif.lost = true → False := fun h => hl h
      split
      · rename_i x hx
        have hx : s.hif.lostTimer = some x := hx
        split
        · exact ⟨⟨rfl, rfl⟩, ⟨rfl, rfl⟩, rfl, List.prefix_rfl, fun _ _ h => (hlost h).elim, fun _ _ _ _ _ _ => rfl⟩
        · rename_i hn
          refine ⟨⟨rfl, rfl⟩, ⟨rfl, rfl⟩, rfl, List.prefix_rfl, fun _ _ h => (hlost h).elim, fun y _ _ _ hy hle => absurd ?_ hn⟩
          rw [hx] at hy
          cases hy
          exact hle
      · rename_i hx
        have hx : s.hif.lostTimer = none := hx
        refine ⟨⟨rfl, rfl⟩, ⟨rfl, rfl⟩, rfl, List.prefix_rfl, fun _ _ h => (hlost h).elim, fun y _ _ _ hy => ?_⟩
        rw [hx] at hy
        exact absurd hy (by simp)

/-! ### The sweep -/

/-- The data of a sweep read within its time, the oldest being w. -/
theorem State.exec_doorbellSweep {s : State} {page : List Word} {w : Sweep} {rest : List Sweep} (he : s.hifEn = true) (hr : s.hostReach = true)
    (hs : s.issueSweep.hif.sweeps = w :: rest) (hc : s.issueSweep.inCplTime w.issued = true) :
    exec (.doorbellSweep page) s = .next ((((({ s.issueSweep with
        hif := { s.issueSweep.hif with sweeps := rest, sweepK := w.k } } : State).takeIndices
      page).takeGen (page.getD 27 0)).fetchAll w.first).sweepDone w.first) := by
  simp only [exec, execDoorbellSweep, he, hr, hs, hc, Bool.not_true, Bool.or_self, Bool.false_eq_true, if_false]

/-- What the data of a sweep gives, whatever has been issued before: u is the state in which its read is over. -/
theorem State.sweepData_spec (u : State) (page : List Word) (k : Nat) :
    ∃ t, t = (((u.takeIndices page).takeGen (page.getD 27 0)).fetchAll k).sweepDone k
      ∧ (t.hif.sweeps = u.hif.sweeps ∧ t.hif.sweepAt = u.hif.sweepAt) ∧ (t.hif.gen = page.getD 27 0 ∧ t.hif.genSeen = true) ∧ u.out <+: t.out
      ∧ (∀ r < 10, (t.ring r).host = (u.takenRing r (loHalf (page.getD r 0))).host ∧ (t.ring r).halt = (u.takenRing r (loHalf (page.getD r 0))).halt
        ∧ ((u.takenRing r (loHalf (page.getD r 0))).halt = true → (t.ring r).fetches = (u.takenRing r (loHalf (page.getD r 0))).fetches))
      ∧ (u.hif.genSeen = true → page.getD 27 0 ≠ u.hif.gen → u.hif.lost = true →
          t.hif.lost = false ∧ t.hif.lostTimer = some (u.hifNow + 400000 * u.fld 0x10000C 0 14))
      ∧ (∀ x, u.hif.genSeen = true → page.getD 27 0 ≠ u.hif.gen → u.hif.lost = false → u.hif.lostTimer = some x → u.hifNow ≤ x →
          t.hif.lostTimer = some (u.hifNow + 400000 * u.fld 0x10000C 0 14))
      ∧ (t.sweepOpen k = false → t.hif.doorbell = t.deviceHalf) := by
  obtain ⟨hi, hring⟩ := u.takeIndices_spec page
  generalize u.takeIndices page = a at hi hring
  have hg := a.takeGen_frame (page.getD 27 0)
  have hlt : a.hostLostTicks = 400000 * u.fld 0x10000C 0 14 := by
    rw [State.hostLostTicks, hi.fld (not_ringReg_of_lt (by decide))]
  generalize a.takeGen (page.getD 27 0) = b at hg
  have hf := b.fetchAll_frame k
  generalize b.fetchAll k = c at hf
  obtain ⟨hd, hhalf⟩ := c.sweepDone_spec k
  generalize hdone : c.sweepDone k = t at hd hhalf
  have hhif : ∀ {β : Type} (g : Hif → β), (∀ h d p, g { h with doorbell := d, pba := p } = g h) → g t.hif = g b.hif := fun g hg => by
    have h1 : t.hif = { c.hif with doorbell := t.hif.doorbell, pba := t.hif.pba } := congrArg State.hif hd.rest
    have h2 : c = { b with out := c.out, rings := c.rings } := hf.rest
    rw [h1, hg, h2]
  have hb : ∀ r, b.ring r = a.ring r := fun r => by rw [State.ring, hg.rings, State.ring]
  refine ⟨t, rfl, ⟨?_, ?_⟩, ⟨?_, ?_⟩, ((hi.out.trans hg.out).trans hf.out).trans hd.out, fun r hr => ⟨?_, ?_, fun hh => ?_⟩,
    fun h1 h2 h3 => ?_, fun x h1 h2 h3 h4 h5 => ?_, hhalf⟩
  · rw [hhif (·.sweeps) (fun _ _ _ => rfl), hg.sweeps.1, hi.hif]
  · rw [hhif (·.sweepAt) (fun _ _ _ => rfl), hg.sweeps.2, hi.hif]
  · rw [hhif (·.gen) (fun _ _ _ => rfl), hg.gen.1]
  · rw [hhif (·.genSeen) (fun _ _ _ => rfl), hg.gen.2]
  · rw [hd.host, hf.host, hb, hring r hr]
  · rw [hd.halt, hf.halt, hb, hring r hr]
  · rw [hd.fetches, hf.halted r (by rw [hb, hring r hr]; exact hh), hb, hring r hr]
  · rw [← hi.hif] at h1 h2 h3
    rw [hhif (·.lost) (fun _ _ _ => rfl), hhif (·.lostTimer) (fun _ _ _ => rfl), ← hi.time, ← hlt]
    exact hg.back h1 h2 h3
  · rw [← hi.hif] at h1 h2 h3 h4
    rw [← hi.time] at h5
    rw [hhif (·.lostTimer) (fun _ _ _ => rfl), ← hi.time, ← hlt]
    exact hg.timer x h1 h2 h3 h4 h5

/-- A sweep that is due is issued. -/
theorem State.issueSweep_due {s : State} (he : s.hifEn = true) (hr : s.hostReach = true) (hd : s.hif.sweepAt ≤ s.hifNow) :
    s.issueSweep = { s with
      hif := { s.hif with sweepAt := s.hifNow + s.sweepTicks, sweeps := s.hif.sweeps ++ [⟨s.hifNow, s.hifNow, s.fr.k, 0⟩] }
      out := s.out ++ [.hostRead .sweep s.pageAddr 256] } := by
  unfold State.issueSweep
  rw [if_pos (by simp [he, hr, hd])]
  exact if_pos hr

theorem State.issueSweep_not_due {s : State} (hd : s.hifNow < s.hif.sweepAt) : s.issueSweep = s := by
  unfold State.issueSweep
  rw [if_neg (by simp [Nat.not_le.mpr hd])]

/-- Settles O28: the read that ends is the oldest or the one just issued; its data is one lemma for both. -/
theorem sweepTakesIndicesAndGen : Obligations.SweepTakesIndicesAndGen := by
  unfold Obligations.SweepTakesIndicesAndGen
  intro page s he hr hcase
  have hsize : ∀ r, s.ringSize r = s.ringSize r - 1 + 1 := fun r => (Nat.sub_add_cancel (Nat.two_pow_pos _)).symm
  have htook : ∀ r, s.ringEn r = true → (s.ring r).halt = false → s.takenRing r (loHalf (page.getD r 0))
      = if s.ringSize r - 1 < (loHalf (page.getD r 0) - (s.ring r).dev).toNat then { s.ring r with halt := true }
        else { s.ring r with host := loHalf (page.getD r 0) } := fun r h1 h2 => by
    unfold State.takenRing
    rw [if_neg (by simp [h1, h2])]
  have hrings : ∀ t : State,
      (∀ r < 10, (t.ring r).host = (s.takenRing r (loHalf (page.getD r 0))).host ∧ (t.ring r).halt = (s.takenRing r (loHalf (page.getD r 0))).halt
        ∧ ((s.takenRing r (loHalf (page.getD r 0))).halt = true → (t.ring r).fetches = (s.takenRing r (loHalf (page.getD r 0))).fetches)) →
      (∀ r < 10, s.ringEn r = true → (s.ring r).halt = false →
        (loHalf (page.getD r 0) - (s.ring r).dev).toNat < s.ringSize r → (t.ring r).host = loHalf (page.getD r 0))
      ∧ (∀ r < 10, s.ringEn r = true → (s.ring r).halt = false → s.ringSize r ≤ (loHalf (page.getD r 0) - (s.ring r).dev).toNat →
          (t.ring r).halt = true ∧ (t.ring r).host = (s.ring r).host ∧ (t.ring r).fetches = (s.ring r).fetches) := fun t ht => by
    refine ⟨fun r h10 h1 h2 h3 => ?_, fun r h10 h1 h2 h3 => ?_⟩
    · rw [(ht r h10).1, htook r h1 h2, if_neg (by have := hsize r; omega)]
    · have hk : s.takenRing r (loHalf (page.getD r 0)) = { s.ring r with halt := true } := by
        rw [htook r h1 h2, if_pos (by have := hsize r; omega)]
      obtain ⟨g1, g2, g3⟩ := ht r h10
      rw [hk] at g1 g2 g3
      exact ⟨g2, g1, g3 rfl⟩
  have hdata := fun rest k at' out => State.sweepData_spec
    ({ s with hif := { s.hif with sweeps := rest, sweepK := k, sweepAt := at' }, out := out } : State) page
  rcases hcase with ⟨hne, hlt, hin⟩ | ⟨hnil, hle⟩
  · obtain ⟨w, rest, hs⟩ := List.exists_cons_of_ne_nil hne
    have hno := State.issueSweep_not_due hlt
    have hexec := State.exec_doorbellSweep (page := page) he hr (by rw [hno, hs]) (by rw [hno]; exact hin w (by rw [hs]; rfl))
    rw [hno] at hexec
    obtain ⟨t, ht, ⟨hsw, hat⟩, ⟨hgen, hseen⟩, hout, hring, hback, htimer, hhalf⟩ := hdata rest w.k s.hif.sweepAt s.out w.first
    obtain ⟨htake, hover⟩ := hrings t hring
    exact ⟨t, hexec.trans (congrArg Host.Outcome.next ht.symm), hsw.trans (by rw [hs]; rfl), hgen, hseen, fun _ => hat,
      fun h => absurd hlt (Nat.not_lt.mpr h), htake, hover, htimer, hback, fun h => hhalf (by rw [hs] at h; exact h)⟩
  · have hdue := State.issueSweep_due he hr hle
    have hexec := State.exec_doorbellSweep (page := page) (w := ⟨s.hifNow, s.hifNow, s.fr.k, 0⟩) (rest := []) he hr (by rw [hdue, hnil]; rfl)
      (by rw [hdue]; exact decide_eq_true (Nat.le_add_right _ _))
    rw [hdue] at hexec
    obtain ⟨t, ht, ⟨hsw, hat⟩, ⟨hgen, hseen⟩, hout, hring, hback, htimer, hhalf⟩ :=
      hdata [] s.fr.k (s.hifNow + s.sweepTicks) (s.out ++ [.hostRead .sweep s.pageAddr 256]) s.hifNow
    obtain ⟨htake, hover⟩ := hrings t hring
    exact ⟨t, hexec.trans (congrArg Host.Outcome.next ht.symm), hsw.trans (by rw [hnil]; rfl), hgen, hseen, fun h => absurd h (Nat.not_lt.mpr hle),
      fun _ => ⟨hat, hout⟩, htake, hover, htimer, hback, fun h => hhalf (by rw [hnil] at h; exact h)⟩

end Sys2Proof.Machine
end
section
/-! SUPPORT. Descriptors that a fetch has read, and timed ones at their boundary (R353, R357, R360). -/

namespace Sys2Proof.Machine

/-- A completion that its ring takes is one entry, laid out from the ring's count as it was. -/
theorem State.putCompletion_out {s : State} {r : Nat} (hh : (s.ring (10 + r)).halt = false) (he : s.ringEn (10 + r) = true)
    (st : Status) (opcode : Nat) (tag index : BitVec 16) (irq : Bool) (frame : Word) (res : Nat) :
    (s.putCompletion r st opcode tag index irq frame res).out = s.out ++ [s.completionOut (10 + r) st opcode tag index frame res] := by
  unfold State.putCompletion
  dsimp only
  rw [hh, show (s.updRing (10 + r) fun y => { y with reserved := y.reserved - 1 }).ringEn (10 + r) = true from he]
  have hc : (s.updRing (10 + r) fun y => { y with reserved := y.reserved - 1 }).completionOut (10 + r) st opcode tag index frame res
      = s.completionOut (10 + r) st opcode tag index frame res := by
    unfold State.completionOut
    have : ((s.updRing (10 + r) fun y => { y with reserved := y.reserved - 1 }).ring (10 + r)).count17 = (s.ring (10 + r)).count17 := by
      simp [State.ring, State.updRing]
    rw [this]
    rfl
  exact congrArg (fun o => s.out ++ [o]) hc

theorem State.complete_out_entry {s : State} {d : Desc} (hh : (s.ring (10 + d.ring)).halt = false) (he : s.ringEn (10 + d.ring) = true)
    (st : Status) (f : Word) (res : Nat) :
    (s.complete d st f res).out = s.out ++ [s.completionOut (10 + d.ring) st (bodyCode d.body) d.hdr.tag d.index f res] :=
  State.putCompletion_out hh he ..

theorem State.putCompletion_ring {u : State} {r q : Nat} (hq : q ≠ 10 + r) {st : Status} {opcode : Nat} {tag index : BitVec 16} {irq : Bool}
    {frame : Word} {res : Nat} : (u.putCompletion r st opcode tag index irq frame res).ring q = u.ring q := by
  unfold State.putCompletion
  dsimp only
  split <;> simp [State.ring, State.updRing, State.emit, Tab.get_upd, hq]

theorem RingsOnly.putCompletion (s : State) (r : Nat) (st : Status) (opcode : Nat) (tag index : BitVec 16) (irq : Bool) (frame : Word) (res : Nat) :
    RingsOnly s (s.putCompletion r st opcode tag index irq frame res) := by
  unfold State.putCompletion
  dsimp only
  split <;> rfl

/-- An entry is laid out from its ring's count and its words alone. -/
theorem State.completionOut_of_rings {s u : State} (h : RingsOnly s u) {c : Nat} (hc : (u.ring c).count17 = (s.ring c).count17) (st : Status)
    (o : Nat)
    (tag i : BitVec 16) (frame : Word) (res : Nat) : u.completionOut c st o tag i frame res = s.completionOut c st o tag i frame res := by
  unfold State.completionOut
  rw [hc, h]
  rfl

theorem RaiseFrame.setRingsHif {s t : State} (h : RaiseFrame s t) (x : Tab Ring) (y : Hif) :
    RaiseFrame { s with rings := x, hif := y } { t with rings := x, hif := y } :=
  ⟨congrArg (fun z : State => { z with rings := x, hif := y }) h.core, h.reg, h.cell, h.oct, h.eng, h.out, h.retired, h.state, h.lane⟩

/-- The end of a sweep after what may raise a fault. -/
theorem RaiseFrame.halfFrame {s t u : State} (h : RaiseFrame s t) (k : HalfFrame t u) :
    RaiseFrame { s with rings := u.rings, hif := { s.hif with doorbell := u.hif.doorbell, pba := u.hif.pba } } u := by
  rw [k.rest]
  refine ⟨?_, h.reg, h.cell, h.oct, h.eng, h.out.trans k.out, h.retired, h.state, h.lane⟩
  rw [← h.hif_eq]
  exact congrArg (fun z : State => { z with rings := u.rings, hif := { t.hif with doorbell := u.hif.doorbell, pba := u.hif.pba } }) h.core

/-! ### Descriptors of a fetch -/

/-- The data of the oldest fetch, in time. -/
theorem State.exec_descriptorFetch {s : State} {g : Fin 10} {w : BitVec 256} {f : Fetch} (hf : (s.ring g).fetches = [f]) (hc : f.count = 1)
    (hr : s.hostReach = true) (ht : s.inCplTime f.issued = true) :
    exec (.descriptorFetch g [w]) s = .next (((s.updRing g fun x => { x with fetches := [] }).takeAll g [w]).sweepDone f.sweep) := by
  simp only [exec, execDescriptorFetch, hf, hc, hr, ht, List.length_singleton, ne_eq, not_true_eq_false, Bool.not_true, Bool.false_eq_true, or_self,
    if_false]

/-- The state in which the one descriptor of the fetch has been read. -/
def State.fetched (s : State) (g : Nat) : State :=
  (s.updRing g fun x => { x with fetches := [] }).updRing g fun x => { x with dev := x.dev + 1 }

theorem State.fetched_ring (s : State) (g : Nat) : (s.fetched g).ring g = { s.ring g with fetches := [], dev := (s.ring g).dev + 1 } := by
  simp [State.fetched, State.ring, State.updRing]

theorem State.fetched_comp (s : State) (g : Nat) : (s.fetched g).ring (10 + g) = s.ring (10 + g) := by
  simp [State.fetched, State.ring, State.updRing, Tab.get_upd]

theorem State.takeAll_ok {s : State} {g : Nat} {w : BitVec 256} {h : Hdr} {b : Body} (hd : (decodeDesc g w).res = .ok (h, b)) :
    (s.updRing g fun x => { x with fetches := [] }).takeAll g [w] = (s.fetched g).intake ⟨g, (s.ring g).dev, h, b⟩ := by
  have : ((s.updRing g fun x => { x with fetches := [] }).ring g).dev = (s.ring g).dev := by
    simp [State.ring, State.updRing]
  simp only [State.takeAll, hd, this]
  rfl

theorem State.takeAll_error {s : State} {g : Nat} {w : BitVec 256} {st : Status} (hd : (decodeDesc g w).res = .error st) :
    (s.updRing g fun x => { x with fetches := [] }).takeAll g [w]
      = ((s.fetched g).putCompletion g st (decodeDesc g w).code (decodeDesc g w).tag (s.ring g).dev (decodeDesc g w).irq 0 0).rejectEarly g
          (decodeDesc g w).code st := by
  have : ((s.updRing g fun x => { x with fetches := [] }).ring g).dev = (s.ring g).dev := by
    simp [State.ring, State.updRing]
  simp only [State.takeAll, hd, this]
  rfl

/-- The state in which the one untimed descriptor of its ring has had its turn. -/
def State.turnTaken (s : State) (r : Nat) (d : Desc) : State :=
  (s.updRing r fun x => { x with untimed := x.untimed ++ [d] }).updRing r fun x => { x with untimed := [] }

theorem State.turnTaken_rings (s : State) (r : Nat) (d : Desc) : RingsOnly s (s.turnTaken r d) := rfl

theorem State.turnTaken_out (s : State) (r : Nat) (d : Desc) : (s.turnTaken r d).out = s.out := rfl

theorem State.turnTaken_ring (s : State) (r : Nat) (d : Desc) : (s.turnTaken r d).ring r = { s.ring r with untimed := [] } := by
  simp [State.turnTaken, State.ring, State.updRing]

theorem State.turnTaken_ring_ne (s : State) {r q : Nat} (hq : q ≠ r) (d : Desc) : (s.turnTaken r d).ring q = s.ring q :=
  (Tab.get_upd_ne _ hq _).trans (Tab.get_upd_ne _ hq _)

/-- An untimed NOP that the checks let pass completes in its turn, which is at once on an idle ring. -/
theorem State.intake_nop {u : State} {d : Desc} (hb : d.body = .nop) (hc : u.descCheck d.ring d.hdr .nop = none) (ha : d.hdr.act = none)
    (hu : (u.ring d.ring).untimed = []) (hbusy : u.ringBusy d.ring = false) :
    u.intake d = (u.turnTaken d.ring d).complete d .ok u.fr.k 0 := by
  have h1 : u.intake d = (u.updRing d.ring fun x => { x with untimed := x.untimed ++ [d] }).drain d.ring := by
    unfold State.intake
    rw [hb, hc, ha]
    rfl
  have hone : ((u.updRing d.ring fun x => { x with untimed := x.untimed ++ [d] }).ring d.ring).untimed = [d] := by
    have : ((u.updRing d.ring fun x => { x with untimed := x.untimed ++ [d] }).ring d.ring).untimed = (u.ring d.ring).untimed ++ [d] := by
      simp [State.ring, State.updRing]
    rw [this, hu]
    rfl
  have hidle : (u.updRing d.ring fun x => { x with untimed := x.untimed ++ [d] }).ringBusy d.ring = false := by
    have hbuf : ((u.updRing d.ring fun x => { x with untimed := x.untimed ++ [d] }).ring d.ring).buf = (u.ring d.ring).buf := by
      simp [State.ring, State.updRing]
    unfold State.ringBusy at hbusy ⊢
    rw [hbuf]
    exact hbusy
  rw [h1, State.drain_single hone hidle (by rw [hb]; rfl)]
  exact State.perform_nop (r := d.ring) (s := u.turnTaken d.ring d) hb hc

theorem HalfFrame.of_rings {s u t : State} (h : HalfFrame u t) (hr : RingsOnly s u) :
    t = { s with out := t.out, rings := t.rings, hif := { s.hif with doorbell := t.hif.doorbell, pba := t.hif.pba } } :=
  h.rest.trans (by rw [hr])

/-- What is left of a fetch's one descriptor that the rings alone took part in: u is the state after it. -/
theorem State.fetch_end {s u : State} {g : Fin 10} {k : Nat} {o : Output} (hr : RingsOnly s u) (ho : u.out = s.out ++ [o])
    (hring : (u.ring g).fetches = [] ∧ (u.ring g).dev = (s.ring g).dev + 1) :
    ((u.sweepDone k).ring g).fetches = [] ∧ ((u.sweepDone k).ring g).dev = (s.ring g).dev + 1
      ∧ s.out ++ [o] <+: (u.sweepDone k).out
      ∧ ((u.sweepDone k).sweepOpen k = false → (u.sweepDone k).hif.doorbell = (u.sweepDone k).deviceHalf)
      ∧ u.sweepDone k = { s with out := (u.sweepDone k).out, rings := (u.sweepDone k).rings,
                                  hif := { s.hif with doorbell := (u.sweepDone k).hif.doorbell, pba := (u.sweepDone k).hif.pba } } := by
  obtain ⟨hf, hd⟩ := u.sweepDone_spec k
  generalize u.sweepDone k = t at hf hd
  refine ⟨(hf.fetches g).trans hring.1, (hf.dev g).trans hring.2, ho ▸ hf.out, hd, hf.of_rings hr⟩

/-- A fetched NOP. -/
theorem fetchedNop (g : Fin 10) (w : BitVec 256) (f : Fetch) (h : Hdr) (s : State) (hf : (s.ring g).fetches = [f]) (hc : f.count = 1)
    (hr : s.hostReach = true) (ht : s.inCplTime f.issued = true) (hd : (decodeDesc g w).res = .ok (h, .nop)) (ha : h.act = none)
    (hu : (s.ring g).untimed = []) (hbusy : s.ringBusy g = false) (hk : s.descCheck g h .nop = none) (he : s.ringEn (10 + g) = true)
    (hh : (s.ring (10 + g)).halt = false) :
    ∃ t, exec (.descriptorFetch g [w]) s = .next t ∧ (t.ring g).fetches = [] ∧ (t.ring g).dev = (s.ring g).dev + 1
       ∧ s.out ++ [s.completionOut (10 + g) .ok 0 h.tag (s.ring g).dev s.fr.k 0] <+: t.out
       ∧ (t.sweepOpen f.sweep = false → t.hif.doorbell = t.deviceHalf)
       ∧ t = { s with out := t.out, rings := t.rings, hif := { s.hif with doorbell := t.hif.doorbell, pba := t.hif.pba } } := by
  have hs : RingsOnly s (s.fetched g) := rfl
  have hrg := s.fetched_ring g
  have hcp := s.fetched_comp g
  have hb2 : (s.fetched g).ringBusy g = false := by
    unfold State.ringBusy at hbusy ⊢
    rw [hrg]
    exact hbusy
  have hin := State.intake_nop (u := s.fetched g) (d := ⟨g, (s.ring g).dev, h, .nop⟩) rfl hk ha (by rw [hrg]; exact hu) hb2
  rw [State.exec_descriptorFetch hf hc hr ht, State.takeAll_ok hd, hin]
  have hvs := hs.trans ((s.fetched g).turnTaken_rings g ⟨g, (s.ring g).dev, h, .nop⟩)
  have hvo := (s.fetched g).turnTaken_out g ⟨g, (s.ring g).dev, h, .nop⟩
  have hvr := (s.fetched g).turnTaken_ring g ⟨g, (s.ring g).dev, h, .nop⟩
  have hvc := (s.fetched g).turnTaken_ring_ne (r := g) (q := 10 + g) (by omega) ⟨g, (s.ring g).dev, h, .nop⟩
  rw [hrg] at hvr
  rw [hcp] at hvc
  dsimp only
  generalize (s.fetched g).turnTaken g ⟨g, (s.ring g).dev, h, .nop⟩ = v at hvs hvo hvr hvc
  have hvo : v.out = s.out := hvo
  have hvk : (s.fetched g).fr.k = s.fr.k := by rw [hs.fr]
  have hout := State.complete_out_entry (s := v) (d := ⟨g, (s.ring g).dev, h, .nop⟩) (by rw [hvc]; exact hh) (by rw [hvs]; exact he) .ok
    s.fr.k 0
  rw [hvo, State.completionOut_of_rings hvs (by rw [hvc])] at hout
  have hr1 := hvs.trans (RingsOnly.complete v ⟨g, (s.ring g).dev, h, .nop⟩ .ok s.fr.k 0)
  have hr2 := State.complete_rings (u := v) (d := ⟨g, (s.ring g).dev, h, .nop⟩) (st := .ok) (frame := s.fr.k) (res := 0) (q := g)
      (by dsimp only; omega)
  rw [hvk]
  generalize v.complete ⟨g, (s.ring g).dev, h, .nop⟩ .ok s.fr.k 0 = u at hout hr1 hr2
  exact ⟨_, rfl, State.fetch_end hr1 hout ⟨by rw [hr2, hvr], by rw [hr2, hvr]⟩⟩

end Sys2Proof.Machine
end
section
/-! SUPPORT. A fetched descriptor that its bits refuse, and timed ones at their boundary (R353, R357, R360, R361). -/

namespace Sys2Proof.Machine

/-- A fetched descriptor that the checks of its bits refuse. -/
theorem fetchedRefused (g : Fin 10) (w : BitVec 256) (f : Fetch) (st : Status) (s : State) (hf : (s.ring g).fetches = [f]) (hc : f.count = 1)
    (hr : s.hostReach = true) (ht : s.inCplTime f.issued = true) (hd : (decodeDesc g w).res = .error st) (he : s.ringEn (10 + g) = true)
    (hh : (s.ring (10 + g)).halt = false) :
    ∃ t, exec (.descriptorFetch g [w]) s = .next t ∧ (t.ring g).fetches = [] ∧ (t.ring g).dev = (s.ring g).dev + 1
       ∧ s.out ++ [s.completionOut (10 + g) st (decodeDesc g w).code (decodeDesc g w).tag (s.ring g).dev 0 0] <+: t.out
       ∧ (t.sweepOpen f.sweep = false → t.hif.doorbell = t.deviceHalf)
       ∧ ((decodeDesc g w).code ≠ 0x31 →
           t = { s with out := t.out, rings := t.rings, hif := { s.hif with doorbell := t.hif.doorbell, pba := t.hif.pba } })
       ∧ RaiseFrame { s with rings := t.rings, hif := { s.hif with doorbell := t.hif.doorbell, pba := t.hif.pba } } t := by
  have hs : RingsOnly s (s.fetched g) := rfl
  have hrg := s.fetched_ring g
  have hcp := s.fetched_comp g
  rw [State.exec_descriptorFetch hf hc hr ht, State.takeAll_error hd]
  generalize decodeDesc g w = q
  have hout := State.putCompletion_out (s := s.fetched g) (r := g) (by rw [hcp]; exact hh) (by rw [hs]; exact he) st q.code q.tag
      (s.ring g).dev q.irq 0 0
  rw [State.completionOut_of_rings hs (by rw [hcp])] at hout
  have hr1 : RingsOnly s ((s.fetched g).putCompletion g st q.code q.tag (s.ring g).dev q.irq 0 0) := hs.trans (RingsOnly.putCompletion ..)
  have hr2 := State.putCompletion_ring (u := s.fetched g) (r := g) (q := g) (st := st) (opcode := q.code) (tag := q.tag) (index := (s.ring g).dev)
    (irq := q.irq) (frame := 0) (res := 0) (by omega)
  generalize (s.fetched g).putCompletion g st q.code q.tag (s.ring g).dev q.irq 0 0 = u at hout hr1 hr2
  have hrej : RaiseFrame u (u.rejectEarly g q.code st) ∧ (q.code ≠ 0x31 → u.rejectEarly g q.code st = u) := by
    unfold State.rejectEarly
    split
    · exact ⟨u.tellReject_frame 0, fun h => absurd (by assumption : _ ∧ q.code = 0x31 ∧ _).2.1 h⟩
    · exact ⟨.refl u, fun _ => rfl⟩
  obtain ⟨hv, hsame⟩ := hrej
  generalize u.rejectEarly g q.code st = v at hv hsame
  obtain ⟨hw, hhalf⟩ := v.sweepDone_spec f.sweep
  have hvr : v.ring g = { s.ring g with fetches := [], dev := (s.ring g).dev + 1 } := by
    rw [State.ring, hv.rings_eq]
    exact hr2.trans hrg
  have hall := (((RaiseFrame.refl s).ringsOnly hr1 (hout ▸ ⟨_, rfl⟩)).trans hv).halfFrame hw
  refine ⟨_, rfl, (hw.fetches g).trans (by rw [hvr]), (hw.dev g).trans (by rw [hvr]), hout ▸ hv.out.trans hw.out, hhalf, fun hn => ?_, hall⟩
  exact hw.of_rings ((hsame hn).symm ▸ hr1)

/-! ### Timed descriptors at their boundary -/

/-- Two states that look alike, their rings looked up. -/
structure SameRings (s u : State) : Prop where
  rest : u = { s with rings := u.rings }
  ring : ∀ q, u.ring q = s.ring q

/-- The pending NOP d of ring d.ring has been judged, and nothing else: v is the state after. -/
structure NopJudged (d : Desc) (ka : Word) (s v : State) : Prop where
  rest : RingsOnly s v
  other : ∀ q, q ≠ d.ring → q ≠ 10 + d.ring → v.ring q = s.ring q
  own : { v.ring d.ring with pend := [] } = { s.ring d.ring with pend := [] }
  done : ∀ st : Status, (st = .ok ∧ frameDiff s.fr.k ka = 0) ∨ (st = .late ∧ 0 < frameDiff s.fr.k ka ∧ frameDiff s.fr.k ka ≤ 2)
    ∨ (st = .missed ∧ 2 < frameDiff s.fr.k ka) → (v.ring d.ring).pend = []
      ∧ v.out = s.out ++ [s.completionOut (10 + d.ring) st 0 d.hdr.tag d.index (if st = .missed then 0 else s.fr.k) 0]
  ahead : -65535 ≤ frameDiff s.fr.k ka → frameDiff s.fr.k ka < 0 → (v.ring d.ring).pend = [d] ∧ v.out = s.out

namespace SameRings
variable {s t u : State}

theorem refl (s : State) : SameRings s s := ⟨rfl, fun _ => rfl⟩

/-- A ring without a pending descriptor is as it was. -/
theorem clear (s : State) {r : Nat} (h : (s.ring r).pend = []) : SameRings s (s.updRing r fun x => { x with pend := [] }) := by
  refine ⟨rfl, fun q => ?_⟩
  rw [State.ring, State.updRing, Tab.get_upd]
  split
  · rename_i hq
    rw [hq]
    show { s.ring r with pend := [] } = s.ring r
    rw [← h]
  · rfl

theorem trans (h : SameRings s t) (k : SameRings t u) : SameRings s u :=
  ⟨by rw [k.rest, h.rest], fun q => (k.ring q).trans (h.ring q)⟩

end SameRings

theorem State.activateRing_none {s : State} {r : Nat} (h : (s.ring r).pend = []) : SameRings s (s.activateRing r) := by
  unfold State.activateRing
  rw [h]
  exact .clear s h

theorem NopJudged.same {d : Desc} {ka : Word} {s v w : State} (h : NopJudged d ka s v) (k : SameRings v w) : NopJudged d ka s w := by
  have hout : w.out = v.out := by rw [k.rest]
  refine ⟨h.rest.trans (by unfold RingsOnly; rw [hout]; exact k.rest), fun q h1 h2 => (k.ring q).trans (h.other q h1 h2), ?_, fun st hst => ?_,
      fun h1 h2 => ?_⟩
  · rw [k.ring, h.own]
  · rw [k.ring, hout]
    exact h.done st hst
  · rw [k.ring, hout]
    exact h.ahead h1 h2

/-- The ring of a pending NOP is judged: v is a state that looks like s. -/
theorem State.activateRing_nop {s v : State} {d : Desc} {ka : Word} (hv : SameRings s v) (hd : s.sys.dev = .idle ∨ s.sys.dev = .run)
    (hb : d.body = .nop) (hk : d.hdr.act = some ka) (hp : (s.ring d.ring).pend = [d]) (he : s.ringEn (10 + d.ring) = true)
    (hh : (s.ring (10 + d.ring)).halt = false) : NopJudged d ka s (v.activateRing d.ring) := by
  unfold State.activateRing
  rw [hv.ring, hp]
  dsimp only [List.foldl]
  generalize hu : (v.updRing d.ring fun x => { x with pend := [] }) = u
  have hu1 : RingsOnly s u := by
    have := hv.rest
    subst hu
    rw [this]
    rfl
  have hu2 : u.out = s.out := by
    subst hu
    rw [hv.rest]
    rfl
  have hu3 : ∀ q, u.ring q = if q = d.ring then { s.ring q with pend := [] } else s.ring q := fun q => by
    subst hu
    rw [← hv.ring, State.ring, State.updRing, Tab.get_upd]
    split
    · rename_i h
      rw [h]
      rfl
    · rfl
  have hfr : u.fr.k = s.fr.k := by rw [hu1.fr]
  have hend : ∀ st frame, RingsOnly s (u.complete d st frame 0)
      ∧ (∀ q, q ≠ d.ring → q ≠ 10 + d.ring → (u.complete d st frame 0).ring q = s.ring q)
      ∧ (u.complete d st frame 0).ring d.ring = { s.ring d.ring with pend := [] }
      ∧ (u.complete d st frame 0).out = s.out ++ [s.completionOut (10 + d.ring) st 0 d.hdr.tag d.index frame 0] := fun st frame => by
    have hc : u.ring (10 + d.ring) = s.ring (10 + d.ring) := by rw [hu3, if_neg (by omega)]
    refine ⟨hu1.trans (RingsOnly.complete ..), fun q h1 h2 => ?_, ?_, ?_⟩
    · rw [State.complete_rings h2, hu3, if_neg h1]
    · rw [State.complete_rings (by omega), hu3, if_pos rfl]
    · rw [State.complete_out_entry (by rw [hc]; exact hh) (by rw [hu1]; exact he), State.completionOut_of_rings hu1 (by rw [hc]), hu2, hb]
      rfl
  have hperf : ∀ late, u.perform d late = u.complete d (if late then .late else .ok) s.fr.k 0 := fun late => by
    have hdev : u.sys.dev = .idle ∨ u.sys.dev = .run := by rw [hu1.sys]; exact hd
    have : u.perform d late = u.carryOut d late := if_neg (by rcases hdev with h | h <;> simp [h, State.bootAllows])
    rw [this, State.carryOut, hb, ← hfr]
    cases late <;> rfl
  have haway : ∀ st, u.turnAway d st = u.complete d st 0 0 := fun st => State.turnAway_eq (by rw [hb]; decide)
  have hjudge : ∀ w st frame, w = u.complete d st frame 0 → (¬(-65535 ≤ frameDiff s.fr.k ka ∧ frameDiff s.fr.k ka < 0)) →
      (∀ st' : Status, (st' = .ok ∧ frameDiff s.fr.k ka = 0) ∨ (st' = .late ∧ 0 < frameDiff s.fr.k ka ∧ frameDiff s.fr.k ka ≤ 2)
        ∨ (st' = .missed ∧ 2 < frameDiff s.fr.k ka) → st' = st ∧ frame = if st = .missed then 0 else s.fr.k) → NopJudged d ka s w := by
    rintro w st frame rfl hn hst
    obtain ⟨h1, h2, h3, h4⟩ := hend st frame
    refine ⟨h1, h2, by rw [h3], fun st' h => ?_, fun a b => absurd ⟨a, b⟩ hn⟩
    obtain ⟨rfl, hfm⟩ := hst st' h
    exact ⟨by rw [h3], by rw [h4, hfm]⟩
  rcases lt_or_ge (frameDiff s.fr.k ka) (-65535) with hlow | hlow
  · have hfar : u.activateOr d = u.turnAway d .refused := by
      simp only [State.activateOr, State.activate, hk, hfr, if_pos hlow]
    exact hjudge _ .refused 0 (hfar.trans (haway _)) (by omega) (by omega)
  · rcases lt_or_ge (frameDiff s.fr.k ka) 0 with h0 | h0
    · rw [State.activateOr_ahead hk (by rw [hfr]; exact h0) (by rw [hfr]; exact hlow)]
      have hring : ∀ q, (u.updRing d.ring fun x => { x with pend := x.pend ++ [d] }).ring q
          = if q = d.ring then { s.ring q with pend := [d] } else s.ring q := fun q => by
        rw [State.ring, State.updRing, Tab.get_upd]
        split
        · rename_i hq
          have := hu3 d.ring
          rw [if_pos rfl, State.ring] at this
          rw [this, hq]
          rfl
        · rename_i hq
          exact (hu3 q).trans (if_neg hq)
      refine ⟨hu1.trans (RingsOnly.updRing ..), fun q h1 h2 => by rw [hring, if_neg h1], by rw [hring, if_pos rfl], fun st h => by omega,
        fun _ _ => ⟨by rw [hring, if_pos rfl], hu2⟩⟩
    · rcases lt_or_ge 2 (frameDiff s.fr.k ka) with h2 | h2
      · rw [State.activateOr_missed hk (by rw [hfr]; exact h2)]
        exact hjudge _ .missed 0 (haway _) (by omega) (by grind)
      · rw [State.activateOr_due hk (by rw [hfr]; exact h0) (by rw [hfr]; exact h2)]
        exact hjudge _ _ _ (hperf _) (by omega) (by grind)

theorem State.activateAll_nop {s : State} {d : Desc} {ka : Word} (hr : d.ring < 10) (hd : s.sys.dev = .idle ∨ s.sys.dev = .run)
    (hb : d.body = .nop) (hk : d.hdr.act = some ka) (hp : (s.ring d.ring).pend = [d]) (hother : ∀ r < 10, r ≠ d.ring → (s.ring r).pend = [])
    (he : s.ringEn (10 + d.ring) = true) (hh : (s.ring (10 + d.ring)).halt = false) :
    NopJudged d ka s (forNat 10 (fun r s => s.activateRing r) s) := by
  have hloop : ∀ n ≤ 10, (n ≤ d.ring → SameRings s (forNat n (fun r s => s.activateRing r) s))
      ∧ (d.ring < n → NopJudged d ka s (forNat n (fun r s => s.activateRing r) s)) := by
    intro n
    induction n with
    | zero => exact fun _ => ⟨fun _ => .refl s, fun h => absurd h (Nat.not_lt_zero _)⟩
    | succ n ih =>
      intro hn
      obtain ⟨h1, h2⟩ := ih (by omega)
      have hstep : forNat (n + 1) (fun r (s : State) => s.activateRing r) s = (forNat n (fun r s => s.activateRing r) s).activateRing n := rfl
      rw [hstep]
      generalize forNat n (fun r (s : State) => s.activateRing r) s = v at h1 h2
      refine ⟨fun h => ?_, fun h => ?_⟩
      · have hv := h1 (by omega)
        exact hv.trans (State.activateRing_none (by rw [hv.ring]; exact hother n (by omega) (by omega)))
      · rcases Nat.lt_or_ge d.ring n with hl | hl
        · have hv := h2 hl
          exact hv.same (State.activateRing_none (by rw [hv.other n (by omega) (by omega)]; exact hother n (by omega) (by omega)))
        · obtain rfl : n = d.ring := by omega
          exact State.activateRing_nop (h1 (Nat.le_refl _)) hd hb hk hp he hh
  exact (hloop 10 (Nat.le_refl _)).2 hr

theorem State.drain_none {s : State} {r : Nat} (h : (s.ring r).untimed = []) : s.drain r = s := by
  rw [State.drain, h]
  rfl

/-- A timed NOP at its base frame boundary. -/
theorem timedNop (g : Fin 10) (h : Hdr) (i : BitVec 16) (ka : Word) (s : State) (hd : s.sys.dev = .idle ∨ s.sys.dev = .run)
    (hreach : s.reaches s.fr.epoch = true) (hp : (s.ring g).pend = [⟨g, i, h, .nop⟩]) (hk : h.act = some ka)
    (hother : ∀ r < 10, r ≠ g.val → (s.ring r).pend = []) (hun : ∀ r < 10, (s.ring r).untimed = []) (he : s.ringEn (10 + g) = true)
    (hh : (s.ring (10 + g)).halt = false) :
    ∃ t, exec .descriptorActivation s = .next t ∧ (∀ r, (t.ring r).dev = (s.ring r).dev ∨ r = 10 + g.val)
         ∧ t = { s with fr := { s.fr with activatedAt := some s.fr.epoch }, out := t.out, rings := t.rings }
         ∧ (∀ st : Status, (st = .ok ∧ frameDiff s.fr.k ka = 0) ∨ (st = .late ∧ 0 < frameDiff s.fr.k ka ∧ frameDiff s.fr.k ka ≤ 2)
               ∨ (st = .missed ∧ 2 < frameDiff s.fr.k ka) →
             (t.ring g).pend = []
             ∧ t.out = s.out ++ [s.completionOut (10 + g) st 0 h.tag i (if st = .missed then 0 else s.fr.k) 0])
         ∧ (-65535 ≤ frameDiff s.fr.k ka → frameDiff s.fr.k ka < 0 → (t.ring g).pend = (s.ring g).pend ∧ t.out = s.out) := by
  have hv := State.activateAll_nop (d := ⟨g, i, h, .nop⟩) g.isLt hd rfl hk hp hother he hh
  have halive : (!s.alive || !s.reaches s.fr.epoch) = false := by
    rcases hd with h | h <;> simp [State.alive, h, hreach]
  have hexec : exec .descriptorActivation s = .next (forNat 10 (fun r s => s.drain r)
      { forNat 10 (fun r (s : State) => s.activateRing r) s with
        fr := { (forNat 10 (fun r (s : State) => s.activateRing r) s).fr with
          activatedAt := some (forNat 10 (fun r (s : State) => s.activateRing r) s).fr.epoch } }) := by
    simp only [exec, execDescriptorActivation, halive, Bool.false_eq_true, if_false]
  rw [hexec]
  generalize forNat 10 (fun r (s : State) => s.activateRing r) s = v at hv
  generalize hw : ({ v with fr := { v.fr with activatedAt := some v.fr.epoch } } : State) = w
  have hwr : ∀ q, w.ring q = v.ring q := fun q => by rw [← hw]; rfl
  have hnone : ∀ r < 10, (w.ring r).untimed = [] := fun r hr => by
    rw [hwr]
    by_cases h1 : r = g
    · rw [h1]
      exact (congrArg Ring.untimed hv.own).trans (hun g g.isLt)
    · rw [hv.other r h1 (by dsimp only; omega)]
      exact hun r hr
  have hdrain : ∀ n ≤ 10, forNat n (fun r (s : State) => s.drain r) w = w := by
    intro n
    induction n with
    | zero => exact fun _ => rfl
    | succ n ih =>
      intro hn
      show (forNat n _ w).drain n = w
      rw [ih (by omega), State.drain_none (hnone n (by omega))]
  rw [hdrain 10 (Nat.le_refl _)]
  have hwo : w.out = v.out := by rw [← hw]
  refine ⟨w, rfl, fun r => ?_, ?_, fun st hst => ?_, fun h1 h2 => ?_⟩
  · rw [hwr]
    by_cases h1 : r = g
    · rw [h1]
      exact .inl (congrArg Ring.dev hv.own :)
    · by_cases h2 : r = 10 + g
      · exact .inr h2
      · exact .inl (congrArg Ring.dev (hv.other r h1 h2))
  · have := hv.rest
    rw [← hw, this]
  · rw [hwr, hwo]
    exact hv.done st hst
  · rw [hwr, hwo, hp]
    exact hv.ahead h1 h2

/-- Settles O29: a fetched NOP, one that its bits refuse, and the one timed NOP of a boundary. -/
theorem fetchedAndTimedDescriptorsComplete : Obligations.FetchedAndTimedDescriptorsComplete := by
  unfold Obligations.FetchedAndTimedDescriptorsComplete
  exact ⟨⟨fun g w f h s hf hc hr ht hd ha hu hb hk _ he hh => fetchedNop g w f h s hf hc hr ht hd ha hu hb hk he hh, fetchedRefused⟩, timedNop⟩

end Sys2Proof.Machine
end
section
/-! SUPPORT. Reads that fail: issued again up to twice, then abandoned (R367). -/

namespace Sys2Proof.Machine

/-- A timed-out read is counted, and nothing else. -/
theorem State.countTimeout_spec (s : State) (c : ReadEnd) (a : Nat) :
    ∃ R, s.countTimeout c a = { s with regs := R } ∧ ∀ b, b ≠ a → ({ s with regs := R } : State).reg b = s.reg b := by
  unfold State.countTimeout
  split
  · obtain ⟨f, hf⟩ := State.count_acts a 1
    refine ⟨f s.regs, hf s, fun b hb => ?_⟩
    rw [← hf]
    exact (RegsWithin.count (W := (· = a)) s rfl 1).reg b hb
  · exact ⟨s.regs, rfl, fun _ _ => rfl⟩

theorem State.issueRead_sends {s : State} (h : s.hostReach = true) (k : ReadKind) (a : BitVec 64) (n : Nat) :
    s.issueRead k a n = { s with out := s.out ++ [.hostRead k a n] } := if_pos h

theorem sweepRetried (c : ReadEnd) (w : Sweep) (rest : List Sweep) (s : State) (he : s.hifEn = true) (hr : s.hostReach = true)
    (hs : s.hif.sweeps = w :: rest) (hc : s.readEnds c w.issued = true) :
    ∃ t, exec (.readTimeout ⟨.sweep, c⟩) s = .next t
      ∧ (w.tries < 2 → t = { s.countTimeout c 0x100014 with
          hif := { s.hif with sweeps := { w with issued := s.hifNow, tries := w.tries + 1 } :: rest }
          out := s.out ++ [.hostRead .sweep s.pageAddr 256] })
      ∧ (2 ≤ w.tries → RaiseFrame { s.countTimeout c 0x100014 with hif := { s.hif with sweeps := rest } } t) := by
  refine ⟨s.sweepFailed c, rfl, fun h => ?_, fun h => ?_⟩
  · unfold State.sweepFailed
    rw [hs]
    simp only [he, hc, Bool.not_true, Bool.or_self, Bool.false_eq_true, if_false, h, if_true]
    obtain ⟨R, hR, hreg⟩ := s.countTimeout_spec c 0x100014
    rw [hR]
    have hp : ({ s with regs := R } : State).pageAddr = s.pageAddr := by
      unfold State.pageAddr State.fld
      simp only [hreg _ (by decide : (0x100004 : Nat) ≠ 0x100014), hreg _ (by decide : (0x100008 : Nat) ≠ 0x100014)]
    rw [State.issueRead_sends (by exact hr), ← hp]
    rfl
  · unfold State.sweepFailed
    rw [hs]
    simp only [he, hc, Bool.not_true, Bool.or_self, Bool.false_eq_true, if_false, Nat.not_lt.mpr h]
    obtain ⟨R, hR, hreg⟩ := s.countTimeout_spec c 0x100014
    rw [hR]
    exact State.raise_frame ..

/-! ### A fetch that is abandoned: its descriptors complete with TIMEOUT -/

theorem State.putCompletion_count {s : State} {r : Nat} (hh : (s.ring (10 + r)).halt = false) (he : s.ringEn (10 + r) = true)
    (st : Status) (opcode : Nat) (tag index : BitVec 16) (irq : Bool) (frame : Word) (res : Nat) :
    ((s.putCompletion r st opcode tag index irq frame res).ring (10 + r)).count17 = (s.ring (10 + r)).count17 + 1
      ∧ ((s.putCompletion r st opcode tag index irq frame res).ring (10 + r)).halt = false := by
  unfold State.putCompletion
  dsimp only
  rw [hh, show (s.updRing (10 + r) fun y => { y with reserved := y.reserved - 1 }).ringEn (10 + r) = true from he]
  exact ⟨by simp [State.ring, State.updRing, State.emit], by simpa [State.ring, State.updRing, State.emit] using hh⟩

/-- What a fetch of n descriptors of ring r that is abandoned comes to. -/
structure FetchFailed (r n : Nat) (u t : State) : Prop where
  rest : RingsOnly u t
  out : u.out <+: t.out
  own : t.ring r = { u.ring r with dev := (u.ring r).dev + BitVec.ofNat 16 n }
  completes : u.ringEn (10 + r) = true → (u.ring (10 + r)).halt = false →
    (t.ring (10 + r)).count17 = (u.ring (10 + r)).count17 + BitVec.ofNat 17 n
    ∧ (n ≠ 0 → u.completionOut (10 + r) .timeout 0xFF 0 (u.ring r).dev 0 0 ∈ t.out)

theorem State.failFetch_spec (r n : Nat) (u : State) : FetchFailed r n u (u.failFetch r n) := by
  induction n generalizing u with
  | zero =>
    refine ⟨rfl, List.prefix_rfl, ?_, fun _ _ => ⟨?_, fun h => absurd rfl h⟩⟩
    · show u.ring r = { u.ring r with dev := (u.ring r).dev + 0#16 }
      rw [BitVec.add_zero]
    · show _ = _ + 0#17
      rw [BitVec.add_zero]
      rfl
  | succ n ih =>
    unfold State.failFetch
    dsimp only
    generalize hv : (u.putCompletion r .timeout 0xFF 0 (u.ring r).dev false 0 0).updRing r (fun x => { x with dev := x.dev + 1 }) = v
    have hro : RingsOnly u v := by
      rw [← hv]
      exact (RingsOnly.putCompletion ..).trans (RingsOnly.updRing ..)
    have hout : v.out = (u.putCompletion r .timeout 0xFF 0 (u.ring r).dev false 0 0).out := by rw [← hv]; rfl
    have hpre : u.out <+: (u.putCompletion r .timeout 0xFF 0 (u.ring r).dev false 0 0).out := by
      unfold State.putCompletion
      dsimp only
      split
      · exact List.prefix_rfl
      · exact ⟨_, rfl⟩
    have hself : v.ring r = { u.ring r with dev := (u.ring r).dev + 1 } := by
      rw [← hv, State.ring, State.updRing, Tab.get_upd_same]
      have := State.putCompletion_ring (u := u) (r := r) (q := r) (st := .timeout) (opcode := 0xFF) (tag := 0) (index := (u.ring r).dev)
        (irq := false) (frame := 0) (res := 0) (by omega)
      rw [State.ring] at this
      rw [this]
    have hcomp : v.ring (10 + r) = (u.putCompletion r .timeout 0xFF 0 (u.ring r).dev false 0 0).ring (10 + r) := by
      rw [← hv, State.ring, State.updRing, Tab.get_upd_ne _ (by omega)]
      rfl
    have hrec := ih v
    generalize v.failFetch r n = t at hrec
    have hadd : ∀ w : Nat, (1 : BitVec w) + BitVec.ofNat w n = BitVec.ofNat w (n + 1) := fun w => by
      rw [Nat.add_comm, BitVec.ofNat_add]
      rfl
    refine ⟨hro.trans hrec.rest, hpre.trans (hout ▸ hrec.out), ?_, fun he hh => ?_⟩
    · rw [hrec.own, hself, ← hadd, ← BitVec.add_assoc]
    · have hent := State.putCompletion_out hh he .timeout 0xFF 0 (u.ring r).dev false 0 0
      obtain ⟨hc, hl⟩ := State.putCompletion_count hh he .timeout 0xFF 0 (u.ring r).dev false 0 0
      obtain ⟨h1, -⟩ := hrec.completes (by rw [hro]; exact he) (by rw [hcomp]; exact hl)
      refine ⟨?_, fun _ => hrec.out.subset ?_⟩
      · rw [h1, hcomp, hc, BitVec.add_assoc, hadd]
      · rw [hout, hent]
        exact List.mem_append_right _ (List.mem_singleton_self _)

theorem rcfgAddr_ne (q : Nat) : rcfgAddr q ≠ 0x100018 := by
  unfold rcfgAddr
  omega

/-- The word of counted time-outs is no ring's. -/
theorem State.entryAddr_counted {s : State} {R : List (Nat × Word)} (h : ∀ b, b ≠ 0x100018 → ({ s with regs := R } : State).reg b = s.reg b)
    (q : Nat) (i : BitVec 16) : ({ s with regs := R } : State).entryAddr q i = s.entryAddr q i := by
  unfold State.entryAddr State.ringBase State.ringSize State.fld
  rw [h _ (rcfgAddr_ne q), h (rcfgAddr q - 4) (by unfold rcfgAddr; omega), h (rcfgAddr q - 8) (by unfold rcfgAddr; omega)]

theorem State.completionOut_counted {s : State} {R : List (Nat × Word)} (h : ∀ b, b ≠ 0x100018 → ({ s with regs := R } : State).reg b = s.reg b)
    {q : Nat} {st : Status} {o : Nat} {tag i : BitVec 16} {frame : Word} {res : Nat} :
    ({ s with regs := R } : State).completionOut q st o tag i frame res = s.completionOut q st o tag i frame res := by
  unfold State.completionOut
  dsimp only
  rw [State.entryAddr_counted h]
  unfold State.ringSize State.fld
  rw [h _ (rcfgAddr_ne q)]
  rfl

theorem fetchRetried (g : Fin 10) (n : BitVec 8) (c : ReadEnd) (f : Fetch) (rest : List Fetch) (s : State) (hr : s.hostReach = true)
    (hs : (s.ring g).fetches = f :: rest) (hn : f.count = n.toNat) (hc : s.readEnds c f.issued = true) :
    ∃ t, exec (.readTimeout ⟨.fetch g n, c⟩) s = .next t
      ∧ (f.tries < 2 → t = { s.countTimeout c 0x100018 with
          rings := s.rings.upd g fun x => { x with fetches := { f with issued := s.hifNow, tries := f.tries + 1 } :: rest }
          out := s.out ++ [.hostRead (.fetch g n) (s.entryAddr g (s.ring g).dev) (32 * n.toNat)] })
      ∧ (2 ≤ f.tries → (t.ring g).fetches = rest ∧ (t.ring g).dev = (s.ring g).dev + BitVec.ofNat 16 n.toNat
          ∧ (s.ringEn (10 + g) = true → (s.ring (10 + g)).halt = false →
              (t.ring (10 + g)).count17 = (s.ring (10 + g)).count17 + BitVec.ofNat 17 n.toNat
              ∧ (n ≠ 0 → s.completionOut (10 + g) .timeout 0xFF 0 (s.ring g).dev 0 0 ∈ t.out))) := by
  obtain ⟨R, hR, hreg⟩ := s.countTimeout_spec c 0x100018
  have hguard : ¬(f.count ≠ n.toNat ∨ s.readEnds c f.issued = false) := by
    rw [hc]
    exact fun h => h.elim (fun h => h hn) Bool.noConfusion
  refine ⟨s.fetchFailed g n.toNat c, rfl, fun h => ?_, fun h => ?_⟩
  · unfold State.fetchFailed
    rw [hs]
    dsimp only
    rw [if_neg hguard, if_pos h, hR, State.issueRead_sends (by exact hr), State.entryAddr_counted hreg, BitVec.ofNat_toNat, BitVec.setWidth_eq]
    rfl
  · unfold State.fetchFailed
    rw [hs]
    dsimp only
    rw [if_neg hguard, if_neg (Nat.not_lt.mpr h), hR]
    generalize hu : State.updRing _ g _ = u
    have hu1 : u.out = s.out ∧ u.ring g = { s.ring g with fetches := rest } ∧ u.ring (10 + g) = s.ring (10 + g) := by
      subst hu
      exact ⟨rfl, Tab.get_upd_same .., Tab.get_upd_ne _ (by omega) _⟩
    have hent : ∀ i, u.completionOut (10 + g) .timeout 0xFF 0 i 0 0 = s.completionOut (10 + g) .timeout 0xFF 0 i 0 0 := fun i => by
      rw [← State.completionOut_counted hreg]
      subst hu
      exact State.completionOut_of_rings (RingsOnly.updRing ..) (congrArg Ring.count17 (Tab.get_upd_ne _ (by omega) _)) ..
    have hen : u.ringEn (10 + g) = s.ringEn (10 + g) := by
      have : ({ s with regs := R } : State).ringEn (10 + g) = s.ringEn (10 + g) := by
        unfold State.ringEn State.fld
        rw [hreg _ (rcfgAddr_ne _)]
      subst hu
      exact this
    obtain ⟨hout, hring, hcomp⟩ := hu1
    have hfail := u.failFetch_spec g n.toNat
    generalize u.failFetch g n.toNat = v at hfail
    have hv := v.raise_frame 0x3501 g []
    generalize v.raise 0x3501 g [] = w at hv
    obtain ⟨hw, -⟩ := w.sweepDone_spec f.sweep
    generalize w.sweepDone f.sweep = t at hw
    have hwr : ∀ q, w.ring q = v.ring q := fun q => by rw [State.ring, hv.rings_eq, State.ring]
    have hcount : (t.ring (10 + g)).count17 = (w.ring (10 + g)).count17 := (congrArg Ring.count17 (hw.ring (10 + g)) :)
    refine ⟨?_, ?_, fun he hh => ?_⟩
    · rw [hw.fetches, hwr, hfail.own, hring]
    · rw [hw.dev, hwr, hfail.own, hring]
    · obtain ⟨h1, h2⟩ := hfail.completes (hen.trans he) (by rw [hcomp]; exact hh)
      rw [hring, hent] at h2
      refine ⟨by rw [hcount, hwr, h1, hcomp], fun hn0 => (hv.out.trans hw.out).subset (h2 fun h0 => hn0 ?_)⟩
      exact BitVec.eq_of_toNat_eq h0

/-! ### A buffer -/

theorem State.issueBuffer_spec (s : State) (r : Nat) (h : r < 10) :
    s.out <+: (s.issueBuffer r h).out ∧ ((s.issueBuffer r h).ring r).buf = (s.ring r).buf := by
  unfold State.issueBuffer
  split
  · exact ⟨List.prefix_rfl, rfl⟩
  · rename_i d late rest hs
    generalize hu : (s.updRing r fun x => { x with bufTries := 0, bufAt := s.hifNow }) = u
    have h1 : u.out = s.out ∧ (u.ring r).buf = (s.ring r).buf := by
      subst hu
      exact ⟨rfl, (congrArg Ring.buf (Tab.get_upd_same ..) :)⟩
    have h2 : (u.readFor ⟨r, h⟩ d).rings = u.rings ∧ u.out <+: (u.readFor ⟨r, h⟩ d).out := by
      unfold State.readFor
      split
      · refine List.foldlRecOn (motive := fun v : State => v.rings = u.rings ∧ u.out <+: v.out) _ _ ⟨rfl, List.prefix_rfl⟩ fun v hv i _ => ?_
        obtain ⟨e, o⟩ := v.issueRead_frame (.buffer ⟨r, h⟩) (_ + BitVec.ofNat 64 (4096 * i)) (min 4096 (_ - 4096 * i))
        exact ⟨by rw [e]; exact hv.1, hv.2.trans o⟩
      · exact ⟨rfl, List.prefix_rfl⟩
    exact ⟨h1.1 ▸ h2.2, by rw [State.ring, h2.1]; exact h1.2⟩

theorem bufferRetried (g : Fin 10) (c : ReadEnd) (d : Desc) (b : Buf) (late : Bool) (rest : List (Desc × Bool)) (s : State)
    (hr : s.hostReach = true) (hs : (s.ring g).buf = (d, late) :: rest) (hd : d.ring = g) (hb : bodyBuf d.body = some b)
    (hc : s.readEnds c (s.ring g).bufAt = true) :
    ∃ t, exec (.readTimeout ⟨.buffer g, c⟩) s = .next t
      ∧ ((s.ring g).bufTries < 2 → t = { s.countTimeout c 0x100018 with
          rings := s.rings.upd g fun x => { x with bufTries := x.bufTries + 1, bufAt := s.hifNow }
          out := s.out ++ (List.range ((b.len.toNat + 4095) / 4096)).map fun i =>
            .hostRead (.buffer g) (b.addr + BitVec.ofNat 64 (4096 * i)) (min 4096 (b.len.toNat - 4096 * i)) })
      ∧ (2 ≤ (s.ring g).bufTries → (t.ring g).buf = rest
          ∧ (s.ringEn (10 + g) = true → (s.ring (10 + g)).halt = false →
              s.completionOut (10 + g) .timeout (bodyCode d.body) d.hdr.tag d.index 0 0 ∈ t.out)) := by
  obtain ⟨R, hR, hreg⟩ := s.countTimeout_spec c 0x100018
  have hguard : ¬((!s.readEnds c (s.ring g).bufAt) = true) := by
    rw [hc]
    decide
  refine ⟨s.bufferFailed g c, rfl, fun h => ?_, fun h => ?_⟩
  · have hcount : ((s.countTimeout c 0x100018).ring g).bufTries < 2 := by
      rw [hR]
      exact h
    unfold State.bufferFailed
    rw [hs]
    dsimp only
    rw [if_neg hguard, if_pos hcount, hR, State.readFor_eq hb (by exact hr)]
    rfl
  · have hcount : ¬((s.countTimeout c 0x100018).ring g).bufTries < 2 := by
      rw [hR]
      exact Nat.not_lt.mpr h
    unfold State.bufferFailed
    rw [hs]
    dsimp only
    rw [if_neg hguard, if_neg hcount, hR]
    generalize hu : State.updRing _ g _ = u
    have hu1 : (u.ring g).buf = rest ∧ u.ring (10 + g) = s.ring (10 + g) := by
      subst hu
      exact ⟨congrArg Ring.buf (Tab.get_upd_same ..), Tab.get_upd_ne _ (by omega) _⟩
    have hent : u.completionOut (10 + g) .timeout (bodyCode d.body) d.hdr.tag d.index 0 0
        = s.completionOut (10 + g) .timeout (bodyCode d.body) d.hdr.tag d.index 0 0 := by
      rw [← State.completionOut_counted hreg]
      subst hu
      exact State.completionOut_of_rings (RingsOnly.updRing ..) (congrArg Ring.count17 (Tab.get_upd_ne _ (by omega) _)) ..
    have hen : u.ringEn (10 + g) = s.ringEn (10 + g) := by
      have : ({ s with regs := R } : State).ringEn (10 + g) = s.ringEn (10 + g) := by
        unfold State.ringEn State.fld
        rw [hreg _ (rcfgAddr_ne _)]
      subst hu
      exact this
    obtain ⟨hbuf, hcomp⟩ := hu1
    have hv1 : ((u.complete d .timeout 0 0).ring g).buf = rest := by rw [State.complete_rings (by rw [hd]; omega), hbuf]
    have hv2 : u.ringEn (10 + g) = true → (u.ring (10 + g)).halt = false → u.completionOut (10 + g) .timeout (bodyCode d.body) d.hdr.tag d.index 0 0
        ∈ (u.complete d .timeout 0 0).out := fun he hh => by
      rw [← hd] at he hh ⊢
      rw [State.complete_out_entry hh he]
      exact List.mem_append_right _ (List.mem_singleton_self _)
    generalize u.complete d .timeout 0 0 = v at hv1 hv2
    obtain ⟨h1, h2⟩ := v.issueBuffer_spec g g.isLt
    generalize v.issueBuffer g g.isLt = w at h1 h2
    have hw := w.raise_frame 0x3501 g []
    generalize w.raise 0x3501 g [] = t at hw
    refine ⟨by rw [State.ring, hw.rings_eq]; exact h2.trans hv1, fun he hh => (h1.trans hw.out).subset ?_⟩
    rw [← hent]
    exact hv2 (hen.trans he) (by rw [hcomp]; exact hh)

/-- Settles O30: the three kinds of reads, each with its retries; data that comes too late ends in the same step as a time-out. -/
theorem readTimeoutRetriesTwice : Obligations.ReadTimeoutRetriesTwice := by
  unfold Obligations.ReadTimeoutRetriesTwice
  refine ⟨sweepRetried, fetchRetried, bufferRetried, fun a s => ⟨rfl, fun c hc => if_neg hc, rfl, rfl⟩,
    fun page w rest s he hr hlt hs hc => ?_, fun g raw n f rest s hr hs hn hn' hc => ?_, fun g data d b late rest s hr hs hb hl hc => ?_⟩
  · have hno := State.issueSweep_not_due hlt
    simp only [exec, execDoorbellSweep, execReadTimeout, he, hr, hno, hs, hc, Bool.not_true, Bool.not_false, Bool.or_self, Bool.false_eq_true,
      if_false, if_true]
  · simp only [exec, execDescriptorFetch, execReadTimeout, hs, hr, hc, Bool.not_true, Bool.not_false, Bool.false_eq_true, if_true, hn, ne_eq,
      not_true_eq_false, or_self, if_false]
    rw [← hn', hn]
  · simp only [exec, execBufferRead, execReadTimeout, hs, hr, hc, hb, hl, bne_self_eq_false, Bool.not_true, Bool.not_false, Bool.or_self,
      Bool.false_eq_true, if_false, if_true]

end Sys2Proof.Machine
end
section
/-! SUPPORT. PERST_N, the link and the host-lost timer (R343, R368, R369, R371). -/

namespace Sys2Proof.Machine

theorem lookReg_filter (p : Nat → Bool) (a : Nat) (l : List (Nat × Word)) :
    lookReg a (l.filter fun e => p e.1) = if p a = true then lookReg a l else resetWord a := by
  induction l with
  | nil => simp [lookReg]
  | cons e l ih =>
    obtain ⟨b, w⟩ := e
    by_cases hb : p b = true
    · rw [List.filter_cons_of_pos (by exact hb), lookReg, lookReg, ih]
      split
      · rename_i hab
        rw [if_pos (hab ▸ hb)]
      · rfl
    · rw [List.filter_cons_of_neg (by exact hb), ih]
      by_cases hab : b = a
      · rw [if_neg (hab ▸ hb), if_neg (hab ▸ hb)]
      · rw [lookReg, if_neg hab]

/-- A step of the run-downs of a lost host: only octads and engines change, and octad n as R371 says. -/
structure RundownFrame (s t : State) : Prop where
  rest : t = { s with octs := t.octs, engs := t.engs }
  state : ∀ n, (t.oct n).state = (s.oct n).state ∨ (t.oct n).state = .rundown

theorem State.enterRundown_frame (s : State) (n : Nat) : RundownFrame s (s.enterRundown n) := by
  by_cases h : (s.oct n).state = .charging ∨ (s.oct n).state = .running
  · rw [State.enterRundown_eq h]
    refine ⟨rfl, fun m => ?_⟩
    by_cases hm : m = n
    · subst hm
      exact .inr (congrArg Octad.state (Tab.get_upd_same s.octs m fun o => { o with state := .rundown, rdEntry := s.now }))
    · exact .inl (congrArg Octad.state (Tab.get_upd_ne s.octs hm fun o => { o with state := .rundown, rdEntry := s.now }))
  · unfold State.enterRundown
    rw [if_neg h]
    exact ⟨rfl, fun _ => .inl rfl⟩

/-- Every Charging or Running octad of the first k is in Run-down after their run-downs. -/
theorem State.enterRundown_all (s : State) (k : Nat) :
    RundownFrame s (forNat k (fun n s => s.enterRundown n) s) ∧ ∀ n < k, (s.oct n).state = .charging ∨ (s.oct n).state = .running →
      ((forNat k (fun n s => s.enterRundown n) s).oct n).state = .rundown := by
  induction k with
  | zero => exact ⟨⟨rfl, fun _ => .inl rfl⟩, fun _ h => absurd h (Nat.not_lt_zero _)⟩
  | succ k ih =>
    obtain ⟨hf, hs⟩ := ih
    have hstep : forNat (k + 1) (fun n (s : State) => s.enterRundown n) s = (forNat k (fun n s => s.enterRundown n) s).enterRundown k := rfl
    rw [hstep]
    generalize forNat k (fun n (s : State) => s.enterRundown n) s = u at hf hs
    have hk := u.enterRundown_frame k
    refine ⟨⟨by rw [hk.rest, hf.rest], fun n => ?_⟩, fun n hn ha => ?_⟩
    · rcases hk.state n with h | h
      · rw [h]
        exact hf.state n
      · exact .inr h
    · rcases Nat.lt_succ_iff_lt_or_eq.mp hn with hl | rfl
      · rcases hk.state n with h | h
        · rw [h]
          exact hs n hl ha
        · exact h
      · rcases hf.state n with h | h
        · rw [← h] at ha
          have := congrArg Octad.state (Tab.get_upd_same u.octs n fun o => { o with state := .rundown, rdEntry := u.now })
          rw [State.enterRundown_eq ha]
          exact this
        · rcases hk.state n with h' | h'
          · exact h'.trans h
          · exact h'

theorem State.resetHif_reg (s : State) (a : Nat) : s.resetHif.reg a = if inBlock a 1 = true ∧ a ≠ 0x10000C then resetWord a else s.reg a := by
  have := lookReg_filter (fun b => !(inBlock b 1 && b != 0x10000C)) a s.regs
  show lookReg a (s.regs.filter _) = _
  rw [this]
  by_cases h : inBlock a 1 = true ∧ a ≠ 0x10000C
  · rw [if_pos h, if_neg (by simp [h.1, h.2])]
  · rw [if_neg h, if_pos (by by_cases hb : inBlock a 1 = true <;> simp_all)]
    rfl

/-- The reset of the host interface. -/
theorem perstN_resets (s : State) : ∃ t, exec .perstN s = .next t ∧ (∀ r, t.ring r = Ring.init) ∧ t.staging = [] ∧ t.hif.linkUp = false
    ∧ t.hif.inReset = true ∧ (∀ a, t.reg a = if inBlock a 1 = true ∧ a ≠ 0x10000C then resetWord a else s.reg a)
    ∧ t = { s with regs := t.regs, staging := [], rings := t.rings, modeReq := t.modeReq, engs := t.engs, hif := t.hif, flt := t.flt } :=
  ⟨_, rfl, fun _ => rfl, rfl, rfl, rfl, s.resetHif_reg, rfl⟩

/-- The host is lost when its timer expires. -/
theorem hostLost_runsDown (x : Nat) (s : State) (hx : s.hif.lostTimer = some x) (hn : x < s.hifNow) (hc : s.canonical) :
    ∃ t, exec .hostLost s = .next t ∧ t.hif.lost = true ∧ t.hif.lostTimer = none ∧ t.fld 0x100010 0 1 = 1
    ∧ (s.fld 0x10000C 14 1 = 1 → ∀ n < 8, (s.oct n).state = .charging ∨ (s.oct n).state = .running →
        (t.oct n).state = .rundown ∨ (t.oct n).state = .fenced ∨ (t.oct n).state = .blocked)
    ∧ (s.fld 0x10000C 14 1 = 0 → RaiseFrame { s with regs := putReg 0x100010 (s.reg 0x100010 ||| 1) s.regs, hif := t.hif } t) := by
  have hexec : exec .hostLost s = .next (State.raise
      (if s.fld 0x10000C 14 1 = 1 then forNat 8 (fun n s => s.enterRundown n)
          (({ s with hif := { s.hif with lost := true, lostTimer := none } } : State).setFld 0x100010 0 1 1)
        else ({ s with hif := { s.hif with lost := true, lostTimer := none } } : State).setFld 0x100010 0 1 1)
      0x3503 (s.fld 0x10000C 14 1) []) := by
    simp only [exec, execHostLost, hx, if_neg (Nat.not_le.mpr hn)]
  rw [hexec]
  generalize hu : ({ s with hif := { s.hif with lost := true, lostTimer := none } } : State).setFld 0x100010 0 1 1 = u
  have hue : u = { s with regs := putReg 0x100010 (s.reg 0x100010 ||| 1) s.regs, hif := { s.hif with lost := true, lostTimer := none } } := by
    rw [← hu, State.setFld, putField_one]
    rfl
  have huf : u.fld 0x100010 0 1 = 1 := by
    have hr : u.reg 0x100010 = s.reg 0x100010 ||| 1 := by
      rw [hue]
      exact State.reg_setReg_same (s := s) hc.1 0x100010 _
    rw [State.fld, hr]
    exact (fieldOf_bit (s.reg 0x100010 ||| 1) 0).trans (by simp [bit])
  have huo : ∀ n, u.oct n = s.oct n := fun n => by rw [hue]; rfl
  generalize hv : (if s.fld 0x10000C 14 1 = 1 then forNat 8 (fun n s => s.enterRundown n) u else u) = v
  have hvf : RundownFrame u v := by
    subst hv
    split
    · exact (u.enterRundown_all 8).1
    · exact ⟨rfl, fun _ => .inl rfl⟩
  have hvr : ∀ a, v.reg a = u.reg a := fun a => by rw [hvf.rest]; rfl
  have hvh : v.hif = { s.hif with lost := true, lostTimer := none } := by
    rw [hvf.rest, hue]
  have hr := v.raise_frame 0x3503 (s.fld 0x10000C 14 1) []
  generalize v.raise 0x3503 (s.fld 0x10000C 14 1) [] = t at hr
  have hth := hr.hif_eq.trans hvh
  refine ⟨t, rfl, by rw [hth], by rw [hth], ?_, fun hp n hn8 ha => ?_, fun hp => ?_⟩
  · rw [State.fld, hr.reg _ (by decide), hvr]
    exact huf
  · rw [if_pos hp] at hv
    have := (u.enterRundown_all 8).2 n hn8 (by rw [huo]; exact ha)
    rw [hv] at this
    rcases hr.state n with h | h | h
    · exact .inl (h.trans this)
    · exact .inr (.inl h)
    · exact .inr (.inr h.1)
  · rw [if_neg (by rw [hp]; decide)] at hv
    rw [hth, ← hue, hv]
    exact hr

/-- Settles O31: each step of the host's link is its record and the collector's windows. -/
theorem hostLossAndLink : Obligations.HostLossAndLink := by
  unfold Obligations.HostLossAndLink
  refine ⟨perstN_resets, fun _ => rfl, fun v w s h1 h2 => ⟨_, rfl, ?_⟩, fun s hl => ⟨_, rfl, ?_⟩, fun s hr => ⟨?_, ?_⟩, hostLost_runsDown⟩
  · rw [if_neg (by simp [h1, h2])]
    rfl
  · rw [if_neg (by simp [hl])]
    dsimp only
    have h := State.raise_frame { s with hif := { s.hif with linkUp := false, speed := 0, width := 0 } } 0x3506 0 []
    generalize State.raise _ _ _ _ = t at h
    refine ⟨?_, h.trans (.setFlt t _)⟩
    show t.hostReach = false
    simp [State.hostReach, h.hif_eq]
  · simp only [exec, execD3hot, hr, Bool.false_eq_true, if_false]
  · simp [State.hostReach]

end Sys2Proof.Machine
end
section
/-! SUPPORT. The end of an engine's sample: committed, or late (R216, R217, R241, R242). -/

namespace Sys2Proof.Machine

/-- An engine without the marks that reactions, a decided mode change and its capture leave. -/
def Engine.rest (x : Engine) : Engine := { x with armed := none, capDec := none }

/-- What the end of a sample leaves alone beside the sample itself. -/
structure EndFrame (s t : State) : Prop where
  corrected : t.sys.corrected = s.sys.corrected
  now : t.now = s.now
  clocks : (t.fr, t.time, t.clk, t.tick, t.sys.halt) = (s.fr, s.time, s.clk, s.tick, s.sys.halt)
  toCommit : ∀ n, (t.oct n).toCommit = (s.oct n).toCommit

namespace EndFrame
variable {s t u : State}

theorem refl (s : State) : EndFrame s s := ⟨rfl, rfl, rfl, fun _ => rfl⟩

theorem trans (h : EndFrame s t) (k : EndFrame t u) : EndFrame s u :=
  ⟨k.corrected.trans h.corrected, k.now.trans h.now, k.clocks.trans h.clocks, fun n => (k.toCommit n).trans (h.toCommit n)⟩

theorem updEng (s : State) (e : Nat) (f : Engine → Engine) : EndFrame s (s.updEng e f) := ⟨rfl, rfl, rfl, fun _ => rfl⟩

theorem of_raise (h : RaiseFrame s t) : EndFrame s t :=
  ⟨(congrArg (fun x : State => x.sys.corrected) h.core :), h.now_eq,
    (congrArg (fun x : State => (x.fr, x.time, x.clk, x.tick, x.sys.halt)) h.core :), fun n => (congrArg Octad.toCommit (h.oct n) :)⟩

end EndFrame

theorem RaiseFrame.engRest {s t : State} (h : RaiseFrame s t) (e : Nat) : (t.eng e).rest = (s.eng e).rest :=
  (congrArg (fun x : Engine => { x with capDec := none }) (h.eng e) :)

/-- A step that writes registers, flags among them, the profile generators, the plan's tallies and what leaves the block. -/
structure NotesFrame (s t : State) : Prop where
  rest : t = { s with regs := t.regs, hotAt := t.hotAt, hot := t.hot, profs := t.profs, epl := t.epl, out := t.out, rings := t.rings }

namespace NotesFrame
variable {s t u : State}

theorem refl (s : State) : NotesFrame s s := ⟨rfl⟩

theorem trans (h : NotesFrame s t) (k : NotesFrame t u) : NotesFrame s u := ⟨by rw [k.rest, h.rest]⟩

theorem foldl {α : Type} {f : State → α → State} (h : ∀ s a, NotesFrame s (f s a)) (l : List α) (s : State) : NotesFrame s (l.foldl f s) := by
  induction l generalizing s with
  | nil => exact refl s
  | cons a l ih => exact (h s a).trans (ih _)

theorem ite {c : Prop} [Decidable c] {a b : State} (ha : NotesFrame s a) (hb : NotesFrame s b) : NotesFrame s (if c then a else b) := by
  split
  · exact ha
  · exact hb

theorem flag (s : State) (a i : Nat) : NotesFrame s (s.flag a i) := ⟨rfl⟩

theorem count (s : State) (a n : Nat) : NotesFrame s (s.count a n) := by
  obtain ⟨f, hf⟩ := State.count_acts a n
  rw [hf]
  exact ⟨rfl⟩

theorem capture (s : State) (ring kind : Nat) (record : List Byte) : NotesFrame s (s.capture ring kind record).1 := by
  have h := (CaptureFrame.capture s ring kind record).rest
  exact ⟨by rw [h]⟩

theorem octs (h : NotesFrame s t) : t.octs = s.octs := by rw [h.rest]
theorem engs (h : NotesFrame s t) : t.engs = s.engs := by rw [h.rest]

theorem cells (h : NotesFrame s t) : t.cells = s.cells := by rw [h.rest]

theorem ended (h : NotesFrame s t) : EndFrame s t := by
  rw [h.rest]
  exact ⟨rfl, rfl, rfl, fun _ => rfl⟩

end NotesFrame

theorem State.profileCommit_frame (s : State) (g : Graph) (vals : Tab (List Word)) (e : Engine) : NotesFrame s (s.profileCommit g vals e) := by
  unfold State.profileCommit
  refine forNat_induct (P := fun u => NotesFrame s u) (fun i u hu => ?_) _ (.refl s)
  split
  · split
    · dsimp only
      refine hu.trans (NotesFrame.trans (t := (if _ then _ else u)) ?_ ⟨rfl⟩)
      exact .ite (.flag ..) (.refl _)
    · exact hu
  · exact hu

theorem State.captureSample_spec (s : State) (e : Nat) (g : Graph) (above : Bool) :
    EndFrame s (s.captureSample e g above) ∧ (s.captureSample e g above).octs = s.octs ∧ (s.captureSample e g above).cells = s.cells
      ∧ ∀ m, ((s.captureSample e g above).eng m).rest = (s.eng m).rest := by
  unfold State.captureSample
  extract_lets b x d n sigs mask fl record u r
  have hu : EndFrame s u := .updEng s e _
  have hm : ∀ m, (u.eng m).rest = (s.eng m).rest := fun m => by
    by_cases h : m = e
    · subst h
      rw [State.eng_updEng_same]
      rfl
    · exact congrArg Engine.rest (Tab.get_upd_ne s.engs h _)
  split
  · exact ⟨.refl s, rfl, rfl, fun _ => rfl⟩
  · split
    · have hr : NotesFrame u r.1 := .capture ..
      exact ⟨hu.trans hr.ended, hr.octs, hr.cells, fun m => by rw [State.eng, hr.engs]; exact hm m⟩
    · have hr : NotesFrame u (u.count (b + 0x30) 1) := .count ..
      exact ⟨hu.trans hr.ended, hr.octs, hr.cells, fun m => by rw [State.eng, hr.engs]; exact hm m⟩

/-- What a committed sample shows of its engine. -/
structure Committed (x y : Engine) (tick : Nat) : Prop where
  committed : y.committed = true
  running : y.running = false
  commitTick : y.commitTick = tick
  ovrRun : y.ovrRun = 0
  older : y.older = x.older
  graph : y.graph = x.graph
  loading : y.loading = x.loading

theorem State.commitSample_spec (s : State) (e : Nat) (g : Graph) (tick : Nat) :
    Committed (s.eng e) ((s.commitSample e g tick).eng e) tick ∧ ∃ y, NotesFrame (s.setEng e y) (s.commitSample e g tick) := by
  unfold State.commitSample
  extract_lets x pos inc r c sp u0 b u1 u2 u3
  have h1 : NotesFrame u0 u1 := .foldl (fun _ _ => .flag ..) _ _
  have h2 : NotesFrame u1 u2 := .foldl (fun _ _ => .flag ..) _ _
  have h3 : NotesFrame u2 u3 := .ite (.count ..) (.refl _)
  have h4 : NotesFrame u3 (if e = 8 then u3.profileCommit g r.vals x else u3) := .ite (u3.profileCommit_frame ..) (.refl _)
  have h := ((h1.trans h2).trans h3).trans h4
  refine ⟨?_, _, h⟩
  generalize (if e = 8 then u3.profileCommit g r.vals x else u3) = t at h
  show Committed _ (t.engs.get e) tick
  rw [h.engs, show u0.engs.get e = _ from Tab.get_set_same ..]
  exact ⟨rfl, rfl, rfl, rfl, rfl, rfl, rfl⟩

/-- An engine whose sample was late: it runs no more, and the overrun is counted in its run. -/
def Engine.overran (x : Engine) : Engine := { x with running := false, ovrRun := if 2 ≤ x.ovrRun then 0 else x.ovrRun + 1 }

theorem State.overrun_spec (s : State) (e : Nat) (priv : Bool) :
    EndFrame s (s.overrun e priv) ∧ ((s.overrun e priv).eng e).rest = (s.eng e).overran.rest := by
  unfold State.overrun
  extract_lets lvl u0 u run
  have hn : NotesFrame (s.updEng e fun x => { x with running := false }) u0 := .count ..
  have hr : RaiseFrame u0 u := State.raise_frame ..
  have hu : EndFrame s u := ((EndFrame.updEng s e _).trans hn.ended).trans (.of_raise hr)
  have hx : (u.eng e).rest = { (s.eng e).rest with running := false } := by
    rw [hr.engRest, State.eng, hn.engs]
    exact congrArg Engine.rest (State.eng_updEng_same ..)
  have hrun : run = (s.eng e).ovrRun + 1 := (congrArg (fun x : Engine => x.ovrRun + 1) hx :)
  have hset : ∀ v, ((u.updEng e fun x => { x with ovrRun := v }).eng e).rest = { (s.eng e).rest with running := false, ovrRun := v } := fun v => by
    rw [State.eng_updEng_same]
    exact congrArg (fun x : Engine => { x with ovrRun := v }) hx
  split
  · have hf : RaiseFrame (u.updEng e fun x => { x with ovrRun := 0 }) _ := State.raise_frame _ (lvl + 3) e []
    refine ⟨(hu.trans (.updEng ..)).trans (.of_raise hf), ?_⟩
    rw [hf.engRest, hset, Engine.overran, if_pos (by omega)]
    rfl
  · refine ⟨hu.trans (.updEng ..), ?_⟩
    rw [hset, Engine.overran, if_neg (by omega), hrun]
    rfl

theorem State.lateSample_spec (s : State) (e : Nat) (g : Graph) (c : Sched) (tick : Nat) :
    EndFrame s (s.lateSample e g c tick) ∧ ((s.lateSample e g c tick).eng e).rest = (s.eng e).overran.rest := by
  have key : ∀ p4, EndFrame s ((s.overrun e p4).captureSample e g true)
      ∧ (((s.overrun e p4).captureSample e g true).eng e).rest = (s.eng e).overran.rest := fun p4 => by
    obtain ⟨h1, h2⟩ := s.overrun_spec e p4
    generalize s.overrun e p4 = u at h1 h2
    obtain ⟨k1, -, -, k4⟩ := u.captureSample_spec e g true
    exact ⟨h1.trans k1, (k4 e).trans h2⟩
  exact key _

/-! ### Mode changes at a commit (R290) -/

/-- A mode change that an engine's commit serves, or ends. -/
structure ServeFrame (s t : State) : Prop where
  rest : t = { s with engs := t.engs, modeReq := t.modeReq, hif := t.hif, rings := t.rings, out := t.out }
  eng : ∀ m, (t.eng m).rest = (s.eng m).rest

namespace ServeFrame
variable {s t u : State}

theorem refl (s : State) : ServeFrame s s := ⟨rfl, fun _ => rfl⟩

theorem trans (h : ServeFrame s t) (k : ServeFrame t u) : ServeFrame s u := ⟨by rw [k.rest, h.rest], fun m => (k.eng m).trans (h.eng m)⟩

theorem disarm (s : State) (e : Nat) : ServeFrame s (s.updEng e fun x => { x with armed := none }) := by
  refine ⟨rfl, fun m => ?_⟩
  by_cases h : m = e
  · subst h
    rw [State.eng_updEng_same]
    rfl
  · exact congrArg Engine.rest (Tab.get_upd_ne s.engs h _)

theorem ended (h : ServeFrame s t) : EndFrame s t := by
  rw [h.rest]
  exact ⟨rfl, rfl, rfl, fun _ => rfl⟩

theorem octs (h : ServeFrame s t) : t.octs = s.octs := by rw [h.rest]

end ServeFrame

theorem State.modeEnd_frame (s : State) (r : ModeReq) (st : Status) (frame : Word) : ServeFrame s (s.modeEnd r st frame) := by
  unfold State.modeEnd
  extract_lets result u done _ v
  have hu : ServeFrame s u := forNat_induct (P := fun w => ServeFrame s w) (fun e w hw => by
    split
    · exact hw.trans (.disarm w e)
    · exact hw) 9 (.refl s)
  have hv : ServeFrame u v := ⟨rfl, fun _ => rfl⟩
  refine List.foldlRecOn (motive := fun w : State => ServeFrame s w) _ _ (hu.trans hv) fun w hw d _ => hw.trans ?_
  have h := RingsOnly.complete w d.d st frame result
  generalize w.complete d.d st frame result = t at h
  rw [h]
  exact ⟨rfl, fun _ => rfl⟩

theorem State.modeCommitted_frame (s : State) (e : Nat) : ServeFrame s (s.modeCommitted e) := by
  unfold State.modeCommitted
  split
  · exact .refl s
  · split
    · extract_lets u t
      have hu : ServeFrame s u := .disarm s e
      split
      · exact hu.trans (State.modeEnd_frame ..)
      · exact hu.trans ⟨rfl, fun _ => rfl⟩
    · exact .refl s

end Sys2Proof.Machine
end
section
/-! SUPPORT. Samples of the station and of the octads: their start, their deadline, the selection that follows (R215 to R217, R241 to R244). -/

namespace Sys2Proof.Machine

theorem Committed.of_rest {x y z : Engine} {tick : Nat} (h : Committed x y tick) (k : z.rest = y.rest) : Committed x z tick :=
  ⟨(congrArg Engine.committed k :).trans h.committed, (congrArg Engine.running k :).trans h.running,
      (congrArg Engine.commitTick k :).trans h.commitTick,
    (congrArg Engine.ovrRun k :).trans h.ovrRun, (congrArg Engine.older k :).trans h.older, (congrArg Engine.graph k :).trans h.graph,
    (congrArg Engine.loading k :).trans h.loading⟩

section
variable {s : State} {e tick : Nat} {reads : List BlockReads} {g : Graph}

theorem State.engineDeadline_eq (hg : (s.eng e).graph = some g) (hr : (s.eng e).running = true) :
    s.engineDeadline e reads tick = if s.sampleDone e ((g.sched reads).last + 40) tick then (s.commitSample e g tick).captureSample e g false
      else s.lateSample e g (g.sched reads) tick := by
  unfold State.engineDeadline
  dsimp only
  rw [hg]
  dsimp only
  rw [hr]
  rfl

/-- A sample that is done at its deadline. -/
theorem State.engineDeadline_done (hg : (s.eng e).graph = some g) (hr : (s.eng e).running = true)
    (hd : s.sampleDone e ((g.sched reads).last + 40) tick = true) :
    EndFrame s (s.engineDeadline e reads tick) ∧ (s.engineDeadline e reads tick).octs = s.octs
      ∧ Committed (s.eng e) ((s.engineDeadline e reads tick).eng e) tick := by
  rw [State.engineDeadline_eq hg hr, if_pos hd]
  obtain ⟨hc, y, hn⟩ := s.commitSample_spec e g tick
  generalize s.commitSample e g tick = u at hc hn
  obtain ⟨k1, k2, -, k4⟩ := u.captureSample_spec e g false
  have hset : EndFrame s (s.setEng e y) := ⟨rfl, rfl, rfl, fun _ => rfl⟩
  exact ⟨(hset.trans hn.ended).trans k1, k2.trans hn.octs, hc.of_rest (k4 e)⟩

/-- A sample that is not. -/
theorem State.engineDeadline_late (hg : (s.eng e).graph = some g) (hr : (s.eng e).running = true)
    (hd : s.sampleDone e ((g.sched reads).last + 40) tick = false) :
    EndFrame s (s.engineDeadline e reads tick) ∧ ((s.engineDeadline e reads tick).eng e).rest = (s.eng e).overran.rest := by
  rw [State.engineDeadline_eq hg hr, if_neg (by rw [hd]; decide)]
  exact s.lateSample_spec ..

end

/-! ### The station -/

theorem State.stationEnd_frame (s : State) (reads : List BlockReads) :
    ServeFrame (s.engineDeadline 8 reads s.fr.stationDl) (s.stationEnd reads) := by
  unfold State.stationEnd
  dsimp only
  split
  · exact State.modeCommitted_frame ..
  · exact .refl _

theorem stationEnds (reads : List BlockReads) (other : BitVec 16) (g : Graph) (s : State) (ha : s.alive = true) (hr : (s.eng 8).running = true)
    (hg : (s.eng 8).graph = some g) (hd : s.fr.stationDl ≤ s.now) :
    ∃ t, exec (.stationDeadline reads other) s = .next t ∧ (t.eng 8).running = false
      ∧ t.sys.corrected.get 72 = (s.sys.corrected.get 72).add 32 ((reads.map (·.reads.toNat)).sum + other.toNat)
      ∧ (s.sampleDone 8 ((g.sched reads).last + 40) s.fr.stationDl = true →
          (t.eng 8).committed = true ∧ (t.eng 8).ovrRun = 0 ∧ (t.eng 8).commitTick = s.fr.stationDl)
      ∧ (s.sampleDone 8 ((g.sched reads).last + 40) s.fr.stationDl = false →
          (t.eng 8).out = (s.eng 8).out ∧ (t.eng 8).state = (s.eng 8).state ∧ (t.eng 8).committed = (s.eng 8).committed
          ∧ (t.eng 8).ovrRun = if 2 ≤ (s.eng 8).ovrRun then 0 else (s.eng 8).ovrRun + 1) := by
  generalize hu : s.countReads 8 reads other = u
  have hexec : exec (.stationDeadline reads other) s = .next (u.stationEnd reads) := by
    have h1 : (u.eng 8).running = true := by rw [← hu]; exact hr
    have h2 : u.fr.stationDl ≤ u.now := by rw [← hu]; exact hd
    simp only [exec, execStationDeadline, ha, Bool.not_true, Bool.false_eq_true, if_false, hu, h1, if_true, State.whenDue, h2]
  have hcorr : u.sys.corrected.get 72 = (s.sys.corrected.get 72).add 32 ((reads.map (·.reads.toNat)).sum + other.toNat) := by
    rw [← hu]
    exact Tab.get_upd_same ..
  have he : u.eng 8 = s.eng 8 := by rw [← hu]; rfl
  have hdl : u.fr.stationDl = s.fr.stationDl := by rw [← hu]; rfl
  have hdone : ∀ c, u.sampleDone 8 c s.fr.stationDl = s.sampleDone 8 c s.fr.stationDl := fun c => by rw [← hu]; rfl
  have hs := u.stationEnd_frame reads
  rw [hdl] at hs
  rw [hexec]
  generalize u.stationEnd reads = t at hs
  have hrest := hs.eng 8
  rcases hc : s.sampleDone 8 ((g.sched reads).last + 40) s.fr.stationDl with _ | _
  · obtain ⟨h1, h2⟩ := State.engineDeadline_late (by rw [he]; exact hg) (by rw [he]; exact hr) ((hdone _).trans hc)
    have h3 := hrest.trans h2
    rw [he] at h3
    refine ⟨t, rfl, (congrArg Engine.running h3 :), ?_, fun h => absurd h (by decide), fun _ => ⟨(congrArg Engine.out h3 :),
      (congrArg Engine.state h3 :), (congrArg Engine.committed h3 :), (congrArg Engine.ovrRun h3 :)⟩⟩
    rw [hs.ended.corrected, h1.corrected, hcorr]
  · obtain ⟨h1, -, h2⟩ := State.engineDeadline_done (by rw [he]; exact hg) (by rw [he]; exact hr) ((hdone _).trans hc)
    have h3 := h2.of_rest hrest
    refine ⟨t, rfl, h3.running, ?_, fun _ => ⟨h3.committed, h3.ovrRun, h3.commitTick⟩, fun h => absurd h (by decide)⟩
    rw [hs.ended.corrected, h1.corrected, hcorr]

theorem stationIdle (reads : List BlockReads) (other : BitVec 16) (s : State) (ha : s.alive = true) (hr : (s.eng 8).running = false) :
    exec (.stationDeadline reads other) s = .next { s with sys := { s.sys with
      corrected := s.sys.corrected.upd 72 fun c => c.add 32 ((reads.map (·.reads.toNat)).sum + other.toNat) } } := by
  have h1 : ((s.countReads 8 reads other).eng 8).running = false := hr
  simp only [exec, execStationDeadline, ha, Bool.not_true, Bool.false_eq_true, if_false, h1]
  rfl

/-! ### The start of a sample -/

/-- A step that leaves the record of the frames alone, under what a sample start does. -/
structure SameFrames (s t : State) : Prop where
  fr : t.fr = s.fr

theorem SameFrames.setReg {s t : State} (h : SameFrames s t) (a : Nat) (w : Word) : SameFrames s (t.setReg a w) := ⟨h.fr⟩

theorem SameFrames.setRegs {s t : State} (h : SameFrames s t) (a : Nat → Nat) (w : Word) (k : Nat) :
    SameFrames s (forNat k (fun i u => u.setReg (a i) w) t) := forNat_induct (fun _ _ hu => hu.setReg ..) k h

theorem SameFrames.setProfiles {s t : State} (h : SameFrames s t) (p : Tab Profile) (q : Tab (List SetPoint)) :
    SameFrames s { t with profs := p, setQ := q } := ⟨h.fr⟩

theorem State.forNat_fr {f : Nat → State → State} (h : ∀ i s, (f i s).fr = s.fr) (n : Nat) (s : State) : (forNat n f s).fr = s.fr :=
  forNat_induct (P := fun x => x.fr = s.fr) (fun i x hx => (h i x).trans hx) n rfl

theorem State.installGraph_fr (s : State) (e : Nat) (g : Graph) : (s.installGraph e g).fr = s.fr := by
  refine SameFrames.fr (s := s) ?_
  unfold State.installGraph
  dsimp only
  have hu (f : Engine → Engine) : SameFrames s (s.updEng e f) := ⟨rfl⟩
  have hw (f : Engine → Engine) :=
    (((hu f).setRegs (fun i => engBase e + 0x100 + 4 * i) 0 32).setReg (engBase e + 0x38) 0).setReg (engBase e + 0x3C) 0
  split
  · exact SameFrames.setProfiles (hw _) ..
  · exact hw _

theorem State.sampleSettings_fr (s : State) (e : Nat) (k : Word) : (s.sampleSettings e k).fr = s.fr := by
  unfold State.sampleSettings
  extract_lets u v w
  have hu : u.fr = s.fr := by
    simp only [u]
    split
    · exact State.installGraph_fr ..
    · rfl
  have hv : v.fr = u.fr := by
    simp only [v]
    split
    · rfl
    · rfl
  have hw : w.fr = s.fr := hv.trans hu
  split
  · split
    · exact hw
    · exact hw
  · exact hw

theorem State.injSample_fr (s : State) (e : Nat) (k : Word) : (s.injSample e k).fr = s.fr := by
  unfold State.injSample
  extract_lets u
  have hu : u.fr = s.fr := State.forNat_fr (fun g x => by
    dsimp only
    split
    · exact (State.raise_frame _ _ _ _).fr_eq
    · rfl) 4 s
  clear_value u
  exact hu

theorem State.latchMbox_fr (s : State) (e c : Nat) (f : Word × Nat) (tick : Nat) (x : GChan) : (s.latchMbox e c f tick x).fr = s.fr := by
  unfold State.latchMbox
  extract_lets u m stale twice v lvl w
  have hu : u.fr = s.fr := by
    simp only [u]
    split
    · rfl
    · split
      · exact (RaiseFrame.raiseInfo _ _ _).fr_eq
      · rfl
  have hw : w.fr = s.fr := by
    simp only [w]
    split
    · exact (State.raise_frame ..).fr_eq.trans hu
    · exact hu
  split
  · exact (State.raise_frame ..).fr_eq.trans hw
  · exact hw

theorem State.startSample_fr (s : State) (e : Nat) (f : Word × Nat) (tick : Nat) : (s.startSample e f tick).fr = s.fr := by
  unfold State.startSample
  split
  · rfl
  · extract_lets u v
    have hv : v.fr = s.fr := (State.injSample_fr ..).trans (State.sampleSettings_fr ..)
    split
    · exact hv
    · extract_lets w
      have hw : w.fr = v.fr := State.forNat_fr (fun c x => by
        split
        · split
          · exact State.latchMbox_fr ..
          · rfl
        · rfl) 64 v
      clear_value w
      exact hw.trans hv

theorem stationStarts (k : Word) (e : Nat) (s : State) (ha : s.alive = true) (hd : s.fr.stationDue = some (k, e)) (hn : e ≤ s.now)
    (hr : (s.eng 8).running = false) (hl : (s.eng 8).loaded.isSome = true) :
    ∃ t, exec .stationSampleStart s = .next t ∧ (t.eng 8).running = true ∧ (t.eng 8).sampleTick = e
      ∧ (t.eng 8).sampleFrame = k ∧ t.fr = { s.fr with stationDue := none, stationDl := e + s.fr.tsdl - s.fr.tss } := by
  have hb : s.stationBefore e = s := by
    unfold State.stationBefore
    rw [hr]
    rfl
  have hexec : exec .stationSampleStart s = .next
      (({ s with fr := { s.fr with stationDue := none, stationDl := e + s.fr.tsdl - s.fr.tss } } : State).startSample 8 (k, e - s.fr.tss) e) := by
    simp only [exec, execStationSampleStart, hd, ha, Bool.not_true, Bool.false_eq_true, if_false, State.whenDue, hn, if_true, hb]
  have hfr := State.startSample_fr ({ s with fr := { s.fr with stationDue := none, stationDl := e + s.fr.tsdl - s.fr.tss } } : State)
    8 (k, e - s.fr.tss) e
  obtain ⟨-, -, h⟩ := State.startSample_spec ({ s with fr := { s.fr with stationDue := none, stationDl := e + s.fr.tsdl - s.fr.tss } } : State)
    8 (k, e - s.fr.tss) e
  obtain ⟨h2, h3, h4⟩ := h hl
  exact ⟨_, hexec, h2, h4, h3, hfr⟩

end Sys2Proof.Machine
end
section
/-! SUPPORT. The deadline of an octad's sample and the selection that starts with it (R215 to R217, R75, Table 2-1). -/

namespace Sys2Proof.Machine

/-! ### Flags -/

theorem State.fld_flag_same {s : State} (h : regsCanonical s.regs) (a i : Nat) (hi : i < 32) : (s.flag a i).fld a i 1 = 1 := by
  have hr : (s.flag a i).reg a = s.reg a ||| BitVec.twoPow 32 i := by
    rw [← putField_one]
    exact State.reg_setReg_same (s := s) h a _
  rw [State.fld, hr]
  exact (fieldOf_bit _ i).trans (by simp [bit, hi])

/-- A flag that is set stays set when another of its word is. -/
theorem State.fld_flag_of {s : State} (h : regsCanonical s.regs) {a i j : Nat} (hj : s.fld a j 1 = 1) : (s.flag a i).fld a j 1 = 1 := by
  have hr : (s.flag a i).reg a = s.reg a ||| BitVec.twoPow 32 i := by
    rw [← putField_one]
    exact State.reg_setReg_same (s := s) h a _
  have hb : (s.reg a).getLsbD j = true := by
    have := (fieldOf_bit (s.reg a) j).symm.trans hj
    cases hx : (s.reg a).getLsbD j
    · rw [hx] at this
      exact absurd this (by decide)
    · rfl
  rw [State.fld, hr]
  exact (fieldOf_bit _ j).trans (by simp [bit, hb])

/-! ### The selection -/

/-- The state in which a selection has taken its flags and its request. -/
def State.selectionTaken (s : State) (n : Nat) (f : Word × Nat) : State :=
  (s.mapOctCells n Cell.takeFlags).updOct n fun o => { o with
    x := (s.eng n).outBF o.refCh, selRunning := true, selReset := false, selSlow := false, tcDone := false, selAt := s.now, selFrame := f.1 }

/-- A plan is made from the cells and the octad, of which its own plan is no part. -/
theorem State.selectPlan_congr {s t : State} {n ep : Nat} (hc : t.cells = s.cells) {p : SelPlan} (ho : t.oct n = { s.oct n with plan := p }) :
    t.selectPlan n ep = s.selectPlan n ep := by
  have hcell : ∀ c, t.cell c = s.cell c := fun c => by rw [State.cell, hc, State.cell]
  have hcells : t.octCells n = s.octCells n := by rw [State.octCells, hc, State.octCells]
  have hlists : t.selLists n = s.selLists n := by
    unfold State.selLists
    simp only [hcell, hcells, ho]
  unfold State.selectPlan
  simp only [hcell, hcells, hlists, ho]
  rfl

theorem EndFrame.updOct (u : State) (n : Nat) {g : Octad → Octad} (hg : ∀ o, (g o).toCommit = o.toCommit) : EndFrame u (u.updOct n g) := by
  refine ⟨rfl, rfl, rfl, fun m => ?_⟩
  by_cases h : m = n
  · subst h
    rw [State.oct_updOct_same, hg]
  · exact congrArg Octad.toCommit (Tab.get_upd_ne u.octs h g)

/-- What the start of a selection leaves alone. -/
theorem State.selectionStart_frame (s : State) (n : Nat) (f : Word × Nat) :
    EndFrame s (s.selectionStart n f) ∧ (s.selectionStart n f).engs = s.engs := by
  unfold State.selectionStart
  extract_lets o u p v w
  have hm : EndFrame s (s.mapOctCells n Cell.takeFlags) := ⟨rfl, rfl, rfl, fun _ => rfl⟩
  have hu : EndFrame s u := hm.trans (.updOct _ n fun _ => rfl)
  have hv : EndFrame u v := .updOct _ n fun _ => rfl
  have hw : NotesFrame v w := .ite (.flag ..) (.refl _)
  have hend : NotesFrame w (if p.neg then w.flag (octBase n + 0x2010) 4 else w) := .ite (.flag ..) (.refl _)
  split
  · exact ⟨((hu.trans hv).trans hw.ended).trans hend.ended, hend.engs.trans hw.engs⟩
  · exact ⟨.refl s, rfl⟩

/-- A selection that may start starts, with all that it decides fixed there. -/
theorem State.selectionStart_spec (s : State) (n : Nat) (f : Word × Nat) (ha : (s.oct n).state = .charging ∨ (s.oct n).state = .running)
    (hi : (s.oct n).selIn = 0) (hr : (s.oct n).selRunning = false ∨ (s.oct n).selReset = true) :
    ∃ t, t = s.selectionStart n f ∧ (t.oct n).selRunning = true ∧ (t.oct n).selReset = false ∧ (t.oct n).selAt = s.now ∧ (t.oct n).selFrame = f.1
      ∧ (t.oct n).x = (t.eng n).outBF (s.oct n).refCh ∧ (t.oct n).plan = t.selectPlan n f.2
      ∧ (regsCanonical s.regs → ((t.oct n).plan.sat = true → t.fld (octBase n + 0x2010) 3 1 = 1)
          ∧ ((t.oct n).plan.neg = true → t.fld (octBase n + 0x2010) 4 1 = 1)) := by
  have hguard : ((s.oct n).state.active && (s.oct n).selIn == 0 && !((s.oct n).selRunning && !(s.oct n).selReset)) = true := by
    have h1 : (s.oct n).state.active = true := by rcases ha with h | h <;> rw [h] <;> rfl
    have h2 : ((s.oct n).selRunning && !(s.oct n).selReset) = false := by rcases hr with h | h <;> simp [h]
    rw [h1, h2, hi]
    rfl
  have heq : s.selectionStart n f = (fun p => (fun w : State => if p.neg then w.flag (octBase n + 0x2010) 4 else w)
      (if p.sat then ((s.selectionTaken n f).updOct n fun o => { o with plan := p }).flag (octBase n + 0x2010) 3
        else (s.selectionTaken n f).updOct n fun o => { o with plan := p })) ((s.selectionTaken n f).selectPlan n f.2) := if_pos hguard
  refine ⟨_, rfl, ?_⟩
  rw [heq]
  dsimp only
  generalize hp : (s.selectionTaken n f).selectPlan n f.2 = p
  generalize hv : ((s.selectionTaken n f).updOct n fun o => { o with plan := p }) = v
  have hv : v.oct n = { (s.selectionTaken n f).oct n with plan := p } ∧ v.cells = (s.selectionTaken n f).cells ∧ v.engs = s.engs
      ∧ v.regs = s.regs := by
    subst hv
    exact ⟨State.oct_updOct_same .., rfl, rfl, rfl⟩
  have htaken : (s.selectionTaken n f).oct n = { s.oct n with
      x := (s.eng n).outBF (s.oct n).refCh, selRunning := true, selReset := false, selSlow := false, tcDone := false, selAt := s.now,
      selFrame := f.1 } := State.oct_updOct_same ..
  generalize hw : (if p.sat then v.flag (octBase n + 0x2010) 3 else v) = w
  have hwf : NotesFrame v w := by
    subst hw
    exact .ite (.flag ..) (.refl _)
  generalize ht : (if p.neg then w.flag (octBase n + 0x2010) 4 else w) = t
  have htf : NotesFrame v t := by
    subst ht
    exact hwf.trans (.ite (.flag ..) (.refl _))
  obtain ⟨h1, h2, h3, h4⟩ := hv
  have hto : t.oct n = { (s.selectionTaken n f).oct n with plan := p } := by
    rw [State.oct, htf.octs]
    exact h1
  have hte : t.eng n = s.eng n := by rw [State.eng, htf.engs, h3, State.eng]
  have hplan : t.selectPlan n f.2 = p := by
    rw [State.selectPlan_congr (s := s.selectionTaken n f) (htf.cells.trans h2) hto, hp]
  refine ⟨by rw [hto, htaken], by rw [hto, htaken], by rw [hto, htaken], by rw [hto, htaken], by rw [hto, htaken, hte], by rw [hplan, hto],
    fun hc => ⟨fun hsat => ?_, fun hneg => ?_⟩⟩
  · have hsat : p.sat = true := by rw [hto] at hsat; exact hsat
    rw [if_pos hsat] at hw
    have hwsat : w.fld (octBase n + 0x2010) 3 1 = 1 := by
      subst hw
      exact State.fld_flag_same (h4 ▸ hc) _ _ (by decide)
    have hwc : regsCanonical w.regs := by
      subst hw
      exact regsCanonical_putReg (h4 ▸ hc) _ _
    subst ht
    split
    · exact State.fld_flag_of hwc hwsat
    · exact hwsat
  · have hneg : p.neg = true := by rw [hto] at hneg; exact hneg
    have hwc : regsCanonical w.regs := by
      subst hw
      split
      · exact regsCanonical_putReg (h4 ▸ hc) _ _
      · exact h4 ▸ hc
    rw [if_pos hneg] at ht
    subst ht
    exact State.fld_flag_same hwc _ _ (by decide)

/-! ### What stands between the commit and the selection -/

theorem State.rundownEnd_frame (s : State) (n : Nat) (b : BF) :
    RaiseFrame s (s.rundownEnd n b) ∧ ((s.oct n).state ≠ .rundown → s.rundownEnd n b = s) := by
  unfold State.rundownEnd
  dsimp only
  split
  · rename_i h
    exact ⟨.toBlocked s n, fun hn => absurd h.1 hn⟩
  · exact ⟨.refl s, fun _ => rfl⟩

/-- What the selection reads of an octad, and its samples to come. -/
structure SelSame (o p : Octad) : Prop where
  state : p.state = o.state
  selIn : p.selIn = o.selIn
  selRunning : p.selRunning = o.selRunning
  selReset : p.selReset = o.selReset
  refCh : p.refCh = o.refCh

theorem State.cycleLatch_frame (s : State) (n : Nat) :
    EndFrame s (s.cycleLatch n) ∧ (s.cycleLatch n).engs = s.engs ∧ (s.cycleLatch n).now = s.now ∧ SelSame (s.oct n) ((s.cycleLatch n).oct n) := by
  unfold State.cycleLatch
  extract_lets o neg a u
  have hu : EndFrame s u ∧ u.engs = s.engs ∧ SelSame (s.oct n) (u.oct n) := by
    dsimp only [u]
    split
    · generalize hv : State.setReg _ (a + 0x2020) _ = v
      have hv : EndFrame s v ∧ v.engs = s.engs ∧ v.oct n = s.oct n := by
        subst hv
        exact ⟨⟨rfl, rfl, rfl, fun _ => rfl⟩, rfl, rfl⟩
      obtain ⟨h1, h2, h3⟩ := hv
      refine ⟨h1.trans (.updOct v n fun _ => rfl), h2, ?_⟩
      rw [State.oct_updOct_same, h3]
      exact ⟨rfl, rfl, rfl, rfl, rfl⟩
    · exact ⟨.refl s, rfl, ⟨rfl, rfl, rfl, rfl, rfl⟩⟩
  obtain ⟨h1, h2, h3⟩ := hu
  have hend : EndFrame u (u.updOct n fun o => { o with cycNeg := neg }) := .updOct u n fun _ => rfl
  refine ⟨h1.trans hend, h2, h1.now, ?_⟩
  rw [State.oct_updOct_same]
  exact ⟨h3.state, h3.selIn, h3.selRunning, h3.selReset, h3.refCh⟩

/-! ### The deadline -/

/-- The oldest sample comes to its deadline. -/
def State.sampleOldest (s : State) (n : Nat) : State :=
  (s.updOct n fun o => { o with toCommit := o.toCommit.tail }).updEng n Engine.oldestFirst

/-- What follows the engine's deadline before the latest sample goes on: u is the state after it. -/
def State.sampleAnswered (u : State) (n : Nat) (rd : BF) (tick : Nat) : State :=
  if (u.eng n).committed && (u.eng n).commitTick == tick then (u.modeCommitted n).rundownEnd n rd else u

theorem State.sampleAnswered_frame (u : State) (n : Nat) (rd : BF) (tick : Nat) :
    EndFrame u (u.sampleAnswered n rd tick) ∧ ((u.sampleAnswered n rd tick).eng n).rest = (u.eng n).rest
      ∧ ((u.oct n).state ≠ .rundown → (u.sampleAnswered n rd tick).octs = u.octs) := by
  unfold State.sampleAnswered
  split
  · have h := u.modeCommitted_frame n
    generalize u.modeCommitted n = v at h
    obtain ⟨h1, h2⟩ := v.rundownEnd_frame n rd
    refine ⟨h.ended.trans (.of_raise h1), (h1.engRest n).trans (h.eng n), fun hs => ?_⟩
    rw [h2 (by rw [State.oct, h.octs]; exact hs), h.octs]
  · exact ⟨.refl u, rfl, fun _ => rfl⟩

section
variable {s : State} {n : Fin 8} {reads : List BlockReads} {k : Word} {e : Nat} {rest : List (Word × Nat)}

theorem State.octadDeadline_eq (hs : (s.oct n).state ≠ .unconfigured) (hc : (s.oct n).toCommit = (k, e) :: rest)
    (hd : frameAt e (s.oct n).tl.ted ≤ s.now) (hr : (s.eng n).running = true) :
    ∃ rd, s.octadDeadline n reads
      = (((((s.sampleOldest n).engineDeadline n reads (frameAt e (s.oct n).tl.ted)).sampleAnswered n rd
          (frameAt e (s.oct n).tl.ted)).cycleLatch n).updEng n
          Engine.latestAgain).selectionStart n (k, e) := by
  have hrun : ((s.sampleOldest n).eng n).running = true := by
    rw [State.sampleOldest, State.eng_updEng_same]
    show ((s.eng n).oldestFirst).running = true
    unfold Engine.oldestFirst
    split
    · exact hr
    · exact hr
  have hu : ((s.oct n).state == .unconfigured) = false := by simpa using hs
  refine ⟨((s.sampleOldest n).eng n).outBF ((s.sampleOldest n).ofld n 4 0 6), ?_⟩
  unfold State.octadDeadline
  simp only [hu, hc, State.whenDue, hd, if_true, Bool.false_eq_true, if_false]
  have hdef : (s.updOct n fun o => { o with toCommit := o.toCommit.tail }).updEng n Engine.oldestFirst = s.sampleOldest n := rfl
  simp only [hdef, hrun, Bool.true_and]
  rfl

end

end Sys2Proof.Machine
end
section
/-! SUPPORT. The deadline of an octad's sample, put together (R215 to R217, R241 to R244). -/

namespace Sys2Proof.Machine

section
variable {s : State} {n : Fin 8} {reads : List BlockReads} {k : Word} {e : Nat} {rest : List (Word × Nat)}

/-- The oldest sample at its deadline: s is the state in which the reads are counted, u the one after the engine's deadline. -/
theorem State.octadDeadline_spec (hs : (s.oct n).state ≠ .unconfigured) (hc : (s.oct n).toCommit = (k, e) :: rest)
    (hd : frameAt e (s.oct n).tl.ted ≤ s.now) (hr : (s.eng n).running = true) {u : State}
    (hu : u = (s.sampleOldest n).engineDeadline n reads (frameAt e (s.oct n).tl.ted)) (hf : EndFrame (s.sampleOldest n) u) :
    ∃ (t : State) (y : Engine), t = s.octadDeadline n reads ∧ (t.oct n).toCommit = rest ∧ t.sys.corrected = s.sys.corrected
      ∧ t.eng n = y.latestAgain ∧ y.rest = (u.eng n).rest
      ∧ (u.octs = (s.sampleOldest n).octs → (s.oct n).state = .charging ∨ (s.oct n).state = .running → (s.oct n).selIn = 0 →
          ((s.oct n).selRunning = false ∨ (s.oct n).selReset = true) →
          (t.oct n).selRunning = true ∧ (t.oct n).selReset = false ∧ (t.oct n).selAt = s.now ∧ (t.oct n).selFrame = k
          ∧ (t.oct n).x = (t.eng n).outBF (s.oct n).refCh ∧ (t.oct n).plan = t.selectPlan n e
          ∧ (regsCanonical s.regs → ((t.oct n).plan.sat = true → t.fld (octBase n + 0x2010) 3 1 = 1)
              ∧ ((t.oct n).plan.neg = true → t.fld (octBase n + 0x2010) 4 1 = 1))) := by
  obtain ⟨rd, heq⟩ := State.octadDeadline_eq (reads := reads) hs hc hd hr
  have hcan : regsCanonical s.regs → regsCanonical ((((u.sampleAnswered n rd (frameAt e (s.oct n).tl.ted)).cycleLatch n).updEng n
      Engine.latestAgain).regs) := by
    have h1 : Kept true true s (s.sampleOldest n) := Kept.rfl.updOct.updEng
    have h2 : Kept true true s u := hu ▸ h1.engineDeadline
    have h3 : Kept true true s (u.sampleAnswered n rd (frameAt e (s.oct n).tl.ted)) := Kept.ite h2.modeCommitted.rundownEnd h2
    exact h3.cycleLatch.updEng.regs
  rw [← hu] at heq
  rw [heq]
  have hold : (s.sampleOldest n).oct n = { s.oct n with toCommit := rest } := by
    rw [State.sampleOldest]
    show (s.updOct n fun o => { o with toCommit := o.toCommit.tail }).oct n = _
    rw [State.oct_updOct_same, hc]
    rfl
  obtain ⟨a1, a2, a3⟩ := u.sampleAnswered_frame n rd (frameAt e (s.oct n).tl.ted)
  generalize u.sampleAnswered n rd (frameAt e (s.oct n).tl.ted) = v at a1 a2 a3 hcan
  obtain ⟨c1, c2, c3, c4⟩ := v.cycleLatch_frame n
  generalize v.cycleLatch n = w at c1 c2 c3 c4 hcan
  have hw : EndFrame (s.sampleOldest n) (w.updEng n Engine.latestAgain) := ((hf.trans a1).trans c1).trans (.updEng ..)
  have hwe : (w.updEng n Engine.latestAgain).eng n = (w.eng n).latestAgain := State.eng_updEng_same ..
  have hwr : (w.eng n).rest = (u.eng n).rest := by rw [State.eng, c2]; exact a2
  have hwo : (w.updEng n Engine.latestAgain).oct n = w.oct n := rfl
  have hwn : (w.updEng n Engine.latestAgain).now = s.now := hw.now
  generalize w.updEng n Engine.latestAgain = x at hw hwe hwo hwn hcan
  obtain ⟨k1, k2⟩ := x.selectionStart_frame n (k, e)
  have hall := hw.trans k1
  refine ⟨_, w.eng n, rfl, ?_, hall.corrected, ?_, hwr, fun ho hst hin hrun => ?_⟩
  · rw [hall.toCommit, hold]
  · rw [State.eng, k2]
    exact hwe
  · have hne : (u.oct n).state ≠ .rundown := by
      rw [State.oct, ho]
      show ((s.sampleOldest n).oct n).state ≠ _
      rw [hold]
      rcases hst with h | h <;> rw [show ({ s.oct n with toCommit := rest } : Octad).state = _ from h] <;> decide
    have hvo : v.oct n = { s.oct n with toCommit := rest } := by
      rw [State.oct, a3 hne, ho]
      exact hold
    rw [hvo] at c4
    rw [← hwo] at c4
    obtain ⟨t, ht, h1, h2, h3, h4, h5, h6, h7⟩ := x.selectionStart_spec n (k, e) (by rw [c4.state]; exact hst) (c4.selIn.trans hin)
      (by rw [c4.selRunning, c4.selReset]; exact hrun)
    rw [← ht]
    exact ⟨h1, h2, h3.trans hwn, h4, by rw [h5, c4.refCh]; rfl, h6, fun hk => h7 (hcan hk)⟩

end

/-- The counting of reads and the samples' order leave a sample's time alone. -/
theorem State.sampleDone_counted (s : State) (n : Nat) (reads : List BlockReads) (other : BitVec 16) (c tick : Nat) :
    ((s.countReads n reads other).sampleOldest n).sampleDone n c tick = (s.updEng n Engine.oldestFirst).sampleDone n c tick := rfl

theorem State.sampleOldest_eng (s : State) (n : Nat) : (s.sampleOldest n).eng n = (s.eng n).oldestFirst := State.eng_updEng_same ..

theorem Engine.oldestFirst_kept (x : Engine) : x.oldestFirst.running = x.running ∧ x.oldestFirst.graph = x.graph := by
  unfold Engine.oldestFirst
  split
  · exact ⟨rfl, rfl⟩
  · exact ⟨rfl, rfl⟩

section
variable {s : State} {n : Fin 8} {reads : List BlockReads} {other : BitVec 16} {g : Graph} {k : Word} {e : Nat} {rest : List (Word × Nat)}

theorem State.exec_engineDeadline (ha : s.alive = true) :
    exec (.engineDeadline n reads other) s = .next ((s.countReads n reads other).octadDeadline n reads) := by
  simp only [exec, execEngineDeadline, ha, Bool.not_true, Bool.false_eq_true, if_false]

theorem State.countReads_corrected : (s.countReads n reads other).sys.corrected.get (64 + n.val)
    = (s.sys.corrected.get (64 + n.val)).add 32 ((reads.map (·.reads.toNat)).sum + other.toNat) := by
  have : (if n.val = 8 then 72 else 64 + n.val) = 64 + n.val := if_neg (by omega)
  unfold State.countReads State.countCorrected
  rw [this]
  exact Tab.get_upd_same ..

/-- The one sample under way at its deadline. -/
theorem octadEnds (reads : List BlockReads) (other : BitVec 16) (g : Graph) (k : Word) (e : Nat) (rest : List (Word × Nat)) (s : State)
    (ha : s.alive = true) (hs : (s.oct n).state ≠ .unconfigured) (hc : (s.oct n).toCommit = (k, e) :: rest)
    (hd : frameAt e (s.oct n).tl.ted ≤ s.now) (hg : (s.eng n).graph = some g) (hr : (s.eng n).running = true) (hold : (s.eng n).older = []) :
    ∃ t, exec (.engineDeadline n reads other) s = .next t ∧ (t.eng n).running = false ∧ (t.oct n).toCommit = rest
      ∧ t.sys.corrected.get (64 + n.val) = (s.sys.corrected.get (64 + n.val)).add 32 ((reads.map (·.reads.toNat)).sum + other.toNat)
      ∧ (s.sampleDone n ((g.sched reads).last + 40) (frameAt e (s.oct n).tl.ted) = true →
          (t.eng n).committed = true ∧ (t.eng n).ovrRun = 0 ∧ (t.eng n).commitTick = frameAt e (s.oct n).tl.ted
          ∧ ((s.oct n).state = .charging ∨ (s.oct n).state = .running → (s.oct n).selIn = 0 →
              ((s.oct n).selRunning = false ∨ (s.oct n).selReset = true) →
              (t.oct n).selRunning = true ∧ (t.oct n).selReset = false ∧ (t.oct n).selAt = s.now ∧ (t.oct n).selFrame = k
              ∧ (t.oct n).x = (t.eng n).outBF (s.oct n).refCh ∧ (t.oct n).plan = t.selectPlan n e
              ∧ (s.canonical → ((t.oct n).plan.sat = true → t.fld (octBase n + 0x2010) 3 1 = 1)
                  ∧ ((t.oct n).plan.neg = true → t.fld (octBase n + 0x2010) 4 1 = 1))))
      ∧ (s.sampleDone n ((g.sched reads).last + 40) (frameAt e (s.oct n).tl.ted) = false →
          (t.eng n).out = (s.eng n).out ∧ (t.eng n).state = (s.eng n).state ∧ (t.eng n).mode = (s.eng n).mode
          ∧ (t.eng n).committed = (s.eng n).committed
          ∧ (t.eng n).ovrRun = if 2 ≤ (s.eng n).ovrRun then 0 else (s.eng n).ovrRun + 1) := by
  have hdone := s.sampleDone_counted n reads other ((g.sched reads).last + 40) (frameAt e (s.oct n).tl.ted)
  have hfirst : (s.eng n).oldestFirst = s.eng n := by rw [Engine.oldestFirst, hold]
  have hsame : (s.updEng n Engine.oldestFirst).sampleDone n ((g.sched reads).last + 40) (frameAt e (s.oct n).tl.ted)
      = s.sampleDone n ((g.sched reads).last + 40) (frameAt e (s.oct n).tl.ted) := by
    unfold State.sampleDone
    rw [State.eng_updEng_same, hfirst]
    rfl
  rw [hsame] at hdone
  rw [State.exec_engineDeadline ha]
  have hcount := State.countReads_corrected (s := s) (n := n) (reads := reads) (other := other)
  have hse : (s.countReads n reads other).eng n = s.eng n := rfl
  have hso : (s.countReads n reads other).oct n = s.oct n := rfl
  have hsn : (s.countReads n reads other).now = s.now := rfl
  have hsr : (s.countReads n reads other).regs = s.regs := rfl
  generalize s.countReads n reads other = c at hdone hcount hse hso hsn hsr
  have hce : (c.sampleOldest n).eng n = s.eng n := by rw [State.sampleOldest_eng, hse, hfirst]
  rcases hcase : s.sampleDone n ((g.sched reads).last + 40) (frameAt e (s.oct n).tl.ted) with _ | _
  · obtain ⟨h1, h2⟩ := State.engineDeadline_late (s := c.sampleOldest n) (reads := reads) (by rw [hce]; exact hg) (by rw [hce]; exact hr)
      (hdone.trans hcase)
    rw [← hso] at hs hc hd h1 h2 ⊢
    rw [← hsn] at hd
    rw [← hse] at hr
    obtain ⟨t, y, ht, k1, k2, k3, k4, -⟩ := State.octadDeadline_spec hs hc hd hr rfl h1
    have hy := k4.trans h2
    rw [hce] at hy
    have hyo : y.older = [] := (congrArg Engine.older hy :).trans hold
    have hlast : y.latestAgain = y := by rw [Engine.latestAgain, hyo]; rfl
    rw [hlast] at k3
    refine ⟨t, congrArg Host.Outcome.next ht.symm, ?_, k1, ?_, fun h => absurd h (by decide), fun _ => ?_⟩
    · rw [k3]
      exact (congrArg Engine.running hy :)
    · rw [k2, hcount]
    · rw [k3]
      exact ⟨(congrArg Engine.out hy :), (congrArg Engine.state hy :), (congrArg Engine.mode hy :), (congrArg Engine.committed hy :),
        (congrArg Engine.ovrRun hy :)⟩
  · obtain ⟨h1, h2, h3⟩ := State.engineDeadline_done (s := c.sampleOldest n) (reads := reads) (by rw [hce]; exact hg) (by rw [hce]; exact hr)
      (hdone.trans hcase)
    rw [← hso] at hs hc hd h1 h2 h3 ⊢
    rw [← hsn] at hd ⊢
    rw [← hse] at hr
    obtain ⟨t, y, ht, k1, k2, k3, k4, k5⟩ := State.octadDeadline_spec hs hc hd hr rfl h1
    have hy := h3.of_rest k4
    rw [hce] at hy
    have hyo : y.older = [] := hy.older.trans hold
    have hlast : y.latestAgain = y := by rw [Engine.latestAgain, hyo]; rfl
    rw [hlast] at k3
    refine ⟨t, congrArg Host.Outcome.next ht.symm, ?_, k1, ?_, fun _ => ?_, fun h => absurd h (by decide)⟩
    · rw [k3]
      exact hy.running
    · rw [k2, hcount]
    · refine ⟨k3 ▸ hy.committed, k3 ▸ hy.ovrRun, k3 ▸ hy.commitTick, fun a1 a2 a3 => ?_⟩
      obtain ⟨b1, b2, b3, b4, b5, b6, b7⟩ := k5 h2 a1 a2 a3
      exact ⟨b1, b2, b3, b4, b5, b6, fun hk => b7 (hsr ▸ hk.1)⟩

/-- Of several samples under way the oldest comes to its deadline, and the latest goes on. -/
theorem octadEndsOldest (reads : List BlockReads) (other : BitVec 16) (g : Graph) (x : Sample) (older : List Sample) (k : Word) (e : Nat)
    (rest : List (Word × Nat)) (s : State) (ha : s.alive = true) (hs : (s.oct n).state ≠ .unconfigured) (hc : (s.oct n).toCommit = (k, e) :: rest)
    (hd : frameAt e (s.oct n).tl.ted ≤ s.now) (hg : (s.eng n).graph = some g) (hr : (s.eng n).running = true) (hold : (s.eng n).older = x :: older) :
    ∃ t, exec (.engineDeadline n reads other) s = .next t ∧ (t.eng n).running = true ∧ (t.eng n).older = older
      ∧ (t.eng n).sampleFrame = (s.eng n).sampleFrame ∧ (t.eng n).sampleTick = (s.eng n).sampleTick ∧ (t.oct n).toCommit = rest
      ∧ ((s.updEng n Engine.oldestFirst).sampleDone n ((g.sched reads).last + 40) (frameAt e (s.oct n).tl.ted) = true →
          (t.eng n).committed = true ∧ (t.eng n).commitTick = frameAt e (s.oct n).tl.ted) := by
  have hdone := s.sampleDone_counted n reads other ((g.sched reads).last + 40) (frameAt e (s.oct n).tl.ted)
  obtain ⟨f1, f2⟩ := (s.eng n).oldestFirst_kept
  have f3 := Engine.oldestFirst_older hold
  rw [State.exec_engineDeadline ha]
  have hse : (s.countReads n reads other).eng n = s.eng n := rfl
  have hso : (s.countReads n reads other).oct n = s.oct n := rfl
  have hsn : (s.countReads n reads other).now = s.now := rfl
  generalize s.countReads n reads other = c at hdone hse hso hsn
  have hce : (c.sampleOldest n).eng n = (s.eng n).oldestFirst := by rw [State.sampleOldest_eng, hse]
  have hlatest : ∀ y : Engine, y.older = older ++ [(s.eng n).sample] →
      y.latestAgain.running = true ∧ y.latestAgain.older = older ∧ y.latestAgain.sampleFrame = (s.eng n).sampleFrame
        ∧ y.latestAgain.sampleTick = (s.eng n).sampleTick ∧ y.latestAgain.committed = y.committed ∧ y.latestAgain.commitTick = y.commitTick :=
    fun y hy => by
      rw [Engine.latestAgain, hy, List.getLast?_concat]
      dsimp only
      rw [List.dropLast_concat]
      exact ⟨rfl, rfl, rfl, rfl, rfl, rfl⟩
  rcases hcase : (s.updEng n Engine.oldestFirst).sampleDone n ((g.sched reads).last + 40) (frameAt e (s.oct n).tl.ted) with _ | _
  · obtain ⟨h1, h2⟩ := State.engineDeadline_late (s := c.sampleOldest n) (reads := reads) (by rw [hce, f2]; exact hg) (by rw [hce, f1]; exact hr)
      (hdone.trans hcase)
    rw [← hso] at hs hc hd h1 h2 ⊢
    rw [← hsn] at hd
    rw [← hse] at hr
    obtain ⟨t, y, ht, k1, -, k3, k4, -⟩ := State.octadDeadline_spec hs hc hd hr rfl h1
    have hy := k4.trans h2
    rw [hce] at hy
    obtain ⟨l1, l2, l3, l4, -, -⟩ := hlatest y ((congrArg Engine.older hy :).trans f3)
    rw [← k3] at l1 l2 l3 l4
    exact ⟨t, congrArg Host.Outcome.next ht.symm, l1, l2, l3, l4, k1, fun h => absurd h (by decide)⟩
  · obtain ⟨h1, h2, h3⟩ := State.engineDeadline_done (s := c.sampleOldest n) (reads := reads) (by rw [hce, f2]; exact hg) (by rw [hce, f1]; exact hr)
      (hdone.trans hcase)
    rw [← hso] at hs hc hd h1 h2 h3 ⊢
    rw [← hsn] at hd
    rw [← hse] at hr
    obtain ⟨t, y, ht, k1, -, k3, k4, -⟩ := State.octadDeadline_spec hs hc hd hr rfl h1
    have hy := h3.of_rest k4
    rw [hce] at hy
    obtain ⟨l1, l2, l3, l4, l5, l6⟩ := hlatest y (hy.older.trans f3)
    rw [← k3] at l1 l2 l3 l4 l5 l6
    exact ⟨t, congrArg Host.Outcome.next ht.symm, l1, l2, l3, l4, k1, fun _ => ⟨l5.trans hy.committed, l6.trans hy.commitTick⟩⟩

end

/-- Settles O33: the start of the station's sample, and the deadlines, each by the engine's own. -/
theorem samplesStartCommitOrOverrun : Obligations.SamplesStartCommitOrOverrun := by
  unfold Obligations.SamplesStartCommitOrOverrun
  exact ⟨stationStarts, stationEnds, stationIdle, fun n => octadEnds, fun n => octadEndsOldest⟩

end Sys2Proof.Machine
end
section
/-! SUPPORT. What every part of a raise keeps, the raise keeps: one induction over the chain of reactions for any such relation. -/

namespace Sys2Proof.Machine

/-- A relation that the parts of a raise and of its reaction keep. -/
structure RaiseSteps (R : State → State → Prop) : Prop where
  refl : ∀ s, R s s
  trans : ∀ {s t u}, R s t → R t u → R s u
  books : ∀ s t : State, t = { s with regs := t.regs, flt := t.flt, kp := t.kp, ps := t.ps, sys := t.sys } →
    (s.flt.faultN = true → t.flt.faultN = true) → R s t
  fence : ∀ (s : State) n, R s (s.fenceOctad n)
  outputs : ∀ (s : State) x, R s { s with dpws := x }
  lane : ∀ (s : State) l, R s (s.laneToRetired l)
  cell : ∀ (s : State) c, R s (s.updCell c fun x => { x with retired := true })
  ports : ∀ (s : State) x y, R s { s with sports := x, svs := y }

namespace RaiseSteps
variable {R : State → State → Prop} (h : RaiseSteps R)
include h

omit h in
theorem of_ite {c : Prop} [Decidable c] {s a b : State} (ha : R s a) (hb : R s b) : R s (if c then a else b) := by
  split
  · exact ha
  · exact hb

theorem foldl {α : Type} {f : State → α → State} (hf : ∀ s a, R s (f s a)) (l : List α) (s : State) : R s (l.foldl f s) := by
  induction l generalizing s with
  | nil => exact h.refl s
  | cons a l ih => exact h.trans (hf s a) (ih _)

theorem forNat {f : Nat → State → State} (hf : ∀ i s, R s (f i s)) (n : Nat) (s : State) : R s (Machine.forNat n f s) :=
  forNat_induct (P := fun t => R s t) (fun i _ ht => h.trans ht (hf i _)) n (h.refl s)

theorem forceSafe (s : State) (p : Nat → Bool) : R s (s.forceSafe p) :=
  h.forNat (fun _ u => of_ite (h.outputs u _) (h.refl u)) _ _

theorem count (s : State) (a n : Nat) : R s (s.count a n) := by
  obtain ⟨f, hf⟩ := State.count_acts a n
  rw [hf]
  exact h.books s _ rfl (fun hf => hf)

theorem enqueue (s : State) (r : Report) : R s (s.enqueue r) := by
  unfold State.enqueue
  exact of_ite (h.books s _ rfl (fun hf => hf))
    (h.trans (h.books s { s with flt := { s.flt with dropped := s.flt.dropped.upd r.level (· + 1) } } rfl (fun hf => hf)) (h.count ..))

theorem recordFault (s : State) (fn : Bool) (code : Nat) (cls : FClass) (r : Report) : R s (s.recordFault fn code cls r) := by
  have hmerge (u : State) : R u (u.mergeFallback code cls) := by
    unfold State.mergeFallback
    split
    · exact h.refl u
    · exact h.books u _ rfl (fun hf => hf)
  unfold State.recordFault
  extract_lets u
  have hu : R s u := of_ite (h.books s _ rfl fun _ => rfl) (h.refl s)
  exact of_ite (h.trans hu (h.enqueue u r)) (of_ite (h.trans hu (hmerge u)) (h.trans hu (h.books u _ rfl (fun hf => hf))))

theorem recordConsequential (s : State) (w : Window) (r : Report) : R s (s.recordConsequential w r) :=
  h.trans (h.enqueue s r) (h.books _ (s.recordConsequential w r) rfl (fun hf => hf))

theorem enterActive (s : State) (code src : Nat) (cls : FClass) (cb : Byte) (fn : Bool) (mask id : Nat) :
    R s (s.enterActive code src cls cb fn mask id).1 := by
  unfold State.enterActive
  dsimp only
  split
  · exact h.books s _ rfl (fun hf => hf)
  · split <;> exact h.books s _ rfl (fun hf => hf)

section
variable {again : Nat → Nat → List Byte → State → State} (ih : ∀ c u d s, R s (again c u d s))
include ih

theorem losePathVia (t code : Nat) (s : State) : R s (State.losePathVia again t code s) := by
  unfold State.losePathVia
  refine of_ite (h.refl s) (of_ite (ih ..) (of_ite ?_ (h.refl s)))
  exact h.foldl (fun u c => h.trans (h.cell u c) (ih ..)) _ _

theorem retireReaction (code src id : Nat) (s : State) : R s (s.retireReaction again code src id) := by
  unfold State.retireReaction
  split
  · refine of_ite (h.refl s) ?_
    have h1 : R s (((s.laneToRetired src).windowDone (.lane src)).openWindow (.lane src) id code src (some s.now)) :=
      h.trans (h.lane s src) (h.books (s.laneToRetired src)
        (((s.laneToRetired src).windowDone (.lane src)).openWindow (.lane src) id code src (some s.now)) rfl fun hf => hf)
    have h2 := h.trans h1 (of_ite (c := code = 0x1703) (h.refl _) (ih 0x1703 src [] _))
    exact of_ite h2 (h.trans h2 (h.losePathVia ih ..))
  · refine of_ite (of_ite (h.refl s) (of_ite ?_ (ih ..))) (of_ite (h.ports s _ s.svs) (of_ite (h.ports s s.sports _) (h.refl s)))
    exact of_ite (h.cell s src) (h.trans (h.cell s src) (ih ..))

omit ih in
theorem fenceReaction (s : State) (cls : FClass) (mask code src id : Nat) : R s (s.fenceReaction cls mask code src id) :=
  h.forNat (fun n u => of_ite (of_ite (h.fence u n)
    (h.trans (h.fence u n)
      (h.books (u.fenceOctad n) ((u.fenceOctad n).openWindow (.fence n) id code src (some u.now)) rfl (fun hf => hf)))) (h.refl u)) _ _

theorem react (cls : FClass) (mask code src id : Nat) (s : State) : R s (s.react again cls mask code src id) := by
  have h1 := h.retireReaction ih code src id s
  have h2 := h.trans h1 (h.trans (h.fenceReaction _ cls mask code src id)
    (h.books _ (((s.retireReaction again code src id).fenceReaction cls mask code src id).joinCauses mask) rfl (fun hf => hf)))
  have hlock (u : State) : R u (u.lockoutReaction code src id) := by
    unfold State.lockoutReaction
    extract_lets v
    exact h.trans (h.books u { v with
      sys := { v.sys with dev := .lockout, sbkReq := true }, flt := { v.flt with lockout := true }
      ps := { v.ps with commit := v.ps.commit.map fun c => { c with locked := !c.stored } } } rfl fun hf => hf) (h.forceSafe ..)
  exact of_ite (h.refl s) (of_ite h1 (of_ite h2 (h.trans h2 (hlock _))))

theorem tableFault (cls : FClass) (fn : Bool) (cb : Byte) (mask code src id : Nat) (s : State) :
    R s (s.tableFault again cls fn cb mask code src id) := by
  have he := h.enterActive s code src cls cb fn mask id
  exact of_ite (of_ite (h.trans he (ih ..)) he) (h.refl s)

end

theorem raiseN (fuel : Nat) : ∀ (code src : Nat) (data : List Byte) (p : Option Nat) (s : State), R s (Machine.raiseN fuel code src data p s) := by
  induction fuel with
  | zero => intro code src data p s; exact h.refl s
  | succ fuel ih =>
    intro code src data p s
    have hagain : ∀ c v d u, R u (Machine.raiseN fuel c v d none u) := fun c v d u => ih c v d none u
    have h0 : R s s.nextReport := h.books s _ rfl (fun hf => hf)
    unfold Machine.raiseN
    dsimp only
    generalize s.nextReport = u at h0 ⊢
    split
    · exact h.trans h0 (h.recordConsequential ..)
    · exact h.trans h0 (h.trans (h.recordFault ..) (h.trans (h.tableFault hagain ..) (h.react hagain ..)))

theorem raise (s : State) (code src : Nat) (data : List Byte) : R s (s.raise code src data) := h.raiseN 6 code src data none s

end RaiseSteps

/-! ### Without a mode request nothing of the engines changes -/

/-- Without a mode request none comes, and the engines stay. -/
structure ModeIdle (s t : State) : Prop where
  idle : s.modeReq = none → t.modeReq = none ∧ t.engs = s.engs

theorem ModeIdle.same {s t : State} (h1 : t.modeReq = s.modeReq) (h2 : t.engs = s.engs) : ModeIdle s t := ⟨fun h => ⟨h1.trans h, h2⟩⟩

theorem ModeIdle.trans {s t u : State} (h : ModeIdle s t) (k : ModeIdle t u) : ModeIdle s u :=
  ⟨fun hs => ⟨(k.idle (h.idle hs).1).1, (k.idle (h.idle hs).1).2.trans (h.idle hs).2⟩⟩

theorem ModeIdle.refl (s : State) : ModeIdle s s := .same rfl rfl

theorem ModeIdle.abortLanes (s : State) (n o : Nat) : ModeIdle s (s.abortLanes n o) :=
  forNat_induct (P := fun t => ModeIdle s t) (fun i t ht => by
    split
    · exact ht.trans (.same rfl rfl)
    · exact ht) 16 (.refl s)

theorem ModeIdle.updOct (s : State) (n : Nat) (f : Octad → Octad) : ModeIdle s (s.updOct n f) := .same rfl rfl

theorem ModeIdle.immediateBlock (s : State) (n : Nat) : ModeIdle s (s.immediateBlock n) := (ModeIdle.abortLanes s n 0).trans (.updOct _ n _)

theorem ModeIdle.discardWindow (s : State) (n : Nat) : ModeIdle s (s.discardWindow n) := by
  unfold State.discardWindow
  extract_lets u
  have hu : ModeIdle s u := by
    dsimp only [u]
    split
    · exact .same rfl rfl
    · exact .refl s
  exact hu.trans (.same rfl rfl)

theorem ModeIdle.haltSelection (s : State) (n : Nat) : ModeIdle s (s.haltSelection n) := by
  unfold State.haltSelection
  extract_lets u v w
  have hu : ModeIdle s u := .same rfl rfl
  have hv : ModeIdle u v := .discardWindow u n
  have hw : ModeIdle v w := .same rfl rfl
  have h := (hu.trans hv).trans hw
  clear_value w
  exact h.trans (.same rfl rfl)

theorem ModeIdle.modeLeave (s : State) (e : Nat) (r : Option Nat) : ModeIdle s (s.modeLeave e r) :=
  ⟨fun hs => by
    unfold State.modeLeave
    rw [hs]
    exact ⟨hs, rfl⟩⟩

theorem ModeIdle.forceSafe (s : State) (p : Nat → Bool) : ModeIdle s (s.forceSafe p) :=
  forNat_induct (P := fun t => ModeIdle s t) (fun i t ht => by
    split
    · exact ht.trans (.same rfl rfl)
    · exact ht) 24 (.refl s)

theorem ModeIdle.settleDev (s : State) : ModeIdle s s.settleDev := by
  unfold State.settleDev
  split
  · exact .same rfl rfl
  · exact .refl s

theorem ModeIdle.fenceOctad (s : State) (n : Nat) : ModeIdle s (s.fenceOctad n) := by
  unfold State.fenceOctad
  split
  · exact .refl s
  · extract_lets u v
    have hu : ModeIdle s u := (ModeIdle.immediateBlock s n).trans (.haltSelection _ n)
    clear_value u
    have hv : ModeIdle u v := (ModeIdle.updOct u n fun o => { o with state := .fenced }).trans (.modeLeave _ n none)
    clear_value v
    exact ((hu.trans hv).trans (.forceSafe ..)).trans (.settleDev _)

theorem ModeIdle.steps : RaiseSteps ModeIdle where
  refl := .refl
  trans := .trans
  books s t h _ := by
    rw [h]
    exact .same rfl rfl
  fence := .fenceOctad
  outputs s x := .same rfl rfl
  lane s l := by
    unfold State.laneToRetired State.abortEye
    split
    · exact .same rfl rfl
    · exact .same rfl rfl
  cell s c := .same rfl rfl
  ports s x y := .same rfl rfl

end Sys2Proof.Machine
end
section
/-! SUPPORT. Base frames, octad frames, the timeline and the origin (R39 to R46, R216, R325). -/

namespace Sys2Proof.Machine

/-- A step that leaves the record of the frames and the time alone. -/
structure FrTime (s t : State) : Prop where
  fr : t.fr = s.fr
  time : t.time = s.time
  clk : t.clk = s.clk
  tick : t.tick = s.tick
  halt : t.sys.halt = s.sys.halt

namespace FrTime
variable {s t u : State}

theorem refl (s : State) : FrTime s s := ⟨rfl, rfl, rfl, rfl, rfl⟩

theorem trans (h : FrTime s t) (k : FrTime t u) : FrTime s u :=
  ⟨k.fr.trans h.fr, k.time.trans h.time, k.clk.trans h.clk, k.tick.trans h.tick, k.halt.trans h.halt⟩

theorem of_raise (h : RaiseFrame s t) : FrTime s t := ⟨h.fr_eq, h.time_eq, h.clk_eq, h.tick_eq, (congrArg (fun x : State => x.sys.halt) h.core :)⟩

theorem ite {c : Prop} [Decidable c] {a b : State} (ha : FrTime s a) (hb : FrTime s b) : FrTime s (if c then a else b) := by
  split
  · exact ha
  · exact hb

theorem forNat {f : Nat → State → State} (h : ∀ i s, FrTime s (f i s)) (n : Nat) (s : State) : FrTime s (Machine.forNat n f s) :=
  forNat_induct (P := fun t => FrTime s t) (fun i t ht => ht.trans (h i t)) n (refl s)

theorem foldl {α : Type} {f : State → α → State} (h : ∀ s a, FrTime s (f s a)) (l : List α) (s : State) : FrTime s (l.foldl f s) := by
  induction l generalizing s with
  | nil => exact refl s
  | cons a l ih => exact (h s a).trans (ih _)

theorem now (h : FrTime s t) : t.now = s.now := by rw [State.now, h.tick, State.now]

theorem of_notes (h : NotesFrame s t) : FrTime s t := by
  rw [h.rest]
  exact ⟨rfl, rfl, rfl, rfl, rfl⟩

theorem of_serve (h : ServeFrame s t) : FrTime s t := by
  rw [h.rest]
  exact ⟨rfl, rfl, rfl, rfl, rfl⟩

theorem modeEnd (s : State) (r : ModeReq) (st : Status) (f : Word) : FrTime s (s.modeEnd r st f) := of_serve (s.modeEnd_frame r st f)

theorem updEng (s : State) (e : Nat) (f : Engine → Engine) : FrTime s (s.updEng e f) := ⟨rfl, rfl, rfl, rfl, rfl⟩

theorem putSetPoint (s : State) (c : Nat) (f v : Word) : FrTime s (s.putSetPoint c f v) := ⟨rfl, rfl, rfl, rfl, rfl⟩

theorem flag (s : State) (a i : Nat) : FrTime s (s.flag a i) := ⟨rfl, rfl, rfl, rfl, rfl⟩

end FrTime

/-! ### The start of a base frame -/

theorem State.profileStep_frame (s : State) (g : Graph) (i : Nat) (b : GBlock) : FrTime s (s.profileStep g i b) := by
  unfold State.profileStep
  extract_lets e p c h vs as_ js rw ra flag u pr x v q n r w
  have hflag : ∀ (z : State) f, FrTime z (flag z f) := fun z f => .ite (.flag ..) (.refl z)
  have hu : FrTime s u := hflag ..
  have hv : FrTime s v := hu.trans (hflag ..)
  have hw : FrTime s w := hv.trans ⟨rfl, rfl, rfl, rfl, rfl⟩
  refine .ite hu (hw.trans (.forNat (fun c z => ?_) 56 w))
  split
  · exact .ite (.foldl (fun _ _ => .putSetPoint ..) _ _) (.refl z)
  · exact .refl z

theorem State.queueStep_frame (s : State) : FrTime s s.queueStep := by
  unfold State.queueStep
  extract_lets e
  split
  · exact .refl s
  · rename_i g hg
    extract_lets u
    have hu : FrTime s u := .forNat (fun i z => by
      split
      · exact .ite (State.profileStep_frame ..) (.refl z)
      · exact .refl z) _ s
    exact .ite hu (hu.trans (.forNat (fun c z => .ite (.putSetPoint ..) (.refl z)) _ _))

theorem State.armUnits_frame (s : State) (r : ModeReq) : FrTime s (s.armUnits r).1 := by
  unfold State.armUnits
  refine List.foldlRecOn (motive := fun a : State × ModeReq => FrTime s a.1) _ _ (.refl s) fun a ha e _ => ?_
  dsimp only
  split
  · exact ha
  · split
    · exact ha
    · split
      · exact ha
      · exact ha.trans (.updEng ..)

theorem State.modeEvaluate_frame (s : State) (r : ModeReq) : FrTime s (s.modeEvaluate r) := by
  unfold State.modeEvaluate
  extract_lets ahead l u r' ka ke a
  have hu : FrTime s u := .forNat (fun e z => .ite (.updEng ..) (.refl z)) 9 s
  have hend : ∀ st, FrTime s (u.modeEnd r' st 0) := fun st => hu.trans (.modeEnd u r' st 0)
  have ha : FrTime s a.1 := hu.trans (State.armUnits_frame ..)
  clear_value a u
  split
  · exact hend _
  · split
    · exact hend _
    · split
      · exact (hend _).trans (.of_raise (State.raise_frame ..))
      · exact ha.trans ⟨rfl, rfl, rfl, rfl, rfl⟩

theorem State.modeArm_frame (s : State) : FrTime s s.modeArm := by
  unfold State.modeArm
  split
  · exact .refl s
  · exact .ite (.refl s) (.ite (s.modeEvaluate_frame _) (.ite (.ite ⟨rfl, rfl, rfl, rfl, rfl⟩ (s.modeEvaluate_frame _)) (.refl s)))

/-- In debug halt the outputs are held once (R137); of the frames only that and the station's sample are noted. -/
theorem State.haltOutputs_fr (s : State) :
    (s.haltOutputs.fr = s.fr ∨ (s.sys.halt = true ∧ s.haltOutputs.fr = { s.fr with dpwHalt := true, stationDue := none }))
      ∧ s.haltOutputs.time = s.time := by
  unfold State.haltOutputs
  split
  · exact ⟨.inl rfl, rfl⟩
  · rename_i h
    extract_lets u
    have hu : FrTime s u := .forNat (fun n z => by exact ⟨rfl, rfl, rfl, rfl, rfl⟩) 24 s
    clear_value u
    have hh : s.sys.halt = true := by
      cases hc : s.sys.halt
      · rw [hc] at h
        exact absurd rfl h
      · rfl
    exact ⟨.inr ⟨hh, congrArg (fun f : FrameSt => { f with dpwHalt := true, stationDue := none }) hu.fr⟩, hu.time⟩

theorem State.epochError_frame (s : State) : FrTime s s.epochError := ⟨rfl, rfl, rfl, rfl, rfl⟩

/-- The start of a base frame: of the record of the frames it changes the station's count and what debug halt notes. -/
theorem State.baseFrame_fr (s : State) :
    (s.baseFrame.fr = s.stationCount.fr
        ∨ (s.sys.halt = true ∧ s.baseFrame.fr = { s.stationCount.fr with dpwHalt := true, stationDue := none })) ∧ s.baseFrame.time = s.time := by
  unfold State.baseFrame
  have hc : s.stationCount.sys = s.sys ∧ s.stationCount.time = s.time := by
    unfold State.stationCount
    dsimp only
    split
    · exact ⟨rfl, rfl⟩
    · exact ⟨rfl, rfl⟩
  have h := (s.stationCount.queueStep_frame.trans (State.modeArm_frame _)).trans (State.epochError_frame _)
  obtain ⟨k1, k2⟩ := s.stationCount.queueStep.modeArm.epochError.haltOutputs_fr
  rw [h.fr, h.halt, hc.1] at k1
  exact ⟨k1, k2.trans (h.time.trans hc.2)⟩

/-! ### A station sample that ends first -/

theorem FrTime.of_end {s t : State} (h : EndFrame s t) : FrTime s t := by
  have hc := h.clocks
  simp only [Prod.mk.injEq] at hc
  obtain ⟨h1, h2, h3, h4, h5⟩ := hc
  exact ⟨h1, h2, h3, h4, h5⟩

/-- The station's deadline leaves the frames, the time and the station's law alone. -/
theorem State.stationEnd_spec (s : State) (reads : List BlockReads) :
    FrTime s (s.stationEnd reads) ∧ ((s.stationEnd reads).eng 8).loaded = (s.eng 8).loaded := by
  have hs := s.stationEnd_frame reads
  have hloaded : ∀ x y : Engine, x.loading = y.loading → x.graph = y.graph → x.loaded = y.loaded := fun x y h1 h2 => by
    rw [Engine.loaded, h1, h2, Engine.loaded]
  have hserve : ((s.stationEnd reads).eng 8).loaded = ((s.engineDeadline 8 reads s.fr.stationDl).eng 8).loaded :=
    hloaded _ _ (congrArg Engine.loading (hs.eng 8) :) (congrArg Engine.graph (hs.eng 8) :)
  have hd : EndFrame s (s.engineDeadline 8 reads s.fr.stationDl)
      ∧ ((s.engineDeadline 8 reads s.fr.stationDl).eng 8).loaded = (s.eng 8).loaded := by
    cases hg : (s.eng 8).graph with
    | none =>
      have : s.engineDeadline 8 reads s.fr.stationDl = s := by
        unfold State.engineDeadline
        dsimp only
        rw [hg]
      rw [this]
      exact ⟨.refl s, rfl⟩
    | some g =>
      cases hr : (s.eng 8).running with
      | false =>
        have : s.engineDeadline 8 reads s.fr.stationDl = s := by
          unfold State.engineDeadline
          dsimp only
          rw [hg]
          dsimp only
          rw [hr]
          rfl
        rw [this]
        exact ⟨.refl s, rfl⟩
      | true =>
        cases hc : s.sampleDone 8 ((g.sched reads).last + 40) s.fr.stationDl with
        | false =>
          obtain ⟨h1, h2⟩ := State.engineDeadline_late hg hr hc
          exact ⟨h1, hloaded _ _ (congrArg Engine.loading h2 :) (congrArg Engine.graph h2 :)⟩
        | true =>
          obtain ⟨h1, -, h2⟩ := State.engineDeadline_done hg hr hc
          exact ⟨h1, hloaded _ _ h2.loading h2.graph⟩
  exact ⟨(FrTime.of_end hd.1).trans (.of_serve hs), hserve.trans hd.2⟩

theorem State.stationBefore_spec (s : State) (tick : Nat) :
    FrTime s (s.stationBefore tick) ∧ ((s.stationBefore tick).eng 8).loaded = (s.eng 8).loaded := by
  unfold State.stationBefore
  split
  · exact s.stationEnd_spec []
  · exact ⟨.refl s, rfl⟩

/-- The base frame after one of length T_F. -/
theorem baseFrameStarts (s : State) (ha : s.alive = true) (h1 : s.fr.epoch + s.tfTicks ≤ s.now) (h2 : s.now < s.fr.epoch + 2 * s.tfTicks) :
    ∃ t, exec .baseFrameBoundary s = .next t ∧ t.fr.k = s.fr.k + 1 ∧ t.fr.epoch = s.fr.epoch + s.tfTicks
      ∧ t.fr.tf = s.fr.tf
      ∧ ((s.eng 8).loaded.isSome = true → s.sys.halt = false → t.fr.stationCount = s.fr.stationCount + 1
          ∧ t.fr.stationDue = if s.fr.stationCount % max 1 (field s.fr.stime.toNat 0 7) = 0
              then some (s.fr.k + 1, s.fr.epoch + s.tfTicks + s.fr.tss) else s.fr.stationDue)
      ∧ (s.sys.halt = true → t.fr.stationDue = none) := by
  have hm : (s.now - s.fr.epoch) / max 1 s.tfTicks = 1 := by
    rw [Nat.max_eq_right (by omega)]
    exact Nat.div_eq_of_lt_le (by omega) (by omega)
  obtain ⟨hf, hl⟩ := s.stationBefore_spec (s.fr.epoch + s.tfTicks)
  have hexec : exec .baseFrameBoundary s = .next (({ s.stationBefore (s.fr.epoch + s.tfTicks) with
      fr := { (s.stationBefore (s.fr.epoch + s.tfTicks)).fr with
        k := (s.stationBefore (s.fr.epoch + s.tfTicks)).fr.k + 1
        epoch := (s.stationBefore (s.fr.epoch + s.tfTicks)).fr.epoch +
            (s.stationBefore (s.fr.epoch + s.tfTicks)).tfTicks } } : State).baseFrame) := by
    simp only [exec, execBaseFrameBoundary, ha, Bool.not_true, Bool.false_eq_true, if_false, State.whenDue, h1, if_true, hm, Nat.one_mul]
    rfl
  rw [hexec]
  generalize s.stationBefore (s.fr.epoch + s.tfTicks) = v at hf hl
  have htf : v.tfTicks = s.tfTicks := by rw [State.tfTicks, hf.fr, State.tfTicks]
  rw [hf.fr, htf]
  generalize hu : ({ v with fr := { s.fr with k := s.fr.k + 1, epoch := s.fr.epoch + s.tfTicks } } : State) = u
  have hufr : u.fr = { s.fr with k := s.fr.k + 1, epoch := s.fr.epoch + s.tfTicks } := by rw [← hu]
  have huh : u.sys.halt = s.sys.halt := by rw [← hu]; exact hf.halt
  have hul : (u.eng 8).loaded = (s.eng 8).loaded := by rw [← hu]; exact hl
  obtain ⟨hb, -⟩ := u.baseFrame_fr
  rw [huh] at hb
  generalize u.baseFrame = t at hb
  have hcount : u.stationCount.fr = if (s.eng 8).loaded.isNone then { u.fr with stationDue := none } else { u.fr with
      stationDue := if s.sys.halt then none else if u.fr.stationCount % max 1 (field u.fr.stime.toNat 0 7) = 0 then some u.fr.due
          else u.fr.stationDue,
      stationCount := u.fr.stationCount + 1 } := by
    unfold State.stationCount
    dsimp only
    rw [hul, huh]
    split
    · rfl
    · rfl
  rw [hcount, hufr] at hb
  refine ⟨t, rfl, ?_, ?_, ?_, fun hload hh => ?_, fun hh => ?_⟩
  · rcases hb with h | ⟨-, h⟩ <;> rw [h] <;> split <;> rfl
  · rcases hb with h | ⟨-, h⟩ <;> rw [h] <;> split <;> rfl
  · rcases hb with h | ⟨-, h⟩ <;> rw [h] <;> split <;> rfl
  · have hn : ¬((s.eng 8).loaded.isNone = true) := by
      rw [Option.isNone_iff_eq_none]
      exact Option.isSome_iff_ne_none.mp hload
    rcases hb with h | ⟨h, -⟩
    · rw [if_neg hn, hh] at h
      rw [h]
      exact ⟨rfl, rfl⟩
    · exact absurd (h.symm.trans hh) (by decide)
  · rcases hb with h | ⟨-, h⟩
    · rw [h, hh]
      split <;> rfl
    · rw [h]

end Sys2Proof.Machine
end
section
/-! SUPPORT. The origin of the frames, an octad's frame, the timeline (R39, R45, R46, R325). -/

namespace Sys2Proof.Machine

/-! ### The origin -/

theorem State.trgRegrid_eq (s : State) : s.trgRegrid = { s with trigs := s.trgRegrid.trigs } := by
  unfold State.trgRegrid
  refine forNat_induct (P := fun t : State => t = { s with trigs := t.trigs }) (fun n t ht => ?_) 8 rfl
  split
  · split
    · exact ht
    · rw [ht]
      rfl
  · exact ht

/-- The station's count leaves the frames' numbers alone. -/
theorem State.stationCount_fr (s : State) :
    s.stationCount.fr = { s.fr with stationDue := s.stationCount.fr.stationDue, stationCount := s.stationCount.fr.stationCount } := by
  unfold State.stationCount
  dsimp only
  split <;> rfl

theorem originStarts (s : State) (ha : s.alive = true) (hp : s.time.orgPend = true) (ht : s.time.orgTime ≤ s.time.dt) :
    ∃ t, exec .frameOrigin s = .next t ∧ t.fr.k = 0 ∧ t.fr.epoch = s.now ∧ t.fr.origin = s.now
      ∧ t.time = { s.time with orgPend := false, orgBase := s.time.orgTime } := by
  obtain ⟨hf, -⟩ := s.stationBefore_spec s.now
  generalize hv : (s.stationBefore s.now).renumber (s.fr.k + 1) = v
  have hvt : v.time = s.time := by rw [← hv]; exact hf.time
  have hvn : v.now = s.now := by rw [← hv]; exact hf.now
  generalize hw : ({ v with
      fr := { v.fr with k := 0, epoch := v.now, origin := v.now, activatedAt := none }
      time := { v.time with orgPend := false, orgBase := v.time.orgTime } } : State) = w
  have hexec : exec .frameOrigin s = .next w.trgRegrid.baseFrame := by
    have hd : (!s.alive || !s.time.orgPend || decide (s.time.dt < s.time.orgTime)) = false := by simp [ha, hp, Nat.not_lt.mpr ht]
    simp only [exec, execFrameOrigin, hd, Bool.false_eq_true, if_false, hv, hw]
  have hwf : w.trgRegrid.fr.k = 0 ∧ w.trgRegrid.fr.epoch = s.now ∧ w.trgRegrid.fr.origin = s.now
      ∧ w.trgRegrid.time = { s.time with orgPend := false, orgBase := s.time.orgTime } := by
    rw [State.trgRegrid_eq, ← hw, ← hvt, ← hvn]
    exact ⟨rfl, rfl, rfl, rfl⟩
  rw [hexec]
  generalize w.trgRegrid = x at hwf
  obtain ⟨h1, h2, h3, h4⟩ := hwf
  obtain ⟨hb, hbt⟩ := x.baseFrame_fr
  have hc := x.stationCount_fr
  generalize x.baseFrame = t at hb hbt
  generalize x.stationCount.fr = c at hb hc
  refine ⟨t, rfl, ?_, ?_, ?_, hbt.trans h4⟩
  · rcases hb with h | ⟨-, h⟩ <;> rw [h, hc] <;> exact h1
  · rcases hb with h | ⟨-, h⟩ <;> rw [h, hc] <;> exact h2
  · rcases hb with h | ⟨-, h⟩ <;> rw [h, hc] <;> exact h3

/-! ### An octad's frame -/

/-- A step of the lanes of a hub: lanes, the hubs' records, windows, what is sent, and registers. -/
structure LinkFrame (s t : State) : Prop where
  rest : t = { s with lanes := t.lanes, tiles := t.tiles, flt := t.flt, out := t.out, regs := t.regs, hotAt := t.hotAt, hot := t.hot }

namespace LinkFrame
variable {s t u : State}

theorem refl (s : State) : LinkFrame s s := ⟨rfl⟩
theorem trans (h : LinkFrame s t) (k : LinkFrame t u) : LinkFrame s u := ⟨by rw [k.rest, h.rest]⟩

theorem ite {c : Prop} [Decidable c] {a b : State} (ha : LinkFrame s a) (hb : LinkFrame s b) : LinkFrame s (if c then a else b) := by
  split
  · exact ha
  · exact hb

theorem updLane (s : State) (l : Nat) (f : Lane → Lane) : LinkFrame s (s.updLane l f) := ⟨rfl⟩
theorem windowDone (s : State) (k : WinKind) : LinkFrame s (s.windowDone k) := ⟨rfl⟩
theorem emit (s : State) (o : Output) : LinkFrame s (s.emit o) := ⟨rfl⟩

theorem abortEye (s : State) (l : Nat) : LinkFrame s (s.abortEye l) := by
  obtain ⟨h, -⟩ := s.abortEye_spec l
  rw [h]
  exact ⟨rfl⟩

theorem laneWindow (s : State) (l o r : Nat) : LinkFrame s (s.laneWindow l o r) := by
  unfold State.laneWindow
  exact .ite (.refl s) ⟨rfl⟩

theorem startStep (s : State) (l target : Nat) (p : Proc) : LinkFrame s (s.startStep l target p) := by
  unfold State.startStep
  extract_lets u
  have hu : LinkFrame s u := (abortEye s l).trans (updLane ..)
  exact hu.trans (emit ..)

theorem toActive (s : State) (l : Nat) : LinkFrame s (s.toActive l) := ⟨rfl⟩

theorem speedStep (s : State) (t : Nat) : LinkFrame s (s.speedStep t) := by
  unfold State.speedStep
  extract_lets p
  exact .ite ((updLane ..).trans (startStep ..)) (.refl s)

theorem checkTakeover (s : State) (t : Nat) : LinkFrame s (s.checkTakeover t) := by
  unfold State.checkTakeover
  extract_lets b x opener u
  have hu : LinkFrame s u := laneWindow ..
  refine .ite (.refl s) ?_
  split
  · exact .ite (((hu.trans (toActive u b)).trans (updLane ..)).trans (speedStep ..)) (hu.trans (startStep ..))
  · exact (laneWindow ..).trans (updLane ..)
  · exact .refl s

theorem toWarm (s : State) (l : Nat) : LinkFrame s (s.toWarm l) := by
  unfold State.toWarm
  extract_lets u
  have hu : LinkFrame s u := (updLane ..).trans (windowDone ..)
  exact hu.trans (checkTakeover ..)

theorem stepDown (s : State) (l : Nat) : LinkFrame s (s.stepDown l) := by
  unfold State.stepDown
  exact .ite (toWarm s l) ((updLane ..).trans (startStep ..))

theorem takeTraffic (s : State) (t : Nat) : LinkFrame s (s.takeTraffic t) := by
  unfold State.takeTraffic
  extract_lets p b u
  have hu : LinkFrame s u := updLane ..
  exact .ite (.ite (hu.trans (stepDown ..)) hu) (.refl s)

theorem octs (h : LinkFrame s t) : t.octs = s.octs := by rw [h.rest]

end LinkFrame

/-- An octad at the start of its frame f, before the settings it holds. -/
def Octad.frameBegun (o : Octad) (f : Word × Nat) (halt : Bool) : Octad :=
  { o with
    frame := f.1, epoch := f.2, epochs := (f.2 :: o.epochs).take 16,
    toLatch := if o.state == .unconfigured then [] else moreFrames o.toLatch f,
    toCommit := if o.state == .unconfigured || halt then [] else moreFrames o.toCommit f,
    toSend := if o.state == .unconfigured then [] else moreFrames o.toSend f,
    late := false, disturbedPrev := o.disturbed, disturbed := false, halted := halt,
    selRunning := o.selRunning && !halt, selIn := o.selIn - 1 }

theorem State.beginFrame_oct (s : State) (n : Nat) (f : Word × Nat) :
    (s.beginFrame n f).oct n = s.holdSettings n ((s.oct n).frameBegun f s.sys.halt) := by
  unfold State.beginFrame
  extract_lets halt u
  have hu : u.oct n = s.oct n ∧ ∀ o, u.holdSettings n o = s.holdSettings n o := by
    dsimp only [u]
    split
    · exact ⟨rfl, fun _ => rfl⟩
    · exact ⟨rfl, fun _ => rfl⟩
  rw [State.oct_updOct_same, hu.1, hu.2]
  rfl

theorem octadFrameStarts (n : Fin 8) (s : State) (ha : s.alive = true) (he : ∀ e ∈ (s.oct n).epochs.head?, e < s.fr.epoch)
    (hd : (s.oct n).deb = .none) (hn : s.fr.epoch + (s.oct n).tl.phase ≤ s.now) :
    ∃ t, exec (.octadEpoch n) s = .next t ∧ (t.oct n).frame = s.fr.k ∧ (t.oct n).epoch = s.fr.epoch + (s.oct n).tl.phase
      ∧ (t.oct n).epochs.head? = some (s.fr.epoch + (s.oct n).tl.phase)
      ∧ ((s.oct n).state ≠ .unconfigured →
          (t.oct n).toLatch = moreFrames (s.oct n).toLatch (s.fr.k, s.fr.epoch + (s.oct n).tl.phase)
          ∧ (t.oct n).toSend = moreFrames (s.oct n).toSend (s.fr.k, s.fr.epoch + (s.oct n).tl.phase)
          ∧ (t.oct n).toCommit = if s.sys.halt then [] else moreFrames (s.oct n).toCommit (s.fr.k, s.fr.epoch + (s.oct n).tl.phase))
      ∧ (t.oct n).selIn = (s.oct n).selIn - 1 ∧ (t.oct n).selCtrl = s.reg (octBase n + 0x2000)
      ∧ (t.oct n).selIsign = s.reg (octBase n + 0x2004) ∧ (t.oct n).selSrc = s.reg (octBase n + 0x2008)
      ∧ (t.oct n).selVnom = s.reg (octBase n + 0x200C) ∧ (t.oct n).halted = s.sys.halt := by
  generalize hf : (s.fr.k, s.fr.epoch + (s.oct n).tl.phase) = f
  generalize hv : forNat 8 (fun i (s : State) => (s.takeTraffic (8 * n.val + i)).checkTakeover (8 * n.val + i)) (s.beginFrame n f) = v
  have hlink : LinkFrame (s.beginFrame n f) v := by
    subst hv
    exact forNat_induct (P := fun u => LinkFrame (s.beginFrame n f) u) (fun i u hu => (hu.trans (.takeTraffic ..)).trans (.checkTakeover ..)) 8
      (.refl _)
  have ho : v.oct n = s.holdSettings n ((s.oct n).frameBegun f s.sys.halt) := by
    rw [State.oct, hlink.octs]
    exact s.beginFrame_oct n f
  have hdeb : (v.oct n).deb = .none := by rw [ho]; exact hd
  have hexec : exec (.octadEpoch n) s = .next v := by
    cases hc : (s.oct n).epochs with
    | nil =>
      simp only [exec, execOctadEpoch, ha, hc, Bool.not_true, Bool.or_self, Bool.false_eq_true, if_false, State.whenDue, hn, if_true, hf, hv, hdeb]
    | cons e r =>
      have hlt : decide (s.fr.epoch ≤ e) = false := decide_eq_false (Nat.not_le.mpr (he e (by rw [hc]; rfl)))
      simp only [exec, execOctadEpoch, ha, hc, hlt, Bool.not_true, Bool.or_self, Bool.false_eq_true, if_false, State.whenDue, hn, if_true, hf, hv,
        hdeb]
  refine ⟨v, hexec, ?_⟩
  rw [ho]
  subst hf
  refine ⟨rfl, rfl, rfl, fun hs => ?_, rfl, rfl, rfl, rfl, rfl, rfl⟩
  have hne : ((s.oct n).state == .unconfigured) = false := by simpa using hs
  simp [State.holdSettings, Octad.frameBegun, hne]

/-! ### The timeline -/

/-- The written deadlines come into force at the octad's own boundary, when it is still (R45). -/
def State.takeDeadlines (n : Nat) (s : State) : State :=
  if s.reaches (s.oct n).epoch ∧ (s.oct n).state.still then s.updOct n fun o => { o with tl := s.writtenTimeline n o.tl } else s

/-- The written phases come into force (R45). -/
def State.takePhase (n : Nat) (s : State) : State :=
  s.updOct n fun o => { o with tl := { o.tl with phase := s.fld (octBase n + 0x10) 0 16 } }

theorem State.takePhases_spec (s : State) (k : Nat) :
    forNat k State.takePhase s = { s with octs := (forNat k State.takePhase s).octs }
      ∧ ∀ n, (forNat k State.takePhase s).oct n
        = if n < k then { s.oct n with tl := { (s.oct n).tl with phase := s.fld (octBase n + 0x10) 0 16 } } else s.oct n := by
  induction k with
  | zero => exact ⟨rfl, fun _ => rfl⟩
  | succ k ih =>
    obtain ⟨h1, h2⟩ := ih
    have hstep : forNat (k + 1) State.takePhase s = (forNat k State.takePhase s).takePhase k := rfl
    rw [hstep]
    generalize forNat k State.takePhase s = u at h1 h2
    have hfld : u.fld (octBase k + 0x10) 0 16 = s.fld (octBase k + 0x10) 0 16 := by rw [h1]; rfl
    refine ⟨?_, fun n => ?_⟩
    · unfold State.takePhase
      rw [h1]
      rfl
    · by_cases hn : n = k
      · subst hn
        rw [State.takePhase, State.oct_updOct_same, h2, if_neg (Nat.lt_irrefl n), if_pos (Nat.lt_succ_self n), hfld]
      · rw [State.takePhase, show (u.updOct k _).oct n = u.oct n from Tab.get_upd_ne _ hn _, h2]
        have : n < k + 1 ↔ n < k := by omega
        simp only [this]

theorem State.takeDeadlines_spec (s : State) (k : Nat) :
    forNat k State.takeDeadlines s = { s with octs := (forNat k State.takeDeadlines s).octs }
      ∧ ∀ n, (forNat k State.takeDeadlines s).oct n
        = if n < k ∧ s.reaches (s.oct n).epoch = true ∧ (s.oct n).state.still = true then { s.oct n with tl := s.writtenTimeline n (s.oct n).tl }
          else s.oct n := by
  induction k with
  | zero => exact ⟨rfl, fun n => (if_neg (by omega)).symm⟩
  | succ k ih =>
    obtain ⟨h1, h2⟩ := ih
    have hstep : forNat (k + 1) State.takeDeadlines s = (forNat k State.takeDeadlines s).takeDeadlines k := rfl
    rw [hstep]
    generalize forNat k State.takeDeadlines s = u at h1 h2
    have hreach : ∀ e, u.reaches e = s.reaches e := fun e => by rw [h1]; rfl
    have hwritten : ∀ tl, u.writtenTimeline k tl = s.writtenTimeline k tl := fun tl => by rw [h1]; rfl
    have hk : u.oct k = s.oct k := by rw [h2, if_neg (by omega)]
    have htake : u.takeDeadlines k = if s.reaches (s.oct k).epoch = true ∧ (s.oct k).state.still = true then
        u.updOct k fun o => { o with tl := s.writtenTimeline k o.tl } else u := by
      unfold State.takeDeadlines
      rw [hreach, hk]
      simp only [hwritten]
    refine ⟨?_, fun n => ?_⟩
    · rw [htake]
      split
      · rw [h1]
        rfl
      · exact h1
    · rw [htake]
      by_cases hn : n = k
      · subst hn
        have : (n < n + 1 ∧ s.reaches (s.oct n).epoch = true ∧ (s.oct n).state.still = true)
            ↔ (s.reaches (s.oct n).epoch = true ∧ (s.oct n).state.still = true) := by simp
        simp only [this]
        split
        · rw [State.oct_updOct_same, hk]
        · exact hk
      · have hoth : ∀ c : Prop, [Decidable c] → ∀ g, (if c then u.updOct k g else u).oct n = u.oct n := fun c _ g => by
          split
          · exact Tab.get_upd_ne _ hn g
          · rfl
        rw [hoth, h2]
        have : n < k + 1 ↔ n < k := by omega
        simp only [this]

/-- The written T_F and station settings, at a boundary of the base frame: what they make of the record of the frames (R45, R217). -/
def State.timelineFr (s : State) : FrameSt :=
  let st := s.reg 0x8048
  let newM := field st.toNat 0 7 != field s.fr.stime.toNat 0 7
  let fr := { s.fr with tf := s.fld 0x110 0 7, stime := st }
  let now := if newM then (s.eng 8).loaded.isSome && !s.sys.halt else (match fr.stationDue with | some d => d.1 == fr.k | none => false)
  { fr with stationCount := if newM then 1 else fr.stationCount, stationDue := if now then some fr.due else fr.stationDue }

theorem State.exec_timeline {s : State} (ha : s.alive = true) :
    exec .timelineTakesEffect s = .next (forNat 8 State.takeDeadlines
      (if s.reaches s.fr.epoch ∧ s.allStill then (forNat 8 State.takePhase { s with fr := s.timelineFr }).trgRegrid else s)) := by
  simp only [exec, execTimelineTakesEffect, ha, Bool.not_true, Bool.false_eq_true, if_false]
  rfl

theorem timelineTaken (s : State) (ha : s.alive = true) (hr : s.reaches s.fr.epoch = true) (hs : s.allStill = true) :
    ∃ t, exec .timelineTakesEffect s = .next t ∧ t.fr.tf = s.fld 0x110 0 7 ∧ t.fr.stime = s.reg 0x8048
      ∧ (∀ n < 8, (t.oct n).tl.phase = s.ofld n 0x10 0 16)
      ∧ (∀ n < 8, s.reaches (s.oct n).epoch = true → (s.oct n).state.still = true → (t.oct n).tl.tfb = s.ofld n 8 0 10
          ∧ (t.oct n).tl.ted = s.ofld n 8 16 10 ∧ (t.oct n).tl.td = s.ofld n 0xC 0 10 ∧ (t.oct n).tl.thr = s.ofld n 0xC 16 10
          ∧ (t.oct n).tl.tle = s.ofld n 0xC 28 4)
      ∧ t = { s with fr := { s.fr with tf := t.fr.tf, stime := t.fr.stime, stationCount := t.fr.stationCount,
                                       stationDue := t.fr.stationDue }, octs := t.octs, trigs := t.trigs } := by
  rw [State.exec_timeline ha, if_pos ⟨hr, hs⟩]
  obtain ⟨h1, h2⟩ := State.takePhases_spec { s with fr := s.timelineFr } 8
  generalize forNat 8 State.takePhase { s with fr := s.timelineFr } = u at h1 h2
  have h3 := u.trgRegrid_eq
  generalize u.trgRegrid = v at h3
  obtain ⟨h4, h5⟩ := v.takeDeadlines_spec 8
  generalize forNat 8 State.takeDeadlines v = t at h4 h5
  have hvo : ∀ n, v.oct n = u.oct n := fun n => by rw [h3]; rfl
  have hvr : ∀ e, v.reaches e = s.reaches e := fun e => by rw [h3, h1]; rfl
  have hvw : ∀ n tl, v.writtenTimeline n tl = s.writtenTimeline n tl := fun n tl => by rw [h3, h1]; rfl
  have hold : ∀ n < 8, v.oct n = { s.oct n with tl := { (s.oct n).tl with phase := s.fld (octBase n + 0x10) 0 16 } } := fun n hn => by
    rw [hvo, h2, if_pos hn]
    rfl
  have hfr : t.fr = s.timelineFr := by rw [h4, h3, h1]
  refine ⟨t, rfl, by rw [hfr]; rfl, by rw [hfr]; rfl, fun n hn => ?_, fun n hn h6 h7 => ?_, ?_⟩
  · rw [h5]
    split
    · rw [hold n hn]
      rfl
    · rw [hold n hn]
      rfl
  · rw [h5, if_pos ⟨hn, by rw [hvr, hold n hn]; exact h6, by rw [hold n hn]; exact h7⟩, hvw]
    exact ⟨rfl, rfl, rfl, rfl, rfl⟩
  · rw [hfr]
    rw [h4, h3, h1]
    rfl

theorem timelineKept (s : State) (ha : s.alive = true) (hs : s.allStill = false) :
    ∃ t, exec .timelineTakesEffect s = .next t ∧ t.fr = s.fr ∧ t = { s with octs := t.octs }
      ∧ ∀ n < 8, (t.oct n).tl.phase = (s.oct n).tl.phase ∧ ((s.oct n).state.still = false → t.oct n = s.oct n) := by
  rw [State.exec_timeline ha, if_neg (by rw [hs]; simp)]
  obtain ⟨h4, h5⟩ := s.takeDeadlines_spec 8
  generalize forNat 8 State.takeDeadlines s = t at h4 h5
  refine ⟨t, rfl, by rw [h4], h4, fun n hn => ⟨?_, fun hst => ?_⟩⟩
  · rw [h5]
    split <;> rfl
  · rw [h5, if_neg (by rw [hst]; simp)]

end Sys2Proof.Machine
end
section
/-! SUPPORT. The decision of a mode change (R290, R300). -/

namespace Sys2Proof.Machine

/-- The mode that an engine enters by a request. -/
def State.entry (s : State) (r : ModeReq) (e : Nat) : ModeEntry :=
  ⟨targetOf r.p e, r.ke, if r.p.ns = 0 then (((s.eng e).modeTable[targetOf r.p e]?).map (·.ns)).getD 0 else r.p.ns.toNat⟩

theorem State.enterModes_eng (r : ModeReq) (l : List Nat) (hl : l.Nodup) (s : State) (e : Nat) :
    (l.foldl (fun s e => s.enterMode r e) s).eng e
      = if e ∈ l then { s.eng e with pending := (s.eng e).pending ++ [s.entry r e] } else s.eng e := by
  induction l generalizing s with
  | nil => rfl
  | cons a l ih =>
    obtain ⟨ha, hl⟩ := List.nodup_cons.mp hl
    rw [List.foldl_cons, ih hl]
    by_cases he : e = a
    · subst he
      rw [if_neg ha, if_pos (List.mem_cons_self ..)]
      exact State.eng_updEng_same ..
    · have hne : (s.enterMode r a).eng e = s.eng e := Tab.get_upd_ne _ he _
      have hentry : (s.enterMode r a).entry r e = s.entry r e := by rw [State.entry, hne, State.entry]
      rw [hne, hentry]
      simp only [List.mem_cons, he, false_or]

theorem modeCommits (r : ModeReq) (s : State) (hm : s.modeReq = some r) (hd : r.decided = false) (ha : r.armed = true) (hr : r.redo = false)
    (hk : 0 ≤ frameDiff s.fr.k (r.ke - 1)) (hn : r.notArm = 0) (he : ∃ e < 9, unitNamed r.p e = true ∧ (s.eng e).armed.isSome = true) :
    ∃ t, exec .modeDecision s = .next t ∧ (∃ q, t.modeReq = some q ∧ q.decided = true ∧ q.ke = r.ke)
      ∧ (∀ e < 9, unitNamed r.p e = true → (s.eng e).armed.isSome = true →
          (t.eng e).pending = (s.eng e).pending ++ [⟨targetOf r.p e, r.ke,
            if r.p.ns = 0 then (((s.eng e).modeTable[targetOf r.p e]?).map (·.ns)).getD 0 else r.p.ns.toNat⟩])
      ∧ (∀ e < 9, unitNamed r.p e = false → t.eng e = s.eng e) := by
  generalize hl : (List.range 9).filter (fun e => unitNamed r.p e && (s.eng e).armed.isSome) = l
  have hmem : ∀ e, e ∈ l ↔ e < 9 ∧ unitNamed r.p e = true ∧ (s.eng e).armed.isSome = true := fun e => by
    rw [← hl, List.mem_filter, List.mem_range, Bool.and_eq_true]
  have hnodup : l.Nodup := hl ▸ List.nodup_range.filter _
  have hne : l.isEmpty = false := by
    obtain ⟨e, h⟩ := he
    cases hc : l with
    | nil => exact absurd ((hmem e).mpr h) (by rw [hc]; simp)
    | cons => rfl
  generalize hv : forNat 9 (fun e (s : State) => if r.excl.getLsbD e then s.flag (engBase e + 0x4C) 6 else s)
      (l.foldl (fun s e => s.enterMode r e) s) = v
  have hvf : NotesFrame (l.foldl (fun s e => s.enterMode r e) s) v := by
    subst hv
    exact forNat_induct (P := fun u => NotesFrame (l.foldl (fun s e => s.enterMode r e) s) u) (fun e u hu => hu.trans (.ite (.flag ..) (.refl u))) 9
      (.refl _)
  have hve : ∀ e, v.eng e = if e ∈ l then { s.eng e with pending := (s.eng e).pending ++ [s.entry r e] } else s.eng e := fun e => by
    rw [State.eng, hvf.engs]
    exact State.enterModes_eng r l hnodup s e
  have hlt : decide (frameDiff s.fr.k (r.ke - 1) < 0) = false := decide_eq_false (Int.not_lt.mpr hk)
  have hexec : exec .modeDecision s = .next { v with modeReq := some { r with
      decided := true, todo := l.foldl (fun m e => m ||| BitVec.ofNat 9 (2 ^ e)) 0 } } := by
    simp only [exec, execModeDecision, hm, hd, ha, hr, hlt, Bool.not_true, Bool.or_self, Bool.false_eq_true, if_false, hl, hne, hn, ne_eq,
      not_true_eq_false, or_self, hv]
  refine ⟨_, hexec, ⟨_, rfl, rfl, rfl⟩, fun e h1 h2 h3 => ?_, fun e h1 h2 => ?_⟩
  · show (v.eng e).pending = _
    rw [hve, if_pos ((hmem e).mpr ⟨h1, h2, h3⟩)]
    rfl
  · show v.eng e = _
    rw [hve, if_neg fun h => absurd ((hmem e).mp h).2.1 (by rw [h2]; decide)]

/-- A mode change that ends: no request is left, and no unit that it named is armed. -/
theorem State.modeEnd_spec (s : State) (r : ModeReq) (st : Status) (f : Word) :
    (s.modeEnd r st f).modeReq = none ∧ ∀ e < 9, unitNamed r.p e = true → ((s.modeEnd r st f).eng e).armed = none := by
  unfold State.modeEnd
  extract_lets result u done _ v
  have hu : ∀ k, (∀ e, e < k → unitNamed r.p e = true →
      ((forNat k (fun e (s : State) => if unitNamed r.p e then s.updEng e fun x => { x with armed := none } else s) s).eng e).armed = none) := by
    intro k
    induction k with
    | zero => exact fun _ h => absurd h (Nat.not_lt_zero _)
    | succ k ih =>
      intro e he hn
      have hstep : ∀ f : Nat → State → State, forNat (k + 1) f s = f k (forNat k f s) := fun _ => rfl
      rw [hstep]
      generalize forNat k _ s = w at ih
      by_cases hek : e = k
      · subst hek
        rw [if_pos hn, State.eng_updEng_same]
      · have := ih e (by omega) hn
        split
        · rw [show (w.updEng k _).eng e = w.eng e from Tab.get_upd_ne _ hek _]
          exact this
        · exact this
  have hv : v.modeReq = none ∧ ∀ e < 9, unitNamed r.p e = true → (v.eng e).armed = none := ⟨rfl, hu 9⟩
  clear_value v
  refine List.foldlRecOn (motive := fun w : State => w.modeReq = none ∧ ∀ e < 9, unitNamed r.p e = true → (w.eng e).armed = none) _ _ hv
    fun w hw d _ => ?_
  have h := RingsOnly.complete w d.d st f result
  generalize w.complete d.d st f result = t at h
  rw [h]
  exact hw

theorem modeRefused (r : ModeReq) (s : State) (hm : s.modeReq = some r) (hd : r.decided = false) (ha : r.armed = true) (hr : r.redo = false)
    (hk : 0 ≤ frameDiff s.fr.k (r.ke - 1)) (hn : r.notArm ≠ 0) :
    ∃ t, exec .modeDecision s = .next t ∧ t.modeReq = none
      ∧ (∀ e < 9, (t.eng e).pending = (s.eng e).pending ∧ (t.eng e).mode = (s.eng e).mode
          ∧ (unitNamed r.p e = true → (t.eng e).armed = none)) := by
  have hlt : decide (frameDiff s.fr.k (r.ke - 1) < 0) = false := decide_eq_false (Int.not_lt.mpr hk)
  have hexec : exec .modeDecision s = .next ((s.modeEnd r .refused 0).raise 0x3208 r.p.units.toNat []) := by
    simp only [exec, execModeDecision, hm, hd, ha, hr, hlt, Bool.not_true, Bool.or_self, Bool.false_eq_true, if_false, ne_eq, hn,
      not_false_eq_true, or_true, if_true]
  have hs := s.modeEnd_frame r .refused 0
  obtain ⟨h1, h2⟩ := s.modeEnd_spec r .refused 0
  generalize s.modeEnd r .refused 0 = u at hexec hs h1 h2
  obtain ⟨k1, k2⟩ := (ModeIdle.steps.raise u 0x3208 r.p.units.toNat []).idle h1
  refine ⟨_, hexec, k1, fun e he => ?_⟩
  rw [State.eng, k2]
  exact ⟨(congrArg Engine.pending (hs.eng e) :), (congrArg Engine.mode (hs.eng e) :), h2 e he⟩

/-- Settles O34: one lemma per boundary. -/
theorem framesAdvance : Obligations.FramesAdvance := by
  unfold Obligations.FramesAdvance
  exact ⟨baseFrameStarts, octadFrameStarts, timelineTaken, timelineKept, originStarts, modeCommits, modeRefused⟩

end Sys2Proof.Machine
end
section
/-! SUPPORT. A pulse output's period in a state whose registers are in no canonical form (R559). -/

namespace Sys2Proof.Machine

/-- The device in IDLE with the status word of pulse output 0 listed twice, each time as zero. -/
def statusListedTwice : State :=
  { State.reset with sys := { State.reset.sys with dev := .idle }, regs := [(0x308010, 0), (0x308010, 0)] }

/-- The registers of the next state. -/
def nextRegs : Host.Outcome State Fault Refusal → List (Nat × Word)
  | .next t => t.regs
  | _ => []

/-- The period that starts notes that its source has not committed: the first entry is struck out as its word becomes the reset word, and the
second is left. -/
theorem statusListedTwice_period : nextRegs (exec (.dpwmPeriodStart 0) statusListedTwice) = [(0x308010, 0)] := by decide +kernel

/-- Refutes O35: its first clause reads the status of an output back from any state, also from one whose registers are not in canonical form; there
the write of the status word leaves an older entry to be read. -/
theorem not_pulseOutputsFollowTheirPeriod : ¬ Obligations.PulseOutputsFollowTheirPeriod := by
  unfold Obligations.PulseOutputsFollowTheirPeriod
  rintro ⟨hPeriod, -, -⟩
  obtain ⟨t, hexec, hstatus, -⟩ := hPeriod 0 _ statusListedTwice rfl (.inl rfl) rfl (by decide) (by decide) (by decide) (by decide)
  have hregs : t.regs = [(0x308010, 0)] := (congrArg nextRegs hexec).symm.trans statusListedTwice_period
  have hread : t.fld (dpwAddr 0 + 0x10) 1 1 = 0 := by
    rw [State.fld, State.reg, hregs]
    rfl
  exact absurd (hread.symm.trans hstatus) (by decide)

end Sys2Proof.Machine
end
section
/-! SUPPORT. The moves of a selection, and the carry of a width (R76, R121). -/

namespace Sys2Proof.Machine

/-! ### The moves -/

/-- The swaps are at most those allowed, and at most the members of either list. -/
theorem swapCount_le (v : Nat → Nat) (dis : Bool) (s : Nat) (lb li : List Nat) :
    swapCount v dis s lb li ≤ s ∧ swapCount v dis s lb li ≤ lb.length ∧ swapCount v dis s lb li ≤ li.length := by
  induction s generalizing lb li with
  | zero => simp [swapCount]
  | succ s ih =>
    cases lb with
    | nil => simp [swapCount]
    | cons o lb =>
      cases li with
      | nil => simp [swapCount]
      | cons i li =>
        obtain ⟨h1, h2, h3⟩ := ih lb li
        rw [swapCount, List.length_cons, List.length_cons]
        generalize (if dis = true then decide (v o < v i) else decide (v i < v o)) = c
        cases c
        · exact ⟨Nat.zero_le _, Nat.zero_le _, Nat.zero_le _⟩
        · exact ⟨Nat.succ_le_succ h1, Nat.succ_le_succ h2, Nat.succ_le_succ h3⟩

/-- What the first k taken and the s after them make together. -/
theorem take_append_take_drop {α : Type} (l : List α) (k s : Nat) : l.take k ++ (l.drop k).take s = l.take (k + s) := List.take_add.symm

section
variable (li lb : List Nat) (n : Nat) (sign : Sign) (dis : Bool) (swapMax : Nat) (v : Nat → Nat) (obh obl : Nat → Bool)

/-- A selection's moves: a first part of each list, as many more of either as are swapped, and the next of those not inserted. -/
theorem selectMoves_spec : ∃ s, selectMoves li lb n sign dis swapMax v obh obl
      = ⟨li.take (n - lb.length + s), lb.take (lb.length - n + s), s, (li.drop (n - lb.length + s)).head?⟩
    ∧ s ≤ swapMax ∧ (sign = .zero → s = 0) ∧ s ≤ li.length - (n - lb.length) ∧ s ≤ lb.length - (lb.length - n) := by
  unfold selectMoves
  dsimp only
  generalize hs : (if sign = .zero then 0 else swapCount v dis _ (lb.drop (lb.length - n)) (li.drop (n - lb.length))) = s
  refine ⟨s, ?_, ?_⟩
  · rw [take_append_take_drop, take_append_take_drop, List.drop_drop]
  · subst hs
    split
    · exact ⟨Nat.zero_le _, fun _ => rfl, Nat.zero_le _, Nat.zero_le _⟩
    · obtain ⟨h1, h2, h3⟩ := swapCount_le v dis (min (max ((lb.drop (lb.length - n)).countP (if dis then obl else obh))
        ((li.drop (n - lb.length)).countP (if dis then obh else obl))) swapMax) (lb.drop (lb.length - n)) (li.drop (n - lb.length))
      rw [List.length_drop] at h2 h3
      exact ⟨h1.trans (min_le_right _ _), fun h => absurd h ‹_›, h3, h2⟩

/-- The moves leave the demanded number inserted. -/
theorem selectMoves_counts :
    (selectMoves li lb n sign dis swapMax v obh obl).swaps ≤ swapMax
     ∧ (sign = .zero → (selectMoves li lb n sign dis swapMax v obh obl).swaps = 0)
     ∧ lb.length + (selectMoves li lb n sign dis swapMax v obh obl).ins.length
         = min n (li.length + lb.length) + (selectMoves li lb n sign dis swapMax v obh obl).byp.length
     ∧ (selectMoves li lb n sign dis swapMax v obh obl).ins <+: li
     ∧ (selectMoves li lb n sign dis swapMax v obh obl).byp <+: lb
     ∧ (selectMoves li lb n sign dis swapMax v obh obl).ins.length
         = min (n - lb.length) li.length + (selectMoves li lb n sign dis swapMax v obh obl).swaps
     ∧ (∀ c, (selectMoves li lb n sign dis swapMax v obh obl).trim = some c → li.Nodup →
         c ∈ li ∧ c ∉ (selectMoves li lb n sign dis swapMax v obh obl).ins) := by
  obtain ⟨s, heq, h1, h2, h3, h4⟩ := selectMoves_spec li lb n sign dis swapMax v obh obl
  rw [heq]
  dsimp only
  rw [List.length_take, List.length_take]
  refine ⟨h1, h2, by omega, List.take_prefix .., List.take_prefix .., by omega, fun c hc hnodup => ?_⟩
  have hmem : c ∈ li.drop (n - lb.length + s) := List.mem_of_mem_head? hc
  refine ⟨List.mem_of_mem_drop hmem, fun hin => ?_⟩
  rw [← List.take_append_drop (n - lb.length + s) li] at hnodup
  exact (List.nodup_append.mp hnodup).2.2 c hin c hmem rfl

end

/-! ### The carry -/

theorem clampI_bounds {q : Int} (hq : 0 ≤ q) (v : Int) : -q ≤ clampI (-q) q v ∧ clampI (-q) q v ≤ q := by
  unfold clampI
  split
  · omega
  · split <;> omega

/-- The width that is let through, and what is carried. -/
theorem carryStep_spec (r c m q : Int) (hr : 0 ≤ r) (hrq : r ≤ q) (hm : 0 ≤ m) (hmq : 2 * m ≤ q) :
    ((carryStep r c m q).1 = 0 ∨ (m ≤ (carryStep r c m q).1 ∧ (carryStep r c m q).1 ≤ q - m))
       ∧ -q ≤ (carryStep r c m q).2.1 ∧ (carryStep r c m q).2.1 ≤ q
       ∧ ((carryStep r c m q).2.2.2 = false → (carryStep r c m q).1 + (carryStep r c m q).2.1 = r + c)
       ∧ ((carryStep r c m q).2.2.1 = true ↔ (carryStep r c m q).1 ≠ r) := by
  unfold carryStep
  split
  · rename_i h
    obtain ⟨h0, h1, h2⟩ := h
    refine ⟨.inr ⟨h1, by dsimp only; omega⟩, by dsimp only; omega, by dsimp only; omega, fun _ => by dsimp only; omega, by simp⟩
  · dsimp only
    generalize he : (if c + r < m then (0 : Int) else if q - m < c + r then q - m else c + r) = e
    have hrange : e = 0 ∨ (m ≤ e ∧ e ≤ q - m) := by
      subst he
      split
      · exact .inl rfl
      · split <;> omega
    obtain ⟨hlo, hhi⟩ := clampI_bounds (q := q) (by omega) (c + r - e)
    refine ⟨hrange, hlo, hhi, fun hcl => ?_, decide_eq_true_iff⟩
    have hin : ¬(q < c + r - e) ∧ ¬(c + r - e < -q) := by simpa using hcl
    unfold clampI
    rw [if_neg hin.2, if_neg hin.1]
    omega

/-- Settles O36: the moves take a first part of each list; the carry is a case analysis of its bounds. -/
theorem selectionMeetsTheDemandAndCarries : Obligations.SelectionMeetsTheDemandAndCarries := by
  unfold Obligations.SelectionMeetsTheDemandAndCarries
  exact ⟨selectMoves_counts, fun r c m q h1 h2 h3 h4 _ _ => carryStep_spec r c m q h1 h2 h3 h4⟩

end Sys2Proof.Machine
end
section
/-! SUPPORT. The commit of a selection and its watchdog (R75 to R83, R88). -/

namespace Sys2Proof.Machine

/-! ### Cells of lists -/

/-- What a list of cells is set to: v where every step sets it so. -/
theorem State.cell_foldl_set {β : Type} (π : Cell → β) (v : β) (f : Nat → Cell → Cell) (hf : ∀ c x, π (f c x) = v) (l : List Nat) (s : State)
    (c : Nat) :
    π ((l.foldl (fun s a => s.updCell a (f a)) s).cell c) = if c ∈ l then v else π (s.cell c) := by
  induction l generalizing s with
  | nil => rfl
  | cons a l ih =>
    rw [List.foldl_cons, ih, State.cell_updCell]
    by_cases hl : c ∈ l
    · rw [if_pos hl, if_pos (List.mem_cons_of_mem _ hl)]
    · rw [if_neg hl]
      by_cases ha : c = a
      · rw [if_pos ha, if_pos (ha ▸ List.mem_cons_self ..), hf]
      · rw [if_neg ha, if_neg (by simp [ha, hl])]

/-- What no step changes stays. -/
theorem State.cell_foldl_kept {β : Type} (π : Cell → β) (f : Nat → Cell → Cell) (hf : ∀ c x, π (f c x) = π x) (l : List Nat) (s : State) (c : Nat) :
    π ((l.foldl (fun s a => s.updCell a (f a)) s).cell c) = π (s.cell c) := by
  induction l generalizing s with
  | nil => rfl
  | cons a l ih =>
    rw [List.foldl_cons, ih, State.cell_updCell]
    split
    · rename_i h
      rw [hf, h]
    · rfl

theorem State.cell_mapOctCells_kept {β : Type} (π : Cell → β) (s : State) (n : Nat) {f : Cell → Cell} (hf : ∀ x, π (f x) = π x) (c : Nat) :
    π ((s.mapOctCells n f).cell c) = π (s.cell c) :=
  Tab.look_map_congr π (f := fun i c => if i / 512 = n then f c else c) (fun i x => by
    split
    · exact hf x
    · rfl) ..

/-- A step of one octad's selection. -/
structure SelFrame (n : Nat) (s t : State) : Prop where
  rest : t = { s with octs := t.octs, cells := t.cells, regs := t.regs, hotAt := t.hotAt, hot := t.hot }
  other : ∀ m, m ≠ n → t.oct m = s.oct m

namespace SelFrame
variable {n : Nat} {s t u : State}

theorem refl (s : State) : SelFrame n s s := ⟨rfl, fun _ _ => rfl⟩
theorem trans (h : SelFrame n s t) (k : SelFrame n t u) : SelFrame n s u := ⟨by rw [k.rest, h.rest], fun m hm => (k.other m hm).trans (h.other m hm)⟩
theorem updCell (s : State) (c : Nat) (f : Cell → Cell) : SelFrame n s (s.updCell c f) := ⟨rfl, fun _ _ => rfl⟩
theorem mapOctCells (s : State) (m : Nat) (f : Cell → Cell) : SelFrame n s (s.mapOctCells m f) := ⟨rfl, fun _ _ => rfl⟩
theorem updOct (s : State) (f : Octad → Octad) : SelFrame n s (s.updOct n f) := ⟨rfl, fun _ hm => Tab.get_upd_ne _ hm _⟩
theorem flag (s : State) (a i : Nat) : SelFrame n s (s.flag a i) := ⟨rfl, fun _ _ => rfl⟩

theorem count (s : State) (a k : Nat) : SelFrame n s (s.count a k) := by
  obtain ⟨f, hf⟩ := State.count_acts a k
  rw [hf]
  exact ⟨rfl, fun _ _ => rfl⟩

theorem ite {c : Prop} [Decidable c] {a b : State} (ha : SelFrame n s a) (hb : SelFrame n s b) : SelFrame n s (if c then a else b) := by
  split
  · exact ha
  · exact hb

theorem foldl {f : State → Nat → State} (h : ∀ s a, SelFrame n s (f s a)) (l : List Nat) (s : State) : SelFrame n s (l.foldl f s) := by
  induction l generalizing s with
  | nil => exact refl s
  | cons a l ih => exact (h s a).trans (ih _)

end SelFrame

theorem State.octs_foldl_updCell (f : Nat → Cell → Cell) (l : List Nat) (s : State) : (l.foldl (fun s a => s.updCell a (f a)) s).octs = s.octs := by
  induction l generalizing s with
  | nil => rfl
  | cons a l ih =>
    rw [List.foldl_cons, ih]
    rfl

/-! ### The commit -/

theorem State.commitTc_spec (s : State) (n : Nat) :
    SelFrame n s (s.commitTc n) ∧ (∀ c, ((s.commitTc n).cell c).ins = (s.cell c).ins) ∧ (s.commitTc n).oct n = { s.oct n with tcDone := true } := by
  unfold State.commitTc
  extract_lets p one two u
  have hu : SelFrame n s u := .foldl (fun _ _ => .updCell ..) _ _
  have hv : SelFrame n u (two.foldl (fun s c => s.updCell c fun x => x.addTc 2) u) := .foldl (fun _ _ => .updCell ..) _ _
  have h1 : ∀ c, (u.cell c).ins = (s.cell c).ins := State.cell_foldl_kept Cell.ins (fun _ x => x.addTc 1) (fun _ _ => rfl) one s
  have h2 : ∀ c, ((two.foldl (fun s c => s.updCell c fun x => x.addTc 2) u).cell c).ins = (u.cell c).ins :=
    State.cell_foldl_kept Cell.ins (fun _ x => x.addTc 2) (fun _ _ => rfl) two u
  have h3 : u.octs = s.octs := State.octs_foldl_updCell (fun _ x => x.addTc 1) one s
  have h4 : (two.foldl (fun s c => s.updCell c fun x => x.addTc 2) u).octs = u.octs := State.octs_foldl_updCell (fun _ x => x.addTc 2) two u
  clear_value u
  generalize two.foldl (fun s c => s.updCell c fun x => x.addTc 2) u = v at hv h2 h4
  refine ⟨(hu.trans hv).trans (.updOct v _), fun c => (h2 c).trans (h1 c), ?_⟩
  rw [State.oct_updOct_same, State.oct, h4, h3]
  rfl

theorem State.trimStep_spec (s : State) (n : Nat) (p : SelPlan) :
    SelFrame n s (s.trimStep n p) ∧ (∀ c, ((s.trimStep n p).cell c).ins = (s.cell c).ins ∧ ((s.trimStep n p).cell c).tc = (s.cell c).tc)
      ∧ ∃ x, (s.trimStep n p).oct n = { s.oct n with carry := x } := by
  unfold State.trimStep
  split
  · exact ⟨.refl s, fun _ => ⟨rfl, rfl⟩, _, rfl⟩
  · split
    · exact ⟨.flag .., fun _ => ⟨rfl, rfl⟩, _, rfl⟩
    · rename_i c hc
      extract_lets r e u v w a
      have hnote : ∀ (b : Bool) (z : State) k, NotesFrame z (if b = true then z.count k 1 else z) := fun b z k => .ite (.count ..) (.refl z)
      have hv : NotesFrame u v := hnote ..
      have hw : NotesFrame u w := hv.trans (hnote ..)
      have hf : SelFrame n u w := (SelFrame.ite (.count ..) (.refl u)).trans (.ite (.count ..) (.refl v))
      have ho : w.oct n = { s.oct n with carry := r.2.1 } := by
        rw [State.oct, hw.octs]
        exact State.oct_updOct_same ..
      have hcell : ∀ d, w.cell d = s.cell d := fun d => by
        rw [State.cell, hw.cells]
        rfl
      clear_value w
      split
      · exact ⟨(SelFrame.updOct s _).trans hf, fun d => by rw [hcell]; exact ⟨rfl, rfl⟩, _, ho⟩
      · refine ⟨((SelFrame.updOct s _).trans hf).trans (.updCell ..), fun d => ?_, _, ho⟩
        rw [State.cell_updCell]
        split
        · rename_i hd
          rw [hcell, hd]
          exact ⟨rfl, rfl⟩
        · rw [hcell]
          exact ⟨rfl, rfl⟩

/-- The commit of a selection: the octad and its cells as its plan decides. -/
theorem State.selectFrame_spec (s : State) (n : Nat) :
    ∃ t, t = s.selectFrame n ∧ SelFrame n s t ∧ (t.oct n).selRunning = false ∧ (t.oct n).selDone = some (s.oct n).selFrame
      ∧ (t.oct n).nins = (s.oct n).plan.nins ∧ (t.oct n).levelF = (s.oct n).plan.f ∧ (t.oct n).addSW = (s.oct n).plan.swaps
      ∧ (t.oct n).addTR = (s.oct n).plan.ins.length + (s.oct n).plan.byp.length
      ∧ (∀ c, (t.cell c).ins = if c ∈ (s.oct n).plan.byp then false else if c ∈ (s.oct n).plan.ins then true
          else if c ∈ (s.oct n).plan.leaving then false else (s.cell c).ins)
      ∧ ((s.oct n).tcDone = true → ∀ c, (t.cell c).tc = (s.cell c).tc) := by
  refine ⟨_, rfl, ?_⟩
  unfold State.selectFrame
  extract_lets p u lk ex v w x y z q
  have hu : SelFrame n s u ∧ (∀ c, (u.cell c).ins = (s.cell c).ins) ∧ (u.oct n).selFrame = (s.oct n).selFrame
      ∧ ((s.oct n).tcDone = true → u = s) := by
    dsimp only [u]
    split
    · exact ⟨.refl s, fun _ => rfl, rfl, fun _ => rfl⟩
    · obtain ⟨h1, h2, h3⟩ := s.commitTc_spec n
      exact ⟨h1, h2, by rw [h3], fun h => absurd h ‹_›⟩
  obtain ⟨u1, u2, u3, u4⟩ := hu
  have v1 : SelFrame n u v := .mapOctCells ..
  have v2 : ∀ c, (v.cell c).ins = (u.cell c).ins := State.cell_mapOctCells_kept Cell.ins u n fun _ => rfl
  have v3 : ∀ c, (v.cell c).tc = (u.cell c).tc := State.cell_mapOctCells_kept Cell.tc u n fun _ => rfl
  have v4 : v.octs = u.octs := rfl
  clear_value v u
  have w1 : SelFrame n v w := .foldl (fun _ _ => .updCell ..) _ _
  have w2 : ∀ c, (w.cell c).ins = if c ∈ p.leaving then false else (v.cell c).ins :=
    State.cell_foldl_set Cell.ins false (fun c x => if p.perms.contains c then { x with ins := false } else
        { x with ins := false, cmd := .bypass lk })
      (fun _ _ => by split <;> rfl) p.leaving v
  have w3 : ∀ c, (w.cell c).tc = (v.cell c).tc :=
    State.cell_foldl_kept Cell.tc (fun c x => if p.perms.contains c then { x with ins := false } else { x with ins := false, cmd := .bypass lk })
      (fun _ _ => by split <;> rfl) p.leaving v
  have w4 : w.octs = v.octs := State.octs_foldl_updCell
    (fun c x => if p.perms.contains c then { x with ins := false } else { x with ins := false, cmd := .bypass lk }) p.leaving v
  clear_value w
  have x1 : SelFrame n w x := .foldl (fun _ _ => .updCell ..) _ _
  have x2 : ∀ c, (x.cell c).ins = (w.cell c).ins := State.cell_foldl_kept Cell.ins (fun _ x => { x with cmd := .permBypass lk })
      (fun _ _ => rfl) p.perms w
  have x3 : ∀ c, (x.cell c).tc = (w.cell c).tc := State.cell_foldl_kept Cell.tc (fun _ x => { x with cmd := .permBypass lk })
      (fun _ _ => rfl) p.perms w
  have x4 : x.octs = w.octs := State.octs_foldl_updCell (fun _ x => { x with cmd := .permBypass lk }) p.perms w
  clear_value x
  have y1 : SelFrame n x y := .foldl (fun _ _ => .updCell ..) _ _
  have y2 : ∀ c, (y.cell c).ins = if c ∈ p.ins then true else (x.cell c).ins :=
    State.cell_foldl_set Cell.ins true (fun _ x => { x with ins := true, cmd := .insert lk }) (fun _ _ => rfl) p.ins x
  have y3 : ∀ c, (y.cell c).tc = (x.cell c).tc :=
    State.cell_foldl_kept Cell.tc (fun _ x => { x with ins := true, cmd := .insert lk }) (fun _ _ => rfl) p.ins x
  have y4 : y.octs = x.octs := State.octs_foldl_updCell (fun _ x => { x with ins := true, cmd := .insert lk }) p.ins x
  clear_value y
  have z1 : SelFrame n y z := .foldl (fun _ _ => .updCell ..) _ _
  have z2 : ∀ c, (z.cell c).ins = if c ∈ p.byp then false else (y.cell c).ins :=
    State.cell_foldl_set Cell.ins false (fun _ x => { x with ins := false, cmd := .bypass lk }) (fun _ _ => rfl) p.byp y
  have z3 : ∀ c, (z.cell c).tc = (y.cell c).tc :=
    State.cell_foldl_kept Cell.tc (fun _ x => { x with ins := false, cmd := .bypass lk }) (fun _ _ => rfl) p.byp y
  have z4 : z.octs = y.octs := State.octs_foldl_updCell (fun _ x => { x with ins := false, cmd := .bypass lk }) p.byp y
  clear_value z
  obtain ⟨q1, q2, r, q3⟩ := z.trimStep_spec n p
  have hq : z.trimStep n p = q := rfl
  rw [hq] at q1 q2 q3
  clear_value q
  have hoct : z.oct n = u.oct n := by rw [State.oct, z4, y4, x4, w4, v4, State.oct]
  have hframe := (((((u1.trans v1).trans w1).trans x1).trans y1).trans z1).trans q1
  refine ⟨hframe.trans (.updOct q _), ?_, ?_, ?_, ?_, ?_, ?_, fun c => ?_, fun hd c => ?_⟩
  · rw [State.oct_updOct_same]
  · rw [State.oct_updOct_same, q3, hoct]
    exact congrArg some u3
  · rw [State.oct_updOct_same]
  · rw [State.oct_updOct_same]
  · rw [State.oct_updOct_same]
  · rw [State.oct_updOct_same]
  · show (q.cell c).ins = _
    rw [(q2 c).1, z2, y2, x2, w2, v2, u2]
  · show (q.cell c).tc = _
    rw [(q2 c).2, z3, y3, x3, w3, v3, u4 hd]

/-- Settles O37: in time the selection's plan is committed; the watchdog is a raise. -/
theorem selectionCommitsOrIsLeft : Obligations.SelectionCommitsOrIsLeft := by
  unfold Obligations.SelectionCommitsOrIsLeft
  refine ⟨fun n s hr hw hi hc => ?_, fun n s hr hw hi hc => ?_, fun n s hr hw hs hc => ?_⟩
  · have hexec : exec (.selectionComplete n) s = .next (s.selectFrame n) := by
      simp only [exec, execSelectionComplete, hr, hw, hi, hc, Bool.not_true, Bool.or_self, Bool.false_eq_true, if_false, if_true]
    obtain ⟨t, ht, hf, h1, h2, h3, h4, h5, h6, h7, h8⟩ := s.selectFrame_spec n
    refine ⟨t, by rw [hexec, ht], h1, h2, h3, h4, h5, h6, fun c _ hb => ?_, fun c _ hi hb => ?_, fun c _ hi hb hl => ?_, h8, hf.other, hf.rest⟩
    · rw [h7, if_pos hb]
    · rw [h7, if_neg hb, if_pos hi]
    · rw [h7, if_neg hb, if_neg hi, if_neg hl]
  · simp only [exec, execSelectionComplete, hr, hw, hi, hc, Bool.not_true, Bool.or_self, Bool.false_eq_true, if_false]
    rfl
  · generalize hu : (s.updOct n fun o => { o with selReset := true }) = u
    have hexec : exec (.selWdog n) s = .next ((u.raise 0x2302 n (leBytes 2 0xFFFF)).openWindow (.wdog n) u.flt.nextId 0x2302 n
        (some u.now)) := by
      simp only [exec, execSelWdog, hr, hw, hs, hc, Bool.not_true, Bool.or_self, Bool.false_eq_true, if_false, hu]
    have hraise := u.raise_frame 0x2302 n (leBytes 2 0xFFFF)
    generalize u.raise 0x2302 n (leBytes 2 0xFFFF) = v at hexec hraise
    refine ⟨_, hexec, ?_, ⟨_, List.mem_append_right _ (List.mem_singleton_self _), rfl, rfl, rfl⟩, ?_⟩
    · have h1 : (v.oct n).selReset = (u.oct n).selReset := (congrArg Octad.selReset (hraise.oct n) :)
      show (v.oct n).selReset = true
      rw [h1, ← hu, State.oct_updOct_same]
    · have := hraise.trans (RaiseFrame.openWindow v (.wdog n) u.flt.nextId 0x2302 n (some u.now))
      rw [← hu] at this ⊢
      exact this

end Sys2Proof.Machine
end
section
/-! SUPPORT. Ledger windows: their end, their arithmetic, the saved copy (R93 to R99). -/

namespace Sys2Proof.Machine

/-! ### The end of a window -/

theorem State.mapOctCells_other (s : State) {n c : Nat} (h : c / 512 ≠ n) (f : Cell → Cell) : (s.mapOctCells n f).cell c = s.cell c :=
  (Tab.get_mapAll s.cells (fun i d => if i / 512 = n then f d else d) c (if_neg h)).trans (if_neg h)

/-- The end of a full window. -/
theorem State.ledgerWindowEnd_spec {s : State} {n : Nat} (h0 : (s.oct n).window ≠ 0) (hw : (s.oct n).winW ≤ (s.oct n).window) (hc : s.canonical) :
    ((s.ledgerWindowEnd n).oct n).window = 0 ∧ ((s.ledgerWindowEnd n).oct n).arithPending = true
      ∧ ((s.ledgerWindowEnd n).reg (octBase n + 0x2418)).toNat = min ((s.reg (octBase n + 0x2418)).toNat + 1) (2 ^ 32 - 1)
      ∧ (∀ c ∈ s.octCells n, (s.cell c).retL = false →
          (s.ledgerWindowEnd n).cell c = { s.cell c with
            endNq := (s.cell c).nq, endTc := (s.cell c).tc, sqv := 0, svv := 0, nq := 0,
            endValid := decide ((s.oct n).winNqmin ≤ (s.cell c).nq) && decide (0 < (s.cell c).sqv),
            endHat := if (decide ((s.oct n).winNqmin ≤ (s.cell c).nq) && decide (0 < (s.cell c).sqv)) = true then
              BitVec.ofNat 32 (capEstimate (s.cell c).sqv (s.cell c).svv (s.vFull n) (s.iFull n)) else 0,
            lowEx := if (decide ((s.oct n).winNqmin ≤ (s.cell c).nq) && decide (0 < (s.cell c).sqv)) = true then (s.cell c).lowEx
              else satAdd 16 (s.cell c).lowEx 1 })
      ∧ (∀ c, c / 512 ≠ n → (s.ledgerWindowEnd n).cell c = s.cell c) ∧ (∀ m, m ≠ n → (s.ledgerWindowEnd n).oct m = s.oct m)
      ∧ s.ledgerWindowEnd n = { s with
          cells := (s.ledgerWindowEnd n).cells, octs := (s.ledgerWindowEnd n).octs, regs := (s.ledgerWindowEnd n).regs } := by
  unfold State.ledgerWindowEnd
  rw [if_neg (by omega)]
  extract_lets vf ifl u a v
  refine ⟨?_, ?_, ?_, fun c hm hl => ?_, fun c hm => s.mapOctCells_other hm _, fun m hm => Tab.get_upd_ne _ hm _, rfl⟩
  · rw [State.oct_updOct_same]
  · rw [State.oct_updOct_same]
  · have hr : (u.setReg a (BitVec.ofNat 32 (satAdd 32 (u.reg a).toNat 1))).reg a = BitVec.ofNat 32 (satAdd 32 (u.reg a).toNat 1) :=
      State.reg_setReg_same hc.1 ..
    show ((u.setReg a (BitVec.ofNat 32 (satAdd 32 (u.reg a).toNat 1))).reg a).toNat = min ((u.reg a).toNat + 1) (2 ^ 32 - 1)
    rw [hr, BitVec.toNat_ofNat, satAdd]
    omega
  · obtain ⟨rfl, hcell⟩ := State.mem_octCells.mp hm
    exact (State.mapOctCells_cell hcell _).trans (if_neg (by rw [hl]; decide))

/-! ### The arithmetic -/

theorem State.cell_updCell_kept {β : Type} (π : Cell → β) (s : State) (k : Nat) {f : Cell → Cell} (hf : ∀ x, π (f x) = π x) (c : Nat) :
    π ((s.updCell k f).cell c) = π (s.cell c) := by
  rw [State.cell_updCell]
  split
  · rename_i h
    rw [hf, h]
  · rfl

/-- What the arithmetic of one cell leaves of the others, and what a raise leaves of every cell. -/
structure LedgerFrame (s t : State) : Prop where
  smooth : ∀ c, (t.cell c).smooth = (s.cell c).smooth
  ended : ∀ c, (t.cell c).endValid = (s.cell c).endValid ∧ (t.cell c).endHat = (s.cell c).endHat
  c0 : ∀ c, (t.cell c).c0 = (s.cell c).c0 ∧ (t.cell c).v = (s.cell c).v
  retired : ∀ c, (s.cell c).retired = true → (t.cell c).retired = true
  arith : ∀ n, (t.oct n).arithPending = (s.oct n).arithPending

namespace LedgerFrame
variable {s t u : State}

theorem refl (s : State) : LedgerFrame s s := ⟨fun _ => rfl, fun _ => ⟨rfl, rfl⟩, fun _ => ⟨rfl, rfl⟩, fun _ => id, fun _ => rfl⟩

theorem trans (h : LedgerFrame s t) (k : LedgerFrame t u) : LedgerFrame s u :=
  ⟨fun c => (k.smooth c).trans (h.smooth c), fun c => ⟨(k.ended c).1.trans (h.ended c).1, (k.ended c).2.trans (h.ended c).2⟩,
   fun c => ⟨(k.c0 c).1.trans (h.c0 c).1, (k.c0 c).2.trans (h.c0 c).2⟩, fun c hc => k.retired c (h.retired c hc),
   fun n => (k.arith n).trans (h.arith n)⟩

theorem ite {a b : State} {p : Prop} [Decidable p] (ha : LedgerFrame s a) (hb : LedgerFrame s b) : LedgerFrame s (if p then a else b) := by
  split <;> assumption

theorem foldl {α : Type} {f : State → α → State} (h : ∀ u a, LedgerFrame u (f u a)) (l : List α) (s : State) : LedgerFrame s (l.foldl f s) := by
  induction l generalizing s with
  | nil => exact refl s
  | cons a l ih => exact (h s a).trans (ih _)

/-- Where the cells and the octads stay. -/
theorem of_parts (hc : t.cells = s.cells) (ho : t.octs = s.octs) : LedgerFrame s t := by
  have h : ∀ c, t.cell c = s.cell c := fun c => by rw [State.cell, State.cell, hc]
  exact ⟨fun c => by rw [h], fun c => by rw [h]; exact ⟨rfl, rfl⟩, fun c => by rw [h]; exact ⟨rfl, rfl⟩, fun c => by rw [h]; exact id,
    fun n => by rw [State.oct, State.oct, ho]⟩

theorem of_raise (h : RaiseFrame s t) : LedgerFrame s t :=
  ⟨fun c => (congrArg Cell.smooth (h.cell c) :), fun c => ⟨(congrArg Cell.endValid (h.cell c) :), (congrArg Cell.endHat (h.cell c) :)⟩,
   fun c => ⟨(congrArg Cell.c0 (h.cell c) :), (congrArg Cell.v (h.cell c) :)⟩, h.retired, fun n => (congrArg Octad.arithPending (h.oct n) :)⟩

theorem count (s : State) (a k : Nat) : LedgerFrame s (s.count a k) := by
  obtain ⟨f, hf⟩ := State.count_acts a k
  rw [hf]
  exact of_parts rfl rfl

theorem updOct (s : State) (n : Nat) {f : Octad → Octad} (hf : ∀ o, (f o).arithPending = o.arithPending) : LedgerFrame s (s.updOct n f) :=
  ⟨fun _ => rfl, fun _ => ⟨rfl, rfl⟩, fun _ => ⟨rfl, rfl⟩, fun _ => id, fun m => by
    by_cases h : m = n
    · rw [h, State.oct_updOct_same, hf]
    · exact congrArg _ (Tab.get_upd_ne _ h _)⟩

/-- An update of one cell that leaves its estimate. -/
theorem updCell (s : State) (k : Nat) {f : Cell → Cell}
    (hf : ∀ x, ((f x).smooth, (f x).endValid, (f x).endHat, (f x).c0, (f x).v, (f x).retired)
      = (x.smooth, x.endValid, x.endHat, x.c0, x.v, x.retired)) : LedgerFrame s (s.updCell k f) := by
  have h := State.cell_updCell_kept (fun x : Cell => (x.smooth, x.endValid, x.endHat, x.c0, x.v, x.retired)) s k hf
  simp only [Prod.mk.injEq] at h
  exact ⟨fun c => (h c).1, fun c => ⟨(h c).2.1, (h c).2.2.1⟩, fun c => ⟨(h c).2.2.2.1, (h c).2.2.2.2.1⟩,
    fun c hc => (h c).2.2.2.2.2 ▸ hc, fun _ => rfl⟩

theorem healthCheck (s : State) (n c : Nat) : LedgerFrame s (s.healthCheck n c) := by
  have hraise {u v : State} (b : Bool) (code : Nat) (h : LedgerFrame u v) : LedgerFrame u (if b = true then v.raise code c [] else v) :=
    .ite (h.trans (of_raise (v.raise_frame ..))) h
  unfold State.healthCheck
  dsimp only
  split
  · exact refl s
  · exact .ite (refl s) (hraise _ _ (hraise _ _ (hraise _ _ (hraise _ _ (updCell s c fun _ => rfl)))))

theorem overtakeSnapshot (s : State) (n : Nat) : LedgerFrame s (s.overtakeSnapshot n) := by
  unfold State.overtakeSnapshot
  exact .ite (count ..) (refl s)

theorem capture (s : State) (r k : Nat) (b : List Byte) : LedgerFrame s (s.capture r k b).1 :=
  .of_parts (by rw [(CaptureFrame.capture s r k b).rest]) (by rw [(CaptureFrame.capture s r k b).rest])

theorem requestSnapshot (s : State) (n : Nat) : LedgerFrame s (s.requestSnapshot n) := by
  unfold State.requestSnapshot
  refine .ite (.updOct s n fun _ => rfl) ?_
  unfold State.writeSnapshot
  dsimp only
  exact (updOct s n (f := fun o => { o with snapReq := false }) fun _ => rfl).trans (foldl (fun u c => .ite (capture ..) (count ..)) _ _)

end LedgerFrame

/-- R95, R97 for one cell. -/
def State.cellArithmetic (n : Nat) (seq : Word) (s : State) (c : Nat) : State :=
  if (s.cell c).retired then s
  else
    let valid := (s.cell c).endValid
    let s := s.updCell c fun x => { x with
      winNq := x.endNq, winTc := x.endTc, winValid := valid, hat := x.endHat, winSeq := seq,
      smooth := if valid then some (smoothStep x.smooth x.endHat) else x.smooth,
      validWins := if !valid then x.validWins else if x.smooth.isSome then x.validWins + 1 else 0 }
    if valid then s.healthCheck n c else s

/-- What the arithmetic of the cells of a list makes of the smoothed values. -/
structure Smoothed (l : List Nat) (s t : State) : Prop where
  rest : ∀ c, c ∉ l → (t.cell c).smooth = (s.cell c).smooth
  invalid : ∀ c, (s.cell c).endValid = false → (t.cell c).smooth = (s.cell c).smooth
  done : ∀ c ∈ l, (s.cell c).endValid = true → (s.cell c).retired = false →
    (t.cell c).smooth = some (smoothStep (s.cell c).smooth (s.cell c).endHat) ∨ ((t.cell c).retired = true ∧ (t.cell c).smooth = (s.cell c).smooth)
  out : ∀ c, (s.cell c).retired = true → (t.cell c).smooth = (s.cell c).smooth
  ended : ∀ c, (t.cell c).endValid = (s.cell c).endValid ∧ (t.cell c).endHat = (s.cell c).endHat
  c0 : ∀ c, (t.cell c).c0 = (s.cell c).c0 ∧ (t.cell c).v = (s.cell c).v
  retired : ∀ c, (s.cell c).retired = true → (t.cell c).retired = true
  arith : ∀ n, (t.oct n).arithPending = (s.oct n).arithPending

/-- One cell's arithmetic. -/
theorem Smoothed.one (n : Nat) (seq : Word) (s : State) (c : Nat) : Smoothed [c] s (s.cellArithmetic n seq c) := by
  unfold State.cellArithmetic
  split
  · rename_i hr
    exact ⟨fun _ _ => rfl, fun _ _ => rfl, fun d hd _ hn => (by rw [List.mem_singleton] at hd; rw [hd, hr] at hn; cases hn),
      fun _ _ => rfl, fun _ => ⟨rfl, rfl⟩, fun _ => ⟨rfl, rfl⟩, fun _ => id, fun _ => rfl⟩
  · extract_lets valid u
    have hu : Smoothed [c] s u := by
      have hcell : ∀ d, u.cell d = if d = c then { s.cell c with
          winNq := (s.cell c).endNq, winTc := (s.cell c).endTc, winValid := valid, hat := (s.cell c).endHat, winSeq := seq,
          smooth := if valid then some (smoothStep (s.cell c).smooth (s.cell c).endHat) else (s.cell c).smooth,
          validWins := if !valid then (s.cell c).validWins else if (s.cell c).smooth.isSome then (s.cell c).validWins + 1 else 0 } else s.cell d :=
        fun d => s.cell_updCell ..
      have hkept := State.cell_updCell_kept (fun x : Cell => (x.endValid, x.endHat, x.c0, x.v, x.retired)) s c (f := fun x => { x with
        winNq := x.endNq, winTc := x.endTc, winValid := valid, hat := x.endHat, winSeq := seq,
        smooth := if valid then some (smoothStep x.smooth x.endHat) else x.smooth,
        validWins := if !valid then x.validWins else if x.smooth.isSome then x.validWins + 1 else 0 }) fun _ => rfl
      simp only [Prod.mk.injEq] at hkept
      refine ⟨fun d hd => ?_, fun d hd => ?_, fun d hd hv _ => ?_, fun d hd => ?_, fun d => ⟨(hkept d).1, (hkept d).2.1⟩,
        fun d => ⟨(hkept d).2.2.1, (hkept d).2.2.2.1⟩, fun d hd => (hkept d).2.2.2.2.trans hd, fun _ => rfl⟩
      · rw [hcell, if_neg (by simpa using hd)]
      · rw [hcell]
        split
        · rename_i e
          subst e
          simp only [valid, hd, Bool.false_eq_true, if_false]
        · rfl
      · rw [List.mem_singleton] at hd
        subst hd
        left
        rw [hcell, if_pos rfl]
        simp only [valid, hv, if_true]
      · rw [hcell, if_neg]
        rintro rfl
        contradiction
    clear_value u
    split
    · have hk := LedgerFrame.healthCheck u n c
      exact ⟨fun d hd => (hk.smooth d).trans (hu.rest d hd), fun d hd => (hk.smooth d).trans (hu.invalid d hd),
        fun d hd hv hn => (hu.done d hd hv hn).imp (fun h => (hk.smooth d).trans h) fun h => ⟨hk.retired d h.1, (hk.smooth d).trans h.2⟩,
        fun d hd => (hk.smooth d).trans (hu.out d hd),
        fun d => ⟨(hk.ended d).1.trans (hu.ended d).1, (hk.ended d).2.trans (hu.ended d).2⟩,
        fun d => ⟨(hk.c0 d).1.trans (hu.c0 d).1, (hk.c0 d).2.trans (hu.c0 d).2⟩, fun d hd => hk.retired d (hu.retired d hd),
        fun m => (hk.arith m).trans (hu.arith m)⟩
    · exact hu

/-- What went before and left the cells' estimates. -/
theorem Smoothed.after {l : List Nat} {s t u : State} (h : Smoothed l t u) (hf : LedgerFrame s t)
    (hr : ∀ c, (t.cell c).retired = (s.cell c).retired) :
    Smoothed l s u :=
  ⟨fun c hc => (h.rest c hc).trans (hf.smooth c), fun c hc => (h.invalid c ((hf.ended c).1.trans hc)).trans (hf.smooth c),
   fun c hc hv hn => by
    have := h.done c hc ((hf.ended c).1.trans hv) ((hr c).trans hn)
    rwa [hf.smooth c, (hf.ended c).2] at this,
   fun c hc => (h.out c (hf.retired c hc)).trans (hf.smooth c),
   fun c => ⟨(h.ended c).1.trans (hf.ended c).1, (h.ended c).2.trans (hf.ended c).2⟩,
   fun c => ⟨(h.c0 c).1.trans (hf.c0 c).1, (h.c0 c).2.trans (hf.c0 c).2⟩, fun c hc => h.retired c (hf.retired c hc),
   fun m => (h.arith m).trans (hf.arith m)⟩

theorem Smoothed.foldl (n : Nat) (seq : Word) {l : List Nat} (hl : l.Nodup) (s : State) : Smoothed l s (l.foldl (State.cellArithmetic n seq) s) := by
  induction l generalizing s with
  | nil =>
    exact ⟨fun _ _ => rfl, fun _ _ => rfl, fun _ h => absurd h (by simp), fun _ _ => rfl, fun _ => ⟨rfl, rfl⟩, fun _ => ⟨rfl, rfl⟩, fun _ => id,
        fun _ => rfl⟩
  | cons c l ih =>
    obtain ⟨hc, hl⟩ := List.nodup_cons.mp hl
    have h1 := Smoothed.one n seq s c
    have h2 := ih hl (s.cellArithmetic n seq c)
    rw [List.foldl_cons]
    generalize State.cellArithmetic n seq s c = u at h1 h2
    generalize l.foldl (State.cellArithmetic n seq) u = t at h2
    refine ⟨fun d hd => ?_, fun d hd => ?_, fun d hd hv hn => ?_, fun d hd => (h2.out d (h1.retired d hd)).trans (h1.out d hd),
      fun d => ⟨(h2.ended d).1.trans (h1.ended d).1, (h2.ended d).2.trans (h1.ended d).2⟩,
      fun d => ⟨(h2.c0 d).1.trans (h1.c0 d).1, (h2.c0 d).2.trans (h1.c0 d).2⟩, fun d hd => h2.retired d (h1.retired d hd),
      fun m => (h2.arith m).trans (h1.arith m)⟩
    · rw [List.mem_cons, not_or] at hd
      rw [h2.rest d hd.2, h1.rest d (by simpa using hd.1)]
    · rw [h2.invalid d ((h1.ended d).1.trans hd), h1.invalid d hd]
    · rcases List.mem_cons.mp hd with rfl | hd
      · rw [h2.rest d hc]
        exact (h1.done d (List.mem_singleton_self d) hv hn).imp_right fun h => ⟨h2.retired d h.1, h.2⟩
      · have hne : d ∉ [c] := fun h => hc (List.mem_singleton.mp h ▸ hd)
        cases hr : (u.cell d).retired with
        | true => exact .inr ⟨h2.retired d hr, (h2.out d hr).trans (h1.rest d hne)⟩
        | false =>
          have := h2.done d hd ((h1.ended d).1.trans hv) hr
          rw [(h1.ended d).2, h1.rest d hne] at this
          exact this

theorem State.ledgerArithmetic_spec (s : State) (n : Nat) {l : List Nat} (hl : s.octCells n = l) (hd : l.Nodup) :
    ∃ u, Smoothed l (s.updOct n fun o => { o with arithPending := false }) u ∧ LedgerFrame u (s.ledgerArithmetic n) := by
  unfold State.ledgerArithmetic
  extract_lets u seq v
  have hu : LedgerFrame (s.updOct n fun o => { o with arithPending := false }) u := .overtakeSnapshot ..
  have hsame : u.cells = s.cells := by
    dsimp only [u]
    unfold State.overtakeSnapshot
    split
    · obtain ⟨f, hf⟩ := State.count_acts (octBase n + 0x241C) 1
      rw [hf]
      rfl
    · rfl
  have hcells : u.octCells n = l := by rw [← hl, State.octCells, State.octCells, hsame]
  have hv : Smoothed l u v := by
    have : v = l.foldl (State.cellArithmetic n seq) u := by
      rw [← hcells]
      rfl
    rw [this]
    exact .foldl n seq hd u
  clear_value u v
  refine ⟨v, hv.after hu fun c => by rw [State.cell, hsame]; rfl, .ite (.requestSnapshot ..) (.refl v)⟩

/-! ### The saved copy -/

/-- What a write of a partition does to the list of writes. -/
theorem State.writePart_writes (s : State) (p : Part) (g : Nat) (content : List Byte) :
    ∃ l, s.writePart p g content = { s with bel := { s.bel with writes := l } } ∧ (∃ w ∈ l, w.part = p) ∧ ∀ w ∈ s.bel.writes, w.part ≠ p → w ∈ l := by
  obtain ⟨w, hw, hp, -⟩ := s.writePart_write p g content
  refine ⟨_, ?_, ⟨w, hw, hp⟩, fun w hw hn => ?_⟩
  · unfold State.writePart
    dsimp only
    split <;> rfl
  · unfold State.writePart
    dsimp only
    split
    · exact List.mem_map.mpr ⟨w, hw, if_neg hn⟩
    · exact List.mem_append_left _ hw

/-- Settles O38: the window's end by cell, the arithmetic cell by cell, the save of CSAVE. -/
theorem ledgerWindowsEstimateAndSave : Obligations.LedgerWindowsEstimateAndSave := by
  unfold Obligations.LedgerWindowsEstimateAndSave
  refine ⟨fun n s h0 hw hc => ?_, fun n k e rest s hp hf hl hd hn => ?_, fun s hd hh he ha => ?_⟩
  · obtain ⟨h1, h2, h3, h4, h5, h6, h7⟩ := s.ledgerWindowEnd_spec h0 hw hc
    refine ⟨_, rfl, h1, h2, h3, fun c hm hr => ?_, h5, h6, h7⟩
    rw [h4 c hm hr]
    exact ⟨rfl, rfl, rfl, rfl, rfl, fun hv => if_pos hv⟩
  · have hexec : exec (.ledgerArithmeticComplete n) s = .next (s.ledgerArithmetic n) := by
      simp only [exec, execLedgerArithmeticComplete, hp, hl, State.whenDue, if_pos hd]
      rw [if_neg (by simpa using hf)]
    obtain ⟨u, hu, ht⟩ := s.ledgerArithmetic_spec n rfl hn
    have harith : ((s.updOct n fun o => { o with arithPending := false }).oct n).arithPending = false := by rw [State.oct_updOct_same]
    refine ⟨_, hexec, (ht.arith n).trans ((hu.arith n).trans harith), fun c hm hv hr => ?_, fun c hv => (ht.smooth c).trans (hu.invalid c hv),
      fun c => ⟨(ht.c0 c).1.trans (hu.c0 c).1, (ht.c0 c).2.trans (hu.c0 c).2⟩⟩
    exact (hu.done c hm hv hr).imp (fun h => (ht.smooth c).trans h) fun h => ⟨ht.retired c h.1, (ht.smooth c).trans h.2⟩
  · obtain ⟨l, hs, ⟨w, hw, hp⟩, hk⟩ := s.writePart_writes .csave (s.bel.nextGen .csave) []
    have hexec : exec .csaveSave s = .next { s with bel := { s.bel with writes := l, csaveAt := s.now } } := by
      simp only [exec, execCsaveSave, State.whenDue, if_pos hd, hh, he, ha, Bool.not_true, Bool.or_self, Bool.false_eq_true, if_false,
        State.saveTable, hs]
    refine ⟨_, hexec, ⟨w, hw, hp, ?_⟩, hk, rfl⟩
    unfold State.partBytes
    rw [hp]
    rfl

end Sys2Proof.Machine
end
section
/-! SUPPORT. A late selection in a state without a base frame and without a hop point. -/

namespace Sys2Proof.Machine

/-- Octad 7 running, a Deblock armed for frame 17, whose selection is late at T_D; T_F is zero, so that no edge lies in its level window, and the
point that the core PLL runs at is none of the eight: its multiplier is read from the word that counts the entries refused on lane pair 63. -/
def lateWithoutPoint : State :=
  { State.reset with
    tick := 81000000000
    fr := { State.reset.fr with tf := 0 }
    clk := { State.reset.clk with bypassCore := none, point := 0x161E20 }
    octs := State.reset.octs.set 7 { Octad.init with
      state := .running, toSend := [(17, 0)], selRunning := true, selFrame := 17, deb := .armed .running 17 }
    lanes := State.reset.lanes.set 126 { Lane.init with serving := true, state := .active }
    cells := State.reset.cells.set 4095 { Cell.init with populated := true }
    regs := [(tileBase 63 + 0x110, 1), (tileBase 63 + 0x114, 1)] }

/-- Whether the next state says that the selection's cycles ran slowly. -/
def nextSlow : Host.Outcome State Fault Refusal → Bool
  | .next t => (t.oct 7).selSlow
  | _ => false

/-- The refused entry of cell 4095 is counted, which doubles the multiplier: at the watchdog of the dispatch the 400 cycles count as run. -/
theorem lateWithoutPoint_dispatch : nextSlow (exec (.commandDispatch 7) lateWithoutPoint) = false := by decide +kernel

/-- Refutes O39: its late clause reads the cycles run in the state before the dispatch. The dispatch may change the registers that give the core
period, where T_F is zero and the point that the core PLL runs at is none of its eight; the clause excludes neither. -/
theorem not_dispatchSendsEveryHubItsFrame : ¬ Obligations.DispatchSendsEveryHubItsFrame := by
  unfold Obligations.DispatchSendsEveryHubItsFrame
  rintro ⟨-, -, hLate, -⟩
  obtain ⟨t, hexec, -, -, -, -, -, hslow⟩ := hLate 7 17 0 [] lateWithoutPoint (by decide +kernel) (by decide +kernel) (by decide +kernel)
    (by decide +kernel) (by decide +kernel) (by decide +kernel) (by decide +kernel)
  have hnext : (t.oct 7).selSlow = false := (congrArg nextSlow hexec).symm.trans lateWithoutPoint_dispatch
  have hran : (!(lateWithoutPoint.oct 7).selReset && !lateWithoutPoint.coreRan (lateWithoutPoint.oct 7).selAt lateWithoutPoint.now 400) = true := by
    decide +kernel
  exact absurd (hnext.symm.trans (hslow.trans hran)) (by decide)

end Sys2Proof.Machine
end
section
/-! SUPPORT. Frames a lane receives: feedback, captures, enumerations (R181, R183, R190, R196, R204, R207). -/

namespace Sys2Proof.Machine

/-! ### The CRC of a frame that the device makes -/

theorem leNat_append (l m : List Byte) : leNat (l ++ m) = leNat l + 256 ^ l.length * leNat m := by
  induction l with
  | nil => simp [leNat]
  | cons b l ih =>
    rw [List.cons_append, leNat, leNat, ih, List.length_cons, pow_succ]
    ring

theorem leNat_leBytes (n v : Nat) : leNat (leBytes n v) = v % 256 ^ n := by
  induction n generalizing v with
  | zero => simp [leBytes, leNat, Nat.mod_one]
  | succ n ih =>
    rw [leBytes, leNat, ih, BitVec.toNat_ofNat, pow_succ' 256 n]
    exact Nat.mod_mul.symm

theorem length_leBytes (n v : Nat) : (leBytes n v).length = n := by
  induction n generalizing v with
  | zero => rfl
  | succ n ih => rw [leBytes, List.length_cons, ih]

theorem leNat_lt (l : List Byte) : leNat l < 256 ^ l.length := by
  induction l with
  | nil => exact Nat.one_pos
  | cons b l ih =>
    have := b.isLt
    rw [leNat, List.length_cons, pow_succ]
    omega

/-- The upper half of an eight-byte block. -/
theorem blockOf_upper (l : List Byte) (hl : l.length = 4) (v : Nat) : (blockOf (l ++ leBytes 4 v)).toNat / 2 ^ 32 = v % 2 ^ 32 := by
  have hlen : (l ++ leBytes 4 v).length = 8 := by rw [List.length_append, hl, length_leBytes]
  have htake : (l ++ leBytes 4 v ++ List.replicate 8 0).take 8 = l ++ leBytes 4 v := by
    rw [List.take_append_of_le_length hlen.ge, List.take_of_length_le hlen.le]
  have hlow := leNat_lt l
  rw [hl] at hlow
  rw [blockOf, htake, leNat_append, leNat_leBytes, hl, BitVec.toNat_ofNat]
  omega

theorem frameCrcOk_mkFrame (k c q : Nat) (a : Bool) (tag : Word) (d : List Block) : frameCrcOk (mkFrame k c q a tag d) = true := by
  unfold frameCrcOk mkFrame
  dsimp only
  rw [blockOf_upper _ rfl, Nat.mod_eq_of_lt (BitVec.isLt _), BitVec.ofNat_toNat, BitVec.setWidth_eq]
  exact beq_self_eq_true _

/-! ### What a fence leaves: the lanes among others -/

/-- A step of a fence. -/
structure FencePart (s t : State) : Prop where
  rest : t = { s with octs := t.octs, cells := t.cells, engs := t.engs, dpws := t.dpws, modeReq := t.modeReq, sys := t.sys, out := t.out,
                      regs := t.regs, hotAt := t.hotAt, hot := t.hot }

namespace FencePart
variable {s t u : State}

theorem refl (s : State) : FencePart s s := ⟨rfl⟩
theorem trans (h : FencePart s t) (k : FencePart t u) : FencePart s u := ⟨by rw [k.rest, h.rest]⟩

theorem ite {c : Prop} [Decidable c] {a b : State} (ha : FencePart s a) (hb : FencePart s b) : FencePart s (if c then a else b) := by
  split
  · exact ha
  · exact hb

theorem emit (s : State) (o : Output) : FencePart s (s.emit o) := ⟨rfl⟩
theorem flag (s : State) (a i : Nat) : FencePart s (s.flag a i) := ⟨rfl⟩
theorem updOct (s : State) (n : Nat) (f : Octad → Octad) : FencePart s (s.updOct n f) := ⟨rfl⟩
theorem mapOctCells (s : State) (n : Nat) (f : Cell → Cell) : FencePart s (s.mapOctCells n f) := ⟨rfl⟩

theorem forNat {f : Nat → State → State} (h : ∀ i s, FencePart s (f i s)) (n : Nat) (s : State) : FencePart s (Machine.forNat n f s) :=
  forNat_induct (P := FencePart s) (fun i _ hu => hu.trans (h i _)) n (refl s)

theorem immediateBlock (s : State) (n : Nat) : FencePart s (s.immediateBlock n) := by
  have h : FencePart s (s.abortLanes n 0) := forNat (fun _ u => .ite (.emit ..) (.refl u)) 16 s
  exact h.trans (updOct ..)

theorem haltSelection (s : State) (n : Nat) : FencePart s (s.haltSelection n) := by
  unfold State.haltSelection State.discardWindow
  extract_lets u v w x
  have hu : FencePart s u := mapOctCells ..
  have hv : FencePart u v := .ite (flag ..) (refl u)
  have hw : FencePart v w := (mapOctCells ..).trans (updOct ..)
  have hx : FencePart w x := mapOctCells ..
  exact (((hu.trans hv).trans hw).trans hx).trans (updOct ..)

theorem modeLeave (s : State) (e : Nat) (r : Option Nat) : FencePart s (s.modeLeave e r) := by
  unfold State.modeLeave
  cases s.modeReq with
  | none => exact refl s
  | some q => cases r <;> exact .ite ⟨rfl⟩ (refl s)

theorem forceSafe (s : State) (p : Nat → Bool) : FencePart s (s.forceSafe p) := forNat (fun _ u => .ite ⟨rfl⟩ (.refl u)) 24 s

theorem settleDev (s : State) : FencePart s s.settleDev := by
  unfold State.settleDev
  exact .ite ⟨rfl⟩ (refl s)

theorem fenceOctad (s : State) (n : Nat) : FencePart s (s.fenceOctad n) := by
  unfold State.fenceOctad
  refine .ite (refl s) ?_
  extract_lets u v
  have hu : FencePart s u := (immediateBlock s n).trans (haltSelection _ n)
  have hv : FencePart u v := (updOct u n fun o => { o with state := .fenced }).trans (.modeLeave _ n none)
  exact ((hu.trans hv).trans (.forceSafe ..)).trans (.settleDev _)

theorem lane (h : FencePart s t) (l : Nat) : t.lane l = s.lane l := by rw [h.rest]; rfl

end FencePart

/-! ### A lane whose frame has ended keeps it so -/

theorem State.lane_updLane (s : State) (l m : Nat) (f : Lane → Lane) : (s.updLane l f).lane m = if m = l then f (s.lane l) else s.lane m :=
  Tab.get_upd ..

/-- A lane without a frame gets none. -/
structure NoFrame (s t : State) : Prop where
  closed : ∀ l, (s.lane l).openF = none → (t.lane l).openF = none

theorem NoFrame.same {s t : State} (h : ∀ l, t.lane l = s.lane l) : NoFrame s t := ⟨fun l hl => by rw [h]; exact hl⟩

theorem NoFrame.steps : RaiseSteps NoFrame where
  refl s := .same fun _ => rfl
  trans h k := ⟨fun l hl => k.closed l (h.closed l hl)⟩
  books s t h _ := by
    rw [h]
    exact .same fun _ => rfl
  fence s n := .same (FencePart.fenceOctad s n).lane
  outputs s x := .same fun _ => rfl
  lane s l := ⟨fun m hm => by
    obtain ⟨-, hl⟩ := s.abortEye_spec l
    unfold State.laneToRetired
    rw [State.lane_updLane]
    split
    · rfl
    · rename_i e
      rw [hl, if_neg e]
      exact hm⟩
  cell s c := .same fun _ => rfl
  ports s x y := .same fun _ => rfl

/-- What arrives whole inside an open frame (R183). -/
theorem State.breakFrame_open {s : State} {l : Nat} (h : (s.lane l).openF.isSome = true) :
    s.breakFrame l = ((s.updLane l fun x => { x with openF := none }).malformed l).breakFrame l := by
  have hclosed : (((s.updLane l fun x => { x with openF := none }).malformed l).lane l).openF = none := by
    have h0 : ((s.updLane l fun x => { x with openF := none }).lane l).openF = none := by rw [State.lane_updLane, if_pos rfl]
    exact (NoFrame.steps.trans (NoFrame.steps.count ..) (NoFrame.steps.raise ..)).closed l h0
  rw [State.breakFrame, if_pos h, State.breakFrame, if_neg (by rw [hclosed]; decide)]

theorem State.breakFrame_closed {s : State} {l : Nat} (h : (s.lane l).openF = none) : s.breakFrame l = s :=
  if_neg (by rw [h]; decide)

end Sys2Proof.Machine
end
section
/-! SUPPORT. Received frames and blocks are judged. -/

namespace Sys2Proof.Machine

/-! ### Feedback -/

/-- What a feedback entry makes of its cell's image. -/
def FbEntry.image (e : FbEntry) (old : FbImage) : FbImage where
  v := if e.status % 2 == 1 then e.v else old.v
  fault := BitVec.ofNat 8 e.fault
  status := BitVec.ofNat 9 e.status
  edge := BitVec.ofNat 32 e.edge
  seq := BitVec.ofNat 4 e.seq
  fresh := e.status % 2 == 1
  temp := BitVec.ofNat 8 e.temp
  driver := BitVec.ofNat 8 e.driver

/-- The cell of a feedback entry on a lane. -/
def FbEntry.cell (e : FbEntry) (l : Nat) : Nat := hubOfLane l * 64 + e.slot % 64

/-- The images of the cells, and the hubs' records, stay. -/
structure FbKept (s t : State) : Prop where
  populated : ∀ c, (t.cell c).populated = (s.cell c).populated
  fb : ∀ c, (t.cell c).fb = (s.cell c).fb
  tiles : t.tiles = s.tiles

namespace FbKept
variable {s t u : State}

theorem refl (s : State) : FbKept s s := ⟨fun _ => rfl, fun _ => rfl, rfl⟩
theorem trans (h : FbKept s t) (k : FbKept t u) : FbKept s u :=
  ⟨fun c => (k.populated c).trans (h.populated c), fun c => (k.fb c).trans (h.fb c), k.tiles.trans h.tiles⟩

theorem ite {c : Prop} [Decidable c] {a b : State} (ha : FbKept s a) (hb : FbKept s b) : FbKept s (if c then a else b) := by
  split
  · exact ha
  · exact hb

theorem of_raise (h : RaiseFrame s t) : FbKept s t :=
  ⟨fun c => (congrArg Cell.populated (h.cell c) :), fun c => (congrArg Cell.fb (h.cell c) :), (congrArg State.tiles h.core :)⟩

theorem count (s : State) (a k : Nat) : FbKept s (s.count a k) := by
  obtain ⟨f, hf⟩ := State.count_acts a k
  rw [hf]
  exact ⟨fun _ => rfl, fun _ => rfl, rfl⟩

theorem malformed (s : State) (l : Nat) : FbKept s (s.malformed l) := (count ..).trans (of_raise (State.raise_frame ..))

theorem clearTlock (s : State) (l : Nat) : FbKept s (s.clearTlock l) := by
  unfold State.clearTlock
  extract_lets x u
  have hu : FbKept s u := ⟨fun _ => rfl, fun _ => rfl, rfl⟩
  exact .ite (hu.trans (of_raise (State.raise_frame ..))) hu

end FbKept

theorem State.takeEntry_spec (s : State) (l : Nat) (e : FbEntry) :
    (∀ c, ((s.takeEntry l e).cell c).populated = (s.cell c).populated)
      ∧ ∀ c, ((s.takeEntry l e).cell c).fb = if s.entryKnown l e = true ∧ c = e.cell l then e.image (s.cell c).fb else (s.cell c).fb := by
  unfold State.takeEntry
  dsimp only
  split
  · rename_i hk
    refine ⟨State.cell_updCell_kept Cell.populated s _ fun _ => rfl, fun c => ?_⟩
    have hidx : hubOfLane l * 64 + e.slot % 64 = e.cell l := rfl
    rw [State.cell_updCell, hidx]
    by_cases hc : c = e.cell l
    · exact (congrArg Cell.fb (if_pos hc)).trans ((congrArg (fun d => e.image (s.cell d).fb) hc).symm.trans (if_pos ⟨hk, hc⟩).symm)
    · exact (congrArg Cell.fb (if_neg hc)).trans (if_neg fun h => hc h.2).symm
  · rename_i hk
    have h := FbKept.malformed s l
    exact ⟨h.populated, fun c => by rw [h.fb, if_neg fun h => hk h.1]⟩

theorem FbEntry.slot_eq {d e : FbEntry} {l : Nat} {s u : State} (hd : s.entryKnown l d = true) (he : u.entryKnown l e = true)
    (h : d.cell l = e.cell l) : d.slot = e.slot := by
  simp only [State.entryKnown, Bool.and_eq_true, beq_iff_eq] at hd he
  unfold FbEntry.cell at h
  omega

/-- All the entries of a frame, whose slots are distinct. -/
theorem State.foldl_takeEntry_spec (l : Nat) (es : List FbEntry) (hes : (es.map (·.slot)).Nodup) (s : State) :
    (∀ c, (∀ e ∈ es, s.entryKnown l e = true → c ≠ e.cell l) → ((es.foldl (fun s e => s.takeEntry l e) s).cell c).fb = (s.cell c).fb)
      ∧ ∀ e ∈ es, s.entryKnown l e = true → ((es.foldl (fun s e => s.takeEntry l e) s).cell (e.cell l)).fb = e.image (s.cell (e.cell l)).fb := by
  induction es generalizing s with
  | nil => exact ⟨fun _ _ => rfl, fun _ h => absurd h (by simp)⟩
  | cons d es ih =>
    rw [List.map_cons, List.nodup_cons] at hes
    obtain ⟨hp, hf⟩ := s.takeEntry_spec l d
    obtain ⟨ih1, ih2⟩ := ih hes.2 (s.takeEntry l d)
    have hknown : ∀ e, (s.takeEntry l d).entryKnown l e = s.entryKnown l e := fun e => by rw [State.entryKnown, State.entryKnown, hp]
    simp only [hknown, List.foldl_cons] at ih1 ih2 ⊢
    refine ⟨fun c hc => ?_, fun e he hk => ?_⟩
    · rw [ih1 c fun e he => hc e (.tail _ he), hf, if_neg (fun h : s.entryKnown l d = true ∧ c = d.cell l => hc d (.head _) h.1 h.2)]
    · rcases List.mem_cons.mp he with rfl | he
      · rw [ih1 (e.cell l) fun d hd hdk h => hes.1 (FbEntry.slot_eq hk hdk h ▸ List.mem_map_of_mem hd), hf, if_pos ⟨hk, rfl⟩]
      · rw [ih2 e he hk, hf, if_neg (fun h : s.entryKnown l d = true ∧ e.cell l = d.cell l =>
          hes.1 (FbEntry.slot_eq h.1 hk h.2.symm ▸ List.mem_map_of_mem he))]

theorem nodup_of_distinct {l : List Nat} (h : distinct l = true) : l.Nodup := by
  induction l with
  | nil => exact .nil
  | cons a l ih =>
    simp only [distinct, Bool.and_eq_true, Bool.not_eq_true', List.contains_eq_mem, decide_eq_false_iff_not] at h
    exact List.nodup_cons.mpr ⟨h.1, ih h.2⟩

section
variable {l : Fin 128} {f : RawFrame} {s : State}

/-- A frame of feedback that is accepted for a frame still collected. -/
theorem feedbackAccepted {k : Word} {e : Nat} (ha : s.alive = true) (hs : (s.lane l).serving = true) (ho : (s.lane l).openF = none)
    (hcrc : frameCrcOk f = true) (hf : feedbackShape f = true) (he : (s.oct (l / 16)).epochs ≠ []) (hk : (k, e) ∈ (s.oct (l / 16)).toLatch)
    (ht : frameTag f = BitVec.ofNat 32 e) (hd : s.now ≤ frameAt e (s.oct (l / 16)).tl.tfb) :
    ∃ t, exec (.feedbackFrame l f) s = .next t ∧ (t.tiles.get (hubOfLane l)).fbSeen = true
      ∧ ∀ c, (t.cell c).fb = (((fbEntries f.data).foldl (fun s e => s.takeEntry l e) s).cell c).fb := by
  have hany : ((s.oct (l / 16)).toLatch.any fun g => frameTag f = BitVec.ofNat 32 g.2 ∧ s.now ≤ frameAt g.2 (s.oct (l / 16)).tl.tfb) = true :=
    List.any_eq_true.mpr ⟨(k, e), hk, by simpa using ⟨ht, hd⟩⟩
  obtain ⟨a, r, hr⟩ := List.exists_cons_of_ne_nil he
  simp only [exec, execFeedbackFrame, State.breakFrame_closed ho, State.feedbackFrame, ha, hcrc, hs, hf, hr, hany, Bool.not_true, Bool.or_self,
    Bool.false_eq_true, if_false, if_true]
  refine ⟨_, rfl, ?_⟩
  generalize (fbEntries f.data).foldl (fun s e => s.takeEntry l e) s = u
  generalize hv : ({ u with tiles := u.tiles.upd (hubOfLane l) fun t => { t with fbSeen := true } } : State) = v
  have hseen : (v.tiles.get (hubOfLane l)).fbSeen = true := by
    rw [← hv]
    show (Tab.get (u.tiles.upd (hubOfLane l) fun t => { t with fbSeen := true }) _).fbSeen = true
    rw [Tab.get_upd_same]
  have hcell : ∀ c, v.cell c = u.cell c := fun c => by rw [← hv]; rfl
  generalize hw : (if ((fbEntries f.data).filter fun e => s.entryKnown l e).any (fun e => decide (e.status / 64 % 2 = 1)) = true
    then v.clearTlock l else v) = w
  have hvw : FbKept v w := by
    rw [← hw]
    exact .ite (.clearTlock ..) (.refl v)
  have hwt := hvw.trans (.ite (c := (((fbEntries f.data).filter fun e => s.entryKnown l e).any (fun e => decide (e.status / 8 % 2 = 1)) &&
    (s.oct (l / 16)).state.active) = true) (.of_raise (w.raise_frame 0x1804 l [])) (.refl w))
  exact ⟨by rw [hwt.tiles]; exact hseen, fun c => by rw [hwt.fb, hcell]⟩

theorem frameBroken (ha : s.alive = true) (ho : (s.lane l).openF = none) (hcrc : frameCrcOk f = false) :
    ∃ t u, exec (.feedbackFrame l f) s = .next t ∧ exec (.captureFrame l f) s = .next u
      ∧ RaiseFrame (s.count (tileBase (l / 2) + 0x318) 1) t ∧ RaiseFrame (s.count (tileBase (l / 2) + 0x318) 1) u := by
  refine ⟨s.crcError l, s.crcError l, ?_, ?_, State.raise_frame .., State.raise_frame ..⟩
  · simp only [exec, execFeedbackFrame, State.breakFrame_closed ho, State.feedbackFrame, ha, hcrc, Bool.not_true, Bool.not_false, Bool.false_eq_true,
      if_false, if_true]
  · simp only [exec, execCaptureFrame, State.breakFrame_closed ho, State.captureFrame, ha, hcrc, Bool.not_true, Bool.not_false, Bool.false_eq_true,
      if_false, if_true]

/-! ### Captures -/

theorem State.capture_room {s : State} {r k : Nat} {rec : List Byte} (h : s.captureRoom r rec.length = true) :
    s.capture r k rec = (((({ s with out := s.out ++ s.slotWrites (20 + r) (captureImage k rec s.tick.toNat) } : State).tally 13
      (64 * captureSlots rec.length)).tally (15 + k) (64 * captureSlots rec.length)).updRing (20 + r) fun y =>
        { y with dev := y.dev + BitVec.ofNat 16 (captureSlots rec.length), gained := true }, true) := by
  unfold State.capture
  dsimp only
  rw [if_pos h, State.foldl_emit_eq]

theorem State.capture_full {s : State} {r k : Nat} {rec : List Byte} (h : s.captureRoom r rec.length = false) : s.capture r k rec = (s, false) := by
  unfold State.capture
  dsimp only
  rw [if_neg (by rw [h]; decide)]

theorem length_captureRecord (h : f.data.length = 32) : (leBytes 2 l ++ leBytes 6 s.now ++ f.data.flatMap blockBytes).length = 264 := by
  have hmap : (f.data.flatMap blockBytes).length = 8 * f.data.length := by
    rw [List.length_flatMap]
    simp only [blockBytes, length_leBytes, List.map_const', List.sum_replicate, smul_eq_mul, Nat.mul_comm]
  rw [List.length_append, List.length_append, length_leBytes, length_leBytes, hmap, h]

theorem captureTaken {r : Nat} {u : State} (ha : s.alive = true) (hs : (s.lane l).serving = true) (ho : (s.lane l).openF = none)
    (hcrc : frameCrcOk f = true) (h3 : frameKind f = 3) (hx : frameAux f = false) (h1 : frameCount f = 1) (hl : f.data.length = 32)
    (hn : (s.lane l).outstanding ≠ 0) (hr : r = s.fld (tileBase (l / 2) + 0x300) 4 4)
    (hu : u = (s.updLane l fun x => { x with taken := x.taken + 1 })) :
    ∃ t, exec (.captureFrame l f) s = .next t ∧ (t.lane l).taken = (s.lane l).taken + 1
      ∧ (u.captureRoom r 264 = true → (t.ring (20 + r)).dev = (s.ring (20 + r)).dev + 5
          ∧ t.out = s.out ++ u.slotWrites (20 + r) (captureImage 0x05
              (leBytes 2 l ++ leBytes 6 s.now ++ f.data.flatMap blockBytes) s.tick.toNat))
      ∧ (u.captureRoom r 264 = false → (t.lane l).capLost = (s.lane l).capLost.add 32 1 ∧ t.rings = s.rings ∧ t.out = s.out)
      ∧ t = { s with lanes := t.lanes, rings := t.rings, out := t.out, epl := t.epl } := by
  have hlane : u.lane l = { s.lane l with taken := (s.lane l).taken + 1 } := by rw [hu, State.lane_updLane, if_pos rfl]
  have hrest : u = { s with lanes := u.lanes } := by rw [hu]; rfl
  have hexec : exec (.captureFrame l f) s = .next
      (if (u.capture r 0x05 (leBytes 2 l ++ leBytes 6 s.now ++ f.data.flatMap blockBytes)).2
       then (u.capture r 0x05 (leBytes 2 l ++ leBytes 6 s.now ++ f.data.flatMap blockBytes)).1
       else u.captureLost l) := by
    subst hr
    subst hu
    simp only [exec, execCaptureFrame, State.breakFrame_closed ho, State.captureFrame, ha, hcrc, hs, h3, hx, h1, hl, if_neg hn, Bool.not_true,
      Bool.not_false, Bool.or_self, Bool.and_self, beq_self_eq_true, Bool.false_eq_true, if_false]
    rfl
  have hlen := length_captureRecord (l := l) (s := s) hl
  generalize leBytes 2 l ++ leBytes 6 s.now ++ f.data.flatMap blockBytes = rec at hexec hlen ⊢
  rw [hexec]
  by_cases hroom : u.captureRoom r 264 = true
  · rw [State.capture_room (by rw [hlen]; exact hroom), hlen]
    refine ⟨_, rfl, congrArg Lane.taken hlane, fun _ => ⟨?_, ?_⟩, fun h => absurd (hroom.symm.trans h) (by decide), ?_⟩
    · show (Tab.get (u.rings.upd (20 + r) _) (20 + r)).dev = _
      rw [Tab.get_upd_same, hrest]
      rfl
    · rw [hu]
      rfl
    · rw [hu]
      rfl
  · rw [State.capture_full (by rw [hlen]; exact Bool.eq_false_iff.mpr hroom)]
    have hl' := u.lane_updLane l l fun x => { x with capLost := x.capLost.add 32 1 }
    rw [if_pos rfl, hlane] at hl'
    refine ⟨_, rfl, congrArg Lane.taken hl', fun h => absurd h hroom, fun _ => ⟨congrArg Lane.capLost hl', ?_, ?_⟩, ?_⟩
    · rw [hu]
      rfl
    · rw [hu]
      rfl
    · rw [hu]
      rfl

end

end Sys2Proof.Machine
end
section
/-! SUPPORT. Enumerations, and the judgement of received frames as a whole. -/

namespace Sys2Proof.Machine

/-! ### What the lane's procedures leave of the hubs' records -/

/-- The cells and what is known of the hubs stay. -/
structure HubsKept (s t : State) : Prop where
  cells : t.cells = s.cells
  tile : ∀ g, (t.tiles.get g).serialKnown = (s.tiles.get g).serialKnown ∧ (t.tiles.get g).enumerated = (s.tiles.get g).enumerated

namespace HubsKept
variable {s t u : State}

theorem same (hc : t.cells = s.cells) (ht : t.tiles = s.tiles) : HubsKept s t := ⟨hc, fun g => by rw [ht]; exact ⟨rfl, rfl⟩⟩
theorem refl (s : State) : HubsKept s s := same rfl rfl
theorem trans (h : HubsKept s t) (k : HubsKept t u) : HubsKept s u :=
  ⟨k.cells.trans h.cells, fun g => ⟨(k.tile g).1.trans (h.tile g).1, (k.tile g).2.trans (h.tile g).2⟩⟩

theorem ite {c : Prop} [Decidable c] {a b : State} (ha : HubsKept s a) (hb : HubsKept s b) : HubsKept s (if c then a else b) := by
  split
  · exact ha
  · exact hb

theorem updLane (s : State) (l : Nat) (f : Lane → Lane) : HubsKept s (s.updLane l f) := same rfl rfl

theorem abortEye (s : State) (l : Nat) : HubsKept s (s.abortEye l) := by
  obtain ⟨h, -⟩ := s.abortEye_spec l
  rw [h]
  exact same rfl rfl

theorem startStep (s : State) (l target : Nat) (p : Proc) : HubsKept s (s.startStep l target p) := by
  unfold State.startStep
  extract_lets u
  have hu : HubsKept s u := (abortEye s l).trans (updLane ..)
  exact hu.trans (same rfl rfl)

theorem toActive (s : State) (l : Nat) : HubsKept s (s.toActive l) := by
  refine ⟨rfl, fun g => ?_⟩
  have h : (s.toActive l).tiles.get g = if g = hubOfLane l then { s.tiles.get (hubOfLane l) with missed := 0 } else s.tiles.get g := Tab.get_upd ..
  rw [h]
  split
  · rename_i e
    rw [e]
    exact ⟨rfl, rfl⟩
  · exact ⟨rfl, rfl⟩

theorem laneWindow (s : State) (l o r : Nat) : HubsKept s (s.laneWindow l o r) := by
  unfold State.laneWindow
  exact .ite (refl s) (same rfl rfl)

theorem speedStep (s : State) (t : Nat) : HubsKept s (s.speedStep t) := by
  unfold State.speedStep
  extract_lets p
  exact .ite ((updLane ..).trans (startStep ..)) (.refl s)

theorem checkTakeover (s : State) (t : Nat) : HubsKept s (s.checkTakeover t) := by
  unfold State.checkTakeover
  extract_lets b x opener u
  have hu : HubsKept s u := laneWindow ..
  refine .ite (.refl s) ?_
  split
  · exact .ite (((hu.trans (toActive u b)).trans (updLane ..)).trans (speedStep ..)) (hu.trans (startStep ..))
  · exact (laneWindow ..).trans (updLane ..)
  · exact .refl s

theorem stepDown (s : State) (l : Nat) : HubsKept s (s.stepDown l) := by
  unfold State.stepDown
  refine .ite ?_ ((updLane ..).trans (startStep ..))
  unfold State.toWarm
  extract_lets u
  have hu : HubsKept s u := same rfl rfl
  exact hu.trans (checkTakeover ..)

theorem enumerated (s : State) (l : Nat) : HubsKept s (s.enumerated l) := by
  unfold State.enumerated
  exact .ite (.refl s) (.ite (.ite ((toActive ..).trans (updLane ..)) (toActive ..)) (stepDown ..))

theorem ringsOnly (h : RingsOnly s t) : HubsKept s t := same h.cells (by rw [h])

theorem endEnum (s : State) (l : Nat) (st : Status) (n : Nat) : HubsKept s (s.endEnum l st n) := by
  have hf (u : State) : HubsKept u (u.finishWaiting (.enumerate l) st n) := by
    unfold State.finishWaiting
    extract_lets done hif v
    have hv : HubsKept u v := same rfl rfl
    clear_value v
    refine hv.trans ?_
    clear hv
    induction done generalizing v with
    | nil => exact refl v
    | cons w done ih => exact (ringsOnly (.complete ..)).trans (ih _)
  exact (updLane ..).trans (hf _)

end HubsKept

/-! ### The hub and its cells as an ENUM frame gives them -/

/-- A cell as an ENUM entry gives it. -/
def Cell.listed (c : Cell) (b : Block) : Cell :=
  { c with
    populated := true, kind := BitVec.ofNat 8 (blockByte b 1), minPulse := BitVec.ofNat 8 (blockByte b 2),
    deadTime := BitVec.ofNat 8 (blockByte b 3), serial := BitVec.ofNat 32 (b.toNat / 2 ^ 32),
    retired := c.retired && !c.c0Cleared, permSent := c.permSent && !c.c0Cleared, c0Cleared := false }

/-- The cell of an ENUM entry of a hub. -/
def slotCell (t : Nat) (b : Block) : Nat := 64 * t + field b.toNat 0 6

theorem slotCell_hub (t : Nat) (b : Block) : slotCell t b / 64 = t := by
  have : field b.toNat 0 6 < 64 := Nat.mod_lt _ (by decide)
  unfold slotCell
  omega

theorem State.foldl_listed (t : Nat) (cs : List Block) (hcs : (cs.map fun b => field b.toNat 0 6).Nodup) (s : State) :
    (∀ b ∈ cs, (cs.foldl (fun s b => s.updCell (slotCell t b) fun c => c.listed b) s).cell (slotCell t b) = (s.cell (slotCell t b)).listed b)
      ∧ ∀ c, (∀ b ∈ cs, c ≠ slotCell t b) → (cs.foldl (fun s b => s.updCell (slotCell t b) fun c => c.listed b) s).cell c = s.cell c := by
  induction cs generalizing s with
  | nil => exact ⟨fun _ h => absurd h (by simp), fun _ _ => rfl⟩
  | cons a cs ih =>
    rw [List.map_cons, List.nodup_cons] at hcs
    obtain ⟨ih1, ih2⟩ := ih hcs.2 (s.updCell (slotCell t a) fun c => c.listed a)
    have hne : ∀ b ∈ cs, slotCell t b ≠ slotCell t a := fun b hb h => hcs.1 (by
      have : field a.toNat 0 6 = field b.toNat 0 6 := by
        unfold slotCell at h
        omega
      rw [this]
      exact List.mem_map_of_mem (f := fun b : Block => field b.toNat 0 6) hb)
    simp only [List.foldl_cons]
    refine ⟨fun b hb => ?_, fun c hc => ?_⟩
    · rcases List.mem_cons.mp hb with rfl | hb
      · rw [ih2 _ fun a ha h => hne a ha h.symm, State.cell_updCell, if_pos rfl]
      · rw [ih1 b hb, State.cell_updCell, if_neg (hne b hb)]
    · rw [ih2 c fun b hb => hc b (.tail _ hb), State.cell_updCell, if_neg (hc a (.head _))]

theorem State.recordHub_spec (s : State) (t : Nat) (serial : Word) (h : Block) (cs : List Block) (hcs : (cs.map fun b => field b.toNat 0 6).Nodup) :
    ((s.recordHub t serial h cs).tiles.get t).serialKnown = true ∧ ((s.recordHub t serial h cs).tiles.get t).enumerated = true
      ∧ (∀ b ∈ cs, ∃ c : Cell, (s.recordHub t serial h cs).cell (slotCell t b) = c.listed b)
      ∧ ∀ c, c / 64 ≠ t → ((s.recordHub t serial h cs).cell c).populated = (s.cell c).populated := by
  unfold State.recordHub
  extract_lets a pop u v w
  have hcells : w.cells = s.cells := rfl
  generalize hx : ({ w with tiles := w.tiles.upd t fun x => { x with serialKnown := true, enumerated := true } } : State) = x
  have htile : x.tiles.get t = { w.tiles.get t with serialKnown := true, enumerated := true } := by
    rw [← hx]
    exact Tab.get_upd_same ..
  have hxc : x.cells = s.cells := by
    rw [← hx]
    exact hcells
  clear_value w
  unfold State.populate
  generalize hy : ({ x with cells := x.cells.mapAll fun i c => if i / 64 = t then { c with populated := false } else c } : State) = y
  have hyt : y.tiles = x.tiles := by rw [← hy]
  have hyc : ∀ c, c / 64 ≠ t → y.cell c = s.cell c := fun c hc => by
    have : y.cell c = (s.cells.mapAll fun i c => if i / 64 = t then { c with populated := false } else c).get c := by
      rw [← hy, ← hxc]
      rfl
    rw [this]
    exact (Tab.get_mapAll s.cells _ c (if_neg hc)).trans (if_neg hc)
  have htiles : (cs.foldl (fun s b => s.updCell (slotCell t b) fun c => c.listed b) y).tiles = y.tiles := by
    clear * -
    induction cs generalizing y with
    | nil => rfl
    | cons b cs ih => exact ih (y.updCell (slotCell t b) fun c => c.listed b)
  obtain ⟨h1, h2⟩ := State.foldl_listed t cs hcs y
  have hfold : cs.foldl (fun s b => s.updCell (64 * t + field b.toNat 0 6) fun c => { c with
      populated := true, kind := BitVec.ofNat 8 (blockByte b 1), minPulse := BitVec.ofNat 8 (blockByte b 2),
      deadTime := BitVec.ofNat 8 (blockByte b 3), serial := BitVec.ofNat 32 (b.toNat / 2 ^ 32),
      retired := c.retired && !c.c0Cleared, permSent := c.permSent && !c.c0Cleared, c0Cleared := false }) y
    = cs.foldl (fun s b => s.updCell (slotCell t b) fun c => c.listed b) y := rfl
  dsimp only
  rw [hfold]
  generalize cs.foldl (fun s b => s.updCell (slotCell t b) fun c => c.listed b) y = z at h1 h2 htiles
  rw [htiles, hyt, htile]
  exact ⟨rfl, rfl, fun b hb => ⟨_, h1 b hb⟩, fun c hc => by rw [h2 c fun b _ h => hc (h ▸ slotCell_hub t b), hyc c hc]⟩

section
variable {l : Fin 128} {f : RawFrame} {s : State}

theorem enumAccepted (ha : s.alive = true) (ho : (s.lane l).openF = none) (hcrc : frameCrcOk f = true)
    (h4 : frameKind f = 4) (hx : frameAux f = false) (h1 : 1 ≤ frameCount f) (h64 : frameCount f ≤ 64) (hl : f.data.length = frameCount f + 1)
    (hd : distinct ((f.data.drop 1).map fun b => field b.toNat 0 6) = true) (hw : (s.lane l).auxAt.isSome = true)
    (hm : l.val % 2 = 0 ∨ (s.tiles.get (hubOfLane l)).serialKnown = false ∨ s.reg (tileBase (hubOfLane l) + 0x304) = frameTag f) :
    ∃ t, exec (.enumFrame l f) s = .next t ∧ (t.tiles.get (hubOfLane l)).enumerated = true
      ∧ (t.tiles.get (hubOfLane l)).serialKnown = true
      ∧ (∀ b ∈ f.data.drop 1, (t.cell (64 * hubOfLane l + field b.toNat 0 6)).populated = true
          ∧ (t.cell (64 * hubOfLane l + field b.toNat 0 6)).serial = BitVec.ofNat 32 (b.toNat / 2 ^ 32)
          ∧ (t.cell (64 * hubOfLane l + field b.toNat 0 6)).minPulse = BitVec.ofNat 8 (blockByte b 2)
          ∧ (t.cell (64 * hubOfLane l + field b.toNat 0 6)).deadTime = BitVec.ofNat 8 (blockByte b 3))
      ∧ (∀ c, c / 64 ≠ hubOfLane l → (t.cell c).populated = (s.cell c).populated) := by
  have hw' : (s.lane l).auxAt ≠ none := fun h => by
    rw [h] at hw
    cases hw
  have hm' : ¬(l.val % 2 = 1 ∧ (s.tiles.get (hubOfLane l)).serialKnown = true ∧ s.reg (tileBase (hubOfLane l) + 0x304) ≠ frameTag f) := by
    rintro ⟨a, b, c⟩
    rcases hm with h | h | h
    · omega
    · rw [h] at b
      cases b
    · exact c h
  have hexec : exec (.enumFrame l f) s = .next (((((s.recordHub (hubOfLane l) (frameTag f) (f.data.headD 0)
      (f.data.drop 1)).raiseEnumChecks l).endEnum l .ok
      (frameCount f))).enumerated l) := by
    simp only [exec, execEnumFrame, State.breakFrame_closed ho, State.enumFrame, ha, hcrc, h4, hx, h1, h64, hl, hd, decide_true, Bool.not_true,
      Bool.not_false, Bool.and_self, beq_self_eq_true, Bool.false_eq_true, if_false, if_neg hw', if_neg hm']
  obtain ⟨r1, r2, r3, r4⟩ := s.recordHub_spec (hubOfLane l) (frameTag f) (f.data.headD 0) (f.data.drop 1) (nodup_of_distinct hd)
  generalize s.recordHub (hubOfLane l) (frameTag f) (f.data.headD 0) (f.data.drop 1) = u at hexec r1 r2 r3 r4
  have huv : RaiseFrame u (u.raiseEnumChecks l) := by
    unfold State.raiseEnumChecks
    exact RaiseFrame.foldl (fun w b => by
      split
      · exact State.raise_frame ..
      · exact .refl w) _ _
  generalize u.raiseEnumChecks l = v at hexec huv
  have hvt : HubsKept v ((v.endEnum l .ok (frameCount f)).enumerated l) := (HubsKept.endEnum ..).trans (HubsKept.enumerated ..)
  generalize (v.endEnum l .ok (frameCount f)).enumerated l = t at hexec hvt
  have htiles : v.tiles = u.tiles := (congrArg State.tiles huv.core :)
  have hcell : ∀ c, t.cell c = v.cell c := fun c => by rw [State.cell, hvt.cells, State.cell]
  refine ⟨t, hexec, ?_, ?_, fun b hb => ?_, fun c hc => ?_⟩
  · rw [(hvt.tile _).2, htiles, r2]
  · rw [(hvt.tile _).1, htiles, r1]
  · obtain ⟨c, hc⟩ := r3 b hb
    have hcore := huv.cell (slotCell (hubOfLane l) b)
    rw [hc] at hcore
    rw [show 64 * hubOfLane l + field b.toNat 0 6 = slotCell (hubOfLane l) b from rfl, hcell]
    exact ⟨(congrArg Cell.populated hcore :), (congrArg Cell.serial hcore :), (congrArg Cell.minPulse hcore :), (congrArg Cell.deadTime hcore :)⟩
  · rw [hcell, ← r4 c hc]
    exact (congrArg Cell.populated (huv.cell c) :)

theorem enumAsksAgain {x : Nat} (hx : (s.lane l).auxAt = some x) (hd : x + 80000 ≤ s.now) (h1 : (s.lane l).state ≠ .retired)
    (h2 : (s.lane l).state ≠ .off) (h3 : (s.lane l).aux < 3) :
    ∃ t, exec (.enumTimeout l) s = .next t ∧ (t.lane l).aux = (s.lane l).aux + 1 ∧ (t.lane l).auxAt = some s.now
      ∧ (∃ f, frameCrcOk f = true ∧ t.out = s.out ++ [.laneFrame l f]) ∧ t = { s with lanes := t.lanes, out := t.out } := by
  have hexec : exec (.enumTimeout l) s = .next (s.sendAux l) := by
    simp only [exec, execEnumTimeout, hx, State.whenDue, if_pos hd, h1, h2, or_self, if_false, if_pos h3]
  have hlane := s.lane_updLane l l fun x => { x with aux := x.aux + 1, auxAt := some s.now }
  rw [if_pos rfl] at hlane
  exact ⟨_, hexec, (congrArg Lane.aux hlane :), (congrArg Lane.auxAt hlane :), ⟨_, frameCrcOk_mkFrame .., rfl⟩, rfl⟩

end

/-! ### Blocks -/

section
variable {l : Fin 128} {b : Block} {s : State} {t4 : BitVec 48}

theorem exec_malformedBlock (isData : Bool) : exec (.malformedBlock l isData b) s = .next (s.takeBlock l isData b (s.blockStart l)) := rfl

theorem exec_abort : exec (.abort l b) s = .next (s.abortIn l b) := rfl

theorem State.takeBlock_data_open {o : OpenFrame} (h : (s.lane l).openF = some o) :
    s.takeBlock l true b t4 = s.updLane l fun x => { x with openF := some { o with data := o.data ++ [b] } } := by
  unfold State.takeBlock
  rw [h]

theorem State.takeBlock_data_closed (h : (s.lane l).openF = none) : s.takeBlock l true b t4 = s.malformed l := by
  unfold State.takeBlock
  rw [h]

/-- A FILLER is nothing. -/
theorem State.takeBlock_filler (h : blockByte b 0 = 0xA1) : s.takeBlock l false b t4 = s := by
  unfold State.takeBlock
  rw [h]
  exact if_pos rfl

theorem State.takeBlock_start (h : blockByte b 0 = 0xB2) :
    s.takeBlock l false b t4 = (s.breakFrame l).updLane l fun x => { x with openF := some ⟨b, [], false⟩ } := by
  unfold State.takeBlock
  rw [h]
  exact (if_neg (by decide)).trans (if_pos rfl)

theorem State.takeBlock_end_closed (h : blockByte b 0 = 0xB9) (ho : (s.lane l).openF = none) : s.takeBlock l false b t4 = s.malformed l := by
  unfold State.takeBlock
  rw [h, ho]
  exact (if_neg (by decide)).trans ((if_neg (by decide)).trans (if_pos rfl))

theorem State.takeBlock_abort (h : blockByte b 0 = 0xE7) : s.takeBlock l false b t4 = s.abortIn l b := by
  unfold State.takeBlock
  rw [h]
  exact (if_neg (by decide)).trans ((if_neg (by decide)).trans ((if_neg (by decide)).trans (if_pos rfl)))

theorem State.takeBlock_unknown (h1 : blockByte b 0 ≠ 0xA1) (h2 : blockByte b 0 ≠ 0xB2) (h3 : blockByte b 0 ≠ 0xB9) (h4 : blockByte b 0 ≠ 0xE7)
    (h5 : blockByte b 0 ∉ controlCodes) : s.takeBlock l false b t4 = s.malformed l := by
  unfold State.takeBlock
  exact (if_neg h1).trans ((if_neg h2).trans ((if_neg h3).trans ((if_neg h4).trans (if_neg (by simpa using h5)))))

end

theorem abortJudged (l : Fin 128) (b : Block) (s u : State) (hu : u = (s.updLane l fun x => { x with openF := none })) :
    (blockByte b 0 = 0xE7 → blockByte b 1 = 0x02 → blockByte b 2 = 0xFD → exec (.abort l b) s = .next u)
    ∧ (¬(blockByte b 0 = 0xE7 ∧ blockByte b 1 = 0x02 ∧ blockByte b 2 = 0xFD) →
      ∃ t, exec (.abort l b) s = .next t ∧ RaiseFrame (u.count (tileBase (l / 2) + 0x31C) 1) t)
    ∧ (blockByte b 0 = 0xE7 → exec (.malformedBlock l false b) s = exec (.abort l b) s) := by
  refine ⟨fun h0 h1 h2 => ?_, fun h => ⟨u.malformed l, ?_, State.raise_frame ..⟩, fun h0 => ?_⟩
  · rw [exec_abort, State.abortIn, if_pos ⟨h0, h1, h2⟩, hu]
  · rw [exec_abort, State.abortIn, if_neg h, hu]
  · rw [exec_malformedBlock, exec_abort, State.takeBlock_abort h0]

theorem blockMisplaced (l : Fin 128) (isData : Bool) (b : Block) (s : State)
    (h : isData = true ∧ (s.lane l).openF = none ∨ isData = false ∧ blockByte b 0 = 0xB9 ∧ (s.lane l).openF = none
      ∨ isData = false ∧ blockByte b 0 ∉ [0xA1, 0xB2, 0xB9, 0xE7] ++ controlCodes) :
    ∃ t, exec (.malformedBlock l isData b) s = .next t ∧ RaiseFrame (s.count (tileBase (l / 2) + 0x31C) 1) t := by
  refine ⟨s.malformed l, ?_, State.raise_frame ..⟩
  rcases h with ⟨rfl, ho⟩ | ⟨rfl, hb, ho⟩ | ⟨rfl, hb⟩
  · rw [exec_malformedBlock, State.takeBlock_data_closed ho]
  · rw [exec_malformedBlock, State.takeBlock_end_closed hb ho]
  · rw [List.mem_append, not_or] at hb
    simp only [List.mem_cons, List.not_mem_nil, or_false, not_or] at hb
    obtain ⟨⟨h1, h2, h3, h4⟩, h5⟩ := hb
    rw [exec_malformedBlock, State.takeBlock_unknown h1 h2 h3 h4 h5]

theorem blockInPlace (l : Fin 128) (b : Block) (s : State) :
    (∀ o, (s.lane l).openF = some o →
      exec (.malformedBlock l true b) s = .next (s.updLane l fun x => { x with openF := some { o with data := o.data ++ [b] } }))
    ∧ (blockByte b 0 = 0xB2 → (s.lane l).openF = none →
      exec (.malformedBlock l false b) s = .next (s.updLane l fun x => { x with openF := some ⟨b, [], false⟩ }))
    ∧ (blockByte b 0 = 0xA1 → exec (.malformedBlock l false b) s = .next s) := by
  refine ⟨fun o ho => ?_, fun hb ho => ?_, fun hb => ?_⟩
  · rw [exec_malformedBlock, State.takeBlock_data_open ho]
  · rw [exec_malformedBlock, State.takeBlock_start hb, State.breakFrame_closed ho]
  · rw [exec_malformedBlock, State.takeBlock_filler hb]

theorem wholeInsideOpenFrame (l : Fin 128) (i : Instr) (f : RawFrame) (b : Block) (t4 : BitVec 48) (s : State) (ho : (s.lane l).openF.isSome = true)
    (hi : i ∈ [.feedbackFrame l f, .captureFrame l f, .enumFrame l f, .capability l b, .linkCmdAck l b, .reportRsp l b, .echo l b t4]) :
    exec i s = exec i ((s.updLane l fun x => { x with openF := none }).malformed l) := by
  have h := State.breakFrame_open ho
  generalize (s.updLane l fun x => { x with openF := none }).malformed l = u at h
  simp only [List.mem_cons, List.not_mem_nil, or_false] at hi
  rcases hi with rfl | rfl | rfl | rfl | rfl | rfl | rfl
  · simp only [exec, execFeedbackFrame, h]
  · simp only [exec, execCaptureFrame, h]
  · simp only [exec, execEnumFrame, h]
  · simp only [exec, execCapability, h]
  · simp only [exec, execLinkCmdAck, h]
  · simp only [exec, execReportRsp, h]
  · simp only [exec, execEcho, h]

/-- Settles O40: frame by frame, block by block. -/
theorem receivedFramesAreJudged : Obligations.ReceivedFramesAreJudged := by
  unfold Obligations.ReceivedFramesAreJudged
  refine ⟨fun l f k e s ha hs ho hcrc hf he hk ht hd => ?_, fun l f s ha ho hcrc => frameBroken ha ho hcrc,
    fun l f r u s ha hs ho hcrc h3 hx h1 hl hn hr hu => captureTaken ha hs ho hcrc h3 hx h1 hl hn hr hu,
    fun l f s ha ho hcrc h4 hx h1 h64 hl hd hw hm => enumAccepted ha ho hcrc h4 hx h1 h64 hl hd hw hm,
    fun l x s hx hd h1 h2 h3 => enumAsksAgain hx hd h1 h2 h3, abortJudged, blockMisplaced, blockInPlace, wholeInsideOpenFrame⟩
  obtain ⟨t, hexec, hseen, hfb⟩ := feedbackAccepted ha hs ho hcrc hf he hk ht hd
  have hslots : ((fbEntries f.data).map (·.slot)).Nodup := by
    simp only [feedbackShape, Bool.and_eq_true] at hf
    exact nodup_of_distinct hf.2
  obtain ⟨h1, h2⟩ := State.foldl_takeEntry_spec l (fbEntries f.data) hslots s
  refine ⟨t, hexec, hseen, fun x hx hslot hp => ?_, fun c hc => ?_⟩
  · have hknown : s.entryKnown l x = true := by
      rw [State.entryKnown, hp, hslot, beq_self_eq_true]
      rfl
    have himage := (hfb (x.cell l)).trans (h2 x hx hknown)
    rw [show hubOfLane l * 64 + x.slot % 64 = x.cell l from rfl]
    refine ⟨(congrArg FbImage.fresh himage).trans (Bool.beq_eq_decide_eq _ _), (congrArg FbImage.fault himage :),
        (congrArg FbImage.v himage).trans ?_⟩
    show (if (x.status % 2 == 1) = true then x.v else _) = _
    simp only [beq_iff_eq]
  · rw [hfb, h1 c]
    intro e he hk h
    refine hc ?_
    rw [h]
    unfold FbEntry.cell
    omega

end Sys2Proof.Machine
end
section
/-! SUPPORT. A lane trains: block lock, exchange, STEPs, gates (R146, R151, R154, R156, R170). -/

namespace Sys2Proof.Machine

theorem State.lane_updLane_same (s : State) (l : Nat) (f : Lane → Lane) : (s.updLane l f).lane l = f (s.lane l) := by
  rw [State.lane_updLane, if_pos rfl]

theorem State.lane_updLane_ne (s : State) {l m : Nat} (h : m ≠ l) (f : Lane → Lane) : (s.updLane l f).lane m = s.lane m := by
  rw [State.lane_updLane, if_neg h]

theorem State.abortEye_lane_same (s : State) (l : Nat) : (s.abortEye l).lane l = { s.lane l with eye := none } := by
  rw [(s.abortEye_spec l).2, if_pos rfl]

theorem State.abortEye_lane_ne (s : State) {l m : Nat} (h : m ≠ l) : (s.abortEye l).lane m = s.lane m := by
  rw [(s.abortEye_spec l).2, if_neg h]

/-- A STEP starts. -/
theorem State.startStep_lane (s : State) (l target : Nat) (p : Proc) :
    (s.startStep l target p).lane l = { s.lane l with
      eye := none, state := .step, proc := p, target := target, from_ := (s.lane l).speed, sends := 1, seq := (s.lane l).seq + 1,
      acked := false, turning := false, gate := 0, sentAt := s.now, dormantReq := false } := by
  refine ((s.abortEye l).lane_updLane_same l _).trans ?_
  rw [State.abortEye_lane_same]

/-! ### What the hub said of its speed stays -/

/-- The hubs' maximum speeds stay. -/
structure MaxKept (s t : State) : Prop where
  lane : ∀ m, (t.lane m).hubMax = (s.lane m).hubMax

namespace MaxKept
variable {s t u : State}

theorem same (h : t.lanes = s.lanes) : MaxKept s t := ⟨fun m => by rw [State.lane, h, State.lane]⟩
theorem refl (s : State) : MaxKept s s := ⟨fun _ => rfl⟩
theorem trans (h : MaxKept s t) (k : MaxKept t u) : MaxKept s u := ⟨fun m => (k.lane m).trans (h.lane m)⟩

theorem ite {c : Prop} [Decidable c] {a b : State} (ha : MaxKept s a) (hb : MaxKept s b) : MaxKept s (if c then a else b) := by
  split
  · exact ha
  · exact hb

theorem updLane (s : State) (l : Nat) {f : Lane → Lane} (hf : ∀ x, (f x).hubMax = x.hubMax) : MaxKept s (s.updLane l f) :=
  ⟨fun m => by
    rw [State.lane_updLane]
    split
    · rename_i h
      rw [hf, h]
    · rfl⟩

theorem abortEye (s : State) (l : Nat) : MaxKept s (s.abortEye l) :=
  ⟨fun m => by
    rw [(s.abortEye_spec l).2]
    split
    · rename_i h
      rw [h]
    · rfl⟩

theorem steps : RaiseSteps MaxKept where
  refl := refl
  trans := trans
  books s t h _ := by
    rw [h]
    exact same rfl
  fence s n := ⟨fun m => by rw [(FencePart.fenceOctad s n).lane]⟩
  outputs s x := same rfl
  lane s l := (abortEye s l).trans (updLane _ l fun _ => rfl)
  cell s c := same rfl
  ports s x y := same rfl

theorem startStep (s : State) (l target : Nat) (p : Proc) : MaxKept s (s.startStep l target p) := by
  unfold State.startStep
  extract_lets u
  have hu : MaxKept s u := (abortEye s l).trans (updLane _ l fun _ => rfl)
  exact hu.trans (same rfl)

theorem toActive (s : State) (l : Nat) : MaxKept s (s.toActive l) := by
  have h : MaxKept s (s.updLane l fun x => { x with state := .active, proc := .none, rtAt := none, wakeAt := none, grant := 0, taken := 0 }) :=
    updLane s l fun _ => rfl
  exact h.trans (same rfl)

theorem laneWindow (s : State) (l o r : Nat) : MaxKept s (s.laneWindow l o r) := by
  unfold State.laneWindow
  exact .ite (refl s) (same rfl)

theorem speedStep (s : State) (t : Nat) : MaxKept s (s.speedStep t) := by
  unfold State.speedStep
  extract_lets p
  refine .ite (trans ?_ (startStep ..)) (.refl s)
  exact updLane s _ fun _ => rfl

theorem checkTakeover (s : State) (t : Nat) : MaxKept s (s.checkTakeover t) := by
  unfold State.checkTakeover
  extract_lets b x opener u
  have hu : MaxKept s u := laneWindow ..
  refine .ite (.refl s) ?_
  split
  · refine .ite (trans (trans (hu.trans (toActive u b)) ?_) (speedStep ..)) (hu.trans (startStep ..))
    exact updLane _ b fun _ => rfl
  · refine (laneWindow s b opener (2 * t)).trans ?_
    exact updLane _ b fun _ => rfl
  · exact .refl s

theorem dropLane (s : State) (l code : Nat) : MaxKept s (s.dropLane l code) := by
  have h2 (u : State) : MaxKept u (u.retireLane l code) := .ite (.refl u) (steps.raise ..)
  have h3 (u : State) : MaxKept u (u.endEnum l .timeout 0) := by
    refine trans ?_ (same (State.finishWaiting_lanes ..))
    exact updLane u l fun _ => rfl
  exact (((abortEye s l).trans (h2 _)).trans (h3 _)).trans (checkTakeover ..)

theorem sendAux (s : State) (l : Nat) : MaxKept s (s.sendAux l) := by
  have h : MaxKept s (s.updLane l fun x => { x with aux := x.aux + 1, auxAt := some s.now }) := updLane s l fun _ => rfl
  exact h.trans (same rfl)

theorem settleLane (s : State) (l : Nat) : MaxKept s (s.settleLane l) := by
  unfold State.settleLane
  extract_lets x u
  have hu : MaxKept s u := updLane s l fun _ => rfl
  exact .ite (hu.trans (dropLane ..)) (hu.trans (sendAux ..))

end MaxKept

/-- A lane settles at its speed, but for a retrain that may have to drop it. -/
theorem State.settleLane_lane {s : State} {l : Nat} (h : (s.lane l).proc ≠ .retrain) :
    ((s.settleLane l).lane l).state = .qual ∧ ((s.settleLane l).lane l).q = (s.lane l).speed ∧ ((s.settleLane l).lane l).auxAt = some s.now := by
  unfold State.settleLane
  extract_lets x u
  rw [if_neg fun hc => h hc.1]
  have hlane : (u.sendAux l).lane l = { u.lane l with aux := (u.lane l).aux + 1, auxAt := some u.now } := u.lane_updLane_same ..
  have hu : u.lane l = { s.lane l with state := .qual, q := (s.lane l).speed, gate := 7 } := s.lane_updLane_same ..
  rw [hlane, hu]
  exact ⟨rfl, rfl, rfl⟩

/-! ### Hunting (R146) -/

theorem State.badHeaders_rest (s : State) (l n : Nat) :
    s.badHeaders l n = { s with regs := (s.badHeaders l n).regs, hotAt := (s.badHeaders l n).hotAt, hot := (s.badHeaders l n).hot } := by
  unfold State.badHeaders
  split
  · rfl
  · obtain ⟨f, hf⟩ := State.count_acts (laneBase l + 0x14) n
    rw [hf]

/-- The state before the lane's counts are looked at. -/
def State.hunted (s : State) (l : Nat) (w : BitVec 66) : State :=
  (s.badHeaders l ((List.range 66).countP fun a => !syncOk (s.lane l).rxPrev w a)).updLane l fun x => { x with
    rxPrev := w, hunts := huntCounts (s.lane l) w }

theorem State.hunted_rest (s : State) (l : Nat) (w : BitVec 66) :
    s.hunted l w = { s with
        lanes := (s.hunted l w).lanes, regs := (s.hunted l w).regs, hotAt := (s.hunted l w).hotAt, hot := (s.hunted l w).hot } := by
  have h := s.badHeaders_rest l ((List.range 66).countP fun a => !syncOk (s.lane l).rxPrev w a)
  unfold State.hunted
  rw [h]
  rfl

theorem State.hunted_lane (s : State) (l : Nat) (w : BitVec 66) :
    (s.hunted l w).lane l = { s.lane l with rxPrev := w, hunts := huntCounts (s.lane l) w } ∧ ∀ m, m ≠ l → (s.hunted l w).lane m = s.lane m := by
  have h := s.badHeaders_rest l ((List.range 66).countP fun a => !syncOk (s.lane l).rxPrev w a)
  unfold State.hunted
  refine ⟨?_, fun m hm => ?_⟩
  · rw [State.lane_updLane_same, h]
    rfl
  · rw [State.lane_updLane_ne _ hm, h]
    rfl

theorem State.huntPiece_none {s : State} {l : Nat} {w : BitVec 66} (h : lockAt (huntCounts (s.lane l) w) = none) :
    s.huntPiece l w = s.hunted l w := by
  unfold State.huntPiece
  dsimp only
  rw [h]
  rfl

theorem State.huntPiece_some {s : State} {l a : Nat} {w : BitVec 66} (h : lockAt (huntCounts (s.lane l) w) = some a) :
    s.huntPiece l w = (s.hunted l w).gotLock l a := by
  unfold State.huntPiece
  dsimp only
  rw [h]
  rfl

section
variable {l : Fin 128} {r : RxWord} {rs : List RxWord} {w : BitVec 66} {s : State}

theorem exec_blockLock (h : (s.lane l).lock = false) : exec (.blockLock l rs) s = .next (State.receiveUntil (·.lock) l rs s) :=
  congrArg Host.Outcome.next (if_neg (by rw [h]; decide))

theorem State.receive_hunting (h : (s.lane l).isHunting = true) (hw : w = invertIf (s.fld (laneBase l) 4 1 == 1) r.bits) :
    (s.lane l).lock = false ∧ s.receive l r = s.huntPiece l w := by
  have hlock : (s.lane l).lock = false := by
    simp only [Lane.isHunting, Bool.and_eq_true, Bool.not_eq_true'] at h
    exact h.1
  refine ⟨hlock, ?_⟩
  unfold State.receive
  rw [hw, if_neg (by rw [hlock]; decide), if_pos h]

theorem receiveUntil_done {t : State} (h : s.receive l r = t) (ht : (t.lane l).lock = true) : State.receiveUntil (·.lock) l (r :: rs) s = t := by
  rw [State.receiveUntil, h]
  exact if_pos ht

theorem receiveUntil_more {t : State} (h : s.receive l r = t) (ht : (t.lane l).lock = false) :
    State.receiveUntil (·.lock) l (r :: rs) s = State.receiveUntil (·.lock) l rs t := by
  rw [State.receiveUntil, h]
  exact if_neg (by rw [ht]; decide)

theorem huntGoesOn (h : (s.lane l).isHunting = true) (hw : w = invertIf (s.fld (laneBase l) 4 1 == 1) r.bits)
    (hn : lockAt (huntCounts (s.lane l) w) = none) :
    ∃ t, exec (.blockLock l [r]) s = .next t ∧ exec (.blockLock l (r :: rs)) s = exec (.blockLock l rs) t
      ∧ (t.lane l) = { s.lane l with rxPrev := w, hunts := huntCounts (s.lane l) w }
      ∧ (∀ m, m ≠ l.val → t.lane m = s.lane m) ∧ t = { s with lanes := t.lanes, regs := t.regs, hotAt := t.hotAt, hot := t.hot } := by
  obtain ⟨hlock, hrec⟩ := State.receive_hunting h hw
  obtain ⟨hl, hne⟩ := s.hunted_lane l w
  rw [State.huntPiece_none hn] at hrec
  have hlock' : ((s.hunted l w).lane l).lock = false := by
    rw [hl]
    exact hlock
  refine ⟨s.hunted l w, ?_, ?_, hl, hne, s.hunted_rest l w⟩
  · rw [exec_blockLock hlock, receiveUntil_more hrec hlock']
    rfl
  · rw [exec_blockLock hlock, receiveUntil_more hrec hlock', exec_blockLock hlock']

/-- The lane as block lock finds it. -/
def Lane.lockedAt (x : Lane) (a : Nat) : Lane :=
  { x with lock := true, align := a, hdrs := [], skip := 58, fill := 8, hunts := [], openF := none }

theorem State.gotLock_hunt {s : State} {l a : Nat} (h : (s.lane l).state = .hunt) :
    s.gotLock l a = ((s.updLane l fun x => x.lockedAt a).updLane l fun x => { x with state := .capx, capxAt := s.now }).sendCapability l := by
  unfold State.gotLock
  dsimp only
  rw [h]
  rfl

theorem State.gotLock_step {s : State} {l a : Nat} (h : (s.lane l).state = .step) (hg : (s.lane l).gate ≠ 6) (hp : (s.lane l).proc = .bringup)
    (hs : (s.lane l).speed ≠ 0) :
    s.gotLock l a = (s.updLane l fun x => x.lockedAt a).updLane l fun x => { x with state := .qual, gate := 1 } := by
  have hlocked : (s.updLane l fun x => x.lockedAt a).lane l = (s.lane l).lockedAt a := s.lane_updLane_same ..
  unfold State.gotLock
  dsimp only
  rw [h]
  show (s.updLane l fun x => x.lockedAt a).stepLocked l = _
  unfold State.stepLocked
  rw [hlocked]
  refine (if_neg hg).trans ?_
  dsimp only [Lane.lockedAt]
  rw [hp]
  exact if_neg hs

theorem leNat_byte (l : List Byte) (i : Nat) : leNat l / 256 ^ i % 256 = (l.getD i 0).toNat := by
  induction l generalizing i with
  | nil => simp [leNat]
  | cons b l ih =>
    have hb := b.isLt
    cases i with
    | zero =>
      simp only [leNat, pow_zero, Nat.div_one, List.getD_cons_zero]
      omega
    | succ i =>
      rw [List.getD_cons_succ, ← ih i, leNat, pow_succ', ← Nat.div_div_eq_div_mul]
      congr 2
      omega

/-- The bytes of a block in the order of the list it is made of. -/
theorem blockByte_blockOf (l : List Byte) {i : Nat} (hi : i < 8) : blockByte (blockOf l) i = (l.getD i 0).toNat := by
  have hlt := leNat_lt ((l ++ List.replicate 8 0).take 8)
  have hlen : ((l ++ List.replicate 8 (0 : Byte)).take 8).length = 8 := by
    rw [List.length_take, List.length_append, List.length_replicate]
    omega
  have hget : ((l ++ List.replicate 8 (0 : Byte)).take 8).getD i 0 = l.getD i 0 := by
    rw [List.getD_eq_getElem?_getD, List.getElem?_take_of_lt hi, List.getD_eq_getElem?_getD]
    by_cases h : i < l.length
    · rw [List.getElem?_append_left h]
    · rw [List.getElem?_append_right (by omega), List.getElem?_eq_none (by omega : l.length ≤ i), List.getElem?_replicate]
      split <;> rfl
  rw [hlen] at hlt
  rw [blockByte, field, blockOf, BitVec.toNat_ofNat, Nat.mod_eq_of_lt (show _ < 2 ^ 64 from hlt), ← hget, ← leNat_byte, pow_mul]
  rfl

theorem capBlock_bytes (x : Lane) (l : Nat) : blockByte (x.capBlock l) 0 = 0xD3 ∧ blockByte (x.capBlock l) 1 / 32 % 2 = l % 2
    ∧ blockByte (x.capBlock l) 2 % 2 = bit x.capAck := by
  have hb : bit x.capAck < 2 := by cases x.capAck <;> decide
  unfold Lane.capBlock
  refine ⟨blockByte_blockOf _ (by decide), ?_, ?_⟩
  · rw [blockByte_blockOf _ (by decide), List.getD_cons_succ, List.getD_cons_zero, BitVec.toNat_ofNat]
    omega
  · rw [blockByte_blockOf _ (by decide), List.getD_cons_succ, List.getD_cons_succ, List.getD_cons_zero, BitVec.toNat_ofNat]
    omega

theorem lockStartsExchange {a : Nat} (h : (s.lane l).isHunting = true) (hw : w = invertIf (s.fld (laneBase l) 4 1 == 1) r.bits)
    (ha : lockAt (huntCounts (s.lane l) w) = some a) (hst : (s.lane l).state = .hunt) :
    ∃ t, exec (.blockLock l (r :: rs)) s = .next t ∧ (t.lane l).state = .capx ∧ (t.lane l).lock = true ∧ (t.lane l).capxAt = s.now
      ∧ (t.lane l).align = a ∧ (t.lane l).skip = 58 ∧ (t.lane l).fill = 8
      ∧ (∃ b, t.out = s.out ++ [.laneBlock l b] ∧ blockByte b 0 = 0xD3 ∧ blockByte b 1 / 32 % 2 = l % 2)
      ∧ (∀ m, m ≠ l.val → t.lane m = s.lane m)
      ∧ t = { s with lanes := t.lanes, regs := t.regs, hotAt := t.hotAt, hot := t.hot, out := t.out } := by
  obtain ⟨hlock, hrec⟩ := State.receive_hunting h hw
  obtain ⟨hl, hne⟩ := s.hunted_lane l w
  have hrest := s.hunted_rest l w
  rw [State.huntPiece_some ha] at hrec
  generalize s.hunted l w = u at hl hne hrest hrec
  rw [State.gotLock_hunt (by rw [hl]; exact hst)] at hrec
  generalize hv : (u.updLane l fun x => x.lockedAt a).updLane l (fun x => { x with state := .capx, capxAt := u.now }) = v at hrec
  have hvl : v.lane l = { (u.lane l).lockedAt a with state := .capx, capxAt := u.now } := by
    rw [← hv, State.lane_updLane_same, State.lane_updLane_same]
  have hnow : u.now = s.now := by
    rw [hrest]
    rfl
  have htl : (v.sendCapability l).lane l = v.lane l := rfl
  obtain ⟨b0, b1, -⟩ := capBlock_bytes (v.lane l) l
  refine ⟨_, (exec_blockLock hlock).trans (congrArg Host.Outcome.next (receiveUntil_done hrec ?_)), ?_, ?_, ?_, ?_, ?_, ?_, ⟨_, ?_, b0, b1⟩,
    fun m hm => ?_, ?_⟩
  · rw [htl, hvl]
    rfl
  · rw [htl, hvl]
  · rw [htl, hvl]
    rfl
  · rw [htl, hvl]
    exact hnow
  · rw [htl, hvl]
    rfl
  · rw [htl, hvl]
    rfl
  · rw [htl, hvl]
    rfl
  · show v.out ++ _ = _
    rw [← hv, hrest]
    rfl
  · show v.lane m = _
    rw [← hv, State.lane_updLane_ne _ hm, State.lane_updLane_ne _ hm, hne m hm]
  · rw [State.sendCapability, ← hv, hrest]
    rfl

theorem lockStartsGates {a : Nat} (h : (s.lane l).isHunting = true) (hw : w = invertIf (s.fld (laneBase l) 4 1 == 1) r.bits)
    (ha : lockAt (huntCounts (s.lane l) w) = some a) (hst : (s.lane l).state = .step) (hg : (s.lane l).gate ≠ 6)
    (hp : (s.lane l).proc = .bringup) (hs : (s.lane l).speed ≠ 0) :
    ∃ t, exec (.blockLock l (r :: rs)) s = .next t ∧ (t.lane l).state = .qual ∧ (t.lane l).gate = 1 ∧ (t.lane l).lock = true
      ∧ (t.lane l).speed = (s.lane l).speed ∧ t = { s with lanes := t.lanes, regs := t.regs, hotAt := t.hotAt, hot := t.hot } := by
  obtain ⟨hlock, hrec⟩ := State.receive_hunting h hw
  obtain ⟨hl, -⟩ := s.hunted_lane l w
  have hrest := s.hunted_rest l w
  rw [State.huntPiece_some ha] at hrec
  generalize s.hunted l w = u at hl hrest hrec
  rw [State.gotLock_step (by rw [hl]; exact hst) (by rw [hl]; exact hg) (by rw [hl]; exact hp) (by rw [hl]; exact hs)] at hrec
  generalize hv : (u.updLane l fun x => x.lockedAt a).updLane l (fun x => { x with state := .qual, gate := 1 }) = v at hrec
  have hvl : v.lane l = { (u.lane l).lockedAt a with state := .qual, gate := 1 } := by
    rw [← hv, State.lane_updLane_same, State.lane_updLane_same]
  refine ⟨v, (exec_blockLock hlock).trans (congrArg Host.Outcome.next (receiveUntil_done hrec ?_)), ?_, ?_, ?_, ?_, ?_⟩
  · rw [hvl]
    rfl
  · rw [hvl]
  · rw [hvl]
  · rw [hvl]
    rfl
  · rw [hvl]
    show (u.lane l).speed = _
    rw [hl]
  · rw [← hv, hrest]
    rfl

end

end Sys2Proof.Machine
end
section
/-! SUPPORT. The exchange, the STEPs and the gates of a lane's training. -/

namespace Sys2Proof.Machine

/-! ### The exchange (R151) -/

theorem State.exchanged_kept {s : State} {l : Nat} (h : (s.lane l).state ≠ .wake) : MaxKept s (s.exchanged l) := by
  unfold State.exchanged
  extract_lets x top
  rw [if_neg h]
  exact .ite (.ite (.settleLane ..) (.startStep ..)) (.ite (.settleLane ..) (.startStep ..))

theorem State.exchanged_bringup {s : State} {l : Nat} (h : (s.lane l).state ≠ .wake) (hp : (s.lane l).proc = .bringup)
    (ht : 0 < min (s.lane l).maxSpd (s.lane l).hubMax) : s.exchanged l = s.startStep l 1 .bringup := by
  unfold State.exchanged
  extract_lets x top
  rw [if_neg h, if_neg (by rw [show x.proc = .bringup from hp]; decide), if_neg (show top ≠ 0 from ht.ne')]

/-- A CAPABILITY block without its reserved bits (Table 5-4). -/
def capOf (b : Block) : Block := BitVec.ofNat 64 (b.toNat % 2 ^ 23)

theorem blockByte_capOf (b : Block) : blockByte (capOf b) 0 = blockByte b 0 ∧ blockByte (capOf b) 1 = blockByte b 1
    ∧ blockByte (capOf b) 2 % 2 = blockByte b 2 % 2 := by
  have hb := b.isLt
  have ht : (capOf b).toNat = b.toNat % 2 ^ 23 := by
    rw [capOf, BitVec.toNat_ofNat]
    omega
  unfold blockByte field
  rw [ht]
  refine ⟨?_, ?_, ?_⟩ <;> omega

/-- The lane as a CAPABILITY block leaves it. -/
def Lane.told (x : Lane) (b : Block) : Lane :=
  { x with
    capLast := some (capOf b), capCount := if x.capLast = some (capOf b) then x.capCount + 1 else 1,
    capAck := x.capAck || decide (3 ≤ if x.capLast = some (capOf b) then x.capCount + 1 else 1), hubMax := blockByte b 1 / 64 }

section
variable {l : Fin 128} {b : Block} {s : State}

/-- A CAPABILITY block of the lane's own hub. -/
theorem State.capabilityIn_own (hs : (s.lane l).state = .capx) (hl : (s.lane l).lock = true)
    (h0 : blockByte b 0 = 0xD3) (h16 : blockByte b 1 / 16 % 2 = 1) (h32 : blockByte b 1 / 32 % 2 = l % 2) (h1 : blockByte b 1 % 16 = 1) :
    ∃ u, u.lane l = (s.lane l).told b ∧ u.out = s.out ++ (if ((s.lane l).told b).capAck && !(s.lane l).capAck then
        [.laneBlock l (((s.lane l).told b).capBlock l)] else [])
      ∧ s.capabilityIn l b = if ((s.lane l).told b).capAck = true ∧ blockByte b 2 % 2 = 1 then
        (u.setReg (laneBase l + 0xC)
          (BitVec.ofNat 32 (blockByte b 1 / 64 + 4 * (blockByte b 1 / 32 % 2) + 16 * (blockByte b 1 % 16) + 256))).exchanged l else u := by
  obtain ⟨b0, b1, b2⟩ := blockByte_capOf b
  have hlane := s.lane_updLane_same l fun x => x.told b
  generalize hv : (s.updLane l fun x => x.told b) = v at hlane
  have hvo : v.out = s.out := by rw [← hv]; rfl
  refine ⟨if ((s.lane l).told b).capAck && !(s.lane l).capAck then v.sendCapability l else v, ?_, ?_, ?_⟩
  · split
    · exact hlane
    · exact hlane
  · split
    · show v.out ++ [.laneBlock l ((v.lane l).capBlock l)] = _
      rw [hvo, hlane]
    · rw [hvo, List.append_nil]
  · unfold State.capabilityIn
    extract_lets x c y n ack u w
    have e0 : blockByte c 0 = 0xD3 := b0.trans h0
    have e1 : y = blockByte b 1 := b1
    have hu : u = v := by
      rw [← hv]
      dsimp only [u, State.updLane, Tab.upd, Lane.told]
      rw [e1]
      rfl
    have e2 : blockByte c 2 % 2 = blockByte b 2 % 2 := b2
    rw [if_neg (by rw [e0]; simp [x, hs, hl]), if_neg (by rw [e1, h16]; decide), if_neg (by rw [e1, h32, h1]; simp), e2, e1]
    rw [← hu]
    rfl

theorem capabilityTaken {m : Block} (hs : (s.lane l).state = .capx) (hl : (s.lane l).lock = true) (ho : (s.lane l).openF = none)
    (h0 : blockByte b 0 = 0xD3) (h16 : blockByte b 1 / 16 % 2 = 1) (h32 : blockByte b 1 / 32 % 2 = l % 2) (h1 : blockByte b 1 % 16 = 1)
    (hm : m = BitVec.ofNat 64 (b.toNat % 2 ^ 23)) :
    ∃ t, exec (.capability l b) s = .next t ∧ (t.lane l).hubMax = blockByte b 1 / 64
      ∧ ((s.lane l).capAck = false → (s.lane l).capLast ≠ some m → (t.lane l).capAck = false ∧ (t.lane l).capCount = 1
          ∧ (t.lane l).capLast = some m ∧ (t.lane l).state = .capx)
      ∧ ((s.lane l).capAck = false → (s.lane l).capLast = some m → (s.lane l).capCount = 2 → blockByte b 2 % 2 = 0 →
          (t.lane l).capAck = true ∧ (t.lane l).state = .capx ∧ ∃ c, t.out = s.out ++ [.laneBlock l c] ∧ blockByte c 2 % 2 = 1)
      ∧ ((s.lane l).capAck = true → blockByte b 2 % 2 = 1 → (s.lane l).proc = .bringup →
          0 < min (s.lane l).maxSpd (blockByte b 1 / 64) →
          (t.lane l).state = .step ∧ (t.lane l).target = 1 ∧ (t.lane l).sends = 1) := by
  obtain ⟨u, hu, hout, hcap⟩ := State.capabilityIn_own hs hl h0 h16 h32 h1
  have hexec : exec (.capability l b) s = .next (s.capabilityIn l b) := by
    simp only [exec, execCapability, State.breakFrame_closed ho]
  have hmc : capOf b = m := hm.symm
  rw [hcap] at hexec
  generalize hw : u.setReg (laneBase l + 0xC)
    (BitVec.ofNat 32 (blockByte b 1 / 64 + 4 * (blockByte b 1 / 32 % 2) + 16 * (blockByte b 1 % 16) + 256)) = w at hexec
  have hwl : w.lane l = u.lane l := by
    rw [← hw]
    rfl
  refine ⟨_, hexec, ?_, fun ha hn => ?_, fun ha hn hc h2 => ?_, fun ha h2 hp ht => ?_⟩
  · have hmax : (u.lane l).hubMax = blockByte b 1 / 64 := by rw [hu]; rfl
    split
    · rw [(State.exchanged_kept (by rw [hwl, hu]; exact hs ▸ by decide)).lane, hwl, hmax]
    · exact hmax
  · have hone : (if (s.lane l).capLast = some (capOf b) then (s.lane l).capCount + 1 else 1) = 1 := if_neg (by rw [hmc]; exact hn)
    have hack : ((s.lane l).told b).capAck = false := by
      dsimp only [Lane.told]
      rw [ha, hone]
      rfl
    rw [if_neg (by rw [hack]; simp), hu]
    exact ⟨hack, hone, congrArg some hmc, hs⟩
  · have hthree : (if (s.lane l).capLast = some (capOf b) then (s.lane l).capCount + 1 else 1) = 3 := by rw [if_pos (by rw [hmc]; exact hn), hc]
    have hack : ((s.lane l).told b).capAck = true := by
      dsimp only [Lane.told]
      rw [ha, hthree]
      rfl
    rw [if_neg (by rw [h2]; simp), hu]
    refine ⟨hack, hs, ((s.lane l).told b).capBlock l, ?_, ?_⟩
    · rw [hout, hack, ha]
      rfl
    · rw [(capBlock_bytes ..).2.2, hack]
      rfl
  · have hack : ((s.lane l).told b).capAck = true := by
      dsimp only [Lane.told]
      rw [ha]
      rfl
    have hwake : (w.lane l).state ≠ .wake := by
      rw [hwl, hu]
      exact hs ▸ by decide
    rw [if_pos ⟨hack, h2⟩, State.exchanged_bringup hwake (by rw [hwl, hu]; exact hp) (by rw [hwl, hu]; exact ht), State.startStep_lane]
    exact ⟨rfl, rfl, rfl⟩

/-! ### STEPs (R154) -/

theorem forNat_emit (k : Nat) (o : Output) (s : State) : forNat k (fun _ s => s.emit o) s = { s with out := s.out ++ List.replicate k o } := by
  induction k with
  | zero =>
    rw [List.replicate_zero, List.append_nil]
    rfl
  | succ k ih =>
    rw [forNat, ih, List.replicate_succ', ← List.append_assoc]
    rfl

theorem linkAckJudged (ho : (s.lane l).openF = none) (h0 : blockByte b 0 = 0xD5) (h1 : blockByte b 1 = 2)
    (h3 : blockByte b 3 = (s.lane l).seq.toNat) :
    ((s.lane l).state = .step → (s.lane l).acked = false → blockByte b 2 = 1 →
      ∃ t, exec (.linkCmdAck l b) s = .next t ∧ t.lane l = { s.lane l with acked := true, turning := true }
        ∧ t.out = s.out ++ List.replicate 16 (.laneBlock l 0xA1) ∧ (∀ m, m ≠ l.val → t.lane m = s.lane m)
        ∧ t = { s with lanes := t.lanes, out := t.out })
    ∧ ((s.lane l).state = .warm → (s.lane l).dormantReq = true → blockByte b 2 = 5 →
      ∃ t, exec (.linkCmdAck l b) s = .next t ∧ (t.lane l).state = .dormant ∧ (t.lane l).lock = false
        ∧ ∀ m, m ≠ l.val → t.lane m = s.lane m) := by
  have hexec : exec (.linkCmdAck l b) s = .next (s.linkAckIn l b) := by
    simp only [exec, execLinkCmdAck, State.breakFrame_closed ho]
  have hmine : ¬(blockByte b 0 ≠ 0xD5 ∨ blockByte b 1 ≠ 2 ∨ blockByte b 3 ≠ (s.lane l).seq.toNat) := by
    rw [h0, h1, h3]
    simp
  rw [hexec]
  unfold State.linkAckIn
  rw [if_neg hmine]
  refine ⟨fun hs ha h2 => ?_, fun hs hd h2 => ?_⟩
  · rw [if_pos ⟨hs, by rw [ha]; rfl, h2⟩]
    refine ⟨_, rfl, ?_, ?_, fun m hm => ?_, ?_⟩
    · rw [State.lane_updLane_same, forNat_emit]
      rfl
    · rw [forNat_emit]
      rfl
    · rw [State.lane_updLane_ne _ hm, forNat_emit]
      rfl
    · rw [forNat_emit]
      rfl
  · rw [if_neg (by rw [hs]; simp), if_pos ⟨hs, hd, h2⟩]
    refine ⟨_, rfl, ?_, ?_, fun m hm => ?_⟩
    · rw [State.lane_updLane_same]
    · rw [State.lane_updLane_same]
    · rw [State.lane_updLane_ne _ hm, State.abortEye_lane_ne _ hm]

theorem fillersLeave (l : Fin 128) (s : State) (ht : (s.lane l).turning = true) :
    ((∃ i ∈ (s.lane l).txLo, i.data = false ∧ i.b = 0xA1) → s.turnLane l = s)
    ∧ ((∀ i ∈ (s.lane l).txLo, i.data = true ∨ i.b ≠ 0xA1) →
      ∃ t, s.turnLane l = t ∧ (t.lane l).speed = (s.lane l).target ∧ (t.lane l).lock = false ∧ (t.lane l).turning = false
        ∧ (t.lane l).stepAt = s.now ∧ (t.lane l).hunts = [] ∧ (t.lane l).eye = none
        ∧ (∀ m, m ≠ l.val → t.lane m = s.lane m) ∧ t = { s with lanes := t.lanes, regs := t.regs, hotAt := t.hotAt, hot := t.hot }) := by
  unfold State.turnLane
  refine ⟨fun ⟨i, hi, hd, hb⟩ => ?_, fun h => ?_⟩
  · have hany : ((s.lane l).txLo.any fun i => !i.data && i.b == fillerBlock) = true :=
      List.any_eq_true.mpr ⟨i, hi, by rw [hd, hb]; rfl⟩
    exact if_neg (by rw [hany]; simp)
  · have hany : ((s.lane l).txLo.any fun i => !i.data && i.b == fillerBlock) = false :=
      List.any_eq_false.mpr fun i hi => by
        rcases h i hi with hd | hb
        · simp [hd]
        · simp only [Bool.and_eq_true, beq_iff_eq, not_and]
          exact fun _ => hb
    dsimp only
    rw [if_pos (by rw [hany, ht]; rfl)]
    refine ⟨_, rfl, ?_, ?_, ?_, ?_, ?_, ?_, fun m hm => ?_, ?_⟩
    · rw [State.lane_updLane_same, State.abortEye_lane_same]
    · rw [State.lane_updLane_same]
    · rw [State.lane_updLane_same]
    · rw [State.lane_updLane_same]
    · rw [State.lane_updLane_same]
    · rw [State.lane_updLane_same, State.abortEye_lane_same]
    · rw [State.lane_updLane_ne _ hm, State.abortEye_lane_ne _ hm]
    · rw [(s.abortEye_spec l).1]
      rfl

/-! ### The gates (R156) -/

theorem gateFails (l : Nat) (s : State) : ((s.gateFail l).lane l).state = .step ∧ ((s.gateFail l).lane l).target = (s.lane l).speed - 1 := by
  unfold State.gateFail
  rw [State.startStep_lane]
  exact ⟨rfl, rfl⟩

theorem gatePoint (l : Fin 128) (d : Word) (s : State) (hs : (s.lane l).state = .qual) (h1 : 1 ≤ (s.lane l).gate) (h4 : (s.lane l).gate ≤ 4) :
    ∃ t, exec (.qualPointDone l d) s = .next t
      ∧ (d = 0 → (t.lane l).gate = (s.lane l).gate + 1 ∧ (t.lane l).state = .qual)
      ∧ (d = 0 → (s.lane l).gate = 4 → ∃ b, t.out = s.out ++ [.laneBlock l b] ∧ blockByte b 0 = 0xD5 ∧ blockByte b 1 = 3)
      ∧ (d ≠ 0 → (t.lane l).state = .step ∧ (t.lane l).target = (s.lane l).speed - 1) := by
  have hgo : ¬((s.lane l).state ≠ .qual ∨ (s.lane l).gate = 0 ∨ 4 < (s.lane l).gate) := by
    rw [hs]
    simp only [ne_eq, not_true_eq_false, false_or]
    omega
  by_cases hd : d = 0
  · by_cases h : (s.lane l).gate < 4
    · have hexec : exec (.qualPointDone l d) s = .next (s.updLane l fun x => { x with gate := x.gate + 1 }) := by
        simp only [exec, execQualPointDone, if_neg hgo, hd, ne_eq, not_true_eq_false, if_false, if_pos h]
      refine ⟨_, hexec, fun _ => ?_, fun _ h' => absurd h' h.ne, fun h' => absurd hd h'⟩
      rw [State.lane_updLane_same]
      exact ⟨rfl, hs⟩
    · have hexec : exec (.qualPointDone l d) s = .next ((s.updLane l fun x => { x with gate := 5, seq := x.seq + 1 }).sendLinkCmd l 3 0
          ((s.lane l).seq + 1)) := by
        simp only [exec, execQualPointDone, if_neg hgo, hd, ne_eq, not_true_eq_false, if_false, if_neg h]
      refine ⟨_, hexec, fun _ => ?_, fun _ _ => ⟨_, rfl, blockByte_blockOf _ (by decide), blockByte_blockOf _ (by decide)⟩, fun h' => absurd hd h'⟩
      have hlane := s.lane_updLane_same l fun x => { x with gate := 5, seq := x.seq + 1 }
      exact ⟨(congrArg Lane.gate hlane).trans (by show 5 = _; omega), (congrArg Lane.state hlane).trans hs⟩
  · have hexec : exec (.qualPointDone l d) s = .next (s.gateFail l) := by
      simp only [exec, execQualPointDone, if_neg hgo, ne_eq, hd, not_false_eq_true, if_true]
    exact ⟨_, hexec, fun h' => absurd h' hd, fun h' => absurd h' hd, fun _ => gateFails l s⟩

theorem gateReport (ho : (s.lane l).openF = none) (hs : (s.lane l).state = .qual) (hg : (s.lane l).gate = 5)
    (h0 : blockByte b 0 = 0xD5) (h1 : blockByte b 1 = 4) (h3 : blockByte b 3 = (s.lane l).seq.toNat) :
    ∃ t, exec (.reportRsp l b) s = .next t
      ∧ (field b.toNat 32 16 = 0 → (s.lane l).proc = .bringup →
          (s.lane l).speed < min (s.lane l).maxSpd (s.lane l).hubMax →
          (t.lane l).state = .step ∧ (t.lane l).target = (s.lane l).speed + 1)
      ∧ (field b.toNat 32 16 = 0 → (s.lane l).proc = .bringup →
          min (s.lane l).maxSpd (s.lane l).hubMax ≤ (s.lane l).speed →
          (t.lane l).state = .qual ∧ (t.lane l).q = (s.lane l).speed ∧ (t.lane l).auxAt = some s.now)
      ∧ (field b.toNat 32 16 ≠ 0 → (t.lane l).state = .step ∧ (t.lane l).target = (s.lane l).speed - 1) := by
  have hmine : ¬((s.lane l).state ≠ .qual ∨ (s.lane l).gate ≠ 5 ∨ blockByte b 0 ≠ 0xD5 ∨ blockByte b 1 ≠ 4 ∨ blockByte b 3 ≠
      (s.lane l).seq.toNat) := by
    rw [hs, hg, h0, h1, h3]
    simp
  have hexec : exec (.reportRsp l b) s = .next (if field b.toNat 32 16 = 0 then s.gatesPass l else s.gateFail l) := by
    simp only [exec, execReportRsp, State.breakFrame_closed ho, State.reportIn, if_neg hmine]
  refine ⟨_, hexec, fun hf hp hlt => ?_, fun hf hp hle => ?_, fun hf => ?_⟩
  · rw [if_pos hf, State.gatesPass, if_pos ⟨hp, hlt⟩, State.startStep_lane]
    exact ⟨rfl, rfl⟩
  · rw [if_pos hf, State.gatesPass, if_neg fun h => absurd h.2 hle.not_gt]
    exact State.settleLane_lane (by rw [hp]; decide)
  · rw [if_neg hf]
    exact gateFails l s

theorem eyePoint {count : Word} {lost : Bool} {i : Nat} (he : (s.lane l).eye = some i) (hsh : s.sheds 0 = false)
    (hq : (s.lane l).state ≠ .qual ∨ (s.lane l).gate = 0 ∨ 4 < (s.lane l).gate) :
    ∃ t, exec (.eyeScanPoint l count lost) s = .next t
      ∧ (t.lane l).eye = (if i + 1 < 16320 then some (i + 1) else none) ∧ (∀ m, m ≠ l.val → t.lane m = s.lane m)
      ∧ t = { s with lanes := t.lanes, regs := t.regs, hotAt := t.hotAt, hot := t.hot, rings := t.rings, out := t.out, epl := t.epl } := by
  have hfree : (s.sheds 0 || ((s.lane l).state == .qual && decide (1 ≤ (s.lane l).gate) && decide ((s.lane l).gate ≤ 4))) = false := by
    rw [hsh]
    rcases hq with h | h | h
    · simp [beq_eq_false_iff_ne.mpr h]
    · simp [h]
    · simp [Nat.not_le.mpr h]
  have hcap := CaptureFrame.capture s (s.fld (laneBase l + 0x1C) 4 4) 0x03 (eyeRecord l i (s.fld (laneBase l + 4) 16 5) count lost)
  generalize hr : s.capture (s.fld (laneBase l + 0x1C) 4 4) 0x03 (eyeRecord l i (s.fld (laneBase l + 4) 16 5) count lost) = r at hcap
  generalize hu : (if r.2 then r.1 else s.captureLost l).tally 14 (2 ^ s.fld (laneBase l + 4) 16 5) = u
  have hexec : exec (.eyeScanPoint l count lost) s = .next (if i + 1 < 16320 then u.updLane l fun x => { x with eye := some (i + 1) }
      else (u.updLane l fun x => { x with eye := none }).flag (laneBase l + 0x1C) 2) := by
    simp only [exec, execEyeScanPoint, he, hfree, Bool.false_eq_true, if_false, hr, hu]
  have hother : ∀ m, m ≠ l.val → u.lane m = s.lane m := fun m hm => by
    rw [← hu]
    show (if r.2 = true then r.1 else s.captureLost l).lane m = _
    split
    · rw [hcap.rest]
      rfl
    · exact State.lane_updLane_ne _ hm _
  have hrest : u = { s with lanes := u.lanes, regs := u.regs, rings := u.rings, out := u.out, epl := u.epl } := by
    rw [← hu]
    split
    · rw [hcap.rest]
      rfl
    · rfl
  refine ⟨_, hexec, ?_, fun m hm => ?_, ?_⟩
  · split
    · rw [State.lane_updLane_same]
    · show ((u.updLane l fun x => { x with eye := none }).lane l).eye = none
      rw [State.lane_updLane_same]
  · split
    · rw [State.lane_updLane_ne _ hm, hother m hm]
    · show (u.updLane l fun x => { x with eye := none }).lane m = _
      rw [State.lane_updLane_ne _ hm, hother m hm]
  · split
    · rw [hrest]
      rfl
    · rw [hrest]
      rfl

/-! ### Timers (Table 5-3) -/

/-- A raise leaves a lane, or retires it: then it is in no procedure. -/
structure RaisedLane (s t : State) : Prop where
  lane : ∀ l, t.lane l = s.lane l ∨ ((t.lane l).state = .retired ∧ (t.lane l).proc = .none)

theorem RaisedLane.same {s t : State} (h : t.lanes = s.lanes) : RaisedLane s t := ⟨fun l => .inl (by rw [State.lane, h, State.lane])⟩

theorem RaisedLane.steps : RaiseSteps RaisedLane where
  refl s := .same rfl
  trans h k := ⟨fun l => (k.lane l).elim (fun e => by rw [e]; exact h.lane l) .inr⟩
  books s t h _ := by
    rw [h]
    exact .same rfl
  fence s n := ⟨fun l => .inl ((FencePart.fenceOctad s n).lane l)⟩
  outputs s x := .same rfl
  lane s l := ⟨fun m => by
    unfold State.laneToRetired
    by_cases h : m = l
    · rw [h, State.lane_updLane_same]
      exact .inr ⟨rfl, rfl⟩
    · exact .inl (by rw [State.lane_updLane_ne _ h, State.abortEye_lane_ne _ h])⟩
  cell s c := .same rfl
  ports s x y := .same rfl


theorem stepNotAcked (l : Fin 128) (s : State) (hs : (s.lane l).state = .step) (ha : (s.lane l).acked = false)
    (hd : (s.lane l).sentAt + 20000 ≤ s.now) :
    ∃ t, exec (.tAck l) s = .next t
      ∧ ((s.lane l).sends < 3 → (t.lane l).sends = (s.lane l).sends + 1 ∧ (t.lane l).seq = (s.lane l).seq
          ∧ (t.lane l).sentAt = s.now ∧ t.out.length = s.out.length + 1)
      ∧ (3 ≤ (s.lane l).sends → (s.lane l).proc = .bringup → (t.lane l).state = .qual ∧ (t.lane l).auxAt = some s.now) := by
  have hgo : ¬((s.lane l).state ≠ .step ∨ (s.lane l).acked = true) := by
    rw [hs, ha]
    simp
  have hexec : exec (.tAck l) s = .next (if (s.lane l).sends < 3 then
      (s.updLane l fun x => { x with sends := x.sends + 1, sentAt := s.now }).sendLinkCmd l 1 (s.lane l).target (s.lane l).seq
      else s.stepUnacked l) := by
    simp only [exec, execTAck, if_neg hgo, State.whenDue, if_pos hd]
  refine ⟨_, hexec, fun hlt => ?_, fun hge hp => ?_⟩
  · rw [if_pos hlt]
    have hlane := s.lane_updLane_same l fun x => { x with sends := x.sends + 1, sentAt := s.now }
    exact ⟨(congrArg Lane.sends hlane :), (congrArg Lane.seq hlane :), (congrArg Lane.sentAt hlane :), List.length_append⟩
  · rw [if_neg hge.not_gt]
    unfold State.stepUnacked
    dsimp only
    rw [hp]
    have hf := s.raise_frame 0x1704 l []
    have hlane := (RaisedLane.steps.raise s 0x1704 l []).lane l
    generalize s.raise 0x1704 l [] = u at hf hlane
    have hproc : (u.lane l).proc ≠ .retrain := by
      rcases hlane with h | h
      · rw [h, hp]
        decide
      · rw [h.2]
        decide
    obtain ⟨h1, -, h3⟩ := State.settleLane_lane hproc
    exact ⟨h1, by rw [h3, hf.now_eq]⟩

theorem stepNotLocked (l : Fin 128) (s : State) (hs : (s.lane l).state = .step) (ha : (s.lane l).acked = true) (hl : (s.lane l).lock = false)
    (ht : (s.lane l).turning = false) (hd : (s.lane l).stepAt + 80000 ≤ s.now) (hg : (s.lane l).gate ≠ 6) (hp : (s.lane l).proc = .bringup) :
    ∃ t, exec (.tStep l) s = .next t
      ∧ ((t.lane l).state = .retired ∨ (t.lane l).speed = (s.lane l).from_ ∧ (t.lane l).stepAt = s.now ∧ (t.lane l).state = .step) := by
  have hgo : ¬((s.lane l).state ≠ .step ∨ (!(s.lane l).acked) = true ∨ (s.lane l).turning = true ∨ (s.lane l).lock = true) := by
    rw [hs, ha, ht, hl]
    simp
  have hf := s.raise_frame 0x1704 l []
  have hlane := (RaisedLane.steps.raise s 0x1704 l []).lane l
  generalize hu : s.raise 0x1704 l [] = u at hf hlane
  have hexec : exec (.tStep l) s = .next ((u.abortEye l).updLane l fun x => { x with
      speed := x.from_, gate := 6, stepAt := u.now, hunts := [], hdrs := [],
      proc := if x.proc = .bringup then .fallback else .retrain }) := by
    simp only [exec, execTStep, if_neg hgo, State.whenDue, if_pos hd, if_neg hg, hu, if_pos (Or.inl hp : _ ∨ (s.lane l).proc = .retrain)]
  refine ⟨_, hexec, ?_⟩
  rw [State.lane_updLane_same, State.abortEye_lane_same]
  rcases hlane with h | h
  · rw [h]
    exact .inr ⟨rfl, hf.now_eq, hs⟩
  · exact .inl h.1

end

/-- Settles O41: hunting, exchange, STEPs, gates, scans and timers one by one. -/
theorem lanesTrainStepByStep : Obligations.LanesTrainStepByStep := by
  unfold Obligations.LanesTrainStepByStep
  exact ⟨fun l r rs w s h hw => ⟨huntGoesOn h hw, fun a ha hst => lockStartsExchange h hw ha hst,
      fun a ha hst hg hp hs => lockStartsGates h hw ha hst hg hp hs⟩,
    fun l b m s hs hl ho h0 h16 h32 h1 hm => capabilityTaken hs hl ho h0 h16 h32 h1 hm,
    fun l b s ho h0 h1 h3 => linkAckJudged ho h0 h1 h3, fillersLeave, gatePoint,
    fun l b s ho hs hg h0 h1 h3 => gateReport ho hs hg h0 h1 h3, fun l count lost i s he hsh hq => eyePoint he hsh hq,
    stepNotAcked, stepNotLocked⟩

end Sys2Proof.Machine
end
section
/-! SUPPORT. Raises that touch no lane, and lanes that keep without lock. -/

namespace Sys2Proof.Machine

/-! ### A fault of no lane leaves the lanes -/

/-- The lanes are what they were. -/
structure LanesSame (s t : State) : Prop where
  lanes : t.lanes = s.lanes

namespace LanesSame
variable {s t u : State}

theorem refl (s : State) : LanesSame s s := ⟨rfl⟩
theorem trans (h : LanesSame s t) (k : LanesSame t u) : LanesSame s u := ⟨k.lanes.trans h.lanes⟩

theorem ite {c : Prop} [Decidable c] {a b : State} (ha : LanesSame s a) (hb : LanesSame s b) : LanesSame s (if c then a else b) := by
  split
  · exact ha
  · exact hb

theorem foldl {α : Type} {f : State → α → State} (h : ∀ u a, LanesSame u (f u a)) (l : List α) (s : State) : LanesSame s (l.foldl f s) := by
  induction l generalizing s with
  | nil => exact refl s
  | cons a l ih => exact (h s a).trans (ih _)

theorem forNat {f : Nat → State → State} (h : ∀ i s, LanesSame s (f i s)) (n : Nat) (s : State) : LanesSame s (Machine.forNat n f s) :=
  forNat_induct (P := LanesSame s) (fun i _ hu => hu.trans (h i _)) n (refl s)

theorem count (s : State) (a k : Nat) : LanesSame s (s.count a k) := by
  obtain ⟨f, hf⟩ := State.count_acts a k
  rw [hf]
  exact ⟨rfl⟩

theorem enqueue (s : State) (r : Report) : LanesSame s (s.enqueue r) := by
  unfold State.enqueue
  refine .ite ⟨rfl⟩ (trans ?_ (count ..))
  exact ⟨rfl⟩

theorem recordFault (s : State) (fn : Bool) (code : Nat) (cls : FClass) (r : Report) : LanesSame s (s.recordFault fn code cls r) := by
  have hmerge (u : State) : LanesSame u (u.mergeFallback code cls) := by
    unfold State.mergeFallback
    split
    · exact refl u
    · exact ⟨rfl⟩
  unfold State.recordFault
  extract_lets u
  have hu : LanesSame s u := .ite ⟨rfl⟩ (.refl s)
  refine .ite (hu.trans (enqueue ..)) (.ite (hu.trans (hmerge u)) (hu.trans ⟨rfl⟩))

theorem recordConsequential (s : State) (w : Window) (r : Report) : LanesSame s (s.recordConsequential w r) :=
  (enqueue s r).trans ⟨rfl⟩

theorem enterActive (s : State) (code src : Nat) (cls : FClass) (cb : Byte) (fn : Bool) (mask id : Nat) :
    LanesSame s (s.enterActive code src cls cb fn mask id).1 := by
  unfold State.enterActive
  dsimp only
  split
  · exact ⟨rfl⟩
  · split <;> exact ⟨rfl⟩

theorem fenceReaction (s : State) (cls : FClass) (mask code src id : Nat) : LanesSame s (s.fenceReaction cls mask code src id) := by
  have hfence (u : State) (n : Nat) : LanesSame u (u.fenceOctad n) := ⟨by rw [(FencePart.fenceOctad u n).rest]⟩
  refine forNat (fun n u => .ite (.ite (hfence u n) ((hfence u n).trans ?_)) (refl u)) _ _
  exact ⟨rfl⟩

theorem lockoutReaction (s : State) (code src id : Nat) : LanesSame s (s.lockoutReaction code src id) := by
  unfold State.lockoutReaction
  extract_lets u
  have hu : LanesSame s u := ⟨rfl⟩
  have hsafe (v : State) (p : Nat → Bool) : LanesSame v (v.forceSafe p) := ⟨by rw [(FencePart.forceSafe v p).rest]⟩
  refine (hu.trans ?_).trans (hsafe _ _)
  exact ⟨rfl⟩

/-- A code of no lane (R384). -/
def NotLane (code : Nat) : Prop := code / 0x100 ≠ 0x17 ∧ code / 0x100 ≠ 0x18



section
variable {again : Nat → Nat → List Byte → State → State} (ih : ∀ c u d s, NotLane c → LanesSame s (again c u d s))
include ih

theorem retireReaction {code : Nat} (hc : NotLane code) (src id : Nat) (s : State) : LanesSame s (s.retireReaction again code src id) := by
  unfold State.retireReaction
  rw [if_neg fun h => h.elim hc.1 hc.2]
  have hcell : LanesSame s (s.updCell src fun x => { x with retired := true }) := ⟨rfl⟩
  refine .ite (.ite (.refl s) (.ite (.ite hcell (hcell.trans (ih _ _ _ _ ⟨by decide, by decide⟩))) (ih _ _ _ _ ⟨by decide, by decide⟩))) ?_
  exact .ite ⟨rfl⟩ (.ite ⟨rfl⟩ (.refl s))

theorem react {code : Nat} (hc : NotLane code) (cls : FClass) (mask src id : Nat) (s : State) :
    LanesSame s (s.react again cls mask code src id) := by
  have h1 := retireReaction ih hc src id s
  have h2 : LanesSame s (((s.retireReaction again code src id).fenceReaction cls mask code src id).joinCauses mask) :=
    (h1.trans (fenceReaction _ cls mask code src id)).trans ⟨rfl⟩
  exact .ite (.refl s) (.ite h1 (.ite h2 (h2.trans (lockoutReaction ..))))

theorem tableFault (cls : FClass) (fn : Bool) (cb : Byte) (mask code src id : Nat) (s : State) :
    LanesSame s (s.tableFault again cls fn cb mask code src id) := by
  have he := enterActive s code src cls cb fn mask id
  exact .ite (.ite (he.trans (ih _ _ _ _ ⟨by decide, by decide⟩)) he) (.refl s)

end

theorem raiseN (fuel : Nat) : ∀ (code src : Nat) (data : List Byte) (p : Option Nat) (s : State), NotLane code →
    LanesSame s (Machine.raiseN fuel code src data p s) := by
  induction fuel with
  | zero => intro code src data p s _; exact refl s
  | succ fuel ih =>
    intro code src data p s hc
    have hagain : ∀ c v d u, NotLane c → LanesSame u (Machine.raiseN fuel c v d none u) := fun c v d u h => ih c v d none u h
    have h0 : LanesSame s s.nextReport := ⟨rfl⟩
    unfold Machine.raiseN
    dsimp only
    generalize s.nextReport = u at h0 ⊢
    split
    · exact h0.trans (recordConsequential ..)
    · exact h0.trans ((recordFault ..).trans ((tableFault hagain ..).trans (react hagain hc ..)))

theorem raise {code : Nat} (hc : NotLane code) (s : State) (src : Nat) (data : List Byte) : LanesSame s (s.raise code src data) :=
  raiseN 6 code src data none s hc

/-- A path lost (R387): cells or an octad's count, never a lane. -/
theorem losePath (s : State) (t code : Nat) : LanesSame s (s.losePath t code) := by
  unfold State.losePath State.losePathVia
  refine .ite (.refl s) (.ite (.refl s) (.ite (raise ⟨by decide, by decide⟩ ..)
      (.ite (foldl (fun u c => trans ?_ (raise ⟨by decide, by decide⟩ ..)) _ _) (.refl s))))
  exact ⟨rfl⟩

theorem lane (h : LanesSame s t) (l : Nat) : t.lane l = s.lane l := by rw [State.lane, h.lanes, State.lane]

end LanesSame

end Sys2Proof.Machine
end
section
/-! SUPPORT. Retrain triggers, the loss of block lock and the elastic buffer (R147, R150, R166, R168). -/

namespace Sys2Proof.Machine

/-! ### Lanes without lock get none from a trigger -/

/-- No lane gains block lock; the clocks and the count stay. -/
structure DarkKept (s t : State) : Prop where
  lock : ∀ m, (s.lane m).lock = false → (t.lane m).lock = false
  clk : t.clk = s.clk
  tick : t.tick = s.tick

namespace DarkKept
variable {s t u : State}

theorem same (hl : t.lanes = s.lanes) (hc : t.clk = s.clk) (ht : t.tick = s.tick) : DarkKept s t :=
  ⟨fun m h => by rwa [State.lane, hl], hc, ht⟩
theorem refl (s : State) : DarkKept s s := same rfl rfl rfl
theorem trans (h : DarkKept s t) (k : DarkKept t u) : DarkKept s u :=
  ⟨fun m hm => k.lock m (h.lock m hm), k.clk.trans h.clk, k.tick.trans h.tick⟩
theorem now (h : DarkKept s t) : t.now = s.now := by rw [State.now, h.tick, State.now]

theorem ite {c : Prop} [Decidable c] {a b : State} (ha : DarkKept s a) (hb : DarkKept s b) : DarkKept s (if c then a else b) := by
  split
  · exact ha
  · exact hb

theorem foldl {α : Type} {f : State → α → State} (h : ∀ u a, DarkKept u (f u a)) (l : List α) (s : State) : DarkKept s (l.foldl f s) := by
  induction l generalizing s with
  | nil => exact refl s
  | cons a l ih => exact (h s a).trans (ih _)

theorem forNat {f : Nat → State → State} (h : ∀ i s, DarkKept s (f i s)) (n : Nat) (s : State) : DarkKept s (Machine.forNat n f s) :=
  forNat_induct (P := DarkKept s) (fun i _ hu => hu.trans (h i _)) n (refl s)

theorem updLane (s : State) (l : Nat) {f : Lane → Lane} (hf : ∀ x, x.lock = false → (f x).lock = false) : DarkKept s (s.updLane l f) :=
  ⟨fun m h => by
    rw [State.lane_updLane]
    split
    · rename_i e
      exact hf _ (e ▸ h)
    · exact h, rfl, rfl⟩

theorem abortEye (s : State) (l : Nat) : DarkKept s (s.abortEye l) := by
  obtain ⟨hr, hl⟩ := s.abortEye_spec l
  refine ⟨fun m h => ?_, by rw [hr], by rw [hr]⟩
  rw [hl]
  split
  · rename_i e
    exact e ▸ h
  · exact h

theorem count (s : State) (a k : Nat) : DarkKept s (s.count a k) := by
  obtain ⟨f, hf⟩ := State.count_acts a k
  rw [hf]
  exact same rfl rfl rfl

theorem countAt (s : State) (a lo len sat k : Nat) : DarkKept s (s.countAt a lo len sat k) := by
  unfold State.countAt
  exact .ite (same rfl rfl rfl) (same rfl rfl rfl)

theorem fenceOctad (s : State) (n : Nat) : DarkKept s (s.fenceOctad n) := by
  have h := (FencePart.fenceOctad s n).rest
  exact same (by rw [h]) (by rw [h]) (by rw [h])

theorem laneToRetired (s : State) (l : Nat) : DarkKept s (s.laneToRetired l) :=
  (abortEye s l).trans (updLane _ l fun _ _ => rfl)

theorem steps : RaiseSteps DarkKept where
  refl := refl
  trans := trans
  books s t h _ := by
    rw [h]
    exact same rfl rfl rfl
  fence := fenceOctad
  outputs s x := same rfl rfl rfl
  lane := laneToRetired
  cell s c := same rfl rfl rfl
  ports s x y := same rfl rfl rfl

theorem raise (s : State) (code src : Nat) (data : List Byte) : DarkKept s (s.raise code src data) := steps.raise ..

theorem startStep (s : State) (l target : Nat) (p : Proc) : DarkKept s (s.startStep l target p) := by
  unfold State.startStep
  extract_lets u
  have hu : DarkKept s u := by
    refine (abortEye s l).trans ?_
    exact updLane _ l fun _ h => h
  exact hu.trans (same rfl rfl rfl)

theorem toActive (s : State) (l : Nat) : DarkKept s (s.toActive l) := by
  have h : DarkKept s (s.updLane l fun x => { x with state := .active, proc := .none, rtAt := none, wakeAt := none, grant := 0, taken := 0 }) :=
    updLane s l fun _ h => h
  exact h.trans (same rfl rfl rfl)

theorem laneWindow (s : State) (l o r : Nat) : DarkKept s (s.laneWindow l o r) := by
  unfold State.laneWindow
  exact .ite (refl s) (same rfl rfl rfl)

theorem speedStep (s : State) (t : Nat) : DarkKept s (s.speedStep t) := by
  unfold State.speedStep
  extract_lets p
  refine .ite (trans ?_ (startStep ..)) (.refl s)
  exact updLane s _ fun _ h => h

theorem checkTakeover (s : State) (t : Nat) : DarkKept s (s.checkTakeover t) := by
  unfold State.checkTakeover
  extract_lets b x opener u
  have hu : DarkKept s u := laneWindow ..
  refine .ite (.refl s) ?_
  split
  · refine .ite (trans (trans (hu.trans (toActive u b)) ?_) (speedStep ..)) (hu.trans (startStep ..))
    exact updLane _ b fun _ h => h
  · refine (laneWindow s b opener (2 * t)).trans ?_
    exact updLane _ b fun _ _ => rfl
  · exact .refl s

theorem losePath (s : State) (t code : Nat) : DarkKept s (s.losePath t code) := by
  unfold State.losePath State.losePathVia
  refine .ite (.refl s) (.ite (.refl s) (.ite (raise ..) (.ite (foldl (fun u c => trans ?_ (raise ..)) _ _) (.refl s))))
  exact same rfl rfl rfl

theorem endEnum (s : State) (l : Nat) (st : Status) (n : Nat) : DarkKept s (s.endEnum l st n) := by
  have hu : DarkKept s (s.updLane l fun x => { x with auxAt := none, aux := 0 }) := updLane s l fun _ h => h
  unfold State.endEnum State.finishWaiting
  generalize (s.updLane l fun x => { x with auxAt := none, aux := 0 }) = w at hu ⊢
  extract_lets done hif v
  have hv : DarkKept w v := same rfl rfl rfl
  refine (hu.trans hv).trans (foldl (fun w d => ?_) _ _)
  have hr : RingsOnly w (w.completeNow d.d (if st = .ok ∧ d.late then .late else st) n) := RingsOnly.complete ..
  exact same hr.lanes (by rw [hr]) hr.tick

theorem dropLane (s : State) (l code : Nat) : DarkKept s (s.dropLane l code) := by
  have h2 (u : State) : DarkKept u (u.retireLane l code) := .ite (.refl u) (raise ..)
  exact (((abortEye s l).trans (h2 _)).trans (endEnum ..)).trans (checkTakeover ..)

theorem huntLane (s : State) (l : Nat) (p : Proc) : DarkKept s (s.huntLane l p) := by
  have h : DarkKept (s.abortEye l) ((s.abortEye l).updLane l fun x => { x.hunting s.now p with
      maxSpd := s.fld (laneBase l) 1 2, delayValid := false }) := updLane _ l fun _ _ => rfl
  exact ((abortEye s l).trans h).trans (same rfl rfl rfl)

theorem startRetrain (s : State) (l : Nat) : DarkKept s (s.startRetrain l) := by
  unfold State.startRetrain
  extract_lets id had counted u v w x
  have hu : DarkKept s u := by
    refine (countAt s (laneBase l + 0x10) 16 15 31 1).trans ?_
    exact updLane _ l fun _ h => h
  have hv : DarkKept u v := (raise ..).trans (laneWindow ..)
  have hw : DarkKept v w := by
    refine ((abortEye v l).trans (huntLane _ l .retrain)).trans ?_
    exact updLane _ l fun _ h => h
  have hx : DarkKept w x := checkTakeover ..
  have h := ((hu.trans hv).trans hw).trans hx
  exact .ite (h.trans (losePath ..)) h

theorem trigger (s : State) (l : Nat) : DarkKept s (s.trigger l) := by
  have h : DarkKept s (s.dropLane l 0x1703) := dropLane s l 0x1703
  unfold State.trigger
  exact .ite (.refl s) (.ite (.ite h (h.trans (startRetrain ..))) (startRetrain ..))

theorem lostLock (s : State) (l : Nat) : DarkKept s (s.lostLock l) := by
  refine trans (trans ?_ (raise ..)) (trigger ..)
  exact updLane s l fun _ _ => rfl

end DarkKept

/-! ### A trigger (R166, R168) -/

/-- A hunting lane is none that a takeover moves. -/
theorem State.checkTakeover_hunting {s : State} {l : Nat} (h : (s.lane l).state = .hunt) (t : Nat) : (s.checkTakeover t).lane l = s.lane l := by
  have hwindow (a o r : Nat) : (s.laneWindow a o r).lane l = s.lane l := by
    unfold State.laneWindow
    split <;> rfl
  unfold State.checkTakeover
  extract_lets b x opener u
  have hu : u.lane l = s.lane l := hwindow ..
  split
  · rfl
  · split
    · rename_i hw
      have hb : l ≠ b := fun e => by
        rw [e, show (s.lane b).state = .warm from hw] at h
        cases h
      split
      · have hv : (((u.toActive b).updLane b fun x => { x with serving := true, dormantReq := false }).lane l) = s.lane l := by
          rw [State.lane_updLane_ne _ hb]
          exact (State.lane_updLane_ne _ hb _).trans hu
        generalize (u.toActive b).updLane b (fun x => { x with serving := true, dormantReq := false }) = v at hv
        unfold State.speedStep
        extract_lets p
        split
        · rename_i hp
          have hp2 : l ≠ 2 * t := fun e => by
            rw [← hv, e, show (v.lane (2 * t)).state = .active from hp.2] at h
            cases h
          refine ((State.lane_updLane_ne _ hp2 _).trans ?_).trans hv
          rw [State.abortEye_lane_ne _ hp2, State.lane_updLane_ne _ hp2]
        · exact hv
      · refine (State.lane_updLane_ne _ hb _).trans ?_
        rw [State.abortEye_lane_ne _ hb, hu]
    · rename_i hw
      have hb : l ≠ b := fun e => by
        rw [e, show (s.lane b).state = .dormant from hw] at h
        cases h
      rw [State.lane_updLane_ne _ hb, hwindow]
    · rfl

theorem State.huntLane_lane (s : State) (l : Nat) (p : Proc) :
    ((s.huntLane l p).lane l).state = .hunt ∧ ((s.huntLane l p).lane l).proc = p ∧ ((s.huntLane l p).lane l).huntAt = (s.abortEye l).now
      ∧ ((s.huntLane l p).lane l).lock = false ∧ ((s.huntLane l p).lane l).speed = 0 ∧ ((s.huntLane l p).lane l).serving = false := by
  have h : (s.huntLane l p).lane l = { ((s.abortEye l).lane l).hunting s.now p with maxSpd := s.fld (laneBase l) 1 2, delayValid := false } :=
    (s.abortEye l).lane_updLane_same l fun x => { x.hunting s.now p with maxSpd := s.fld (laneBase l) 1 2, delayValid := false }
  rw [h]
  exact ⟨rfl, rfl, (DarkKept.abortEye s l).now.symm, rfl, rfl, rfl⟩

theorem State.startRetrain_lane (s : State) (l : Nat) : ((s.startRetrain l).lane l).retraining s.now := by
  unfold State.startRetrain
  extract_lets id had counted u v w x
  have huv : DarkKept s v := by
    have hu : DarkKept s u := by
      refine (DarkKept.countAt s (laneBase l + 0x10) 16 15 31 1).trans ?_
      exact .updLane _ l fun _ h => h
    exact hu.trans ((DarkKept.raise ..).trans (.laneWindow ..))
  clear_value v
  have hw : (w.lane l).retraining s.now := by
    obtain ⟨h1, h2, h3, h4, h5, h6⟩ := (v.abortEye l).huntLane_lane l .retrain
    have hwl : w.lane l = { ((v.abortEye l).huntLane l .retrain).lane l with rtAt := some v.now } := State.lane_updLane_same ..
    have hvn := huv.now
    rw [((DarkKept.abortEye v l).trans (.abortEye _ l)).now, hvn] at h3
    rw [hvn] at hwl
    rw [hwl]
    exact ⟨h1, h2, rfl, h3, h4, h5, h6⟩
  have hx : x.lane l = w.lane l := State.checkTakeover_hunting hw.1 _
  clear_value w
  have h : (x.lane l).retraining s.now := by
    rw [hx]
    exact hw
  split
  · rw [(LanesSame.losePath ..).lane]
    exact h
  · exact h

end Sys2Proof.Machine
end
section
/-! SUPPORT. What a trigger does, and the elastic buffer's counts. -/

namespace Sys2Proof.Machine

/-! ### Fields of a word that is written with a field above zero -/

theorem lookReg_putReg_written {a : Nat} {w : Word} (hw : w ≠ resetWord a) (l : List (Nat × Word)) : lookReg a (putReg a w l) = w := by
  induction l with
  | nil =>
    rw [putReg, if_neg hw]
    exact if_pos rfl
  | cons e l ih =>
    obtain ⟨b, v⟩ := e
    rw [putReg, if_neg hw, if_neg hw]
    split
    · exact if_pos rfl
    · rename_i hab
      split
      · exact if_pos rfl
      · exact (if_neg fun h => hab h.symm).trans ih

theorem field_putField_same (w lo len v : Nat) : field (putField w lo len v) lo len = v % 2 ^ len := by
  refine Nat.eq_of_testBit_eq fun j => ?_
  rw [field_testBit, putField_testBit, Nat.testBit_mod_two_pow]
  by_cases h : j < len
  · simp [h]
  · simp [h]

theorem field_putField_apart {w lo len v i k : Nat} (h : i + k ≤ lo ∨ lo + len ≤ i) : field (putField w lo len v) i k = field w i k := by
  refine Nat.eq_of_testBit_eq fun j => ?_
  rw [field_testBit, putField_testBit, field_testBit]
  by_cases hj : j < k
  · have : ¬(lo ≤ i + j ∧ i + j < lo + len) := by omega
    simp [this]
  · simp [hj]

theorem field_mod_word {x i k : Nat} (h : i + k ≤ 32) : field (x % 2 ^ 32) i k = field x i k := by
  refine Nat.eq_of_testBit_eq fun j => ?_
  rw [field_testBit, field_testBit, Nat.testBit_mod_two_pow]
  by_cases hj : j < k
  · have : i + j < 32 := by omega
    simp [this]
  · simp [hj]

/-- A field written above zero reads back, in any list of registers, and the fields apart from it stay. -/
theorem State.setFld_fld {s : State} {a lo len v : Nat} (hr : resetWord a = 0) (hv : 0 < v) (hlt : v < 2 ^ len) (hw : lo + len ≤ 32) :
    (s.setFld a lo len v).fld a lo len = v
      ∧ ∀ i k, i + k ≤ lo ∨ lo + len ≤ i → i + k ≤ 32 → (s.setFld a lo len v).fld a i k = s.fld a i k := by
  have hne : BitVec.ofNat 32 (putField (s.reg a).toNat lo len v) ≠ resetWord a := fun h => by
    have h0 : field (putField (s.reg a).toNat lo len v % 2 ^ 32) lo len = field 0 lo len := by
      rw [← BitVec.toNat_ofNat, h, hr]
      rfl
    rw [field_mod_word hw, field_putField_same, Nat.mod_eq_of_lt hlt, field, Nat.zero_div, Nat.zero_mod] at h0
    omega
  have hreg : (s.setFld a lo len v).reg a = BitVec.ofNat 32 (putField (s.reg a).toNat lo len v) := lookReg_putReg_written hne s.regs
  refine ⟨?_, fun i k hap hik => ?_⟩
  · rw [State.fld, hreg, BitVec.toNat_ofNat, field_mod_word hw, field_putField_same, Nat.mod_eq_of_lt hlt]
  · rw [State.fld, hreg, BitVec.toNat_ofNat, field_mod_word hik, field_putField_apart hap, State.fld]

/-- A count of one in a field of 15 bits with its mark of saturation above it. -/
theorem State.countAt_fld {s : State} {a lo : Nat} (hr : resetWord a = 0) (hlo : lo + 16 ≤ 32) :
    (s.countAt a lo 15 (lo + 15) 1).fld a lo 15 = min (s.fld a lo 15 + 1) (2 ^ 15 - 1)
      ∧ ∀ i k, i + k ≤ lo ∨ lo + 16 ≤ i → i + k ≤ 32 → (s.countAt a lo 15 (lo + 15) 1).fld a i k = s.fld a i k := by
  have hlt : s.fld a lo 15 < 2 ^ 15 := Nat.mod_lt _ (by decide)
  unfold State.countAt
  dsimp only
  split
  · rename_i h
    obtain ⟨h1, h2⟩ := s.setFld_fld (a := a) (lo := lo) (len := 15) (v := s.fld a lo 15 + 1) hr (by omega) (by omega) (by omega)
    exact ⟨by rw [h1]; omega, fun i k hap hik => h2 i k (by omega) hik⟩
  · rename_i h
    obtain ⟨h1, h2⟩ := s.setFld_fld (a := a) (lo := lo) (len := 15) (v := 2 ^ 15 - 1) hr (by decide) (by decide) (by omega)
    generalize s.setFld a lo 15 (2 ^ 15 - 1) = u at h1 h2
    obtain ⟨-, h4⟩ := u.setFld_fld (a := a) (lo := lo + 15) (len := 1) (v := 1) hr (by decide) (by decide) (by omega)
    exact ⟨by rw [h4 lo 15 (by omega) (by omega), h1]; omega, fun i k hap hik => by rw [h4 i k (by omega) hik, h2 i k (by omega) hik]⟩

theorem resetWord_laneElastic : ∀ l : Fin 128, resetWord (laneBase l + 0x18) = 0 := by decide +kernel

/-! ### Triggers -/

theorem State.trigger_spec (s : State) (l : Nat) (h0 : (s.lane l).state ≠ .off) (h1 : (s.lane l).state ≠ .retired) : s.triggered (s.trigger l) l := by
  unfold State.trigger
  extract_lets x u
  rw [if_neg (by rintro (h | h) <;> contradiction)]
  by_cases h : 3 ≤ (x.recent s.now).length
  · rw [if_pos h]
    refine ⟨fun hl => absurd h (Nat.not_le.mpr hl), ?_⟩
    have hu : DarkKept s u := .dropLane s l 0x1703
    clear_value u
    split
    · exact .inr ‹_›
    · have := u.startRetrain_lane l
      rw [hu.now] at this
      exact .inl this
  · rw [if_neg h]
    exact ⟨fun _ => s.startRetrain_lane l, .inl (s.startRetrain_lane l)⟩

/-- A trigger after a raise on the lane. -/
theorem State.trigger_raised {s u : State} {l : Nat} (h0 : (s.lane l).state ≠ .off) (h1 : (s.lane l).state ≠ .retired)
    (hn : u.now = s.now) (hl : u.lane l = s.lane l ∨ (u.lane l).state = .retired) :
    ((u.trigger l).lane l).retraining s.now ∨ ((u.trigger l).lane l).state = .retired := by
  by_cases hr : (u.lane l).state = .retired
  · right
    rw [State.trigger, if_pos (.inr hr)]
    exact hr
  · have he := hl.resolve_right hr
    have := (u.trigger_spec l (by rw [he]; exact h0) (by rw [he]; exact h1)).2
    rwa [hn] at this

theorem State.lostLock_lane (s : State) (l : Nat) (h0 : (s.lane l).state ≠ .off) (h1 : (s.lane l).state ≠ .retired) :
    ((s.lostLock l).lane l).retraining s.now ∨ ((s.lostLock l).lane l).state = .retired := by
  unfold State.lostLock
  generalize hu : (s.updLane l fun x => { x with lock := false, hdrs := [], hunts := [], openF := none }) = u
  have hlane : u.lane l = { s.lane l with lock := false, hdrs := [], hunts := [], openF := none } := by rw [← hu, State.lane_updLane_same]
  have hr := u.raise_frame 0x1701 l []
  have hnow : u.now = s.now := by rw [← hu]; rfl
  have := State.trigger_raised (s := u) (u := u.raise 0x1701 l []) (l := l) (by rw [hlane]; exact h0) (by rw [hlane]; exact h1) hr.now_eq (hr.lane l)
  rwa [hnow] at this

theorem State.lostLock_dark (s : State) (l : Nat) : ((s.lostLock l).lane l).lock = false := by
  unfold State.lostLock
  generalize hu : (s.updLane l fun x => { x with lock := false, hdrs := [], hunts := [], openF := none }) = u
  have hlane : (u.lane l).lock = false := by rw [← hu, State.lane_updLane_same]
  exact ((DarkKept.raise u 0x1701 l []).trans (.trigger ..)).lock l hlane

theorem forNat_induct_index {P : Nat → State → Prop} {f : Nat → State → State} (h : ∀ i s, P i s → P (i + 1) (f i s)) (n : Nat) {s : State}
    (hs : P 0 s) : P n (forNat n f s) := by
  induction n with
  | zero => exact hs
  | succ n ih => exact h n _ ih

/-! ### Quads -/

theorem quadLost (q : Fin 32) (s : State) (h : (s.clk.quads.get q).state = .locked ∨ (s.clk.quads.get q).state = .settling) :
    ∃ t, exec (.quadPllUnlock q) s = .next t ∧ (t.clk.quads.get q).state = .search
      ∧ (∀ p, p ≠ q.val → t.clk.quads.get p = s.clk.quads.get p)
      ∧ (∀ i < 4, (s.lane (4 * q + i)).lock = true → (s.lane (4 * q + i)).state = .active →
          (t.lane (4 * q + i)).lock = false ∨ (t.lane (4 * q + i)).state = .retired) := by
  have hgo : ¬((s.clk.quads.get q).state ≠ .locked ∧ (s.clk.quads.get q).state ≠ .settling) := fun hn => h.elim hn.1 hn.2
  generalize hu : ({ s with clk := { s.clk with quads := s.clk.quads.set q ⟨.search, 0, false, s.now⟩ } } : State).openWindow (.quad q) 0 0 0 none = u
  have hclk : u.clk.quads = s.clk.quads.set q ⟨.search, 0, false, s.now⟩ := by rw [← hu]; rfl
  have hexec : exec (.quadPllUnlock q) s = .next (forNat 4 (fun i s =>
      if (s.lane (4 * q.val + i)).lock then s.lostLock (4 * q.val + i) else s) u) := by
    simp only [exec, execQuadPllUnlock, if_neg hgo, hu]
  have hloop := forNat_induct_index (P := fun k v => DarkKept u v ∧ ∀ i < k, (v.lane (4 * q.val + i)).lock = false)
    (f := fun i s => if (s.lane (4 * q.val + i)).lock then s.lostLock (4 * q.val + i) else s) (fun k v ⟨hk, hd⟩ => by
      by_cases hl : (v.lane (4 * q.val + k)).lock = true
      · rw [if_pos hl]
        refine ⟨hk.trans (.lostLock ..), fun i hi => ?_⟩
        rcases Nat.lt_succ_iff_lt_or_eq.mp hi with hi | rfl
        · exact (DarkKept.lostLock v _).lock _ (hd i hi)
        · exact v.lostLock_dark _
      · rw [if_neg hl]
        refine ⟨hk, fun i hi => ?_⟩
        rcases Nat.lt_succ_iff_lt_or_eq.mp hi with hi | rfl
        · exact hd i hi
        · exact Bool.eq_false_iff.mpr hl) 4 ⟨.refl u, fun _ hi => absurd hi (Nat.not_lt_zero _)⟩
  obtain ⟨hk, hd⟩ := hloop
  refine ⟨_, hexec, ?_, fun p hp => ?_, fun i hi _ _ => .inl (hd i hi)⟩
  · rw [hk.clk, hclk, Tab.get_set, if_pos rfl]
  · rw [hk.clk, hclk, Tab.get_set, if_neg hp]

end Sys2Proof.Machine
end
section
/-! SUPPORT. Received pieces with block lock, and the timers of the lanes. -/

namespace Sys2Proof.Machine

/-- The lane's state once a piece with lock has been looked at. -/
def State.pieced (s : State) (l : Nat) (w : BitVec 66) (bad : Bool) : State :=
  (s.badHeaders l (bit bad)).updLane l fun x => { x with
    rxPrev := w, hdrs := (bad :: (s.lane l).hdrs).take 96, dsc := (descramble 64 (s.lane l).dsc (alignedBlock (s.lane l) w / 4)).2,
        skip := x.skip - 64 }

theorem State.pieced_lane (s : State) (l : Nat) (w : BitVec 66) (bad : Bool) :
    (s.pieced l w bad).lane l = { s.lane l with
        rxPrev := w, hdrs := (bad :: (s.lane l).hdrs).take 96, dsc := (descramble 64 (s.lane l).dsc (alignedBlock (s.lane l) w / 4)).2,
        skip := (s.lane l).skip - 64 }
      ∧ ∀ m, m ≠ l → (s.pieced l w bad).lane m = s.lane m := by
  have h := s.badHeaders_rest l (bit bad)
  unfold State.pieced
  refine ⟨?_, fun m hm => ?_⟩
  · rw [State.lane_updLane_same, h]
    rfl
  · rw [State.lane_updLane_ne _ hm, h]
    rfl

theorem State.pieced_good (s : State) (l : Nat) (w : BitVec 66) (a : Nat) : (s.pieced l w false).reg a = s.reg a := by
  unfold State.pieced State.badHeaders
  rw [show bit false = 0 from rfl, if_pos rfl]
  rfl

theorem State.pieced_rest (s : State) (l : Nat) (w : BitVec 66) (bad : Bool) :
    s.pieced l w bad = { s with
      lanes := (s.pieced l w bad).lanes, regs := (s.pieced l w bad).regs, hotAt := (s.pieced l w bad).hotAt, hot := (s.pieced l w bad).hot } := by
  have h := s.badHeaders_rest l (bit bad)
  unfold State.pieced
  rw [h]
  rfl

section
variable {l : Fin 128} {r : RxWord} {s : State} {w : BitVec 66}

theorem State.receive_locked (h : (s.lane l).lock = true) (hw : w = invertIf (s.fld (laneBase l) 4 1 == 1) r.bits) :
    s.receive l r = s.lockedPiece l w r.reads.toNat := by
  unfold State.receive
  rw [hw, if_pos h]

theorem State.lockedPiece_lost {reads : Nat}
    (h : 12 ≤ (((alignedBlock (s.lane l) w % 4 == 0 || alignedBlock (s.lane l) w % 4 == 3) :: (s.lane l).hdrs).take 96).countP id) :
    s.lockedPiece l w reads = (s.pieced l w (alignedBlock (s.lane l) w % 4 == 0 || alignedBlock (s.lane l) w % 4 == 3)).lostLock l := by
  unfold State.lockedPiece
  dsimp only
  rw [if_pos h]
  rfl

/-- A FILLER after the first block. -/
theorem State.lockedPiece_filler {reads : Nat} (hh : alignedBlock (s.lane l) w % 4 = 2) (hk : (s.lane l).skip = 0)
    (hc : ((false :: (s.lane l).hdrs).take 96).countP id < 12)
    (hb : blockByte (BitVec.ofNat 64 (descramble 64 (s.lane l).dsc (alignedBlock (s.lane l) w / 4)).1) 0 = 0xA1) :
    s.lockedPiece l w reads = (s.pieced l w false).elastic l true reads := by
  unfold State.lockedPiece
  dsimp only
  rw [hh]
  have hno : (((2 : Nat) == 0) || ((2 : Nat) == 3)) = false := rfl
  rw [hno, if_neg (by omega), hk, hb, if_neg (by simp)]
  exact State.takeBlock_filler hb

theorem lockIsLost {rs : List RxWord} (hl : (s.lane l).lock = true) (h0 : (s.lane l).state ≠ .off) (h1 : (s.lane l).state ≠ .retired)
    (hw : w = invertIf (s.fld (laneBase l) 4 1 == 1) r.bits)
    (h : 12 ≤ (((alignedBlock (s.lane l) w % 4 == 0 || alignedBlock (s.lane l) w % 4 == 3) :: (s.lane l).hdrs).take 96).countP id) :
    ∃ t, exec (.laneLockLoss l (r :: rs)) s = .next t ∧ ((t.lane l).retraining s.now ∨ (t.lane l).state = .retired) := by
  have hrec := (State.receive_locked hl hw).trans (State.lockedPiece_lost h)
  generalize (alignedBlock (s.lane l) w % 4 == 0 || alignedBlock (s.lane l) w % 4 == 3) = bad at hrec
  obtain ⟨hul, -⟩ := s.pieced_lane l w bad
  have hun : (s.pieced l w bad).now = s.now := by
    rw [s.pieced_rest l w bad]
    rfl
  generalize s.pieced l w bad = u at hrec hul hun
  have hexec : exec (.laneLockLoss l (r :: rs)) s = .next (u.lostLock l) := by
    have hdone : State.receiveUntil (!·.lock) l (r :: rs) s = u.lostLock l := by
      rw [State.receiveUntil, hrec]
      exact if_pos (by rw [u.lostLock_dark]; rfl)
    exact (congrArg Host.Outcome.next (if_pos hl)).trans (congrArg Host.Outcome.next hdone)
  have := u.lostLock_lane l (by rw [hul]; exact h0) (by rw [hul]; exact h1)
  rw [hun] at this
  exact ⟨_, hexec, this⟩

/-! ### The elastic buffer (R150) -/

/-- What a block's rate matching counts. -/
def State.matched (s : State) (l : Nat) (e : Int × Nat × Nat) : State :=
  let s := if e.2.1 = 0 then s else s.countAt (laneBase l + 0x18) 0 15 15 1
  if e.2.2 = 0 then s else s.countAt (laneBase l + 0x18) 16 15 31 1

theorem State.countAt_rest (s : State) (a lo len sat k : Nat) :
    s.countAt a lo len sat k = { s with regs := (s.countAt a lo len sat k).regs } := by
  unfold State.countAt
  dsimp only
  split <;> rfl

theorem State.matched_rest (s : State) (l : Nat) (e : Int × Nat × Nat) : s.matched l e = { s with regs := (s.matched l e).regs } := by
  unfold State.matched
  extract_lets u
  have hu : u = { s with regs := u.regs } := by
    dsimp only [u]
    split
    · rfl
    · exact s.countAt_rest ..
  clear_value u
  split
  · exact hu
  · rw [u.countAt_rest, hu]

theorem State.matched_fld (s : State) (l : Fin 128) {e : Int × Nat × Nat} (h1 : e.2.1 ≤ 1) (h2 : e.2.2 ≤ 1) :
    (s.matched l e).fld (laneBase l + 0x18) 0 15 = min (s.fld (laneBase l + 0x18) 0 15 + e.2.1) (2 ^ 15 - 1)
      ∧ (s.matched l e).fld (laneBase l + 0x18) 16 15 = min (s.fld (laneBase l + 0x18) 16 15 + e.2.2) (2 ^ 15 - 1) := by
  have hlow (u : State) (i : Nat) : u.fld (laneBase l + 0x18) i 15 < 2 ^ 15 := Nat.mod_lt _ (by decide)
  have ha := hlow s 0
  have hb := hlow s 16
  unfold State.matched
  extract_lets u
  have hu : u.fld (laneBase l + 0x18) 0 15 = min (s.fld (laneBase l + 0x18) 0 15 + e.2.1) (2 ^ 15 - 1)
      ∧ u.fld (laneBase l + 0x18) 16 15 = s.fld (laneBase l + 0x18) 16 15 := by
    dsimp only [u]
    split
    · rename_i h
      exact ⟨by rw [h]; omega, rfl⟩
    · obtain ⟨c1, c2⟩ := State.countAt_fld (s := s) (lo := 0) (resetWord_laneElastic l) (by decide)
      exact ⟨by rw [c1, show e.2.1 = 1 by omega], c2 16 15 (by decide) (by decide)⟩
  clear_value u
  split
  · rename_i h
    exact ⟨hu.1, by rw [hu.2, h]; omega⟩
  · obtain ⟨c1, c2⟩ := State.countAt_fld (s := u) (lo := 16) (resetWord_laneElastic l) (by decide)
    exact ⟨by rw [c2 0 15 (by decide) (by decide), hu.1], by rw [c1, hu.2, show e.2.2 = 1 by omega]⟩

theorem elasticStep_counts (fill : Nat) (filler : Bool) (reads : Nat) :
    (elasticStep fill filler reads).2.1 ≤ 1 ∧ (elasticStep fill filler reads).2.2 ≤ 1 := by
  unfold elasticStep
  split
  · exact ⟨Nat.zero_le 1, le_refl 1⟩
  · split
    · exact ⟨le_refl 1, Nat.zero_le 1⟩
    · exact ⟨Nat.zero_le 1, Nat.zero_le 1⟩

/-- The buffer is centred again. -/
theorem State.elastic_centred {s : State} {l reads : Nat} {e : Int × Nat × Nat} (he : e = elasticStep (s.lane l).fill true reads)
    (h : e.1 ≤ 0 ∨ 16 < e.1) :
    ∃ u : State, u = { s with lanes := u.lanes, regs := u.regs } ∧ (u.lane l).fill = 8 ∧ (u.lane l).dsc = (s.lane l).dsc
      ∧ (∀ m, m ≠ l → u.lane m = s.lane m) ∧ s.elastic l true reads = u.raise 0x1707 l [] := by
  have hm := s.matched_rest l e
  have hel : s.elastic l true reads = (if 16 < e.1 then
        ((s.matched l e).updLane l fun x => { x with fill := 8, openF := x.openF.map fun o => { o with damaged := true } }).countAt
          (laneBase l + 0x18) 16 15 31 1
      else ((s.matched l e).updLane l fun x => { x with fill := 8, openF := x.openF.map fun o => { o with damaged := true } }).countAt
          (laneBase l + 0x18) 0 15 15 1).raise 0x1707 l [] := by
    unfold State.elastic
    rw [← he]
    dsimp only
    rw [if_pos (by omega)]
    rfl
  generalize s.matched l e = w at hm hel
  generalize hv : (w.updLane l fun x => { x with fill := 8, openF := x.openF.map fun o => { o with damaged := true } }) = v at hel
  have hvl : (v.lane l).fill = 8 ∧ (v.lane l).dsc = (s.lane l).dsc := by
    rw [← hv, State.lane_updLane_same, hm]
    exact ⟨rfl, rfl⟩
  have hvm : ∀ m, m ≠ l → v.lane m = s.lane m := fun m h => by
    rw [← hv, State.lane_updLane_ne _ h, hm]
    rfl
  have hvr : v = { s with lanes := v.lanes, regs := v.regs } := by
    rw [← hv, hm]
    rfl
  have hx : (if 16 < e.1 then v.countAt (laneBase l + 0x18) 16 15 31 1 else v.countAt (laneBase l + 0x18) 0 15 15 1)
      = { v with regs := (if 16 < e.1 then v.countAt (laneBase l + 0x18) 16 15 31 1 else v.countAt (laneBase l + 0x18) 0 15 15 1).regs } := by
    split
    · exact v.countAt_rest ..
    · exact v.countAt_rest ..
  generalize (if 16 < e.1 then v.countAt (laneBase l + 0x18) 16 15 31 1 else v.countAt (laneBase l + 0x18) 0 15 15 1) = x at hel hx
  have hlane : ∀ m, x.lane m = v.lane m := fun m => by rw [State.lane, hx, State.lane]
  have hxr : x = { s with lanes := x.lanes, regs := x.regs } := by
    rw [hx, hvr]
  clear hx
  exact ⟨x, hxr, by rw [hlane, hvl.1], by rw [hlane, hvl.2], fun m hm => by rw [hlane, hvm m hm], hel⟩

theorem State.elastic_within {s : State} {l reads : Nat} {e : Int × Nat × Nat} (he : e = elasticStep (s.lane l).fill true reads)
    (h0 : 0 < e.1) (h1 : e.1 ≤ 16) : s.elastic l true reads = (s.matched l e).updLane l fun x => { x with fill := e.1.toNat } := by
  rw [he]
  exact if_neg (by rw [← he]; omega)

theorem rest_of_piece {p u : State} (hp : p = { s with lanes := p.lanes, regs := p.regs, hotAt := p.hotAt, hot := p.hot })
    (hu : u = { p with lanes := u.lanes, regs := u.regs }) : u = { s with lanes := u.lanes, regs := u.regs, hotAt := u.hotAt, hot := u.hot } := by
  rw [hu, hp]

theorem bufferTakesFiller {blk : Nat} {e : Int × Nat × Nat} (hl : (s.lane l).lock = true)
    (hblk : blk = alignedBlock (s.lane l) (invertIf (s.fld (laneBase l) 4 1 == 1) r.bits)) (h2 : blk % 4 = 2) (hk : (s.lane l).skip = 0)
    (hc : ((false :: (s.lane l).hdrs).take 96).countP id < 12)
    (hb : blockByte (BitVec.ofNat 64 (descramble 64 (s.lane l).dsc (blk / 4)).1) 0 = 0xA1)
    (he : e = elasticStep (s.lane l).fill true r.reads.toNat) :
    ∃ t u, exec (.laneElastic l [r]) s = .next t ∧ u = { s with lanes := u.lanes, regs := u.regs, hotAt := u.hotAt, hot := u.hot }
      ∧ (u.lane l).dsc = (descramble 64 (s.lane l).dsc (blk / 4)).2 ∧ (∀ m, m ≠ l.val → u.lane m = s.lane m)
      ∧ (e.1 ≤ 0 ∨ 16 < e.1 → (u.lane l).fill = 8 ∧ RaiseFrame u t)
      ∧ (0 < e.1 → e.1 ≤ 16 → t = u ∧ ((u.lane l).fill : Int) = e.1
          ∧ u.fld (laneBase l + 0x18) 0 15 = min (s.fld (laneBase l + 0x18) 0 15 + e.2.1) (2 ^ 15 - 1)
          ∧ u.fld (laneBase l + 0x18) 16 15 = min (s.fld (laneBase l + 0x18) 16 15 + e.2.2) (2 ^ 15 - 1)) := by
  generalize hw : invertIf (s.fld (laneBase l) 4 1 == 1) r.bits = w at hblk
  subst hblk
  have hexec : exec (.laneElastic l [r]) s = .next ((s.pieced l w false).elastic l true r.reads.toNat) := by
    have hstep : (if (s.lane l).lock = true then s.receive l r else s) = (s.pieced l w false).elastic l true r.reads.toNat :=
      (if_pos hl).trans ((State.receive_locked hl hw.symm).trans (State.lockedPiece_filler h2 hk hc hb))
    exact (congrArg Host.Outcome.next (if_pos hl)).trans (congrArg Host.Outcome.next hstep)
  obtain ⟨hpl, hpm⟩ := s.pieced_lane l w false
  have hpr := s.pieced_rest l w false
  have hreg := s.pieced_good l w
  generalize s.pieced l w false = p at hexec hpl hpm hpr hreg
  have he' : e = elasticStep (p.lane l).fill true r.reads.toNat := by
    rw [he, hpl]
  rcases (by omega : (e.1 ≤ 0 ∨ 16 < e.1) ∨ (0 < e.1 ∧ e.1 ≤ 16)) with h | ⟨h0, h1⟩
  · obtain ⟨u, hur, huf, hud, hum, hel⟩ := State.elastic_centred he' h
    refine ⟨_, u, hexec, ?_, ?_, fun m hm => (hum m hm).trans (hpm m hm), fun _ => ⟨huf, ?_⟩, fun _ _ => by omega⟩
    · exact rest_of_piece hpr hur
    · rw [hud, hpl]
    · rw [hel]
      exact State.raise_frame ..
  · obtain ⟨c1, c2⟩ := elasticStep_counts (s.lane l).fill true r.reads.toNat
    rw [← he] at c1 c2
    obtain ⟨f1, f2⟩ := p.matched_fld l c1 c2
    have hmr := p.matched_rest l e
    rw [State.elastic_within he' h0 h1] at hexec
    generalize p.matched l e = v at hexec f1 f2 hmr
    have hlane : ∀ m, v.lane m = p.lane m := fun m => by rw [State.lane, hmr, State.lane]
    have hvr : v = { p with lanes := v.lanes, regs := v.regs } := by
      rw [hmr]
    clear hmr
    refine ⟨_, v.updLane l fun x => { x with fill := e.1.toNat }, hexec, ?_, ?_, fun m hm => ?_, fun _ => by omega, fun _ _ => ⟨rfl, ?_, ?_, ?_⟩⟩
    · exact rest_of_piece hpr (u := v.updLane l fun x => { x with fill := e.1.toNat }) (congrArg (fun v : State => v.updLane l fun x =>
        { x with fill := e.1.toNat }) hvr)
    · rw [State.lane_updLane_same, hlane]
      exact congrArg Lane.dsc hpl
    · rw [State.lane_updLane_ne _ hm, hlane]
      exact hpm m hm
    · rw [State.lane_updLane_same]
      show (e.1.toNat : Int) = e.1
      omega
    · show v.fld _ _ _ = _
      rw [f1, State.fld, hreg, State.fld]
    · show v.fld _ _ _ = _
      rw [f2, State.fld, hreg, State.fld]

end

/-! ### Timers -/

theorem wakeFails (l : Fin 128) (x : Nat) (s : State) (hx : (s.lane l).wakeAt = some x) (hd : x + 360000 ≤ s.now) (hs : (s.lane l).state = .wake) :
    ∃ t, exec (.laneWake l) s = .next t ∧ ((t.lane l).retraining s.now ∨ (t.lane l).state = .retired) := by
  generalize hu : (s.updLane l fun x => { x with wakeAt := none }) = u
  have hlane : u.lane l = { s.lane l with wakeAt := none } := by rw [← hu, State.lane_updLane_same]
  have hnow : u.now = s.now := by rw [← hu]; rfl
  have hr := u.raise_frame 0x1708 l []
  have hexec : exec (.laneWake l) s = .next ((u.raise 0x1708 l []).trigger l) := by
    simp only [exec, execLaneWake, hx, State.whenDue, if_pos hd, hu]
  have := State.trigger_raised (s := u) (u := u.raise 0x1708 l []) (l := l) (by rw [hlane]; exact hs ▸ by decide)
      (by rw [hlane]; exact hs ▸ by decide)
    hr.now_eq (hr.lane l)
  rw [hnow] at this
  exact ⟨_, hexec, this⟩

/-- Settles O42: each timer is a trigger, whose effect is stated once; then quads and the elastic buffer. -/
theorem lanesRetrainOrRetire : Obligations.LanesRetrainOrRetire := by
  unfold Obligations.LanesRetrainOrRetire
  refine ⟨fun l s hs hd => ⟨s.trigger l, ?_, ?_⟩, fun l s hs hd => ⟨s.trigger l, ?_, ?_⟩, fun l x s hx hd h0 h1 => ⟨s.trigger l, ?_, ?_⟩, wakeFails,
    fun l r rs w s hl h0 h1 hw h => lockIsLost hl h0 h1 hw h, quadLost, fun l r blk e s hl hblk h2 hk hc hb he =>
      bufferTakesFiller hl hblk h2 hk hc hb he⟩
  · simp only [exec, execTHunt, hs, State.whenDue, if_pos hd, if_true]
  · exact s.trigger_spec l (by rw [hs]; decide) (by rw [hs]; decide)
  · simp only [exec, execTCapx, hs, State.whenDue, if_pos hd, if_true]
  · exact s.trigger_spec l (by rw [hs]; decide) (by rw [hs]; decide)
  · simp only [exec, execTRt, hx, State.whenDue, if_pos hd]
  · exact s.trigger_spec l h0 h1

end Sys2Proof.Machine
end
section
/-! SUPPORT. A lane that is locked while the device counts four MARKs as unanswered. -/

namespace Sys2Proof.Machine

/-- Octad 0 running with lane 0 in service and locked to the time, no MARK under way, and four MARKs counted as unanswered. -/
def lockedUnanswered : State :=
  { State.reset with
    octs := State.reset.octs.set 0 { Octad.init with state := .running }
    lanes := State.reset.lanes.set 0 { Lane.init with state := .active, serving := true, tlock := true, unanswered := 4 } }

/-- The identifier that the next state gives to its next report. -/
def nextReportId : Host.Outcome State Fault Refusal → Nat
  | .next t => t.flt.nextId
  | _ => 0

/-- The MARK that lane 0 sends leaves the count at four, which clears its lock and reports the loss. -/
theorem lockedUnanswered_mark : nextReportId (exec (.mark 0) lockedUnanswered) = lockedUnanswered.flt.nextId + 1 := by decide +kernel

/-- Refutes O43: its first clause allows any count of unanswered MARKs where none is under way, and says that nothing but lanes and output
changes; from a count of four on the lock is cleared all the same (R203), and its loss is reported. -/
theorem not_markAndEchoMeasureTheLane : ¬ Obligations.MarkAndEchoMeasureTheLane := by
  unfold Obligations.MarkAndEchoMeasureTheLane
  rintro ⟨hMark, -⟩
  obtain ⟨t, hexec, -, -, -, -, -, -, -, hrest⟩ := hMark 0 lockedUnanswered (by decide +kernel) (by decide +kernel) (by decide +kernel)
  have hid : t.flt.nextId = lockedUnanswered.flt.nextId + 1 := (congrArg nextReportId hexec).symm.trans lockedUnanswered_mark
  have hsame : t.flt.nextId = lockedUnanswered.flt.nextId := by rw [hrest]
  exact Nat.succ_ne_self _ (hid.symm.trans hsame)

end Sys2Proof.Machine
end
section
/-! SUPPORT. Trip inputs, trigger units and timestamps (R131 to R135, R328 to R333). -/

namespace Sys2Proof.Machine

/-! ### Trips -/

/-- A step of the block of an octad: outputs and trips stay. -/
structure BlockPart (s t : State) : Prop where
  rest : t = { s with octs := t.octs, cells := t.cells, sys := t.sys, out := t.out, regs := t.regs, hotAt := t.hotAt, hot := t.hot }

namespace BlockPart
variable {s t u : State}

theorem refl (s : State) : BlockPart s s := ⟨rfl⟩
theorem trans (h : BlockPart s t) (k : BlockPart t u) : BlockPart s u := ⟨by rw [k.rest, h.rest]⟩

theorem ite {c : Prop} [Decidable c] {a b : State} (ha : BlockPart s a) (hb : BlockPart s b) : BlockPart s (if c then a else b) := by
  split
  · exact ha
  · exact hb

theorem flag (s : State) (a i : Nat) : BlockPart s (s.flag a i) := ⟨rfl⟩
theorem updOct (s : State) (n : Nat) (f : Octad → Octad) : BlockPart s (s.updOct n f) := ⟨rfl⟩
theorem mapOctCells (s : State) (n : Nat) (f : Cell → Cell) : BlockPart s (s.mapOctCells n f) := ⟨rfl⟩

theorem emit (s : State) (o : Output) : BlockPart s (s.emit o) := ⟨rfl⟩

theorem forNat {f : Nat → State → State} (h : ∀ i s, BlockPart s (f i s)) (n : Nat) (s : State) : BlockPart s (Machine.forNat n f s) :=
  forNat_induct (P := BlockPart s) (fun i _ hu => hu.trans (h i _)) n (refl s)

theorem immediateBlock (s : State) (n : Nat) : BlockPart s (s.immediateBlock n) := by
  have h : BlockPart s (s.abortLanes n 0) := forNat (fun _ u => .ite (.emit ..) (.refl u)) 16 s
  exact h.trans (updOct ..)

theorem haltSelection (s : State) (n : Nat) : BlockPart s (s.haltSelection n) := by
  unfold State.haltSelection State.discardWindow
  extract_lets u v w x
  have hu : BlockPart s u := mapOctCells ..
  have hv : BlockPart u v := .ite (flag ..) (refl u)
  have hw : BlockPart v w := (mapOctCells ..).trans (updOct ..)
  have hx : BlockPart w x := mapOctCells ..
  exact (((hu.trans hv).trans hw).trans hx).trans (updOct ..)

theorem settleDev (s : State) : BlockPart s s.settleDev := by
  unfold State.settleDev
  exact .ite ⟨rfl⟩ (refl s)

theorem toBlocked (s : State) (n : Nat) : BlockPart s (s.toBlocked n) := by
  unfold State.toBlocked
  extract_lets u
  have hu : BlockPart s u := immediateBlock s n
  have hb : BlockPart u ((u.haltSelection n).updOct n fun o => { o with state := .blocked }) := (haltSelection u n).trans (updOct ..)
  exact .ite ((hu.trans hb).trans (settleDev _)) (.ite (hu.trans (updOct ..)) hu)

end BlockPart

/-- A block of an octad changes no other. -/
theorem State.toBlocked_other (s : State) {n m : Nat} (h : m ≠ n) : (s.toBlocked n).oct m = s.oct m := by
  by_cases ha : (s.oct n).state.active = true
  · exact (State.toBlocked_oct ha).2 m h
  · have ho : ∀ k, (s.immediateBlock n).oct k = if k = n then { s.oct n with disturbed := true } else s.oct k := fun k => by
      simp only [State.oct, State.immediateBlock_octs, Tab.get_upd]
    have ha' : ((s.immediateBlock n).oct n).state.active ≠ true := by
      rw [ho, if_pos rfl]
      exact ha
    unfold State.toBlocked
    dsimp only
    rw [if_neg ha']
    split
    · rw [State.oct, State.updOct, Tab.get_upd_ne _ h]
      exact (ho m).trans (if_neg h)
    · exact (ho m).trans (if_neg h)

theorem State.forceSafe_octs (s : State) (p : Nat → Bool) : (s.forceSafe p).octs = s.octs :=
  forNat_induct (P := fun u => u.octs = s.octs) (fun k u hu => by
    split
    · exact hu
    · exact hu) 24 rfl

theorem State.forceSafe_safe (s : State) (p : Nat → Bool) : ∀ n < 24, p n = true → ((s.forceSafe p).dpws.get n).safe = true := by
  unfold State.forceSafe
  refine forNat_induct_index (P := fun k u => ∀ n < k, p n = true → (u.dpws.get n).safe = true) (fun k u hu n hn hp => ?_) 24
    (fun _ h => absurd h (Nat.not_lt_zero _))
  split
  · show (Tab.get (u.dpws.upd k _) n).safe = true
    rw [Tab.get_upd]
    split
    · rfl
    · exact hu n (by omega) hp
  · rename_i hk
    refine hu n (Nat.lt_of_le_of_ne (Nat.le_of_lt_succ hn) fun e => hk ?_) hp
    rw [← e]
    exact hp

/-- The octads that a trip's map names. -/
theorem State.blockMapped (octs : Nat) (s : State) :
    BlockPart s (forNat 8 (fun n s => if bitOf octs n then s.toBlocked n else s) s)
      ∧ ∀ n < 8, bitOf octs n = true → (s.oct n).state.active = true →
        ((forNat 8 (fun n s => if bitOf octs n then s.toBlocked n else s) s).oct n).state = .blocked := by
  have h := forNat_induct_index (P := fun k u => BlockPart s u ∧ (∀ n, k ≤ n → u.oct n = s.oct n)
      ∧ ∀ n < k, bitOf octs n = true → (s.oct n).state.active = true → (u.oct n).state = .blocked)
    (f := fun n s => if bitOf octs n then s.toBlocked n else s) (fun k u ⟨hp, habove, hbelow⟩ => by
      split
      · refine ⟨hp.trans (.toBlocked ..), fun n hn => ?_, fun n hn hb ha => ?_⟩
        · rw [u.toBlocked_other (by omega), habove n (by omega)]
        · rcases Nat.lt_succ_iff_lt_or_eq.mp hn with hn | rfl
          · rw [u.toBlocked_other (by omega), hbelow n hn hb ha]
          · exact (State.toBlocked_oct (by rw [habove n (Nat.le_refl n)]; exact ha)).1
      · rename_i hk
        refine ⟨hp, fun n hn => habove n (by omega), fun n hn hb ha => ?_⟩
        exact hbelow n (Nat.lt_of_le_of_ne (Nat.le_of_lt_succ hn) fun e => hk (by rw [← e]; exact hb)) hb ha) 8
    ⟨.refl s, fun _ _ => rfl, fun _ h => absurd h (Nat.not_lt_zero _)⟩
  exact ⟨h.1, h.2.2⟩

/-- What a trip does before its fault is reported (R132). -/
theorem State.tripAct_spec (s : State) (m : Nat) : ∃ u, RaiseFrame u (s.tripAct m) ∧ u.trips = s.trips
    ∧ (∀ n < 24, bitOf (s.fld (0x308404 + 8 * m) 0 24) n = true → (u.dpws.get n).safe = true)
    ∧ (∀ n < 8, bitOf (s.fld (0x308404 + 8 * m) 24 8) n = true → (s.oct n).state.active = true → (u.oct n).state = .blocked) := by
  unfold State.tripAct
  extract_lets map octs w u
  have hsafe : ∀ n < 24, bitOf map n = true → (w.dpws.get n).safe = true := s.forceSafe_safe fun n => bitOf map n
  have hw : FencePart s w := FencePart.forceSafe s fun n => bitOf map n
  have ho : w.octs = s.octs := s.forceSafe_octs _
  have hu : BlockPart w u := (State.blockMapped octs w).1
  have hb : ∀ n < 8, bitOf octs n = true → (w.oct n).state.active = true → (u.oct n).state = .blocked := (State.blockMapped octs w).2
  refine ⟨u, State.raise_frame .., ?_, fun n hn h => ?_, fun n hn h ha => hb n hn h ?_⟩
  · rw [hu.rest, hw.rest]
  · rw [hu.rest]
    exact hsafe n hn h
  · rw [State.oct, ho]
    exact ha

theorem exec_tripIn_latches {m : Fin 16} {s : State} (ha : s.alive = true) (he : s.tripEn m = true) (hl : (s.trips.get m).level = s.tripPol m)
    (hn : (s.trips.get m).latch = false) (hd : (s.trips.get m).since + s.tripFilt m ≤ s.now) :
    exec (.tripIn m (s.tripPol m)) s = .next (State.tripAct { s with trips := s.trips.set m { s.trips.get m with latch := true } } m) := by
  have hgo : s.tripEn m = true ∧ True ∧ (!(s.trips.get m).latch) = true ∧ (s.trips.get m).since + s.tripFilt m ≤ s.now :=
    ⟨he, trivial, by rw [hn]; rfl, hd⟩
  simp only [exec, execTripIn, ha, Bool.not_true, Bool.false_eq_true, if_false, hl, if_true]
  exact congrArg Host.Outcome.next (if_pos hgo)

theorem tripLatches (m : Fin 16) (s : State) (ha : s.alive = true) (he : s.tripEn m = true) (hl : (s.trips.get m).level = s.tripPol m)
    (hn : (s.trips.get m).latch = false) (hd : (s.trips.get m).since + 4 * s.fld (0x308400 + 8 * m) 0 8 ≤ s.now) :
    ∃ t u, exec (.tripIn m (s.tripPol m)) s = .next t ∧ RaiseFrame u t
      ∧ (u.trips.get m).latch = true ∧ (∀ k, k ≠ m.val → u.trips.get k = s.trips.get k)
      ∧ (∀ n < 24, bitOf (s.fld (0x308404 + 8 * m) 0 24) n = true → (u.dpws.get n).safe = true)
      ∧ (∀ n < 8, bitOf (s.fld (0x308404 + 8 * m) 24 8) n = true → (s.oct n).state.active = true → (u.oct n).state = .blocked) := by
  obtain ⟨u, hu, htrips, hsafe, hblocked⟩ :=
    State.tripAct_spec { s with trips := s.trips.set m { s.trips.get m with latch := true } } m
  refine ⟨_, u, exec_tripIn_latches ha he hl hn hd, hu, ?_, fun k hk => ?_, hsafe, hblocked⟩
  · rw [htrips, Tab.get_set, if_pos rfl]
  · rw [htrips, Tab.get_set, if_neg hk]

theorem tripLevel (m : Fin 16) (level : Bool) (s : State) (ha : s.alive = true) (hl : level ≠ (s.trips.get m).level)
    (hf : 0 < s.fld (0x308400 + 8 * m) 0 8) :
    ∃ t, exec (.tripIn m level) s = .next t ∧ (t.trips.get m).level = level ∧ (t.trips.get m).since = s.now
      ∧ (t.trips.get m).latch = (s.trips.get m).latch ∧ t = { s with trips := t.trips } := by
  have hgo : ¬(s.tripEn m = true ∧ level = s.tripPol m ∧ (!(s.trips.get m).latch) = true ∧ s.now + s.tripFilt m ≤ s.now) := fun h => by
    have := h.2.2.2
    unfold State.tripFilt at this
    omega
  have hexec : exec (.tripIn m level) s = .next { s with trips := s.trips.set m { s.trips.get m with level := level, since := s.now } } := by
    simp only [exec, execTripIn, ha, Bool.not_true, Bool.false_eq_true, if_false, if_neg hl, if_neg hgo]
  have hget := Tab.get_set s.trips m m { s.trips.get m with level := level, since := s.now }
  rw [if_pos rfl] at hget
  exact ⟨_, hexec, (congrArg Trip.level hget :), (congrArg Trip.since hget :), (congrArg Trip.latch hget :), rfl⟩

/-! ### Trigger units -/

/-- A unit's output goes high at t. -/
def Trig.fires (x : Trig) (t wid : Nat) : Trig := { x with high := true, lowAt := t + wid, fired := t }

theorem State.fire_owned {s : State} {n : Nat} (t : Nat) (hh : (s.trigs.get n).high = false) (ho : s.portOwned n = true) :
    s.fire n t = s.updTrig n fun x => x.fires t (s.fld (trgAddr n) 8 8) := by
  unfold State.fire
  dsimp only
  rw [if_neg (by rw [hh]; simp)]
  exact if_pos ho

/-- The conversion frame of a port begins at t, but for one that is retired. -/
def State.openFrame (s : State) (n t : Nat) (retired : Bool) : State :=
  { s with sports := s.sports.upd n fun x => { x with
    frame := if (s.fld (0x304000 + 0x10 * n) 0 1 == 1 && !retired) = true then some t else none, clocking := false } }

theorem State.fire_free {s : State} {n : Nat} (t : Nat) (hh : (s.trigs.get n).high = false) (ho : s.portOwned n = false)
    (hf : (s.sports.get n).frame = none) :
    s.fire n t = (s.updTrig n fun x => x.fires t (s.fld (trgAddr n) 8 8)).openFrame n t (s.sports.get n).retired := by
  unfold State.fire
  extract_lets x u p v on
  rw [if_neg (by rw [hh]; simp)]
  have hu : u.portOwned n ≠ true := by
    rw [show u.portOwned n = s.portOwned n from rfl, ho]
    decide
  rw [if_neg hu]
  have hp : ¬p.frame.isSome = true := by
    rw [show p.frame = (s.sports.get n).frame from rfl, hf]
    decide
  have hv : v = u := if_neg hp
  show v.openFrame n t p.retired = u.openFrame n t p.retired
  rw [hv]

theorem firstInstance_ge (t0 per d : Nat) (hp : 0 < per) : d ≤ firstInstance t0 per d := by
  unfold firstInstance
  split
  · assumption
  · have hle : d - t0 + per - 1 < (d - t0 + per - 1) / per * per + per := Nat.lt_div_mul_add hp
    omega

/-- The next firing of a unit in TIME mode lies ahead of the device time. -/
theorem State.trgNext_time {s : State} {n : Nat} (t : Nat) (h : s.trgTime n = true) :
    ∃ j, s.trgNext n t s.time.dt true = .time j ∧ s.time.dt < j := by
  have hper : 0 < s.trgPer n := Nat.mul_pos (by omega) (by decide)
  have hge := firstInstance_ge (s.trgT0 n) (s.trgPer n) s.time.dt hper
  unfold State.trgNext
  rw [if_pos h]
  refine ⟨_, rfl, ?_⟩
  split
  · rename_i h
    omega
  · rename_i h
    simp only [Bool.true_and, beq_iff_eq] at h
    omega


theorem triggerFires (n : Fin 8) (d : Due) (x : Nat) (s : State) (ho : s.portOwned n = false) (ha : s.alive = true) (he : s.trgEn n = true)
    (hn : (s.trigs.get n).next = some d) (hh : (s.trigs.get n).high = false) (hf : (s.sports.get n).frame = none)
    (hd : (∃ o k f, d = .epoch x o k f ∧ x ≤ s.now) ∨ (∃ i, d = .time i ∧ i ≤ s.time.dt ∧ x = s.now)) :
    ∃ t, exec (.triggerFiring n) s = .next t ∧ (t.trigs.get n).high = true
      ∧ (t.trigs.get n).lowAt = x + s.fld (0x301000 + 0x20 * n) 8 8 ∧ (t.trigs.get n).fired = x ∧ (t.trigs.get n).next.isSome = true
      ∧ (t.sports.get n).frame = (if s.fld (0x304000 + 0x10 * n) 0 1 = 1 ∧ (s.sports.get n).retired = false then some x else none)
      ∧ (∀ i, d = .time i → s.trgTime n = true → ∃ j, (t.trigs.get n).next = some (.time j) ∧ s.time.dt < j)
      ∧ (∀ k, k ≠ n.val → t.trigs.get k = s.trigs.get k ∧ t.sports.get k = s.sports.get k)
      ∧ t = { s with trigs := t.trigs, sports := t.sports } := by
  have hstart : (!s.alive || !s.trgEn n) = false := by rw [ha, he]; rfl
  have hexec : ∃ nx, exec (.triggerFiring n) s = .next ((s.fire n x).updTrig n fun y => { y with next := some nx })
      ∧ (∀ i, d = .time i → nx = s.trgNext n s.now s.time.dt true) := by
    rcases hd with ⟨o, k, f, rfl, hx⟩ | ⟨i, rfl, hi, rfl⟩
    · exact ⟨s.trgNext n x (s.time.dt - (s.now - x) * s.dtStep) true,
        by simp only [exec, execTriggerFiring, ho, hstart, Bool.false_eq_true, if_false, hn, State.whenDue, if_pos hx], fun i h => by cases h⟩
    · exact ⟨s.trgNext n s.now s.time.dt true,
        by simp only [exec, execTriggerFiring, ho, hstart, Bool.false_eq_true, if_false, hn, if_pos hi], fun _ _ => rfl⟩
  obtain ⟨nx, hexec, hnx⟩ := hexec
  rw [State.fire_free x hh ho hf] at hexec
  generalize hu : (s.updTrig n fun x_1 => x_1.fires x (s.fld (trgAddr n) 8 8)).openFrame n x (s.sports.get n).retired = u at hexec
  have hut : u.trigs = s.trigs.upd n fun y => y.fires x (s.fld (trgAddr n) 8 8) := by
    rw [← hu]
    rfl
  have hus : u.sports = s.sports.upd n fun y => { y with
      frame := if (s.fld (0x304000 + 0x10 * n) 0 1 == 1 && !(s.sports.get n).retired) = true then some x else none, clocking := false } := by
    rw [← hu]
    rfl
  have htrig : ((u.updTrig n fun y => { y with next := some nx }).trigs.get n) =
      { (s.trigs.get n).fires x (s.fld (trgAddr n) 8 8) with next := some nx } := by
    show Tab.get (u.trigs.upd n _) n = _
    rw [Tab.get_upd_same, hut, Tab.get_upd_same]
  refine ⟨_, hexec, ?_, ?_, ?_, ?_, ?_, fun i hi htm => ?_, fun k hk => ⟨?_, ?_⟩, ?_⟩
  · rw [htrig]
    rfl
  · rw [htrig]
    rfl
  · rw [htrig]
    rfl
  · rw [htrig]
    rfl
  · show (u.sports.get n).frame = _
    rw [hus, Tab.get_upd_same]
    simp only [Bool.and_eq_true, beq_iff_eq, Bool.not_eq_true']
  · obtain ⟨j, hj, hlt⟩ := s.trgNext_time s.now htm
    refine ⟨j, ?_, hlt⟩
    rw [htrig]
    exact congrArg some ((hnx i hi).trans hj)
  · show Tab.get (u.trigs.upd n _) k = _
    rw [Tab.get_upd_ne _ hk, hut, Tab.get_upd_ne _ hk]
  · show u.sports.get k = _
    rw [hus, Tab.get_upd_ne _ hk]
  · rw [← hu]
    rfl

theorem ownedFires (n : Fin 8) (k : KpChan) (s : State) (ho : s.portOwned n = true) (hk : k = (if n.val = 6 then s.kp.a else s.kp.b))
    (hv : s.kp.vkp = true) (hd : (s.trigs.get n).fired + 400 * k.tKs ≤ s.now) (hh : (s.trigs.get n).high = false) :
    ∃ t, exec (.triggerFiring n) s = .next t ∧ (t.trigs.get n).high = true ∧ (t.trigs.get n).fired = s.now ∧ t = { s with trigs := t.trigs } := by
  have hdue : (s.trigs.get n).fired + (if n.val = 6 then s.kp.a else s.kp.b).tKs * 400 ≤ s.now := by
    rw [← hk]
    omega
  have hexec : exec (.triggerFiring n) s = .next (s.updTrig n fun x => x.fires s.now (s.fld (trgAddr n) 8 8)) := by
    simp only [exec, execTriggerFiring, ho, hv, if_true, State.whenDue, if_pos hdue, State.fire_owned s.now hh ho]
  have htrig := Tab.get_upd_same s.trigs n fun x => x.fires s.now (s.fld (trgAddr n) 8 8)
  exact ⟨_, hexec, (congrArg Trig.high htrig :), (congrArg Trig.fired htrig :), rfl⟩

theorem convstEnds (n : Fin 8) (s : State) (hh : (s.trigs.get n).high = true) (hd : (s.trigs.get n).lowAt ≤ s.now) :
    ∃ t, exec (.convstEnd n) s = .next t ∧ (t.trigs.get n).high = false ∧ t = { s with trigs := t.trigs } := by
  have hexec : exec (.convstEnd n) s = .next (s.updTrig n fun x => { x with high := false }) := by
    simp only [exec, execConvstEnd, hh, if_true, State.whenDue, if_pos hd]
  exact ⟨_, hexec, congrArg Trig.high (Tab.get_upd_same s.trigs n fun x => { x with high := false }), rfl⟩

end Sys2Proof.Machine
end
section
/-! SUPPORT. Sample ports and timestamps (R137 to R140, R328 to R333). -/

namespace Sys2Proof.Machine

/-! ### What a conversion frame feeds -/

/-- Values enter mailboxes: the graphs and the registers beside the engines' stay. -/
structure FeedFrame (s t : State) : Prop where
  graph : ∀ e, (t.eng e).graph = (s.eng e).graph
  reg : ∀ a, (∀ e < 9, ∀ k < 8, a ≠ engBase e + 0x38 + 4 * k) → t.reg a = s.reg a
  rest : t = { s with engs := t.engs, regs := t.regs, hotAt := t.hotAt, hot := t.hot }

namespace FeedFrame
variable {s t u : State}

theorem refl (s : State) : FeedFrame s s := ⟨fun _ => rfl, fun _ _ => rfl, rfl⟩
theorem trans (h : FeedFrame s t) (k : FeedFrame t u) : FeedFrame s u :=
  ⟨fun e => (k.graph e).trans (h.graph e), fun a ha => (k.reg a ha).trans (h.reg a ha), by rw [k.rest, h.rest]⟩

theorem putMbox (s : State) (e c : Nat) (w : Word) (tick : Nat) : FeedFrame s (s.putMbox e c w tick) :=
  ⟨fun k => by
    show (Tab.get (s.engs.upd e _) k).graph = (s.engs.get k).graph
    rw [Tab.get_upd]
    split
    · rename_i h
      rw [h]
    · rfl, fun _ _ => rfl, rfl⟩

theorem limitFlag (s : State) {e c : Nat} (he : e < 9) (hc : c < 64) : FeedFrame s (s.limitFlag e c) :=
  ⟨fun _ => rfl, fun a ha => s.reg_flag_ne (ha e he (c / 32) (by omega)) _, rfl⟩

end FeedFrame

/-- A mailbox with the value r of tick. -/
def Mbox.given (m : Mbox) (w : Word) (tick : Nat) : Mbox := { m with value := w, tick := tick, got := true }

/-- One channel of an engine with graph g is fed. -/
def State.feedChan (g : Graph) (typ index tick : Nat) (f : Nat → GChan → Word × Bool) (e c : Nat) (s : State) : State :=
  match g.chans[c]? with
  | some x =>
    if x.kind = 1 ∧ x.src = typ ∧ x.index.toNat = index then
      if (f c x).2 then (s.putMbox e c (f c x).1 tick).limitFlag e c else s.putMbox e c (f c x).1 tick
    else s
  | none => s

/-- One engine is fed. -/
def State.feedEng (typ index tick : Nat) (f : Nat → GChan → Word × Bool) (e : Nat) (s : State) : State :=
  match (s.eng e).graph with
  | none => s
  | some g => forNat 64 (fun c s => s.feedChan g typ index tick f e c) s

theorem State.feed_eq (s : State) (typ index tick : Nat) (f : Nat → GChan → Word × Bool) :
    s.feed typ index tick f = forNat 9 (fun e s => s.feedEng typ index tick f e) s := rfl

/-- Induction over a loop whose index stays below n. -/
theorem forNat_induct_below {P : State → Prop} {f : Nat → State → State} (n : Nat) (h : ∀ i < n, ∀ s, P s → P (f i s)) {s : State} (hs : P s) :
    P (forNat n f s) := by
  induction n with
  | zero => exact hs
  | succ n ih => exact h n (Nat.lt_succ_self n) _ (ih fun i hi => h i (Nat.lt_succ_of_lt hi))

namespace FeedFrame

theorem feedChan (s : State) (g : Graph) (typ index tick : Nat) (f : Nat → GChan → Word × Bool) {e c : Nat} (he : e < 9) (hc : c < 64) :
    FeedFrame s (s.feedChan g typ index tick f e c) := by
  unfold State.feedChan
  split
  · split
    · split
      · exact (putMbox ..).trans (limitFlag _ he hc)
      · exact putMbox ..
    · exact refl s
  · exact refl s

theorem feed (s : State) (typ index tick : Nat) (f : Nat → GChan → Word × Bool) : FeedFrame s (s.feed typ index tick f) := by
  rw [s.feed_eq]
  refine forNat_induct_below 9 (fun e he u hu => hu.trans ?_) (refl s)
  unfold State.feedEng
  split
  · exact refl u
  · exact forNat_induct_below 64 (fun c hc v hv => hv.trans (feedChan v _ typ index tick f he hc)) (refl u)

end FeedFrame

/-! A mailbox of one channel is followed through the feed. -/

/-- The channel c of engine e has the source typ and the index i. -/
structure FedChan (s : State) (e c : Nat) (y : GChan) (typ i : Nat) : Prop where
  eng : e < 9
  chan : c < 64
  graph : ∃ g, (s.eng e).graph = some g ∧ g.chans[c]? = some y
  kind : y.kind = 1
  src : y.src = typ
  index : y.index.toNat = i

theorem FedChan.of_feed {s t : State} {e c typ i : Nat} {y : GChan} (h : FedChan s e c y typ i) (k : FeedFrame s t) : FedChan t e c y typ i := by
  obtain ⟨g, hg, hc⟩ := h.graph
  exact ⟨h.eng, h.chan, ⟨g, (k.graph e).trans hg, hc⟩, h.kind, h.src, h.index⟩

theorem State.mbox_putMbox (s : State) (e c k l : Nat) (w : Word) (tick : Nat) :
    ((s.putMbox k l w tick).eng e).mbox.get c = if e = k ∧ c = l then ((s.eng e).mbox.get c).given w tick else (s.eng e).mbox.get c := by
  show (Tab.get (s.engs.upd k _) e).mbox.get c = _
  rw [Tab.get_upd]
  by_cases he : e = k
  · rw [if_pos he, Tab.get_upd, he]
    by_cases hc : c = l
    · rw [if_pos hc, if_pos ⟨rfl, hc⟩, hc]
      rfl
    · rw [if_neg hc, if_neg (fun h => hc h.2)]
      rfl
  · rw [if_neg he, if_neg (fun h => he h.1)]
    rfl

section Feed
variable {s : State} {e c typ i : Nat} {y : GChan} (h : FedChan s e c y typ i) (index tick : Nat) (f : Nat → GChan → Word × Bool)
include h

theorem FedChan.feedChan {g : Graph} (k l : Nat) (hg : (s.eng k).graph = some g) :
    ((s.feedChan g typ index tick f k l).eng e).mbox.get c
      = if e = k ∧ c = l ∧ i = index then ((s.eng e).mbox.get c).given (f c y).1 tick else (s.eng e).mbox.get c := by
  obtain ⟨g', hg', hc⟩ := h.graph
  unfold State.feedChan
  cases hx : g.chans[l]? with
  | none =>
    refine (if_neg fun hn => ?_).symm
    obtain ⟨he, hcl, hi⟩ := hn
    rw [he, hg] at hg'
    cases hg'
    rw [hcl, hx] at hc
    cases hc
  | some x =>
    have hxy : e = k → c = l → y = x := fun he hcl => by
      rw [he, hg] at hg'
      cases hg'
      rw [hcl, hx] at hc
      cases hc
      rfl
    dsimp only
    by_cases hfit : x.kind = 1 ∧ x.src = typ ∧ x.index.toNat = index
    · rw [if_pos hfit]
      have hbox : ((s.putMbox k l (f l x).1 tick).eng e).mbox.get c
          = if e = k ∧ c = l ∧ i = index then ((s.eng e).mbox.get c).given (f c y).1 tick else (s.eng e).mbox.get c := by
        rw [State.mbox_putMbox]
        by_cases hel : e = k ∧ c = l
        · have hy := hxy hel.1 hel.2
          rw [if_pos hel, if_pos ⟨hel.1, hel.2, by rw [← hfit.2.2, ← hy, h.index]⟩, hy, hel.2]
        · rw [if_neg hel, if_neg fun hn => hel ⟨hn.1, hn.2.1⟩]
      split
      · exact hbox
      · exact hbox
    · rw [if_neg hfit]
      refine (if_neg fun hn => hfit ?_).symm
      have hy := hxy hn.1 hn.2.1
      rw [← hy]
      exact ⟨h.kind, h.src, h.index.trans hn.2.2⟩

theorem FedChan.feedEng {k : Nat} (hk : k < 9) :
    FeedFrame s (s.feedEng typ index tick f k)
      ∧ ((s.feedEng typ index tick f k).eng e).mbox.get c
        = if e = k ∧ i = index then ((s.eng e).mbox.get c).given (f c y).1 tick else (s.eng e).mbox.get c := by
  unfold State.feedEng
  cases hg : (s.eng k).graph with
  | none =>
    refine ⟨.refl s, (if_neg fun hn => ?_).symm⟩
    obtain ⟨g', hg', -⟩ := h.graph
    rw [hn.1, hg] at hg'
    cases hg'
  | some g =>
    have hloop := forNat_induct_index (P := fun l u => l ≤ 64 → FeedFrame s u ∧ (u.eng e).mbox.get c
        = if e = k ∧ c < l ∧ i = index then ((s.eng e).mbox.get c).given (f c y).1 tick else (s.eng e).mbox.get c)
      (f := fun c s => s.feedChan g typ index tick f k c) (fun l u hu hl => ?_) 64 (s := s)
      (fun _ => ⟨.refl s, (if_neg fun hn => absurd hn.2.1 (Nat.not_lt_zero _)).symm⟩) (Nat.le_refl _)
    · obtain ⟨hframe, hbox⟩ := hloop
      refine ⟨hframe, hbox.trans ?_⟩
      simp only [h.chan, true_and]
    · obtain ⟨hframe, hbox⟩ := hu (by omega)
      have hbox' := (h.of_feed hframe).feedChan index tick f k l ((hframe.graph k).trans hg)
      refine ⟨hframe.trans (.feedChan u g typ index tick f hk (by omega)), hbox'.trans ?_⟩
      rw [hbox]
      by_cases hel : e = k ∧ i = index
      · by_cases hcl : c = l
        · rw [if_pos ⟨hel.1, hcl, hel.2⟩, if_neg (by omega), if_pos ⟨hel.1, by omega, hel.2⟩]
        · rw [if_neg fun hn => hcl hn.2.1]
          by_cases hlt : c < l
          · rw [if_pos ⟨hel.1, hlt, hel.2⟩, if_pos ⟨hel.1, by omega, hel.2⟩]
          · rw [if_neg fun hn => hlt hn.2.1, if_neg (by omega)]
      · rw [if_neg fun hn => hel ⟨hn.1, hn.2.2⟩, if_neg fun hn => hel ⟨hn.1, hn.2.2⟩, if_neg fun hn => hel ⟨hn.1, hn.2.2⟩]

theorem FedChan.feed :
    ((s.feed typ index tick f).eng e).mbox.get c
      = if i = index then ((s.eng e).mbox.get c).given (f c y).1 tick else (s.eng e).mbox.get c := by
  rw [s.feed_eq]
  have hloop := forNat_induct_index (P := fun k u => k ≤ 9 → FeedFrame s u ∧ (u.eng e).mbox.get c
      = if e < k ∧ i = index then ((s.eng e).mbox.get c).given (f c y).1 tick else (s.eng e).mbox.get c)
    (f := fun e s => s.feedEng typ index tick f e) (fun k u hu hk => ?_) 9 (s := s)
    (fun _ => ⟨.refl s, (if_neg fun hn => absurd hn.1 (Nat.not_lt_zero _)).symm⟩) (Nat.le_refl _)
  · refine hloop.2.trans ?_
    simp only [h.eng, true_and]
  · obtain ⟨hframe, hbox⟩ := hu (by omega)
    obtain ⟨hframe', hbox'⟩ := (h.of_feed hframe).feedEng index tick f (k := k) (by omega)
    refine ⟨hframe.trans hframe', hbox'.trans ?_⟩
    rw [hbox]
    by_cases hi : i = index
    · rcases Nat.lt_trichotomy e k with hlt | heq | hgt
      · rw [if_neg (by omega), if_pos ⟨hlt, hi⟩, if_pos ⟨by omega, hi⟩]
      · rw [if_pos ⟨heq, hi⟩, if_neg (by omega), if_pos ⟨by omega, hi⟩]
      · rw [if_neg (by omega), if_neg (by omega), if_neg (by omega)]
    · rw [if_neg fun hn => hi hn.2, if_neg fun hn => hi hn.2, if_neg fun hn => hi hn.2]

end Feed

/-! ### A conversion frame ends -/

/-- The words of a frame of port n, its start t, the format of its words w and fmt (R331). -/
def State.feedWord (n t w fmt : Nat) (ws : List (BitVec 24)) (c : Nat) (s : State) : State :=
  s.feed 1 (8 * n + c) t fun ch x => portWord ch x (portCode w fmt (ws.getD c 0)) w

/-- The words of a frame of port n, as the port's control register has the format. -/
def State.feedWords (n t w m : Nat) (ws : List (BitVec 24)) (s : State) : State :=
  forNat m (fun c s => s.feedWord n t w (s.fld (0x304000 + 0x10 * n) 10 1) ws c) s

theorem FeedFrame.fld_port {s t : State} (h : FeedFrame s t) {n : Nat} (hn : n < 8) (lo len : Nat) :
    t.fld (0x304000 + 0x10 * n) lo len = s.fld (0x304000 + 0x10 * n) lo len := by
  refine congrArg (fun w => (w.toNat / 2 ^ lo) % 2 ^ len) (h.reg _ fun e he k hk => ?_)
  unfold engBase octBase
  split <;> omega

theorem FeedFrame.feedWords (n t w m : Nat) (ws : List (BitVec 24)) (s : State) : FeedFrame s (s.feedWords n t w m ws) :=
  forNat_induct (P := FeedFrame s) (fun _ _ hu => hu.trans (feed ..)) m (refl s)

theorem FedChan.feedWords {s : State} {e c ch n t w m : Nat} {y : GChan} {ws : List (BitVec 24)} (hn : n < 8)
    (h : FedChan s e c y 1 (8 * n + ch)) (hm : ch < m) :
    ((s.feedWords n t w m ws).eng e).mbox.get c
      = ((s.eng e).mbox.get c).given (portWord c y (portCode w (s.fld (0x304000 + 0x10 * n) 10 1) (ws.getD ch 0)) w).1 t := by
  have hloop := forNat_induct_index (P := fun k u => FeedFrame s u ∧ (ch < k → (u.eng e).mbox.get c
      = ((s.eng e).mbox.get c).given (portWord c y (portCode w (s.fld (0x304000 + 0x10 * n) 10 1) (ws.getD ch 0)) w).1 t)
      ∧ (k ≤ ch → (u.eng e).mbox.get c = (s.eng e).mbox.get c))
    (f := fun c s => s.feedWord n t w (s.fld (0x304000 + 0x10 * n) 10 1) ws c) (fun k u ⟨hframe, hin, hout⟩ => ?_) m (s := s)
    ⟨.refl s, fun hk => absurd hk (Nat.not_lt_zero _), fun _ => rfl⟩
  · exact hloop.2.1 hm
  · have hbox := (h.of_feed hframe).feed (8 * n + k) t fun l x =>
      portWord l x (portCode w (u.fld (0x304000 + 0x10 * n) 10 1) (ws.getD k 0)) w
    refine ⟨hframe.trans (.feed ..), fun hk => hbox.trans ?_, fun hk => hbox.trans ?_⟩
    · by_cases heq : ch = k
      · rw [if_pos (by rw [heq]), hout (by omega), hframe.fld_port hn, heq]
      · rw [if_neg (by omega), hin (by omega)]
    · rw [if_neg (by omega), hout (by omega)]

theorem portClocks (n : Fin 8) (x : Nat) (s : State) (hf : (s.sports.get n).frame = some x) (hc : (s.sports.get n).clocking = false)
    (hd : x + s.fld (0x304000 + 0x10 * n) 20 10 ≤ s.now) :
    ∃ t, exec (.samplePortClockStart n) s = .next t ∧ (t.sports.get n).clocking = true ∧ (t.sports.get n).frame = some x
      ∧ t = { s with sports := t.sports } := by
  have hexec : exec (.samplePortClockStart n) s = .next { s with sports := s.sports.upd n fun x => { x with clocking := true } } := by
    simp only [exec, execSamplePortClockStart, hf, hc, Bool.false_eq_true, if_false, State.whenDue, if_pos hd]
  have hport := Tab.get_upd_same s.sports n fun x => { x with clocking := true }
  exact ⟨_, hexec, (congrArg SPort.clocking hport :), ((congrArg SPort.frame hport).trans hf :), rfl⟩

theorem portFrameEnds (n : Fin 8) (ws : List (BitVec 24)) (x : Nat) (s : State) (hf : (s.sports.get n).frame = some x)
    (hc : (s.sports.get n).clocking = true)
    (hd : x + s.fld (0x304000 + 0x10 * n) 20 10 + (s.fld (0x304000 + 0x10 * n) 1 2 + 1) * s.fld (0x304000 + 0x10 * n) 3 5
      * bitTicks (s.fld (0x304000 + 0x10 * n) 8 2) ≤ s.now) :
    ∃ t, exec (.samplePortFrame n ws) s = .next t ∧ (t.sports.get n).frame = none
      ∧ (s.portOwned n = true → t = { s with sports := t.sports })
      ∧ (s.portOwned n = false → ∀ e < 9, ∀ g c ch y, (s.eng e).graph = some g → c < 64 → g.chans[c]? = some y → y.kind = 1 → y.src = 1 →
          y.index.toNat = 8 * n.val + ch → ch < min (s.fld (0x304000 + 0x10 * n) 1 2 + 1) ws.length →
          ((t.eng e).mbox.get c).value = (portWord c y (portCode (s.fld (0x304000 + 0x10 * n) 3 5) (s.fld (0x304000 + 0x10 * n) 10 1)
            (ws.getD ch 0)) (s.fld (0x304000 + 0x10 * n) 3 5)).1
          ∧ ((t.eng e).mbox.get c).tick = x ∧ ((t.eng e).mbox.get c).got = true)
      ∧ t = { s with sports := t.sports, engs := t.engs, regs := t.regs, hotAt := t.hotAt, hot := t.hot } := by
  generalize hu : ({ s with sports := s.sports.upd n fun x => { x with frame := none, clocking := false } } : State) = u
  have hexec : exec (.samplePortFrame n ws) s = .next (if s.portOwned n then u
      else u.feedWords n x (s.fld (0x304000 + 0x10 * n) 3 5) (min (s.fld (0x304000 + 0x10 * n) 1 2 + 1) ws.length) ws) := by
    simp only [exec, execSamplePortFrame, hf, hc, Bool.not_true, Bool.false_eq_true, if_false, State.whenDue, if_pos hd]
    rw [← hu]
    rfl
  have hframe : (u.sports.get n).frame = none := by
    rw [← hu]
    exact congrArg SPort.frame (Tab.get_upd_same s.sports n fun x => { x with frame := none, clocking := false })
  have hrest : u = { s with sports := u.sports } := by rw [← hu]
  have heng : ∀ e, u.eng e = s.eng e := fun e => by rw [← hu]; rfl
  have hfld : ∀ lo len, u.fld (0x304000 + 0x10 * n) lo len = s.fld (0x304000 + 0x10 * n) lo len := fun _ _ => by rw [← hu]; rfl
  clear hu
  by_cases ho : s.portOwned n = true
  · rw [if_pos ho] at hexec
    exact ⟨u, hexec, hframe, fun _ => hrest, fun h => absurd ho (by rw [h]; decide), by rw [hrest]⟩
  · rw [if_neg ho] at hexec
    refine ⟨_, hexec, ?_, fun h => absurd h ho, fun _ e he g c ch y hg hc hy hk hsrc hi hch => ?_, ?_⟩
    · rw [(FeedFrame.feedWords ..).rest]
      exact hframe
    · have hfed : FedChan u e c y 1 (8 * n.val + ch) := ⟨he, hc, ⟨g, by rw [heng]; exact hg, hy⟩, hk, hsrc, hi⟩
      rw [hfed.feedWords n.isLt hch, hfld]
      exact ⟨rfl, rfl, rfl⟩
    · have h := (FeedFrame.feedWords n x (s.fld (0x304000 + 0x10 * n) 3 5) (min (s.fld (0x304000 + 0x10 * n) 1 2 + 1) ws.length) ws u).rest
      generalize u.feedWords n x (s.fld (0x304000 + 0x10 * n) 3 5) (min (s.fld (0x304000 + 0x10 * n) 1 2 + 1) ws.length) ws = v at h
      rw [h, hrest]

/-! ### Timestamps -/

/-- The pins as the edge of pin i leaves them. -/
def pinsAfter (pins : BitVec 8) (i : Fin 8) (rising : Bool) : BitVec 8 :=
  if rising then pins ||| BitVec.ofNat 8 (2 ^ i.val) else pins &&& ~~~(BitVec.ofNat 8 (2 ^ i.val))

theorem pinsAfter_pin (pins : BitVec 8) (i : Fin 8) (rising : Bool) : (pinsAfter pins i rising).getLsbD i = rising := by
  have hbit : (BitVec.ofNat 8 (2 ^ i.val)).getLsbD i = true := by
    rw [BitVec.getLsbD_ofNat, Nat.testBit_two_pow_self, decide_eq_true i.isLt]
    rfl
  cases rising with
  | true => exact (BitVec.getLsbD_or ..).trans (by rw [hbit, Bool.or_true])
  | false => exact (BitVec.getLsbD_and ..).trans (by rw [BitVec.getLsbD_not, hbit, Bool.not_true, Bool.and_false, Bool.and_false])

/-- The pin i at its new level. -/
def State.turnPin (s : State) (i : Fin 8) (rising : Bool) : State :=
  { s with time := { s.time with tsPins := pinsAfter s.time.tsPins i rising } }

/-- The capture record of an edge (Table 10-6). -/
def State.edgeRecord (s : State) (i : Fin 8) (rising : Bool) : List Byte :=
  [BitVec.ofNat 8 i, if rising then 1 else 2, 0, 0] ++ leBytes 8 s.tick.toNat ++ dtBytes s.time.dt

/-- The pin at its level, and the capture record of the edge where the pin's field selects it. -/
theorem exec_timestampCapture {i : Fin 8} {rising : Bool} {held : Byte} {s : State} (ha : s.alive = true)
    (hp : s.time.tsPins.getLsbD i ≠ rising) (hh : 2 ≤ held.toNat) :
    exec (.timestampCapture i ⟨rising, held⟩) s = .next (
      if s.fld 0x302000 (2 * i) 2 / (if rising then 1 else 2) % 2 = 0 then s.turnPin i rising
      else if ((s.turnPin i rising).capture (s.fld 0x302000 16 4) 0x04 (s.edgeRecord i rising)).2
        then ((s.turnPin i rising).capture (s.fld 0x302000 16 4) 0x04 (s.edgeRecord i rising)).1
        else (s.turnPin i rising).count 0x302004 1) := by
  have hgo : (!s.alive || s.time.tsPins.getLsbD i == rising || decide (held.toNat < 2)) = false := by
    rw [ha, beq_false_of_ne hp, decide_eq_false (by omega)]
    rfl
  simp only [exec, execTimestampCapture, hgo, Bool.false_eq_true, if_false]
  rfl

theorem length_dtBytes (dt : Nat) : (dtBytes dt).length = 12 := by
  simp only [dtBytes, List.length_append, length_leBytes]

theorem timestampTakes (i : Fin 8) (rising : Bool) (held : Byte) (s : State) (ha : s.alive = true) (hp : s.time.tsPins.getLsbD i ≠ rising) :
    (held.toNat < 2 → exec (.timestampCapture i ⟨rising, held⟩) s = .next s)
    ∧ (2 ≤ held.toNat →
      ∃ t, exec (.timestampCapture i ⟨rising, held⟩) s = .next t ∧ t.time.tsPins.getLsbD i = rising
        ∧ (s.fld 0x302000 (2 * i) 2 = 3 → s.captureRoom (s.fld 0x302000 16 4) 24 = true →
            t.out = s.out ++ s.slotWrites (20 + s.fld 0x302000 16 4) (captureImage 0x04 ([BitVec.ofNat 8 i, if rising then 1 else 2, 0, 0]
              ++ leBytes 8 s.tick.toNat ++ dtBytes s.time.dt) s.tick.toNat))
        ∧ (s.fld 0x302000 (2 * i) 2 = 0 → t = { s with time := { s.time with tsPins := t.time.tsPins } })) := by
  constructor
  · intro hh
    have hgo : (!s.alive || s.time.tsPins.getLsbD i == rising || decide (held.toNat < 2)) = true := by
      rw [decide_eq_true hh, Bool.or_true]
    simp only [exec, execTimestampCapture, if_pos hgo]
  · intro hh
    have hexec := exec_timestampCapture ha hp hh
    have hpin : (s.turnPin i rising).time.tsPins.getLsbD i = rising := pinsAfter_pin ..
    have hrest : s.turnPin i rising = { s with time := { s.time with tsPins := (s.turnPin i rising).time.tsPins } } := rfl
    have hlen : (s.edgeRecord i rising).length = 24 := by
      simp only [State.edgeRecord, List.length_append, List.length_cons, List.length_nil, length_leBytes, length_dtBytes]
    have hroom : (s.turnPin i rising).captureRoom (s.fld 0x302000 16 4) (s.edgeRecord i rising).length = s.captureRoom (s.fld 0x302000 16 4) 24 := by
      rw [hlen]
      rfl
    have hout : (s.turnPin i rising).out ++ (s.turnPin i rising).slotWrites (20 + s.fld 0x302000 16 4)
          (captureImage 0x04 (s.edgeRecord i rising) (s.turnPin i rising).tick.toNat)
        = s.out ++ s.slotWrites (20 + s.fld 0x302000 16 4) (captureImage 0x04 (s.edgeRecord i rising) s.tick.toNat) := rfl
    by_cases hedge : s.fld 0x302000 (2 * i) 2 / (if rising then 1 else 2) % 2 = 0
    · rw [if_pos hedge] at hexec
      refine ⟨_, hexec, hpin, fun h3 => ?_, fun _ => hrest⟩
      rw [h3] at hedge
      cases rising <;> cases hedge
    · rw [if_neg hedge] at hexec
      have hne : s.fld 0x302000 (2 * i) 2 ≠ 0 := fun h0 => hedge (by rw [h0, Nat.zero_div])
      by_cases hfull : s.captureRoom (s.fld 0x302000 16 4) 24 = true
      · rw [State.capture_room (hroom.trans hfull)] at hexec
        exact ⟨_, hexec, hpin, fun _ _ => hout, fun h0 => absurd h0 hne⟩
      · rw [State.capture_full (hroom.trans (Bool.eq_false_iff.mpr hfull))] at hexec
        have htime : ((s.turnPin i rising).count 0x302004 1).time = (s.turnPin i rising).time := (RaiseFrame.count (by decide)).time_eq
        exact ⟨(s.turnPin i rising).count 0x302004 1, hexec, (congrArg (fun x : TimeSt => x.tsPins.getLsbD i) htime).trans hpin,
          fun _ h => absurd h hfull, fun h0 => absurd h0 hne⟩

/-- Settles O44: each command of a trip, a trigger unit, a sample port and a timestamp pin by the branch that the conditions select; a frame's words
reach the channel that names them because no other word of the frame has its index. -/
theorem tripsTriggersAndPortsAct : Obligations.TripsTriggersAndPortsAct := by
  unfold Obligations.TripsTriggersAndPortsAct
  exact ⟨tripLatches, tripLevel, triggerFires, ownedFires, convstEnds, portClocks, portFrameEnds, timestampTakes⟩

end Sys2Proof.Machine
end
section
/-! SUPPORT. The time servo (R311 to R324). -/

namespace Sys2Proof.Machine

/-! ### What a sample of the servo leaves -/

/-- The awaited Sync and the latest complete one stay. -/
structure SyncKept (s t : State) : Prop where
  sync : t.time.sync = s.time.sync
  last : t.time.lastSync = s.time.lastSync

namespace SyncKept
variable {s t u : State}

theorem refl (s : State) : SyncKept s s := ⟨rfl, rfl⟩
theorem trans (h : SyncKept s t) (k : SyncKept t u) : SyncKept s u := ⟨k.sync.trans h.sync, k.last.trans h.last⟩

/-- `trans` with the later step first: its state before says what the earlier one has to reach. -/
theorem after (k : SyncKept t u) (h : SyncKept s t) : SyncKept s u := h.trans k

theorem of_time (h : t.time = s.time) : SyncKept s t := ⟨congrArg TimeSt.sync h, congrArg TimeSt.lastSync h⟩

theorem ite {c : Prop} [Decidable c] {a b : State} (ha : SyncKept s a) (hb : SyncKept s b) : SyncKept s (if c then a else b) := by
  split
  · exact ha
  · exact hb

theorem raise (s : State) (c x : Nat) (p : List Byte) : SyncKept s (s.raise c x p) := of_time (State.raise_frame ..).time_eq

theorem setTime (s : State) (x : TimeSt) (h : x.sync = s.time.sync) (k : x.lastSync = s.time.lastSync) : SyncKept s { s with time := x } := ⟨h, k⟩

theorem toServo (s : State) (v : Servo) : SyncKept s (s.toServo v) := by
  unfold State.toServo
  split
  · exact ⟨rfl, rfl⟩
  · exact ⟨rfl, rfl⟩

theorem enterSplit (s : State) : SyncKept s s.enterSplit :=
  after (raise ..) (after (setTime _ _ rfl rfl) (toServo s .split))

theorem enterSlew (s : State) (ta tb ts : Int) : SyncKept s (s.enterSlew ta tb ts) :=
  after (raise ..) (after (t := State.toServo _ .slew) (setTime _ _ rfl rfl) (after (toServo ..) (setTime s _ rfl rfl)))

theorem servoUpdate (s : State) (theta ts : Int) : SyncKept s (s.servoUpdate theta ts) := by
  unfold State.servoUpdate
  exact ite (refl s) (setTime s _ rfl rfl)

theorem stepTime (s : State) (v : Int) : SyncKept s (s.stepTime v) :=
  ⟨(congrArg TimeSt.sync (s.stepTime_time v) :), (congrArg TimeSt.lastSync (s.stepTime_time v) :)⟩

theorem classify (s : State) (ta tb ts : Int) : SyncKept s (s.classify ta tb ts) := by
  unfold State.classify
  refine ite ?_ ?_
  · refine ite (setTime s _ rfl rfl) ?_
    exact after (enterSplit _) (setTime s _ rfl rfl)
  · refine ite ?_ ?_
    · exact after (enterSlew ..) (setTime s _ rfl rfl)
    · refine ite (after (servoUpdate ..) ?_) ?_
      · exact after (t := State.toServo _ .locked) (setTime _ _ rfl rfl) (after (toServo ..) (setTime s _ rfl rfl))
      · exact after (t := State.toServo _ .locked) (setTime _ _ rfl rfl) (after (toServo ..) (setTime s _ rfl rfl))

/-- Device time stepped onto the master's, the servo LOCKED (R317). -/
theorem stepLock (s : State) (v : Int) : SyncKept s
    (((({ s.stepTime v with time := { (s.stepTime v).time with
        freq := 0, rate := 0, prev := none } } : State).toServo .locked).raise 0x3304 0 [])) := by
  have h := stepTime s v
  generalize s.stepTime v = u at h ⊢
  exact after (raise ..) (after (toServo ..) (after (setTime u _ rfl rfl) h))

/-- The offset is small again: the servo is LOCKED. -/
theorem slewLock (s : State) (theta ts : Int) : SyncKept s
    (({ s.toServo .locked with time := { (s.toServo .locked).time with prev := none } } : State).servoUpdate theta ts) := by
  have h := toServo s .locked
  generalize s.toServo .locked = u at h ⊢
  exact after (servoUpdate ..) (after (setTime u _ rfl rfl) h)

theorem servoSample (s : State) (theta ts : Int) : SyncKept s (s.servoSample theta ts) := by
  unfold State.servoSample
  dsimp only
  split
  · split
    · exact setTime s _ rfl rfl
    · refine ite ?_ (after (classify ..) (setTime s _ rfl rfl))
      exact after (stepLock ..) (setTime s _ rfl rfl)
  · refine ite ?_ ?_
    · exact after (servoUpdate ..) (setTime s _ rfl rfl)
    · split
      · exact after (of_time (RaiseFrame.count (by decide)).time_eq) (setTime s _ rfl rfl)
      · exact after (classify ..) (setTime s _ rfl rfl)
  · refine ite ?_ (ite ?_ ?_)
    · exact after (slewLock ..) (setTime s _ rfl rfl)
    · exact after (enterSplit _) (setTime s _ rfl rfl)
    · exact setTime s _ rfl rfl
  · split
    · exact setTime s _ rfl rfl
    · exact after (classify ..) (setTime s _ rfl rfl)

theorem syncComplete (s : State) (t2 t1 c : Int) :
    (s.syncComplete t2 t1 c).time.sync = s.time.sync ∧ (s.syncComplete t2 t1 c).time.lastSync = some (t2 - t1 - c) := by
  unfold State.syncComplete
  dsimp only
  split
  · split
    · have h := servoSample
      exact ⟨(h _ _ _).sync, (h _ _ _).last⟩
    · exact ⟨rfl, rfl⟩
  · exact ⟨rfl, rfl⟩

end SyncKept

/-! ### Sync and its Follow_Up -/

theorem frameTaken_of_ptpTaken {s : State} {eth : EthHdr} {dst mac : BitVec 48} {d : Byte}
    (h : frameTaken eth 0x88F7 = false ∨ dst ≠ mac) : s.ptpTaken eth dst mac d = false := by
  unfold State.ptpTaken
  rcases h with h | h
  · rw [h]
    rfl
  · rw [beq_false_of_ne h, Bool.and_false, Bool.false_and]

/-- A frame that PTP does not take changes nothing (R311). -/
theorem ptpIgnores (port : Fin 2) (m : PtpMsg) (s : State) (h : frameTaken m.eth 0x88F7 = false ∨ (m.dst ≠ ptpMac ∧ m.dst ≠ peerMac)) :
    ∀ i ∈ [Instr.sync port m, .followUp port m, .delayResp port m, .pdelayReq port m, .pdelayResp port m], exec i s = .next s := by
  have hp : s.ptpTaken m.eth m.dst ptpMac m.domain = false := frameTaken_of_ptpTaken (h.imp id And.left)
  have hq : s.ptpTaken m.eth m.dst peerMac m.domain = false := frameTaken_of_ptpTaken (h.imp id And.right)
  intro i hi
  simp only [List.mem_cons, List.not_mem_nil, or_false] at hi
  rcases hi with rfl | rfl | rfl | rfl | rfl
  · simp only [exec, execSync, hp, Bool.not_false, Bool.or_true, Bool.true_or, if_true]
  · simp only [exec, execFollowUp, hp, Bool.not_false, Bool.or_true, if_true]
  · simp only [exec, execDelayResp, hp, Bool.not_false, Bool.or_true, Bool.true_or, if_true]
  · simp only [exec, execPdelayReq, hq, Bool.not_false, Bool.or_true, if_true]
  · simp only [exec, execPdelayResp, hq, Bool.not_false, Bool.or_true, if_true]

section Sync
variable {port : Fin 2} {m : PtpMsg} {s : State} (hon : s.ptpOn port = true) (ht : s.ptpTaken m.eth m.dst ptpMac m.domain = true)
include hon ht

/-- A Sync of the selected master is taken at once, or waits for its Follow_Up. -/
theorem exec_sync (hm : s.fromMaster port m.clock = true) (hlo : -7 ≤ m.logInterval) (hhi : m.logInterval ≤ 1) :
    exec (.sync port m) s = .next (
      if m.twoStep then { s with time := { s.time with
        syncInterval := m.logInterval, sync := some (port.val, m, s.rxStamp port m.sub, s.now) } }
      else State.syncComplete { s with time := { s.time with syncInterval := m.logInterval } } (s.rxStamp port m.sub) m.stamp m.correction) := by
  simp only [exec, execSync, hon, ht, hm, Bool.not_true, decide_eq_false (show ¬m.logInterval < -7 by omega),
    decide_eq_false (show ¬1 < m.logInterval by omega), Bool.or_false, Bool.false_eq_true, if_false]
  rfl

theorem exec_followUp {y : PtpMsg} {t2 : Int} {a : Nat} (hs : s.time.sync = some (port.val, y, t2, a)) (hseq : y.seq = m.seq)
    (hclk : y.clock = m.clock) (ha : s.now ≤ a + 400000000) (hm : s.fromMaster port m.clock = true) :
    exec (.followUp port m) s
      = .next (State.syncComplete { s with time := { s.time with sync := none } } t2 m.stamp (y.correction + m.correction)) := by
  have hgo : s.now ≤ a + tickSec ∧ s.fromMaster port m.clock = true := ⟨ha, hm⟩
  simp only [exec, execFollowUp, hon, ht, Bool.not_true, Bool.or_false, Bool.false_eq_true, if_false, hs, hseq, hclk, and_self, if_true]
  exact congrArg Host.Outcome.next (if_pos hgo)

end Sync

/-- In LOCKED a small offset moves the frequency alone (R318). -/
theorem State.servoSample_locked {s : State} {theta : Int} (ts : Int) (hs : s.time.servo = .locked) (hth : theta.natAbs < 1000 * 2 ^ 16) :
    s.servoSample theta ts = State.servoUpdate { s with time := { s.time with theta := theta, prev := none } } theta ts := by
  have hus : (theta.natAbs : Int) < us16 := by
    have : us16 = 1000 * 2 ^ 16 := rfl
    omega
  unfold State.servoSample
  dsimp only
  rw [hs]
  exact if_pos hus

/-- What a servo sample in LOCKED does. -/
structure LockedSample (s t : State) (theta t2 ts : Int) (f : Int) : Prop where
  theta : t.time.theta = theta
  servo : t.time.servo = s.time.servo
  lastT2 : t.time.lastT2 = some t2
  lastSample : t.time.lastSample = some s.now
  dt : t.time.dt = s.time.dt
  prev : t.time.prev = none
  freq : 0 < ts → t.time.freq = f
  rest : t = { s with time := t.time }

theorem State.servoUpdate_locked (s : State) {theta ts t2 : Int} (hp : s.time.prev = none) (hth : s.time.theta = theta)
    (ht2 : s.time.lastT2 = some t2) (hls : s.time.lastSample = some s.now) :
    LockedSample s (s.servoUpdate theta ts) theta t2 ts
      (rateClamp ((Ex.ofInt s.time.freq).add (gain theta (s.fld 0x300004 8 4) ts)) 200) := by
  unfold State.servoUpdate
  split
  · exact ⟨hth, rfl, ht2, hls, rfl, hp, fun h => by omega, rfl⟩
  · exact ⟨hth, rfl, ht2, hls, rfl, hp, fun _ => rfl, rfl⟩

/-- The time since the Sync before the one received at t2 (R316). -/
def State.sinceSync (s : State) (t2 : Int) : Int :=
  match s.time.lastT2 with
  | some p => t2 - p
  | none => 0

theorem lockedSync (port : Fin 2) (m : PtpMsg) (d : Nat) (s : State) (hon : s.ptpOn port = true)
    (ht : s.ptpTaken m.eth m.dst ptpMac m.domain = true) (hm : s.fromMaster port m.clock = true) (hlo : -7 ≤ m.logInterval)
    (hhi : m.logInterval ≤ 1) (h2 : m.twoStep = false) (hd : s.time.delayAt = some d) (hnow : s.now ≤ d + 4 * 400000000)
    (hs : s.time.servo = .locked) (hth : (s.rxStamp port m.sub - m.stamp - m.correction - s.time.delay).natAbs < 1000 * 2 ^ 16) :
    ∃ t, exec (.sync port m) s = .next t ∧ t.time.theta = s.rxStamp port m.sub - m.stamp - m.correction - s.time.delay
      ∧ t.time.servo = .locked ∧ t.time.lastT2 = some (s.rxStamp port m.sub) ∧ t.time.lastSample = some s.now ∧ t.time.dt = s.time.dt
      ∧ t.time.prev = none
      ∧ (∀ x, s.time.lastT2 = some x → x < s.rxStamp port m.sub →
          t.time.freq = rateClamp ((Ex.ofInt s.time.freq).add (gain t.time.theta (s.fld 0x300004 8 4) (s.rxStamp port m.sub - x))) 200)
      ∧ t = { s with time := t.time } := by
  have hexec := exec_sync hon ht hm hlo hhi
  rw [h2, if_neg Bool.false_ne_true] at hexec
  generalize s.rxStamp port m.sub = t2 at hexec hth ⊢
  generalize hth' : t2 - m.stamp - m.correction - s.time.delay = theta at hth ⊢
  have hall : State.syncComplete { s with time := { s.time with syncInterval := m.logInterval } } t2 m.stamp m.correction
      = State.servoUpdate { s with time := { s.time with
          syncInterval := m.logInterval, lastSync := some (t2 - m.stamp - m.correction), lastT2 := some t2, lastSample := some s.now,
          theta := theta, prev := none } } theta (s.sinceSync t2) := by
    unfold State.syncComplete
    dsimp only
    rw [hd]
    refine (if_pos hnow).trans ?_
    rw [hth']
    exact State.servoSample_locked (s.sinceSync t2) hs hth
  rw [hall] at hexec
  have h := State.servoUpdate_locked { s with time := { s.time with
      syncInterval := m.logInterval, lastSync := some (t2 - m.stamp - m.correction), lastT2 := some t2, lastSample := some s.now,
      theta := theta, prev := none } } (theta := theta) (ts := s.sinceSync t2) (t2 := t2) rfl rfl rfl rfl
  generalize State.servoUpdate _ theta (s.sinceSync t2) = t at hexec h
  refine ⟨t, hexec, h.theta, h.servo.trans hs, h.lastT2, h.lastSample, h.dt, h.prev, fun x hx hlt => ?_, ?_⟩
  · have hts : s.sinceSync t2 = t2 - x := by rw [State.sinceSync, hx]
    rw [h.theta, ← hts, h.freq (by omega)]
    rfl
  · have := h.rest
    generalize t.time = x at this ⊢
    exact this

theorem followUpTaken (port : Fin 2) (m y : PtpMsg) (t2 : Int) (a : Nat) (s : State) (hon : s.ptpOn port = true)
    (ht : s.ptpTaken m.eth m.dst ptpMac m.domain = true) (hs : s.time.sync = some (port.val, y, t2, a)) (hseq : y.seq = m.seq)
    (hclk : y.clock = m.clock) (ha : s.now ≤ a + 400000000) (hm : s.fromMaster port m.clock = true) :
    ∃ t, exec (.followUp port m) s = .next t ∧ t.time.sync = none
      ∧ t.time.lastSync = some (t2 - m.stamp - (y.correction + m.correction))
      ∧ (s.time.delayAt = none → t = { s with time := { s.time with sync := none, lastSync := t.time.lastSync } }) := by
  have hsync := SyncKept.syncComplete { s with time := { s.time with sync := none } } t2 m.stamp (y.correction + m.correction)
  refine ⟨_, exec_followUp hon ht hs hseq hclk ha hm, hsync.1, hsync.2, fun hd => ?_⟩
  rw [hsync.2]
  unfold State.syncComplete
  dsimp only
  rw [hd]

/-! ### The path delay -/

theorem delayRespTaken (port : Fin 2) (m : PtpMsg) (t3 x : Int) (s : State) (hon : s.ptpOn port = true) (hp : s.p2p = false)
    (ht : s.ptpTaken m.eth m.dst ptpMac m.domain = true) (hm : s.fromMaster port m.clock = true) (he : s.time.e2eT3 = some (m.seq, t3))
    (hl : s.time.lastSync = some x) :
    ∃ t, exec (.delayResp port m) s = .next t ∧ t.time.e2eT3 = none ∧ t.time.minReq = m.logInterval ∧ t.time.delayAt = some s.now
      ∧ t.time.delay = (if s.time.delayFirst = true then (x + (m.stamp - t3 - m.correction)) / 2
          else s.time.delay + (x + (m.stamp - t3 - m.correction) - 2 * s.time.delay) / 2 ^ (s.fld 0x300000 20 3 + 1))
      ∧ t = { s with time := t.time } := by
  have hexec : exec (.delayResp port m) s = .next (State.delaySample { s with time := { s.time with minReq := m.logInterval, e2eT3 := none } }
      (x + (m.stamp - t3 - m.correction))) := by
    simp only [exec, execDelayResp, hon, hp, ht, hm, Bool.not_true, Bool.or_false, Bool.false_eq_true, if_false, he, hl, if_true]
  exact ⟨_, hexec, rfl, rfl, rfl, rfl, rfl⟩

theorem pdelayRespTaken (port : Fin 2) (m : PtpMsg) (t1 : Int) (s : State) (hon : s.ptpOn port = true) (hp : s.p2p = true)
    (ht : s.ptpTaken m.eth m.dst peerMac m.domain = true) (he : s.time.pd.get port = some (m.seq, t1)) (hport : s.time.port = port) :
    ∃ t, exec (.pdelayResp port m) s = .next t ∧ t.time.pd.get port = none ∧ t.time.delayAt = some s.now
      ∧ (s.time.delayFirst = true → t.time.delay = (s.rxStamp port m.sub - t1 - m.stamp - m.correction) / 2)
      ∧ t = { s with time := t.time } := by
  have hexec : exec (.pdelayResp port m) s = .next (State.delaySample { s with time := { s.time with pd := s.time.pd.set port none } }
      (s.rxStamp port m.sub - t1 - m.stamp - m.correction)) := by
    simp only [exec, execPdelayResp, hon, hp, ht, Bool.not_true, Bool.or_false, Bool.false_eq_true, if_false, he, if_true, hport]
    rfl
  exact ⟨_, hexec, (Tab.get_set ..).trans (if_pos rfl), rfl, fun h => if_pos h, rfl⟩

theorem pdelayReqAnswered (port : Fin 2) (m : PtpMsg) (s : State) (hon : s.ptpOn port = true) (hp : s.p2p = true)
    (ht : s.ptpTaken m.eth m.dst peerMac m.domain = true) :
    exec (.pdelayReq port m) s = .next { s with out := s.out ++
      (if s.fld 0x300000 4 1 = 1 then [.ptp port peerMac .pdelayResp m.seq [m.correction + (s.txStamp port - s.rxStamp port m.sub)]]
      else [.ptp port peerMac .pdelayResp m.seq [s.rxStamp port m.sub],
        .ptp port peerMac .pdelayRespFollowUp m.seq [s.txStamp port, m.correction]]) } := by
  simp only [exec, execPdelayReq, hon, hp, ht, Bool.not_true, Bool.or_false, Bool.false_eq_true, if_false]
  split
  · rfl
  · simp only [State.emit, List.append_assoc, List.cons_append, List.nil_append]

theorem State.reqDue_sent {s t : State} {port : Fin 2} (hs : t.time.sentAt.get port = some s.now) (hm : t.time.minReq = s.time.minReq)
    (hp : t.p2p = s.p2p) :
    s.now + 400000000 ≤ t.reqDue port ∧ (s.p2p = false → s.now + logTicks s.time.minReq ≤ t.reqDue port) := by
  unfold State.reqDue
  rw [hs, hm, hp]
  have htick : tickSec = 400000000 := rfl
  constructor
  · dsimp only
    split <;> omega
  · intro h
    rw [h]
    dsimp only
    rw [if_neg Bool.false_ne_true]
    omega

theorem delayReqSent (port : Fin 2) (s : State) (hon : s.ptpOn port = true) (hd : s.reqDue port ≤ s.now)
    (hgo : s.p2p = true ∨ (s.time.gmValid = true ∧ s.time.port = port)) :
    ∃ t, exec (.delayReqSend port) s = .next t ∧ t.time.reqSeq = s.time.reqSeq + 1 ∧ t.time.sentAt.get port = some s.now
      ∧ s.now + 400000000 ≤ t.reqDue port ∧ (s.p2p = false → s.now + logTicks s.time.minReq ≤ t.reqDue port)
      ∧ t.out = s.out ++ [if s.p2p = true then .ptp port peerMac .pdelayReq s.time.reqSeq [] else .ptp port ptpMac .delayReq s.time.reqSeq []]
      ∧ (s.p2p = true → t.time.pd.get port = some (s.time.reqSeq, s.txStamp port))
      ∧ (s.p2p = false → t.time.e2eT3 = some (s.time.reqSeq, s.txStamp port)) ∧ t = { s with time := t.time, out := t.out } := by
  have hsent : (s.time.sentAt.set port (some s.now)).get port = some s.now := (Tab.get_set ..).trans (if_pos rfl)
  by_cases hp : s.p2p = true
  · have hexec : exec (.delayReqSend port) s = .next (({ s with time := { s.time with
        reqSeq := s.time.reqSeq + 1, sentAt := s.time.sentAt.set port (some s.now),
        pd := s.time.pd.set port (some (s.time.reqSeq, s.txStamp port)) } } : State).emit (.ptp port peerMac .pdelayReq s.time.reqSeq [])) := by
      simp only [exec, execDelayReqSend, hon, Bool.not_true, Bool.false_eq_true, if_false, State.whenDue, if_pos hd, hp, if_true]
    refine ⟨_, hexec, rfl, hsent, ?_, fun h => absurd hp (by rw [h]; decide), ?_, fun _ => (Tab.get_set ..).trans (if_pos rfl),
      fun h => absurd hp (by rw [h]; decide), rfl⟩
    · have hdue : ∀ t : State, t.time.sentAt.get port = some s.now → t.time.minReq = s.time.minReq → t.p2p = s.p2p →
          s.now + 400000000 ≤ t.reqDue port := fun t h1 h2 h3 => (State.reqDue_sent h1 h2 h3).1
      exact hdue _ hsent rfl rfl
    · rw [if_pos hp]
      rfl
  · have hm : s.time.gmValid = true ∧ s.time.port = port.val := hgo.resolve_left hp
    have hexec : exec (.delayReqSend port) s = .next (({ s with time := { s.time with
        reqSeq := s.time.reqSeq + 1, sentAt := s.time.sentAt.set port (some s.now),
        e2eT3 := some (s.time.reqSeq, s.txStamp port) } } : State).emit (.ptp port ptpMac .delayReq s.time.reqSeq [])) := by
      simp only [exec, execDelayReqSend, hon, Bool.not_true, Bool.false_eq_true, if_false, State.whenDue, if_pos hd, if_neg hp, if_pos hm]
    obtain ⟨hsec, hreq⟩ := State.reqDue_sent (s := s) (t := ({ s with time := { s.time with
        reqSeq := s.time.reqSeq + 1, sentAt := s.time.sentAt.set port (some s.now),
        e2eT3 := some (s.time.reqSeq, s.txStamp port) } } : State).emit (.ptp port ptpMac .delayReq s.time.reqSeq [])) (port := port) hsent rfl rfl
    refine ⟨_, hexec, rfl, hsent, hsec, hreq, ?_, fun h => absurd h hp, fun _ => rfl, rfl⟩
    rw [if_neg hp]
    rfl

/-! ### Masters and holdover -/

theorem State.bestMaster_of_none {s : State} {p : Nat} (h : s.liveMasters p = []) : s.bestMaster p = none := by
  rw [State.bestMaster, h]
  rfl

theorem State.bestMaster_of_one {s : State} {p : Nat} {m : Master} (h : s.liveMasters p = [m]) : s.bestMaster p = some m.msg := by
  rw [State.bestMaster, h]
  rfl

theorem State.selectMaster_of_best {s : State} {p : Nat} {a : AnnounceMsg} (h : s.bestPort = some (p, a)) :
    s.selectMaster.time.gmValid = true ∧ s.selectMaster.time.gm = a.gm ∧ s.selectMaster.time.masterId = a.sender ∧ s.selectMaster.time.port = p
      ∧ s.selectMaster.time.utc = a.utc ∧ s.selectMaster.time.utcValid = true ∧ s.selectMaster = { s with time := s.selectMaster.time } := by
  unfold State.selectMaster
  rw [h]
  exact ⟨rfl, rfl, rfl, rfl, rfl, rfl, rfl⟩

theorem announceSelects (port : Fin 2) (m : AnnounceMsg) (s : State) (hon : s.ptpOn port = true)
    (ht : s.ptpTaken m.eth m.dst ptpMac m.domain = true) (h0 : s.liveMasters 0 = []) (h1 : s.liveMasters 1 = []) (ha : 0 < s.annTicks m) :
    ∃ t, exec (.announce port m) s = .next t ∧ t.time.gmValid = true ∧ t.time.gm = m.gm ∧ t.time.masterId = m.sender ∧ t.time.port = port
      ∧ t.time.utc = m.utc
      ∧ t.time.utcValid = true ∧ t = { s with time := t.time } := by
  have hnone : s.liveMasters port = [] := by
    obtain rfl | rfl : port = 0 ∨ port = 1 := by omega
    · exact h0
    · exact h1
  generalize hu : ({ s with time := { s.time with masters := s.time.masters.set port [(⟨m, s.now⟩ : Master)] } } : State) = u
  have hexec : exec (.announce port m) s = .next u.selectMaster := by
    simp only [exec, execAnnounce, hon, ht, Bool.not_true, Bool.or_false, Bool.false_eq_true, if_false, hnone, List.filter_nil, List.nil_append]
    rw [← hu]
  have hlive : ∀ p, u.liveMasters p = if p = port then [⟨m, s.now⟩] else s.liveMasters p := fun p => by
    have hget : u.time.masters.get p = if p = port then [⟨m, s.now⟩] else s.time.masters.get p := by
      rw [← hu]
      exact Tab.get_set ..
    have hon' : u.ptpOn p = s.ptpOn p := by rw [← hu]; rfl
    have hnow : u.now = s.now := by rw [← hu]; rfl
    have hann : ∀ a, u.annTicks a = s.annTicks a := fun _ => by rw [← hu]; rfl
    rw [State.liveMasters, State.liveMasters, hget, hon', hnow]
    simp only [hann]
    by_cases hp : p = port
    · rw [if_pos hp, if_pos hp, hp, if_pos hon]
      exact List.filter_cons.trans (if_pos (decide_eq_true (show s.now < s.now + s.annTicks m by omega)))
    · rw [if_neg hp, if_neg hp]
  have hrest : u = { s with time := u.time } := by rw [← hu]
  clear hu
  have hbest : u.bestPort = some (port.val, m) := by
    unfold State.bestPort
    obtain rfl | rfl : port = 0 ∨ port = 1 := by omega
    · rw [State.bestMaster_of_one ((hlive 0).trans (if_pos rfl)), State.bestMaster_of_none ((hlive 1).trans ((if_neg (by decide)).trans h1))]
      rfl
    · rw [State.bestMaster_of_none ((hlive 0).trans ((if_neg (by decide)).trans h0)), State.bestMaster_of_one ((hlive 1).trans (if_pos rfl))]
      rfl
  obtain ⟨hv, hgm, hid, hport, hutc, huv, hr⟩ := State.selectMaster_of_best hbest
  refine ⟨_, hexec, hv, hgm, hid, hport, hutc, huv, ?_⟩
  rw [hr, hrest]

/-- The servo holds over: its rate is the frequency of the last update, the fault told (R316). -/
theorem State.enterHoldover_spec {s : State} (h : s.time.servo = .locked ∨ s.time.servo = .slew) :
    s.enterHoldover.time.servo = .holdover ∧ s.enterHoldover.time.holdSince = s.now ∧ s.enterHoldover.time.delayFirst = true
      ∧ s.enterHoldover.time.rate = appliedRate (Ex.ofInt s.time.freq) ∧ s.enterHoldover.time.gmValid = s.time.gmValid
      ∧ RaiseFrame { s with time := s.enterHoldover.time } s.enterHoldover := by
  have hne : s.time.servo ≠ .holdover := fun hh => by rcases h with h | h <;> rw [hh] at h <;> cases h
  have hu : s.enterHoldover = State.raise { s with time := { s.time with
      servo := .holdover, everLocked := s.time.everLocked || Servo.holdover == .locked, rate := appliedRate (Ex.ofInt s.time.freq),
      holdSince := s.now, prev := none, delayFirst := true } } 0x3301 0 [] := by
    unfold State.enterHoldover
    rw [if_pos h, State.toServo_eq hne]
    rfl
  have hr := State.raise_frame { s with time := { s.time with
      servo := .holdover, everLocked := s.time.everLocked || Servo.holdover == .locked, rate := appliedRate (Ex.ofInt s.time.freq),
      holdSince := s.now, prev := none, delayFirst := true } } 0x3301 0 []
  rw [← hu] at hr
  have ht := hr.time_eq
  rw [ht]
  exact ⟨rfl, rfl, rfl, rfl, rfl, hr⟩

theorem masterLost (m : Master) (s : State) (hm : s.master = some m) (ha : s.alive = true) (hv : s.time.gmValid = true)
    (hd : m.at_ + s.annTicks m.msg ≤ s.now) (hb : s.bestPort = none) (hs : s.time.servo = .locked) :
    ∃ t, exec .announceTimeout s = .next t ∧ t.time.gmValid = false ∧ t.time.servo = .holdover ∧ t.time.holdSince = s.now
      ∧ t.time.rate = appliedRate (Ex.ofInt s.time.freq) := by
  have hsel : s.selectMaster = { s with time := { s.time with gmValid := false } } := by
    unfold State.selectMaster
    rw [hb]
  have hexec : exec .announceTimeout s = .next (State.enterHoldover { s with time := { s.time with gmValid := false } }) := by
    simp only [exec, execAnnounceTimeout, hm, ha, hv, Bool.not_true, Bool.or_false, Bool.false_eq_true, if_false, State.whenDue, if_pos hd, hsel]
  obtain ⟨hservo, hsince, -, hrate, hgm, -⟩ := State.enterHoldover_spec (s := { s with time := { s.time with gmValid := false } }) (.inl hs)
  exact ⟨_, hexec, hgm, hservo, hsince, hrate⟩

theorem samplesLost (a : Nat) (s : State) (hl : s.time.lastSample = some a) (ha : s.alive = true)
    (hd : a + 4 * logTicks s.time.syncInterval ≤ s.now) (hs : s.time.servo = .locked ∨ s.time.servo = .slew) :
    ∃ t, exec .syncTimeout s = .next t ∧ t.time.servo = .holdover ∧ t.time.holdSince = s.now ∧ t.time.delayFirst = true
      ∧ t.time.rate = appliedRate (Ex.ofInt s.time.freq) ∧ RaiseFrame { s with time := t.time } t := by
  have hexec : exec .syncTimeout s = .next s.enterHoldover := by
    simp only [exec, execSyncTimeout, hl, ha, if_true, State.whenDue, if_pos hd]
  obtain ⟨hservo, hsince, hfirst, hrate, -, hr⟩ := State.enterHoldover_spec hs
  exact ⟨_, hexec, hservo, hsince, hfirst, hrate, hr⟩

/-- Settles O45: each message and each timeout of the servo by the branch that its conditions select; whatever a sample leads to, the awaited Sync and
the latest complete one stay as its Sync or Follow_Up left them. -/
theorem servoFollowsTheGrandmaster : Obligations.ServoFollowsTheGrandmaster := by
  unfold Obligations.ServoFollowsTheGrandmaster
  exact ⟨lockedSync, fun port m s hon ht hm hlo hhi h2 => by rw [exec_sync hon ht hm hlo hhi, if_pos h2], ptpIgnores, followUpTaken, delayRespTaken,
    pdelayRespTaken, pdelayReqAnswered, delayReqSent, announceSelects, masterLost, samplesLost⟩

end Sys2Proof.Machine
end
section
/-! SUPPORT. Sampled values (R334 to R337). -/

namespace Sys2Proof.Machine

/-! ### The values of an ASDU -/

/-- The value i of an ASDU, where its quality does not refuse it. -/
def State.feedValue (st t : Nat) (a : AsduMsg) (i : Nat) (s : State) : State :=
  match a.values[i]? with
  | some (v, q) => if s.svInvalid st q then s else s.feed 2 (16 * st + i) t fun c g => sampledWord c g v.toInt
  | none => s

theorem FeedFrame.feedValue (st t : Nat) (a : AsduMsg) (i : Nat) (s : State) : FeedFrame s (s.feedValue st t a i) := by
  unfold State.feedValue
  split
  · split
    · exact refl s
    · exact feed ..
  · exact refl s

theorem FeedFrame.feedValues (n st t : Nat) (a : AsduMsg) (s : State) : FeedFrame s (forNat n (fun i s => s.feedValue st t a i) s) :=
  forNat_induct (P := FeedFrame s) (fun i u hu => hu.trans (feedValue st t a i u)) n (refl s)

theorem FeedFrame.reg_stream {s t : State} (h : FeedFrame s t) {st k : Nat} (hst : st < 32) (hk : k < 0x20) :
    t.reg (svAddr st + k) = s.reg (svAddr st + k) :=
  h.reg _ fun e he j hj => by
    unfold svAddr engBase octBase
    split <;> omega

theorem FeedFrame.svInvalid {s t : State} (h : FeedFrame s t) {st : Nat} (hst : st < 32) (q : Word) : t.svInvalid st q = s.svInvalid st q := by
  have hf : ∀ lo len, t.fld (svAddr st) lo len = s.fld (svAddr st) lo len := fun lo len =>
    congrArg (fun w => (w.toNat / 2 ^ lo) % 2 ^ len) (h.reg_stream hst (k := 0) (by decide))
  unfold State.svInvalid
  rw [hf, hf]

/-- A valid value reaches the channel that names it: the other values of the ASDU have other indices. -/
theorem FedChan.feedValues {s : State} {e c st i n t : Nat} {y : GChan} {a : AsduMsg} {v q : Word} (hst : st < 32)
    (h : FedChan s e c y 2 (16 * st + i)) (hi : i < n) (hv : a.values[i]? = some (v, q)) (hq : s.svInvalid st q = false) :
    ((forNat n (fun i s => s.feedValue st t a i) s).eng e).mbox.get c = ((s.eng e).mbox.get c).given (sampledWord c y v.toInt).1 t := by
  have hloop := forNat_induct_index (P := fun k u => FeedFrame s u
      ∧ (i < k → (u.eng e).mbox.get c = ((s.eng e).mbox.get c).given (sampledWord c y v.toInt).1 t)
      ∧ (k ≤ i → (u.eng e).mbox.get c = (s.eng e).mbox.get c))
    (f := fun i s => s.feedValue st t a i) (fun k u ⟨hframe, hin, hout⟩ => ?_) n (s := s)
    ⟨.refl s, fun hk => absurd hk (Nat.not_lt_zero _), fun _ => rfl⟩
  · exact hloop.2.1 hi
  · refine ⟨hframe.trans (.feedValue ..), ?_⟩
    by_cases heq : i = k
    · have hfeed : u.feedValue st t a k = u.feed 2 (16 * st + k) t fun c g => sampledWord c g v.toInt := by
        unfold State.feedValue
        rw [← heq, hv]
        dsimp only
        rw [hframe.svInvalid hst, hq, if_neg Bool.false_ne_true]
      refine ⟨fun _ => ?_, fun _ => by omega⟩
      rw [hfeed, (h.of_feed hframe).feed, if_pos (by rw [heq]), hout (by omega)]
    · have hkeep : ((u.feedValue st t a k).eng e).mbox.get c = (u.eng e).mbox.get c := by
        unfold State.feedValue
        split
        · split
          · rfl
          · rw [(h.of_feed hframe).feed, if_neg (by omega)]
        · rfl
      rw [hkeep]
      exact ⟨fun _ => hin (by omega), fun _ => hout (by omega)⟩

/-! ### The stream that an ASDU meets -/

theorem State.svMatches_congr {s t : State} {st : Nat} (h : ∀ k < 0x10, t.reg (svAddr st + k) = s.reg (svAddr st + k)) (port : Nat) (a : AsduMsg) :
    t.svMatches port st a = s.svMatches port st a := by
  have hf : ∀ k < 0x10, ∀ lo len, t.fld (svAddr st + k) lo len = s.fld (svAddr st + k) lo len := fun k hk lo len =>
    congrArg (fun w => (w.toNat / 2 ^ lo) % 2 ^ len) (h k hk)
  have hf0 : ∀ lo len, t.fld (svAddr st) lo len = s.fld (svAddr st) lo len := hf 0 (by decide)
  unfold State.svMatches
  dsimp only
  simp only [hf0, hf 8 (by decide), h 4 (by decide), h 0xC (by decide)]

/-- One stream looks at an ASDU. -/
def State.asduAt (port : Nat) (a : AsduMsg) (st : Nat) (s : State) : State :=
  if !s.svMatches port st a || (s.svs.get st).retired then s
  else if a.confRev ≠ s.reg (svAddr st + 0x10) then s.flag (svAddr st + 0x1C) 2
  else s.svAccept st a

/-- What a stream changes of the others: nothing that they are matched by. -/
structure StreamStep (st : Nat) (s t : State) : Prop where
  svs : ∀ k, k ≠ st → t.svs.get k = s.svs.get k
  reg : ∀ k < 32, ∀ j < 0x10, t.reg (svAddr k + j) = s.reg (svAddr k + j)

namespace StreamStep
variable {st : Nat} {s t u : State}

theorem refl (s : State) : StreamStep st s s := ⟨fun _ _ => rfl, fun _ _ _ _ => rfl⟩
theorem trans (h : StreamStep st s t) (k : StreamStep st t u) : StreamStep st s u :=
  ⟨fun n hn => (k.svs n hn).trans (h.svs n hn), fun n hn j hj => (k.reg n hn j hj).trans (h.reg n hn j hj)⟩

theorem of_feed (h : FeedFrame s t) : StreamStep st s t :=
  ⟨fun k _ => by rw [h.rest], fun _ hk _ hj => h.reg_stream hk (by omega)⟩

theorem setReg (s : State) (w : Word) : StreamStep st s (s.setReg (svAddr st + 0x1C) w) :=
  ⟨fun _ _ => rfl, fun k _ j hj => s.reg_setReg_ne (by unfold svAddr; omega) w⟩

theorem countAt (s : State) (lo len sat n : Nat) : StreamStep st s (s.countAt (svAddr st + 0x1C) lo len sat n) := by
  unfold State.countAt
  dsimp only
  split
  · exact setReg ..
  · exact (setReg ..).trans (setReg ..)

theorem svAccept (s : State) (a : AsduMsg) : StreamStep st s (s.svAccept st a) := by
  unfold State.svAccept
  extract_lets b x rate d u t v w
  split
  · exact refl s
  · have hu : StreamStep st s u := by
      dsimp only [u]
      split
      · exact countAt ..
      · exact refl s
    have hv : StreamStep st u v := by
      dsimp only [v]
      split
      · exact ⟨fun _ _ => rfl, fun _ _ _ _ => rfl⟩
      · exact refl u
    have hw : StreamStep st v w := ⟨fun k hk => Tab.get_upd_ne _ hk _, fun _ _ _ _ => rfl⟩
    exact ((hu.trans hv).trans hw).trans (of_feed (FeedFrame.feedValues ..))

end StreamStep

/-- A stream that accepts its first ASDU (R336). -/
def State.svFirst (s : State) (st : Nat) (a : AsduMsg) : State :=
  let u := if 2 < a.smpSynch.toNat then s.freeNext else s
  { u with svs := u.svs.upd st fun x => { x with last := some a.smpCnt, lastAt := u.now, active := true, lost := false } }

theorem State.svAccept_first {s : State} {st : Nat} {a : AsduMsg} (h : (s.svs.get st).last = none) :
    s.svAccept st a = forNat (s.fld (svAddr st) 8 5) (fun i u => u.feedValue st (s.svTick st a) a i) (s.svFirst st a) := by
  unfold State.svAccept
  extract_lets b x rate d u t v w
  have hx : x.last.isSome = false := by rw [show x.last = none from h]; rfl
  have hu : u = s := if_neg fun hh => by
    rw [hx] at hh
    cases hh.1
  have ht : t = s.svTick st a := by
    dsimp only [t]
    rw [hu]
  have hw : w = s.svFirst st a := by
    dsimp only [w, v]
    rw [hu]
    rfl
  have hn : w.fld b 8 5 = s.fld (svAddr st) 8 5 := by
    rw [hw]
    unfold State.svFirst
    split <;> rfl
  rw [hx]
  refine (if_neg Bool.false_ne_true).trans ?_
  show forNat (w.fld b 8 5) (fun i z => z.feedValue st t a i) w = _
  rw [hn, hw, ht]

theorem State.svFirst_spec (s : State) (st : Nat) (a : AsduMsg) :
    (s.svFirst st a).svs = s.svs.upd st (fun x => { x with last := some a.smpCnt, lastAt := s.now, active := true, lost := false })
      ∧ (∀ e, (s.svFirst st a).eng e = s.eng e) ∧ ∀ q, (s.svFirst st a).svInvalid st q = s.svInvalid st q := by
  unfold State.svFirst
  split
  · exact ⟨rfl, fun _ => rfl, fun _ => rfl⟩
  · exact ⟨rfl, fun _ => rfl, fun _ => rfl⟩

theorem StreamStep.asduAt (port : Nat) (a : AsduMsg) (st : Nat) (s : State) : StreamStep st s (s.asduAt port a st) := by
  unfold State.asduAt
  split
  · exact refl s
  · split
    · exact ⟨fun _ _ => rfl, fun k _ j hj => s.reg_flag_ne (by unfold svAddr; omega) 2⟩
    · exact svAccept s a

/-- The only stream that an ASDU matches is the only one that takes it. -/
theorem exec_asdu {port : Fin 2} {a : AsduMsg} {st : Fin 32} {s : State} (ha : s.alive = true) (hf : frameTaken a.eth 0x88BA = true)
    (hothers : ∀ k < 32, k ≠ st.val → s.svMatches port k a = false) :
    exec (.asdu port a) s = .next (s.asduAt port a st) := by
  have hloop := forNat_induct_index (P := fun k u => k ≤ 32 → u = if st.val < k then s.asduAt port a st else s)
    (f := fun k u => u.asduAt port a k) (fun k u hu hk => ?_) 32 (s := s) (fun _ => rfl) (Nat.le_refl _)
  · rw [if_pos st.isLt] at hloop
    simp only [exec, execAsdu, ha, hf, Bool.not_true, Bool.or_false, Bool.false_eq_true, if_false]
    exact congrArg Host.Outcome.next hloop
  · rw [hu (by omega)]
    by_cases hks : k = st.val
    · rw [if_neg (by omega), if_pos (by omega), hks]
    · have hskip : ∀ t : State, StreamStep st s t → t.asduAt port a k = t := fun t ht => by
        unfold State.asduAt
        rw [State.svMatches_congr (ht.reg k (by omega)), hothers k (by omega) hks]
        rfl
      rw [hskip]
      · by_cases hlt : st.val < k
        · rw [if_pos hlt, if_pos (by omega)]
        · rw [if_neg hlt, if_neg (by omega)]
      · split
        · exact .asduAt ..
        · exact .refl s

theorem asduTaken (port : Fin 2) (a : AsduMsg) (st : Fin 32) (s : State) (ha : s.alive = true) (hf : frameTaken a.eth 0x88BA = true)
    (hm : s.svMatches port st a = true) (hothers : ∀ k < 32, k ≠ st.val → s.svMatches port k a = false) (hr : (s.svs.get st).retired = false) :
    ∃ t, exec (.asdu port a) s = .next t
      ∧ (a.confRev = s.reg (0x303010 + 0x20 * st) → (s.svs.get st).last = none →
          (t.svs.get st).last = some a.smpCnt ∧ (t.svs.get st).active = true ∧ (t.svs.get st).lost = false
          ∧ (t.svs.get st).lastAt = s.now
          ∧ (∀ e < 9, ∀ g c i y v q, (s.eng e).graph = some g → c < 64 → g.chans[c]? = some y → y.kind = 1 → y.src = 2 →
              y.index.toNat = 16 * st.val + i → i < s.fld (0x303000 + 0x20 * st) 8 5 → i < 16 → a.values[i]? = some (v, q) →
              s.svInvalid st q = false → ((t.eng e).mbox.get c).value = (sampledWord c y v.toInt).1
              ∧ ((t.eng e).mbox.get c).got = true))
      ∧ (a.confRev ≠ s.reg (0x303010 + 0x20 * st) → t = s.flag (0x30301C + 0x20 * st) 2)
      ∧ (∀ k, k ≠ st.val → t.svs.get k = s.svs.get k) := by
  have haddr : ∀ j, svAddr st + j = 0x303000 + j + 0x20 * st := fun j => by
    unfold svAddr
    omega
  refine ⟨_, exec_asdu ha hf hothers, fun hrev hlast => ?_, fun hrev => ?_, (StreamStep.asduAt ..).svs⟩
  · have hat : s.asduAt port a st = s.svAccept st a := by
      unfold State.asduAt
      rw [hm, hr, haddr]
      refine (if_neg (by decide)).trans (if_neg fun h => h ?_)
      exact hrev
    rw [hat, State.svAccept_first hlast]
    obtain ⟨hsvs, heng, hinv⟩ := s.svFirst_spec st a
    have hframe := FeedFrame.feedValues (s.fld (svAddr st) 8 5) st (s.svTick st a) a (s.svFirst st a)
    have hget := Tab.get_upd_same s.svs st fun x => { x with last := some a.smpCnt, lastAt := s.now, active := true, lost := false }
    rw [hframe.rest]
    dsimp only
    rw [hsvs, hget]
    refine ⟨rfl, rfl, rfl, rfl, fun e he g c i y v q hg hc hy hk hsrc hi hn _ hv hq => ?_⟩
    have hfed : FedChan (s.svFirst st a) e c y 2 (16 * st.val + i) := ⟨he, hc, ⟨g, by rw [heng]; exact hg, hy⟩, hk, hsrc, hi⟩
    have hbox := hfed.feedValues (t := s.svTick st a) st.isLt hn hv (by rw [hinv]; exact hq)
    exact ⟨(congrArg Mbox.value hbox :), (congrArg Mbox.got hbox :)⟩
  · unfold State.asduAt
    rw [hm, hr, haddr, haddr]
    exact (if_neg (by decide)).trans (if_pos hrev)

theorem streamLost (st : Fin 32) (s : State) (ha : s.alive = true) (hen : s.fld (0x303000 + 0x20 * st) 0 1 = 1) (hl : (s.svs.get st).lost = false)
    (hr : (s.svs.get st).retired = false) (hd : (s.svs.get st).lastAt + s.fld (0x303014 + 0x20 * st) 24 8 * 400000 ≤ s.now) :
    ∃ t u, exec (.svLost st) s = .next t ∧ RaiseFrame u t ∧ (u.svs.get st).lost = true ∧ (u.svs.get st).active = false
      ∧ u = { s with svs := u.svs } := by
  have haddr : svAddr st + 0x14 = 0x303014 + 0x20 * st := by
    unfold svAddr
    omega
  have hstart : (!s.alive || s.fld (svAddr st) 0 1 == 0 || (s.svs.get st).lost || (s.svs.get st).retired) = false := by
    rw [ha, hl, hr, show s.fld (svAddr st) 0 1 = 1 from hen]
    rfl
  have hdue : (s.svs.get st).lastAt + s.fld (svAddr st + 0x14) 24 8 * 400000 ≤ s.now := by
    rw [haddr]
    exact hd
  let occ : List Nat := ((s.svs.get st).occ.filter fun t => decide (s.now < t + s.fld 0x200028 16 12 * tickSec))
    ++ (if s.covered 0x3306 st then [] else [s.now])
  generalize hu : ({ s with svs := s.svs.upd st fun x => { x with lost := true, active := false, occ := occ } } : State) = u
  have hexec : exec (.svLost st) s = .next (
      if (u.raise 0x3306 st []).fld 0x200028 8 8 < occ.length then (u.raise 0x3306 st []).raise 0x3309 st [] else u.raise 0x3306 st []) := by
    simp only [exec, execSvLost, hstart, Bool.false_eq_true, if_false, State.whenDue, if_pos hdue]
    rw [← hu]
  have hget : u.svs.get st = { s.svs.get st with lost := true, active := false, occ := occ } := by
    rw [← hu]
    exact Tab.get_upd_same ..
  refine ⟨_, u, hexec, ?_, by rw [hget], by rw [hget], by rw [← hu]⟩
  split
  · exact (State.raise_frame ..).trans (State.raise_frame ..)
  · exact State.raise_frame ..

/-- Settles O46: an ASDU reaches the one stream that it matches, since no stream changes what another is matched by; a lost stream is told after its
own record has changed. -/
theorem sampledValuesReachTheirStream : Obligations.SampledValuesReachTheirStream := by
  unfold Obligations.SampledValuesReachTheirStream
  refine ⟨asduTaken, fun port a s hf => ?_, streamLost⟩
  simp only [exec, execAsdu, hf, Bool.not_false, Bool.or_true, if_true]

end Sys2Proof.Machine
end
section
/-! SUPPORT. A raised fault reacts, or a window covers it (R380 to R399). -/

namespace Sys2Proof.Machine

/-! ### What the reactions keep -/

/-- FAULT_N stays asserted. -/
structure FaultNKept (s t : State) : Prop where
  kept : s.flt.faultN = true → t.flt.faultN = true

theorem State.laneToRetired_flt (s : State) (l : Nat) : (s.laneToRetired l).flt = s.flt := by
  unfold State.laneToRetired State.abortEye
  split <;> rfl

theorem FaultNKept.of_flt {s t : State} (h : t.flt = s.flt) : FaultNKept s t := ⟨fun hn => by rw [h]; exact hn⟩

theorem FaultNKept.steps : RaiseSteps FaultNKept where
  refl _ := of_flt rfl
  trans h k := ⟨fun hn => k.kept (h.kept hn)⟩
  books _ _ _ hf := ⟨hf⟩
  fence s n := of_flt (by rw [(FencePart.fenceOctad s n).rest])
  outputs _ _ := of_flt rfl
  lane s l := of_flt (s.laneToRetired_flt l)
  cell _ _ := of_flt rfl
  ports _ _ _ := of_flt rfl

theorem State.recordFault_faultN (s : State) (code : Nat) (cls : FClass) (r : Report) : (s.recordFault true code cls r).flt.faultN = true := by
  unfold State.recordFault
  dsimp only
  rw [if_pos rfl]
  split
  · exact (FaultNKept.steps.enqueue s.assertFaultN r).kept rfl
  · split
    · unfold State.mergeFallback
      split <;> rfl
    · rfl

/-- An octad that is Fenced stays so through every step that a fault may take. -/
theorem RaiseFrame.fenced {s t : State} (h : RaiseFrame s t) {n : Nat} (hf : (s.oct n).state = .fenced) : (t.oct n).state = .fenced := by
  rcases h.state n with hs | hs | ⟨-, ha⟩
  · rw [hs, hf]
  · exact hs
  · rw [hf] at ha
    cases ha

theorem RaiseFrame.configured {s t : State} (h : RaiseFrame s t) {n : Nat} (hc : (s.oct n).state ≠ .unconfigured) :
    (t.oct n).state ≠ .unconfigured := by
  rcases h.state n with hs | hs | ⟨hs, -⟩
  · rw [hs]
    exact hc
  · rw [hs]
    decide
  · rw [hs]
    decide

theorem State.fenceOctad_fences {s : State} {n : Nat} (hc : (s.oct n).state ≠ .unconfigured) : ((s.fenceOctad n).oct n).state = .fenced := by
  by_cases hf : (s.oct n).state = .fenced
  · exact (RaiseFrame.fenceOctad s n).fenced hf
  · unfold State.fenceOctad
    rw [if_neg (fun h => h.elim hc hf)]
    dsimp only
    generalize (s.immediateBlock n).haltSelection n = u
    have hu : ((u.updOct n fun o => { o with state := .fenced }).oct n).state = .fenced := by
      rw [State.oct_updOct_same]
    exact ((RaiseFrame.modeLeave _ n none).trans ((RaiseFrame.forceSafe _ _).trans (RaiseFrame.settleDev _))).fenced hu

/-- One octad of a fault's fence. -/
def State.fenceOne (cls : FClass) (mask code src id n : Nat) (s : State) : State :=
  if mask / 2 ^ n % 2 = 1 ∧ (s.oct n).state ≠ .fenced ∧ (s.oct n).state ≠ .unconfigured then
    if cls = .lockout then s.fenceOctad n else (s.fenceOctad n).openWindow (.fence n) id code src (some s.now)
  else s

theorem State.fenceOne_frame (cls : FClass) (mask code src id n : Nat) (s : State) : RaiseFrame s (s.fenceOne cls mask code src id n) :=
  .ite (.ite (.fenceOctad s n) ((RaiseFrame.fenceOctad s n).trans (.openWindow ..))) (.refl s)

theorem State.fenceOne_fences {cls : FClass} {mask code src id n : Nat} {s : State} (hm : mask / 2 ^ n % 2 = 1)
    (hc : (s.oct n).state ≠ .unconfigured) : ((s.fenceOne cls mask code src id n).oct n).state = .fenced := by
  unfold State.fenceOne
  by_cases hf : (s.oct n).state = .fenced
  · rw [if_neg (fun h => h.2.1 hf)]
    exact hf
  · rw [if_pos ⟨hm, hf, hc⟩]
    split
    · exact State.fenceOctad_fences hc
    · exact State.fenceOctad_fences hc

theorem State.fenceReaction_fences {cls : FClass} {mask code src id n : Nat} {s : State} (hn : n < 8) (hm : mask / 2 ^ n % 2 = 1)
    (hc : (s.oct n).state ≠ .unconfigured) : ((s.fenceReaction cls mask code src id).oct n).state = .fenced := by
  have h := forNat_induct_index (P := fun k u => RaiseFrame s u ∧ (n < k → (u.oct n).state = .fenced))
    (f := fun n u => u.fenceOne cls mask code src id n)
    (fun k u ⟨hu, hf⟩ => ⟨hu.trans (u.fenceOne_frame cls mask code src id k), fun hk => ?_⟩) 8
    ⟨.refl s, fun hk => absurd hk (Nat.not_lt_zero _)⟩
  · exact h.2 hn
  · rcases Nat.lt_succ_iff_lt_or_eq.mp hk with hlt | rfl
    · exact (u.fenceOne_frame cls mask code src id k).fenced (hf hlt)
    · exact State.fenceOne_fences hm (hu.configured hc)

theorem State.react_fences {again : Nat → Nat → List Byte → State → State} (ih : ∀ c u d s, RaiseFrame s (again c u d s)) {cls : FClass}
    {mask code src id n : Nat} {s : State} (h3 : 3 ≤ cls.code) (hn : n < 8) (hm : mask / 2 ^ n % 2 = 1) (hc : (s.oct n).state ≠ .unconfigured) :
    ((s.react again cls mask code src id).oct n).state = .fenced := by
  unfold State.react
  rw [if_neg (by omega)]
  dsimp only
  rw [if_neg (by omega)]
  have hr := RaiseFrame.retireReaction ih (code := code) (src := src) (id := id) (s := s)
  have hf := (RaiseFrame.joinCauses _ mask).fenced (State.fenceReaction_fences (cls := cls) (code := code) (src := src) (id := id) hn hm
    (hr.configured hc))
  split
  · exact hf
  · exact (RaiseFrame.lockoutReaction ..).fenced hf

theorem State.forceSafe_sys (s : State) (p : Nat → Bool) : (s.forceSafe p).sys = s.sys :=
  forNat_induct (P := fun u => u.sys = s.sys) (fun k u hu => by
    split
    · exact hu
    · exact hu) 24 rfl

theorem State.react_locks (again : Nat → Nat → List Byte → State → State) (mask code src id : Nat) (s : State) :
    (s.react again .lockout mask code src id).sys.dev = .lockout := by
  unfold State.react
  rw [if_neg (by decide)]
  dsimp only
  rw [if_neg (by decide)]
  split
  · rename_i h
    exact h.resolve_left fun hn => hn rfl
  · unfold State.lockoutReaction
    rw [State.forceSafe_sys]

/-! ### A fault that no window covers -/

/-- The faults that a reaction raises in turn. -/
def raiseAgain (c v : Nat) (d : List Byte) (s : State) : State := raiseN 5 c v d none s

theorem raiseAgain_frame (c v : Nat) (d : List Byte) (s : State) : RaiseFrame s (raiseAgain c v d s) := RaiseFrame.of_raiseN 5 c v d none s

/-- The fault is recorded and entered in the table of active faults, then its reaction follows. -/
theorem State.raise_open {s : State} {code src : Nat} (data : List Byte)
    (h : s.nextReport.coveredBy code src (s.faultParams code).1 false = none) :
    ∃ mask id cb r, (3 ≤ (s.faultParams code).1.code → mask = s.fenceMask code src (s.faultParams code).1 (s.faultParams code).2.2.2)
      ∧ s.raise code src data = State.react raiseAgain (s.faultParams code).1 mask code src id
          (State.tableFault raiseAgain (s.faultParams code).1 (s.faultParams code).2.1 cb mask code src id
            (s.nextReport.recordFault (s.faultParams code).2.1 code (s.faultParams code).1 r)) := by
  have hraise : s.raise code src data = raiseN 6 code src data none s := rfl
  rw [hraise]
  unfold raiseN
  dsimp only [Option.isSome_none]
  rw [h]
  exact ⟨_, _, _, _, fun h3 => if_pos h3, rfl⟩

/-- A covered fault is recorded, nothing else (R391). -/
theorem State.raise_covered {s : State} {code src : Nat} (data : List Byte) {w : Window}
    (h : s.nextReport.coveredBy code src (s.faultParams code).1 false = some w) :
    ∃ r, s.raise code src data = s.nextReport.recordConsequential w r := by
  have hraise : s.raise code src data = raiseN 6 code src data none s := rfl
  rw [hraise]
  unfold raiseN
  dsimp only [Option.isSome_none]
  rw [h]
  exact ⟨_, rfl⟩

/-- Queues, windows and counts of a recorded fault: the table of active faults and FAULT_N stay. -/
structure Recorded (s t : State) : Prop where
  rest : t = { s with flt := t.flt, regs := t.regs }
  table : t.flt.table = s.flt.table
  faultN : t.flt.faultN = s.flt.faultN

theorem Recorded.recordConsequential (s : State) (w : Window) (r : Report) : Recorded s (s.recordConsequential w r) := by
  have h : Recorded s (s.enqueue r) := by
    unfold State.enqueue
    dsimp only
    split
    · exact ⟨rfl, rfl, rfl⟩
    · have hc := State.countAt_rest ({ s with flt := { s.flt with dropped := s.flt.dropped.upd r.level (· + 1) } })
        (0x200008 + 4 * r.level) 0 31 31 1
      unfold State.count
      generalize State.countAt _ (0x200008 + 4 * r.level) 0 31 31 1 = u at hc
      rw [hc]
      exact ⟨rfl, rfl, rfl⟩
  unfold State.recordConsequential
  generalize s.enqueue r = u at h ⊢
  obtain ⟨hr, ht, hn⟩ := h
  refine ⟨?_, ht, hn⟩
  rw [hr]

/-- Settles O47: the reaction comes last and no further fault that it raises undoes it — FAULT_N stays asserted, a Fenced octad stays Fenced, and
LOCKOUT is the last thing entered. -/
theorem raisedFaultReactsUnlessCovered : Obligations.RaisedFaultReactsUnlessCovered := by
  unfold Obligations.RaisedFaultReactsUnlessCovered
  intro code src data s
  refine ⟨State.raise_frame s code src data, fun hopen => ?_, fun w hw => ?_⟩
  · obtain ⟨mask, id, cb, r, hmask, heq⟩ := State.raise_open data hopen
    rw [heq]
    generalize s.faultParams code = p at hmask ⊢
    have hrec : RaiseFrame s (s.nextReport.recordFault p.2.1 code p.1 r) := (RaiseFrame.setFlt s _).trans (.recordFault ..)
    have hfn : p.2.1 = true → (s.nextReport.recordFault p.2.1 code p.1 r).flt.faultN = true := fun h => by
      rw [h]
      exact State.recordFault_faultN ..
    generalize s.nextReport.recordFault p.2.1 code p.1 r = u at hrec hfn ⊢
    have htab : RaiseFrame u (u.tableFault raiseAgain p.1 p.2.1 cb mask code src id) := .tableFault raiseAgain_frame ..
    have hkeep : FaultNKept u (u.tableFault raiseAgain p.1 p.2.1 cb mask code src id) :=
      FaultNKept.steps.tableFault (fun c v d s => FaultNKept.steps.raiseN 5 c v d none s) ..
    generalize u.tableFault raiseAgain p.1 p.2.1 cb mask code src id = v at htab hkeep ⊢
    refine ⟨fun h => ?_, fun h3 n hn hc hm => ?_, fun hl => ?_⟩
    · exact (FaultNKept.steps.react (fun c v d s => FaultNKept.steps.raiseN 5 c v d none s) p.1 mask code src id v).kept (hkeep.kept (hfn h))
    · rw [← hmask h3] at hm
      exact State.react_fences raiseAgain_frame h3 hn hm ((hrec.trans htab).configured hc)
    · rw [hl]
      exact State.react_locks ..
  · obtain ⟨r, heq⟩ := State.raise_covered data hw
    obtain ⟨hr, ht, hn⟩ := Recorded.recordConsequential s.nextReport w r
    rw [← heq] at hr ht hn
    refine ⟨?_, ht, hn⟩
    generalize s.raise code src data = t at hr
    rw [hr]
    rfl

end Sys2Proof.Machine
end
section
/-! SUPPORT. A search of the time PLL that fails at start-up while the table of active faults is full. -/

namespace Sys2Proof.Machine

/-- A protection set whose reaction map gives code 0x3104, the table of active faults full, the class LOCKOUT. -/
def fullTableLocks : List Byte := List.replicate 32 0 ++ [3, 0, 8, 0, 0x04, 0x31, 4, 0, 0, 0, 0, 0]

/-- BOOT in its lock step, the third search of the time PLL about to fail, with 256 faults active. -/
def bootFullTable : State :=
  { State.reset with
    sys := { State.reset.sys with dev := .boot, step := 9, hold := false }
    clk := { State.reset.clk with active := some false, time := { State.reset.clk.time with state := .search, fails := 2 } }
    flt := { State.reset.flt with table := List.replicate 256 ⟨0, 0, 0, .info, 0, false, 1, 0, 0, 0⟩ }
    ps := { State.reset.ps with image := some fullTableLocks } }

/-- The state of the device in the next state. -/
def nextDev : Host.Outcome State Fault Refusal → Option DevState
  | .next t => some t.sys.dev
  | _ => none

/-- The entry that finds no room raises 0x3104, whose reaction locks the device out. -/
theorem bootFullTable_search : nextDev (exec (.bandSearchComplete .time none) bootFullTable) = some .lockout := by decide +kernel

/-- Refutes O49: a time PLL without a band is said to hold the device in BOOT whatever the table of active faults holds; where it is full, 0x3104 is
raised in turn, and the reaction map (R384) may give that the class LOCKOUT. -/
theorem not_pllsHopSearchAndLock : ¬ Obligations.PllsHopSearchAndLock := by
  unfold Obligations.PllsHopSearchAndLock
  rintro ⟨-, -, -, -, -, -, -, -, hNone, -⟩
  obtain ⟨t, hexec, -, -, -, hheld⟩ := hNone .time bootFullTable (by decide +kernel) (by decide +kernel) (by decide +kernel) (by decide)
  have hlock : some t.sys.dev = some .lockout := (congrArg nextDev hexec).symm.trans bootFullTable_search
  have hboot : t.sys.dev = .boot := (hheld (by decide) rfl rfl).2.1
  rw [hboot] at hlock
  cases hlock

end Sys2Proof.Machine
end
section
/-! SUPPORT. References are lost, qualified and chosen; PLLs relock (R474 to R479). -/

namespace Sys2Proof.Machine

/-! ### A phase jump -/

/-- The references as they are known, the core PLL and the clocks' start stay. -/
structure RefsKept (s t : State) : Prop where
  lostA : t.clk.lostA = s.clk.lostA
  lostB : t.clk.lostB = s.clk.lostB
  qualA : t.clk.qualA = s.clk.qualA
  qualB : t.clk.qualB = s.clk.qualB
  refSince : t.clk.refSince = s.clk.refSince
  active : t.clk.active = s.clk.active

namespace RefsKept
variable {s t u : State}

theorem of_clk (h : t.clk = s.clk) : RefsKept s t := ⟨by rw [h], by rw [h], by rw [h], by rw [h], by rw [h], by rw [h]⟩
theorem trans (h : RefsKept s t) (k : RefsKept t u) : RefsKept s u :=
  ⟨k.lostA.trans h.lostA, k.lostB.trans h.lostB, k.qualA.trans h.qualA, k.qualB.trans h.qualB, k.refSince.trans h.refSince, k.active.trans h.active⟩

theorem qualified (h : RefsKept s t) (b : Bool) : t.qualified b = s.qualified b := by
  unfold State.qualified
  rw [h.qualA, h.qualB]

theorem lost (h : RefsKept s t) (b : Bool) : (if b then t.clk.lostB else t.clk.lostA) = if b then s.clk.lostB else s.clk.lostA := by
  rw [h.lostA, h.lostB]

end RefsKept

/-- The time PLL relocks from now (R478, R480). -/
structure Relocks (s t : State) : Prop where
  refs : RefsKept s t
  state : t.clk.time.state = .relock
  bypass : t.clk.bypassTime = some s.now
  rho : s.clk.rho = 0 → t.clk.rhoAt = s.now ∧ 64527754 ≤ t.clk.rho.toNat ∧ t.clk.rho.toNat ≤ 69905066

theorem State.measureRho_rho (s : State) : 64527754 ≤ s.measureRho.clk.rho.toNat ∧ s.measureRho.clk.rho.toNat ≤ 69905066 := by
  have hval : s.measureRho.clk.rho.toNat = (64527754 + s.freeNat % 5377313) % 2 ^ 28 := BitVec.toNat_ofNat ..
  omega

theorem State.startRelock_spec (s : State) : Relocks s s.startRelock := by
  unfold State.startRelock
  by_cases h : s.clk.rho = 0
  · rw [if_pos h]
    exact ⟨⟨rfl, rfl, rfl, rfl, rfl, rfl⟩, rfl, rfl, fun _ => ⟨rfl, s.measureRho_rho⟩⟩
  · rw [if_neg h]
    exact ⟨⟨rfl, rfl, rfl, rfl, rfl, rfl⟩, rfl, rfl, fun h0 => absurd h0 h⟩

/-- The phase jump before what the time PLL does: its fault, its count and the window of Table 12-7. -/
def State.phaseTold (s : State) : State := ((s.raise 0x3604 0 []).count 0x400060 1).openWindow .timePll s.flt.nextId 0x3604 0 none

theorem State.phaseTold_frame (s : State) : RaiseFrame s s.phaseTold :=
  ((State.raise_frame ..).trans (.count (by decide))).trans (.openWindow ..)

theorem State.phaseJump_started {s : State} (h : s.clk.started = true) :
    s.phaseJump = if s.clk.inHop then
        { s.phaseTold with clk := { s.phaseTold.clk with
          held := some s.phaseTold.clk.active, time := { s.phaseTold.clk.time with state := .holdover } } }
      else s.phaseTold.startRelock := by
  have hclk := s.phaseTold_frame.clk_eq
  unfold State.phaseJump
  rw [h]
  refine (if_neg (by decide)).trans ?_
  rw [← hclk]
  rfl

theorem State.phaseJump_refs (s : State) : RefsKept s s.phaseJump := by
  by_cases h : s.clk.started = true
  · rw [State.phaseJump_started h]
    have hold := RefsKept.of_clk s.phaseTold_frame.clk_eq
    split
    · exact hold.trans ⟨rfl, rfl, rfl, rfl, rfl, rfl⟩
    · exact hold.trans s.phaseTold.startRelock_spec.refs
  · unfold State.phaseJump
    rw [Bool.eq_false_iff.mpr h]
    exact .of_clk rfl

theorem phaseJumps (s : State) (hst : s.clk.time.state = .locked ∨ s.clk.time.state = .settling) (hs : s.clk.started = true) :
    ∃ t, exec .clkPhaseJump s = .next t
      ∧ (s.clk.inHop = false → s.clk.rho = 0 → t.clk.rhoAt = s.now ∧ 64527754 ≤ t.clk.rho.toNat ∧ t.clk.rho.toNat ≤ 69905066)
      ∧ (s.clk.inHop = false → t.clk.time.state = .relock ∧ t.clk.bypassTime = some s.now)
      ∧ (s.clk.inHop = true → t.clk.time.state = .holdover ∧ t.clk.held = some s.clk.active) := by
  have hexec : exec .clkPhaseJump s = .next s.phaseJump := by simp only [exec, execClkPhaseJump, if_pos hst]
  have hframe := s.phaseTold_frame
  have hr := s.phaseTold.startRelock_spec
  rw [hexec, State.phaseJump_started hs]
  by_cases hh : s.clk.inHop = true
  · rw [if_pos hh, hframe.clk_eq]
    exact ⟨_, rfl, fun h => absurd hh (by rw [h]; decide), fun h => absurd hh (by rw [h]; decide), fun _ => ⟨rfl, rfl⟩⟩
  · rw [if_neg hh]
    refine ⟨_, rfl, fun _ h0 => ?_, fun _ => ⟨hr.state, ?_⟩, fun h => absurd h hh⟩
    · rw [← hframe.now_eq]
      exact hr.rho (by rw [hframe.clk_eq]; exact h0)
    · rw [← hframe.now_eq]
      exact hr.bypass

/-! ### References -/

/-- Reference b is lost, its qualification begins anew. -/
def State.loseRef (s : State) (b : Bool) : State :=
  { s with clk := { (if b then { s.clk with lostB := true, qualB := false } else { s.clk with lostA := true, qualA := false } : Clk) with
    refSince := s.clk.refSince.set (bit b) s.now } }

theorem State.loseRef_spec (s : State) (b : Bool) :
    (if b then (s.loseRef b).clk.lostB else (s.loseRef b).clk.lostA) = true ∧ (s.loseRef b).qualified b = false
      ∧ (s.loseRef b).qualified (!b) = s.qualified (!b) ∧ (s.loseRef b).clk.refSince.get (bit b) = s.now
      ∧ (s.loseRef b).clk.active = s.clk.active ∧ (s.loseRef b).clk.started = s.clk.started := by
  have hget : (s.clk.refSince.set (bit b) s.now).get (bit b) = s.now := (Tab.get_set ..).trans (if_pos rfl)
  cases b
  · exact ⟨rfl, rfl, rfl, hget, rfl, rfl⟩
  · exact ⟨rfl, rfl, rfl, hget, rfl, rfl⟩

/-- A reference that was active is left for the other, or for holdover. -/
def State.leaveRef (s : State) (b : Bool) : State :=
  if s.clk.active ≠ some b then s
  else if s.qualified (!b) then s.switchTo (!b)
  else
    let c := { s.clk with active := none }
    let s := { s with clk := if c.started then { c with time := { c.time with state := .holdover } }
      else { c with time := { c.time with state := .search, stored := false, since := s.now } } }
    if s.clk.started then s.raise 0x3603 0 [] else s

theorem exec_clkRefLoss (b : Bool) {s : State} (ha : s.alive = true) :
    exec (.clkRefLoss b) s = .next (((s.loseRef b).raise 0x3601 (bit b) []).leaveRef b) := by
  simp only [exec, execClkRefLoss, ha, Bool.not_true, Bool.false_eq_true, if_false]
  cases b <;> rfl

/-- The active reference is set, whatever the phase jump that follows does. -/
theorem State.switchTo_spec (s : State) (b : Bool) : RefsKept { s with clk := { s.clk with active := some b } } (s.switchTo b) := by
  have hframe := (RaiseFrame.count (s := { s with clk := { s.clk with active := some b } }) (a := 0x40005C) (n := 1) (by decide)).trans
    (State.raise_frame _ 0x3602 (bit b) [])
  exact (RefsKept.of_clk hframe.clk_eq).trans (State.phaseJump_refs _)

theorem State.leaveRef_other {s : State} {b : Bool} (ha : s.clk.active = some b) (hq : s.qualified (!b) = true) :
    s.leaveRef b = s.switchTo (!b) := by
  unfold State.leaveRef
  rw [if_neg (fun h => h ha), if_pos hq]

/-- Without another reference the time PLL holds what it has, or searches anew before its first lock. -/
theorem State.leaveRef_none {s : State} {b : Bool} (ha : s.clk.active = some b) (hq : s.qualified (!b) = false) :
    (s.leaveRef b).clk.active = none ∧ (s.leaveRef b).clk.time.state = (if s.clk.started = true then .holdover else .search)
      ∧ (s.leaveRef b).clk.lostA = s.clk.lostA ∧ (s.leaveRef b).clk.lostB = s.clk.lostB
      ∧ (∀ a, (s.leaveRef b).qualified a = s.qualified a) ∧ (s.leaveRef b).clk.refSince = s.clk.refSince := by
  unfold State.leaveRef
  rw [if_neg (fun h => h ha), hq, if_neg Bool.false_ne_true]
  dsimp only
  by_cases hs : s.clk.started = true
  · rw [if_pos hs, if_pos hs]
    have hr := (State.raise_frame { s with clk := { s.clk with active := none, time := { s.clk.time with state := .holdover } } } 0x3603 0 []).clk_eq
    rw [if_pos hs]
    unfold State.qualified
    rw [hr]
    exact ⟨rfl, rfl, rfl, rfl, fun _ => rfl, rfl⟩
  · rw [if_neg hs, if_neg hs, if_neg hs]
    exact ⟨rfl, rfl, rfl, rfl, fun _ => rfl, rfl⟩

theorem activeRefLost (b : Bool) (s : State) (ha : s.alive = true) (hb : s.clk.active = some b) :
    ∃ t, exec (.clkRefLoss b) s = .next t ∧ (if b then t.clk.lostB else t.clk.lostA) = true ∧ t.qualified b = false
      ∧ t.clk.refSince.get (bit b) = s.now
      ∧ (s.qualified (!b) = true → t.clk.active = some (!b))
      ∧ (s.qualified (!b) = false → t.clk.active = none
          ∧ t.clk.time.state = (if s.clk.started = true then .holdover else .search)) := by
  obtain ⟨hlost, hq, hother, hsince, hact, hstarted⟩ := s.loseRef_spec b
  have hclk := (State.raise_frame (s.loseRef b) 0x3601 (bit b) []).clk_eq
  have hqual : ∀ a, ((s.loseRef b).raise 0x3601 (bit b) []).qualified a = (s.loseRef b).qualified a := fun a => by
    unfold State.qualified
    rw [hclk]
  rw [exec_clkRefLoss b ha]
  generalize (s.loseRef b).raise 0x3601 (bit b) [] = u at hclk hqual ⊢
  rw [← hclk] at hlost hsince hact hstarted
  rw [← hqual] at hq hother
  by_cases ho : s.qualified (!b) = true
  · rw [State.leaveRef_other (hact.trans hb) (hother.trans ho)]
    have hsw := u.switchTo_spec (!b)
    refine ⟨_, rfl, (hsw.lost b).trans hlost, (hsw.qualified b).trans hq, ?_, fun _ => hsw.active, fun h => absurd ho (by rw [h]; decide)⟩
    rw [hsw.refSince]
    exact hsince
  · have ho' : s.qualified (!b) = false := Bool.eq_false_iff.mpr ho
    obtain ⟨hnone, hstate, hA, hB, hqs, hrs⟩ := State.leaveRef_none (hact.trans hb) (hother.trans ho')
    refine ⟨_, rfl, ?_, (hqs b).trans hq, ?_, fun h => absurd h ho, fun _ => ⟨hnone, ?_⟩⟩
    · rw [hA, hB]
      exact hlost
    · rw [hrs]
      exact hsince
    · rw [hstate, hstarted]

theorem spareRefLost (b : Bool) (s : State) (ha : s.alive = true) (hb : s.clk.active ≠ some b) :
    ∃ t, exec (.clkRefLoss b) s = .next t ∧ (if b then t.clk.lostB else t.clk.lostA) = true ∧ t.clk.active = s.clk.active
      ∧ t.qualified (!b) = s.qualified (!b) ∧ RaiseFrame { s with clk := t.clk } t := by
  obtain ⟨hlost, -, hother, -, hact, -⟩ := s.loseRef_spec b
  have hframe := State.raise_frame (s.loseRef b) 0x3601 (bit b) []
  have hclk := hframe.clk_eq
  have hrest : s.loseRef b = { s with clk := (s.loseRef b).clk } := rfl
  rw [exec_clkRefLoss b ha]
  generalize (s.loseRef b).raise 0x3601 (bit b) [] = u at hframe hclk ⊢
  have hleave : u.leaveRef b = u := if_pos (by rw [hclk, hact]; exact hb)
  rw [hleave]
  refine ⟨u, rfl, ?_, ?_, ?_, ?_⟩
  · rw [hclk]
    exact hlost
  · rw [hclk]
    exact hact
  · rw [← hother]
    unfold State.qualified
    rw [hclk]
  · rw [hclk, ← hrest]
    exact hframe

/-- Reference b is qualified. -/
def State.qualifyRef (s : State) (b : Bool) : State :=
  { s with clk := if b then { s.clk with qualB := true, lostB := false } else { s.clk with qualA := true, lostA := false } }

theorem State.qualifyRef_spec (s : State) (b : Bool) :
    (s.qualifyRef b).qualified b = true ∧ (s.qualifyRef b).qualified (!b) = s.qualified (!b) ∧ (s.qualifyRef b).clk.active = s.clk.active := by
  cases b <;> exact ⟨rfl, rfl, rfl⟩

/-- The only qualified reference is chosen, the preferred one or not. -/
theorem State.chooseRef_only {s : State} {b : Bool} (ha : s.clk.active = none) (hq : s.qualified b = true) (ho : s.qualified (!b) = false) :
    s.chooseRef = if s.clk.time.state == .holdover then State.phaseJump { s with clk := { s.clk with active := some b } }
      else { s with clk := { s.clk with active := some b } } := by
  unfold State.chooseRef
  rw [ha]
  dsimp only
  by_cases hp : (s.fld 0x400000 0 1 == 1) = b
  · rw [hp, if_pos hq]
  · have hp' : (s.fld 0x400000 0 1 == 1) = !b := by
      revert hp
      cases (s.fld 0x400000 0 1 == 1) <;> cases b <;> simp
    rw [hp', if_neg (by rw [ho]; decide), Bool.not_not, if_pos hq]

theorem refChosen (b : Bool) (s : State) (ha : s.alive = true) (hq : s.qualified b = false) (hnone : s.clk.active = none)
    (ho : s.qualified (!b) = false)
    (hd : s.clk.refSince.get (bit b) = 0 ∨ s.clk.refSince.get (bit b) + 400000 * s.fld 0x400000 2 10 ≤ s.now) :
    ∃ t, exec (.refQualified b) s = .next t ∧ t.qualified b = true ∧ t.clk.active = some b := by
  have hdue : (if s.clk.refSince.get (bit b) = 0 then 0 else s.clk.refSince.get (bit b) + 400000 * s.fld 0x400000 2 10) ≤ s.now := by
    split
    · exact Nat.zero_le _
    · rename_i h
      exact hd.resolve_left h
  obtain ⟨hqb, hqo, hact⟩ := s.qualifyRef_spec b
  have hexec : exec (.refQualified b) s = .next (s.qualifyRef b).chooseRef := by
    simp only [exec, execRefQualified, ha, hq, Bool.not_true, Bool.or_false, Bool.false_eq_true, if_false, State.whenDue, if_pos hdue]
    cases b <;> rfl
  rw [hexec, State.chooseRef_only (hact.trans hnone) hqb (hqo.trans ho)]
  generalize s.qualifyRef b = u at hqb
  have hset : ({ u with clk := { u.clk with active := some b } } : State).qualified b = true := hqb
  split
  · have hkeep := State.phaseJump_refs { u with clk := { u.clk with active := some b } }
    exact ⟨_, rfl, (hkeep.qualified b).trans hset, hkeep.active⟩
  · exact ⟨_, rfl, hset, rfl⟩

/-! ### The core PLL -/

theorem State.toBypass_spec (s : State) (st : PllState) :
    s.toBypass st = { s with clk := (s.toBypass st).clk } ∧ (s.toBypass st).clk.core.state = st
      ∧ (s.toBypass st).clk.bypassCore = (if s.clk.bypassCore.isSome then s.clk.bypassCore else some s.now) := by
  unfold State.toBypass
  by_cases h : s.clk.bypassCore.isSome = true
  · rw [if_pos h, if_pos h]
    exact ⟨rfl, rfl, rfl⟩
  · rw [if_neg h, if_neg h]
    exact ⟨rfl, rfl, rfl⟩

theorem coreUnlocks (s : State) (hs : s.clk.core.state = .locked ∨ s.clk.core.state = .settling) :
    ∃ t, exec .clkCoreUnlock s = .next t ∧ t.clk.bypassCore = (if s.clk.bypassCore.isSome then s.clk.bypassCore else some s.now)
      ∧ (s.clk.inHop = false → t.clk.core.state = (if s.bandValid s.corePoint = true then .relock else .search)
          ∧ RaiseFrame { s with clk := t.clk } t)
      ∧ (s.clk.inHop = true → t.clk.core.state = (if s.clk.hopTo.isSome then .hop else .relock) ∧ t = { s with clk := t.clk }) := by
  have hgo : ¬(s.clk.core.state ≠ .locked ∧ s.clk.core.state ≠ .settling) := fun h => hs.elim h.1 h.2
  by_cases hh : s.clk.inHop = true
  · obtain ⟨hrest, hstate, hby⟩ := s.toBypass_spec (if s.clk.hopTo.isSome then .hop else .relock)
    have hexec : exec .clkCoreUnlock s = .next (s.toBypass (if s.clk.hopTo.isSome then .hop else .relock)) := by
      simp only [exec, execClkCoreUnlock, if_neg hgo, if_pos hh]
    exact ⟨_, hexec, hby, fun h => absurd hh (by rw [h]; decide), fun _ => ⟨hstate, hrest⟩⟩
  · obtain ⟨hrest, hstate, hby⟩ := s.toBypass_spec (if s.bandValid s.corePoint then .relock else .search)
    generalize hu : s.toBypass (if s.bandValid s.corePoint then .relock else .search) = u at hrest hstate hby
    have hexec : exec .clkCoreUnlock s
        = .next (({ u with clk := { u.clk with core := { u.clk.core with stored := false } } } : State).raise 0x3609 u.corePoint []) := by
      simp only [exec, execClkCoreUnlock, if_neg hgo, if_neg hh, hu]
    have hframe := State.raise_frame { u with clk := { u.clk with core := { u.clk.core with stored := false } } } 0x3609 u.corePoint []
    have hclk := hframe.clk_eq
    clear hu
    refine ⟨_, hexec, ?_, fun _ => ⟨?_, ?_⟩, fun h => absurd h hh⟩
    · rw [hclk]
      exact hby
    · rw [hclk]
      exact hstate
    · rw [hclk]
      generalize State.raise _ 0x3609 u.corePoint [] = t at hframe
      rw [hrest] at hframe
      exact hframe

/-- Settles O51: the fault of a lost reference leaves the clocks as they are, a phase jump the references; of the references that are qualified the
one that the rule names is chosen. -/
theorem referencesAreLostAndChosen : Obligations.ReferencesAreLostAndChosen := by
  unfold Obligations.ReferencesAreLostAndChosen
  exact ⟨activeRefLost, spareRefLost, refChosen, phaseJumps, coreUnlocks⟩

end Sys2Proof.Machine
end
section
/-! SUPPORT. A record whose first write fails while its sill sector is listed as retired. -/

namespace Sys2Proof.Machine

/-- IDLE with one record staged, the first sector of the sill among the retired ones of COUNT and SPMAP. -/
def deadSill : State :=
  { State.reset with
    sys := { State.reset.sys with dev := .idle }
    bel := { State.reset.bel with staging := [⟨1, 0, 0, 0, 0, 0, 0, 0, 0, 0, 0, []⟩], dead := [74] } }

/-- The number of records staged in the next state. -/
def nextStaged : Host.Outcome State Fault Refusal → Nat
  | .next t => t.bel.staging.length
  | _ => 0

/-- The failed verification finds the sector retired, so that the record is staged again. -/
theorem deadSill_recordWrite : nextStaged (exec (.recordWrite 1) deadSill) = 1 := by decide +kernel

/-- Refutes O52: a failed verification is said to leave a torn slot with the record behind it from every state; one whose list of retired sectors
names the sill's sector puts the record back into the staging queue (R523). -/
theorem not_belfryWritesNotesAndCounts : ¬ Obligations.BelfryWritesNotesAndCounts := by
  unfold Obligations.BelfryWritesNotesAndCounts
  rintro ⟨hRecord, -⟩
  obtain ⟨-, hFails, -⟩ := hRecord ⟨1, 0, 0, 0, 0, 0, 0, 0, 0, 0, 0, []⟩ [] deadSill rfl (by decide +kernel) rfl (.inl rfl) (by decide)
  obtain ⟨t, hexec, hstaging, -⟩ := hFails (by decide) (by decide +kernel)
  have hone : t.bel.staging.length = 1 := (congrArg nextStaged hexec).symm.trans deadSill_recordWrite
  rw [hstaging] at hone
  cases hone

end Sys2Proof.Machine
end
section
/-! SUPPORT. Kingpost's samples, evaluation cycles and exchanges (R411, R414 to R419, R424). -/

namespace Sys2Proof.Machine

/-! ### KP_INPUT_SAMPLE -/

theorem KpLoop.read_enabled (x : KpLoop) (lvl : Bool) (now : Nat) : (x.read lvl now).enabled = x.enabled := by
  unfold KpLoop.read
  split
  · rfl
  · split
    · rfl
    · split <;> rfl

/-- A pin that reads low after a low command is proven. -/
theorem KpLoop.read_low {x : KpLoop} (h : x.enabled = false) (now : Nat) : (x.read false now).stuck = 0 ∧ (x.read false now).offAt = some now := by
  unfold KpLoop.read
  rw [h]
  exact ⟨rfl, rfl⟩

/-- A dark pulse whose pin has read low ends at its width. -/
theorem KpOut.read_over {x : KpOut} {t wid now : Nat} (lvl sfb en : Bool) (hd : x.dark = some t) (hl : x.darkLow = true)
    (ho : 10 * t + wid ≤ 10 * now) :
    (x.read lvl sfb en now wid).dark = none ∧ (x.read lvl sfb en now wid).high = en ∧ (x.read lvl sfb en now wid).darkEnd = 10 * t + wid := by
  have hov : darkOver t wid now = true := decide_eq_true ho
  unfold KpOut.read
  simp only [hd, hov, hl, Bool.not_true, Bool.false_eq_true, if_false, if_true, and_self]

theorem KpOut.read_dark {x : KpOut} {t wid now : Nat} (lvl sfb en : Bool) (hd : x.dark = some t) (ho : 10 * now < 10 * t + wid) :
    (x.read lvl sfb en now wid).dark = some t ∧ (x.read lvl sfb en now wid).high = x.high := by
  have hov : darkOver t wid now = false := decide_eq_false (Nat.not_le.mpr ho)
  unfold KpOut.read
  simp only [hd, hov, Bool.not_false, if_true]
  split
  · exact ⟨rfl, rfl⟩
  · split
    · exact ⟨rfl, rfl⟩
    · exact ⟨rfl, rfl⟩

/-- A channel with one sample more. -/
def KpChan.sample (k : KpChan) (sin : BitVec 16) (sfb blk sout : Byte) : KpChan :=
  { k with
    time := k.time + 1
    pairs := forTab 16 k.pairs fun i x => { x with own := x.own.step (sin.getLsbD i) (k.filt i) }
    loops := forTab 8 k.loops fun i x => x.read (blk.getLsbD i) (k.time + 1)
    outs := forTab 8 k.outs fun i x => x.read (sout.getLsbD i) (sfb.getLsbD i) (k.outEn i) (k.time + 1) (k.tpWid i) }

/-- A loop that reads stuck is noted as a cause: nothing else of the channel changes. -/
structure StuckNoted (k k' : KpChan) : Prop where
  time : k'.time = k.time
  pairs : k'.pairs = k.pairs
  outs : k'.outs = k.outs
  loops : ∀ n, { k'.loops.get n with causes := (k.loops.get n).causes } = k.loops.get n

/-- Stuck loops of a channel take their cause, with its event. -/
def State.noteStuck (s : State) (ch : KpCh) : State :=
  forNat 8 (fun n s =>
    if 2 ≤ ((s.ch ch).loops.get n).stuck ∧ !((s.ch ch).loops.get n).causes.stuck then
      (s.updCh ch fun k => { k with loops := k.loops.upd n fun x => { x with causes := { x.causes with stuck := true } } }).post ch 0x4303 n
    else s) s

theorem State.noteStuck_spec (s : State) (ch : KpCh) :
    StuckNoted (s.ch ch) ((s.noteStuck ch).ch ch) ∧ (s.noteStuck ch).ch (kpOther ch) = s.ch (kpOther ch) := by
  refine forNat_induct (P := fun u => StuckNoted (s.ch ch) (u.ch ch) ∧ u.ch (kpOther ch) = s.ch (kpOther ch)) (fun n u ⟨hown, hother⟩ => ?_) 8
    ⟨⟨rfl, rfl, rfl, fun _ => rfl⟩, rfl⟩
  split
  · rw [State.post_ch, State.post_ch, State.updCh_ch, State.updCh_ch_other]
    refine ⟨⟨hown.time, hown.pairs, hown.outs, fun m => ?_⟩, hother⟩
    dsimp only
    rw [Tab.get_upd]
    split
    · rename_i h
      rw [← h]
      exact hown.loops m
    · exact hown.loops m
  · exact ⟨hown, hother⟩

theorem State.holdParams_ch (s : State) (c : KpCh) : s.holdParams.ch c = s.ch c := by
  unfold State.holdParams
  split
  · cases c <;> rfl
  · rfl

theorem exec_kpInputSample (ch : KpCh) (sin : BitVec 16) (sfb blk sout : Byte) {s : State} (hv : s.kp.vkp = true) :
    exec (.kpInputSample ch sin sfb blk sout) s = .next (((s.setCh ch ((s.ch ch).sample sin sfb blk sout)).holdParams).noteStuck ch) := by
  simp only [exec, execKpInputSample, hv, Bool.not_true, Bool.false_eq_true, if_false]
  rfl

theorem inputsSampled (ch : KpCh) (sin : BitVec 16) (sfb blk sout : Byte) (s : State) (hv : s.kp.vkp = true) :
    ∃ t, exec (.kpInputSample ch sin sfb blk sout) s = .next t ∧ (t.ch ch).time = (s.ch ch).time + 1
      ∧ (∀ i < 16, ((t.ch ch).pairs.get i).own = ((s.ch ch).pairs.get i).own.step (sin.getLsbD i) ((s.ch ch).filt i))
      ∧ (∀ n < 8, ((t.ch ch).loops.get n).enabled = ((s.ch ch).loops.get n).enabled
          ∧ (blk.getLsbD n = false → ((s.ch ch).loops.get n).enabled = false → ((t.ch ch).loops.get n).stuck = 0
              ∧ ((t.ch ch).loops.get n).offAt = some ((s.ch ch).time + 1)))
      ∧ (∀ o < 8, ∀ x, ((s.ch ch).outs.get o).dark = some x → ((s.ch ch).outs.get o).darkLow = true →
          (10 * x + (s.ch ch).tpWid o ≤ 10 * (s.ch ch).time + 10 → ((t.ch ch).outs.get o).dark = none
            ∧ ((t.ch ch).outs.get o).high = (s.ch ch).outEn o ∧ ((t.ch ch).outs.get o).darkEnd = 10 * x + (s.ch ch).tpWid o)
          ∧ (10 * (s.ch ch).time + 10 < 10 * x + (s.ch ch).tpWid o → ((t.ch ch).outs.get o).dark = some x
            ∧ ((t.ch ch).outs.get o).high = ((s.ch ch).outs.get o).high))
      ∧ t.ch (kpOther ch) = s.ch (kpOther ch) := by
  refine ⟨_, exec_kpInputSample ch sin sfb blk sout hv, ?_⟩
  obtain ⟨hown, hother⟩ := ((s.setCh ch ((s.ch ch).sample sin sfb blk sout)).holdParams).noteStuck_spec ch
  have hset : s.setCh ch ((s.ch ch).sample sin sfb blk sout) = s.updCh ch fun k => k.sample sin sfb blk sout := rfl
  rw [State.holdParams_ch, hset, State.updCh_ch] at hown
  rw [State.holdParams_ch, hset, State.updCh_ch_other] at hother
  rw [hset]
  generalize ((s.updCh ch fun k => k.sample sin sfb blk sout).holdParams).noteStuck ch = t at hown hother ⊢
  refine ⟨hown.time, fun i hi => ?_, fun n hn => ?_, fun o ho x hd hl => ?_, hother⟩
  · rw [hown.pairs]
    dsimp only [KpChan.sample]
    rw [get_forTab, if_pos hi]
  · have hloop := hown.loops n
    have hread : ((s.ch ch).sample sin sfb blk sout).loops.get n = ((s.ch ch).loops.get n).read (blk.getLsbD n) ((s.ch ch).time + 1) :=
      (get_forTab ..).trans (if_pos hn)
    rw [hread] at hloop
    refine ⟨(congrArg KpLoop.enabled hloop :).trans (KpLoop.read_enabled ..), fun hb he => ?_⟩
    rw [hb] at hloop
    obtain ⟨hstuck, hoff⟩ := KpLoop.read_low he ((s.ch ch).time + 1)
    exact ⟨(congrArg KpLoop.stuck hloop :).trans hstuck, (congrArg KpLoop.offAt hloop :).trans hoff⟩
  · have hread : (t.ch ch).outs.get o = ((s.ch ch).outs.get o).read (sout.getLsbD o) (sfb.getLsbD o) ((s.ch ch).outEn o) ((s.ch ch).time + 1)
        ((s.ch ch).tpWid o) := by
      rw [hown.outs]
      exact (get_forTab ..).trans (if_pos ho)
    rw [hread]
    exact ⟨fun h => KpOut.read_over _ _ _ hd hl (by omega), fun h => KpOut.read_dark _ _ _ hd (by omega)⟩

/-! ### Loops and outputs follow their causes -/

/-- The loops below m have followed their causes: a loop that enters SBK is low, one that leaves it enabled. -/
structure LoopsFollow (m : Nat) (k k' : KpChan) : Prop where
  rest : k' = { k with loops := k'.loops, srd := k'.srd }
  above : ∀ n, m ≤ n → k'.loops.get n = k.loops.get n
  enter : ∀ n < m, (k.loops.get n).sbk = false → (k'.loops.get n).sbk = true → (k'.loops.get n).enabled = false
  leave : ∀ n < m, (k.loops.get n).sbk = true → (k'.loops.get n).sbk = false → (k'.loops.get n).enabled = true

theorem LoopsFollow.upd {m : Nat} {k k' : KpChan} {g : KpLoop → KpLoop} {r : Srd} (h : LoopsFollow m k k')
    (he : (k'.loops.get m).sbk = false → (g (k'.loops.get m)).sbk = true → (g (k'.loops.get m)).enabled = false)
    (hl : (k'.loops.get m).sbk = true → (g (k'.loops.get m)).sbk = false → (g (k'.loops.get m)).enabled = true) :
    LoopsFollow (m + 1) k { k' with loops := k'.loops.upd m g, srd := r } := by
  have hm := h.above m (Nat.le_refl m)
  refine ⟨?_, fun n hn => ?_, fun n hn => ?_, fun n hn => ?_⟩
  · rw [h.rest]
  · exact (Tab.get_upd_ne _ (by omega) _).trans (h.above n (by omega))
  · dsimp only
    rw [Tab.get_upd]
    split
    · rename_i e
      rw [e, ← hm]
      exact he
    · exact h.enter n (by omega)
  · dsimp only
    rw [Tab.get_upd]
    split
    · rename_i e
      rw [e, ← hm]
      exact hl
    · exact h.leave n (by omega)

theorem LoopsFollow.stay {m : Nat} {k k' : KpChan} (h : LoopsFollow m k k') : LoopsFollow (m + 1) k k' := by
  have hm := h.above m (Nat.le_refl m)
  refine ⟨h.rest, fun n hn => h.above n (by omega), fun n hn h0 h1 => ?_, fun n hn h0 h1 => ?_⟩
  · rcases Nat.lt_succ_iff_lt_or_eq.mp hn with hlt | rfl
    · exact h.enter n hlt h0 h1
    · rw [hm, h0] at h1
      cases h1
  · rcases Nat.lt_succ_iff_lt_or_eq.mp hn with hlt | rfl
    · exact h.leave n hlt h0 h1
    · rw [hm, h0] at h1
      cases h1

/-- One loop of a channel follows its causes. -/
def State.applyLoop (ch : KpCh) (n : Nat) (s : State) : State :=
  if ((s.ch ch).loops.get n).causes.any && !((s.ch ch).loops.get n).sbk then s.enterSbk ch n
  else if !((s.ch ch).loops.get n).causes.any && ((s.ch ch).loops.get n).sbk then
    (s.updCh ch fun k => { k with loops := k.loops.upd n fun x => { x with sbk := false, enabled := true } }).post ch 0x4302 n
  else s

theorem State.enterSbk_ch_other (s : State) (c : KpCh) (n : Nat) : (s.enterSbk c n).ch (kpOther c) = s.ch (kpOther c) := by
  simp only [State.enterSbk, State.post_ch, State.abortLanes_ch, State.updCh_ch_other]

theorem State.applyLoops_follow (s : State) (c : KpCh) :
    LoopsFollow 8 (s.ch c) ((s.applyLoops c).ch c) ∧ (s.applyLoops c).ch (kpOther c) = s.ch (kpOther c) := by
  refine forNat_induct_index (P := fun m u => LoopsFollow m (s.ch c) (u.ch c) ∧ u.ch (kpOther c) = s.ch (kpOther c))
    (f := fun n u => u.applyLoop c n) (fun m u ⟨hown, hother⟩ => ?_) 8
    ⟨⟨rfl, fun _ _ => rfl, fun _ h => absurd h (Nat.not_lt_zero _), fun _ h => absurd h (Nat.not_lt_zero _)⟩, rfl⟩
  unfold State.applyLoop
  split
  · rw [State.enterSbk_ch, State.enterSbk_ch_other]
    exact ⟨hown.upd (fun _ _ => rfl) (fun _ h => by cases h), hother⟩
  · split
    · rw [State.post_ch, State.updCh_ch, State.post_ch, State.updCh_ch_other]
      exact ⟨hown.upd (r := (u.ch c).srd) (fun _ h => by cases h) (fun _ _ => rfl), hother⟩
    · exact ⟨hown.stay, hother⟩

/-- The outputs below m have followed their causes: one that trips is low. -/
structure OutsFollow (m : Nat) (k k' : KpChan) : Prop where
  rest : k' = { k with outs := k'.outs }
  above : ∀ n, m ≤ n → k'.outs.get n = k.outs.get n
  low : ∀ n < m, (k.outs.get n).tripAt = none → (k'.outs.get n).causes.any = true → (k'.outs.get n).high = false

theorem OutsFollow.upd {m : Nat} {k k' : KpChan} {g : KpOut → KpOut} (h : OutsFollow m k k')
    (hg : (k'.outs.get m).tripAt = none → (g (k'.outs.get m)).causes.any = true → (g (k'.outs.get m)).high = false) :
    OutsFollow (m + 1) k { k' with outs := k'.outs.upd m g } := by
  have hm := h.above m (Nat.le_refl m)
  refine ⟨?_, fun n hn => ?_, fun n hn => ?_⟩
  · rw [h.rest]
  · exact (Tab.get_upd_ne _ (by omega) _).trans (h.above n (by omega))
  · dsimp only
    rw [Tab.get_upd]
    split
    · rename_i e
      rw [e, ← hm]
      exact hg
    · exact h.low n (by omega)

/-- One output of a channel follows its causes. -/
def State.applyOut (ch : KpCh) (n : Nat) (s : State) : State :=
  if ((s.ch ch).outs.get n).causes.any then
    if ((s.ch ch).outs.get n).tripAt.isSome then s
    else
      (s.updCh ch fun k => { k with outs := k.outs.upd n fun x => { x with
        tripAt := some k.time, high := false, dark := none, darkLow := false, fbOpen := false,
        cmdAt := if x.high then k.time else x.cmdAt } }).post ch 0x4401 n
  else if ((s.ch ch).outs.get n).tripAt.isSome
      ∨ (((s.ch ch).outs.get n).high ≠ (s.ch ch).outEn n ∧ ((s.ch ch).outs.get n).dark.isNone) then
    s.updCh ch fun k => { k with outs := k.outs.upd n fun x => { x with
      tripAt := none, high := k.outEn n, cmdAt := k.time, darkNext := k.darkAfter n x } }
  else s

theorem State.applyOuts_follow (s : State) (c : KpCh) : OutsFollow 8 (s.ch c) ((s.applyOuts c).ch c) := by
  refine forNat_induct_index (P := fun m u => OutsFollow m (s.ch c) (u.ch c)) (f := fun n u => u.applyOut c n) (fun m u hown => ?_) 8
    ⟨rfl, fun _ _ => rfl, fun _ h => absurd h (Nat.not_lt_zero _)⟩
  have hstay : (((u.ch c).outs.get m).tripAt = none → ((u.ch c).outs.get m).causes.any = true → ((u.ch c).outs.get m).high = false) →
      OutsFollow (m + 1) (s.ch c) (u.ch c) := fun h => by
    refine ⟨hown.rest, fun n hn => hown.above n (by omega), fun n hn h0 h1 => ?_⟩
    rcases Nat.lt_succ_iff_lt_or_eq.mp hn with hlt | rfl
    · exact hown.low n hlt h0 h1
    · exact h ((congrArg KpOut.tripAt (hown.above n (Nat.le_refl n)) :).trans h0) h1
  unfold State.applyOut
  split
  · split
    · rename_i ht
      exact hstay fun h0 => by
        rw [h0] at ht
        cases ht
    · rw [State.post_ch, State.updCh_ch]
      exact hown.upd fun _ _ => rfl
  · rename_i hc
    split
    · rw [State.updCh_ch]
      exact hown.upd fun _ h1 => absurd h1 hc
    · exact hstay fun _ h1 => absurd h1 hc

end Sys2Proof.Machine
end
section
/-! SUPPORT. Kingpost's evaluation cycle and its exchanges (R411, R415 to R419, R424). -/

namespace Sys2Proof.Machine

/-! ### KP_EVALUATION_CYCLE -/

/-! A reset on a pair, in its four parts (R415, R419, R424). -/

def KpChan.resetLoops (k : KpChan) (r : Nat) : KpChan :=
  { k with loops := forTab 8 k.loops fun n x => if bitOf (k.octMask r) n ∧ !(x.causes.and (k.sbkPresent n)).any then
      { x with causes := SbkCauses.init }
    else x }

def KpChan.resetSrd (k : KpChan) : KpChan :=
  if k.srd.ended ∧ !((List.range 8).any fun n => k.srd.octs.getLsbD n && (k.loops.get n).causes.any) then { k with srd := Srd.init } else k

def KpChan.resetOuts (k : KpChan) (r : Nat) : KpChan :=
  { k with outs := forTab 8 k.outs fun n x => if bitOf (k.outMask r) n ∧ !(x.causes.and (k.tripPresent n)).any then
      { x with causes := TripCauses.init, fbTo := false, testFail := false }
    else x }

def KpChan.resetPairs (k : KpChan) : KpChan :=
  { k with pairs := forTab 16 k.pairs fun i x => if x.faulty ∧ x.lowSeen ∧ k.func i ≠ 4 then
      { x with faulty := false, lowSeen := false }
    else x }

theorem KpChan.doReset_eq (k : KpChan) (r : Nat) : k.doReset r = (((k.resetLoops r).resetSrd).resetOuts r).resetPairs := rfl

/-- What comes before the pins are driven leaves the SBK state of the loops and the trips of the outputs. -/
structure Judged (k k' : KpChan) : Prop where
  mainReq : k'.mainReq = k.mainReq
  sbk : ∀ n, (k'.loops.get n).sbk = (k.loops.get n).sbk
  tripAt : ∀ n, (k'.outs.get n).tripAt = (k.outs.get n).tripAt

namespace Judged
variable {k k' k'' : KpChan}

theorem refl (k : KpChan) : Judged k k := ⟨rfl, fun _ => rfl, fun _ => rfl⟩
theorem trans (h : Judged k k') (h' : Judged k' k'') : Judged k k'' :=
  ⟨h'.mainReq.trans h.mainReq, fun n => (h'.sbk n).trans (h.sbk n), fun n => (h'.tripAt n).trans (h.tripAt n)⟩

theorem endPulses (k : KpChan) : Judged k k.endPulses := by
  refine ⟨rfl, fun _ => rfl, fun n => ?_⟩
  unfold KpChan.endPulses
  dsimp only
  rw [get_forTab]
  split
  · split <;> rfl
  · rfl

theorem evalPairs (k : KpChan) : Judged k k.evalPairs.1 := by
  unfold KpChan.evalPairs
  split
  · exact refl k
  · exact ⟨rfl, fun _ => rfl, fun _ => rfl⟩

theorem latchAll (k : KpChan) : Judged k k.latchAll := by
  refine ⟨rfl, fun n => ?_, fun n => ?_⟩
  · rw [KpChan.latchAll_loop]
    split <;> rfl
  · unfold KpChan.latchAll
    dsimp only
    rw [get_forTab]
    split <;> rfl

theorem resetLoops (k : KpChan) (r : Nat) : Judged k (k.resetLoops r) := by
  refine ⟨rfl, fun n => ?_, fun _ => rfl⟩
  unfold KpChan.resetLoops
  dsimp only
  rw [get_forTab]
  split
  · split <;> rfl
  · rfl

theorem resetOuts (k : KpChan) (r : Nat) : Judged k (k.resetOuts r) := by
  refine ⟨rfl, fun _ => rfl, fun n => ?_⟩
  unfold KpChan.resetOuts
  dsimp only
  rw [get_forTab]
  split
  · split <;> rfl
  · rfl

theorem resetSrd (k : KpChan) : Judged k k.resetSrd := by
  unfold KpChan.resetSrd
  split
  · exact ⟨rfl, fun _ => rfl, fun _ => rfl⟩
  · exact refl k

theorem resetPairs (k : KpChan) : Judged k k.resetPairs := by
  unfold KpChan.resetPairs
  exact ⟨rfl, fun _ => rfl, fun _ => rfl⟩

theorem doReset (k : KpChan) (r : Nat) : Judged k (k.doReset r) := by
  rw [k.doReset_eq]
  exact (((resetLoops k r).trans (resetSrd _)).trans (resetOuts _ r)).trans (resetPairs _)

theorem resets (l : List Nat) (k : KpChan) : Judged k (l.foldl KpChan.doReset k) := by
  induction l generalizing k with
  | nil => exact refl k
  | cons r l ih => exact (doReset k r).trans (ih _)

end Judged

/-- The channel with the main device's request, its pairs evaluated, and the pairs that give a reset. -/
def KpChan.evaluated (k : KpChan) (req : Bool) : KpChan × List Nat :=
  (if req && !k.mainReq then ({ k with mainReq := req } : KpChan).endPulses else { k with mainReq := req }).evalPairs

theorem KpChan.evaluated_judged (k : KpChan) (req : Bool) : Judged { k with mainReq := req } (k.evaluated req).1 := by
  unfold KpChan.evaluated
  split
  · exact (Judged.endPulses _).trans (.evalPairs _)
  · exact .evalPairs _

/-- A pair of no RESET function gives none. -/
theorem KpPair.eval_given {f : Nat} (h : f ≠ 4) (x : KpPair) (now : Nat) : (x.eval f now).2 = false := by
  unfold KpPair.eval
  dsimp only
  rw [if_neg h]

/-- A pair that is not high in both halves is in demand where its function makes it a demand. -/
theorem KpPair.eval_demand {x : KpPair} (h : (x.own.level && x.other) = false) (now : Nat) : (x.eval 1 now).1.demand = true := by
  unfold KpPair.eval
  dsimp only
  rw [if_neg (by decide), h]
  rfl

theorem KpChan.evalPairs_none {k : KpChan} (h : ∀ j < 16, k.func j ≠ 4) : k.evalPairs.2 = [] := by
  unfold KpChan.evalPairs
  split
  · rfl
  · exact List.filter_eq_nil_iff.mpr fun i hi => by
      rw [KpPair.eval_given (h i (List.mem_range.mp hi))]
      decide

theorem KpChan.evalPairs_demand {k : KpChan} {i : Nat} (hi : i < 16) (hp : k.params.isSome = true) (hf : k.func i = 1)
    (hlow : ((k.pairs.get i).own.level && (k.pairs.get i).other) = false) : (k.evalPairs.1.pairs.get i).demand = true := by
  unfold KpChan.evalPairs
  rw [if_neg (by rw [← Option.not_isSome, hp]; decide)]
  dsimp only
  rw [get_forTab, if_pos hi, hf]
  exact KpPair.eval_demand hlow _

/-- The parameters and the pairs before the evaluation are those of the channel. -/
theorem KpChan.evaluated_eq (k : KpChan) (req : Bool) :
    ∃ u : KpChan, k.evaluated req = u.evalPairs ∧ u.params = k.params ∧ u.pairs = k.pairs := by
  unfold KpChan.evaluated
  split
  · exact ⟨_, rfl, rfl, rfl⟩
  · exact ⟨_, rfl, rfl, rfl⟩

theorem KpChan.evalPairs_params (k : KpChan) : k.evalPairs.1.params = k.params := by
  unfold KpChan.evalPairs
  split <;> rfl

/-- A channel that is given a record of its run-down. -/
def KpChan.withSrd (k : KpChan) (r : Srd) : KpChan := { k with srd := r }

/-- The pairs newly in demand are posted, and a run-down starts where one is asked for. -/
def State.postDemands (s : State) (ch : KpCh) (k0 k : KpChan) : State :=
  let fresh := (List.range 16).filter fun i => (k.pairs.get i).demand && !(k0.pairs.get i).demand
  let s := fresh.foldl (fun s i => s.post ch 0x4101 i) (s.setCh ch k)
  match k.srdStart k0.pairs with
  | some (i, m) => (s.updCh ch fun k => { k with srd := { Srd.init with running := true, octs := BitVec.ofNat 8 m } }).post ch 0x4201 i
  | none => s

theorem State.postDemands_ch (s : State) (ch : KpCh) (k0 k : KpChan) :
    (∃ r, (s.postDemands ch k0 k).ch ch = k.withSrd r) ∧ (s.postDemands ch k0 k).ch (kpOther ch) = s.ch (kpOther ch) := by
  have hpost : ∀ (l : List Nat) (u : State) (d : KpCh), (l.foldl (fun s i => s.post ch 0x4101 i) u).ch d = u.ch d := fun l => by
    induction l with
    | nil => intro u d; rfl
    | cons i l ih =>
      intro u d
      rw [List.foldl_cons, ih, State.post_ch]
  have hset : s.setCh ch k = s.updCh ch fun _ => k := rfl
  unfold State.postDemands
  extract_lets fresh u
  have hu : ∀ d, u.ch d = (s.updCh ch fun _ => k).ch d := fun d => hpost fresh _ d
  split
  · rw [State.post_ch, State.post_ch, State.updCh_ch, State.updCh_ch_other, hu, hu, State.updCh_ch, State.updCh_ch_other]
    exact ⟨⟨_, rfl⟩, rfl⟩
  · rw [hu, hu, State.updCh_ch, State.updCh_ch_other]
    exact ⟨⟨k.srd, rfl⟩, rfl⟩

/-- The causes present are latched, then the resets release what they may. -/
def State.settleCauses (s : State) (ch : KpCh) (resets : List Nat) : State :=
  resets.foldl (fun s r => s.updCh ch fun k => k.doReset r) (s.updCh ch KpChan.latchAll)

theorem State.settleCauses_ch (s : State) (ch : KpCh) (resets : List Nat) :
    (s.settleCauses ch resets).ch ch = resets.foldl KpChan.doReset (s.ch ch).latchAll
      ∧ (s.settleCauses ch resets).ch (kpOther ch) = s.ch (kpOther ch) := by
  have hfold : ∀ (l : List Nat) (u : State), (l.foldl (fun s r => s.updCh ch fun k => k.doReset r) u).ch ch = l.foldl KpChan.doReset (u.ch ch)
      ∧ (l.foldl (fun s r => s.updCh ch fun k => k.doReset r) u).ch (kpOther ch) = u.ch (kpOther ch) := fun l => by
    induction l with
    | nil => exact fun u => ⟨rfl, rfl⟩
    | cons r l ih =>
      intro u
      obtain ⟨hown, hother⟩ := ih (u.updCh ch fun k => k.doReset r)
      rw [State.updCh_ch] at hown
      rw [State.updCh_ch_other] at hother
      exact ⟨hown, hother⟩
  obtain ⟨hown, hother⟩ := hfold resets (s.updCh ch KpChan.latchAll)
  rw [State.updCh_ch] at hown
  rw [State.updCh_ch_other] at hother
  exact ⟨hown, hother⟩

theorem exec_kpEvaluationCycle (ch : KpCh) {s : State} (hv : s.kp.vkp = true) :
    exec (.kpEvaluationCycle ch) s = .next ((((s.postDemands ch (s.ch ch) ((s.ch ch).evaluated s.sys.sbkReq).1).settleCauses ch
      ((s.ch ch).evaluated s.sys.sbkReq).2).applyLoops ch).applyOuts ch) := by
  simp only [exec, execKpEvaluationCycle, hv, Bool.not_true, Bool.false_eq_true, if_false]
  rfl

/-- A channel as its pins are driven: how it stands before, and what loops and outputs follow. -/
theorem State.driven_spec (s : State) (ch : KpCh) :
    (∀ n < 8, ((((s.applyLoops ch).applyOuts ch).ch ch).loops.get n).sbk = ((((s.applyLoops ch).applyOuts ch).ch ch).loops.get n).causes.any
        ∧ (((s.ch ch).loops.get n).sbk = false → ((((s.applyLoops ch).applyOuts ch).ch ch).loops.get n).sbk = true →
            ((((s.applyLoops ch).applyOuts ch).ch ch).loops.get n).enabled = false)
        ∧ (((s.ch ch).loops.get n).sbk = true → ((((s.applyLoops ch).applyOuts ch).ch ch).loops.get n).sbk = false →
            ((((s.applyLoops ch).applyOuts ch).ch ch).loops.get n).enabled = true))
    ∧ (∀ n < 8, ((((s.applyLoops ch).applyOuts ch).ch ch).outs.get n).tripAt.isSome = ((((s.applyLoops ch).applyOuts ch).ch ch).outs.get n).causes.any
        ∧ (((s.ch ch).outs.get n).tripAt = none → ((((s.applyLoops ch).applyOuts ch).ch ch).outs.get n).causes.any = true →
            ((((s.applyLoops ch).applyOuts ch).ch ch).outs.get n).high = false))
    ∧ (∀ n, ((((s.applyLoops ch).applyOuts ch).ch ch).loops.get n).causes = ((s.ch ch).loops.get n).causes)
    ∧ (((s.applyLoops ch).applyOuts ch).ch ch).mainReq = (s.ch ch).mainReq
    ∧ ((s.applyLoops ch).applyOuts ch).ch (kpOther ch) = s.ch (kpOther ch) := by
  obtain ⟨hfollow, hother⟩ := s.applyLoops_follow ch
  have hdriven := s.applyLoops_driven ch
  generalize s.applyLoops ch = u at hfollow hother hdriven ⊢
  have hof := u.applyOuts_follow ch
  have hod := u.applyOuts_driven ch
  have hoo := u.applyOuts_ch_other ch
  generalize u.applyOuts ch = v at hof hod hoo ⊢
  have houts : (u.ch ch).outs = (s.ch ch).outs := by rw [hfollow.rest]
  refine ⟨fun n hn => ?_, fun n hn => ⟨hod.trip n hn, fun h0 h1 => hof.low n hn (by rw [houts]; exact h0) h1⟩, fun n => ?_, ?_, hoo.trans hother⟩
  · rw [hod.loops]
    exact ⟨hdriven.sbk n hn, hfollow.enter n hn, hfollow.leave n hn⟩
  · rw [hod.loops]
    exact hdriven.causes n
  · rw [hof.rest]
    show (u.ch ch).mainReq = _
    rw [hfollow.rest]

/-- Causes that latch with no reset given stay to the pins. -/
theorem KpChan.latched {k : KpChan} {n : Nat} (hn : n < 8) :
    (k.latchAll.loops.get n).causes = (k.loops.get n).causes.latch (k.sbkPresent n) := by
  rw [KpChan.latchAll_loop, if_pos hn]

theorem inputsEvaluated (ch : KpCh) (s : State) (hv : s.kp.vkp = true) :
    ∃ t, exec (.kpEvaluationCycle ch) s = .next t ∧ t.ch (kpOther ch) = s.ch (kpOther ch)
      ∧ (t.ch ch).mainReq = s.sys.sbkReq
      ∧ (∀ n < 8, ((t.ch ch).loops.get n).sbk = ((t.ch ch).loops.get n).causes.any
          ∧ (((s.ch ch).loops.get n).sbk = false → ((t.ch ch).loops.get n).sbk = true → ((t.ch ch).loops.get n).enabled = false)
          ∧ (((s.ch ch).loops.get n).sbk = true → ((t.ch ch).loops.get n).sbk = false → ((t.ch ch).loops.get n).enabled = true))
      ∧ (∀ n < 8, ((t.ch ch).outs.get n).tripAt.isSome = ((t.ch ch).outs.get n).causes.any
          ∧ (((s.ch ch).outs.get n).tripAt = none → ((t.ch ch).outs.get n).causes.any = true → ((t.ch ch).outs.get n).high = false))
      ∧ (∀ i < 16, ∀ n < 8, (s.ch ch).params.isSome = true → (s.ch ch).func i = 1 → bitOf ((s.ch ch).octMask i) n = true →
          (((s.ch ch).pairs.get i).own.level && ((s.ch ch).pairs.get i).other) = false → (∀ j < 16, (s.ch ch).func j ≠ 4) →
          ((t.ch ch).loops.get n).causes.pair = true)
      ∧ (∀ n < 8, s.sys.sbkReq = true → (∀ j < 16, (s.ch ch).func j ≠ 4) → ((t.ch ch).loops.get n).causes.mainReq = true) := by
  refine ⟨_, exec_kpEvaluationCycle ch hv, ?_⟩
  have hjudged := (s.ch ch).evaluated_judged s.sys.sbkReq
  obtain ⟨u, hu, hparams, hpairs⟩ := (s.ch ch).evaluated_eq s.sys.sbkReq
  have hpar : ((s.ch ch).evaluated s.sys.sbkReq).1.params = (s.ch ch).params := by rw [hu, KpChan.evalPairs_params, hparams]
  have hfunc : ∀ j, u.func j = (s.ch ch).func j := fun j => by
    unfold KpChan.func KpChan.par
    rw [hparams]
  have hnone : (∀ j < 16, (s.ch ch).func j ≠ 4) → ((s.ch ch).evaluated s.sys.sbkReq).2 = [] := fun h => by
    rw [hu]
    exact KpChan.evalPairs_none fun j hj => by rw [hfunc]; exact h j hj
  have hdemand : ∀ i < 16, (s.ch ch).params.isSome = true → (s.ch ch).func i = 1 →
      (((s.ch ch).pairs.get i).own.level && ((s.ch ch).pairs.get i).other) = false →
      (((s.ch ch).evaluated s.sys.sbkReq).1.pairs.get i).demand = true := fun i hi hp hf hl => by
    rw [hu]
    exact KpChan.evalPairs_demand hi (by rw [hparams]; exact hp) ((hfunc i).trans hf) (by rw [hpairs]; exact hl)
  generalize (s.ch ch).evaluated s.sys.sbkReq = e at hjudged hpar hnone hdemand ⊢
  clear hu
  obtain ⟨⟨r, hown⟩, hother⟩ := s.postDemands_ch ch (s.ch ch) e.1
  generalize s.postDemands ch (s.ch ch) e.1 = v at hown hother ⊢
  obtain ⟨hcauses, hcother⟩ := v.settleCauses_ch ch e.2
  rw [hown] at hcauses
  generalize v.settleCauses ch e.2 = w at hcauses hcother ⊢
  have hk : Judged { s.ch ch with mainReq := s.sys.sbkReq } (w.ch ch) := by
    rw [hcauses]
    have hsrd : Judged e.1 (e.1.withSrd r) := ⟨rfl, fun _ => rfl, fun _ => rfl⟩
    exact (hjudged.trans hsrd).trans ((Judged.latchAll (e.1.withSrd r)).trans (.resets _ _))
  obtain ⟨hloops, houts, hkept, hreq, hdother⟩ := w.driven_spec ch
  refine ⟨hdother.trans (hcother.trans hother), hreq.trans hk.mainReq, fun n hn => ?_, fun n hn => ?_, fun i hi n hn hp hf hm hl hr => ?_,
    fun n hn hreq hr => ?_⟩
  · rw [← show ((w.ch ch).loops.get n).sbk = ((s.ch ch).loops.get n).sbk from hk.sbk n]
    exact hloops n hn
  · rw [← show ((w.ch ch).outs.get n).tripAt = ((s.ch ch).outs.get n).tripAt from hk.tripAt n]
    exact houts n hn
  · rw [hkept, hcauses, hnone hr, List.foldl_nil, KpChan.latched hn]
    have hpresent : ((e.1.withSrd r).sbkPresent n).pair = true := by
      refine List.any_eq_true.mpr ⟨i, List.mem_range.mpr hi, ?_⟩
      have hfi : (e.1.withSrd r).func i = 1 := by
        rw [← hf]
        exact congrArg (fun p : Option (List Byte) => match p with | some b => leAt b (8 * i) 1 | none => 0) hpar
      have hmi : bitOf ((e.1.withSrd r).octMask i) n = true := by
        rw [← hm]
        exact congrArg (fun p : Option (List Byte) => bitOf (match p with | some b => leAt b (8 * i + 1) 1 | none => 0) n) hpar
      rw [hfi, hmi, show ((e.1.withSrd r).pairs.get i).demand = true from hdemand i hi hp hf hl]
      rfl
    show (_ || ((e.1.withSrd r).sbkPresent n).pair) = true
    rw [hpresent, Bool.or_true]
  · rw [hkept, hcauses, hnone hr, List.foldl_nil, KpChan.latched hn]
    have hpresent : ((e.1.withSrd r).sbkPresent n).mainReq = true := hjudged.mainReq.trans hreq
    show (_ || ((e.1.withSrd r).sbkPresent n).mainReq) = true
    rw [hpresent, Bool.or_true]

/-! ### Handshakes -/

/-- An exchange fault puts every octad in SBK and stops both channels. -/
structure Troubled (ch : KpCh) (s t : State) : Prop where
  fault : (t.ch ch).xchFault = true
  stopped : ∀ c, (t.ch c).running = false
  loops : ∀ n < 8, ((t.ch ch).loops.get n).sbk = true ∧ ((t.ch ch).loops.get n).causes.xch = true
  kept : (t.ch ch).lastHs = (s.ch ch).lastHs ∧ (t.ch ch).count = (s.ch ch).count ∧ (t.ch ch).newSeen = (s.ch ch).newSeen
    ∧ (t.ch ch).pairs = (s.ch ch).pairs

/-- A channel with an exchange fault, stopped. -/
def KpChan.stopped (k : KpChan) : KpChan := { k with running := false, goodSince := none }

theorem State.stopBoth_ch (s : State) (ch : KpCh) :
    (((s.updCh ch fun k => { k with xchFault := true }).updCh .a KpChan.stopped).updCh .b KpChan.stopped).ch ch
        = KpChan.stopped { s.ch ch with xchFault := true }
      ∧ (((s.updCh ch fun k => { k with xchFault := true }).updCh .a KpChan.stopped).updCh .b KpChan.stopped).ch (kpOther ch)
        = (s.ch (kpOther ch)).stopped := by
  cases ch <;> exact ⟨rfl, rfl⟩

theorem State.xchTrouble_spec (s : State) (ch : KpCh) (code : Nat) : Troubled ch s (s.xchTrouble ch code) := by
  obtain ⟨hstopped, hsother⟩ := s.stopBoth_ch ch
  have heq : s.xchTrouble ch code = ((((((((s.updCh ch fun k => { k with
      xchFault := true }).updCh .a KpChan.stopped).updCh .b KpChan.stopped).updCh ch
      KpChan.latchAll).applyLoops ch).updCh ch KpChan.latchAll).applyOuts ch).post ch code (kpIdx ch)) := rfl
  rw [heq]
  generalize ((s.updCh ch fun k => { k with xchFault := true }).updCh .a KpChan.stopped).updCh .b KpChan.stopped = u at hstopped hsother ⊢
  obtain ⟨hfollow, hfother⟩ := (u.updCh ch KpChan.latchAll).applyLoops_follow ch
  have hdriven := (u.updCh ch KpChan.latchAll).applyLoops_driven ch
  rw [State.updCh_ch] at hfollow hdriven
  rw [State.updCh_ch_other] at hfother
  generalize (u.updCh ch KpChan.latchAll).applyLoops ch = v at hfollow hfother hdriven ⊢
  have hof := (v.updCh ch KpChan.latchAll).applyOuts_follow ch
  have hoo := (v.updCh ch KpChan.latchAll).applyOuts_ch_other ch
  rw [State.updCh_ch] at hof
  rw [State.updCh_ch_other] at hoo
  have hxch : ∀ n < 8, ((v.ch ch).loops.get n).causes.xch = true := fun n hn => by
    rw [hdriven.causes, KpChan.latched hn, hstopped]
    exact Bool.or_true _
  have hrest : ∃ l r, v.ch ch = { (u.ch ch).latchAll with loops := l, srd := r } := ⟨_, _, hfollow.rest⟩
  have hsbk : ∀ n < 8, ((v.ch ch).loops.get n).sbk = true := fun n hn => by
    rw [hdriven.sbk n hn]
    simp only [SbkCauses.any, hxch n hn, Bool.or_true, Bool.true_or]
  have hlast : ∃ o, ((v.updCh ch KpChan.latchAll).applyOuts ch).ch ch = { (v.ch ch).latchAll with outs := o } := ⟨_, hof.rest⟩
  obtain ⟨l, r, hrest⟩ := hrest
  obtain ⟨o, hlast⟩ := hlast
  generalize (v.updCh ch KpChan.latchAll).applyOuts ch = w at hoo hlast ⊢
  refine ⟨?_, fun c => ?_, fun n hn => ?_, ?_⟩
  · rw [State.post_ch, hlast]
    show (v.ch ch).xchFault = true
    rw [hrest]
    show (u.ch ch).xchFault = true
    rw [hstopped]
    rfl
  · rw [State.post_ch]
    rcases eq_or_eq_kpOther ch c with rfl | rfl
    · rw [hlast]
      show (v.ch c).running = false
      rw [hrest]
      show (u.ch c).running = false
      rw [hstopped]
      rfl
    · rw [hoo, hfother, hsother]
      rfl
  · rw [State.post_ch, hlast]
    dsimp only
    rw [KpChan.latchAll_loop, if_pos hn]
    refine ⟨hsbk n hn, ?_⟩
    show (((v.ch ch).loops.get n).causes.xch || _) = true
    rw [hxch n hn, Bool.true_or]
  · rw [State.post_ch, hlast]
    show (v.ch ch).lastHs = _ ∧ (v.ch ch).count = _ ∧ (v.ch ch).newSeen = _ ∧ (v.ch ch).pairs = _
    rw [hrest]
    show (u.ch ch).lastHs = _ ∧ (u.ch ch).count = _ ∧ (u.ch ch).newSeen = _ ∧ (u.ch ch).pairs = _
    rw [hstopped]
    exact ⟨rfl, rfl, rfl, rfl⟩

theorem Troubled.both {ch : KpCh} {s t : State} (h : Troubled ch s t) : t.kp.a.running = false ∧ t.kp.b.running = false :=
  ⟨h.stopped .a, h.stopped .b⟩

/-- The count of the other channel's clock lies within 3 % (R411). -/
def goodCount (ch : KpCh) (n : Nat) : Bool :=
  match ch with
  | .a => inRange n 4850 5150
  | .b => inRange n 7760 8240

/-- A channel that has received a handshake. -/
def KpChan.shaken (k o : KpChan) (ch : KpCh) (count : BitVec 16) : KpChan :=
  { k with
    lastHs := k.time
    count := count
    newSeen := k.newSeen || kpHeld k o
    badClock := if goodCount ch count.toNat then 0 else k.badClock + 1
    goodSince := if goodCount ch count.toNat then some (k.goodSince.getD k.time) else none
    pairs := forTab 16 k.pairs fun i x => { x with other := (o.pairs.get i).own.level } }

theorem exec_kpHandshake (ch : KpCh) (count : BitVec 16) {s : State} (hv : s.kp.vkp = true) :
    exec (.kpHandshake ch count) s = .next (
      if 2 ≤ ((s.ch ch).shaken (s.ch (kpOther ch)) ch count).badClock then
        ((s.updCh ch fun k => k.shaken (s.ch (kpOther ch)) ch count).updCh ch fun k => { k with badClock := 0 }).xchTrouble ch 0x4602
      else (s.updCh ch fun k => k.shaken (s.ch (kpOther ch)) ch count).settleRun) := by
  simp only [exec, execKpHandshake, hv, Bool.not_true, Bool.false_eq_true, if_false]
  cases ch <;> rfl

/-- Both channels run once their handshakes have been good for 1 ms: nothing else of a channel changes. -/
theorem State.settleRun_ch (s : State) (c : KpCh) : ∃ r x, s.settleRun.ch c = { s.ch c with running := r, xchFault := x } := by
  unfold State.settleRun
  dsimp only
  split
  · cases c <;> exact ⟨_, _, rfl⟩
  · exact ⟨_, _, rfl⟩

/-- What a handshake brings, whatever follows from its count. -/
structure Shaken (k k' : KpChan) : Prop where
  lastHs : k'.lastHs = k.lastHs
  count : k'.count = k.count
  newSeen : k'.newSeen = k.newSeen
  pairs : k'.pairs = k.pairs

theorem KpChan.shaken_pairs (k o : KpChan) (ch : KpCh) (count : BitVec 16) {i : Nat} (hi : i < 16) :
    ((k.shaken o ch count).pairs.get i).other = (o.pairs.get i).own.level := by
  unfold KpChan.shaken
  dsimp only
  rw [get_forTab, if_pos hi]

theorem handshakeTaken (ch : KpCh) (count : BitVec 16) (s : State) (hv : s.kp.vkp = true) :
    ∃ t, exec (.kpHandshake ch count) s = .next t ∧ (t.ch ch).lastHs = (s.ch ch).time ∧ (t.ch ch).count = count
      ∧ (∀ i < 16, ((t.ch ch).pairs.get i).other = ((s.ch (kpOther ch)).pairs.get i).own.level)
      ∧ (kpHeld (s.ch ch) (s.ch (kpOther ch)) = true → (t.ch ch).newSeen = true)
      ∧ (count = (if ch = .a then 5000 else 8000) → (t.ch ch).badClock = 0 ∧ (t.ch ch).goodSince.isSome = true)
      ∧ (count = 0 → 1 ≤ (s.ch ch).badClock → (t.ch ch).xchFault = true ∧ t.kp.a.running = false ∧ t.kp.b.running = false
          ∧ ∀ n < 8, ((t.ch ch).loops.get n).sbk = true) := by
  have hgood : count = (if ch = .a then 5000 else 8000) → goodCount ch count.toNat = true := fun h => by
    rw [h]
    cases ch <;> rfl
  have hbad : count = 0 → goodCount ch count.toNat = false := fun h => by
    rw [h]
    cases ch <;> rfl
  have hpairs := fun i (hi : i < 16) => (s.ch ch).shaken_pairs (s.ch (kpOther ch)) ch count hi
  have hseen : kpHeld (s.ch ch) (s.ch (kpOther ch)) = true → ((s.ch ch).shaken (s.ch (kpOther ch)) ch count).newSeen = true := fun h => by
    show ((s.ch ch).newSeen || _) = true
    rw [h, Bool.or_true]
  have hclock : ((s.ch ch).shaken (s.ch (kpOther ch)) ch count).badClock = if goodCount ch count.toNat then 0 else (s.ch ch).badClock + 1 := rfl
  have hsince : ((s.ch ch).shaken (s.ch (kpOther ch)) ch count).goodSince
      = if goodCount ch count.toNat then some ((s.ch ch).goodSince.getD (s.ch ch).time) else none := rfl
  have hch := s.updCh_ch ch fun k => k.shaken (s.ch (kpOther ch)) ch count
  refine ⟨_, exec_kpHandshake ch count hv, ?_⟩
  have hlast : ((s.ch ch).shaken (s.ch (kpOther ch)) ch count).lastHs = (s.ch ch).time := rfl
  have hcount : ((s.ch ch).shaken (s.ch (kpOther ch)) ch count).count = count := rfl
  generalize (s.updCh ch fun k => k.shaken (s.ch (kpOther ch)) ch count) = u at hch ⊢
  generalize (s.ch ch).shaken (s.ch (kpOther ch)) ch count = k at hch hpairs hseen hclock hsince hlast hcount ⊢
  by_cases h2 : 2 ≤ k.badClock
  · rw [if_pos h2]
    have htrouble := (u.updCh ch fun k => { k with badClock := 0 }).xchTrouble_spec ch 0x4602
    have hng : goodCount ch count.toNat = false := by
      by_contra hg
      rw [hclock, if_pos (by simpa using hg)] at h2
      exact absurd h2 (by decide)
    obtain ⟨hl, hc, hn, hp⟩ := htrouble.kept
    rw [State.updCh_ch, hch] at hl hc hn hp
    refine ⟨hl.trans hlast, hc.trans hcount, fun i hi => ?_, fun h => hn.trans (hseen h), fun h => ?_,
      fun _ _ => ⟨htrouble.fault, htrouble.both.1, htrouble.both.2, fun n hn => (htrouble.loops n hn).1⟩⟩
    · rw [hp]
      exact hpairs i hi
    · rw [hgood h] at hng
      cases hng
  · rw [if_neg h2]
    obtain ⟨r, x, hrun⟩ := u.settleRun_ch ch
    rw [hch] at hrun
    rw [hrun]
    refine ⟨hlast, hcount, hpairs, hseen, fun h => ?_, fun h hb => ?_⟩
    · rw [hgood h] at hclock hsince
      exact ⟨hclock, congrArg Option.isSome hsince⟩
    · rw [hbad h] at hclock
      have : k.badClock = (s.ch ch).badClock + 1 := hclock
      omega

theorem handshakeLost (ch : KpCh) (s : State) (hv : s.kp.vkp = true) (hd : (s.ch ch).lastHs + 30 ≤ (s.ch ch).time)
    (hf : (s.ch ch).xchFault = false ∨ (s.ch ch).goodSince.isSome = true) :
    ∃ t, exec (.kpXchTimeout ch) s = .next t ∧ (t.ch ch).xchFault = true ∧ t.kp.a.running = false ∧ t.kp.b.running = false
      ∧ (∀ n < 8, ((t.ch ch).loops.get n).sbk = true ∧ ((t.ch ch).loops.get n).causes.xch = true) := by
  have hstands : ((s.ch ch).xchFault && (s.ch ch).goodSince.isNone) = false := by
    rcases hf with h | h
    · rw [h]
      rfl
    · rw [← Option.not_isSome, h, Bool.not_true, Bool.and_false]
  have hexec : exec (.kpXchTimeout ch) s = .next ((s.updCh ch fun k => { k with lastHs := k.time }).xchTrouble ch 0x4601) := by
    simp only [exec, execKpXchTimeout, hv, hstands, decide_eq_false (show ¬(s.ch ch).time < (s.ch ch).lastHs + 30 by omega), Bool.not_true,
      Bool.or_self, Bool.false_eq_true, if_false]
  have h := (s.updCh ch fun k => { k with lastHs := k.time }).xchTrouble_spec ch 0x4601
  exact ⟨_, hexec, h.fault, h.both.1, h.both.2, h.loops⟩

/-! ### A faulty pair -/

/-- Of Kingpost a fault changes the fall-back collector's record alone. -/
theorem RaiseFrame.withKp {s u t : State} (h : RaiseFrame u t) (hu : u = { s with kp := u.kp }) : RaiseFrame { s with kp := t.kp } t := by
  have hcore : ({ u with kp := t.kp } : State).core = u.core := by
    have hkp : { t.kp with fallRec := none, fallDirty := false } = { u.kp with fallRec := none, fallDirty := false } := (congrArg State.kp h.core :)
    show ({ u.core with kp := { t.kp with fallRec := none, fallDirty := false } } : State) = u.core
    rw [hkp]
    rfl
  have hs : ({ s with kp := t.kp } : State) = { u with kp := t.kp } := by rw [hu]
  rw [hs]
  exact ⟨h.core.trans hcore.symm, h.reg, h.cell, h.oct, h.eng, h.out, h.retired, h.state, h.lane⟩

theorem State.post_frame (s : State) (c : KpCh) (code src : Nat) : RaiseFrame s (s.post c code src) := by
  unfold State.post
  exact .ite (State.raise_frame ..) (.refl s)

theorem pairFaulty (ch : KpCh) (i : Fin 16) (x : Nat) (s : State) (hv : s.kp.vkp = true) (hx : ((s.ch ch).pairs.get i).disagreeAt = some x)
    (hf : ((s.ch ch).pairs.get i).faulty = false) (hd : x + (s.ch ch).disc i ≤ (s.ch ch).time) :
    ∃ t, exec (.kpInFaulty ch i) s = .next t ∧ ((t.ch ch).pairs.get i).faulty = true
      ∧ ((t.ch ch).pairs.get i).demand = decide ((s.ch ch).func i ≠ 0 ∧ (s.ch ch).func i ≠ 4) ∧ t.ch (kpOther ch) = s.ch (kpOther ch)
      ∧ RaiseFrame { s with kp := t.kp } t := by
  let u := s.updCh ch fun k => { k with pairs := k.pairs.upd i fun x => { x with
    faulty := true, lowSeen := false, changes := [], demand := k.func i != 0 && k.func i != 4, given := false, pressAt := none } }
  have hexec : exec (.kpInFaulty ch i) s = .next (u.post ch 0x4102 i) := by
    simp only [exec, execKpInFaulty, hx, hv, hf, decide_eq_false (show ¬(s.ch ch).time < x + (s.ch ch).disc i by omega), Bool.not_true,
      Bool.or_self, Bool.false_eq_true, if_false]
    rfl
  have hpair : ((u.ch ch).pairs.get i).faulty = true
      ∧ ((u.ch ch).pairs.get i).demand = ((s.ch ch).func i != 0 && (s.ch ch).func i != 4) := by
    rw [State.updCh_ch]
    dsimp only
    rw [Tab.get_upd_same]
    exact ⟨rfl, rfl⟩
  have hrest : u = { s with kp := u.kp } := s.updCh_eq ch _
  refine ⟨_, hexec, ?_, ?_, ?_, (u.post_frame ch 0x4102 i).withKp hrest⟩
  · rw [State.post_ch]
    exact hpair.1
  · rw [State.post_ch, hpair.2]
    simp only [Bool.decide_and, ne_eq, decide_not, bne, beq_eq_decide]
  · rw [State.post_ch]
    exact s.updCh_ch_other ch _

/-- Settles O53: what a channel does to its pins follows from its causes alone, and every event that it posts leaves both channels as they are. -/
theorem kingpostEvaluatesItsInputs : Obligations.KingpostEvaluatesItsInputs := by
  unfold Obligations.KingpostEvaluatesItsInputs
  exact ⟨inputsSampled, inputsEvaluated, handshakeTaken, handshakeLost, pairFaulty⟩

end Sys2Proof.Machine
end
section
/-! SUPPORT. Sensors: demands, gates, results, limits, staleness and the grace time (R496 to R504). -/

namespace Sys2Proof.Machine

theorem RingsOnly.foldl {α : Type} {f : State → α → State} (h : ∀ u a, RingsOnly u (f u a)) (l : List α) (s : State) :
    RingsOnly s (l.foldl f s) := by
  induction l generalizing s with
  | nil => exact .refl s
  | cons a l ih => exact (h s a).trans (ih _)

/-- The descriptors that wait for one thing complete: they leave the list, and their rings go on. -/
theorem State.finishWaiting_rings (s : State) (k : WaitKind) (st : Status) (n : Nat) :
    RingsOnly { s with hif := { s.hif with waiting := s.hif.waiting.filter fun w => w.kind ≠ k } } (s.finishWaiting k st n) :=
  RingsOnly.foldl (fun u _ => RingsOnly.complete u ..) _ _

/-! ### What judging a sensor leaves alone -/

/-- The sensors and the clock are as they were. -/
structure SensorsSame (s t : State) : Prop where
  sensors : t.sensors = s.sensors
  now : t.now = s.now

namespace SensorsSame
variable {s t u : State}

theorem refl (s : State) : SensorsSame s s := ⟨rfl, rfl⟩
theorem trans (h : SensorsSame s t) (k : SensorsSame t u) : SensorsSame s u := ⟨k.sensors.trans h.sensors, k.now.trans h.now⟩

theorem ite {c : Prop} [Decidable c] {a b : State} (ha : SensorsSame s a) (hb : SensorsSame s b) : SensorsSame s (if c then a else b) := by
  split
  · exact ha
  · exact hb

theorem raise (s : State) (code src : Nat) (data : List Byte) : SensorsSame s (s.raise code src data) :=
  ⟨(s.raise_frame code src data).sensors_eq, (s.raise_frame code src data).now_eq⟩

theorem finishWaiting (s : State) (k : WaitKind) (st : Status) (n : Nat) : SensorsSame s (s.finishWaiting k st n) := by
  have h := s.finishWaiting_rings k st n
  unfold RingsOnly at h
  rw [h]
  exact ⟨rfl, rfl⟩

theorem rejectCommit (s : State) (err : Nat) : SensorsSame s (s.rejectCommit err) := by
  unfold State.rejectCommit
  obtain ⟨f, hf⟩ := State.dropWrite_acts .pset
  rw [hf]
  have h (u : State) (hu : SensorsSame s u) : SensorsSame s (u.tellReject err) := hu.trans (raise ..)
  exact h _ ⟨rfl, rfl⟩

theorem settleFreeze (s : State) : SensorsSame s s.settleFreeze := by
  unfold State.settleFreeze
  have h (u : State) (hu : SensorsSame s u) : SensorsSame s (u.finishWaiting .freeze .ok 0) := hu.trans (finishWaiting ..)
  exact .ite (.refl s) (h _ ⟨rfl, rfl⟩)

theorem shutCommit (s : State) : SensorsSame s s.shutCommit := by
  unfold State.shutCommit
  split
  · exact .refl s
  · extract_lets f u
    have hu : SensorsSame s u := ⟨rfl, rfl⟩
    exact .ite (.refl s) (.ite ⟨rfl, rfl⟩ (hu.trans ((rejectCommit ..).trans (finishWaiting ..))))

theorem shutNvm (s : State) : SensorsSame s s.shutNvm := by
  have h : SensorsSame s s.abortErase := ⟨rfl, rfl⟩
  exact h.trans ((settleFreeze _).trans (shutCommit _))

theorem crossing (s : State) (i j : Nat) : SensorsSame s (s.crossing i j) := by
  unfold State.crossing
  extract_lets src
  split
  · exact raise ..
  · have hu : SensorsSame s (s.raise (sensorCode i 0x1902 0x2602 0x3704) src []) := raise ..
    exact .ite hu ⟨hu.sensors, hu.now⟩
  · exact (shutNvm s).trans (raise ..)

theorem throttleEnd (s : State) : SensorsSame s s.throttleEnd := by
  unfold State.throttleEnd
  have h (u : State) (hu : SensorsSame s u) : SensorsSame s (u.raise 0x3709 0 []) := hu.trans (raise ..)
  exact .ite (.refl s) (.ite (h _ ⟨rfl, rfl⟩) ⟨rfl, rfl⟩)

end SensorsSame

/-- What the limits of a sensor leave alone: its reading, its gate, and the other sensors. -/
structure ReadingKept (i : Nat) (s t : State) : Prop where
  other : ∀ j, j ≠ i → t.sensors.get j = s.sensors.get j
  gate : (t.sensors.get i).gate = (s.sensors.get i).gate
  code : (t.sensors.get i).code = (s.sensors.get i).code
  valid : (t.sensors.get i).valid = (s.sensors.get i).valid
  stale : (t.sensors.get i).stale = (s.sensors.get i).stale
  invalid : (t.sensors.get i).invalid = (s.sensors.get i).invalid
  last : (t.sensors.get i).last = (s.sensors.get i).last

theorem State.updSensor_other (s : State) {i j : Nat} (f : Sensor → Sensor) (h : j ≠ i) :
    (s.updSensor i f).sensors.get j = s.sensors.get j := by
  simp only [State.updSensor, Tab.get_upd, if_neg h]

theorem State.updSensor_same (s : State) (i : Nat) (f : Sensor → Sensor) :
    (s.updSensor i f).sensors.get i = f (s.sensors.get i) := by
  simp only [State.updSensor, Tab.get_upd, if_true]

namespace ReadingKept
variable {i : Nat} {s t u : State}

theorem refl (s : State) : ReadingKept i s s := ⟨fun _ _ => rfl, rfl, rfl, rfl, rfl, rfl, rfl⟩
theorem trans (h : ReadingKept i s t) (k : ReadingKept i t u) : ReadingKept i s u :=
  ⟨fun j hj => (k.other j hj).trans (h.other j hj), k.gate.trans h.gate, k.code.trans h.code, k.valid.trans h.valid, k.stale.trans h.stale,
    k.invalid.trans h.invalid, k.last.trans h.last⟩

theorem ite {c : Prop} [Decidable c] {a b : State} (ha : ReadingKept i s a) (hb : ReadingKept i s b) :
    ReadingKept i s (if c then a else b) := by
  split
  · exact ha
  · exact hb

theorem foldl {α : Type} {f : State → α → State} (h : ∀ u a, ReadingKept i u (f u a)) (l : List α) (s : State) :
    ReadingKept i s (l.foldl f s) := by
  induction l generalizing s with
  | nil => exact refl s
  | cons a l ih => exact (h s a).trans (ih _)

theorem of_same (h : SensorsSame s t) : ReadingKept i s t := by
  constructor <;> rw [h.sensors]
  exact fun _ _ => rfl

theorem upd (s : State) {f : Sensor → Sensor} (hg : (f (s.sensors.get i)).gate = (s.sensors.get i).gate)
    (hc : (f (s.sensors.get i)).code = (s.sensors.get i).code) (hv : (f (s.sensors.get i)).valid = (s.sensors.get i).valid)
    (hs : (f (s.sensors.get i)).stale = (s.sensors.get i).stale) (hi : (f (s.sensors.get i)).invalid = (s.sensors.get i).invalid)
    (hl : (f (s.sensors.get i)).last = (s.sensors.get i).last) : ReadingKept i s (s.updSensor i f) := by
  refine ⟨fun j hj => s.updSensor_other f hj, ?_, ?_, ?_, ?_, ?_, ?_⟩ <;> rw [s.updSensor_same i f] <;> assumption

/-- One limit looks at the sensor: only what it has crossed, once or twice, and its demand change. -/
theorem limit (s : State) (j : Nat) (exceeds back : Bool) : ReadingKept i s (s.updSensor i fun _ => ((s.sensor i).limit j exceeds back).1) := by
  have h : ∃ c o d, ((s.sensor i).limit j exceeds back).1 = { s.sensor i with crossed := c, once := o, demand := d } := by
    unfold Sensor.limit
    dsimp only
    split
    · split
      · exact ⟨_, _, _, rfl⟩
      · exact ⟨_, _, _, rfl⟩
    · split
      · split
        · exact ⟨_, _, _, rfl⟩
        · exact ⟨_, _, _, rfl⟩
      · exact ⟨_, _, _, rfl⟩
  obtain ⟨c, o, d, h⟩ := h
  rw [h]
  exact upd s rfl rfl rfl rfl rfl rfl

theorem judge (s : State) (j : Nat) (exceeds back : Bool) : ReadingKept i s (s.judge i j exceeds back) := by
  unfold State.judge
  extract_lets r u v
  have hu : ReadingKept i s u := limit ..
  have hv : ReadingKept i s v := .ite (hu.trans (of_same (.crossing u i j))) hu
  exact .ite (hv.trans (of_same (.raise ..))) hv

theorem judgeAll (s : State) (c : Int) (m : Nat) : ReadingKept i s (s.judgeAll i c m) := by
  unfold State.judgeAll
  refine .ite (foldl (fun u j => judge u j ..) _ _) ?_
  extract_lets y
  refine .ite (.refl s) ?_
  exact foldl (fun u j => judge u j ..) _ _

end ReadingKept

/-! ### Demands and gates -/

theorem demandScheduled (i : Fin 76) (s : State) (ha : s.alive = true) (hsh : s.sheds 4 = false)
    (hd : (s.sensors.get i).schedAt + 400000 * s.fld 0x402000 0 10 ≤ s.now) :
    ∃ t, exec (.scheduledDemand i) s = .next t
      ∧ t = { s with sensors := s.sensors.upd i fun x => { x with elective := true, schedAt := s.now } } := by
  refine ⟨_, ?_, rfl⟩
  simp only [exec, execScheduledDemand, ha, hsh, Bool.not_true, Bool.or_self, Bool.false_eq_true, if_false]
  exact congrArg Host.Outcome.next (if_pos hd)

theorem gateStarted (i : Fin 76) (s : State) (ha : s.alive = true)
    (hd : (s.sensors.get i).demand = true ∨ (s.sensors.get i).elective = true) (hg : (s.sensors.get i).gate = none)
    (hl : ∀ x, (s.sensors.get i).lastGate = some x → i.val < 64 → x + 400000 ≤ s.now) :
    ∃ t, exec (.sensorGateStart i) s = .next t ∧ (t.sensors.get i).gate = some s.now ∧ (t.sensors.get i).demand = false
      ∧ (t.sensors.get i).elective = false ∧ (∀ j, j ≠ i.val → t.sensors.get j = s.sensors.get j) ∧ t = { s with sensors := t.sensors } := by
  have hdem : ((s.sensors.get i).demand || (s.sensors.get i).elective) = true := by simpa using hd
  have hexec : exec (.sensorGateStart i) s = .next (s.updSensor i fun x => { x with
      demand := false, elective := false, gate := some s.now, lastGate := some s.now, spoiled := s.clk.bypassTime.isSome }) := by
    simp only [exec, execSensorGateStart, State.sensor, ha, hdem, hg, Bool.not_true, Option.isSome_none, Bool.or_self, Bool.false_eq_true,
      if_false]
    refine congrArg Host.Outcome.next (if_pos ?_)
    cases hlast : (s.sensors.get i).lastGate with
    | none => exact Nat.zero_le _
    | some x =>
      dsimp only
      split
      · exact hl x hlast (by assumption)
      · exact Nat.zero_le _
  refine ⟨_, hexec, ?_, ?_, ?_, fun j hj => s.updSensor_other _ hj, rfl⟩ <;> rw [s.updSensor_same]

/-! ### Results -/

/-- The gate of a sensor has ended. -/
def State.gateEnded (s : State) (i : Nat) : State := s.updSensor i fun x => { x with gate := none, spoiled := false }

/-- What a result does once the gate has ended. -/
def State.resultTaken (s : State) (i n g : Nat) : State :=
  if (s.sensors.get i).spoiled then (s.gateEnded i).updSensor i fun x => { x with demand := true }
  else match (s.sensors.get i).codeOf n with
    | some c => if -480 ≤ c ∧ c ≤ 1200 then (s.gateEnded i).validReading i c (g + 8000) else (s.gateEnded i).invalidReading i
    | none => (s.gateEnded i).invalidReading i

theorem exec_sensorResult {i : Fin 76} {n : Word} {g : Nat} {s : State} (hg : (s.sensors.get i).gate = some g) (hd : g + 16800 ≤ s.now) :
    exec (.sensorResult i n) s = .next (s.resultTaken i n.toNat g) := by
  simp only [exec, execSensorResult, State.sensor, hg]
  refine congrArg Host.Outcome.next ((if_pos hd).trans ?_)
  rfl

theorem State.gateEnded_same (s : State) (i : Nat) :
    (s.gateEnded i).sensors.get i = { s.sensors.get i with gate := none, spoiled := false } := s.updSensor_same i _

theorem State.gateEnded_other (s : State) {i j : Nat} (h : j ≠ i) : (s.gateEnded i).sensors.get j = s.sensors.get j := s.updSensor_other _ h

/-- A valid reading stands, whatever its limits raise. -/
theorem State.validReading_spec (s : State) (i : Nat) (c : Int) (m : Nat) :
    (∀ j, j ≠ i → (s.validReading i c m).sensors.get j = s.sensors.get j)
      ∧ ((s.validReading i c m).sensors.get i).gate = (s.sensors.get i).gate
      ∧ ((s.validReading i c m).sensors.get i).code = c ∧ ((s.validReading i c m).sensors.get i).valid = true
      ∧ ((s.validReading i c m).sensors.get i).stale = false ∧ ((s.validReading i c m).sensors.get i).invalid = 0
      ∧ ((s.validReading i c m).sensors.get i).last = s.now := by
  unfold State.validReading
  extract_lets u v
  have hu : u.sensors.get i = { s.sensors.get i with
      code := c, valid := true, stale := false, failed := false, invalid := 0, last := s.now } := s.updSensor_same i _
  have huo : ∀ j, j ≠ i → u.sensors.get j = s.sensors.get j := fun j hj => s.updSensor_other _ hj
  have hv : ReadingKept i u v := .judgeAll ..
  have hw : ReadingKept i v (v.updSensor i fun x => { x with prevTick := m, prevCode := c, prevValid := true }) :=
    .upd v rfl rfl rfl rfl rfl rfl
  have h := (hv.trans hw).trans (.of_same (.throttleEnd _))
  generalize State.throttleEnd _ = t at h
  clear_value u v
  exact ⟨fun j hj => (h.other j hj).trans (huo j hj), by rw [h.gate, hu], by rw [h.code, hu], by rw [h.valid, hu], by rw [h.stale, hu],
    by rw [h.invalid, hu], by rw [h.last, hu]⟩

/-- An invalid reading counts; the third in a row fails the sensor. -/
theorem State.invalidReading_spec (s : State) (i : Nat) :
    (∀ j, j ≠ i → (s.invalidReading i).sensors.get j = s.sensors.get j)
      ∧ (s.invalidReading i).sensors.get i = { s.sensors.get i with
          invalid := (s.sensors.get i).invalid + 1
          failed := (s.sensors.get i).failed || decide (3 ≤ (s.sensors.get i).invalid + 1) }
      ∧ RaiseFrame { s with sensors := (s.invalidReading i).sensors } (s.invalidReading i) := by
  unfold State.invalidReading
  extract_lets n u
  have hu : u.sensors.get i = { s.sensors.get i with
      invalid := (s.sensors.get i).invalid + 1
      failed := (s.sensors.get i).failed || decide (3 ≤ (s.sensors.get i).invalid + 1) } := s.updSensor_same i _
  have huo : ∀ j, j ≠ i → u.sensors.get j = s.sensors.get j := fun j hj => s.updSensor_other _ hj
  have hrest : u = { s with sensors := u.sensors } := rfl
  have hf : RaiseFrame u (if n = 3 then u.raise (sensorCode i 0x1904 0x2605 0x3707) (sensorSrc i) [] else u) :=
    .ite (State.raise_frame ..) (.refl u)
  generalize (if n = 3 then _ else u : State) = t at hf
  clear_value u
  rw [hf.sensors_eq, ← hrest]
  exact ⟨huo, hu, hf⟩

theorem resultMeasured (i : Fin 76) (n : Word) (g : Nat) (s : State) (hg : (s.sensors.get i).gate = some g) (hd : g + 16800 ≤ s.now) :
    ∃ t, exec (.sensorResult i n) s = .next t ∧ (t.sensors.get i).gate = none
      ∧ (∀ j, j ≠ i.val → t.sensors.get j = s.sensors.get j)
      ∧ ((s.sensors.get i).spoiled = true → (t.sensors.get i).demand = true ∧ t = { s with sensors := t.sensors })
      ∧ (∀ c, (s.sensors.get i).spoiled = false → (s.sensors.get i).codeOf n.toNat = some c → -480 ≤ c → c ≤ 1200 →
          (t.sensors.get i).code = c ∧ (t.sensors.get i).valid = true ∧ (t.sensors.get i).stale = false
          ∧ (t.sensors.get i).invalid = 0 ∧ (t.sensors.get i).last = s.now)
      ∧ (∀ c, (s.sensors.get i).spoiled = false → (s.sensors.get i).codeOf n.toNat = some c → c < -480 ∨ 1200 < c →
          (t.sensors.get i).code = (s.sensors.get i).code ∧ (t.sensors.get i).invalid = (s.sensors.get i).invalid + 1
          ∧ (2 ≤ (s.sensors.get i).invalid → (t.sensors.get i).failed = true)
          ∧ RaiseFrame { s with sensors := t.sensors } t) := by
  refine ⟨_, exec_sensorResult hg hd, ?_⟩
  have he := s.gateEnded_same i
  have heo : ∀ j, j ≠ i.val → (s.gateEnded i).sensors.get j = s.sensors.get j := fun j hj => s.gateEnded_other hj
  obtain ⟨io, ig, ir⟩ := (s.gateEnded i).invalidReading_spec i
  have hinv : (((s.gateEnded i).invalidReading i).sensors.get i).gate = none ∧
      ∀ j, j ≠ i.val → ((s.gateEnded i).invalidReading i).sensors.get j = s.sensors.get j :=
    ⟨by rw [ig, he], fun j hj => (io j hj).trans (heo j hj)⟩
  unfold State.resultTaken
  cases hsp : (s.sensors.get i).spoiled with
  | true =>
    rw [if_pos rfl]
    have hg' := (s.gateEnded i).updSensor_same i fun x => { x with demand := true }
    refine ⟨by rw [hg', he], fun j hj => ((s.gateEnded i).updSensor_other _ hj).trans (heo j hj), fun _ => ⟨by rw [hg'], rfl⟩,
      fun _ h => absurd h (by decide), fun _ h => absurd h (by decide)⟩
  | false =>
    rw [if_neg (by decide)]
    cases hcode : (s.sensors.get i).codeOf n.toNat with
    | none => exact ⟨hinv.1, hinv.2, fun h => absurd h (by decide), fun _ _ h => absurd h (by simp), fun _ _ h => absurd h (by simp)⟩
    | some c =>
      dsimp only
      by_cases hc : -480 ≤ c ∧ c ≤ 1200
      · rw [if_pos hc]
        obtain ⟨vo, vg, v1, v2, v3, v4, v5⟩ := (s.gateEnded i).validReading_spec i c (g + 8000)
        refine ⟨by rw [vg, he], fun j hj => (vo j hj).trans (heo j hj), fun h => absurd h (by decide), fun c' _ hc' _ _ => ?_,
          fun c' _ hc' hout => ?_⟩
        · obtain rfl := Option.some.inj hc'
          exact ⟨v1, v2, v3, v4, v5⟩
        · obtain rfl := Option.some.inj hc'
          omega
      · rw [if_neg hc]
        refine ⟨hinv.1, hinv.2, fun h => absurd h (by decide), fun c' _ hc' h1 h2 => ?_, fun c' _ _ _ => ⟨by rw [ig, he], by rw [ig, he],
          fun h2 => ?_, ir⟩⟩
        · obtain rfl := Option.some.inj hc'
          exact absurd ⟨h1, h2⟩ hc
        · rw [ig, he]
          simp only [Bool.or_eq_true, decide_eq_true_eq]
          omega

theorem readingStale (i : Fin 76) (s : State) (hv : (s.sensors.get i).valid = true) (hs : (s.sensors.get i).stale = false)
    (hd : (s.sensors.get i).last + 400000 * s.fld 0x402000 10 10 < s.now) :
    ∃ t, exec (.stalenessTimeout i) s = .next t ∧ (t.sensors.get i).stale = true ∧ (t.sensors.get i).demand = true
      ∧ (∀ j, j ≠ i.val → t.sensors.get j = s.sensors.get j) ∧ RaiseFrame { s with sensors := t.sensors } t := by
  have hexec : exec (.stalenessTimeout i) s = .next
      ((s.updSensor i fun x => { x with stale := true, demand := true }).raise (sensorCode i 0x1903 0x2604 0x3706) (sensorSrc i) []) := by
    simp only [exec, execStalenessTimeout, State.sensor, hv, hs, Bool.not_true, Bool.or_self, Bool.false_eq_true, if_false]
    exact congrArg Host.Outcome.next (if_pos hd)
  refine ⟨_, hexec, ?_⟩
  have hu := s.updSensor_same i fun x => { x with stale := true, demand := true }
  have huo : ∀ j, j ≠ i.val → (s.updSensor i fun x => { x with stale := true, demand := true }).sensors.get j = s.sensors.get j :=
    fun j hj => s.updSensor_other _ hj
  have hrest : s.updSensor i (fun x => { x with stale := true, demand := true })
      = { s with sensors := (s.updSensor i fun x => { x with stale := true, demand := true }).sensors } := rfl
  generalize s.updSensor i _ = u at hu huo hrest
  have hf := u.raise_frame (sensorCode i 0x1903 0x2604 0x3706) (sensorSrc i) []
  rw [hf.sensors_eq, ← hrest, hu]
  exact ⟨rfl, rfl, huo, hf⟩

/-! ### The grace time -/

/-- The plan of the energy and thermal unit is as it was. -/
structure EplSame (s t : State) : Prop where
  epl : t.epl = s.epl

namespace EplSame
variable {s t u : State}

theorem refl (s : State) : EplSame s s := ⟨rfl⟩
theorem trans (h : EplSame s t) (k : EplSame t u) : EplSame s u := ⟨k.epl.trans h.epl⟩

theorem ite {c : Prop} [Decidable c] {a b : State} (ha : EplSame s a) (hb : EplSame s b) : EplSame s (if c then a else b) := by
  split
  · exact ha
  · exact hb

theorem startStep (s : State) (l target : Nat) (p : Proc) : EplSame s (s.startStep l target p) := by
  have h : (s.abortEye l).epl = s.epl := by rw [(s.abortEye_spec l).1]
  unfold State.startStep
  extract_lets u
  exact trans (t := u) ⟨h⟩ ⟨rfl⟩

theorem laneWindow (s : State) (l opener src : Nat) : EplSame s (s.laneWindow l opener src) := by
  unfold State.laneWindow
  exact .ite (.refl s) ⟨rfl⟩

theorem speedStep (s : State) (t : Nat) : EplSame s (s.speedStep t) := by
  unfold State.speedStep
  extract_lets p
  have h (u : State) (hu : EplSame s u) : EplSame s (u.startStep (2 * t) p.target .speed) := hu.trans (startStep ..)
  exact .ite (h _ ⟨rfl⟩) (.refl s)

theorem checkTakeover (s : State) (t : Nat) : EplSame s (s.checkTakeover t) := by
  unfold State.checkTakeover
  extract_lets b x opener u
  have hu : EplSame s u := laneWindow ..
  refine .ite (.refl s) ?_
  split
  · have h (v : State) (hv : EplSame u v) : EplSame s (v.speedStep t) := hu.trans (hv.trans (speedStep ..))
    exact .ite (h _ ⟨rfl⟩) (hu.trans (startStep ..))
  · exact (laneWindow s b opener (2 * t)).trans ⟨rfl⟩
  · exact .refl s

theorem changeSpeed (s : State) (t v : Nat) : EplSame s (s.changeSpeed t v) := by
  unfold State.changeSpeed
  have h (u : State) (hu : EplSame s u) : EplSame s (u.checkTakeover t) := hu.trans (checkTakeover ..)
  exact .ite (.refl s) (h _ ⟨rfl⟩)

theorem planLane (s : State) (t : Nat) : EplSame s (s.planLane t) := by
  unfold State.planLane
  extract_lets x runs
  refine .ite (.refl s) ?_
  split
  · exact .refl s
  · refine .ite (changeSpeed ..) (.ite (.ite (changeSpeed ..) (.refl s)) ?_)
    split
    · exact changeSpeed ..
    · exact .refl s

end EplSame

/-- The settings of the plan: of its own state only the clock's wanted point changes. -/
theorem State.planSettings_epl (s : State) : ∃ w, s.planSettings.epl = { s.epl with wantPoint := w } := by
  have h : EplSame s.planClock s.planSettings :=
    forNat_induct (P := EplSame s.planClock) (fun i u hu => hu.trans (.planLane u i)) 64 (.refl _)
  exact ⟨_, h.epl⟩

theorem graceEnded (x i : Nat) (s : State) (hg : s.epl.grace = some (x, i)) (hx : x ≤ s.now) :
    ∃ t, exec .graceTimeEnd s = .next t ∧ t.epl.grace = none
      ∧ (s.throttled = true → t.epl.enforce = true ∧ t.epl.src = BitVec.ofNat 7 i ∧ t.epl.decUp = min 6 (s.epl.decUp + 1))
      ∧ (s.throttled = false → t = { s with epl := { s.epl with grace := none } }) := by
  cases hth : s.throttled with
  | false =>
    refine ⟨{ s with epl := { s.epl with grace := none } }, ?_, rfl, fun h => absurd h (by decide), fun _ => rfl⟩
    simp only [exec, execGraceTimeEnd, hg]
    refine congrArg Host.Outcome.next ((if_pos hx).trans (if_neg ?_))
    exact Bool.eq_false_iff.mp hth
  | true =>
    let u : State := { s with epl := { s.epl with
      grace := none, enforce := true, src := BitVec.ofNat 7 i, decUp := min 6 (s.epl.decUp + 1) } }
    have hexec : exec .graceTimeEnd s = .next (u.raise 0x3708 i []).planSettings := by
      simp only [exec, execGraceTimeEnd, hg]
      exact congrArg Host.Outcome.next ((if_pos hx).trans (if_pos hth))
    obtain ⟨w, hw⟩ := (u.raise 0x3708 i []).planSettings_epl
    rw [(u.raise_frame 0x3708 i []).epl_eq] at hw
    refine ⟨_, hexec, by rw [hw], fun _ => ?_, fun h => absurd h (by decide)⟩
    rw [hw]
    exact ⟨rfl, rfl, rfl⟩

/-! ### THM_DEMAND -/

/-- The sensors that the mask names are demanded. -/
def State.demanded (s : State) (mask : Nat) : State := (s.doThmDemand mask).1

theorem State.demanded_spec (s : State) (mask : Nat) :
    s.demanded mask = { s with sensors := (s.demanded mask).sensors }
      ∧ ∀ i, (s.demanded mask).sensors.get i
        = if i < 76 ∧ mask / 2 ^ i % 2 = 1 then { s.sensors.get i with demand := true } else s.sensors.get i := by
  refine forNat_induct_index (P := fun n u => u = { s with sensors := u.sensors } ∧ ∀ i, u.sensors.get i
    = if i < n ∧ mask / 2 ^ i % 2 = 1 then { s.sensors.get i with demand := true } else s.sensors.get i)
    (f := fun i s => if mask / 2 ^ i % 2 = 1 then s.updSensor i fun x => { x with demand := true } else s) ?_ 76
    ⟨rfl, fun i => (if_neg (by omega)).symm⟩
  intro k u hu
  obtain ⟨hr, hg⟩ := hu
  dsimp only
  by_cases hk : mask / 2 ^ k % 2 = 1
  · rw [if_pos hk]
    refine ⟨by rw [hr]; rfl, fun i => ?_⟩
    by_cases hi : i = k
    · subst hi
      rw [State.updSensor_same, hg, if_neg (by omega), if_pos ⟨by omega, hk⟩]
    · rw [State.updSensor_other _ _ hi, hg]
      exact if_congr (by omega) rfl rfl
  · rw [if_neg hk]
    refine ⟨hr, fun i => (hg i).trans ?_⟩
    by_cases hi : i = k
    · subst hi
      rw [if_neg (fun h => hk h.2), if_neg (fun h => hk h.2)]
    · exact if_congr (by omega) rfl rfl

theorem State.demanded_rings (s : State) (mask : Nat) (rg : Tab Ring) :
    ({ s with rings := rg } : State).demanded mask = { s.demanded mask with rings := rg } := by
  have h : ∀ n, forNat n (fun i s => if mask / 2 ^ i % 2 = 1 then State.updSensor s i fun x => { x with demand := true } else s)
      { s with rings := rg }
        = { forNat n (fun i s => if mask / 2 ^ i % 2 = 1 then State.updSensor s i fun x => { x with demand := true } else s) s with
            rings := rg } := by
    intro n
    induction n with
    | zero => rfl
    | succ n ih =>
      unfold forNat
      rw [ih]
      dsimp only
      split <;> rfl
  exact h 76

theorem demandTaken (h : Hdr) (mask : BitVec 80) (s : State) (hr : s.Ready 0 h (.thmDemand mask)) :
    ∃ t, exec (.thmDemand h mask) s = .next t ∧ s.answered t 0 h (.thmDemand mask) .ok s.fr.k 0
      ∧ (∀ i, t.sensors.get i = if i < 76 ∧ mask.toNat / 2 ^ i % 2 = 1 then { s.sensors.get i with demand := true } else s.sensors.get i)
      ∧ t = { s with sensors := t.sensors, out := t.out, rings := t.rings } := by
  obtain ⟨hrest, hget⟩ := s.demanded_spec mask.toNat
  obtain ⟨hans, ht⟩ := hr.completesTo (s.demanded mask.toNat) (st := .ok) (res := 0) (by decide) (by simp)
    (fun rg => congrArg (fun u => finish _ false (u, Status.ok, 0)) (s.demanded_rings mask.toNat rg))
    (fun a _ => by rw [hrest]; rfl) (by rw [hrest]) (by decide)
  refine ⟨_, rfl, hans, fun i => ?_, ?_⟩
  · rw [ht]
    exact hget i
  · rw [ht, hrest]

/-- Settles O56: a limit of a sensor raises what it must and leaves the reading; the settings of the plan keep the enforcement. -/
theorem sensorsAreDemandedMeasuredAndJudged : Obligations.SensorsAreDemandedMeasuredAndJudged := by
  unfold Obligations.SensorsAreDemandedMeasuredAndJudged
  exact ⟨⟨demandScheduled, gateStarted, resultMeasured, readingStale, graceEnded⟩, demandTaken⟩

end Sys2Proof.Machine
end
section
/-! SUPPORT. A preferred firmware slot beside the two of R571. -/

namespace Sys2Proof.Machine

/-- RESET with the rails in range; the preferred slot has the number 2, and its image is valid. -/
def thirdSlot : State :=
  { State.reset with
    sys := { Sys.init with dev := .reset, rails := true }
    ps := { State.reset.ps with fwPreferred := 2, fw := (Tab.empty FwSlot.init).set 2 { FwSlot.init with valid := true } } }

/-- Neither of the two slots holds an image, but the preferred one does. -/
theorem thirdSlot_valid : thirdSlot.fwValid 0 = false ∧ thirdSlot.fwValid 1 = false ∧ thirdSlot.fwValid 2 = true := by
  have h : thirdSlot.askicaOk = true := beq_self_eq_true (shake256 Config.askicaKey)
  simp only [State.fwValid, h]
  decide +kernel

/-- The reset main device before its boot. -/
def thirdSlotReset : State :=
  { thirdSlot.finishShut.resetMain with sys := { thirdSlot.finishShut.resetMain.sys with pwrgood := true, dev := .boot, step := 4 } }

/-- Booting what the third slot holds. -/
def thirdSlotRunning : State := { thirdSlotReset with ps := { thirdSlotReset.ps with fwRunning := some 2 } }

theorem thirdSlotReset_boots : thirdSlotReset.bootFirmware = thirdSlotRunning := by
  have h : thirdSlotReset.askicaOk = true := beq_self_eq_true (shake256 Config.askicaKey)
  have h0 : thirdSlotReset.fwValid 0 = false := by
    simp only [State.fwValid, h]
    decide +kernel
  have h2 : thirdSlotReset.fwValid thirdSlotReset.ps.fwPreferred = true := by
    simp only [State.fwValid, h]
    decide +kernel
  unfold State.bootFirmware
  dsimp only
  rw [if_neg (show ¬(thirdSlotReset.fwValid 0 = true ∧ thirdSlotReset.fwValid 1 = true) by simp [h0]), if_pos h2]
  rfl

/-- Whether the device holds in BOOT in the next state. -/
def nextHold : Host.Outcome State Fault Refusal → Option Bool
  | .next t => some t.sys.hold
  | _ => none

/-- The boot from the set in the store on, its hop points noted. -/
def State.bootOn (s : State) : State :=
  let t := ((s.mountNvm).loadSet).bootRecord
  ({ t with clk := { t.clk with bootPoints := ((List.range 8).filter t.hopEn).reverse } } : State).bootNext

theorem thirdSlot_exec : exec (.pwrgoodAsserted false) thirdSlot = .next thirdSlotRunning.bootOn := by
  have hhold : thirdSlotRunning.sys.hold = false := by decide +kernel
  have h : exec (.pwrgoodAsserted false) thirdSlot
      = .next (if thirdSlotReset.bootFirmware.sys.hold then thirdSlotReset.bootFirmware else thirdSlotReset.bootFirmware.bootOn) := rfl
  rw [h, thirdSlotReset_boots, hhold]
  rfl

theorem thirdSlot_goes_on : thirdSlotRunning.bootOn.sys.hold = false := by decide +kernel

/-- Refutes O57: the device is said to hold in BOOT whenever the slots 0 and 1 are not valid, whatever the number of the preferred slot; the state
keeps it as a natural number, and where it names another slot that is valid, the device boots that. -/
theorem not_powerStatesFollowTheRails : ¬ Obligations.PowerStatesFollowTheRails := by
  unfold Obligations.PowerStatesFollowTheRails
  rintro ⟨-, -, -, hHold, -⟩
  obtain ⟨h0, h1, -⟩ := thirdSlot_valid
  obtain ⟨t, hexec, -, hheld, -⟩ := hHold thirdSlot rfl h0 h1
  have ht : thirdSlotRunning.bootOn = t := Host.Outcome.next.inj (thirdSlot_exec.symm.trans hexec)
  rw [← ht, thirdSlot_goes_on] at hheld
  cases hheld

end Sys2Proof.Machine
end
section
/-! SUPPORT. A re-qualification of a block whose number no bit of its use map has. -/

namespace Sys2Proof.Machine

/-- The re-qualification of block 0x2008, one of octads numbered from 0 to 7, after its first pass. -/
def ninthOctad : State :=
  { State.reset with sys := { State.reset.sys with
      dev := .idle, bist := { Bist.init with blocks := [0x2008], runs := 1, passes := 1, requalify := true, busy := true } } }

/-- The use map of the octads has eight bits, so block 0x2008 is usable in no state. -/
theorem Sys.ninthOctad_not_usable (y : Sys) : y.usable 0x2008 = false := BitVec.getLsbD_of_ge y.useOct 8 (by decide)

/-- Refutes O58: the second pass of a re-qualification is said to restore its block whatever number the state holds for it; block 0x2008 has no bit
in the use map of the eight octads and stays unusable. -/
theorem not_segmentsAndRundownsEnd : ¬ Obligations.SegmentsAndRundownsEnd := by
  unfold Obligations.SegmentsAndRundownsEnd
  rintro ⟨hEnd, -⟩
  obtain ⟨t, -, -, -, -, -, hRestored⟩ := hEnd 262144 true 0 0x2008 [] ninthOctad rfl
  have hUsable : t.sys.usable 0x2008 = true :=
    hRestored (by decide +kernel) (by decide +kernel) rfl rfl rfl rfl ninthOctad.sys.ninthOctad_not_usable
  rw [t.sys.ninthOctad_not_usable] at hUsable
  cases hUsable

end Sys2Proof.Machine
end
section
/-! SUPPORT. The end of a commit: its store written, its set or its keys in force, or the stored set left (R447 to R449, R453). -/

namespace Sys2Proof.Machine

/-! ### What loading a set leaves alone -/

/-- The protection set, Belfry, the host interface and the tick count are as they were. -/
structure StoreKept (s t : State) : Prop where
  ps : t.ps = s.ps
  bel : t.bel = s.bel
  hif : t.hif = s.hif
  tick : t.tick = s.tick

namespace StoreKept
variable {s t u : State}

theorem refl (s : State) : StoreKept s s := ⟨rfl, rfl, rfl, rfl⟩
theorem trans (h : StoreKept s t) (k : StoreKept t u) : StoreKept s u :=
  ⟨k.ps.trans h.ps, k.bel.trans h.bel, k.hif.trans h.hif, k.tick.trans h.tick⟩

theorem ite {c : Prop} [Decidable c] {a b : State} (ha : StoreKept s a) (hb : StoreKept s b) : StoreKept s (if c then a else b) := by
  split
  · exact ha
  · exact hb

theorem foldl {α : Type} {f : State → α → State} (h : ∀ u a, StoreKept u (f u a)) (l : List α) (s : State) : StoreKept s (l.foldl f s) := by
  induction l generalizing s with
  | nil => exact refl s
  | cons a l ih => exact (h s a).trans (ih _)

theorem forNat {f : Nat → State → State} (h : ∀ i s, StoreKept s (f i s)) (n : Nat) (s : State) : StoreKept s (Machine.forNat n f s) :=
  forNat_induct (P := StoreKept s) (fun i _ hu => hu.trans (h i _)) n (refl s)

theorem setReg (s : State) (a : Nat) (w : Word) : StoreKept s (s.setReg a w) := ⟨rfl, rfl, rfl, rfl⟩
theorem updOct (s : State) (n : Nat) (f : Octad → Octad) : StoreKept s (s.updOct n f) := ⟨rfl, rfl, rfl, rfl⟩

theorem raise (hc : s.ps.commit = none) (code src : Nat) (data : List Byte) : StoreKept s (s.raise code src data) := by
  have h := s.raise_frame code src data
  exact ⟨h.ps_eq hc, h.bel_eq, h.hif_eq, h.tick_eq⟩

theorem segment (h : SegmentFrame s t) : StoreKept s t := by
  unfold SegmentFrame at h
  rw [h]
  exact ⟨rfl, rfl, rfl, rfl⟩

theorem haltSelection (s : State) (n : Nat) : StoreKept s (s.haltSelection n) := by
  unfold State.haltSelection
  extract_lets u v w
  have hu : StoreKept s u := ⟨rfl, rfl, rfl, rfl⟩
  have hv : StoreKept u v := segment (.discardWindow u n)
  have hw : StoreKept v w := ⟨rfl, rfl, rfl, rfl⟩
  exact (hu.trans (hv.trans hw)).trans (updOct ..)

theorem loadRwp (s : State) : StoreKept s s.loadRwp := by
  have hput (u : State) (e : List Byte) : StoreKept u (u.putRwp e) := by
    unfold State.putRwp
    extract_lets a
    split
    · exact .refl u
    · exact foldl (fun v f => setReg v ..) _ _
  unfold State.loadRwp State.loadShadow
  extract_lets u
  have hu : StoreKept s u := foldl (fun v e => .ite (setReg v ..) (.refl v)) _ _
  exact hu.trans (foldl (fun v e => .ite (hput v e) (.refl v)) _ _)

theorem configureOctads (s : State) : StoreKept s s.configureOctads := by
  unfold State.configureOctads
  have hlane (l : Nat) (u : State) : StoreKept u (u.trainLane l) := .ite (segment (.huntLane u l .bringup)) (.refl u)
  have hlanes (u : State) : StoreKept u u.startLanes := by
    rw [State.startLanes_eq]
    exact forNat hlane 128 u
  refine trans ?_ (hlanes _)
  exact forNat (fun n u => .ite (.ite (updOct ..) (.refl u)) (.ite ((haltSelection u n).trans (updOct ..)) (.refl u))) 8 s

/-- Kingpost alone is given the parameters. -/
theorem deliverKingpost (s : State) : StoreKept s s.deliverKingpost := ⟨rfl, rfl, rfl, rfl⟩

end StoreKept

/-- A raised fault leaves the protection set but for what a LOCKOUT notes of a commit. -/
theorem RaiseFrame.ps_but_commit {s t : State} (h : RaiseFrame s t) : { t.ps with commit := none } = { s.ps with commit := none } :=
  congrArg (fun u : State => { u.ps with commit := none }) h.core

/-! ### The ends of a commit -/

/-- The protection set with the new set in force. -/
def State.psApplied (s : State) (c : Commit) : Pset :=
  { s.ps with
    image := some c.image, seq := c.seq, digest := shake256 c.image, profile := c.profile, appliedAt := some s.now, err := 0, commit := none }

/-- The protection set with the new keys in force. -/
def State.psRekeyed (s : State) (c : Commit) (k : Tab KeySlot × KeySlot) : Pset :=
  { s.ps with keys := k.1, owner := k.2, seq := c.seq, err := 0, commit := none }

theorem State.applySet_spec (s : State) (c : Commit) :
    (s.applySet c).ps = s.psApplied c ∧ (s.applySet c).bel = s.bel ∧ (s.applySet c).hif = s.hif := by
  have h0 : s.applySet c = (({ s with ps := s.psApplied c } : State).loadRwp.configureOctads.deliverKingpost).raise 0x3902 0
      (leBytes 4 c.seq.toNat) := rfl
  rw [h0]
  generalize hu0 : ({ s with ps := s.psApplied c } : State) = u
  have hu : u.ps = s.psApplied c ∧ u.bel = s.bel ∧ u.hif = s.hif := by
    rw [← hu0]
    exact ⟨rfl, rfl, rfl⟩
  have hv : StoreKept u u.loadRwp.configureOctads.deliverKingpost := ((StoreKept.loadRwp u).trans (.configureOctads _)).trans (.deliverKingpost _)
  generalize u.loadRwp.configureOctads.deliverKingpost = v at hv
  have hcommit : v.ps.commit = none := by
    rw [hv.ps, hu.1]
    rfl
  have h := hv.trans (.raise hcommit 0x3902 0 (leBytes 4 c.seq.toNat))
  obtain ⟨hps, hbel, hhif⟩ := hu
  exact ⟨h.ps.trans hps, h.bel.trans hbel, h.hif.trans hhif⟩

theorem State.applyKeys_spec (s : State) (c : Commit) (k : Tab KeySlot × KeySlot) :
    (s.applyKeys c k).ps = s.psRekeyed c k ∧ (s.applyKeys c k).bel = s.bel ∧ (s.applyKeys c k).hif = s.hif := by
  have h := StoreKept.raise (s := { s with ps := s.psRekeyed c k }) rfl 0x3903 0 []
  exact ⟨h.ps, h.bel, h.hif⟩

/-- What a commit puts in force: its keys, or its set. -/
def State.inForce (s : State) (c : Commit) : State :=
  match c.keys with
  | some k => s.applyKeys c k
  | none => s.applySet c

/-- The protection set once the commit is in force. -/
def State.psInForce (s : State) (c : Commit) : Pset :=
  match c.keys with
  | some k => s.psRekeyed c k
  | none => s.psApplied c

theorem State.inForce_spec (s : State) (c : Commit) :
    (s.inForce c).ps = s.psInForce c ∧ (s.inForce c).bel = s.bel ∧ (s.inForce c).hif = s.hif := by
  unfold State.inForce State.psInForce
  split
  · exact s.applyKeys_spec c _
  · exact s.applySet_spec c

/-- The write of a store's copy that is complete leaves all but Belfry and its counted activity alone. -/
theorem State.finishWrite_spec (s : State) (p : Part) :
    ((s.finishWrite p).ps = s.ps ∧ (s.finishWrite p).hif = s.hif ∧ (s.finishWrite p).tick = s.tick)
      ∧ ∀ w, (s.bel.writes.find? fun w => w.part == p) = some w →
        (s.finishWrite p).bel.copies.get (2 * p.num + bit w.second)
          = { header := copyHeader w.gen (s.partBytes w), content := s.partBytes w } := by
  unfold State.finishWrite
  split
  · rename_i w hw
    refine ⟨⟨rfl, rfl, rfl⟩, fun w' hw' => ?_⟩
    obtain rfl := Option.some.inj (hw.symm.trans hw')
    have hpart : w.part = p := by simpa using List.find?_some hw
    have h : (s.putCopy w).bel.copies = s.bel.copies.set (2 * w.part.num + bit w.second)
        { header := copyHeader w.gen (s.partBytes w), content := s.partBytes w } := rfl
    rw [h, hpart, Tab.get_set_same]
  · rename_i hn
    exact ⟨⟨rfl, rfl, rfl⟩, fun w hw => absurd (hn.symm.trans hw) (by simp)⟩

theorem State.finishWaiting_spec (s : State) (k : WaitKind) (st : Status) (n : Nat) :
    (s.finishWaiting k st n).ps = s.ps ∧ (s.finishWaiting k st n).bel = s.bel
      ∧ (s.finishWaiting k st n).hif.waiting = s.hif.waiting.filter fun w => w.kind ≠ k := by
  have h := s.finishWaiting_rings k st n
  unfold RingsOnly at h
  rw [h]
  exact ⟨rfl, rfl, rfl⟩

/-- A commit that is given up leaves the set and the keys, with its ERR. -/
theorem State.rejectCommit_spec (s : State) (err : Nat) :
    (s.rejectCommit err).ps = { s.ps with err := BitVec.ofNat 8 err, commit := none } ∧ (s.rejectCommit err).hif = s.hif := by
  unfold State.rejectCommit State.tellReject
  obtain ⟨f, hf⟩ := State.dropWrite_acts .pset
  rw [hf]
  have h (u : State) (hc : u.ps.commit = none) : (u.raise 0x3901 0 [BitVec.ofNat 8 err]).ps = u.ps
      ∧ (u.raise 0x3901 0 [BitVec.ofNat 8 err]).hif = u.hif := ⟨(StoreKept.raise hc ..).ps, (StoreKept.raise hc ..).hif⟩
  exact h _ rfl

/-! ### The command -/

section
variable {c : Commit} {s : State}

/-- A commit whose writes verified, at the boundary. -/
def State.commitEnds (s : State) (c : Commit) : State :=
  (((if c.locked then s.freeNext else s).finishWrite .pset).inForce c).finishWaiting .pset .ok c.seq.toNat

theorem exec_psetApplied_taken (hc : s.ps.commit = some c) (hl : ¬(c.locked = true ∧ s.freeNat % 2 = 1)) (hr : s.reaches s.fr.epoch = true) :
    exec (.psetApplied true) s = .next (s.commitEnds c) := by
  simp only [exec, execPsetApplied, hc]
  refine congrArg Host.Outcome.next ((if_neg (by simp [hr])).trans ((if_neg hl).trans ((if_neg (by decide)).trans ?_)))
  unfold State.commitEnds State.inForce
  rfl

theorem State.commitEnds_spec :
    (s.commitEnds c).ps = s.psInForce c ∧ (∀ w, (s.bel.writes.find? fun w => w.part == .pset) = some w →
        (s.commitEnds c).bel.copies.get (2 + bit w.second) = { header := copyHeader w.gen w.content, content := w.content })
      ∧ (s.commitEnds c).hif.waiting = s.hif.waiting.filter fun w => w.kind ≠ .pset := by
  unfold State.commitEnds
  have hfree : ∃ n, (if c.locked then s.freeNext else s) = { s with free := n } := by
    cases c.locked
    · exact ⟨s.free, rfl⟩
    · exact ⟨s.free + 1, rfl⟩
  obtain ⟨n, hn⟩ := hfree
  rw [hn]
  obtain ⟨⟨hps, hhif, htick⟩, hcopy⟩ := State.finishWrite_spec { s with free := n } .pset
  have hclk : ∀ v : State, v.ps = s.ps → v.tick = s.tick → v.psInForce c = s.psInForce c := fun v h1 h2 => by
    unfold State.psInForce State.psRekeyed State.psApplied State.now
    rw [h1, h2]
  generalize State.finishWrite { s with free := n } .pset = u at hps hhif htick hcopy
  obtain ⟨ips, ibel, ihif⟩ := u.inForce_spec c
  generalize u.inForce c = v at ips ibel ihif
  obtain ⟨wps, wbel, wwait⟩ := v.finishWaiting_spec .pset .ok c.seq.toNat
  refine ⟨wps.trans (ips.trans (hclk u hps htick)), fun w hw => ?_, by rw [wwait, ihif, hhif]⟩
  have hpart : w.part = .pset := by simpa using List.find?_some hw
  have hbytes : ({ s with free := n } : State).partBytes w = w.content := by
    unfold State.partBytes
    rw [hpart]
  rw [wbel, ibel]
  exact (hcopy w hw).trans (by rw [hbytes])

theorem commitAtBoundaryOnly (s : State) (h : s.reaches s.fr.epoch = false) : exec (.psetApplied true) s = .next s := by
  simp only [exec, execPsetApplied]
  split
  · rfl
  · exact congrArg Host.Outcome.next (if_pos ⟨trivial, h⟩)

theorem commitMetByLockout (c : Commit) (s : State) (hc : s.ps.commit = some c) (hl : c.locked = true) (hr : s.reaches s.fr.epoch = true) :
    ∃ t, exec (.psetApplied true) s = .next t ∧ t.ps.commit = none
      ∧ (t.ps.err = 0x0B ∧ t.ps.image = s.ps.image ∧ t.ps.keys = s.ps.keys ∨ t.ps.err = 0 ∧ t.ps.seq = c.seq) := by
  by_cases hf : s.freeNat % 2 = 1
  · have hexec : exec (.psetApplied true) s = .next ((s.freeNext.rejectCommit 0x0B).finishWaiting .pset .state 0) := by
      simp only [exec, execPsetApplied, hc]
      exact congrArg Host.Outcome.next ((if_neg (by simp [hr])).trans (if_pos ⟨hl, hf⟩))
    have hps := ((s.freeNext.rejectCommit 0x0B).finishWaiting_spec .pset .state 0).1.trans (s.freeNext.rejectCommit_spec 0x0B).1
    refine ⟨_, hexec, ?_, .inl ?_⟩ <;> rw [hps]
    exact ⟨rfl, rfl, rfl⟩
  · refine ⟨_, exec_psetApplied_taken hc (fun h => hf h.2) hr, ?_, .inr ?_⟩ <;>
      rw [State.commitEnds_spec.1] <;> unfold State.psInForce <;> split
    · rfl
    · rfl
    · exact ⟨rfl, rfl⟩
    · exact ⟨rfl, rfl⟩

theorem commitInForce (c : Commit) (s : State) (hc : s.ps.commit = some c) (hl : c.locked = false) (hr : s.reaches s.fr.epoch = true) :
    ∃ t, exec (.psetApplied true) s = .next t ∧ t.ps.commit = none ∧ t.ps.seq = c.seq ∧ t.ps.err = 0
      ∧ (∀ w, (s.bel.writes.find? fun w => w.part == .pset) = some w →
          t.bel.copies.get (2 + bit w.second) = { header := copyHeader w.gen w.content, content := w.content })
      ∧ (c.keys = none → t.ps.image = some c.image ∧ t.ps.digest = shake256 c.image ∧ t.ps.profile = c.profile ∧ t.ps.appliedAt = some s.now
          ∧ t.ps.keys = s.ps.keys ∧ t.ps.owner = s.ps.owner)
      ∧ (∀ k, c.keys = some k → t.ps.keys = k.1 ∧ t.ps.owner = k.2 ∧ t.ps.image = s.ps.image ∧ t.ps.profile = s.ps.profile)
      ∧ t.hif.waiting = s.hif.waiting.filter fun w => w.kind ≠ .pset := by
  obtain ⟨hps, hcopy, hwait⟩ := State.commitEnds_spec (s := s) (c := c)
  refine ⟨_, exec_psetApplied_taken hc (fun h => absurd (hl.symm.trans h.1) (by decide)) hr, ?_⟩
  rw [hps]
  unfold State.psInForce
  cases hk : c.keys with
  | none =>
    exact ⟨rfl, rfl, rfl, hcopy, fun _ => ⟨rfl, rfl, rfl, rfl, rfl, rfl⟩, fun _ h => absurd h (by simp), hwait⟩
  | some k =>
    refine ⟨rfl, rfl, rfl, hcopy, fun h => absurd h (by simp), fun k' h => ?_, hwait⟩
    obtain rfl := Option.some.inj h
    exact ⟨rfl, rfl, rfl, rfl⟩

theorem commitFailed (c : Commit) (s : State) (hc : s.ps.commit = some c) (hl : c.locked = false) :
    ∃ t, exec (.psetApplied false) s = .next t ∧ t.ps = { s.ps with commit := none, err := 0x0A }
      ∧ t.hif.waiting = s.hif.waiting.filter fun w => w.kind ≠ .pset := by
  let otp := (c.keyChange || c.profile != s.ps.profile) && s.freeNat % 2 == 0
  let u := if otp then s.freeNext.raise 0x3907 0 [] else s.freeNext
  have hexec : exec (.psetApplied false) s = .next ((u.rejectCommit 0x0A).finishWaiting .pset .state 0) := by
    simp only [exec, execPsetApplied, hc]
    exact congrArg Host.Outcome.next ((if_neg (by simp)).trans ((if_neg (by simp [hl])).trans (if_pos (by decide))))
  have hu : { u.ps with commit := none } = { s.ps with commit := none } ∧ u.hif = s.hif := by
    have h : RaiseFrame s.freeNext u := .ite (State.raise_frame ..) (.refl _)
    exact ⟨h.ps_but_commit, h.hif_eq⟩
  obtain ⟨wps, -, wwait⟩ := (u.rejectCommit 0x0A).finishWaiting_spec .pset .state 0
  obtain ⟨rps, rhif⟩ := u.rejectCommit_spec 0x0A
  clear_value u
  refine ⟨_, hexec, ?_, by rw [wwait, rhif, hu.2]⟩
  rw [wps, rps]
  exact congrArg (fun p : Pset => { p with err := 0x0A }) hu.1

theorem nonceExpired (v : BitVec 128) (q : Word) (x : Nat) (s : State) (hn : s.ps.nonce = some (v, q, x)) (hx : x + nonceTicks ≤ s.now) :
    exec .nonceExpiry s = .next { s with ps := { s.ps with nonce := none } } := by
  simp only [exec, execNonceExpiry, hn]
  exact congrArg Host.Outcome.next (if_pos hx)

end

/-- Settles O59: what a commit puts in force, or its rejection, is the last word on the protection set; the events it tells leave that alone. -/
theorem commitsTakeEffectOrLeaveTheSet : Obligations.CommitsTakeEffectOrLeaveTheSet := by
  unfold Obligations.CommitsTakeEffectOrLeaveTheSet
  exact ⟨commitAtBoundaryOnly, commitMetByLockout, commitInForce, commitFailed, nonceExpired⟩

end Sys2Proof.Machine
end
section
/-! SUPPORT. A boundary-scan test under way as its debug grant expires. -/

namespace Sys2Proof.Machine

/-- A locked device with a boundary-scan test under way, whose grant has come to its end. -/
def scanAtExpiry : State :=
  { State.reset with
    sys := { State.reset.sys with scan := some [true] }
    ps := { State.reset.ps with profile := .g, grant := some (8, 0) } }

/-- Whether a boundary-scan test drives the pins in the next state. -/
def nextScans : Host.Outcome State Fault Refusal → Option Bool
  | .next t => some t.sys.scan.isSome
  | _ => none

/-- The test ends with the grant that it was let run under. -/
theorem scanAtExpiry_ends : nextScans (exec .debugGrantExpiry scanAtExpiry) = some false := by decide +kernel

/-- Refutes O60: the expiry of a grant is said to change nothing but the grant, while a boundary-scan test that runs under it ends with it
(log entry 111). -/
theorem not_debugAccessNeedsItsGrant : ¬ Obligations.DebugAccessNeedsItsGrant := by
  unfold Obligations.DebugAccessNeedsItsGrant
  rintro ⟨-, -, -, hExpiry, -⟩
  have hexec := hExpiry 8 0 scanAtExpiry rfl (by decide +kernel)
  have h : some false = some true := scanAtExpiry_ends.symm.trans (congrArg nextScans hexec)
  cases h

end Sys2Proof.Machine
end
